-- ==== Sys2Proof/Word.lean ====
section
/-! DEFINITION. The word types of the manual: bytes, register words, the identifiers and the instants that travel on the wire. -/

namespace Sys2Proof

/-- A byte of a frame or of a memory. -/
abbrev Byte := BitVec 8

/-- A register word (R456: registers are accessed as 32-bit words). -/
abbrev Word := BitVec 32

/-- A 48-bit node or chip identifier (R4), first byte most significant. -/
abbrev Uid := BitVec 48

/-- An instant of train time in units of 0.25 ns, modulo 2^64 (R59). -/
abbrev Instant := BitVec 64

/-- A counter of nanoseconds with a 32-bit binary fraction (R55, R56). -/
abbrev Fixed := BitVec 96

end Sys2Proof
end

