-- ==== Sys2Proof/Syntax.lean ====
section
/-! DEFINITION. The commands and events that change the device, one constructor per row of spec/opcode_table.json, with the
operands each carries: what arrives on a wire, what a register write names, what a measurement gave. -/

namespace Sys2Proof.Machine

/-- Lines A and B, and the channels that serve them (R46). -/
inductive Line | A | B
deriving DecidableEq, Repr

/-- The two ports of a node on a line. -/
inductive Side | front | rear
deriving DecidableEq, Repr

/-- A backbone port; PORT_ASYM numbers them line A front, A rear, B front, B rear (R60). -/
structure BackbonePort where
  line : Line
  side : Side
deriving DecidableEq, Repr

/-- The pages of the register map (R464); `mac 8` to `mac 11` are the blocks of MAC_BB. -/
inductive Page
  | chip | time | cyc | pwr | clk | intc | sec
  | gtb (l : Line) | loaf (c : Line) | knd (c : Line) | eng (c : Line) (i : Nat)
  | sw | mac (m : Nat) | can (c : Nat) | mvb (c : Nat)
  | twin | lzl | pcie | qspi | cpl | prf | gpio
deriving DecidableEq, Repr

/-- Who makes an access: each bridge and each engine role is a separate requester (R458). -/
inductive Requester
  | pcie | qspi | peer
  | engine (c : Line) (role : Nat)
deriving DecidableEq, Repr

/-- The sync record in the first 8 bytes of a slice payload (R62). -/
structure SyncRecord where
  loop : BitVec 32
  extStep : BitVec 16
  loopValid : Bool
  extValid : Bool
  starter : Bool
  syncSet : Bool
deriving DecidableEq, Repr

/-- The tray header (R124), with the source address and the EtherType of the frame that carries it (R121, R122). -/
structure TrayHeader where
  sa : Uid
  etype : BitVec 16
  version : BitVec 4
  kind : BitVec 4
  last : Bool
  ret : Bool
  auth : Bool
  inaug : Bool
  final : Bool
  reverse : Bool
  index : BitVec 5
  count : BitVec 6
  cycle : BitVec 32
  epoch : BitVec 16
  origin : BitVec 6
  hop : BitVec 8
  sendTime : BitVec 32
deriving DecidableEq, Repr

/-- Slice status flags (R127). -/
structure SliceFlags where
  fresh : Bool
  hat : Bool
  hold : Bool
  doubtful : Bool
  withdrawn : Bool
  spare : Bool
  claimed : Bool
deriving DecidableEq, Repr

/-- A slice as it crosses a port: header (R127), payload and tag. -/
structure Slice where
  uid : Uid
  slot : BitVec 7
  flags : SliceFlags
  seq : BitVec 16
  len : BitVec 16
  stamp : BitVec 32
  payload : List Byte
  tag : BitVec 64
deriving DecidableEq, Repr

/-- What a port cell knows of a received frame besides its bytes (R121, R123, R142, R155): its arrival and departure instants, its size,
the gap since the frame before it ended, whether it carried the other line's address, whether its FCS was good, whether a datapath parity
error was found in it while it crossed the node, and the byte (from the destination address) and bit that the merge stage tries to change
beyond the node's own writes. -/
structure FrameInfo where
  port : BackbonePort
  arrived : Instant
  left : Instant
  size : Nat
  gapNs : Nat
  otherLine : Bool
  fcsOk : Bool
  parity : Bool
  stray : Option (Nat × Nat)
deriving DecidableEq, Repr

/-- The forming block of a cold-start, discovery or key-distribution tray (R138). -/
structure FormingBlock where
  rank : BitVec 3
  suid : Uid
  stamp : BitVec 32
  sync : SyncRecord
  k : BitVec 16
  trayLen : BitVec 32
  idleLen : BitVec 32
  crumbPay : BitVec 16
  auth : Bool
  frAllow : Bool
  crumbCnt : BitVec 4
  frK : BitVec 16
  round : BitVec 8
  followers : BitVec 8
deriving DecidableEq, Repr

/-- A discovery record (R102, R139); in a fresh list HOP is the record's index (R140). -/
structure DiscRecord where
  uid : Uid
  dev : BitVec 8
  hop : BitVec 8
  pay : BitVec 16
  startElig : Bool
  rank : BitVec 3
  syncElig : Bool
  twin : Bool
  frSeen : Bool
  crossed : Bool
  adopted : Bool
  crumb : BitVec 4
deriving DecidableEq, Repr

/-- The discovery body (R139); `fresh` lists the non-empty fresh records. -/
structure DiscBody where
  end1 : Uid
  carried : List DiscRecord
  fresh : List DiscRecord
deriving DecidableEq, Repr

/-- A 68-byte key-distribution entry (R389): recipient and wrapped key material. -/
structure KeyEntry where
  uid : Uid
  iv : BitVec 96
  ct : BitVec 256
  tag : BitVec 128
deriving DecidableEq, Repr

/-- The head of a key-distribution body (R140). -/
structure KeyPlan where
  newEpoch : BitVec 16
  finalCycle : BitVec 32
  firstData : BitVec 32
  rep : BitVec 8
  entryCnt : BitVec 8
deriving DecidableEq, Repr

/-- The key-distribution body (R140), with the entries that a frame of the tray carries. In the frames after frame 0 only the entries are on
the wire. -/
structure KeyBody extends KeyPlan where
  entries : List KeyEntry
deriving DecidableEq, Repr

/-- A frame of the outward or return pass of a data tray (R121 to R134): header, presence map (frame 0 only; REV_LOOP in a reverse
copy) and slices. -/
structure DataFrame where
  hdr : TrayHeader
  presence : BitVec 64
  slices : List Slice
deriving DecidableEq, Repr

/-- The forerunner timing block (R160). -/
structure TimingBlock where
  rxFront : BitVec 32
  rxRear : BitVec 32
  corr : BitVec 32
deriving DecidableEq, Repr

/-- KEY_REQ (R393), with the source address of its frame (R122). -/
structure KeyReqFrame where
  sa : Uid
  uid : Uid
  nonce : BitVec 64
  epoch : BitVec 16
  mac : BitVec 128
deriving DecidableEq, Repr

/-- KEY_GRANT (R393), with the source address of its frame (R122). -/
structure KeyGrantFrame where
  sa : Uid
  uid : Uid
  nonce : BitVec 64
  epoch : BitVec 16
  gen : BitVec 32
  responder : Uid
  iv : BitVec 96
  ct : BitVec 256
  tag : BitVec 128
deriving DecidableEq, Repr

/-- The common header of a twin message (R325). -/
structure TwinHeader where
  twinId : Bool
  ready : Bool
  hatState : BitVec 3
  released : Bool
  epoch : BitVec 16
deriving DecidableEq, Repr

/-- The twin messages after their common header (R325). -/
inductive TwinMsg
  | renew (cycle : BitVec 32) (lease : BitVec 8)
  | grant (cycle : BitVec 32) (epochNum : BitVec 32) (unable : BitVec 8) (unsure : Bool)
  | claim (tick : BitVec 32)
  | handover (tick : BitVec 32) (cause : BitVec 8)
  | handoverAck (tick : BitVec 32)
  | cut (cycle : BitVec 32) (seq : BitVec 16) (flags : SliceFlags) (write : Bool) (len : BitVec 16) (mseq : BitVec 16)
  | merge (mseq : BitVec 16) (offs : BitVec 16) (refresh ready doubtful : Bool) (dough : List Byte)
  | epochHead (num : BitVec 32) (len : BitVec 32) (mirrorCrc : BitVec 32)
  | epochCommit (num : BitVec 32) (crc : BitVec 32)
deriving DecidableEq, Repr

/-- The prefix of a line copy with the slice it carries, or a verdict for a tray frame (R374). -/
inductive LineCopy
  | piece (cycle : BitVec 32) (line : Line) (slot : BitVec 7) (offs : BitVec 16) (bytes : List Byte)
  | verdict (cycle : BitVec 32) (line : Line) (index : BitVec 8) (fcsGood broken : Bool)
deriving DecidableEq, Repr

/-- A forming data segment (R375). -/
structure FormingSegment where
  kind : BitVec 8
  round : BitVec 8
  seg : BitVec 8
  segCnt : BitVec 8
  body : List Byte
deriving DecidableEq, Repr

/-- A remote request (R376). -/
structure RemoteRequest where
  write : Bool
  len : Nat
  addr : Nat
  data : List Byte
  tag : BitVec 16
deriving DecidableEq, Repr

/-- STATUS of a remote response (R376). -/
inductive RemoteStatus | done | retry | error
deriving DecidableEq, Repr

/-- A CAN frame as received: identifier placed as in an element's word 0 (R296). -/
structure CanFrame where
  esi : Bool
  xtd : Bool
  rtr : Bool
  id : BitVec 29
  fdf : Bool
  brs : Bool
  dlc : BitVec 4
  data : List Byte
deriving DecidableEq, Repr

/-- How a transmission attempt ended (R309): in success, in lost arbitration, in an error, or not at all because no pending frame may be sent
(R307). -/
inductive TxOutcome
  | sent
  | arbitrationLost
  | error (ack : Bool)
  | nothing
deriving DecidableEq, Repr

/-- The end of a transmission attempt: LTC in ns at the frame's own start of frame as received back (R304), the falling edges received after the
one sent between FDF and res, in mtq (R293), and how it ended. -/
structure TxEnd where
  start : BitVec 64
  edges : List (BitVec 16)
  outcome : TxOutcome
deriving DecidableEq, Repr

/-- What ISO 11898-1 asks of an error besides its kind (R294): it is a bit error in an active error or overload flag; a dominant bit was seen
behind a receiver's error flag, or during a transmitter's passive one; how many further runs of eight dominant bits followed the flags; and it is a
stuff error in arbitration, of a stuff bit sent recessive and heard dominant. -/
structure CanFault where
  inFlag : Bool
  dominant : Bool
  runs : BitVec 8
  inArbitration : Bool
deriving DecidableEq, Repr

/-- A master frame as the two MVB lines delivered it, valid or not, and whether the slave frame that answers it is read back differently (R314,
R317). -/
structure MvbMaster where
  validA : Bool
  validB : Bool
  conflict : Bool
deriving DecidableEq, Repr

/-- What an MVB line delivered in the place of a slave frame (R315, R317). -/
inductive MvbRx
  | silent
  | bad
  | good (data : List Byte)
deriving DecidableEq, Repr

/-- The 802.1AS messages the grandmaster sends (R77, R286): sequence numbers, the origin time, the phase-change data, the Announce contents, and
the instants of a delay response. -/
inductive AsMsg
  | sync (seq : BitVec 16)
  | followUp (seq : BitVec 16) (origin : BitVec 64) (tbi : BitVec 16) (phase : Int)
  | announce (seq : BitVec 16) (identity : BitVec 64) (prio1 prio2 cls accuracy source : Byte)
  | pdelayReq (seq : BitVec 16)
  | pdelayResp (seq : BitVec 16) (received : BitVec 64)
  | pdelayRespFollowUp (seq : BitVec 16) (sent : BitVec 64)
deriving DecidableEq, Repr

/-- What power-on proofing found (R412): failed engines, the other failed partitions as POR_OTHER lays them out, and where a second excursion ended
it, that abort's cause and the patterns applied. -/
structure PowerOnProof where
  engines : BitVec 32
  others : BitVec 24
  aborted : Option (BitVec 4 × BitVec 20)
deriving DecidableEq, Repr

/-- What a boot stage read when it ended (R397), stages 0x1 to 0x7 in order: the two copies of the manifest, header and entries, the second empty in
a push; the security core firmware; the engine images in the order of their manifest entries, each as many of its bytes as the source held. -/
inductive BootResult
  | rom (otpGood trngGood : Bool) (proof : PowerOnProof)
  | manifest (first second : List Byte)
  | firmware (image : List Byte)
  | fleetKey (good : Bool)
  | images (list : List (List Byte))
  | subsystem
  | complete
deriving DecidableEq, Repr

/-- Where a memory or datapath error was found (R36), with what tells the item it hit. -/
inductive ErrSite
  | engine (c : Line) (i : BitVec 4)
  | kneaderLane (c : Line) (lane : BitVec 4)
  | kneaderTable (c : Line) (addr : BitVec 19)
  | cryptoCore (i : BitVec 1)
  | canCell (c : BitVec 3)
  | mvbCell (j : BitVec 1)
  | gpioCell (p : BitVec 5)
  | tagLink (m : BitVec 2)
  | consistMac (m : BitVec 3)
  | bankSlot (c : Line) (bank : BitVec 2) (slot : BitVec 7)
  | draft (c : Line) (d : BitVec 3)
  | switchFrame (id : Nat)
  | trdpWord (off : BitVec 20)
  | trdpEntry (receive : Bool) (e : BitVec 9)
  | canWord (c : BitVec 3) (off : BitVec 14)
  | mvbWord (j : BitVec 1) (off : BitVec 15)
  | sharedMemory (c : Line) (off : BitVec 18)
  | bridgeBuffer (p : Page)
  | epochShadow
  | saveBuffer
  | doughImage (c : Line)
  | holdCopy (c : Line)
  | trayStaging (c : Line)
  | sliceDirectory (c : Line)
  | lineRegion (c : Line)
  | sharedRegion
  | securityRegion
deriving DecidableEq, Repr

/-- The transaction a crossbar target has not completed (R34): a read or a posted write of a host bridge, a request of the peer chip with the
sequence number of its link frame and, for a write, the address, a load or a store of an engine, a descriptor of its DMA, or a transaction of a
block for which the manual gives an error response no effect. -/
inductive Initiator
  | hostRead (bridge : Requester) (tag : BitVec 16)
  | hostWrite (bridge : Requester) (space : BitVec 2) (addr : BitVec 32) (tag : BitVec 16)
  | peer (tag seq : BitVec 16) (write : Option (BitVec 32))
  | engine (c : Line) (role : BitVec 4) (addr : BitVec 32) (store : Bool)
  | dma (c : Line) (role : BitVec 4) (d : BitVec 2)
  | other
deriving DecidableEq, Repr

/-- A crossbar target that has not completed a transaction (channel A, channel B, shared, security, always-on), and the initiator of it
(R33, R34). -/
structure XbarStall where
  target : BitVec 3
  init : Initiator
deriving DecidableEq, Repr

/-- What is wrong with a word (R36, R44). -/
inductive ErrKind | single | double | parity | protocol
deriving DecidableEq, Repr

/-- What a Lorzel link frame carries, by class (R372). -/
inductive LinkPayload
  | twin (hdr : TwinHeader) (msg : TwinMsg)
  | epochData (bytes : List Byte)
  | copy (c : LineCopy)
  | forming (seg : FormingSegment)
  | request (req : RemoteRequest)
  | response (status : RemoteStatus) (data : List Byte)
  | reserved
deriving DecidableEq, Repr

/-- A Lorzel link frame (R371): CRC verdict, TWIN_ID, REPL, SEQ, TAG and what it carries. -/
structure LinkFrame where
  crcGood : Bool
  twinId : Bool
  repl : Bool
  seq : BitVec 16
  tag : BitVec 16
  payload : LinkPayload
deriving DecidableEq, Repr

/-- The items of the PCIe function's configuration space (R357): where the PCI Express specification places them the manual leaves to it. -/
inductive ConfigItem
  | ids | command | revClass | bar (i : BitVec 2) | subsystem | power | msix | deviceControl | deviceControl2 | other
deriving DecidableEq, Repr

end Sys2Proof.Machine

namespace Sys2Proof

open Machine

/-- The commands and events, one constructor per row of the table, in its order. -/
inductive Instr
  /-- TICK R170. Tick n+1 starts the 40-fabric-clock tick sequence that closes the forming bank, rotates the banks, applies provisional drafts and opens the release gates. -/
  | tick
  /-- CYCLE_MARK R83. Cycle mark CMm fires at tick plus its offset in selected cycles, setting its interrupt, pins and engine pending bit and firing MARK triggers. -/
  | cycleMark (m : BitVec 4)
  /-- CUT R184. The node captures the dough image, hold copy or nothing for its slice of the cycle. -/
  | cut
  /-- RETURN_END R81. The last frame of the return pass on every participating line has been checked and every slot status of the cycle is final. -/
  | returnEnd
  /-- RETURN_CLOSE R82. At 2,560 ns before the tick an incomplete return pass ends the cycle, rejecting pending copies and raising WITHDRAW. -/
  | returnClose
  /-- RATE_CORRECTION R68. At the end of each rate interval the node adjusts RATE_ADJ from the accumulated offset corrections. -/
  | rateCorrection
  /-- HOLD_MAX_EXPIRY R69. HOLD_MAX consecutive cycles without a usable value take HOLDOVER to LEAD or UNSYNC. -/
  | holdMaxExpiry
  /-- SNAP R57. Writing SNAP captures LTC and TTC in the same fabric clock. -/
  | snap
  /-- PPS_EDGE R75. A PPS_IN edge at the Starter gives the error e that is published as EXT_STEP. -/
  | ppsEdge (at_ : BitVec 64) (rising : Bool)
  /-- PPS_LOST R76. No PPS_IN edge for 3 s clears EXT_VALID. -/
  | ppsLost
  /-- AS_OFFS_WRITE R77. A write to AS_OFFS is applied at the next Sync message as a grandmaster phase change. -/
  | asOffsWrite (v : BitVec 64)
  /-- CYC_LEN_WRITE R79. A write of k takes effect at the next tick only while both lines are in OFF. -/
  | cycLenWrite (k : BitVec 11)
  /-- AS_SYNC_TX R286. The grandmaster sends Sync with Follow_Up on a consist port every sync interval. -/
  | asSyncTx (m : BitVec 3) (sfd : BitVec 64)
  /-- AS_ANNOUNCE_TX R286. The grandmaster sends Announce on a consist port every announce interval. -/
  | asAnnounceTx (m : BitVec 3)
  /-- AS_PDELAY_REQ_TX R286. The grandmaster sends Pdelay_Req on a consist port every Pdelay interval. -/
  | asPdelayReqTx (m : BitVec 3) (sfd : BitVec 64)
  /-- LINE_ENABLE R485. A write of 1 to LINE_CTRL.EN lets the line leave OFF when all conditions hold, or raises CFG_BAD. -/
  | lineEnable (l : Line)
  /-- LINE_DISABLE R90. A write of 0 to LINE_CTRL.EN takes the line to OFF and releases BYPASS. -/
  | lineDisable (l : Line)
  /-- LISTEN_TIMER_EXPIRY R90. The listen timer expires; a Starter-eligible node starts a cold start, another restarts the timer. -/
  | listenTimerExpiry (l : Line)
  /-- COLD_START_TRAY_TX R96. A line in COLDSTART sends one cold-start tray per cycle at TX_OFFS out of both ports. -/
  | coldStartTrayTx (l : Line) (a : Instant)
  /-- COLD_START_TRAY_RX R97. A cold-start tray is received, forwarded or dropped by its contention key, and followed. -/
  | coldStartTrayRx (info : FrameInfo) (hdr : TrayHeader) (block : FormingBlock)
  /-- LONE_PROBE_EXPIRY R98. LONE_PROBE cycles elapse and the LONE node sends one cold-start tray. -/
  | loneProbeExpiry (l : Line) (a : Instant)
  /-- PORT_LINK_CHANGE R22. A backbone port's link goes up or down and the event is classified. -/
  | portLinkChange (p : BackbonePort) (up : Bool)
  /-- COUPLING_WINDOW_EXPIRY R23. The coupling window ends without the matching second event, classifying a line repair or CPL_ONLY. -/
  | couplingWindowExpiry (p : BackbonePort)
  /-- CPL_CLOSED_CHANGE R416. A CPL_CLOSED change stays stable for DEBOUNCE ms and becomes the debounced level. -/
  | cplClosedChange (p : BackbonePort) (closed : Bool)
  /-- LINK_SETTLE_EXPIRY R100. A new link has been up for LINK_SETTLE cycles and becomes a working GTB link. -/
  | linkSettleExpiry (p : BackbonePort)
  /-- SEEK_TRAY_TX R101. The Starter sends the seek tray in cycle s towards end 1. -/
  | seekTrayTx (l : Line) (a : Instant)
  /-- SEEK_TRAY_RX R101. A seek tray is forwarded towards end 1, or looped back with END1_UID by the node at the end. -/
  | seekTrayRx (info : FrameInfo) (hdr : TrayHeader) (block : FormingBlock) (body : DiscBody)
  /-- COUNT_TRAY_TX R102. The origin sends the count tray on both lines in cycle s+1. -/
  | countTrayTx (l : Line) (a : Instant)
  /-- COUNT_TRAY_RX R102. A node appends its discovery record to a passing count tray and reads the records on the return pass. -/
  | countTrayRx (info : FrameInfo) (hdr : TrayHeader) (block : FormingBlock) (body : DiscBody)
  /-- CONFIRM_TRAY_TX R104. The origin sends a confirm tray carrying the merged list and collecting a fresh count. -/
  | confirmTrayTx (l : Line) (a : Instant)
  /-- CONFIRM_TRAY_RX R104. A node writes its record into a confirm tray and reads the carried and fresh lists. -/
  | confirmTrayRx (info : FrameInfo) (hdr : TrayHeader) (block : FormingBlock) (body : DiscBody)
  /-- KEY_DIST_TRAY_TX R105. The origin sends the key-distribution tray with new epoch, final cycle and first data cycle, repeating up to 3 times. -/
  | keyDistTrayTx (l : Line) (a : Instant)
  /-- KEY_DIST_TRAY_RX R390. A node unwraps its key entry and derives the next slice key, or counts KEY_FAIL. -/
  | keyDistTrayRx (info : FrameInfo) (hdr : TrayHeader) (block : FormingBlock) (plan : KeyPlan) (entries : List KeyEntry)
  /-- RELINK_EXPIRY R117. The RELINK wait after fallback ends; the former Starter goes to COLDSTART and others start their listen timer. -/
  | relinkExpiry
  /-- INAUG_TRAY_TIMEOUT R90. No discovery or key-distribution tray for 2 cycles returns an inaugurating line to LISTEN. -/
  | inaugTrayTimeout (l : Line)
  /-- INTEGRATE_TIMEOUT R90. No tray of the followed train for 3 cycles returns an integrating line to LISTEN. -/
  | integrateTimeout (l : Line)
  /-- PASSIVE_TMO_EXPIRY R90. PASSIVE_TMO cycles without any tray take a PASSIVE line to LISTEN. -/
  | passiveTmoExpiry (l : Line)
  /-- DATA_TRAY_TX R130. The origin or a node acting as origin sends the data tray with placeholders at TX_OFFS. -/
  | dataTrayTx (l : Line) (a : Instant)
  /-- REVERSE_COPY_RX R487. A reverse copy is discarded, forwarded, looped back or used for time and re-integration. -/
  | reverseCopyRx (info : FrameInfo) (frame : DataFrame)
  /-- TRAY_FRAME_RX R121. A tray frame arrives on the outward pass and passes through with header edits and the node's masked writes. -/
  | trayFrameRx (info : FrameInfo) (hdr : TrayHeader) (presence : BitVec 64) (slices : List Slice)
  /-- V1_FRAME_RX R115. A version-1 frame on a backbone port is counted, dropped, sets FR_SEEN and may trigger an inauguration. -/
  | v1FrameRx (p : BackbonePort)
  /-- RETURN_FRAME_RX R144. A tray frame on the return pass is read, slices tag-checked and copied to the forming bank and slot selection. -/
  | returnFrameRx (info : FrameInfo) (frame : DataFrame) (fcs : Option Bool)
  /-- POSITION_ABSENT R111. A position whose bit is clear on 2 consecutive return passes becomes ABSENT on that line. -/
  | positionAbsent (l : Line) (p : BitVec 6)
  /-- CLAIM_WORD_EXPIRY R114. The origin empties a claim word after 16 return passes without a CLAIMED write. -/
  | claimWordExpiry (c : BitVec 4)
  /-- WINDOW_MISS R150. No outward frame 0 arrives inside the acceptance window; the node forwards without writing and counts the miss. -/
  | windowMiss (l : Line)
  /-- ENTER_PASSIVE R150. Three consecutive misses take the line to PASSIVE, unless R14 makes it act as origin. -/
  | enterPassive (l : Line)
  /-- FORERUNNER_SLOT_TX R163. In forerunner mode a node sends its slot frame, or a null frame, at slot start plus P. -/
  | forerunnerSlotTx (l : Line) (a : Instant)
  /-- SLOT_FRAME_RX R164. A forerunner slot frame is repeated with CORR updated and accepted if inside its slot window. -/
  | slotFrameRx (info : FrameInfo) (hdr : TrayHeader) (timing : TimingBlock) (slice : Slice) (fcs : Option Bool)
  /-- KEY_REQ_TX R393. A chip without its slice key sends KEY_REQ at the start of FREE. -/
  | keyReqTx
  /-- KEY_REQ_RX R393. A chip with the key verifies a KEY_REQ and takes it for answering, or drops it. -/
  | keyReqRx (p : BackbonePort) (f : KeyReqFrame)
  /-- KEY_GRANT_TX R393. The chip sends a KEY_GRANT for each taken KEY_REQ when FREE time allows. -/
  | keyGrantTx
  /-- KEY_GRANT_RX R393. The requester checks a KEY_GRANT and derives the slice key. -/
  | keyGrantRx (p : BackbonePort) (f : KeyGrantFrame)
  /-- KEY_ROLL R391. At a roll-over tick the slice key generation advances. -/
  | keyRoll
  /-- PIN_LATEST R176. The LATEST bank becomes the PINNED bank. -/
  | pinLatest (c : Line)
  /-- PIN_PREVIOUS R176. The PREVIOUS bank becomes the PINNED bank. -/
  | pinPrevious (c : Line)
  /-- UNPIN R176. The host pin is released. -/
  | unpin (c : Line)
  /-- DRAFT_OPEN R181. OPEN clears the draft's mask and starts its age count. -/
  | draftOpen (who : Requester) (c : Line) (d : BitVec 3)
  /-- DRAFT_COMMIT R181. COMMIT merges the draft into the dough image, or makes it PENDING when provisional. -/
  | draftCommit (who : Requester) (c : Line) (d : BitVec 3) (ready doubtful : Bool)
  /-- DRAFT_ABORT R181. ABORT discards an open draft. -/
  | draftAbort (who : Requester) (c : Line) (d : BitVec 3)
  /-- DRAFT_DATA_WRITE R181. A data write to a draft is stored with its byte enables, or dropped with DRAFT_ERR. -/
  | draftDataWrite (who : Requester) (c : Line) (d : BitVec 3) (data : List (BitVec 12 × Byte))
  /-- DRAFT_EXPIRED R181. A draft open for DRAFT_TMO cycles is discarded. -/
  | draftExpired (c : Line) (d : BitVec 3)
  /-- KICK R209. A write of a job index to KICK triggers that job. -/
  | kick (c : Line) (job : BitVec 15)
  /-- JOB_START R211. A triggered job is handed to a free lane by class and order of trigger. -/
  | jobStart (c : Line)
  /-- JOB_COMPLETE R212. A job finishes converting its signals into STAGE or a draft. -/
  | jobComplete (c : Line) (lane : BitVec 3)
  /-- JOB_OVERRUN R212. A job still in flight at its deadline is dropped and its objects resynced. -/
  | jobOverrun (c : Line) (job : BitVec 15)
  /-- JOB_REPLAY R221. After a withdraw, jobs that wrote resynced objects run again with final statuses. -/
  | jobReplay (c : Line)
  /-- BFX R232. Bit-field extract with optional sign extension. -/
  | bfx (c : Line) (r : BitVec 4) (rd rs1 off w1 : BitVec 5) (sx : Bool)
  /-- BFI R232. Bit-field insert into rd. -/
  | bfi (c : Line) (r : BitVec 4) (rd rs1 off w1 : BitVec 5)
  /-- SSCL R232. Signed multiply, rounded shift and saturation. -/
  | sscl (c : Line) (r : BitVec 4) (rd rs1 rs2 : BitVec 5) (sat : BitVec 2) (sh : BitVec 5)
  /-- BSWAP R232. Byte swap of a word, halfwords or low halfword. -/
  | bswap (c : Line) (r : BitVec 4) (rd rs1 : BitVec 5) (mode : BitVec 2)
  /-- LDP R233. Provisional load from the forming bank, writing the slot status to XKSTAT and tainting on PROVISIONAL. -/
  | ldp (c : Line) (r : BitVec 4) (rd rs1 : BitVec 5) (imm : BitVec 12)
  /-- WFT R240. Wait for tick, marks or events; with bit 16 it seals the release queue. -/
  | wft (c : Line) (r : BitVec 4) (rd rs1 : BitVec 5)
  /-- WFT_RETURN R241. A selected pending bit becomes set; WFT returns and moves the view on a tick. -/
  | wftReturn (c : Line) (r : BitVec 4)
  /-- EBREAK R226. EBREAK without a debugger halts the engine and stores HALT_PC. -/
  | ebreak (c : Line) (r : BitVec 4)
  /-- ENGINE_LOAD R228. An engine load from its address map, raising an access fault when refused. -/
  | engineLoad (c : Line) (r : BitVec 4) (rd : BitVec 5) (addr : Word) (size : BitVec 2) (zext : Bool)
  /-- ENGINE_STORE R242. An engine store lands or enters the release queue when it targets the release window or the engine is tainted. -/
  | engineStore (c : Line) (r : BitVec 4) (addr : Word) (size : BitVec 2) (v : Word)
  /-- EVQ_POP R236. A read of EVQ_POP returns and removes the next event word. -/
  | evqPop (c : Line) (r : BitVec 4) (rd : BitVec 5)
  /-- MBOX_OUT_DB R249. Firmware rings the outbound doorbell; OUT_FULL sets and MBOX_OUT is raised. -/
  | mboxOutDb (c : Line) (r : BitVec 4)
  /-- MBOX_IN_ACK R249. Firmware acknowledges the inbound mailbox; IN_FULL clears. -/
  | mboxInAck (c : Line) (r : BitVec 4)
  /-- IN_DB R249. The host rings the inbound doorbell; IN_FULL sets and the engine receives MBOX_IN. -/
  | inDb (c : Line) (e : BitVec 4)
  /-- OUT_ACK R249. The host acknowledges the outbound mailbox; OUT_FULL clears and the engine receives MBOX_ACK. -/
  | outAck (c : Line) (e : BitVec 4)
  /-- SEMAPHORE_LOAD R250. A semaphore load takes a free semaphore or returns its holder. -/
  | semaphoreLoad (c : Line) (r : BitVec 4) (rd : BitVec 5) (k : BitVec 6)
  /-- SEMAPHORE_STORE R250. A store of 0 by the holding role frees the semaphore. -/
  | semaphoreStore (c : Line) (r : BitVec 4) (k : BitVec 6) (v : Word)
  /-- DMA_GO R247. Setting GO starts a DMA descriptor, held until release when tainted and outbound. -/
  | dmaGo (c : Line) (r : BitVec 4) (d : BitVec 2)
  /-- DMA_DONE R247. A DMA descriptor ends, with or without error. -/
  | dmaDone (c : Line) (r : BitVec 4) (d : BitVec 2)
  /-- PLANNED_MOVE R253. In IDLE the hardware copies a waiting engine's state to the spare, taking over at the next tick. -/
  | plannedMove (c : Line)
  /-- ENG_WDT R255. WDT ticks without a sealing WFT restart the role at WARM_ENTRY. -/
  | engWdt (c : Line) (r : BitVec 4)
  /-- ENG_RUN R258. ENG_CTRL.RUN starts or halts the role at COLD_ENTRY or the next instruction boundary. -/
  | engRun (c : Line) (e : BitVec 4) (on : Bool)
  /-- ENG_WARM R259. ENG_CTRL.WARM restarts the role at WARM_ENTRY without counting. -/
  | engWarm (c : Line) (e : BitVec 4)
  /-- FRAME_RX R263. The switch receives a frame, checks size and FCS, assigns VLAN, traps, filters and forwards it. -/
  | frameRx (q : BitVec 4) (bytes : List Byte) (fcsOk : Bool) (sof : BitVec 64)
  /-- FRAME_TX_START R272. A queued frame starts when its gate stays open until its end. -/
  | frameTxStart (q : BitVec 4) (sfd : BitVec 64)
  /-- GATE_DROP R272. A frame at the head of its queue for a whole cycle is dropped. -/
  | gateDrop (q : BitVec 4) (g : BitVec 3)
  /-- GCL_ENTRY_EXPIRY R271. A gate-control entry's interval ends and the next entry opens its gates. -/
  | gclEntryExpiry (q : BitVec 4)
  /-- GCL_SWAP R271. A write to GCL_CTRL swaps the port's gate-control banks at the next tick. -/
  | gclSwap (mask : BitVec 12)
  /-- FDB_AGE_OUT R266. A learned entry not refreshed for AGE seconds is removed. -/
  | fdbAgeOut (e : BitVec 13)
  /-- RING_TAIL_WRITE R273. The owner writes TAIL, handing descriptors to the device. -/
  | ringTailWrite (g : BitVec 6) (tail : BitVec 16)
  /-- TX_DESC_DONE R274. The device writes a transmit descriptor back once the frame is in the buffer or has started. -/
  | txDescDone (g : BitVec 6)
  /-- TRDP_TX_FETCH R277. At tick plus OFFS an enabled transmit entry builds and queues one telegram. -/
  | trdpTxFetch (e : BitVec 9)
  /-- PAUSE_FRAME_RX R279. A received PAUSE frame sets or replaces the port's pause time. -/
  | pauseFrameRx (q : BitVec 4) (quanta : BitVec 16)
  /-- PAUSE_EXPIRY R279. The pause time runs out and transmission resumes. -/
  | pauseExpiry (q : BitVec 4)
  /-- PAUSE_STORM R280. A pause held for WD ms is ended and PAUSE frames are ignored for HOLDOFF. -/
  | pauseStorm (q : BitVec 4)
  /-- PAUSE_STORM_END R280. The hold-off ends and measuring restarts. -/
  | pauseStormEnd (q : BitVec 4)
  /-- PAUSE_TX_REPEAT R281. Half the quanta elapse above XON and the PAUSE frame is repeated, or quanta 0 is sent at XON. -/
  | pauseTxRepeat (q : BitVec 4)
  /-- CB_RESET R285. A recovery function passes no frame for RESET_MS and resets its history. -/
  | cbReset (fn : Byte)
  /-- ETB_EN_WRITE R287. ETB_EN takes effect only while both lines are in OFF, switching ETB mode. -/
  | etbEnWrite (on : Bool)
  /-- CAN_ENABLE R294. CAN_CTRL.EN = 1 takes the controller to INTEGRATING. -/
  | canEnable (c : BitVec 3)
  /-- CAN_DISABLE R294. CAN_CTRL.EN = 0 takes the controller to OFF and cancels pending requests. -/
  | canDisable (c : BitVec 3)
  /-- CAN_INTEGRATED R294. 11 consecutive recessive bits take the controller to ERR_ACTIVE. -/
  | canIntegrated (c : BitVec 3)
  /-- CAN_FRAME_RX R298. A valid received frame is stored in a buffer, FIFO or dropped. -/
  | canFrameRx (c : BitVec 3) (frame : CanFrame) (ts : BitVec 64)
  /-- CAN_ERROR R294. A protocol error changes TEC or REC and may change the error state. -/
  | canError (c : BitVec 3) (code : BitVec 3) (dataPhase : Bool) (transmitter : Bool) (fault : CanFault)
  /-- RESTART R294. A write of RESTART in BUS_OFF starts recovery. -/
  | restart (c : BitVec 3)
  /-- BUS_ON R294. 128 occurrences of 11 recessive bits complete recovery. -/
  | busOn (c : BitVec 3)
  /-- CAN_RX_LOCK R301. A read of word 0 of an unlocked receive buffer locks it for the reader. -/
  | canRxLock (c : BitVec 3) (b : BitVec 6) (r : Requester)
  /-- CAN_RX_UNLOCK R301. A read of the last data word by the holder releases the lock and moves the shadow in. -/
  | canRxUnlock (c : BitVec 3) (b : BitVec 6) (r : Requester)
  /-- LOCK_TMO R303. A lock held for LOCK_TMO µs is released. -/
  | lockTmo (c : BitVec 3) (b : BitVec 6)
  /-- FIFO_ACK R304. A write to FIFOn_ACK advances GET. -/
  | fifoAck (c : BitVec 3) (f : BitVec 1) (n : BitVec 6)
  /-- TX_REQ R306. A write to TX_REQ sets a transmit request. -/
  | txReq (c : BitVec 3) (mask : BitVec 64)
  /-- CAN_PERIODIC_REQ R306. At tick plus OFFS a periodic buffer sets a transmit request. -/
  | canPeriodicReq (c : BitVec 3) (b : BitVec 6)
  /-- TX_CANCEL R308. A write to TX_CANCEL cancels a request as far as its state allows. -/
  | txCancel (c : BitVec 3) (mask : BitVec 64) (started : Option (BitVec 64)) (late : BitVec 64)
  /-- TX_FLIP R305. A write to TX_FLIP swaps STAGE and LIVE of a WRITTEN buffer. -/
  | txFlip (c : BitVec 3) (mask : BitVec 64)
  /-- CAN_TX_ATTEMPT_END R309. A transmission attempt ends in success, lost arbitration or error, clearing or keeping the request. -/
  | canTxAttemptEnd (c : BitVec 3) (late : BitVec 64) (ended : TxEnd)
  /-- CAN_BUF_CFG_WRITE R297. A write to a buffer configuration entry applies, is ignored while EN = 1, or clears EN. -/
  | canBufCfgWrite (c : BitVec 3) (b : BitVec 6) (w : BitVec 2) (v : Word) (started : Option (BitVec 64)) (late : BitVec 64)
  /-- LISTEN_ONLY_START R310. Listen-only begins at the end of the frame in progress and pending requests are cancelled. -/
  | listenOnlyStart (c : BitVec 3)
  /-- LISTEN_ONLY_END R310. Listen-only ends and the controller integrates before sending. -/
  | listenOnlyEnd (c : BitVec 3)
  /-- MVB_MASTER_FRAME_RX R314. A master frame addressing a source port is answered with a slave frame. -/
  | mvbMasterFrameRx (j : BitVec 1) (fcode : BitVec 4) (addr : BitVec 12) (seen : MvbMaster)
  /-- MVB_SLAVE_FRAME_RX R315. A slave frame for a sink port is checked and written. -/
  | mvbSlaveFrameRx (j : BitVec 1) (a : MvbRx) (b : MvbRx) (inWindow : Bool)
  /-- PORT_STALE R316. A sink port without update for SINK_TMO ms sets STALE. -/
  | portStale (j : BitVec 1) (e : Byte)
  /-- PORT_FLIP R313. A write to PORT_FLIP flips a WRITTEN source port. -/
  | portFlip (j : BitVec 1) (e : Byte)
  /-- RENEW_RX R327. A standby receives RENEW(n) before its tick n+1 and answers with GRANT. -/
  | renewRx (hdr : TwinHeader) (cycle : BitVec 32) (lease : BitVec 8)
  /-- GRANT_RX R327. A wearer receives GRANT(n) before its tick n+1 and sets a. -/
  | grantRx (hdr : TwinHeader) (cycle epochNum : BitVec 32) (unable : BitVec 8) (unsure : Bool)
  /-- LEASE_END R328. At tick a+LEASE without a later grant the wearer sets PEER_LOST or enters PARTITIONED. -/
  | leaseEnd
  /-- CLAIM R329. At tick g+L+GUARD a READY standby claims the hat and restores its committed epoch. -/
  | claim
  /-- CLAIM_RX R331. A received CLAIM makes a NONE chip standby, or a junior back off. -/
  | claimRx (hdr : TwinHeader) (tick : BitVec 32)
  /-- STARTUP_COUNT_REACHED R331. START_SENIOR or START_JUNIOR ticks pass without RENEW or CLAIM and the chip claims or partitions. -/
  | startupCountReached
  /-- HANDOVER R334. A write of 1 to TWIN_CTRL.HANDOVER requests an announced handover. -/
  | handover (on : Bool)
  /-- HANDOVER_RX R332. A READY standby receives HANDOVER(h) and answers HANDOVER_ACK. -/
  | handoverRx (hdr : TwinHeader) (tick : BitVec 32) (cause : BitVec 8)
  /-- HANDOVER_ACK_RX R333. The wearer receives HANDOVER_ACK(h) before tick h. -/
  | handoverAckRx (hdr : TwinHeader) (tick : BitVec 32)
  /-- HANDOVER_TICK R333. At tick h both chips make a held tick and the hat changes chips. -/
  | handoverTick
  /-- HAT_OUT_RELEASE R333. The outgoing wearer drops HAT_OUT on the peer's RELEASED header or at tick h+2. -/
  | hatOutRelease
  /-- HOST_GRANT R332. A write of 0xB4A7 to HOST_GRANT brings a PARTITIONED chip to WEARING. -/
  | hostGrant (v : BitVec 16)
  /-- MERGE_RX R335. A standby applies a MERGE record in MSEQ order or marks its image unsure. -/
  | mergeRx (hdr : TwinHeader) (mseq offs : BitVec 16) (refresh ready doubtful : Bool) (dough : List Byte)
  /-- CUT_RECORD_RX R336. The standby uses a timely CUT record for its slice write. -/
  | cutRecordRx (hdr : TwinHeader) (cycle : BitVec 32) (seq : BitVec 16) (flags : SliceFlags) (write : Bool) (len mseq : BitVec 16)
  /-- EPOCH_HEAD_RX R340. The standby starts receiving a state epoch, checking its MIRROR CRC. -/
  | epochHeadRx (hdr : TwinHeader) (num len crc : BitVec 32)
  /-- EPOCH_COMMIT_RX R340. A correct EPOCH_COMMIT before tick n+2 commits the epoch. -/
  | epochCommitRx (hdr : TwinHeader) (num crc : BitVec 32) (data : List Byte)
  /-- HBT_PULSE_RX R326. A pulse on HBT_IN is measured and decoded. -/
  | hbtPulseRx (widthNs : BitVec 16) (start : BitVec 64)
  /-- HBT_LOST R326. Two ticks without an HBT_IN pulse make HBT_IN silent. -/
  | hbtLost
  /-- PCIE_INBOUND_WRITE R359. An inbound posted write is queued and applied to its target. -/
  | pcieInboundWrite (bar2 : Bool) (addr : BitVec 24) (data : List (Option Byte)) (poisoned : Bool) (tag : BitVec 16)
  /-- PCIE_INBOUND_READ R356. An inbound read is served after earlier writes and completed. -/
  | pcieInboundRead (bar2 : Bool) (addr : BitVec 24) (len : BitVec 13) (tag : BitVec 16) (spoiled : Bool)
  /-- PCIE_COMPLETION_RX R358. A completion for an outbound read arrives, good or in error. -/
  | pcieCompletionRx (tag : BitVec 8) (data : Option (List Byte))
  /-- CPL_TMO R358. An outbound read without all completions within the timeout ends in error. -/
  | cplTmo (tag : BitVec 8)
  /-- LINK_DOWN R362. A PCIe link-down, hot reset or D3hot affects the bridge only. -/
  | linkDown (d3 : Bool)
  /-- MSIX_MESSAGE R460. An armed vector with pending level 1 is disarmed and its message passed to the bridge. -/
  | msixMessage (v : BitVec 6)
  /-- VEC_REARM R460. A write to VEC_REARM arms a vector. -/
  | vecRearm (mask : BitVec 64)
  /-- QSPI_WRITE R366. A host SPI WRITE is posted when the queue has room, otherwise RETRY. -/
  | qspiWrite (addr : Word) (len : BitVec 16) (data : List Byte) (room : Bool)
  /-- QSPI_READ R365. A host SPI READ is served through the delayed-read slot. -/
  | qspiRead (addr : Word) (len : BitVec 16)
  /-- DR_CLEAR R365. DR_CLEAR empties the delayed-read slot. -/
  | drClear
  /-- DR_FETCH_DONE R365. The delayed-read fetch completes with data or error. -/
  | drFetchDone
  /-- DR_TMO R365. Held data unread for DR_TMO µs is discarded. -/
  | drTmo
  /-- FENCE R368. A FENCE read completes after all earlier posted writes and returns the error epoch. -/
  | fence (b : Requester)
  /-- POSTED_FAIL R367. A posted write receives a failing final response and is logged. -/
  | postedFail (b : Requester) (source : BitVec 1) (cause : BitVec 4) (space : BitVec 2) (addr : Word) (tag : BitVec 16)
  /-- PLOG_CLR R369. A write of 1 to PLOG_CLR invalidates every log entry. -/
  | plogClr (b : Requester)
  /-- LANE_UP R370. A Lorzel lane holds block lock for 1,024 blocks and comes up. -/
  | laneUp (lane : BitVec 1)
  /-- LANE_DOWN R370. A Lorzel lane loses block lock or sees 8 CRC errors in 1 µs. -/
  | laneDown (lane : BitVec 1)
  /-- LINK_FRAME_RX R371. A Lorzel link frame is checked, de-duplicated and delivered to its class. -/
  | linkFrameRx (lane : BitVec 1) (f : LinkFrame)
  /-- LINE_COPY_RX R374. A line copy or verdict from the peer chip enters slot selection. -/
  | lineCopyRx (copy : LineCopy)
  /-- FORMING_DATA_RX R375. A forming data segment is received and an item held once complete. -/
  | formingDataRx (seg : FormingSegment)
  /-- REMOTE_REQUEST_RX R376. A remote request from the peer is served as a host access, refused or retried. -/
  | remoteRequestRx (req : RemoteRequest) (seq : BitVec 16)
  /-- REMOTE_RESPONSE_RX R376. A remote response ends an outstanding peer-window read. -/
  | remoteResponseRx (tag : BitVec 16) (status : RemoteStatus) (data : List Byte)
  /-- RMT_TMO R376. A remote read without response within RMT_TMO ends in error. -/
  | rmtTmo
  /-- LC_MANUFACTURE R384. Command 0x1 moves BLANK to MANUFACTURE and burns the UID. -/
  | lcManufacture
  /-- LC_PROVISION R384. Command 0x2 moves MANUFACTURE to PROVISIONED and burns device key and KEK. -/
  | lcProvision
  /-- LC_DEPLOY R384. Command 0x3 moves PROVISIONED to DEPLOYED. -/
  | lcDeploy
  /-- LC_RETURN R384. Command 0x4 moves DEPLOYED to RETURN and destroys keys. -/
  | lcReturn
  /-- LC_SCRAP R384. Command 0x5 moves the device to SCRAPPED and destroys every OTP key. -/
  | lcScrap
  /-- OPERATOR_ROOT_INSTALL R384. Command 0x6 burns an operator root hash. -/
  | operatorRootInstall
  /-- ROOT_REVOKE R386. Command 0x7 burns a bit of the root revocation word. -/
  | rootRevoke
  /-- FLEET_KEY_INSTALL R387. Command 0x8 installs a wrapped fleet key. -/
  | fleetKeyInstall
  /-- DEBUG_TOKEN R398. Command 0x9 opens debug access as PERM allows. -/
  | debugToken
  /-- HEAD_KEY_INSTALL R422. Command 0xA installs the head master key. -/
  | headKeyInstall
  /-- DBG_CHAL_READ R398. A read of DBG_CHAL0 draws a new challenge. -/
  | dbgChalRead (who : Requester)
  /-- ZEROISE R399. A write of 0xB4A7 to SEC.ZEROISE clears keys and takes both lines to OFF. -/
  | zeroise (v : BitVec 16)
  /-- TRNG_FAIL R396. A TRNG health test fails and entropy stops. -/
  | trngFail
  /-- BOOT_STAGE_DONE R397. A secure-boot stage completes and the next begins, or the boot stops with BOOT_FAIL. -/
  | bootStageDone (r : BootResult)
  /-- PUSH_CHUNK R447. PUSH_CTRL with GO hands a boot-stream chunk to the security core. -/
  | pushChunk (who : Requester) (len : BitVec 18) (last : Bool)
  /-- PUSH_CHUNK_TAKEN R447. The security core takes the chunk and READY sets again. -/
  | pushChunkTaken
  /-- PROOF_INTERVAL_EXPIRY R406. INTERVAL cycles after a PASS the next target is chosen for a planned move. -/
  | proofIntervalExpiry (t : BitVec 3)
  /-- PROOF_RUN_START R407. In IDLE the cell is saved and its patterns start. -/
  | proofRunStart (t : BitVec 3)
  /-- PROOF_PATTERNS_DONE R407. The last pattern is captured and the signature compared. -/
  | proofPatternsDone (t : BitVec 3) (sig : BitVec 128)
  /-- PROOF_RESTORE R407. At the next IDLE the cell is restored and the result written. -/
  | proofRestore (t : BitVec 3)
  /-- PRF_STOP R409. PRF_CTRL.STOP aborts every in-service run. -/
  | prfStop
  /-- MAINT_CMD R413. A MAINT_CMD write with GO starts a maintenance run if accepted. -/
  | maintCmd (v : Word)
  /-- TAG_SESSION R424. A debounced closing on an active tag link counts a mate and starts a tag session. -/
  | tagSession (m : BitVec 2)
  /-- TAG_RESPONSE_RX R418. A tag response is checked and advances the session. -/
  | tagResponseRx (m : BitVec 2) (request response : List Byte)
  /-- TAG_TIMEOUT R419. A tag does not answer in time and the request is retried. -/
  | tagTimeout (m : BitVec 2)
  /-- MARGIN_SAMPLE R425. Link margin is read 16 times at 1 ms intervals once 100 ms after link-up. -/
  | marginSample (m : BitVec 2) (linked : Bool) (reads : List (Option (BitVec 16)))
  /-- PD_CTRL_WRITE R432. A PD_CTRL write requests domain power-ups or power-downs, or is refused. -/
  | pdCtrlWrite (v : BitVec 32)
  /-- PD_DONE R433. The sequencer completes a domain switch. -/
  | pdDone
  /-- BROWNOUT_WARN R437. VDD below 0.760 V for 200 ns enters BO_WARN. -/
  | brownoutWarn (mv : BitVec 12)
  /-- BROWNOUT_LONG R437. The warning time reaches 50 µs. -/
  | brownoutLong
  /-- BO_RECOVER R437. VDD rises above 0.775 V and the 1 ms recovery timer starts. -/
  | boRecover
  /-- BROWNOUT_END R437. 1 ms above threshold returns the monitor to BO_NORMAL. -/
  | brownoutEnd
  /-- VDD_WINDOW_EXCURSION R402. VDD leaves the proofing window for 200 ns. -/
  | vddWindowExcursion (mv : BitVec 12)
  /-- TJ_RANGE R440. A temperature sample outside −40 °C to +125 °C is flagged. -/
  | tjRange (t : BitVec 12)
  /-- GOC_WINDOW R443. A guardian oscillator counter window ends and the clock counts are judged. -/
  | gocWindow (ref fab eng : BitVec 16) (early : Bool)
  /-- POWER_ON_RESET R444. VDD_AON below threshold or PWR_GOOD low resets everything. -/
  | powerOnReset (bootSrc : BitVec 2) (twinId : Bool)
  /-- RESET_N R444. RESET_N low resets everything outside the always-on block and samples straps. -/
  | resetN (bootSrc : BitVec 2) (twinId : Bool)
  /-- CORE_RESET R444. VDD below the reset threshold causes a core reset. -/
  | coreReset
  /-- CHIP_RST R444. A write of 0xB4A7 to PWR.CHIP_RST resets the chip. -/
  | chipRst (v : BitVec 16)
  /-- SOFT_RESET R455. PAGE_CTRL.SOFT_RESET returns a block's registers to reset values. -/
  | softReset (p : Page)
  /-- FAULT_LATCH_CLEAR R445. A write of 1 to FAULT_LATCH.VALID clears the latch and FAULT_CYCLE. -/
  | faultLatchClear
  /-- MEMORY_ERROR R36. An ECC or parity error is detected and corrected, contained or escalated. -/
  | memoryError (site : ErrSite) (kind : ErrKind) (word : BitVec 20)
  /-- CROSSBAR_TIMEOUT R34. A transaction not completed in 4,096 fabric clocks returns an error response. -/
  | crossbarTimeout (stall : XbarStall)
  /-- LOCKSTEP_MISCOMPARE R49. The lockstep comparator finds a miscompare and the device becomes fail-silent. -/
  | lockstepMiscompare
  /-- SCRUB_READ R53. The scrubber reads a word, writing back a corrected single-bit error. -/
  | scrubRead (site : ErrSite) (found : Option ErrKind) (word : BitVec 20)
  /-- CH_MODE_WRITE R45. CH_MODE.MODE takes effect only while both lines are in OFF. -/
  | chModeWrite (v : Bool)
  /-- TWIN_CTRL_WRITE R321. TWIN_CTRL.EN and LINE take effect only while both lines are in OFF. -/
  | twinCtrlWrite (v : Word)
  /-- LOCK_KEY R456. A write of 0xB4A7 to LOCK_KEY clears CFG_LOCK of the page. -/
  | lockKey (p : Page) (v : BitVec 16)
  /-- CFG_LOCK R456. A write of 1 to CFG_LOCK locks the page's RWL fields. -/
  | cfgLock (p : Page)
  /-- LOCK_ALL R461. LOCK_ALL sets CFG_LOCK in every page in one fabric clock. -/
  | lockAll
  /-- STICKY R456. STICKY makes every LOCK_KEY write ignored until reset. -/
  | sticky
  /-- INT_RAW_CLEAR R7. A W1C write to INT_RAW clears bits unless hardware sets them in the same clock. -/
  | intRawClear (p : Page) (v : Word)
  /-- INT_SET R454. A write of 1 to INT_SET sets the INT_RAW bit as a hardware event would. -/
  | intSet (p : Page) (v : Word)
  /-- READ_CLEAR R7. A read of an RC field returns its value and clears it. -/
  | readClear (who : Requester) (addr : BitVec 24)
  /-- GPIO_EDGE R463. An enabled rising or falling edge on a GPIO pin sets its EDGE bit. -/
  | gpioEdge (p : BitVec 5) (level : Bool)
  /-- OUT_SET R463. A write to OUT_SET sets GPIO output bits. -/
  | outSet (v : Word)
  /-- OUT_CLR R463. A write to OUT_CLR clears GPIO output bits. -/
  | outClr (v : Word)
  /-- REGISTER_WRITE R6. A write to a register without a row of its own acts by its access type, with lock and refused-write rules. -/
  | registerWrite (who : Requester) (addr : BitVec 24) (v : Word)
  /-- RV32IMC_INSTRUCTION R226. An engine executes a base RV32IMC or Zicsr instruction, including MRET and CSR reads such as XKTTCL, which latches TTC bits 63:32 into XKTTCH. -/
  | rv32imcInstruction (c : Line) (r : BitVec 4)
  /-- MACHINE_EXTERNAL_INTERRUPT R239. With mip.MEIP pending from a non-empty event queue and mie.MEIE set, the engine takes the trap to mtvec, and an interrupted WFT resumes after mret. -/
  | machineExternalInterrupt (c : Line) (r : BitVec 4)
  /-- CONSIST_LINK_CHANGE R290. The link of a consist MAC goes up or down, changing MAC_STAT.LINK and raising LINK_CHANGE. -/
  | consistLinkChange (m : BitVec 3) (up : Bool)
  /-- PCIE_CONFIG_REQUEST R357. The root complex reads or writes the endpoint's configuration space: BARs, MSI-X enable and power state, with CRS until stage 0x6. -/
  | pcieConfigRequest (item : ConfigItem) (write : Option Word) (tag : BitVec 16)
  /-- PCIE_LINK_UP R362. The PCIe link trains and the data link comes up, setting PCIE_STAT.DL_UP. -/
  | pcieLinkUp (speed : BitVec 3) (width : BitVec 4)
  /-- CORE_RESET_END R444. VDD rises above 0.735 V and, 100 us later, the core reset ends, straps are sampled and start-up begins. -/
  | coreResetEnd (bootSrc : BitVec 2) (twinId : Bool)
deriving DecidableEq, Repr

end Sys2Proof
end

