-- ==== Sys2Proof/Machine/State.lean ====
section
/-! DEFINITION. The state of the device as plain data: the register fields that hold a value other than their reset value, the bytes of
every memory that are not zero, the state the manual gives the blocks beyond their registers, the queue of waiting commands, and the state
after reset. -/

namespace Sys2Proof.Machine

/-- The access types of register fields (R6). -/
inductive Access | rw | ro | wo | w1c | w1s | rc | rwl
deriving DecidableEq, Repr

/-- A register field: its word's BAR0 address, its lowest bit, its width, its access type and its reset value. -/
structure Reg where
  addr : Nat
  lo : Nat
  width : Nat
  acc : Access
  reset : Nat
deriving DecidableEq, Repr

/-- What a field that the hardware has updated in this fabric clock held before, and what it holds if it is read out or cleared in the same
clock: the updates alone, made on the cleared field (R7). -/
structure HwUpdate where
  key : Nat
  before : Nat
  kept : Nat
deriving DecidableEq, Repr

/-- The writes of this fabric clock to GPIO.OUT, OUT_SET and OUT_CLR, which act in that order (R463). -/
structure OutClock where
  base : Word
  setBits : Word
  clrBits : Word
deriving DecidableEq, Repr

/-- What this fabric clock has had besides updates: pages whose CFG_LOCK it has cleared, the RWL fields written in it with their values before
(R456), and the output writes (R463). -/
structure ThisClock where
  unlocked : List Page
  written : List (Page × Reg × Nat)
  outs : Option OutClock
deriving DecidableEq, Repr

/-! Train time (spec/03_train_time.md). -/

/-- A cycle mark's settings as in force in this cycle (R83: a write takes effect at the next tick). -/
structure MarkCfg where
  en : Bool
  offs : Nat
  div : Nat
  phase : Nat
deriving DecidableEq, Repr

/-- A sync node's stamp and sync record as a verified slice brought them on one line in this cycle (R62 to R64). -/
structure SyncValue where
  line : Line
  pos : Nat
  uid : Uid
  stamp : BitVec 32
  record : SyncRecord
  fresh : Bool
  doubtful : Bool
  verified : Bool
  upstream : Bool
  /-- The deviation, where the frame that brought the value gives it at once (R96, R165, R487). -/
  direct : Option Int
  /-- A forming tray or a reverse copy brought it, and it counts only while no slice gives one (R96, R487). -/
  single : Bool
deriving DecidableEq, Repr

/-- The time unit beyond its registers. `ltc` and `ttc` are the two counters (R55, R56); `ticked` says that a tick has come since the reset (R87). -/
structure TimeUnit where
  ltc : Fixed
  ttc : Fixed
  slewPerClock : Int
  slewLeft : Nat
  correction : Option Int
  rateNext : Option Int
  precision : Nat
  accSum : Int
  accCount : Nat
  intervalCycles : Nat
  closedCycle : Bool
  outOfPrecisionRun : Nat
  holdoverRun : Nat
  starterHeld : Option Uid
  firstTick : Bool
  running : Bool
  ticked : Bool
  cycleLenK : Nat
  cycleLenNext : Option Nat
  abandoned : Bool
  afterStep : Bool
  marks : List MarkCfg
  marksFired : List Nat
  /-- The marks of this cycle that the engines have had with the tick (R237, R240). -/
  marksTold : List Nat
  ppsOutstanding : Int
  ppsGoodRun : Nat
  extPublished : Int
  asOffsets : List (BitVec 64)
  asPhaseChange : Int
  values : List SyncValue
  returnEndSeen : Bool
  returnClosed : Bool
deriving DecidableEq, Repr

/-! Forming and the tray (spec/04_forming_the_train.md, spec/05_the_tray.md). -/

/-- What a line in INTEGRATE is doing (R90). -/
inductive Purpose | follow | reintegrate | claim
deriving DecidableEq, Repr

/-- A backbone port: link age, version-1 traffic, settling and the coupling window (R22, R23, R100, R115, R416); a Starter's instants on the tray it
sent out of the port in this cycle, and its loop time of the cycle before (R96). -/
structure PortState where
  settled : Bool
  v1This : Bool
  v1Last : Bool
  linkSeen : Bool
  couplerSeen : Bool
  linkUpCycle : Nat
  linkUpAt : BitVec 64
  rxOwn : Option Instant
  delays : List Int
  coldOut : Option Instant
  coldBack : Option Instant
  coldLoop : Option Nat
deriving DecidableEq, Repr

/-- A slot of the layout (R108, R175). -/
structure LayoutSlot where
  slot : Nat
  uid : Uid
  pay : Nat
  frame : Nat
  offs : Nat
  bankOffs : Nat
deriving DecidableEq, Repr

/-- A layout with the settings it was computed from (R106, R108). -/
structure Layout where
  epoch : BitVec 16
  nodes : List DiscRecord
  crumbs : Nat
  auth : Bool
  frames : Nat
  slots : List LayoutSlot
deriving DecidableEq, Repr

/-- The guardian's own copy of the layout, the node's position and its crumb slot (R153). -/
structure GuardCopy where
  slots : List LayoutSlot
  auth : Bool
  position : Nat
  crumb : Nat
deriving DecidableEq, Repr

/-- A line beyond its GTB page. `trayCycle` is the cycle that its instants and marks belong to, `heard` the cycle and arrival of the last data tray
heard in LISTEN, `spacing` whether the present one kept the spacing of R93, once two could be compared, `heardWhole` that every frame of its return pass so far was good; `inaugPending` that
INAUG waits for the line's next tray, `inaugMark` the cycle whose tray carries it (R99); `v1Trigger` that a version-1 frame has been a trigger (R115). `crumbsSeen` are the crumb slots that this tray
has shown taken by others (R19), `listened` the slices of a return pass heard in LISTEN (R92). `grdTick` is the LTC (ns) of the last tick, `guardRun` the spacings inside the guardian's bound since one
outside (R157); `guard` the guardian's copy (R153); `sentA` when the node sent its last slot frame (R165). -/
structure LineState where
  front : PortState
  rear : PortState
  end1Side : Option Side
  purpose : Purpose
  noRoomSeen : Bool
  goodRun : Nat
  expected : Option Instant
  lastHop : Nat
  trayCycle : Option Nat
  heard : Option (Nat × Instant)
  spacing : Option Bool
  heardWhole : Bool
  inaugPending : Bool
  inaugMark : Option Nat
  v1Trigger : Bool
  ownA : Option Instant
  ownB : Option Instant
  lastA : Option Instant
  loopPrev : Option Nat
  partakes : Bool
  nextIndex : Nat
  nextReturn : Nat
  broken : Bool
  sawOutward : Bool
  sawOutwardLast : Bool
  missThis : Bool
  windowOk : Bool
  writing : Bool
  actNext : Bool
  stopNext : Bool
  revIdle : Option Nat
  sentA : Option Instant
  revOwnA : Option Instant
  revOwnB : Option Instant
  revLoop : Option Nat
  sawReverse : Bool
  lastTray : Option TrayHeader
  outwardBad : List Nat
  writtenOutward : List Nat
  claiming : Option Nat
  crumbsSeen : List Nat
  listened : List Slice
  holdCrossed : Bool
  crossPending : Bool
  absentRun : List (Nat × Nat)
  coldNumber : Nat
  coldAny : Bool
  starterUp : Bool
  inaugRead : Bool
  followersPrev : Option Nat
  followersSum : Nat
  guard : Option GuardCopy
  guardRun : Nat
  grdTick : Option (BitVec 64)
deriving DecidableEq, Repr

/-- A key-distribution tray as its frames arrive (R140): its cycle, the forming block and body of frame 0, the frames received with a good FCS and
on which line, and the entries they brought. -/
structure KeyTray where
  cycle : BitVec 32
  head : Option (FormingBlock × KeyBody)
  got : List (Line × Nat)
  entries : List KeyEntry
deriving DecidableEq, Repr

/-- The forming decisions a node takes once for both lines (R91). `best` holds the keys seen with their age in cycles (R95); `stirred` says that a
trigger or INAUG has been seen since the last commit (R14); `starterEpoch` is the epoch of the Starter `epochOf` (R20); `tookAt` is the cycle at
whose tick the last commit was made, while a repeated key-distribution tray may still move it (R105), `recommit` that one has; `end1Port` is end 1's own
port towards that end (R101). -/
structure Forming where
  best : List (Nat × Nat)
  settings : Option FormingBlock
  stirred : Bool
  inaugSeen : Option Nat
  round : Nat
  starterEpoch : BitVec 16
  epochOf : Option Uid
  beyond : Bool
  mismatch : Bool
  tgkEpoch : Option (BitVec 16)
  heldSegments : List FormingSegment
  seekCycle : Option Nat
  end1 : Option Uid
  end1FromA : Bool
  end1Port : Option Side
  recommit : Bool
  roundA : List DiscRecord
  roundB : List DiscRecord
  roundLines : List Line
  arrivedA : Option Side
  arrivedB : Option Side
  carried : List DiscRecord
  carriedLists : List (Nat × List DiscRecord)
  merged : List DiscRecord
  confirmRound : Nat
  finalList : Option (List DiscRecord)
  finalCycle : Nat
  newEpoch : BitVec 16
  firstData : Option Nat
  tookAt : Option Nat
  keyTrayWhole : Bool
  keyBody : Option KeyBody
  keyRepeats : Nat
  keyLines : List Line
  keyTray : Option KeyTray
  pendingLayout : Option Layout
  frSeen : Bool
  adopted : Bool
  fallback : Bool
  fallbackEnd : Bool
  relinkWait : Bool
  wasStarter : Bool
  fullLayout : Bool
  everFormed : Bool
  claims : List (Nat × Uid × Nat)
  claimConfirmed : Bool
  syncSet : List Nat
  layout : Option Layout
  slotPlan : Nat
deriving DecidableEq, Repr

/-! The Loaf (spec/06_the_loaf.md). -/

/-- How a line copy of a slice is judged (R147). -/
inductive Judgement | good | pending | bad
deriving DecidableEq, Repr

/-- A copy of a slice in slot selection (R146, R147). -/
structure Copy where
  slot : Nat
  line : Line
  slice : Slice
  judged : Judgement
deriving DecidableEq, Repr

/-- A directory entry (R174); `status` uses the manual's code. -/
structure Entry where
  slot : Nat
  uid : Uid
  status : Nat
  lineA : Bool
  lineB : Bool
  flags : SliceFlags
  seq : BitVec 16
  len : Nat
  offs : Nat
  age : Nat
deriving DecidableEq, Repr

/-- A bank: header and directory; its payload area lies in `State.mem`. -/
structure Bank where
  cycle : BitVec 32
  epoch : BitVec 16
  valid : Bool
  mode : Bool
  lone : Bool
  first : Bool
  nodes : Nat
  crumbs : Nat
  commitTtc : BitVec 64
  entries : List Entry
deriving DecidableEq, Repr

/-- A draft's state (R181). -/
inductive DraftState | closed | opened | pending
deriving DecidableEq, Repr

/-- A draft; its payload bytes lie in `State.mem`. `enabled` is the byte-enable mask, ascending. -/
structure Draft where
  state : DraftState
  enabled : List Nat
  age : Nat
  provisional : Bool
  sources : List Nat
  role : Option Nat
  ready : Bool
  doubtful : Bool
deriving DecidableEq, Repr

/-- A channel's Loaf; `anew` says that an epoch has begun of which no bank has been committed yet (R172). -/
structure Loaf where
  banks : List Bank
  drafts : List Draft
  anew : Bool
deriving DecidableEq, Repr

/-- What the node captured at CUT (R184). -/
inductive CaptureKind | none | fresh | hold
deriving DecidableEq, Repr

/-- The captured slice content of the cycle (R184, R336). -/
structure Capture where
  kind : CaptureKind
  payload : List Byte
  doubtful : Bool
  hat : Bool
  seq : BitVec 16
  taken : Bool
  written : Bool
deriving DecidableEq, Repr

/-- Slot selection of the cycle in progress (R146 to R149); `statuses` are the final ones, which stand from RETURN_END or the return close on (R149). -/
structure Selection where
  copies : List Copy
  provisional : List Nat
  withdrawn : List Nat
  final : Bool
  statuses : List (Nat × Nat)
deriving DecidableEq, Repr

/-- The last fresh payload's slice (R184): its bytes lie in `State.mem`. -/
structure HoldCopy where
  valid : Bool
  doubtful : Bool
  len : Nat
deriving DecidableEq, Repr

/-! Keys and OTP (spec/13_security.md). -/

/-- The one-time-programmable memory (R386), with the wrapped fleet key that flash holds (R387). Absent or destroyed fields are `none`. -/
structure Otp where
  lifeA : Nat
  lifeB : Nat
  uid : Option Uid
  revoked : BitVec 16
  operatorRoots : List (BitVec 384)
  rollback : List Nat
  deviceKey : Option (BitVec 256)
  kek : Option (BitVec 256)
  flashFleet : Option (BitVec 256)
  flashHead : Option (BitVec 256)
deriving DecidableEq, Repr

/-- A KEY_REQ taken for answering (R393). -/
structure TakenRequest where
  port : BackbonePort
  uid : Uid
  nonce : BitVec 64
deriving DecidableEq, Repr

/-- Key slots and the security core's working state (R387, R393, R396, R399). `rolled` and `asked` hold what the cycle has had: its roll-over
(R391) and its KEY_REQ (R393). -/
structure Sec where
  fleet : Option (BitVec 256)
  tgk : Option (BitVec 256)
  current : Option (BitVec 128)
  next : Option (BitVec 128)
  late : Option (BitVec 128)
  nextEpoch : BitVec 16
  headKey : Option (BitVec 256)
  zeroised : Bool
  nonce : Option (BitVec 64)
  taken : List TakenRequest
  takenCount : List Nat
  drbgDraws : Nat
  chal : Option (BitVec 128)
  waiting : Option Nat
  cryptoServing : Nat
  cryptoFailed : List Nat
  rolled : Bool
  asked : Bool
deriving DecidableEq, Repr

/-! The bridges (spec/12_bridges.md). -/

/-- What an outbound PCIe read fetches: a descriptor or the data of a transmit frame (R358). -/
inductive OutRead
  | desc (ring index : Nat)
  | data (ring index : Nat)
deriving DecidableEq, Repr

/-- A cut of an outbound read (R355): what it belongs to, its offset in it, its host address and length. -/
structure OutPiece where
  what : OutRead
  offs : Nat
  addr : BitVec 64
  len : Nat
deriving DecidableEq, Repr

/-- An outbound read on its way: its tag, and the LTC instant of its issue in ns (R358). -/
structure OutTag where
  tag : Nat
  piece : OutPiece
  since : BitVec 64
deriving DecidableEq, Repr

/-- What an outbound read has brought so far: its pieces by offset, how many have not ended, and whether one has failed. -/
structure HostFetch where
  what : OutRead
  parts : List (Nat × List Byte)
  open_ : Nat
  failed : Bool
deriving DecidableEq, Repr

/-- A line copy of which the first bytes have come (R374). -/
structure CopyPart where
  cycle : BitVec 32
  line : Line
  slot : BitVec 7
  bytes : List Byte
deriving DecidableEq, Repr

/-- PCIe configuration space that software writes (R357, R361): the command register's memory and bus master enables, the two BARs, the power
state, the MSI-X control bits, and the codes of the payload size, read request size and completion timeout in use. -/
structure PcieConfig where
  memEn : Bool
  busMaster : Bool
  bar0 : BitVec 64
  bar2 : BitVec 64
  d3 : Bool
  msixEn : Bool
  msixMask : Bool
  payload : BitVec 3
  request : BitVec 3
  timeout : BitVec 4
deriving DecidableEq, Repr

/-- A host read a bridge has accepted and not completed (R356, R376): the bridge, the host's tag, the map and address it has come to, the bytes
still to read and those read; for a piece at the peer, the tag of the remote request; whether the result will be thrown away (R365), and whether
the bridge buffer has spoiled it (R360). -/
structure HostRead where
  bridge : Requester
  tag : Nat
  bar2 : Bool
  addr : Nat
  left : Nat
  got : List Byte
  link : Option (BitVec 16)
  drop : Bool
  spoiled : Bool
  failed : Bool
deriving DecidableEq, Repr

/-- A remote write the peer may still refuse (R376): its tag, the bridge and tag it came with, and its address. -/
structure RemoteWrite where
  tag : BitVec 16
  bridge : Requester
  hostTag : Nat
  addr : Nat
deriving DecidableEq, Repr

/-- The bridges beyond their registers: configuration space; outbound reads by tag, those that wait for one, and what they fetch; host reads in the order accepted; remote writes; the result
of the delayed read, once its fetch has ended, `none` inside for an error (R365), and since when it is held; the accepted SPI frames; by class
the SEQs of replicated frames that one lane has brought and the other has not (R371); of the striped classes the SEQ due next, the SEQ each lane
has come to, and the frames that wait for an earlier one (R372); the next remote tag, and since when a remote read is outstanding; epoch data
gathered from link frames; by class the SEQ of the next frame sent (R371); line copies in arrival; and the LTC instants of frames with a bad CRC by
lane (R370). -/
structure Bridges where
  config : PcieConfig
  reads : List OutTag
  waiting : List OutPiece
  fetches : List HostFetch
  hostReads : List HostRead
  remoteWrites : List RemoteWrite
  slot : Option (Option (List Byte))
  slotSince : BitVec 64
  frames : Nat
  seen : List (Nat × BitVec 16 × Nat)
  dueSeq : List (Nat × BitVec 16)
  laneSeq : List (Nat × Nat × BitVec 16)
  early : List LinkFrame
  nextTag : BitVec 16
  askedAt : BitVec 64
  epochData : List Byte
  outSeq : List (Nat × BitVec 16)
  copyParts : List CopyPart
  badCrc : List (Nat × BitVec 64)
deriving DecidableEq, Repr

/-! Errors (spec/02_inside_the_device.md R34, R43). -/

/-- Corrected errors at one memory word within the last scrub period: page source, cell, word, and the LTC in ns of each (R43). -/
structure CeRun where
  source : Nat
  cell : Nat
  word : Nat
  times : List Nat
deriving DecidableEq, Repr

/-- What the error rules hold: crossbar timeouts of this cycle by target region (channel A, channel B, shared, security, always-on), CEs by word, and the
cells isolated in blocks without spares, as page and cell (R36). -/
structure Health where
  timeouts : List Nat
  ces : List CeRun
  dead : List (Page × Nat)
deriving DecidableEq, Repr

/-! Coupler heads (spec/15_coupler_heads.md). -/

/-- Where a tag session stands (R424). `logRead` reads the wear log back from an index (R427). -/
inductive TagStep | idle | ident | chal | readCnt | incr | logRead (index : Nat) (left : Nat) | margin | logWrite
deriving DecidableEq, Repr

/-- A tag link beyond its registers: the starting state of CPL_CLOSED has been taken (R416); the session, its request and tries (R418, R419); what
the tag's records gave (R420); the events to log and the sampled margins kept, oldest first (R426, R427); the wear log is read, LOW_RUN is still to be
taken from the tag (R424); the LTC instant in ns to which CPL_DE is high (R415). -/
structure TagPort where
  started : Bool
  step : TagStep
  restart : Bool
  request : List Byte
  tries : Nat
  seq : Byte
  nonce : BitVec 128
  tagId : Option (BitVec 48)
  tagState : Nat
  tagLogNext : Nat
  lowRun : Nat
  mates : Nat
  floor : Int
  sampled : Option Int
  events : List Nat
  margins : List Int
  loaded : Bool
  newId : Bool
  deUntil : BitVec 64
  nearRaised : Bool
  wornRaised : Bool
  pres : Nat
  auth : Nat
  wear : Nat
deriving DecidableEq, Repr

/-! Protocol engines (spec/08_protocol_engines.md). -/

/-- A store waiting for release (R242): the engine address it was made to and the bytes it carries. -/
structure QueuedStore where
  addr : Word
  data : List Byte
deriving DecidableEq, Repr

/-- A DMA descriptor (R247): `held` until a taint ends; `bank` is the bank its view held when it started, if there was one
(R248). -/
structure Dma where
  src : Word
  dst : Word
  len : Nat
  busy : Bool
  err : Bool
  held : Bool
  bank : Option Nat
deriving DecidableEq, Repr

/-- What an engine is doing (R259, STATE). -/
inductive EngState | halted | running | waiting
deriving DecidableEq, Repr

/-- A role's machine: the state that moves with it (R227 to R255). Its TCMs lie in `State.mem`, its mailbox in the page of the engine that
holds it. `viewed` tells that a WFT has given it its view (R177, R241), `csrs` lists the machine CSRs that are not zero; `held` is the pending store of R238; `waitFor` the mask and the destination of a
WFT. -/
structure Role where
  st : EngState
  regs : List Word
  pc : Word
  csrs : List (Nat × Word)
  kstat : Nat
  ttch : Word
  view : Nat
  viewed : Bool
  tainted : Bool
  readMap : List Nat
  evq : List Word
  held : List Word
  pend : Nat
  relq : List QueuedStore
  refused : Bool
  sealed_ : Bool
  waitFor : Option (Nat × Nat)
  evEn : Nat
  dma : List Dma
  idleTicks : Nat
  image : Option (Word × Word)
deriving DecidableEq, Repr

/-- A byte of shared memory that an engine has stored in this fabric clock (R230). -/
structure SharedStore where
  chan : Line
  off : Nat
  engine : Nat
deriving DecidableEq, Repr

/-- A move of a role to the spare under way (R253, R254): the LTC instant it started at, and for a move after a failure the words of D-TCM
that could not be corrected and whether one of I-TCM could not. -/
structure EngMove where
  chan : Line
  role : Nat
  planned : Bool
  started : BitVec 64
  poisoned : Nat
  lost : Bool
deriving DecidableEq, Repr

/-! Field objects and kneaders (spec/07_kneaders.md, spec/10_can_fd_and_mvb.md). -/

/-- A destination object of R201: its space code, its ID and, for an engine object, its channel. -/
structure Obj where
  space : Nat
  id : Nat
  chan : Line
deriving DecidableEq, Repr

/-- A job that has written an object in this cycle, with the LTC instant of its trigger in ns. -/
structure Writer where
  chan : Line
  job : Nat
  triggered : BitVec 64
deriving DecidableEq, Repr

/-- An object whose STAGE holds writes not yet flipped (R216): provisional-derived or not, the jobs that wrote it in this cycle, and the channels
whose engines wrote it (R39). -/
structure Staged where
  obj : Obj
  prov : Bool
  writers : List Writer
  engines : List Line
deriving DecidableEq, Repr

/-- A job in flight (R194): triggered in `cycle`, waiting while `lane` is `none`. From its start it holds the head and source it read, `triggered` and `started` are the LTC instants of its trigger
and its start in ns, and `fetched` are the signal entries that its lane had fetched before a write changed them, by place in the job (R223). -/
structure JobRun where
  job : Nat
  cls : Nat
  cycle : Nat
  forming : Bool
  replay : Bool
  lane : Option Nat
  head : List Byte
  source : List Byte
  usable : Bool
  slot : Option Nat
  prov : Bool
  toDough : Bool
  triggered : BitVec 64
  started : BitVec 64
  fetched : List (Nat × List Byte)
deriving DecidableEq, Repr

/-- A kneader beyond its page. `grants` is the place in R30's arbitration round, `fired` the SLOT jobs that fired in this cycle, `read` the
jobs of this cycle that read the forming bank with their slot, `dough` the provisional dough jobs of this cycle, `wrote7` those of them that wrote draft 7, `replays` the jobs to run
again with the trigger of their run, `badWords` the table words that hold an uncorrectable error (R197), by BAR0 address, `laneMoves` the lanes lost since the last tick, as class of the job in them (3 for none) and index: the spare takes over at the tick (R38, R224). -/
structure Kneader where
  runs : List JobRun
  grants : Nat
  fired : List Nat
  read : List (Nat × Nat)
  dough : List Nat
  wrote7 : List Nat
  replays : List (Nat × BitVec 64)
  uidMap : List (Uid × Nat)
  badWords : List Nat
  deadLanes : List Nat
  laneMoves : List (Nat × Nat)
deriving DecidableEq, Repr

/-- A LIVE element that a flip replaced, and the instant of that flip: a frame started before it sends this (R217, R305), and where `early` is
set, the request made from OFFS before that flip's clock 40 (R306). -/
structure FormerLive where
  buffer : Nat
  flipped : BitVec 64
  bytes : List Byte
  early : Bool
deriving DecidableEq, Repr

/-- The settings of CAN_CTRL that choose a frame to send (R307). -/
structure CanSettings where
  txOrder : Bool
  fdEn : Bool
  brsEn : Bool
deriving DecidableEq, Repr

/-- A CAN controller beyond its page and its message RAM: locked receive buffers with their holder and since when, buffers whose shadow is
full, buffers that have received since reset, the buffer of the last acknowledge error and how many it has had in a row (R295), former LIVE
elements, former settings with the instant that ended them (R307), the instants of cancels that may have found their frame started (R308), and
the periodic buffers that have asked in this cycle (R73). -/
structure CanBus where
  locks : List (Nat × Requester × BitVec 64)
  shadow : List Nat
  seen : List Nat
  ackBuffer : Nat
  ackRun : Nat
  former : List FormerLive
  settings : List (BitVec 64 × CanSettings)
  cancels : List (Nat × BitVec 64)
  fired : List Nat
deriving DecidableEq, Repr

/-- An MVB controller beyond its page and its port RAM: sink ports updated since reset, stale ones, the sink port the last master frame
addressed, and since when a sink port has had no update. -/
structure MvbBus where
  seen : List Nat
  stale : List Nat
  awaiting : Option Nat
  since : List (Nat × BitVec 64)
deriving DecidableEq, Repr

/-! Power, boot and proofing (spec/13_security.md R397; spec/14_proofing.md; spec/16_power_clocks_reset.md). -/

/-- A manifest entry (R397): channels and roles it names, and the offset and length of its image. -/
structure BootEntry where
  chans : Nat
  roles : Nat
  offs : Nat
  len : Nat
deriving DecidableEq, Repr

/-- The power-domain sequencer's pending switches, in the order it takes them (R432, R433), a core reset in progress (R444), the boot stage that
ends next (0: none), what the boot has verified, the manifest entries of the firmware and of the engine images, the position of a pushed stream consumed (R447), the PCIe subsystem IDs written and those that stage 0x6 will write (R397), whether the last counter window lay outside ±1 % (R443), the LTC of the brown-out monitor's last change of state, and the warning time
before it in ns (R437). -/
structure Power where
  queue : List (Nat × Bool)
  held : Bool
  bootNext : Nat
  versions : List Nat
  firmware : Option BootEntry
  entries : List BootEntry
  consumed : Nat
  advance : Bool
  subsystem : BitVec 32
  subsystemNext : BitVec 32
  pushLast : Bool
  deviating : Bool
  boSince : BitVec 64
  boSpent : Nat
deriving DecidableEq, Repr

/-- A proofing run (R407): its cell, its start on the LTC, its pattern count, the writes queued for an engine's page (R408), and once
its patterns are done, its result code. -/
structure ProofRun where
  cell : Nat
  start : BitVec 64
  patterns : Nat
  queued : List (Requester × Nat × Word)
  ended : Option Nat
deriving DecidableEq, Repr

/-- The rotation of a proofing target (R406): a run is due (first, or a retry), it is the retest of R411, cycles left of INTERVAL, the cell whose move is awaited, the
spare before it, the moves of this rotation, and the run in progress. -/
structure Rotation where
  due : Bool
  retest : Bool
  wait : Option Nat
  target : Option Nat
  former : Option Nat
  moves : Nat
  run : Option ProofRun
deriving DecidableEq, Repr

/-- A maintenance run (R413): the target code, channel and index of MAINT_CMD, and whether it is the retest (R411). A run deferred by R402 has
`ended = some 0`. -/
structure Maintenance where
  target : Nat
  chan : Line
  index : Nat
  retest : Bool
  run : ProofRun
deriving DecidableEq, Repr

/-- The proofing controller beyond its page. `vddAborted` lists targets whose run a VDD excursion ended, with the LTC of the excursion (R439), and
`aborted` those whose run has ended as ABORTED in this fabric clock (R409). -/
structure Proof where
  rotations : List Rotation
  maint : Option Maintenance
  vddAborted : Option (BitVec 64 × List Nat)
  aborted : List Nat
deriving DecidableEq, Repr

/-! The switch (spec/09_ethernet_ports_and_switch.md). -/

/-- A frame in an egress queue (R270): its buffer frame, the bytes that will leave without FCS, the cells it holds, the LTC instant since which
it has been at the head, the ring or telegram it came from, and whether this cycle's FREE has deferred it (R158). -/
structure Queued where
  id : Nat
  port : Nat
  queue : Nat
  inPort : Nat
  bytes : List Byte
  cells : Nat
  headAt : BitVec 64
  ring : Option Nat
  telegram : Bool
  deferred : Bool
deriving DecidableEq, Repr

/-- A port's transmitter: its gate-control entry (R271), and LTC instants: when the frame in transmission has left, when its pause ends and
began (R279, R280), when the hold-off ends, and when it last sent a PAUSE frame that still stands (R281). -/
structure SwPort where
  entry : Nat
  busyUntil : BitVec 64
  pauseUntil : BitVec 64
  pauseSince : BitVec 64
  holdoffUntil : BitVec 64
  pausing : Option (BitVec 64)
deriving DecidableEq, Repr

/-- 802.1AS on a consist port (R78, R286): sequence numbers, the timestamps of the delay measurement in progress, Announce messages
discarded. -/
structure AsPort where
  syncSeq : BitVec 16
  announceSeq : BitVec 16
  reqSeq : BitVec 16
  reqSent : BitVec 64
  respIn : BitVec 64
  reqIn : BitVec 64
  foreign : Nat
deriving DecidableEq, Repr

/-- A learned address (R266); `refreshed` is an LTC instant. -/
structure FdbEntry where
  index : Nat
  mac : BitVec 48
  vid : Nat
  port : Nat
  refreshed : BitVec 64
deriving DecidableEq, Repr

/-- A sequence recovery function's history (R285): newest first. -/
structure Recovery where
  fn : Nat
  takeAny : Bool
  history : List Bool
  lastPass : BitVec 64
deriving DecidableEq, Repr

/-- A descriptor a host-memory ring has handed over, as the fetch gave it: `none` where the fetch failed; for a transmit ring the frame data,
`some none` where they could not be read (R273, R274, R358). -/
structure HostDesc where
  ring : Nat
  index : Nat
  words : Option (BitVec 64 × Word)
  data : Option (Option (List Byte))
deriving DecidableEq, Repr

/-- A transmit ring whose descriptor waits for its frame to start (R274): the frame's copies in the buffer, and whether a checksum was skipped. -/
structure Awaiting where
  ring : Nat
  ids : List Nat
  skip : Bool
deriving DecidableEq, Repr

/-- The switch beyond its registers and tables. `windows` counts frames per filter and cycle (R283); `early` holds LIVE data of telegrams whose
OFFS falls before clock 40 (R277); `fired` the TRDP transmit entries that have sent in this cycle (R73). -/
structure Switch where
  queues : List Queued
  nextId : Nat
  ports : List SwPort
  fdb : List FdbEntry
  recovery : List Recovery
  windows : List (Nat × Nat × Nat)
  descs : List HostDesc
  fetched : List Nat
  awaiting : List Awaiting
  early : List (Nat × List Byte)
  fired : List Nat
  asPorts : List AsPort
  foreignSeen : Bool
deriving DecidableEq, Repr

/-! The twin block (spec/11_twin_pairs.md). -/

/-- A CUT record as received (R336), with the dough image as of its MSEQ and the TTC at which it arrived. -/
structure CutRecord where
  cycle : BitVec 32
  seq : BitVec 16
  flags : SliceFlags
  write : Bool
  len : BitVec 16
  dough : List Byte
  arrived : BitVec 64
deriving DecidableEq, Repr

/-- A state epoch in the shadow (R339, R340): its number, the topology epoch it belongs to and its data. -/
structure StateEpoch where
  num : BitVec 32
  topo : BitVec 16
  data : List Byte
deriving DecidableEq, Repr

/-- The twin block beyond its registers: the start-up count (R331); what the peer's messages last said (R325 to R327); the lease, the claim or
handover under way and its tick, and the discrete outputs an outgoing wearer keeps (R329, R333, R334); the merges (R335); the cut record (R336); the epochs (R340); HBT_IN (R326). -/
structure Twin where
  startTicks : Nat
  granted : Bool
  peerLease : Nat
  peerHat : Nat
  peerReleased : Bool
  unready : Bool
  renewed : Option (BitVec 32)
  tookAt : Option (BitVec 32)
  heldAt : Option (BitVec 32)
  handoverAt : Option (BitVec 32)
  acked : Bool
  blocked : Bool
  released : Bool
  outgoing : Option (BitVec 32)
  keptOut : Word
  mseqOut : BitVec 16
  mseqIn : BitVec 16
  unsure : Bool
  refreshRun : Nat
  refreshed : Bool
  cutRecord : Option CutRecord
  headOk : Bool
  incoming : Option (BitVec 32 × BitVec 16 × List Byte)
  committed : Option StateEpoch
  hbtSeen : Bool
  hbtEarly : Bool
  hbtMiss : Nat
  hbtSilentTicks : Nat
deriving DecidableEq, Repr

/-- What the device has handed to its wires, buses and requesters, oldest first. The model's own record, log entry 3. -/
inductive Sent
  | regData (req : Requester) (addr : Nat) (data : Word)
  | pulse (pin ns : Nat) (high : Bool)
  | keyReq (port : BackbonePort) (frame : KeyReqFrame)
  | keyGrant (port : BackbonePort) (frame : KeyGrantFrame)
  | dataFrame (port : BackbonePort) (frame : DataFrame) (fcsGood : Bool)
  | coldStart (port : BackbonePort) (hdr : TrayHeader) (block : FormingBlock) (fcsGood : Bool)
  | discovery (port : BackbonePort) (hdr : TrayHeader) (block : FormingBlock) (body : DiscBody) (fcsGood : Bool)
  | keyDist (port : BackbonePort) (hdr : TrayHeader) (block : FormingBlock) (body : KeyBody) (fcsGood : Bool)
  | slotFrame (port : BackbonePort) (hdr : TrayHeader) (timing : TimingBlock) (slice : Slice) (fcsGood : Bool)
  | linkFrame (frame : LinkFrame)
  | pcieCompletion (tag : Nat) (ok : Bool) (data : List Byte)
  | pciePoisoned (tag : Nat) (data : List Byte)
  | pcieRetry (tag : Nat)
  | qspiReply (status : Nat) (data : List Byte)
  | msix (vector : Nat) (addr : BitVec 64) (data : Word)
  | tagFrame (port : Nat) (bytes : List Byte)
  | canFrame (c word0 word1 : Nat) (data : List Byte)
  | mvbSlave (j lines : Nat) (data : List Byte)
  | frameCut (port : Nat)
  | faultN
  | ethFrame (port : Nat) (bytes : List Byte) (fcsGood : Bool)
  | asMessage (port : Nat) (src : BitVec 48) (msg : AsMsg)
  | hostWrite (addr : BitVec 64) (bytes : List Byte)
  | hostRead (tag : Nat) (addr : BitVec 64) (len : Nat)
  | hbtPulse (us : Nat)
deriving DecidableEq, Repr

/-- The state of the device. -/
structure State where
  /-- Register fields holding a value other than their reset value, by `addr * 32 + lo`, ascending. -/
  regs : List (Nat × Nat)
  /-- RC and W1C fields that the hardware has updated since the last fabric clock (R7). -/
  updates : List HwUpdate
  thisClock : ThisClock
  /-- Block resets in progress: the page's header base and the fabric clocks left (R444, R454). -/
  softResets : List (Nat × Nat)
  /-- Bytes of every memory that are not zero, by model address, ascending. -/
  mem : List Host.Cell
  /-- Held halves of _LO/_HI pairs: requester, address, value; reads latched and writes held (R458). -/
  readLatch : List (Requester × Nat × Nat)
  writeHold : List (Requester × Nat × Word)
  time : TimeUnit
  lineA : LineState
  lineB : LineState
  forming : Forming
  loafA : Loaf
  loafB : Loaf
  capture : Capture
  selection : Selection
  holdCopy : HoldCopy
  /-- SEQ of the next slice written with FRESH (R128). -/
  nextSeq : BitVec 16
  /-- A brown-out warning has come since the last CUT (R128, R438). -/
  brownoutMark : Bool
  otp : Otp
  sec : Sec
  bridges : Bridges
  health : Health
  tags : List TagPort
  engMoves : List EngMove
  sharedStores : List SharedStore
  rolesA : List Role
  rolesB : List Role
  /-- Semaphores by channel: 0 free, otherwise the holder's role plus 1 (R250). -/
  semA : List Nat
  semB : List Nat
  kneaderA : Kneader
  kneaderB : Kneader
  staged : List Staged
  /-- Objects that hold until the next tick because a lane was lost with a job that writes them (R224). -/
  held : List Obj
  canBus : List CanBus
  mvbBus : List MvbBus
  /-- TRDP receive entries updated since reset (R203). -/
  trdpSeen : List Nat
  power : Power
  proof : Proof
  switch : Switch
  twinUnit : Twin
  /-- What has been sent (log entry 3). -/
  sent : List Sent
  /-- How many free values have been drawn (log entry 11): the model's own field. -/
  freeDraws : Nat
  /-- Commands waiting, first in, first out. -/
  pending : List Instr
deriving DecidableEq, Repr

/-- Why a step stops with a fault. -/
inductive Fault
  /-- No command raises it: the manual gives no event that stops the device. Safe. -/
  | none
deriving DecidableEq, Repr

/-- Why a step is refused. -/
inductive Refusal
  /-- Raised by exec's arm of a command that has no meaning yet. Safe. -/
  | notModelled (mnemonic : String)
deriving DecidableEq, Repr

def PortState.reset : PortState := ⟨false, false, false, false, false, 0, 0, none, [], none, none, none⟩

def LineState.reset : LineState where
  front := PortState.reset
  rear := PortState.reset
  end1Side := none
  purpose := .follow
  noRoomSeen := false
  goodRun := 0
  expected := none
  lastHop := 0
  trayCycle := none
  heard := none
  spacing := none
  heardWhole := false
  inaugPending := false
  inaugMark := none
  v1Trigger := false
  ownA := none
  ownB := none
  lastA := none
  loopPrev := none
  partakes := false
  nextIndex := 0
  nextReturn := 0
  broken := false
  sawOutward := false
  sawOutwardLast := false
  missThis := false
  windowOk := false
  writing := false
  actNext := false
  stopNext := false
  sentA := none
  revIdle := none
  revOwnA := none
  revOwnB := none
  revLoop := none
  sawReverse := false
  lastTray := none
  outwardBad := []
  writtenOutward := []
  claiming := none
  crumbsSeen := []
  listened := []
  holdCrossed := false
  crossPending := false
  absentRun := []
  coldNumber := 0
  coldAny := false
  starterUp := false
  inaugRead := false
  followersPrev := none
  followersSum := 0
  guard := none
  guardRun := 0
  grdTick := none

def TimeUnit.reset : TimeUnit where
  ltc := 0
  ttc := 0
  slewPerClock := 0
  slewLeft := 0
  correction := none
  rateNext := none
  precision := 250
  accSum := 0
  accCount := 0
  intervalCycles := 0
  closedCycle := false
  outOfPrecisionRun := 0
  holdoverRun := 0
  starterHeld := none
  firstTick := true
  running := false
  ticked := false
  cycleLenK := 16
  cycleLenNext := none
  abandoned := false
  afterStep := false
  marks := List.replicate 16 ⟨false, 0, 1, 0⟩
  marksFired := []
  marksTold := []
  ppsOutstanding := 0
  ppsGoodRun := 0
  extPublished := 0
  asOffsets := List.replicate 8 0
  asPhaseChange := 0
  values := []
  returnEndSeen := false
  returnClosed := false

def Forming.reset : Forming where
  best := []
  settings := none
  stirred := false
  inaugSeen := none
  round := 0
  starterEpoch := 0
  epochOf := none
  beyond := false
  mismatch := false
  tgkEpoch := none
  heldSegments := []
  seekCycle := none
  end1 := none
  end1FromA := false
  end1Port := none
  recommit := false
  roundA := []
  roundB := []
  roundLines := []
  arrivedA := none
  arrivedB := none
  carried := []
  carriedLists := []
  merged := []
  confirmRound := 0
  finalList := none
  finalCycle := 0
  newEpoch := 0
  firstData := none
  tookAt := none
  keyTrayWhole := false
  keyBody := none
  keyRepeats := 0
  keyLines := []
  keyTray := none
  pendingLayout := none
  frSeen := false
  adopted := false
  fallback := false
  fallbackEnd := false
  relinkWait := false
  wasStarter := false
  fullLayout := false
  everFormed := false
  claims := []
  claimConfirmed := false
  syncSet := []
  layout := none
  slotPlan := 0

def Selection.reset : Selection := ⟨[], [], [], false, []⟩

def Bank.reset : Bank := ⟨0, 0, false, false, false, false, 0, 0, 0, []⟩

def Draft.reset : Draft := ⟨.closed, [], 0, false, [], none, false, false⟩

def Loaf.reset : Loaf := ⟨List.replicate 4 Bank.reset, List.replicate 8 Draft.reset, false⟩

def Otp.reset : Otp := ⟨0, 0, none, 0, [], [0, 0, 0, 0], none, none, none, none⟩

def Sec.reset : Sec := ⟨none, none, none, none, none, 0, none, false, none, [], [0, 0, 0, 0], 0, none, none, 0, [], false, false⟩

def PcieConfig.reset : PcieConfig := ⟨false, false, 0, 0, false, false, false, 0, 2, 0⟩

def Bridges.reset : Bridges := ⟨PcieConfig.reset, [], [], [], [], [], none, 0, 0, [], [], [], [], 0, 0, [], [], [], []⟩

def Health.reset : Health := ⟨[0, 0, 0, 0, 0], [], []⟩

def TagPort.reset : TagPort where
  started := false
  step := .idle
  restart := false
  request := []
  tries := 0
  seq := 0
  nonce := 0
  tagId := none
  tagState := 0
  tagLogNext := 0
  lowRun := 0
  mates := 0
  floor := 0
  sampled := none
  events := []
  margins := []
  loaded := false
  newId := true
  deUntil := 0
  nearRaised := false
  wornRaised := false
  pres := 0
  auth := 0
  wear := 0

def Dma.reset : Dma := ⟨0, 0, 0, false, false, false, none⟩

def Role.reset : Role where
  st := .halted
  regs := List.replicate 32 0
  pc := 0
  csrs := []
  kstat := 0
  ttch := 0
  view := 0
  viewed := false
  tainted := false
  readMap := []
  evq := []
  held := []
  pend := 0
  relq := []
  refused := false
  sealed_ := false
  waitFor := none
  evEn := 0x802
  dma := List.replicate 4 Dma.reset
  idleTicks := 0
  image := none

def Kneader.reset : Kneader := ⟨[], 0, [], [], [], [], [], [], [], [], []⟩

def CanBus.reset : CanBus := ⟨[], [], [], 0, 0, [], [], [], []⟩

def MvbBus.reset : MvbBus := ⟨[], [], none, []⟩

/-- The order of R432. -/
def powerOrder : List Nat := [1, 13, 2, 3, 15, 4, 5, 6, 7, 8, 9, 10, 11, 12, 14]

def Power.reset : Power := ⟨powerOrder.map fun d => (d, true), false, 1, [0, 0, 0], none, [], 0, false, 0, 0, false, false, 0, 0⟩

def Rotation.reset : Rotation := ⟨true, false, none, none, none, 0, none⟩

def Proof.reset : Proof := ⟨List.replicate 5 Rotation.reset, none, none, []⟩

def SwPort.reset : SwPort := ⟨0, 0, 0, 0, 0, none⟩

def AsPort.reset : AsPort := ⟨0, 0, 0, 0, 0, 0, 0⟩

def Switch.reset : Switch where
  queues := []
  nextId := 0
  ports := List.replicate 12 SwPort.reset
  fdb := []
  recovery := []
  windows := []
  descs := []
  fetched := List.replicate 48 0
  awaiting := []
  early := []
  fired := []
  asPorts := List.replicate 8 AsPort.reset
  foreignSeen := false

def Twin.reset : Twin where
  startTicks := 0
  granted := false
  peerLease := 0
  peerHat := 0
  peerReleased := false
  unready := false
  renewed := none
  tookAt := none
  heldAt := none
  handoverAt := none
  acked := false
  blocked := false
  released := false
  outgoing := none
  keptOut := 0
  mseqOut := 0
  mseqIn := 0
  unsure := true
  refreshRun := 0
  refreshed := false
  cutRecord := none
  headOk := false
  incoming := none
  committed := none
  hbtSeen := false
  hbtEarly := false
  hbtMiss := 0
  hbtSilentTicks := 0

/-- The device right after power-on reset: every field at the value the manual states, or at the value the log names. -/
def State.reset : State where
  regs := []
  mem := []
  updates := []
  thisClock := ⟨[], [], none⟩
  softResets := []
  readLatch := []
  writeHold := []
  time := TimeUnit.reset
  lineA := LineState.reset
  lineB := LineState.reset
  forming := Forming.reset
  loafA := Loaf.reset
  loafB := Loaf.reset
  capture := ⟨.none, [], false, false, 0, false, false⟩
  selection := Selection.reset
  holdCopy := ⟨false, false, 0⟩
  nextSeq := 0
  brownoutMark := false
  otp := Otp.reset
  sec := Sec.reset
  bridges := Bridges.reset
  health := Health.reset
  tags := List.replicate 4 TagPort.reset
  engMoves := []
  sharedStores := []
  rolesA := List.replicate 15 Role.reset
  rolesB := List.replicate 15 Role.reset
  semA := List.replicate 64 0
  semB := List.replicate 64 0
  kneaderA := Kneader.reset
  kneaderB := Kneader.reset
  staged := []
  held := []
  canBus := List.replicate 8 CanBus.reset
  mvbBus := List.replicate 2 MvbBus.reset
  trdpSeen := []
  power := Power.reset
  proof := Proof.reset
  switch := Switch.reset
  twinUnit := Twin.reset
  sent := []
  freeDraws := 0
  pending := []

end Sys2Proof.Machine
end

