-- ==== Sys2Proof/Machine/Operands.lean ====
section
/-! DEFINITION. Operand forms: signed fields, instants, byte strings, bit sets and 48-bit identifiers held in two words
(spec/00_scope.md R5; spec/03_train_time.md R59 to R64). -/

namespace Sys2Proof.Machine

/-- The signed value of a `w`-bit field. -/
def signedOf (w v : Nat) : Int := if v < 2 ^ (w - 1) then (v : Int) else (v : Int) - 2 ^ w

/-- A signed value as a `w`-bit field, modulo 2^w. -/
def fieldOf (w : Nat) (i : Int) : Nat := (i % 2 ^ w).toNat

/-- A value clamped to a signed `w`-bit field. -/
def saturate (w : Nat) (i : Int) : Int := max (-(2 ^ (w - 1))) (min (2 ^ (w - 1) - 1) i)

/-- A value clamped to plus or minus `m`. -/
def clampAbs (m i : Int) : Int := max (-m) (min m i)

/-- The difference of two 32-bit stamps as a signed value modulo 2^32 (R64). -/
def stampDiff (a b : BitVec 32) : Int := (a - b).toInt

/-- The low 32 bits of an instant (R61). -/
def low32 (i : Instant) : BitVec 32 := i.setWidth 32

/-- The signed distance between two instants. -/
def instantDiff (a b : Instant) : Int := (a - b).toInt

/-- Bit `i` of a natural number. -/
def bitOf (v i : Nat) : Bool := v.testBit i

/-- A number with bit `i` set or cleared. -/
def withBit (v i : Nat) (b : Bool) : Nat :=
  if b then v ||| 2 ^ i else if v.testBit i then v - 2 ^ i else v

/-- The lowest index below `n` at which `p` holds. -/
def lowest (n : Nat) (p : Nat → Bool) : Option Nat := (List.range n).find? p

/-- `n` bytes of a value, most significant first (R5). -/
def bytesBE (n v : Nat) : List Byte := (List.range n).map fun i => BitVec.ofNat 8 (v / 256 ^ (n - 1 - i))

/-- A value from its bytes, most significant first (R5). -/
def natOfBE (bs : List Byte) : Nat := bs.foldl (fun acc b => acc * 256 + b.toNat) 0

/-- A list cut or zero-filled to `n` bytes. -/
def fit (n : Nat) (bs : List Byte) : List Byte := bs.take n ++ List.replicate (n - bs.length) 0

/-- A list of bytes with its first bytes replaced. -/
def overlay (front bs : List Byte) : List Byte := front ++ bs.drop front.length

/-- Ascending insertion into a list of numbers without repeats. -/
def insertNat (a : Nat) : List Nat → List Nat
  | [] => [a]
  | b :: t => if a < b then a :: b :: t else if a = b then b :: t else b :: insertNat a t

/-- Replace element `i` of a list. -/
def setAt {α : Type} (l : List α) (i : Nat) (a : α) : List α := l.set i a

/-- Change element `i` of a list. -/
def modifyAt {α : Type} (l : List α) (i : Nat) (f : α → α) : List α := l.modify i f

/-- The other line. -/
def Line.other : Line → Line
  | .A => .B
  | .B => .A

/-- The other port of a node on a line. -/
def Side.opposite : Side → Side
  | .front => .rear
  | .rear => .front

/-- Line A is 0 and line B is 1 wherever a bit names a line (R135). -/
def lineBit : Line → Nat
  | .A => 0
  | .B => 1

/-- The port number of R60. -/
def portIndex (p : BackbonePort) : Nat :=
  2 * lineBit p.line + match p.side with | .front => 0 | .rear => 1

end Sys2Proof.Machine
end

