-- ==== Sys2Proof/Machine/Convert.lean ====
section
/-! DEFINITION. Signal conversion (spec/07_kneaders.md R199, R206 to R208): extraction, exact integer arithmetic, IEEE 754 binary64 arithmetic
with round to nearest even, and `fit`. -/

namespace Sys2Proof.Machine

/-- Value of a big-endian signal: OFFS names its most significant bit (R206). -/
def extractBE (bs : List Byte) (offs width : Nat) : Nat :=
  (List.range width).foldl (fun v i =>
    let n := offs + i
    2 * v + if bitOf (bs.getD (n / 8) 0).toNat (7 - n % 8) then 1 else 0) 0

/-- Value of a little-endian signal: OFFS names its least significant bit (R206). -/
def extractLE (bs : List Byte) (offs width : Nat) : Nat :=
  (List.range width).foldr (fun i v =>
    let n := offs + i
    2 * v + if bitOf (bs.getD (n / 8) 0).toNat (n % 8) then 1 else 0) 0

def extract (little : Bool) (bs : List Byte) (offs width : Nat) : Nat :=
  if little then extractLE bs offs width else extractBE bs offs width

/-- Insert a signal, changing only its own bits (R206). -/
def insertBits (little : Bool) (bs : List Byte) (offs width v : Nat) : List Byte :=
  (List.range width).foldl (fun bs i =>
    let n := offs + i
    let bit := if little then n % 8 else 7 - n % 8
    let b := if little then bitOf v i else bitOf v (width - 1 - i)
    setAt bs (n / 8) (BitVec.ofNat 8 (withBit (bs.getD (n / 8) 0).toNat bit b))) bs

/-- The bytes a signal touches. -/
def touched (offs width : Nat) : List Nat := (List.range ((offs + width + 7) / 8 - offs / 8)).map fun i => offs / 8 + i

/-! Floating point. -/

/-- A binary floating-point value: sign, significand and power of two, an infinity, or not a number. -/
inductive Fl
  | nan
  | inf (neg : Bool)
  | fin (neg : Bool) (m : Nat) (e : Int)
deriving DecidableEq, Repr

/-- A format: significand bits and the exponent of its least subnormal; exponent field width. -/
structure FlFormat where
  p : Nat
  qmin : Int
  ew : Nat

def binary32 : FlFormat := ⟨24, -149, 8⟩
def binary64 : FlFormat := ⟨53, -1074, 11⟩

/-- Read a value from its bits. -/
def FlFormat.read (f : FlFormat) (bits : Nat) : Fl :=
  let frac := bits % 2 ^ (f.p - 1)
  let ex := bits / 2 ^ (f.p - 1) % 2 ^ f.ew
  let neg := bitOf bits (f.p - 1 + f.ew)
  if ex = 2 ^ f.ew - 1 then (if frac = 0 then .inf neg else .nan)
  else if ex = 0 then .fin neg frac f.qmin
  else .fin neg (frac + 2 ^ (f.p - 1)) (f.qmin + (ex - 1 : Nat))

/-- `m / 2^k` to the nearest natural number, ties to even. -/
def roundEven (m k : Nat) : Nat :=
  let q := m / 2 ^ k
  let r := m % 2 ^ k
  if 2 ^ k < 2 * r || (2 * r = 2 ^ k && q % 2 = 1) then q + 1 else q

/-- Round to a format; a value beyond the largest finite one becomes an infinity. -/
def FlFormat.round (f : FlFormat) (x : Fl) : Fl :=
  match x with
  | .fin neg m e =>
    if m = 0 then .fin neg 0 f.qmin
    else
      let q := max ((Nat.log2 m : Int) + e - (f.p - 1 : Nat)) f.qmin
      let r := if q ≤ e then m * 2 ^ (e - q).toNat else roundEven m (q - e).toNat
      let (r, q) := if r = 2 ^ f.p then (2 ^ (f.p - 1), q + 1) else (r, q)
      if f.qmin + (2 ^ f.ew - 3 : Nat) < q then .inf neg else .fin neg r q
  | y => y

/-- The bits of a value of the format; `none` for not a number. -/
def FlFormat.bits (f : FlFormat) (x : Fl) : Option Nat :=
  let s (neg : Bool) : Nat := if neg then 2 ^ (f.p - 1 + f.ew) else 0
  match x with
  | .nan => none
  | .inf neg => some (s neg + (2 ^ f.ew - 1) * 2 ^ (f.p - 1))
  | .fin neg m q =>
    if m < 2 ^ (f.p - 1) then some (s neg + m)
    else some (s neg + ((q - f.qmin).toNat + 1) * 2 ^ (f.p - 1) + (m - 2 ^ (f.p - 1)))

/-- The bits of the largest finite value with a sign. -/
def FlFormat.largest (f : FlFormat) (neg : Bool) : Nat :=
  (if neg then 2 ^ (f.p - 1 + f.ew) else 0) + (2 ^ f.ew - 1) * 2 ^ (f.p - 1) - 1

/-- An exact integer as a value. -/
def Fl.ofInt (i : Int) : Fl := .fin (decide (i < 0)) i.natAbs 0

/-- The exact product. -/
def Fl.mul : Fl → Fl → Fl
  | .nan, _ => .nan
  | _, .nan => .nan
  | .inf a, .inf b => .inf (a != b)
  | .inf a, .fin b m _ => if m = 0 then .nan else .inf (a != b)
  | .fin a m _, .inf b => if m = 0 then .nan else .inf (a != b)
  | .fin a m e, .fin b n g => .fin (a != b) (m * n) (e + g)

/-- The exact sum; an exact zero is positive unless both addends are negative zeros. -/
def Fl.add : Fl → Fl → Fl
  | .nan, _ => .nan
  | _, .nan => .nan
  | .inf a, .inf b => if a = b then .inf a else .nan
  | .inf a, _ => .inf a
  | _, .inf b => .inf b
  | .fin a m e, .fin b n g =>
    let q := min e g
    let x : Int := (m * 2 ^ (e - q).toNat : Nat)
    let y : Int := (n * 2 ^ (g - q).toNat : Nat)
    let z := (if a then -x else x) + (if b then -y else y)
    if z = 0 then .fin (a && b) 0 q else .fin (decide (z < 0)) z.natAbs q

/-- `num / den` rounded half away from zero. -/
def roundHalfAway (num : Int) (den : Nat) : Int :=
  let q : Int := ((2 * num.natAbs + den) / (2 * den) : Nat)
  if num < 0 then -q else q

/-- A finite value rounded half away from zero. -/
def finToInt (neg : Bool) (m : Nat) (e : Int) : Int :=
  let v : Int := if neg then -(m : Int) else m
  if 0 ≤ e then v * 2 ^ e.toNat else roundHalfAway v (2 ^ (-e).toNat)

/-! Signal entries (R199). -/

/-- A signal entry. -/
structure SignalEntry where
  kind : Nat
  smode : Nat
  subst : Nat
  stype : Nat
  sorder : Bool
  dtype : Nat
  dorder : Bool
  soffs : Nat
  doffs : Nat
  swidth : Nat
  dwidth : Nat
  shift : Nat
  mul : Nat
  add : Nat
  default : Nat

def SignalEntry.ofBytes (b : List Byte) : SignalEntry :=
  let at_ (i : Nat) : Nat := (b.getD i 0).toNat
  let num (i n : Nat) : Nat := natOfBE ((b.drop i).take n)
  ⟨at_ 0 / 16, at_ 0 / 4 % 4, at_ 0 % 4, at_ 1 / 32, bitOf (at_ 1) 4, at_ 1 / 2 % 8, bitOf (at_ 1) 0, num 2 2, num 4 2, at_ 6 % 128, at_ 7 % 128,
    at_ 8 % 64, num 12 4, num 16 4, num 20 8⟩

/-- What a conversion gives: the bits and whether a clamp acted, not usable, or a result the manual does not state (log entry 31). -/
inductive Converted
  | bits (v : Nat) (clamped : Bool)
  | unusable
  | unstated
deriving DecidableEq, Repr

/-- `fit` of an exact integer into an integer type (R208). -/
def fitInt (signed : Bool) (w : Nat) (v : Int) : Converted :=
  let lo : Int := if signed then -(2 ^ (w - 1)) else 0
  let hi : Int := if signed then 2 ^ (w - 1) - 1 else 2 ^ w - 1
  .bits (fieldOf w (max lo (min hi v))) (decide (v < lo ∨ hi < v))

/-- `fit` of a value into a floating-point type (R208). -/
def fitFloat (f : FlFormat) (x : Fl) : Converted :=
  match f.round x with
  | .nan => .unstated
  | .inf neg => .bits (f.largest neg) true
  | y => match f.bits y with
    | some b => .bits b false
    | none => .unstated

/-- `fit` (R208). -/
def fitValue (x : Fl) (dtype w : Nat) : Converted :=
  match dtype with
  | 2 => fitFloat binary32 x
  | 3 => fitFloat binary64 x
  | _ =>
    let signed := dtype = 1
    match x with
    | .nan => .unstated
    | .inf neg => fitInt signed w (if neg then -(2 ^ 65) else 2 ^ 65)
    | .fin neg m e => fitInt signed w (finToInt neg m e)

/-- `to_int` (R207). -/
def toInt (stype w raw : Nat) : Option Int :=
  let ofFl (x : Fl) : Option Int :=
    match x with
    | .nan => none
    | .inf neg => some (if neg then -(2 ^ 63) else 2 ^ 63 - 1)
    | .fin neg m e => some (saturate 64 (finToInt neg m e))
  match stype with
  | 0 => some raw
  | 1 => some (signedOf w raw)
  | 2 => ofFl (binary32.read raw)
  | _ => ofFl (binary64.read raw)

/-- `to_double` (R207). -/
def toDouble (stype w raw : Nat) : Fl :=
  match stype with
  | 0 => binary64.round (Fl.ofInt raw)
  | 1 => binary64.round (Fl.ofInt (signedOf w raw))
  | 2 => binary32.read raw
  | _ => binary64.read raw

/-- The conversion of R207. -/
def convertSignal (x : SignalEntry) (raw : Nat) : Converted :=
  match x.smode with
  | 0 => .bits raw false
  | 1 =>
    match toInt x.stype x.swidth raw with
    | none => .unusable
    | some v =>
      let q := roundHalfAway (v * signedOf 32 x.mul) (2 ^ x.shift) + signedOf 32 x.add
      if x.dtype = 2 || x.dtype = 3 then fitValue (Fl.ofInt q) x.dtype x.dwidth else fitInt (x.dtype = 1) x.dwidth q
  | _ =>
    match toDouble x.stype x.swidth raw with
    | .nan => .unusable
    | d =>
      let y := binary64.round (d.mul (binary32.read x.mul))
      fitValue (binary64.round (y.add (binary32.read x.add))) x.dtype x.dwidth

/-- A width outside its type (R200 cause 5). -/
def widthBad (t w : Nat) : Bool := w = 0 || 64 < w || (t = 2 && w != 32) || (t = 3 && w != 64)

end Sys2Proof.Machine
end

