-- ==== Sys2Proof/Config.lean ====
section
/-! DEFINITION. What the manual leaves open: free values. Each is an opaque constant with no body, so no proof can see what it is. The
ciphers are named standards that the manual does not restate (log entry 13). -/

namespace Sys2Proof

/-- R68 computes `delta` in real arithmetic and does not say how the result becomes an integer: whether an inexact quotient
(numerator, denominator) is rounded up. DESIGN CHOICE, log entry 10. -/
opaque Config.rateRoundsUp : Int → Int → Bool

/-- A value the manual calls undefined or does not state, numbered by the draw (State.freeDraws). DESIGN CHOICE, log entry 11. -/
opaque Config.freeValue : Nat → Nat

/-- Output of the deterministic random bit generator (R396), numbered by the draw. DESIGN CHOICE, log entry 12. -/
opaque Config.drbg : Nat → Nat

/-- AES-GMAC, first 64 bits: key, nonce, additional authenticated data (R135). -/
opaque Config.gmac : BitVec 128 → BitVec 96 → List Byte → BitVec 64

/-- AES-256-CMAC: key, message (R393, R423). -/
opaque Config.cmac : BitVec 256 → List Byte → BitVec 128

/-- The KDF in counter mode of NIST SP 800-108: key, label, context (R388, R422). -/
opaque Config.kdf : BitVec 256 → String → List Byte → BitVec 256

/-- AES-256-GCM encryption: key, IV, additional data, plaintext; ciphertext and tag (R389, R393). -/
opaque Config.gcmSeal : BitVec 256 → BitVec 96 → List Byte → BitVec 256 → BitVec 256 × BitVec 128

/-- AES-256-GCM decryption: key, IV, additional data, ciphertext, tag; `none` where the tag fails (R390, R393). -/
opaque Config.gcmOpen : BitVec 256 → BitVec 96 → List Byte → BitVec 256 → BitVec 128 → Option (BitVec 256)

/-- The hash over source and destination address by which ETB mode chooses a group member (R288), which the manual does not state. DESIGN CHOICE,
log entry 43. -/
opaque Config.groupHash : BitVec 48 → BitVec 48 → Nat

/-- The UID of the senior chip of a pair, which both chips present (R4); the manual does not say how the junior learns it. DESIGN CHOICE, log
entry 50. -/
opaque Config.seniorUid : BitVec 48

/-- The expected signature of the fixed set, held in ROM (R403): by kind of partition and, where a user run gives them, seed and pattern count are
not part of it. DESIGN CHOICE, log entry 60. -/
opaque Config.fixedSignature : Nat → BitVec 128

/-- SHA-256 (R257, R397). -/
opaque Config.sha256 : List Byte → BitVec 256

/-- SHA-384 (R257, R384, R385, R397). -/
opaque Config.sha384 : List Byte → BitVec 384

/-- The hash of a Foulan root, held in ROM (R386). -/
opaque Config.foulanRoot : Nat → BitVec 384

/-- ECDSA verification by the public key of a given hash: message, signature (R257, R385, R397). -/
opaque Config.verify : BitVec 384 → List Byte → List Byte → Bool

/-- Opening the body of an install command with the device identity key (R387, R422); `none` where it does not open. -/
opaque Config.openBody : BitVec 256 → List Byte → Option (BitVec 256)

/-- Foulan's PCI-SIG vendor ID (R357), which the manual does not give. DESIGN CHOICE, log entry 61. -/
opaque Config.vendorId : BitVec 16

/-- Whether a CAN controller on the bus is transmitting (bit 1) or receiving (bit 0) at an LTC instant (R319), which no command of the table shows.
DESIGN CHOICE, log entry 191. -/
opaque Config.canActivity : Nat → BitVec 64 → BitVec 2

/-- The sync or Starter eligibility of a node that this one has no discovery record of (R62, R132; log entry 144): a setting of the other node,
which no register of this one shows. -/
opaque Config.eligible : BitVec 48 → Bool

end Sys2Proof
end

