-- ==== Sys2Proof/Machine/Pages.lean ====
section
/-! DEFINITION. The register pages: base addresses, PAGE_ID contents, INTC source numbers and power domains
(spec/17_register_pages.md R452, R453, R454, R464; spec/16_power_clocks_reset.md R431). -/

namespace Sys2Proof.Machine

/-- Channel B lies 0x0020_0000 above channel A (R452). -/
def chanOffset : Line → Nat
  | .A => 0
  | .B => 0x200000

/-- The BAR0 base of a page (R464); a block of MAC_BB lies 0x400 above the one before it (R290). -/
def Page.base : Page → Nat
  | .chip => 0x000000 | .time => 0x010000 | .cyc => 0x020000 | .pwr => 0x030000 | .clk => 0x040000 | .intc => 0x050000
  | .sec => 0x100000
  | .gtb l => 0x200000 + chanOffset l | .loaf c => 0x201000 + chanOffset c | .knd c => 0x202000 + chanOffset c
  | .eng c i => 0x208000 + chanOffset c + 0x1000 * i
  | .sw => 0x600000
  | .mac m => if m < 8 then 0x601000 + 0x1000 * m else 0x609000 + 0x400 * (m - 8)
  | .can c => 0x60A000 + 0x1000 * c | .mvb c => 0x612000 + 0x1000 * c
  | .twin => 0x614000 | .lzl => 0x615000 | .pcie => 0x616000 | .qspi => 0x617000
  | .cpl => 0x618000 | .prf => 0x619000 | .gpio => 0x61A000

/-- The base of the page's common header: the four MAC_BB blocks share one. -/
def Page.headerBase : Page → Nat
  | .mac m => if m < 8 then 0x601000 + 0x1000 * m else 0x609000
  | p => p.base

/-- PAGE_ID.REGION (R454). -/
def Page.region : Page → Nat
  | .chip | .time | .cyc | .pwr | .clk | .intc => 0x00
  | .sec => 0x01
  | .gtb .A | .loaf .A | .knd .A | .eng .A _ => 0x02
  | .gtb .B | .loaf .B | .knd .B | .eng .B _ => 0x03
  | _ => 0x04

/-- PAGE_ID.TYPE (R464). -/
def Page.type : Page → Nat
  | .chip => 0x01 | .time => 0x02 | .cyc => 0x03 | .pwr => 0x04 | .clk => 0x05 | .intc => 0x06 | .sec => 0x10
  | .gtb _ => 0x20 | .loaf _ => 0x21 | .knd _ => 0x22 | .eng _ _ => 0x23
  | .sw => 0x40 | .mac m => if m < 8 then 0x41 else 0x42 | .can _ => 0x43 | .mvb _ => 0x44
  | .twin => 0x45 | .lzl => 0x46 | .pcie => 0x47 | .qspi => 0x48 | .cpl => 0x49 | .prf => 0x4A | .gpio => 0x4B

/-- PAGE_ID.INSTANCE (R454): engine, MAC, CAN or MVB index, 0 otherwise. -/
def Page.instIndex : Page → Nat
  | .eng _ i => i
  | .mac m => if m < 8 then m else 0
  | .can c => c
  | .mvb c => c
  | _ => 0

/-- The PAGE_ID word (R454). -/
def Page.idWord (p : Page) : Nat := p.region * 2 ^ 24 + p.type * 2 ^ 16 + p.instIndex * 2 ^ 8

/-- The page's INTC source number (R464). -/
def Page.source : Page → Nat
  | .chip => 0 | .time => 1 | .cyc => 2 | .pwr => 3 | .clk => 4 | .intc => 5 | .sec => 6
  | .gtb .A => 8 | .gtb .B => 40 | .loaf .A => 9 | .loaf .B => 41 | .knd .A => 10 | .knd .B => 42
  | .eng .A i => 16 + i | .eng .B i => 48 + i
  | .sw => 64 | .mac m => if m < 8 then 65 + m else 73 | .can c => 74 + c | .mvb c => 82 + c
  | .twin => 84 | .lzl => 85 | .pcie => 86 | .qspi => 87 | .cpl => 88 | .prf => 89 | .gpio => 90

/-- The power domain a page lies in, as its PWR bit (R431). -/
def Page.domain : Page → Nat
  | .chip | .time | .cyc | .pwr | .clk | .intc => 0
  | .sec => 1
  | .loaf .A | .knd .A => 2
  | .loaf .B | .knd .B => 3
  | .eng .A i => if i < 8 then 4 else 5
  | .eng .B i => if i < 8 then 6 else 7
  | .gtb .A => 8
  | .gtb .B => 9
  | .sw => 10
  | .mac m => if m < 8 then 10 else if m < 10 then 8 else 9
  | .can _ | .mvb _ | .cpl | .gpio => 12
  | .pcie | .qspi => 13
  | .twin | .lzl => 14
  | .prf => 15

/-- Every page once; MAC_BB is `mac 8` (R464). -/
def allPages : List Page :=
  [.chip, .time, .cyc, .pwr, .clk, .intc, .sec, .gtb .A, .gtb .B, .loaf .A, .loaf .B, .knd .A, .knd .B]
  ++ (List.range 16).map (Page.eng .A) ++ (List.range 16).map (Page.eng .B)
  ++ [.sw] ++ (List.range 9).map Page.mac ++ (List.range 8).map Page.can ++ (List.range 2).map Page.mvb
  ++ [.twin, .lzl, .pcie, .qspi, .cpl, .prf, .gpio]

/-- The page an address lies in, if any; the blocks of MAC_BB resolve to their own block. -/
def pageAt (addr : Nat) : Option Page :=
  if addr / 0x1000 = 0x609 then some (.mac (8 + addr % 0x1000 / 0x400))
  else allPages.find? fun p => p.base = addr / 0x1000 * 0x1000

end Sys2Proof.Machine
end

