-- ==== Sys2Proof/Machine/Regs.lean ====
section
/-! DEFINITION. The register map (spec/17_register_pages.md R452 to R464 and the register tables of the chapters): one constant per register
field, named PAGE.REGISTER_FIELD as the manual names it, and per page the list of its fields. -/

namespace Sys2Proof.Machine

/-- A field at offset `off` of page `p`, bits `lo + width - 1` down to `lo`. -/
def fieldAt (p : Page) (off lo width : Nat) (acc : Access) (reset : Nat) : Reg :=
  ⟨p.base + off, lo, width, acc, reset⟩

/-- A field of the common header: the four MAC_BB blocks share one header. -/
def headerAt (p : Page) (off lo width : Nat) (acc : Access) (reset : Nat) : Reg :=
  ⟨p.headerBase + off, lo, width, acc, reset⟩

/-! Page header (R42, R44, R454, R457). -/

def HDR.PAGE_ID (p : Page) : Reg := headerAt p 0x000 0 32 .ro p.idWord
def HDR.PAGE_REV (p : Page) : Reg := headerAt p 0x004 0 32 .ro 0x100
def HDR.PAGE_CTRL_PROOF_ALLOW (p : Page) : Reg := headerAt p 0x008 3 1 .rwl 0
def HDR.PAGE_CTRL_CFG_LOCK (p : Page) : Reg := headerAt p 0x008 2 1 .w1s 0
def HDR.PAGE_CTRL_SOFT_RESET (p : Page) : Reg := headerAt p 0x008 1 1 .w1s 0
def HDR.PAGE_CTRL_ENABLE (p : Page) : Reg := headerAt p 0x008 0 1 .rw 1
def HDR.PAGE_STAT_HOLD (p : Page) : Reg := headerAt p 0x00C 5 1 .ro 0
def HDR.PAGE_STAT_FAULT (p : Page) : Reg := headerAt p 0x00C 4 1 .ro 0
def HDR.PAGE_STAT_ACC_DEFERRED (p : Page) : Reg := headerAt p 0x00C 3 1 .ro 0
def HDR.PAGE_STAT_PROOF_BUSY (p : Page) : Reg := headerAt p 0x00C 2 1 .ro 0
def HDR.PAGE_STAT_BUSY (p : Page) : Reg := headerAt p 0x00C 1 1 .ro 0
def HDR.PAGE_STAT_READY (p : Page) : Reg := headerAt p 0x00C 0 1 .ro 0
def HDR.INT_RAW (p : Page) : Reg := headerAt p 0x010 0 32 .w1c 0
def HDR.INT_EN (p : Page) : Reg := headerAt p 0x014 0 32 .rw 0
def HDR.INT_STAT (p : Page) : Reg := headerAt p 0x018 0 32 .ro 0
def HDR.INT_SET (p : Page) : Reg := headerAt p 0x01C 0 32 .w1s 0
def HDR.ERR_CNT_CE (p : Page) : Reg := headerAt p 0x020 0 32 .rc 0
def HDR.ERR_CNT_UE (p : Page) : Reg := headerAt p 0x024 0 32 .rc 0
def HDR.ERR_INFO_CLASS (p : Page) : Reg := headerAt p 0x028 30 2 .rc 0
def HDR.ERR_INFO_CELL (p : Page) : Reg := headerAt p 0x028 24 6 .rc 0
def HDR.ERR_INFO_CAUSE (p : Page) : Reg := headerAt p 0x028 20 4 .rc 0
def HDR.ERR_INFO_WORD (p : Page) : Reg := headerAt p 0x028 0 20 .rc 0
def HDR.LOCK_KEY (p : Page) : Reg := headerAt p 0x02C 0 16 .wo 0
def HDR.CFG_CYCLE (p : Page) : Reg := headerAt p 0x030 0 32 .ro 0

def fieldsOfHDR (p : Page) : List Reg :=
  [HDR.PAGE_ID p, HDR.PAGE_REV p, HDR.PAGE_CTRL_PROOF_ALLOW p, HDR.PAGE_CTRL_CFG_LOCK p, HDR.PAGE_CTRL_SOFT_RESET p, HDR.PAGE_CTRL_ENABLE p, HDR.PAGE_STAT_HOLD p, HDR.PAGE_STAT_FAULT p, HDR.PAGE_STAT_ACC_DEFERRED p, HDR.PAGE_STAT_PROOF_BUSY p, HDR.PAGE_STAT_BUSY p, HDR.PAGE_STAT_READY p, HDR.INT_RAW p, HDR.INT_EN p, HDR.INT_STAT p, HDR.INT_SET p, HDR.ERR_CNT_CE p, HDR.ERR_CNT_UE p, HDR.ERR_INFO_CLASS p, HDR.ERR_INFO_CELL p, HDR.ERR_INFO_CAUSE p, HDR.ERR_INFO_WORD p, HDR.LOCK_KEY p, HDR.CFG_CYCLE p]

/-! Page CHIP (R461). -/

def CHIP.CHIP_ID : Reg := fieldAt .chip 0x040 0 32 .ro 0x7420B000
def CHIP.UID_LO : Reg := fieldAt .chip 0x044 0 32 .ro 0
def CHIP.UID_HI : Reg := fieldAt .chip 0x048 0 16 .ro 0
def CHIP.CH_MODE_QUAR_B : Reg := fieldAt .chip 0x04C 10 1 .ro 0
def CHIP.CH_MODE_QUAR_A : Reg := fieldAt .chip 0x04C 9 1 .ro 0
def CHIP.CH_MODE_LOCK_LOST : Reg := fieldAt .chip 0x04C 8 1 .ro 0
def CHIP.CH_MODE_MODE : Reg := fieldAt .chip 0x04C 0 1 .rwl 0
def CHIP.SCRUB_CTRL_PERIOD : Reg := fieldAt .chip 0x050 0 7 .rwl 10
def CHIP.CHIP_STAT_FAIL_SILENT : Reg := fieldAt .chip 0x054 1 1 .ro 0
def CHIP.CHIP_STAT_BOOT_DONE : Reg := fieldAt .chip 0x054 0 1 .ro 0
def CHIP.LOCK_CTRL_STICKY : Reg := fieldAt .chip 0x058 1 1 .w1s 0
def CHIP.LOCK_CTRL_LOCK_ALL : Reg := fieldAt .chip 0x058 0 1 .w1s 0
def CHIP.SCRATCH : Reg := fieldAt .chip 0x05C 0 32 .rw 0
def CHIP.XBAR_TMO_CNT : Reg := fieldAt .chip 0x100 0 32 .rc 0

def fieldsOfCHIP : List Reg :=
  [CHIP.CHIP_ID, CHIP.UID_LO, CHIP.UID_HI, CHIP.CH_MODE_QUAR_B, CHIP.CH_MODE_QUAR_A, CHIP.CH_MODE_LOCK_LOST, CHIP.CH_MODE_MODE, CHIP.SCRUB_CTRL_PERIOD, CHIP.CHIP_STAT_FAIL_SILENT, CHIP.CHIP_STAT_BOOT_DONE, CHIP.LOCK_CTRL_STICKY, CHIP.LOCK_CTRL_LOCK_ALL, CHIP.SCRATCH, CHIP.XBAR_TMO_CNT]

/-! Page INTC (R462). -/

def INTC.INTC_CTRL_MSIX_EN : Reg := fieldAt .intc 0x040 1 1 .rw 1
def INTC.INTC_CTRL_INTN_EN : Reg := fieldAt .intc 0x040 0 1 .rw 1
def INTC.INTC_STAT_INT_N : Reg := fieldAt .intc 0x044 0 1 .ro 0
def INTC.SRC_LINE (s : Nat) : Reg := fieldAt .intc (0x050 + 4 * s) 0 32 .ro 0
def INTC.VEC_PEND_LO : Reg := fieldAt .intc 0x060 0 32 .ro 0
def INTC.VEC_PEND_HI : Reg := fieldAt .intc 0x064 0 32 .ro 0
def INTC.VEC_ARM_LO : Reg := fieldAt .intc 0x068 0 32 .ro 0xFFFFFFFF
def INTC.VEC_ARM_HI : Reg := fieldAt .intc 0x06C 0 32 .ro 0xFFFFFFFF
def INTC.VEC_REARM_LO : Reg := fieldAt .intc 0x070 0 32 .w1s 0
def INTC.VEC_REARM_HI : Reg := fieldAt .intc 0x074 0 32 .w1s 0
def INTC.MSIX_CNT : Reg := fieldAt .intc 0x100 0 32 .rc 0
def INTC.SRC_ROUTE_INTN_EN (s : Nat) : Reg := fieldAt .intc (0x200 + 4 * s) 9 1 .rw 1
def INTC.SRC_ROUTE_MSIX_EN (s : Nat) : Reg := fieldAt .intc (0x200 + 4 * s) 8 1 .rw 0
def INTC.SRC_ROUTE_VEC (s : Nat) : Reg := fieldAt .intc (0x200 + 4 * s) 0 6 .rw 0

def fieldsOfINTC : List Reg :=
  [INTC.INTC_CTRL_MSIX_EN, INTC.INTC_CTRL_INTN_EN, INTC.INTC_STAT_INT_N] ++
  (List.range 4).map INTC.SRC_LINE ++
  [INTC.VEC_PEND_LO, INTC.VEC_PEND_HI, INTC.VEC_ARM_LO, INTC.VEC_ARM_HI, INTC.VEC_REARM_LO, INTC.VEC_REARM_HI, INTC.MSIX_CNT] ++
  (List.range 128).map INTC.SRC_ROUTE_INTN_EN ++
  (List.range 128).map INTC.SRC_ROUTE_MSIX_EN ++
  (List.range 128).map INTC.SRC_ROUTE_VEC

/-! Page GPIO (R463). -/

def GPIO.DIR : Reg := fieldAt .gpio 0x040 0 32 .rw 0
def GPIO.OUT : Reg := fieldAt .gpio 0x044 0 32 .rw 0
def GPIO.OUT_SET : Reg := fieldAt .gpio 0x048 0 32 .w1s 0
def GPIO.OUT_CLR : Reg := fieldAt .gpio 0x04C 0 32 .w1c 0
def GPIO.IN : Reg := fieldAt .gpio 0x050 0 32 .ro 0
def GPIO.RISE_EN : Reg := fieldAt .gpio 0x054 0 32 .rw 0
def GPIO.FALL_EN : Reg := fieldAt .gpio 0x058 0 32 .rw 0
def GPIO.EDGE : Reg := fieldAt .gpio 0x05C 0 32 .w1c 0

def fieldsOfGPIO : List Reg :=
  [GPIO.DIR, GPIO.OUT, GPIO.OUT_SET, GPIO.OUT_CLR, GPIO.IN, GPIO.RISE_EN, GPIO.FALL_EN, GPIO.EDGE]

/-! Page PWR (R450). -/

def PWR.PD_CTRL : Reg := fieldAt .pwr 0x040 0 16 .rw 0xFFFF
def PWR.PD_STAT_SEQ_BUSY : Reg := fieldAt .pwr 0x044 31 1 .ro 0
def PWR.PD_STAT_ON : Reg := fieldAt .pwr 0x044 0 16 .ro 1
def PWR.SUP_STAT_BO_STATE : Reg := fieldAt .pwr 0x048 4 2 .ro 0
def PWR.SUP_STAT_TJ_WIN : Reg := fieldAt .pwr 0x048 3 1 .ro 0
def PWR.SUP_STAT_VDD_WIN : Reg := fieldAt .pwr 0x048 2 1 .ro 0
def PWR.SUP_STAT_BO_LONG : Reg := fieldAt .pwr 0x048 1 1 .ro 0
def PWR.SUP_STAT_BO_ACTIVE : Reg := fieldAt .pwr 0x048 0 1 .ro 0
def PWR.VDD_MIN : Reg := fieldAt .pwr 0x04C 0 12 .rc 0xFFF
def PWR.TJ : Reg := fieldAt .pwr 0x050 0 12 .ro 0
def PWR.RST_CAUSE_BO_SEEN : Reg := fieldAt .pwr 0x054 5 1 .w1c 0
def PWR.RST_CAUSE_LC : Reg := fieldAt .pwr 0x054 4 1 .w1c 0
def PWR.RST_CAUSE_SOFT : Reg := fieldAt .pwr 0x054 3 1 .w1c 0
def PWR.RST_CAUSE_VDD : Reg := fieldAt .pwr 0x054 2 1 .w1c 0
def PWR.RST_CAUSE_PIN : Reg := fieldAt .pwr 0x054 1 1 .w1c 0
def PWR.RST_CAUSE_POR : Reg := fieldAt .pwr 0x054 0 1 .w1c 1
def PWR.FAULT_LATCH_VALID : Reg := fieldAt .pwr 0x058 31 1 .w1c 0
def PWR.FAULT_LATCH_REGION : Reg := fieldAt .pwr 0x058 28 3 .ro 0
def PWR.FAULT_LATCH_CAUSE : Reg := fieldAt .pwr 0x058 24 4 .ro 0
def PWR.FAULT_LATCH_CELL : Reg := fieldAt .pwr 0x058 18 6 .ro 0
def PWR.FAULT_CYCLE : Reg := fieldAt .pwr 0x05C 0 32 .ro 0
def PWR.STRAP_TWIN_ID : Reg := fieldAt .pwr 0x060 4 1 .ro 0
def PWR.STRAP_BOOT_SRC : Reg := fieldAt .pwr 0x060 0 2 .ro 0
def PWR.CHIP_RST : Reg := fieldAt .pwr 0x064 0 16 .wo 0
def PWR.PUSH_CTRL_GO : Reg := fieldAt .pwr 0x068 31 1 .wo 0
def PWR.PUSH_CTRL_LAST : Reg := fieldAt .pwr 0x068 30 1 .wo 0
def PWR.PUSH_CTRL_LEN : Reg := fieldAt .pwr 0x068 0 18 .wo 0
def PWR.PUSH_STAT_PUSH : Reg := fieldAt .pwr 0x06C 1 1 .ro 0
def PWR.PUSH_STAT_READY : Reg := fieldAt .pwr 0x06C 0 1 .ro 0
def PWR.BO_WARN_CNT : Reg := fieldAt .pwr 0x100 0 32 .rc 0
def PWR.BO_LONG_CNT : Reg := fieldAt .pwr 0x104 0 32 .rc 0
def PWR.PD_REFUSED_CNT : Reg := fieldAt .pwr 0x108 0 32 .rc 0

def fieldsOfPWR : List Reg :=
  [PWR.PD_CTRL, PWR.PD_STAT_SEQ_BUSY, PWR.PD_STAT_ON, PWR.SUP_STAT_BO_STATE, PWR.SUP_STAT_TJ_WIN, PWR.SUP_STAT_VDD_WIN, PWR.SUP_STAT_BO_LONG, PWR.SUP_STAT_BO_ACTIVE, PWR.VDD_MIN, PWR.TJ, PWR.RST_CAUSE_BO_SEEN, PWR.RST_CAUSE_LC, PWR.RST_CAUSE_SOFT, PWR.RST_CAUSE_VDD, PWR.RST_CAUSE_PIN, PWR.RST_CAUSE_POR, PWR.FAULT_LATCH_VALID, PWR.FAULT_LATCH_REGION, PWR.FAULT_LATCH_CAUSE, PWR.FAULT_LATCH_CELL, PWR.FAULT_CYCLE, PWR.STRAP_TWIN_ID, PWR.STRAP_BOOT_SRC, PWR.CHIP_RST] ++
  [PWR.PUSH_CTRL_GO, PWR.PUSH_CTRL_LAST, PWR.PUSH_CTRL_LEN, PWR.PUSH_STAT_PUSH, PWR.PUSH_STAT_READY, PWR.BO_WARN_CNT, PWR.BO_LONG_CNT, PWR.PD_REFUSED_CNT]

/-! Page CLK (R451). -/

def CLK.CLK_STAT_GRD_OK : Reg := fieldAt .clk 0x040 11 1 .ro 0
def CLK.CLK_STAT_REF_OK : Reg := fieldAt .clk 0x040 10 1 .ro 0
def CLK.CLK_STAT_ENG_OK : Reg := fieldAt .clk 0x040 9 1 .ro 0
def CLK.CLK_STAT_FAB_OK : Reg := fieldAt .clk 0x040 8 1 .ro 0
def CLK.CLK_STAT_PCIE_LOCK : Reg := fieldAt .clk 0x040 4 1 .ro 0
def CLK.CLK_STAT_SDS1_LOCK : Reg := fieldAt .clk 0x040 3 1 .ro 0
def CLK.CLK_STAT_SDS0_LOCK : Reg := fieldAt .clk 0x040 2 1 .ro 0
def CLK.CLK_STAT_ENG_LOCK : Reg := fieldAt .clk 0x040 1 1 .ro 0
def CLK.CLK_STAT_FAB_LOCK : Reg := fieldAt .clk 0x040 0 1 .ro 0
def CLK.GOC_REF : Reg := fieldAt .clk 0x044 0 16 .ro 0
def CLK.GOC_FAB : Reg := fieldAt .clk 0x048 0 16 .ro 0
def CLK.GOC_ENG : Reg := fieldAt .clk 0x04C 0 16 .ro 0
def CLK.GOC_DEV_CNT : Reg := fieldAt .clk 0x100 0 32 .rc 0
def CLK.PLL_DEV_CNT : Reg := fieldAt .clk 0x104 0 32 .rc 0

def fieldsOfCLK : List Reg :=
  [CLK.CLK_STAT_GRD_OK, CLK.CLK_STAT_REF_OK, CLK.CLK_STAT_ENG_OK, CLK.CLK_STAT_FAB_OK, CLK.CLK_STAT_PCIE_LOCK, CLK.CLK_STAT_SDS1_LOCK, CLK.CLK_STAT_SDS0_LOCK, CLK.CLK_STAT_ENG_LOCK, CLK.CLK_STAT_FAB_LOCK, CLK.GOC_REF, CLK.GOC_FAB, CLK.GOC_ENG, CLK.GOC_DEV_CNT, CLK.PLL_DEV_CNT]

/-! Page TIME (R86). -/

def TIME.TIME_CTRL_SNAP : Reg := fieldAt .time 0x040 8 1 .wo 0
def TIME.TIME_CTRL_AS_GM_EN : Reg := fieldAt .time 0x040 3 1 .rw 0
def TIME.TIME_CTRL_PPS_POL : Reg := fieldAt .time 0x040 2 1 .rwl 0
def TIME.TIME_CTRL_EXT_EN : Reg := fieldAt .time 0x040 1 1 .rwl 0
def TIME.TIME_CTRL_SYNC_ELIG : Reg := fieldAt .time 0x040 0 1 .rwl 0
def TIME.TIME_STAT_COUNT : Reg := fieldAt .time 0x044 16 5 .ro 0
def TIME.TIME_STAT_USED : Reg := fieldAt .time 0x044 8 5 .ro 0
def TIME.TIME_STAT_STEPPED : Reg := fieldAt .time 0x044 7 1 .rc 0
def TIME.TIME_STAT_STARTER : Reg := fieldAt .time 0x044 6 1 .ro 0
def TIME.TIME_STAT_EXT_VALID : Reg := fieldAt .time 0x044 5 1 .ro 0
def TIME.TIME_STAT_VALID : Reg := fieldAt .time 0x044 4 1 .ro 0
def TIME.TIME_STAT_STATE : Reg := fieldAt .time 0x044 0 3 .ro 0
def TIME.SNAP_LTC_LO : Reg := fieldAt .time 0x048 0 32 .ro 0
def TIME.SNAP_LTC_HI : Reg := fieldAt .time 0x04C 0 32 .ro 0
def TIME.SNAP_LTC_FRAC : Reg := fieldAt .time 0x050 0 32 .ro 0
def TIME.SNAP_TTC_LO : Reg := fieldAt .time 0x054 0 32 .ro 0
def TIME.SNAP_TTC_HI : Reg := fieldAt .time 0x058 0 32 .ro 0
def TIME.TTC_INIT_LO : Reg := fieldAt .time 0x05C 0 32 .rwl 0
def TIME.TTC_INIT_HI : Reg := fieldAt .time 0x060 0 32 .rwl 0
def TIME.RATE_ADJ : Reg := fieldAt .time 0x064 0 32 .ro 0
def TIME.LAST_CORR : Reg := fieldAt .time 0x068 0 32 .ro 0
def TIME.PREC_ASSUMED : Reg := fieldAt .time 0x06C 0 16 .rwl 250
def TIME.RATE_CTRL_GAIN : Reg := fieldAt .time 0x070 16 2 .rwl 1
def TIME.RATE_CTRL_INTERVAL : Reg := fieldAt .time 0x070 0 9 .rwl 16
def TIME.HOLD_MAX : Reg := fieldAt .time 0x074 0 11 .rwl 16
def TIME.EXT_MAX : Reg := fieldAt .time 0x078 0 16 .rwl 40
def TIME.PPS_ERR : Reg := fieldAt .time 0x07C 0 32 .ro 0
def TIME.PORT_ASYM (m : Nat) : Reg := fieldAt .time (0x080 + 4 * m) 0 16 .rwl 0
def TIME.AS_CTRL_TBI : Reg := fieldAt .time 0x090 16 16 .ro 0
def TIME.AS_CTRL_PRIO2 : Reg := fieldAt .time 0x090 8 8 .rw 248
def TIME.AS_CTRL_PRIO1 : Reg := fieldAt .time 0x090 0 8 .rw 246
def TIME.AS_OFFS_LO : Reg := fieldAt .time 0x094 0 32 .rw 0
def TIME.AS_OFFS_HI : Reg := fieldAt .time 0x098 0 32 .rw 0
def TIME.STEP_LAST : Reg := fieldAt .time 0x09C 0 32 .ro 0
def TIME.OUT_PREC_CNT : Reg := fieldAt .time 0x0A0 0 32 .rc 0
def TIME.STEP_CNT : Reg := fieldAt .time 0x0A4 0 32 .rc 0
def TIME.HOLD_CNT : Reg := fieldAt .time 0x0A8 0 32 .rc 0
def TIME.DEV_VALID (m : Nat) : Reg := fieldAt .time (0x0C0 + 4 * m) 31 1 .ro 0
def TIME.DEV_KEPT (m : Nat) : Reg := fieldAt .time (0x0C0 + 4 * m) 30 1 .ro 0
def TIME.DEV_POS (m : Nat) : Reg := fieldAt .time (0x0C0 + 4 * m) 24 6 .ro 0
def TIME.DEV_DEV (m : Nat) : Reg := fieldAt .time (0x0C0 + 4 * m) 0 24 .ro 0

def fieldsOfTIME : List Reg :=
  [TIME.TIME_CTRL_SNAP, TIME.TIME_CTRL_AS_GM_EN, TIME.TIME_CTRL_PPS_POL, TIME.TIME_CTRL_EXT_EN, TIME.TIME_CTRL_SYNC_ELIG, TIME.TIME_STAT_COUNT, TIME.TIME_STAT_USED, TIME.TIME_STAT_STEPPED, TIME.TIME_STAT_STARTER, TIME.TIME_STAT_EXT_VALID, TIME.TIME_STAT_VALID, TIME.TIME_STAT_STATE, TIME.SNAP_LTC_LO, TIME.SNAP_LTC_HI, TIME.SNAP_LTC_FRAC, TIME.SNAP_TTC_LO, TIME.SNAP_TTC_HI, TIME.TTC_INIT_LO, TIME.TTC_INIT_HI, TIME.RATE_ADJ, TIME.LAST_CORR, TIME.PREC_ASSUMED, TIME.RATE_CTRL_GAIN, TIME.RATE_CTRL_INTERVAL] ++
  [TIME.HOLD_MAX, TIME.EXT_MAX, TIME.PPS_ERR] ++
  (List.range 4).map TIME.PORT_ASYM ++
  [TIME.AS_CTRL_TBI, TIME.AS_CTRL_PRIO2, TIME.AS_CTRL_PRIO1, TIME.AS_OFFS_LO, TIME.AS_OFFS_HI, TIME.STEP_LAST, TIME.OUT_PREC_CNT, TIME.STEP_CNT, TIME.HOLD_CNT] ++
  (List.range 15).map TIME.DEV_VALID ++
  (List.range 15).map TIME.DEV_KEPT ++
  (List.range 15).map TIME.DEV_POS ++
  (List.range 15).map TIME.DEV_DEV

/-! Page CYC (R87). -/

def CYC.CYC_LEN_K : Reg := fieldAt .cyc 0x040 0 11 .rwl 16
def CYC.CYC_NUM : Reg := fieldAt .cyc 0x044 0 32 .ro 0
def CYC.T0_LO : Reg := fieldAt .cyc 0x048 0 32 .ro 0
def CYC.T0_HI : Reg := fieldAt .cyc 0x04C 0 32 .ro 0
def CYC.TX_OFFS : Reg := fieldAt .cyc 0x050 0 16 .rwl 3000
def CYC.CUT_LEAD : Reg := fieldAt .cyc 0x054 0 16 .rwl 1000
def CYC.TRAY_LEN : Reg := fieldAt .cyc 0x058 0 32 .rwl 40000
def CYC.IDLE_LEN : Reg := fieldAt .cyc 0x05C 0 32 .rwl 50000
def CYC.CYC_STAT_PHASE : Reg := fieldAt .cyc 0x060 0 2 .ro 3
def CYC.CUT_AT : Reg := fieldAt .cyc 0x064 0 32 .ro 0
def CYC.RETURN_END_AT : Reg := fieldAt .cyc 0x068 0 32 .ro 0
def CYC.OUT_CTRL_WIDTH : Reg := fieldAt .cyc 0x06C 8 16 .rw 100
def CYC.OUT_CTRL_MARK_POL : Reg := fieldAt .cyc 0x06C 2 1 .rw 0
def CYC.OUT_CTRL_TICK_POL : Reg := fieldAt .cyc 0x06C 1 1 .rw 0
def CYC.OUT_CTRL_TICK_EN : Reg := fieldAt .cyc 0x06C 0 1 .rw 0
def CYC.MARK_ROUTE_EN (q : Nat) : Reg := fieldAt .cyc 0x070 (8 * q + 4) 1 .rw 0
def CYC.MARK_ROUTE_SEL (q : Nat) : Reg := fieldAt .cyc 0x070 (8 * q + 0) 4 .rw 0
def CYC.TRAY_LATE_CNT : Reg := fieldAt .cyc 0x074 0 32 .rc 0
def CYC.MARK_SKIP_CNT : Reg := fieldAt .cyc 0x078 0 32 .rc 0
def CYC.CM_OFFS (m : Nat) : Reg := fieldAt .cyc (0x080 + 8 * m) 0 32 .rw 0
def CYC.CM_CTRL_EN (m : Nat) : Reg := fieldAt .cyc (0x084 + 8 * m) 31 1 .rw 0
def CYC.CM_CTRL_DIV (m : Nat) : Reg := fieldAt .cyc (0x084 + 8 * m) 16 10 .rw 1
def CYC.CM_CTRL_PHASE (m : Nat) : Reg := fieldAt .cyc (0x084 + 8 * m) 0 10 .rw 0

def fieldsOfCYC : List Reg :=
  [CYC.CYC_LEN_K, CYC.CYC_NUM, CYC.T0_LO, CYC.T0_HI, CYC.TX_OFFS, CYC.CUT_LEAD, CYC.TRAY_LEN, CYC.IDLE_LEN, CYC.CYC_STAT_PHASE, CYC.CUT_AT, CYC.RETURN_END_AT, CYC.OUT_CTRL_WIDTH, CYC.OUT_CTRL_MARK_POL, CYC.OUT_CTRL_TICK_POL, CYC.OUT_CTRL_TICK_EN] ++
  (List.range 4).map CYC.MARK_ROUTE_EN ++
  (List.range 4).map CYC.MARK_ROUTE_SEL ++
  [CYC.TRAY_LATE_CNT, CYC.MARK_SKIP_CNT] ++
  (List.range 16).map CYC.CM_OFFS ++
  (List.range 16).map CYC.CM_CTRL_EN ++
  (List.range 16).map CYC.CM_CTRL_DIV ++
  (List.range 16).map CYC.CM_CTRL_PHASE

/-! Page GTB (R166). -/

def GTB.LINE_CTRL_EN (l : Line) : Reg := fieldAt (.gtb l) 0x040 0 1 .rw 0
def GTB.FORM_CFG_FR_ALLOW (l : Line) : Reg := fieldAt (.gtb l) 0x044 20 1 .rwl 1
def GTB.FORM_CFG_AUTH (l : Line) : Reg := fieldAt (.gtb l) 0x044 19 1 .rwl 1
def GTB.FORM_CFG_RANK (l : Line) : Reg := fieldAt (.gtb l) 0x044 16 3 .rwl 7
def GTB.FORM_CFG_START_ELIG (l : Line) : Reg := fieldAt (.gtb l) 0x044 15 1 .rwl 0
def GTB.FORM_CFG_SLICE_PAY (l : Line) : Reg := fieldAt (.gtb l) 0x044 0 11 .rwl 64
def GTB.CRUMB_CFG_CNT (l : Line) : Reg := fieldAt (.gtb l) 0x048 16 4 .rwl 0
def GTB.CRUMB_CFG_PAY (l : Line) : Reg := fieldAt (.gtb l) 0x048 0 11 .rwl 256
def GTB.PORT_CFG_COUPLER (l : Line) : Reg := fieldAt (.gtb l) 0x04C 0 4 .rwl 0
def GTB.FORM_TMR_LONE_PROBE (l : Line) : Reg := fieldAt (.gtb l) 0x050 23 9 .rwl 16
def GTB.FORM_TMR_LISTEN_TMO (l : Line) : Reg := fieldAt (.gtb l) 0x050 16 7 .rwl 4
def GTB.FORM_TMR_PASSIVE_TMO (l : Line) : Reg := fieldAt (.gtb l) 0x050 8 7 .rwl 4
def GTB.FORM_TMR_LINK_SETTLE (l : Line) : Reg := fieldAt (.gtb l) 0x050 0 3 .rwl 2
def GTB.CPL_WIN (l : Line) : Reg := fieldAt (.gtb l) 0x054 0 13 .rwl 500
def GTB.FR_CFG_RELINK (l : Line) : Reg := fieldAt (.gtb l) 0x058 16 12 .rwl 500
def GTB.FR_CFG_FR_K (l : Line) : Reg := fieldAt (.gtb l) 0x058 0 11 .rwl 16
def GTB.CYC_LEN_K (l : Line) : Reg := fieldAt (.gtb l) 0x05C 0 11 .ro 16
def GTB.FORM_STAT_STARTER_RANK (l : Line) : Reg := fieldAt (.gtb l) 0x060 24 3 .ro 0
def GTB.FORM_STAT_CRUMB (l : Line) : Reg := fieldAt (.gtb l) 0x060 16 4 .ro 0
def GTB.FORM_STAT_POS (l : Line) : Reg := fieldAt (.gtb l) 0x060 8 6 .ro 0
def GTB.FORM_STAT_MODE (l : Line) : Reg := fieldAt (.gtb l) 0x060 4 1 .ro 0
def GTB.FORM_STAT_STATE (l : Line) : Reg := fieldAt (.gtb l) 0x060 0 4 .ro 0
def GTB.FORM_EPOCH (l : Line) : Reg := fieldAt (.gtb l) 0x064 0 16 .ro 0
def GTB.STARTER_UID_LO (l : Line) : Reg := fieldAt (.gtb l) 0x068 0 32 .ro 0
def GTB.STARTER_UID_HI (l : Line) : Reg := fieldAt (.gtb l) 0x06C 0 16 .ro 0
def GTB.LAYOUT_STAT_CRUMBS (l : Line) : Reg := fieldAt (.gtb l) 0x070 16 4 .ro 0
def GTB.LAYOUT_STAT_FRAMES (l : Line) : Reg := fieldAt (.gtb l) 0x070 8 6 .ro 0
def GTB.LAYOUT_STAT_NODES (l : Line) : Reg := fieldAt (.gtb l) 0x070 0 6 .ro 0
def GTB.TRAY_CFG_ETYPE (l : Line) : Reg := fieldAt (.gtb l) 0x074 0 16 .rwl 0x88B5
def GTB.TRAY_STAT_MISS_RUN (l : Line) : Reg := fieldAt (.gtb l) 0x078 6 2 .ro 0
def GTB.TRAY_STAT_GRD_CLOSED (l : Line) : Reg := fieldAt (.gtb l) 0x078 5 1 .ro 0
def GTB.TRAY_STAT_REAR_UP (l : Line) : Reg := fieldAt (.gtb l) 0x078 4 1 .ro 0
def GTB.TRAY_STAT_FRONT_UP (l : Line) : Reg := fieldAt (.gtb l) 0x078 3 1 .ro 0
def GTB.TRAY_STAT_AUTH_ON (l : Line) : Reg := fieldAt (.gtb l) 0x078 2 1 .ro 0
def GTB.TRAY_STAT_LINE_END (l : Line) : Reg := fieldAt (.gtb l) 0x078 1 1 .ro 0
def GTB.TRAY_STAT_ORIGIN (l : Line) : Reg := fieldAt (.gtb l) 0x078 0 1 .ro 0
def GTB.TRAY_ARR (l : Line) : Reg := fieldAt (.gtb l) 0x07C 0 32 .ro 0
def GTB.PRES_LO (l : Line) : Reg := fieldAt (.gtb l) 0x080 0 32 .ro 0
def GTB.PRES_HI (l : Line) : Reg := fieldAt (.gtb l) 0x084 0 32 .ro 0
def GTB.FR_SLOT (l : Line) : Reg := fieldAt (.gtb l) 0x088 0 32 .ro 0
def GTB.INAUG_CNT (l : Line) : Reg := fieldAt (.gtb l) 0x100 0 32 .rc 0
def GTB.COLD_DROP_CNT (l : Line) : Reg := fieldAt (.gtb l) 0x104 0 32 .rc 0
def GTB.NO_ROOM_CNT (l : Line) : Reg := fieldAt (.gtb l) 0x108 0 32 .rc 0
def GTB.CYC_MISMATCH_CNT (l : Line) : Reg := fieldAt (.gtb l) 0x10C 0 32 .rc 0
def GTB.CPL_ONLY_CNT (l : Line) : Reg := fieldAt (.gtb l) 0x110 0 32 .rc 0
def GTB.RECENTRE_CNT (l : Line) : Reg := fieldAt (.gtb l) 0x114 0 32 .rc 0
def GTB.V1_FRAME_CNT (l : Line) : Reg := fieldAt (.gtb l) 0x118 0 32 .rc 0
def GTB.CRUMB_LOST_CNT (l : Line) : Reg := fieldAt (.gtb l) 0x11C 0 32 .rc 0
def GTB.WINDOW_MISS_CNT (l : Line) : Reg := fieldAt (.gtb l) 0x120 0 32 .rc 0
def GTB.HDR_MISMATCH_CNT (l : Line) : Reg := fieldAt (.gtb l) 0x124 0 32 .rc 0
def GTB.TRAY_BROKEN_CNT (l : Line) : Reg := fieldAt (.gtb l) 0x128 0 32 .rc 0
def GTB.FRAME_ERR_CNT (l : Line) : Reg := fieldAt (.gtb l) 0x12C 0 32 .rc 0
def GTB.TAG_FAIL_CNT (l : Line) : Reg := fieldAt (.gtb l) 0x130 0 32 .rc 0
def GTB.WITHDRAWN_SET_CNT (l : Line) : Reg := fieldAt (.gtb l) 0x134 0 32 .rc 0
def GTB.WITHDRAW_CNT (l : Line) : Reg := fieldAt (.gtb l) 0x138 0 32 .rc 0
def GTB.OWN_WITHDRAWN_CNT (l : Line) : Reg := fieldAt (.gtb l) 0x13C 0 32 .rc 0
def GTB.GRD_BLOCK_CNT (l : Line) : Reg := fieldAt (.gtb l) 0x140 0 32 .rc 0
def GTB.GRD_TICK_CNT (l : Line) : Reg := fieldAt (.gtb l) 0x144 0 32 .rc 0
def GTB.WRONG_LINE_CNT (l : Line) : Reg := fieldAt (.gtb l) 0x148 0 32 .rc 0
def GTB.FOREIGN_IN_TRAY_CNT (l : Line) : Reg := fieldAt (.gtb l) 0x14C 0 32 .rc 0
def GTB.FREE_DEFER_CNT (l : Line) : Reg := fieldAt (.gtb l) 0x150 0 32 .rc 0
def GTB.PAUSE_IGN_CNT (l : Line) : Reg := fieldAt (.gtb l) 0x154 0 32 .rc 0
def GTB.NULL_FRAME_CNT (l : Line) : Reg := fieldAt (.gtb l) 0x158 0 32 .rc 0
def GTB.SLOT_CNT_STALE (l : Line) (s : Nat) : Reg := fieldAt (.gtb l) (0x200 + 4 * s) 16 16 .rc 0
def GTB.SLOT_CNT_REJECT (l : Line) (s : Nat) : Reg := fieldAt (.gtb l) (0x200 + 4 * s) 0 16 .rc 0
def GTB.LAYOUT_S_FRAME (l : Line) (s : Nat) : Reg := fieldAt (.gtb l) (0x400 + 4 * s) 24 5 .ro 0
def GTB.LAYOUT_S_OFFS (l : Line) (s : Nat) : Reg := fieldAt (.gtb l) (0x400 + 4 * s) 12 12 .ro 0
def GTB.LAYOUT_S_PAY (l : Line) (s : Nat) : Reg := fieldAt (.gtb l) (0x400 + 4 * s) 0 11 .ro 0

def fieldsOfGTB (l : Line) : List Reg :=
  [GTB.LINE_CTRL_EN l, GTB.FORM_CFG_FR_ALLOW l, GTB.FORM_CFG_AUTH l, GTB.FORM_CFG_RANK l, GTB.FORM_CFG_START_ELIG l, GTB.FORM_CFG_SLICE_PAY l, GTB.CRUMB_CFG_CNT l, GTB.CRUMB_CFG_PAY l, GTB.PORT_CFG_COUPLER l, GTB.FORM_TMR_LONE_PROBE l, GTB.FORM_TMR_LISTEN_TMO l, GTB.FORM_TMR_PASSIVE_TMO l, GTB.FORM_TMR_LINK_SETTLE l, GTB.CPL_WIN l, GTB.FR_CFG_RELINK l, GTB.FR_CFG_FR_K l, GTB.CYC_LEN_K l, GTB.FORM_STAT_STARTER_RANK l, GTB.FORM_STAT_CRUMB l, GTB.FORM_STAT_POS l, GTB.FORM_STAT_MODE l, GTB.FORM_STAT_STATE l, GTB.FORM_EPOCH l, GTB.STARTER_UID_LO l] ++
  [GTB.STARTER_UID_HI l, GTB.LAYOUT_STAT_CRUMBS l, GTB.LAYOUT_STAT_FRAMES l, GTB.LAYOUT_STAT_NODES l, GTB.TRAY_CFG_ETYPE l, GTB.TRAY_STAT_MISS_RUN l, GTB.TRAY_STAT_GRD_CLOSED l, GTB.TRAY_STAT_REAR_UP l, GTB.TRAY_STAT_FRONT_UP l, GTB.TRAY_STAT_AUTH_ON l, GTB.TRAY_STAT_LINE_END l, GTB.TRAY_STAT_ORIGIN l, GTB.TRAY_ARR l, GTB.PRES_LO l, GTB.PRES_HI l, GTB.FR_SLOT l, GTB.INAUG_CNT l, GTB.COLD_DROP_CNT l, GTB.NO_ROOM_CNT l, GTB.CYC_MISMATCH_CNT l, GTB.CPL_ONLY_CNT l, GTB.RECENTRE_CNT l, GTB.V1_FRAME_CNT l, GTB.CRUMB_LOST_CNT l] ++
  [GTB.WINDOW_MISS_CNT l, GTB.HDR_MISMATCH_CNT l, GTB.TRAY_BROKEN_CNT l, GTB.FRAME_ERR_CNT l, GTB.TAG_FAIL_CNT l, GTB.WITHDRAWN_SET_CNT l, GTB.WITHDRAW_CNT l, GTB.OWN_WITHDRAWN_CNT l, GTB.GRD_BLOCK_CNT l, GTB.GRD_TICK_CNT l, GTB.WRONG_LINE_CNT l, GTB.FOREIGN_IN_TRAY_CNT l, GTB.FREE_DEFER_CNT l, GTB.PAUSE_IGN_CNT l, GTB.NULL_FRAME_CNT l] ++
  (List.range 73).map (GTB.SLOT_CNT_STALE l) ++
  (List.range 73).map (GTB.SLOT_CNT_REJECT l) ++
  (List.range 73).map (GTB.LAYOUT_S_FRAME l) ++
  (List.range 73).map (GTB.LAYOUT_S_OFFS l) ++
  (List.range 73).map (GTB.LAYOUT_S_PAY l)

/-! Page LOAF (R193). -/

def LOAF.LOAF_CTRL_DRAFT_TMO (c : Line) : Reg := fieldAt (.loaf c) 0x040 8 8 .rwl 4
def LOAF.LOAF_CTRL_AUTO_READY (c : Line) : Reg := fieldAt (.loaf c) 0x040 1 1 .rwl 0
def LOAF.LOAF_CTRL_PROV_EN (c : Line) : Reg := fieldAt (.loaf c) 0x040 0 1 .rwl 1
def LOAF.BANK_STAT_PREV_VALID (c : Line) : Reg := fieldAt (.loaf c) 0x044 11 1 .ro 0
def LOAF.BANK_STAT_LATEST_VALID (c : Line) : Reg := fieldAt (.loaf c) 0x044 10 1 .ro 0
def LOAF.BANK_STAT_PIN_VALID (c : Line) : Reg := fieldAt (.loaf c) 0x044 9 1 .ro 0
def LOAF.BANK_STAT_FORM_VALID (c : Line) : Reg := fieldAt (.loaf c) 0x044 8 1 .ro 0
def LOAF.BANK_STAT_PINNED (c : Line) : Reg := fieldAt (.loaf c) 0x044 6 2 .ro 0
def LOAF.BANK_STAT_PREVIOUS (c : Line) : Reg := fieldAt (.loaf c) 0x044 4 2 .ro 0
def LOAF.BANK_STAT_LATEST (c : Line) : Reg := fieldAt (.loaf c) 0x044 2 2 .ro 0
def LOAF.BANK_STAT_FORMING (c : Line) : Reg := fieldAt (.loaf c) 0x044 0 2 .ro 0
def LOAF.LATEST_CYCLE (c : Line) : Reg := fieldAt (.loaf c) 0x048 0 32 .ro 0
def LOAF.LATEST_EPOCH (c : Line) : Reg := fieldAt (.loaf c) 0x04C 0 16 .ro 0
def LOAF.PIN_CMD (c : Line) : Reg := fieldAt (.loaf c) 0x050 0 2 .wo 0
def LOAF.PIN_CYCLE (c : Line) : Reg := fieldAt (.loaf c) 0x054 0 32 .ro 0
def LOAF.PIN_EPOCH (c : Line) : Reg := fieldAt (.loaf c) 0x058 0 16 .ro 0
def LOAF.DOUGH_STAT_DRAFT_PEND (c : Line) : Reg := fieldAt (.loaf c) 0x05C 16 8 .ro 0
def LOAF.DOUGH_STAT_DRAFT_OPEN (c : Line) : Reg := fieldAt (.loaf c) 0x05C 8 8 .ro 0
def LOAF.DOUGH_STAT_LAST_FRESH (c : Line) : Reg := fieldAt (.loaf c) 0x05C 3 1 .ro 0
def LOAF.DOUGH_STAT_HOLD (c : Line) : Reg := fieldAt (.loaf c) 0x05C 2 1 .ro 0
def LOAF.DOUGH_STAT_DOUBTFUL_REQ (c : Line) : Reg := fieldAt (.loaf c) 0x05C 1 1 .ro 0
def LOAF.DOUGH_STAT_READY (c : Line) : Reg := fieldAt (.loaf c) 0x05C 0 1 .ro 0
def LOAF.DOUGH_SEQ (c : Line) : Reg := fieldAt (.loaf c) 0x060 0 16 .ro 0
def LOAF.DOUGH_LEN (c : Line) : Reg := fieldAt (.loaf c) 0x064 0 11 .ro 0
def LOAF.COMMIT_SKIP_CNT (c : Line) : Reg := fieldAt (.loaf c) 0x100 0 32 .rc 0
def LOAF.CUT_NOT_READY_CNT (c : Line) : Reg := fieldAt (.loaf c) 0x104 0 32 .rc 0
def LOAF.CUT_EARLY_CNT (c : Line) : Reg := fieldAt (.loaf c) 0x108 0 32 .rc 0
def LOAF.DRAFT_ERR_CNT (c : Line) : Reg := fieldAt (.loaf c) 0x10C 0 32 .rc 0
def LOAF.DRAFT_EXPIRED_CNT (c : Line) : Reg := fieldAt (.loaf c) 0x110 0 32 .rc 0
def LOAF.DRAFT_WITHDRAWN_CNT (c : Line) : Reg := fieldAt (.loaf c) 0x114 0 32 .rc 0
def LOAF.VIEW_MOVED_CNT (c : Line) : Reg := fieldAt (.loaf c) 0x118 0 32 .rc 0
def LOAF.PROV_READ_CNT (c : Line) : Reg := fieldAt (.loaf c) 0x11C 0 32 .rc 0

def fieldsOfLOAF (c : Line) : List Reg :=
  [LOAF.LOAF_CTRL_DRAFT_TMO c, LOAF.LOAF_CTRL_AUTO_READY c, LOAF.LOAF_CTRL_PROV_EN c, LOAF.BANK_STAT_PREV_VALID c, LOAF.BANK_STAT_LATEST_VALID c, LOAF.BANK_STAT_PIN_VALID c, LOAF.BANK_STAT_FORM_VALID c, LOAF.BANK_STAT_PINNED c, LOAF.BANK_STAT_PREVIOUS c, LOAF.BANK_STAT_LATEST c, LOAF.BANK_STAT_FORMING c, LOAF.LATEST_CYCLE c, LOAF.LATEST_EPOCH c, LOAF.PIN_CMD c, LOAF.PIN_CYCLE c, LOAF.PIN_EPOCH c, LOAF.DOUGH_STAT_DRAFT_PEND c, LOAF.DOUGH_STAT_DRAFT_OPEN c, LOAF.DOUGH_STAT_LAST_FRESH c, LOAF.DOUGH_STAT_HOLD c, LOAF.DOUGH_STAT_DOUBTFUL_REQ c, LOAF.DOUGH_STAT_READY c, LOAF.DOUGH_SEQ c, LOAF.DOUGH_LEN c] ++
  [LOAF.COMMIT_SKIP_CNT c, LOAF.CUT_NOT_READY_CNT c, LOAF.CUT_EARLY_CNT c, LOAF.DRAFT_ERR_CNT c, LOAF.DRAFT_EXPIRED_CNT c, LOAF.DRAFT_WITHDRAWN_CNT c, LOAF.VIEW_MOVED_CNT c, LOAF.PROV_READ_CNT c]

/-! Page KND (R225). -/

def KND.KND_CTRL_FIELD_OWNER (c : Line) : Reg := fieldAt (.knd c) 0x040 1 1 .rwl 0
def KND.KND_CTRL_EN (c : Line) : Reg := fieldAt (.knd c) 0x040 0 1 .rw 0
def KND.KND_STAT_FAR_LOST (c : Line) : Reg := fieldAt (.knd c) 0x044 24 1 .ro 0
def KND.KND_STAT_SPARE_VALID (c : Line) : Reg := fieldAt (.knd c) 0x044 23 1 .ro 1
def KND.KND_STAT_SPARE (c : Line) : Reg := fieldAt (.knd c) 0x044 20 3 .ro 7
def KND.KND_STAT_LANES (c : Line) : Reg := fieldAt (.knd c) 0x044 16 4 .ro 7
def KND.KND_STAT_IN_FLIGHT (c : Line) : Reg := fieldAt (.knd c) 0x044 0 10 .ro 0
def KND.MARGIN_CUT_MARGIN (c : Line) : Reg := fieldAt (.knd c) 0x048 16 16 .rwl 500
def KND.MARGIN_REL_MARGIN (c : Line) : Reg := fieldAt (.knd c) 0x048 0 16 .rwl 2000
def KND.KICK (c : Line) : Reg := fieldAt (.knd c) 0x04C 0 15 .wo 0
def KND.PEAK (c : Line) : Reg := fieldAt (.knd c) 0x050 0 10 .rc 0
def KND.LAST_ERR_CAUSE (c : Line) : Reg := fieldAt (.knd c) 0x054 16 4 .ro 0
def KND.LAST_ERR_JOB (c : Line) : Reg := fieldAt (.knd c) 0x054 0 15 .ro 0
def KND.LAST_DROP_WHY (c : Line) : Reg := fieldAt (.knd c) 0x058 16 2 .ro 0
def KND.LAST_DROP_JOB (c : Line) : Reg := fieldAt (.knd c) 0x058 0 15 .ro 0
def KND.JOB_DONE_CNT (c : Line) : Reg := fieldAt (.knd c) 0x100 0 32 .rc 0
def KND.OVERRUN_CNT (c : Line) : Reg := fieldAt (.knd c) 0x104 0 32 .rc 0
def KND.TRIG_DROP_CNT (c : Line) : Reg := fieldAt (.knd c) 0x108 0 32 .rc 0
def KND.CFG_ERR_CNT (c : Line) : Reg := fieldAt (.knd c) 0x10C 0 32 .rc 0
def KND.RANGE_ERR_CNT (c : Line) : Reg := fieldAt (.knd c) 0x110 0 32 .rc 0
def KND.SAT_CNT (c : Line) : Reg := fieldAt (.knd c) 0x114 0 32 .rc 0
def KND.NAN_CNT (c : Line) : Reg := fieldAt (.knd c) 0x118 0 32 .rc 0
def KND.SUBST_CNT (c : Line) : Reg := fieldAt (.knd c) 0x11C 0 32 .rc 0
def KND.PROV_JOB_CNT (c : Line) : Reg := fieldAt (.knd c) 0x120 0 32 .rc 0
def KND.WITHDRAW_JOB_CNT (c : Line) : Reg := fieldAt (.knd c) 0x124 0 32 .rc 0
def KND.REPLAY_CNT (c : Line) : Reg := fieldAt (.knd c) 0x128 0 32 .rc 0
def KND.OBJ_RESYNC_CNT (c : Line) : Reg := fieldAt (.knd c) 0x12C 0 32 .rc 0
def KND.DST_REFUSED_CNT (c : Line) : Reg := fieldAt (.knd c) 0x130 0 32 .rc 0
def KND.TBL_UE_CNT (c : Line) : Reg := fieldAt (.knd c) 0x134 0 32 .rc 0
def KND.FAR_LOST_CNT (c : Line) : Reg := fieldAt (.knd c) 0x138 0 32 .rc 0
def KND.TBL_WR_ERR_CNT (c : Line) : Reg := fieldAt (.knd c) 0x13C 0 32 .rc 0

def fieldsOfKND (c : Line) : List Reg :=
  [KND.KND_CTRL_FIELD_OWNER c, KND.KND_CTRL_EN c, KND.KND_STAT_FAR_LOST c, KND.KND_STAT_SPARE_VALID c, KND.KND_STAT_SPARE c, KND.KND_STAT_LANES c, KND.KND_STAT_IN_FLIGHT c, KND.MARGIN_CUT_MARGIN c, KND.MARGIN_REL_MARGIN c, KND.KICK c, KND.PEAK c, KND.LAST_ERR_CAUSE c, KND.LAST_ERR_JOB c, KND.LAST_DROP_WHY c, KND.LAST_DROP_JOB c, KND.JOB_DONE_CNT c, KND.OVERRUN_CNT c, KND.TRIG_DROP_CNT c, KND.CFG_ERR_CNT c, KND.RANGE_ERR_CNT c, KND.SAT_CNT c, KND.NAN_CNT c, KND.SUBST_CNT c, KND.PROV_JOB_CNT c] ++
  [KND.WITHDRAW_JOB_CNT c, KND.REPLAY_CNT c, KND.OBJ_RESYNC_CNT c, KND.DST_REFUSED_CNT c, KND.TBL_UE_CNT c, KND.FAR_LOST_CNT c, KND.TBL_WR_ERR_CNT c]

/-! Page ENG (R259). -/

def ENG.ENG_CTRL_WARM (c : Line) (i : Nat) : Reg := fieldAt (.eng c i) 0x040 1 1 .wo 0
def ENG.ENG_CTRL_RUN (c : Line) (i : Nat) : Reg := fieldAt (.eng c i) 0x040 0 1 .rw 0
def ENG.ENG_STAT_ROLE (c : Line) (i : Nat) : Reg := fieldAt (.eng c i) 0x044 24 4 .ro i
def ENG.ENG_STAT_TAINTED (c : Line) (i : Nat) : Reg := fieldAt (.eng c i) 0x044 23 1 .ro 0
def ENG.ENG_STAT_SEALED (c : Line) (i : Nat) : Reg := fieldAt (.eng c i) 0x044 22 1 .ro 0
def ENG.ENG_STAT_VIEW (c : Line) (i : Nat) : Reg := fieldAt (.eng c i) 0x044 20 2 .ro 0
def ENG.ENG_STAT_EVQ_DEPTH (c : Line) (i : Nat) : Reg := fieldAt (.eng c i) 0x044 14 6 .ro 0
def ENG.ENG_STAT_STATE (c : Line) (i : Nat) : Reg := fieldAt (.eng c i) 0x044 0 3 .ro (if i = 15 then 3 else 0)
def ENG.IMAGE_ID (c : Line) (i : Nat) : Reg := fieldAt (.eng c i) 0x048 0 32 .ro 0
def ENG.SEC_VER (c : Line) (i : Nat) : Reg := fieldAt (.eng c i) 0x04C 0 32 .ro 0
def ENG.WDT (c : Line) (i : Nat) : Reg := fieldAt (.eng c i) 0x050 0 11 .rwl 0
def ENG.HALT_PC (c : Line) (i : Nat) : Reg := fieldAt (.eng c i) 0x054 0 32 .ro 0
def ENG.MBOX_CTRL_IN_DB (c : Line) (i : Nat) : Reg := fieldAt (.eng c i) 0x058 9 1 .wo 0
def ENG.MBOX_CTRL_OUT_ACK (c : Line) (i : Nat) : Reg := fieldAt (.eng c i) 0x058 8 1 .wo 0
def ENG.MBOX_CTRL_IN_FULL (c : Line) (i : Nat) : Reg := fieldAt (.eng c i) 0x058 1 1 .ro 0
def ENG.MBOX_CTRL_OUT_FULL (c : Line) (i : Nat) : Reg := fieldAt (.eng c i) 0x058 0 1 .ro 0
def ENG.ROLE_MAP_LO (c : Line) (i : Nat) : Reg := fieldAt (.eng c i) 0x060 0 32 .ro 0x76543210
def ENG.ROLE_MAP_HI (c : Line) (i : Nat) : Reg := fieldAt (.eng c i) 0x064 0 32 .ro 0xFEDCBA98
def ENG.ROLE_VALID (c : Line) (i : Nat) : Reg := fieldAt (.eng c i) 0x068 0 16 .ro 0xFFFF
def ENG.MBOX_IN (c : Line) (i : Nat) (w : Nat) : Reg := fieldAt (.eng c i) (0x080 + 4 * w) 0 32 .rw 0
def ENG.MBOX_OUT (c : Line) (i : Nat) (w : Nat) : Reg := fieldAt (.eng c i) (0x0A0 + 4 * w) 0 32 .ro 0
def ENG.OVERRUN_CNT (c : Line) (i : Nat) : Reg := fieldAt (.eng c i) 0x100 0 32 .rc 0
def ENG.RELQ_OVF_CNT (c : Line) (i : Nat) : Reg := fieldAt (.eng c i) 0x104 0 32 .rc 0
def ENG.EVQ_OVF_CNT (c : Line) (i : Nat) : Reg := fieldAt (.eng c i) 0x108 0 32 .rc 0
def ENG.WDT_CNT (c : Line) (i : Nat) : Reg := fieldAt (.eng c i) 0x10C 0 32 .rc 0
def ENG.ACC_REFUSED_CNT (c : Line) (i : Nat) : Reg := fieldAt (.eng c i) 0x110 0 32 .rc 0
def ENG.WITHDRAW_EVT_CNT (c : Line) (i : Nat) : Reg := fieldAt (.eng c i) 0x114 0 32 .rc 0
def ENG.HELD_DISCARD_CNT (c : Line) (i : Nat) : Reg := fieldAt (.eng c i) 0x118 0 32 .rc 0
def ENG.PLAN_CANCEL_CNT (c : Line) (i : Nat) : Reg := fieldAt (.eng c i) 0x11C 0 32 .rc 0
def ENG.POISON_CNT (c : Line) (i : Nat) : Reg := fieldAt (.eng c i) 0x120 0 32 .rc 0
def ENG.MBOX_NOROLE_CNT (c : Line) (i : Nat) : Reg := fieldAt (.eng c i) 0x124 0 32 .rc 0

def fieldsOfENG (c : Line) (i : Nat) : List Reg :=
  [ENG.ENG_CTRL_WARM c i, ENG.ENG_CTRL_RUN c i, ENG.ENG_STAT_ROLE c i, ENG.ENG_STAT_TAINTED c i, ENG.ENG_STAT_SEALED c i, ENG.ENG_STAT_VIEW c i, ENG.ENG_STAT_EVQ_DEPTH c i, ENG.ENG_STAT_STATE c i, ENG.IMAGE_ID c i, ENG.SEC_VER c i, ENG.WDT c i, ENG.HALT_PC c i, ENG.MBOX_CTRL_IN_DB c i, ENG.MBOX_CTRL_OUT_ACK c i, ENG.MBOX_CTRL_IN_FULL c i, ENG.MBOX_CTRL_OUT_FULL c i, ENG.ROLE_MAP_LO c i, ENG.ROLE_MAP_HI c i, ENG.ROLE_VALID c i] ++
  (List.range 8).map (ENG.MBOX_IN c i) ++
  (List.range 8).map (ENG.MBOX_OUT c i) ++
  [ENG.OVERRUN_CNT c i, ENG.RELQ_OVF_CNT c i, ENG.EVQ_OVF_CNT c i, ENG.WDT_CNT c i, ENG.ACC_REFUSED_CNT c i, ENG.WITHDRAW_EVT_CNT c i, ENG.HELD_DISCARD_CNT c i, ENG.PLAN_CANCEL_CNT c i, ENG.POISON_CNT c i, ENG.MBOX_NOROLE_CNT c i]

/-! Page SW (R289). -/

def SW.SW_CTRL_AGE : Reg := fieldAt .sw 0x040 16 16 .rwl 300
def SW.SW_CTRL_LEARN : Reg := fieldAt .sw 0x040 1 1 .rwl 1
def SW.SW_CTRL_EN : Reg := fieldAt .sw 0x040 0 1 .rw 0
def SW.BUF_CFG_TRDP_POOL : Reg := fieldAt .sw 0x044 16 5 .rwl 4
def SW.BUF_STAT : Reg := fieldAt .sw 0x048 0 14 .ro 0
def SW.QLIM : Reg := fieldAt .sw 0x04C 0 14 .rwl 1024
def SW.ETB_CTRL_GRP_UP : Reg := fieldAt .sw 0x050 4 4 .rw 0
def SW.ETB_CTRL_TRAP_CH : Reg := fieldAt .sw 0x050 1 1 .rw 0
def SW.ETB_CTRL_ETB_EN : Reg := fieldAt .sw 0x050 0 1 .rwl 0
def SW.TRDP_SIP : Reg := fieldAt .sw 0x054 0 32 .rwl 0
def SW.TRDP_SMAC_LO : Reg := fieldAt .sw 0x058 0 32 .rwl 0
def SW.TRDP_SMAC_HI : Reg := fieldAt .sw 0x05C 0 16 .rwl 0
def SW.TRDP_CFG_PORT : Reg := fieldAt .sw 0x060 0 16 .rwl 17224
def SW.TRDP_TOPO_ETB : Reg := fieldAt .sw 0x064 0 32 .rw 0
def SW.TRDP_TOPO_OP : Reg := fieldAt .sw 0x068 0 32 .rw 0
def SW.HP_CFG_RING_LOC : Reg := fieldAt .sw 0x06C 4 1 .rwl 0
def SW.HP_CFG_MAX : Reg := fieldAt .sw 0x06C 0 2 .rwl 0
def SW.GCL_CTRL : Reg := fieldAt .sw 0x070 0 12 .w1s 0
def SW.GCL_STAT : Reg := fieldAt .sw 0x074 0 12 .ro 0
def SW.RING_INT_LO : Reg := fieldAt .sw 0x078 0 32 .w1c 0
def SW.RING_INT_HI : Reg := fieldAt .sw 0x07C 0 16 .w1c 0
def SW.FDB_CNT : Reg := fieldAt .sw 0x080 0 32 .ro 0
def SW.FDB_FULL_CNT : Reg := fieldAt .sw 0x100 0 32 .rc 0
def SW.BUF_DROP_CNT : Reg := fieldAt .sw 0x104 0 32 .rc 0
def SW.QLIM_DROP_CNT : Reg := fieldAt .sw 0x108 0 32 .rc 0
def SW.VLAN_DROP_CNT : Reg := fieldAt .sw 0x10C 0 32 .rc 0
def SW.LINE_DOWN_DROP_CNT : Reg := fieldAt .sw 0x110 0 32 .rc 0
def SW.TRAP_CNT : Reg := fieldAt .sw 0x114 0 32 .rc 0
def SW.GATE_DROP_CNT : Reg := fieldAt .sw 0x118 0 32 .rc 0
def SW.TX_LEN_CNT : Reg := fieldAt .sw 0x11C 0 32 .rc 0
def SW.RX_RING_FULL_CNT : Reg := fieldAt .sw 0x120 0 32 .rc 0
def SW.TRDP_TX_CNT : Reg := fieldAt .sw 0x124 0 32 .rc 0
def SW.TRDP_TX_LATE_CNT : Reg := fieldAt .sw 0x128 0 32 .rc 0
def SW.TRDP_FCS_ERR_CNT : Reg := fieldAt .sw 0x12C 0 32 .rc 0
def SW.TRDP_LEN_ERR_CNT : Reg := fieldAt .sw 0x130 0 32 .rc 0
def SW.TRDP_DUP_CNT : Reg := fieldAt .sw 0x134 0 32 .rc 0
def SW.TRDP_TOPO_ERR_CNT : Reg := fieldAt .sw 0x138 0 32 .rc 0
def SW.QCI_DROP_CNT : Reg := fieldAt .sw 0x13C 0 32 .rc 0
def SW.CB_DISCARD_CNT : Reg := fieldAt .sw 0x140 0 32 .rc 0
def SW.CB_RESET_CNT : Reg := fieldAt .sw 0x144 0 32 .rc 0
def SW.RING_BASE_LO (g : Nat) : Reg := fieldAt .sw (0x400 + 16 * g) 0 32 .rw 0
def SW.RING_BASE_HI (g : Nat) : Reg := fieldAt .sw (0x404 + 16 * g) 0 32 .rw 0
def SW.RING_SIZE (g : Nat) : Reg := fieldAt .sw (0x408 + 16 * g) 0 13 .rw 0
def SW.RING_PTR_HEAD (g : Nat) : Reg := fieldAt .sw (0x40C + 16 * g) 16 16 .ro 0
def SW.RING_PTR_TAIL (g : Nat) : Reg := fieldAt .sw (0x40C + 16 * g) 0 16 .rw 0
def SW.TRAP_MAC_LO (t : Nat) : Reg := fieldAt .sw (0x700 + 16 * t) 0 32 .rw 0
def SW.TRAP_MAC_HI (t : Nat) : Reg := fieldAt .sw (0x704 + 16 * t) 0 16 .rw 0
def SW.TRAP_CFG_EN (t : Nat) : Reg := fieldAt .sw (0x708 + 16 * t) 31 1 .rw 0
def SW.TRAP_CFG_TARGET (t : Nat) : Reg := fieldAt .sw (0x708 + 16 * t) 16 2 .rw 0
def SW.TRAP_CFG_ETYPE (t : Nat) : Reg := fieldAt .sw (0x708 + 16 * t) 0 16 .rw 0

def fieldsOfSW : List Reg :=
  [SW.SW_CTRL_AGE, SW.SW_CTRL_LEARN, SW.SW_CTRL_EN, SW.BUF_CFG_TRDP_POOL, SW.BUF_STAT, SW.QLIM, SW.ETB_CTRL_GRP_UP, SW.ETB_CTRL_TRAP_CH, SW.ETB_CTRL_ETB_EN, SW.TRDP_SIP, SW.TRDP_SMAC_LO, SW.TRDP_SMAC_HI, SW.TRDP_CFG_PORT, SW.TRDP_TOPO_ETB, SW.TRDP_TOPO_OP, SW.HP_CFG_RING_LOC, SW.HP_CFG_MAX, SW.GCL_CTRL, SW.GCL_STAT, SW.RING_INT_LO, SW.RING_INT_HI, SW.FDB_CNT, SW.FDB_FULL_CNT, SW.BUF_DROP_CNT] ++
  [SW.QLIM_DROP_CNT, SW.VLAN_DROP_CNT, SW.LINE_DOWN_DROP_CNT, SW.TRAP_CNT, SW.GATE_DROP_CNT, SW.TX_LEN_CNT, SW.RX_RING_FULL_CNT, SW.TRDP_TX_CNT, SW.TRDP_TX_LATE_CNT, SW.TRDP_FCS_ERR_CNT, SW.TRDP_LEN_ERR_CNT, SW.TRDP_DUP_CNT, SW.TRDP_TOPO_ERR_CNT, SW.QCI_DROP_CNT, SW.CB_DISCARD_CNT, SW.CB_RESET_CNT] ++
  (List.range 48).map SW.RING_BASE_LO ++
  (List.range 48).map SW.RING_BASE_HI ++
  (List.range 48).map SW.RING_SIZE ++
  (List.range 48).map SW.RING_PTR_HEAD ++
  (List.range 48).map SW.RING_PTR_TAIL ++
  (List.range 8).map SW.TRAP_MAC_LO ++
  (List.range 8).map SW.TRAP_MAC_HI ++
  (List.range 8).map SW.TRAP_CFG_EN ++
  (List.range 8).map SW.TRAP_CFG_TARGET ++
  (List.range 8).map SW.TRAP_CFG_ETYPE

/-! Page MAC (R290). -/

def MAC.MAC_CTRL_STAR_MODE (m : Nat) : Reg := fieldAt (.mac m) 0x040 10 2 .rwl 0
def MAC.MAC_CTRL_QBV_EN (m : Nat) : Reg := fieldAt (.mac m) 0x040 9 1 .rwl 0
def MAC.MAC_CTRL_AS_EN (m : Nat) : Reg := fieldAt (.mac m) 0x040 8 1 .rwl 0
def MAC.MAC_CTRL_PAUSE_TX_EN (m : Nat) : Reg := fieldAt (.mac m) 0x040 7 1 .rwl 0
def MAC.MAC_CTRL_PAUSE_RX_EN (m : Nat) : Reg := fieldAt (.mac m) 0x040 6 1 .rwl 0
def MAC.MAC_CTRL_MAX (m : Nat) : Reg := fieldAt (.mac m) 0x040 4 2 .rwl 0
def MAC.MAC_CTRL_IF (m : Nat) : Reg := fieldAt (.mac m) 0x040 1 3 .rwl 0
def MAC.MAC_CTRL_EN (m : Nat) : Reg := fieldAt (.mac m) 0x040 0 1 .rw 0
def MAC.MAC_STAT_HOLDOFF (m : Nat) : Reg := fieldAt (.mac m) 0x044 5 1 .ro 0
def MAC.MAC_STAT_PAUSED (m : Nat) : Reg := fieldAt (.mac m) 0x044 4 1 .ro 0
def MAC.MAC_STAT_IF_ACT (m : Nat) : Reg := fieldAt (.mac m) 0x044 1 3 .ro 0
def MAC.MAC_STAT_LINK (m : Nat) : Reg := fieldAt (.mac m) 0x044 0 1 .ro 0
def MAC.PVID_TAGGED_ONLY (m : Nat) : Reg := fieldAt (.mac m) 0x048 15 1 .rwl 0
def MAC.PVID_PCP (m : Nat) : Reg := fieldAt (.mac m) 0x048 12 3 .rwl 0
def MAC.PVID_PVID (m : Nat) : Reg := fieldAt (.mac m) 0x048 0 12 .rwl 1
def MAC.PCP_MAP (m : Nat) : Reg := fieldAt (.mac m) 0x04C 0 24 .rwl 0xFAC688
def MAC.PAUSE_WD_HOLDOFF (m : Nat) : Reg := fieldAt (.mac m) 0x050 16 16 .rwl 0x64
def MAC.PAUSE_WD_WD (m : Nat) : Reg := fieldAt (.mac m) 0x050 0 16 .rwl 0x14
def MAC.PAUSE_THR_XON (m : Nat) : Reg := fieldAt (.mac m) 0x054 16 16 .rwl 0x100
def MAC.PAUSE_THR_XOFF (m : Nat) : Reg := fieldAt (.mac m) 0x054 0 16 .rwl 0x200
def MAC.PAUSE_TX_QUANTA (m : Nat) : Reg := fieldAt (.mac m) 0x058 0 16 .rwl 0xFFFF
def MAC.AS_PORT_PDELAY (m : Nat) : Reg := fieldAt (.mac m) 0x060 16 8 .rwl 0
def MAC.AS_PORT_ANNOUNCE (m : Nat) : Reg := fieldAt (.mac m) 0x060 8 8 .rwl 0
def MAC.AS_PORT_SYNC (m : Nat) : Reg := fieldAt (.mac m) 0x060 0 8 .rwl 0xFD
def MAC.AS_PORT2_NBR_THR (m : Nat) : Reg := fieldAt (.mac m) 0x064 0 16 .rwl 800
def MAC.AS_DELAY_AS_CAPABLE (m : Nat) : Reg := fieldAt (.mac m) 0x068 31 1 .ro 0
def MAC.AS_DELAY_MEAN (m : Nat) : Reg := fieldAt (.mac m) 0x068 0 31 .ro 0
def MAC.RX_FRAMES (m : Nat) : Reg := fieldAt (.mac m) 0x100 0 32 .rc 0
def MAC.TX_FRAMES (m : Nat) : Reg := fieldAt (.mac m) 0x104 0 32 .rc 0
def MAC.RUNT_CNT (m : Nat) : Reg := fieldAt (.mac m) 0x108 0 32 .rc 0
def MAC.OVERSIZE_CNT (m : Nat) : Reg := fieldAt (.mac m) 0x10C 0 32 .rc 0
def MAC.CRC_ERR_CNT (m : Nat) : Reg := fieldAt (.mac m) 0x110 0 32 .rc 0
def MAC.TX_OVERSIZE_CNT (m : Nat) : Reg := fieldAt (.mac m) 0x114 0 32 .rc 0
def MAC.PAUSE_RX_CNT (m : Nat) : Reg := fieldAt (.mac m) 0x118 0 32 .rc 0
def MAC.PAUSE_TX_CNT (m : Nat) : Reg := fieldAt (.mac m) 0x11C 0 32 .rc 0
def MAC.PAUSE_STORM_CNT (m : Nat) : Reg := fieldAt (.mac m) 0x120 0 32 .rc 0

def fieldsOfMAC (m : Nat) : List Reg :=
  [MAC.MAC_CTRL_STAR_MODE m, MAC.MAC_CTRL_QBV_EN m, MAC.MAC_CTRL_AS_EN m, MAC.MAC_CTRL_PAUSE_TX_EN m, MAC.MAC_CTRL_PAUSE_RX_EN m, MAC.MAC_CTRL_MAX m, MAC.MAC_CTRL_IF m, MAC.MAC_CTRL_EN m, MAC.MAC_STAT_HOLDOFF m, MAC.MAC_STAT_PAUSED m, MAC.MAC_STAT_IF_ACT m, MAC.MAC_STAT_LINK m, MAC.PVID_TAGGED_ONLY m, MAC.PVID_PCP m, MAC.PVID_PVID m, MAC.PCP_MAP m, MAC.PAUSE_WD_HOLDOFF m, MAC.PAUSE_WD_WD m, MAC.PAUSE_THR_XON m, MAC.PAUSE_THR_XOFF m, MAC.PAUSE_TX_QUANTA m, MAC.AS_PORT_PDELAY m, MAC.AS_PORT_ANNOUNCE m, MAC.AS_PORT_SYNC m] ++
  [MAC.AS_PORT2_NBR_THR m, MAC.AS_DELAY_AS_CAPABLE m, MAC.AS_DELAY_MEAN m, MAC.RX_FRAMES m, MAC.TX_FRAMES m, MAC.RUNT_CNT m, MAC.OVERSIZE_CNT m, MAC.CRC_ERR_CNT m, MAC.TX_OVERSIZE_CNT m, MAC.PAUSE_RX_CNT m, MAC.PAUSE_TX_CNT m, MAC.PAUSE_STORM_CNT m]

/-! Page CAN (R319). -/

def CAN.CAN_CTRL_LOCK_TMO (c : Nat) : Reg := fieldAt (.can c) 0x040 16 16 .rw 100
def CAN.CAN_CTRL_NOMATCH (c : Nat) : Reg := fieldAt (.can c) 0x040 9 1 .rw 0
def CAN.CAN_CTRL_TX_ORDER (c : Nat) : Reg := fieldAt (.can c) 0x040 8 1 .rw 0
def CAN.CAN_CTRL_BRS_EN (c : Nat) : Reg := fieldAt (.can c) 0x040 7 1 .rw 1
def CAN.CAN_CTRL_PXE (c : Nat) : Reg := fieldAt (.can c) 0x040 6 1 .rw 0
def CAN.CAN_CTRL_AUTO_RECOVER (c : Nat) : Reg := fieldAt (.can c) 0x040 5 1 .rw 1
def CAN.CAN_CTRL_FOLLOW_HAT (c : Nat) : Reg := fieldAt (.can c) 0x040 4 1 .rwl 0
def CAN.CAN_CTRL_LISTEN (c : Nat) : Reg := fieldAt (.can c) 0x040 3 1 .rw 0
def CAN.CAN_CTRL_FD_EN (c : Nat) : Reg := fieldAt (.can c) 0x040 1 1 .rw 1
def CAN.CAN_CTRL_EN (c : Nat) : Reg := fieldAt (.can c) 0x040 0 1 .rw 0
def CAN.CAN_STAT_TEC (c : Nat) : Reg := fieldAt (.can c) 0x044 24 8 .ro 0
def CAN.CAN_STAT_REC (c : Nat) : Reg := fieldAt (.can c) 0x044 16 8 .ro 0
def CAN.CAN_STAT_LISTEN_ACT (c : Nat) : Reg := fieldAt (.can c) 0x044 10 1 .ro 0
def CAN.CAN_STAT_TX_ACTIVE (c : Nat) : Reg := fieldAt (.can c) 0x044 9 1 .ro 0
def CAN.CAN_STAT_RX_ACTIVE (c : Nat) : Reg := fieldAt (.can c) 0x044 8 1 .ro 0
def CAN.CAN_STAT_WARN (c : Nat) : Reg := fieldAt (.can c) 0x044 3 1 .ro 0
def CAN.CAN_STAT_STATE (c : Nat) : Reg := fieldAt (.can c) 0x044 0 3 .ro 0
def CAN.NBT_TSEG1 (c : Nat) : Reg := fieldAt (.can c) 0x048 24 8 .rw 0x7E
def CAN.NBT_TSEG2 (c : Nat) : Reg := fieldAt (.can c) 0x048 17 7 .rw 0x1F
def CAN.NBT_SJW (c : Nat) : Reg := fieldAt (.can c) 0x048 10 7 .rw 0x1F
def CAN.NBT_BRP (c : Nat) : Reg := fieldAt (.can c) 0x048 0 9 .rw 0
def CAN.DBT_TSEG1 (c : Nat) : Reg := fieldAt (.can c) 0x04C 24 5 .rw 0x1C
def CAN.DBT_TSEG2 (c : Nat) : Reg := fieldAt (.can c) 0x04C 16 4 .rw 9
def CAN.DBT_SJW (c : Nat) : Reg := fieldAt (.can c) 0x04C 8 4 .rw 9
def CAN.DBT_BRP (c : Nat) : Reg := fieldAt (.can c) 0x04C 0 5 .rw 0
def CAN.TDC_EN (c : Nat) : Reg := fieldAt (.can c) 0x050 31 1 .rw 0
def CAN.TDC_TDCF (c : Nat) : Reg := fieldAt (.can c) 0x050 16 7 .rw 0
def CAN.TDC_TDCO (c : Nat) : Reg := fieldAt (.can c) 0x050 0 7 .rw 0x1E
def CAN.TDC_STAT_TDCV (c : Nat) : Reg := fieldAt (.can c) 0x054 0 7 .ro 0
def CAN.ACK_LIMIT (c : Nat) : Reg := fieldAt (.can c) 0x058 0 8 .rw 0
def CAN.LAST_ERR_DATA (c : Nat) : Reg := fieldAt (.can c) 0x05C 3 1 .rc 0
def CAN.LAST_ERR_CODE (c : Nat) : Reg := fieldAt (.can c) 0x05C 0 3 .rc 0
def CAN.TX_REQ_LO (c : Nat) : Reg := fieldAt (.can c) 0x060 0 32 .w1s 0
def CAN.TX_REQ_HI (c : Nat) : Reg := fieldAt (.can c) 0x064 0 32 .w1s 0
def CAN.TX_CANCEL_LO (c : Nat) : Reg := fieldAt (.can c) 0x068 0 32 .w1s 0
def CAN.TX_CANCEL_HI (c : Nat) : Reg := fieldAt (.can c) 0x06C 0 32 .w1s 0
def CAN.TX_FLIP_LO (c : Nat) : Reg := fieldAt (.can c) 0x070 0 32 .w1s 0
def CAN.TX_FLIP_HI (c : Nat) : Reg := fieldAt (.can c) 0x074 0 32 .w1s 0
def CAN.NEW_DATA_LO (c : Nat) : Reg := fieldAt (.can c) 0x078 0 32 .ro 0
def CAN.NEW_DATA_HI (c : Nat) : Reg := fieldAt (.can c) 0x07C 0 32 .ro 0
def CAN.FIFO_CFG_WM1 (c : Nat) : Reg := fieldAt (.can c) 0x080 16 6 .rw 0
def CAN.FIFO_CFG_WM0 (c : Nat) : Reg := fieldAt (.can c) 0x080 8 6 .rw 0
def CAN.FIFO_CFG_OVW1 (c : Nat) : Reg := fieldAt (.can c) 0x080 1 1 .rw 0
def CAN.FIFO_CFG_OVW0 (c : Nat) : Reg := fieldAt (.can c) 0x080 0 1 .rw 0
def CAN.FIFO_STAT_FILL (c : Nat) (f : Nat) : Reg := fieldAt (.can c) (0x084 + 8 * f) 16 6 .ro 0
def CAN.FIFO_STAT_PUT (c : Nat) (f : Nat) : Reg := fieldAt (.can c) (0x084 + 8 * f) 8 5 .ro 0
def CAN.FIFO_STAT_GET (c : Nat) (f : Nat) : Reg := fieldAt (.can c) (0x084 + 8 * f) 0 5 .ro 0
def CAN.FIFO_ACK (c : Nat) (f : Nat) : Reg := fieldAt (.can c) (0x088 + 8 * f) 0 6 .wo 0
def CAN.RESTART (c : Nat) : Reg := fieldAt (.can c) 0x094 0 1 .wo 0
def CAN.RX_FRAMES (c : Nat) : Reg := fieldAt (.can c) 0x100 0 32 .rc 0
def CAN.TX_FRAMES (c : Nat) : Reg := fieldAt (.can c) 0x104 0 32 .rc 0
def CAN.LOST_CNT (c : Nat) : Reg := fieldAt (.can c) 0x108 0 32 .rc 0
def CAN.OVERWRITE_CNT (c : Nat) : Reg := fieldAt (.can c) 0x10C 0 32 .rc 0
def CAN.NOMATCH_CNT (c : Nat) : Reg := fieldAt (.can c) 0x110 0 32 .rc 0
def CAN.FIFO_LOST_CNT (c : Nat) : Reg := fieldAt (.can c) 0x114 0 32 .rc 0
def CAN.PROTO_ERR_CNT (c : Nat) : Reg := fieldAt (.can c) 0x118 0 32 .rc 0
def CAN.BUS_OFF_CNT (c : Nat) : Reg := fieldAt (.can c) 0x11C 0 32 .rc 0
def CAN.ACK_LIMIT_CNT (c : Nat) : Reg := fieldAt (.can c) 0x120 0 32 .rc 0
def CAN.CANCEL_LATE_CNT (c : Nat) : Reg := fieldAt (.can c) 0x124 0 32 .rc 0
def CAN.LOCK_TMO_CNT (c : Nat) : Reg := fieldAt (.can c) 0x128 0 32 .rc 0
def CAN.PERIOD_SKIP_CNT (c : Nat) : Reg := fieldAt (.can c) 0x12C 0 32 .rc 0
def CAN.LISTEN_TX_CNT (c : Nat) : Reg := fieldAt (.can c) 0x130 0 32 .rc 0
def CAN.CFG_IGN_CNT (c : Nat) : Reg := fieldAt (.can c) 0x134 0 32 .rc 0
def CAN.MEM_ERR_CNT (c : Nat) : Reg := fieldAt (.can c) 0x138 0 32 .rc 0
def CAN.FLT_ID_EN (c : Nat) (f : Nat) : Reg := fieldAt (.can c) (0x200 + 8 * f) 31 1 .rw 0
def CAN.FLT_ID_FIFO (c : Nat) (f : Nat) : Reg := fieldAt (.can c) (0x200 + 8 * f) 30 1 .rw 0
def CAN.FLT_ID_XTD (c : Nat) (f : Nat) : Reg := fieldAt (.can c) (0x200 + 8 * f) 29 1 .rw 0
def CAN.FLT_ID_ID (c : Nat) (f : Nat) : Reg := fieldAt (.can c) (0x200 + 8 * f) 0 29 .rw 0
def CAN.FLT_MASK (c : Nat) (f : Nat) : Reg := fieldAt (.can c) (0x204 + 8 * f) 0 29 .rw 0

def fieldsOfCAN (c : Nat) : List Reg :=
  [CAN.CAN_CTRL_LOCK_TMO c, CAN.CAN_CTRL_NOMATCH c, CAN.CAN_CTRL_TX_ORDER c, CAN.CAN_CTRL_BRS_EN c, CAN.CAN_CTRL_PXE c, CAN.CAN_CTRL_AUTO_RECOVER c, CAN.CAN_CTRL_FOLLOW_HAT c, CAN.CAN_CTRL_LISTEN c, CAN.CAN_CTRL_FD_EN c, CAN.CAN_CTRL_EN c, CAN.CAN_STAT_TEC c, CAN.CAN_STAT_REC c, CAN.CAN_STAT_LISTEN_ACT c, CAN.CAN_STAT_TX_ACTIVE c, CAN.CAN_STAT_RX_ACTIVE c, CAN.CAN_STAT_WARN c, CAN.CAN_STAT_STATE c, CAN.NBT_TSEG1 c, CAN.NBT_TSEG2 c, CAN.NBT_SJW c, CAN.NBT_BRP c, CAN.DBT_TSEG1 c, CAN.DBT_TSEG2 c, CAN.DBT_SJW c] ++
  [CAN.DBT_BRP c, CAN.TDC_EN c, CAN.TDC_TDCF c, CAN.TDC_TDCO c, CAN.TDC_STAT_TDCV c, CAN.ACK_LIMIT c, CAN.LAST_ERR_DATA c, CAN.LAST_ERR_CODE c, CAN.TX_REQ_LO c, CAN.TX_REQ_HI c, CAN.TX_CANCEL_LO c, CAN.TX_CANCEL_HI c, CAN.TX_FLIP_LO c, CAN.TX_FLIP_HI c, CAN.NEW_DATA_LO c, CAN.NEW_DATA_HI c, CAN.FIFO_CFG_WM1 c, CAN.FIFO_CFG_WM0 c, CAN.FIFO_CFG_OVW1 c, CAN.FIFO_CFG_OVW0 c] ++
  (List.range 2).map (CAN.FIFO_STAT_FILL c) ++
  (List.range 2).map (CAN.FIFO_STAT_PUT c) ++
  (List.range 2).map (CAN.FIFO_STAT_GET c) ++
  (List.range 2).map (CAN.FIFO_ACK c) ++
  [CAN.RESTART c, CAN.RX_FRAMES c, CAN.TX_FRAMES c, CAN.LOST_CNT c, CAN.OVERWRITE_CNT c, CAN.NOMATCH_CNT c, CAN.FIFO_LOST_CNT c, CAN.PROTO_ERR_CNT c, CAN.BUS_OFF_CNT c, CAN.ACK_LIMIT_CNT c, CAN.CANCEL_LATE_CNT c, CAN.LOCK_TMO_CNT c, CAN.PERIOD_SKIP_CNT c, CAN.LISTEN_TX_CNT c, CAN.CFG_IGN_CNT c, CAN.MEM_ERR_CNT c] ++
  (List.range 16).map (CAN.FLT_ID_EN c) ++
  (List.range 16).map (CAN.FLT_ID_FIFO c) ++
  (List.range 16).map (CAN.FLT_ID_XTD c) ++
  (List.range 16).map (CAN.FLT_ID_ID c) ++
  (List.range 16).map (CAN.FLT_MASK c)

/-! Page MVB (R320). -/

def MVB.MVB_CTRL_LINES (c : Nat) : Reg := fieldAt (.mvb c) 0x040 4 2 .rwl 3
def MVB.MVB_CTRL_FOLLOW_HAT (c : Nat) : Reg := fieldAt (.mvb c) 0x040 3 1 .rwl 0
def MVB.MVB_CTRL_LISTEN (c : Nat) : Reg := fieldAt (.mvb c) 0x040 2 1 .rw 0
def MVB.MVB_CTRL_MEDIUM (c : Nat) : Reg := fieldAt (.mvb c) 0x040 1 1 .rwl 0
def MVB.MVB_CTRL_EN (c : Nat) : Reg := fieldAt (.mvb c) 0x040 0 1 .rw 0
def MVB.MVB_STAT_B_OK (c : Nat) : Reg := fieldAt (.mvb c) 0x044 3 1 .ro 0
def MVB.MVB_STAT_A_OK (c : Nat) : Reg := fieldAt (.mvb c) 0x044 2 1 .ro 0
def MVB.MVB_STAT_TRUSTED (c : Nat) : Reg := fieldAt (.mvb c) 0x044 1 1 .ro 0
def MVB.MVB_STAT_LISTEN_ACT (c : Nat) : Reg := fieldAt (.mvb c) 0x044 0 1 .ro 0
def MVB.DEV_ADDR (c : Nat) : Reg := fieldAt (.mvb c) 0x048 0 12 .rwl 0
def MVB.DSW (c : Nat) : Reg := fieldAt (.mvb c) 0x04C 0 16 .rw 0
def MVB.PORT_FLIP (c : Nat) : Reg := fieldAt (.mvb c) 0x050 0 8 .wo 0
def MVB.MF_CNT (c : Nat) : Reg := fieldAt (.mvb c) 0x100 0 32 .rc 0
def MVB.SF_TX_CNT (c : Nat) : Reg := fieldAt (.mvb c) 0x104 0 32 .rc 0
def MVB.SF_RX_CNT (c : Nat) : Reg := fieldAt (.mvb c) 0x108 0 32 .rc 0
def MVB.FRAME_ERR_CNT (c : Nat) : Reg := fieldAt (.mvb c) 0x10C 0 32 .rc 0
def MVB.FCODE_ERR_CNT (c : Nat) : Reg := fieldAt (.mvb c) 0x110 0 32 .rc 0
def MVB.LINE_SWITCH_CNT (c : Nat) : Reg := fieldAt (.mvb c) 0x114 0 32 .rc 0
def MVB.CONFLICT_CNT (c : Nat) : Reg := fieldAt (.mvb c) 0x118 0 32 .rc 0
def MVB.STALE_CNT (c : Nat) : Reg := fieldAt (.mvb c) 0x11C 0 32 .rc 0
def MVB.LISTEN_SKIP_CNT (c : Nat) : Reg := fieldAt (.mvb c) 0x120 0 32 .rc 0
def MVB.CFG_IGN_CNT (c : Nat) : Reg := fieldAt (.mvb c) 0x124 0 32 .rc 0

def fieldsOfMVB (c : Nat) : List Reg :=
  [MVB.MVB_CTRL_LINES c, MVB.MVB_CTRL_FOLLOW_HAT c, MVB.MVB_CTRL_LISTEN c, MVB.MVB_CTRL_MEDIUM c, MVB.MVB_CTRL_EN c, MVB.MVB_STAT_B_OK c, MVB.MVB_STAT_A_OK c, MVB.MVB_STAT_TRUSTED c, MVB.MVB_STAT_LISTEN_ACT c, MVB.DEV_ADDR c, MVB.DSW c, MVB.PORT_FLIP c, MVB.MF_CNT c, MVB.SF_TX_CNT c, MVB.SF_RX_CNT c, MVB.FRAME_ERR_CNT c, MVB.FCODE_ERR_CNT c, MVB.LINE_SWITCH_CNT c, MVB.CONFLICT_CNT c, MVB.STALE_CNT c, MVB.LISTEN_SKIP_CNT c, MVB.CFG_IGN_CNT c]

/-! Page TWIN (R350). -/

def TWIN.TWIN_CTRL_HOST_GRANT : Reg := fieldAt .twin 0x040 16 16 .wo 0
def TWIN.TWIN_CTRL_HANDOVER : Reg := fieldAt .twin 0x040 8 1 .rw 0
def TWIN.TWIN_CTRL_ENG_TX_FOLLOW : Reg := fieldAt .twin 0x040 2 1 .rwl 1
def TWIN.TWIN_CTRL_LINE : Reg := fieldAt .twin 0x040 1 1 .rwl 0
def TWIN.TWIN_CTRL_EN : Reg := fieldAt .twin 0x040 0 1 .rwl 0
def TWIN.TWIN_STAT_UNABLE : Reg := fieldAt .twin 0x044 28 4 .ro 0
def TWIN.TWIN_STAT_EPOCH_AGE : Reg := fieldAt .twin 0x044 16 8 .ro 255
def TWIN.TWIN_STAT_GAP : Reg := fieldAt .twin 0x044 13 1 .ro 0
def TWIN.TWIN_STAT_HAT_OUT : Reg := fieldAt .twin 0x044 12 1 .ro 0
def TWIN.TWIN_STAT_HBT_IN : Reg := fieldAt .twin 0x044 10 2 .ro 0
def TWIN.TWIN_STAT_LANES_UP : Reg := fieldAt .twin 0x044 8 2 .ro 0
def TWIN.TWIN_STAT_CFG_BAD : Reg := fieldAt .twin 0x044 7 1 .ro 0
def TWIN.TWIN_STAT_SENIOR : Reg := fieldAt .twin 0x044 6 1 .ro 1
def TWIN.TWIN_STAT_PEER_READY : Reg := fieldAt .twin 0x044 5 1 .ro 0
def TWIN.TWIN_STAT_READY : Reg := fieldAt .twin 0x044 4 1 .ro 0
def TWIN.TWIN_STAT_PEER_LOST : Reg := fieldAt .twin 0x044 3 1 .ro 0
def TWIN.TWIN_STAT_HAT_STATE : Reg := fieldAt .twin 0x044 0 3 .ro 0
def TWIN.LEASE_CFG_START_JUNIOR : Reg := fieldAt .twin 0x048 16 5 .rwl 4
def TWIN.LEASE_CFG_START_SENIOR : Reg := fieldAt .twin 0x048 8 5 .rwl 2
def TWIN.LEASE_CFG_GUARD : Reg := fieldAt .twin 0x048 4 4 .rwl 1
def TWIN.LEASE_CFG_LEASE : Reg := fieldAt .twin 0x048 0 4 .rwl 2
def TWIN.HAT_SEQ : Reg := fieldAt .twin 0x04C 0 16 .ro 0
def TWIN.HAT_CYCLE : Reg := fieldAt .twin 0x050 0 32 .ro 0
def TWIN.LAST_GRANT : Reg := fieldAt .twin 0x054 0 32 .ro 0
def TWIN.EPOCH_NUM : Reg := fieldAt .twin 0x058 0 32 .ro 0
def TWIN.EPOCH_LEN : Reg := fieldAt .twin 0x05C 0 18 .ro 0
def TWIN.CUT_MARGIN : Reg := fieldAt .twin 0x060 0 16 .rc 0xFFFF
def TWIN.MIRROR_CFG_EN (w : Nat) : Reg := fieldAt .twin (0x080 + 8 * w) 31 1 .rwl 0
def TWIN.MIRROR_CFG_KIND (w : Nat) : Reg := fieldAt .twin (0x080 + 8 * w) 30 1 .rwl 0
def TWIN.MIRROR_CFG_CH (w : Nat) : Reg := fieldAt .twin (0x080 + 8 * w) 29 1 .rwl 0
def TWIN.MIRROR_CFG_ROLE (w : Nat) : Reg := fieldAt .twin (0x080 + 8 * w) 24 4 .rwl 0
def TWIN.MIRROR_CFG_OFFS (w : Nat) : Reg := fieldAt .twin (0x080 + 8 * w) 0 12 .rwl 0
def TWIN.MIRROR_LEN (w : Nat) : Reg := fieldAt .twin (0x084 + 8 * w) 0 13 .rwl 0
def TWIN.CLAIM_CNT : Reg := fieldAt .twin 0x100 0 32 .rc 0
def TWIN.CLAIM_DEFER_CNT : Reg := fieldAt .twin 0x104 0 32 .rc 0
def TWIN.HANDOVER_CNT : Reg := fieldAt .twin 0x108 0 32 .rc 0
def TWIN.HANDOVER_RETRY_CNT : Reg := fieldAt .twin 0x10C 0 32 .rc 0
def TWIN.HANDOVER_BLOCKED_CNT : Reg := fieldAt .twin 0x110 0 32 .rc 0
def TWIN.PARTITION_CNT : Reg := fieldAt .twin 0x114 0 32 .rc 0
def TWIN.PEER_LOST_CNT : Reg := fieldAt .twin 0x118 0 32 .rc 0
def TWIN.LATE_MSG_CNT : Reg := fieldAt .twin 0x11C 0 32 .rc 0
def TWIN.EPOCH_DISCARD_CNT : Reg := fieldAt .twin 0x120 0 32 .rc 0
def TWIN.MIRROR_MISMATCH_CNT : Reg := fieldAt .twin 0x124 0 32 .rc 0
def TWIN.CUT_LATE_CNT : Reg := fieldAt .twin 0x128 0 32 .rc 0
def TWIN.MERGE_SUPPRESS_CNT : Reg := fieldAt .twin 0x12C 0 32 .rc 0
def TWIN.HELD_TICK_CNT : Reg := fieldAt .twin 0x130 0 32 .rc 0
def TWIN.HBT_LOST_CNT : Reg := fieldAt .twin 0x134 0 32 .rc 0
def TWIN.LANE_DOWN_CNT : Reg := fieldAt .twin 0x138 0 32 .rc 0
def TWIN.STBY_DROP_CNT : Reg := fieldAt .twin 0x13C 0 32 .rc 0

def fieldsOfTWIN : List Reg :=
  [TWIN.TWIN_CTRL_HOST_GRANT, TWIN.TWIN_CTRL_HANDOVER, TWIN.TWIN_CTRL_ENG_TX_FOLLOW, TWIN.TWIN_CTRL_LINE, TWIN.TWIN_CTRL_EN, TWIN.TWIN_STAT_UNABLE, TWIN.TWIN_STAT_EPOCH_AGE, TWIN.TWIN_STAT_GAP, TWIN.TWIN_STAT_HAT_OUT, TWIN.TWIN_STAT_HBT_IN, TWIN.TWIN_STAT_LANES_UP, TWIN.TWIN_STAT_CFG_BAD, TWIN.TWIN_STAT_SENIOR, TWIN.TWIN_STAT_PEER_READY, TWIN.TWIN_STAT_READY, TWIN.TWIN_STAT_PEER_LOST, TWIN.TWIN_STAT_HAT_STATE, TWIN.LEASE_CFG_START_JUNIOR, TWIN.LEASE_CFG_START_SENIOR, TWIN.LEASE_CFG_GUARD, TWIN.LEASE_CFG_LEASE, TWIN.HAT_SEQ, TWIN.HAT_CYCLE, TWIN.LAST_GRANT] ++
  [TWIN.EPOCH_NUM, TWIN.EPOCH_LEN, TWIN.CUT_MARGIN] ++
  (List.range 16).map TWIN.MIRROR_CFG_EN ++
  (List.range 16).map TWIN.MIRROR_CFG_KIND ++
  (List.range 16).map TWIN.MIRROR_CFG_CH ++
  (List.range 16).map TWIN.MIRROR_CFG_ROLE ++
  (List.range 16).map TWIN.MIRROR_CFG_OFFS ++
  (List.range 16).map TWIN.MIRROR_LEN ++
  [TWIN.CLAIM_CNT, TWIN.CLAIM_DEFER_CNT, TWIN.HANDOVER_CNT, TWIN.HANDOVER_RETRY_CNT, TWIN.HANDOVER_BLOCKED_CNT, TWIN.PARTITION_CNT, TWIN.PEER_LOST_CNT, TWIN.LATE_MSG_CNT, TWIN.EPOCH_DISCARD_CNT, TWIN.MIRROR_MISMATCH_CNT, TWIN.CUT_LATE_CNT, TWIN.MERGE_SUPPRESS_CNT, TWIN.HELD_TICK_CNT, TWIN.HBT_LOST_CNT, TWIN.LANE_DOWN_CNT, TWIN.STBY_DROP_CNT]

/-! Page BR (R378). -/

def BR.EPOCH (p : Page) (s : Nat) : Reg := fieldAt p (0x080 + 4 * s) 0 32 .ro 0
def BR.FENCE (p : Page) : Reg := fieldAt p 0x090 0 32 .ro 0
def BR.PLOG_STAT_OVF (p : Page) : Reg := fieldAt p 0x0A0 8 1 .ro 0
def BR.PLOG_STAT_NUM (p : Page) : Reg := fieldAt p 0x0A0 0 5 .ro 0
def BR.PLOG_CLR (p : Page) : Reg := fieldAt p 0x0A4 0 1 .wo 0
def BR.POSTED_FAIL_CNT (p : Page) : Reg := fieldAt p 0x100 0 32 .rc 0
def BR.PLOG_OVF_CNT (p : Page) : Reg := fieldAt p 0x104 0 32 .rc 0
def BR.PLOG_ADDR (p : Page) (e : Nat) : Reg := fieldAt p (0x200 + 16 * e) 0 32 .ro 0
def BR.PLOG_INFO_VALID (p : Page) (e : Nat) : Reg := fieldAt p (0x204 + 16 * e) 31 1 .ro 0
def BR.PLOG_INFO_SOURCE (p : Page) (e : Nat) : Reg := fieldAt p (0x204 + 16 * e) 28 3 .ro 0
def BR.PLOG_INFO_CAUSE (p : Page) (e : Nat) : Reg := fieldAt p (0x204 + 16 * e) 24 4 .ro 0
def BR.PLOG_INFO_SPACE (p : Page) (e : Nat) : Reg := fieldAt p (0x204 + 16 * e) 22 2 .ro 0
def BR.PLOG_INFO_TAG (p : Page) (e : Nat) : Reg := fieldAt p (0x204 + 16 * e) 0 16 .ro 0
def BR.PLOG_CYCLE (p : Page) (e : Nat) : Reg := fieldAt p (0x208 + 16 * e) 0 32 .ro 0

def fieldsOfBR (p : Page) : List Reg :=
  (List.range 4).map (BR.EPOCH p) ++
  [BR.FENCE p, BR.PLOG_STAT_OVF p, BR.PLOG_STAT_NUM p, BR.PLOG_CLR p, BR.POSTED_FAIL_CNT p, BR.PLOG_OVF_CNT p] ++
  (List.range 16).map (BR.PLOG_ADDR p) ++
  (List.range 16).map (BR.PLOG_INFO_VALID p) ++
  (List.range 16).map (BR.PLOG_INFO_SOURCE p) ++
  (List.range 16).map (BR.PLOG_INFO_CAUSE p) ++
  (List.range 16).map (BR.PLOG_INFO_SPACE p) ++
  (List.range 16).map (BR.PLOG_INFO_TAG p) ++
  (List.range 16).map (BR.PLOG_CYCLE p)

/-! Page PCIE (R379). -/

def PCIE.PCIE_CTRL_PEER_EN : Reg := fieldAt .pcie 0x040 0 1 .rwl 1
def PCIE.PCIE_STAT_OUTSTANDING : Reg := fieldAt .pcie 0x044 16 9 .ro 0
def PCIE.PCIE_STAT_D3HOT : Reg := fieldAt .pcie 0x044 9 1 .ro 0
def PCIE.PCIE_STAT_BME : Reg := fieldAt .pcie 0x044 8 1 .ro 0
def PCIE.PCIE_STAT_WIDTH : Reg := fieldAt .pcie 0x044 4 4 .ro 0
def PCIE.PCIE_STAT_SPEED : Reg := fieldAt .pcie 0x044 1 3 .ro 0
def PCIE.PCIE_STAT_DL_UP : Reg := fieldAt .pcie 0x044 0 1 .ro 0
def PCIE.ID_DID : Reg := fieldAt .pcie 0x048 16 16 .ro 0x7420
def PCIE.ID_VID : Reg := fieldAt .pcie 0x048 0 16 .ro 0
def PCIE.WIN_ORDER_B_DOUGH : Reg := fieldAt .pcie 0x04C 12 2 .rwl 0
def PCIE.WIN_ORDER_B_DIR : Reg := fieldAt .pcie 0x04C 10 2 .rwl 0
def PCIE.WIN_ORDER_B_PAY : Reg := fieldAt .pcie 0x04C 8 2 .rwl 0
def PCIE.WIN_ORDER_A_DOUGH : Reg := fieldAt .pcie 0x04C 4 2 .rwl 0
def PCIE.WIN_ORDER_A_DIR : Reg := fieldAt .pcie 0x04C 2 2 .rwl 0
def PCIE.WIN_ORDER_A_PAY : Reg := fieldAt .pcie 0x04C 0 2 .rwl 0
def PCIE.CPL_TMO_CNT : Reg := fieldAt .pcie 0x110 0 32 .rc 0
def PCIE.CPL_ERR_CNT : Reg := fieldAt .pcie 0x114 0 32 .rc 0
def PCIE.CA_CNT : Reg := fieldAt .pcie 0x118 0 32 .rc 0
def PCIE.POISON_TX_CNT : Reg := fieldAt .pcie 0x11C 0 32 .rc 0
def PCIE.OUT_DROP_CNT : Reg := fieldAt .pcie 0x120 0 32 .rc 0

def fieldsOfPCIE : List Reg :=
  [PCIE.PCIE_CTRL_PEER_EN, PCIE.PCIE_STAT_OUTSTANDING, PCIE.PCIE_STAT_D3HOT, PCIE.PCIE_STAT_BME, PCIE.PCIE_STAT_WIDTH, PCIE.PCIE_STAT_SPEED, PCIE.PCIE_STAT_DL_UP, PCIE.ID_DID, PCIE.ID_VID, PCIE.WIN_ORDER_B_DOUGH, PCIE.WIN_ORDER_B_DIR, PCIE.WIN_ORDER_B_PAY, PCIE.WIN_ORDER_A_DOUGH, PCIE.WIN_ORDER_A_DIR, PCIE.WIN_ORDER_A_PAY, PCIE.CPL_TMO_CNT, PCIE.CPL_ERR_CNT, PCIE.CA_CNT, PCIE.POISON_TX_CNT, PCIE.OUT_DROP_CNT]

/-! Page QSPI (R380). -/

def QSPI.QSPI_CTRL_EN : Reg := fieldAt .qspi 0x040 16 1 .rwl 1
def QSPI.QSPI_CTRL_DR_TMO : Reg := fieldAt .qspi 0x040 0 16 .rwl 200
def QSPI.QSPI_STAT_WQ_FULL : Reg := fieldAt .qspi 0x044 2 1 .ro 0
def QSPI.QSPI_STAT_SLOT : Reg := fieldAt .qspi 0x044 0 2 .ro 0
def QSPI.DR_ADDR : Reg := fieldAt .qspi 0x048 0 32 .ro 0
def QSPI.DR_LEN : Reg := fieldAt .qspi 0x04C 0 13 .ro 0
def QSPI.RETRY_CNT : Reg := fieldAt .qspi 0x110 0 32 .rc 0
def QSPI.DR_DISCARD_CNT : Reg := fieldAt .qspi 0x114 0 32 .rc 0
def QSPI.DR_TMO_CNT : Reg := fieldAt .qspi 0x118 0 32 .rc 0
def QSPI.FRAME_ERR_CNT : Reg := fieldAt .qspi 0x11C 0 32 .rc 0
def QSPI.CMD_ERR_CNT : Reg := fieldAt .qspi 0x120 0 32 .rc 0

def fieldsOfQSPI : List Reg :=
  [QSPI.QSPI_CTRL_EN, QSPI.QSPI_CTRL_DR_TMO, QSPI.QSPI_STAT_WQ_FULL, QSPI.QSPI_STAT_SLOT, QSPI.DR_ADDR, QSPI.DR_LEN, QSPI.RETRY_CNT, QSPI.DR_DISCARD_CNT, QSPI.DR_TMO_CNT, QSPI.FRAME_ERR_CNT, QSPI.CMD_ERR_CNT]

/-! Page LZL (R381). -/

def LZL.LZL_CTRL_RMT_TMO : Reg := fieldAt .lzl 0x040 16 16 .rwl 20
def LZL.LZL_CTRL_RMT_EN : Reg := fieldAt .lzl 0x040 3 1 .rwl 0
def LZL.LZL_CTRL_LANE1_EN : Reg := fieldAt .lzl 0x040 2 1 .rwl 1
def LZL.LZL_CTRL_LANE0_EN : Reg := fieldAt .lzl 0x040 1 1 .rwl 1
def LZL.LZL_CTRL_EN : Reg := fieldAt .lzl 0x040 0 1 .rwl 1
def LZL.LZL_STAT_TGT_BUSY : Reg := fieldAt .lzl 0x044 5 1 .ro 0
def LZL.LZL_STAT_RD_OUT : Reg := fieldAt .lzl 0x044 4 1 .ro 0
def LZL.LZL_STAT_BLOCK_LOCK : Reg := fieldAt .lzl 0x044 2 2 .ro 0
def LZL.LZL_STAT_LANE_UP : Reg := fieldAt .lzl 0x044 0 2 .ro 0
def LZL.CRC_ERR0_CNT : Reg := fieldAt .lzl 0x110 0 32 .rc 0
def LZL.CRC_ERR1_CNT : Reg := fieldAt .lzl 0x114 0 32 .rc 0
def LZL.RMT_RETRY_CNT : Reg := fieldAt .lzl 0x118 0 32 .rc 0
def LZL.RMT_TMO_CNT : Reg := fieldAt .lzl 0x11C 0 32 .rc 0
def LZL.RMT_REFUSED_CNT : Reg := fieldAt .lzl 0x120 0 32 .rc 0
def LZL.LATE_COPY_CNT : Reg := fieldAt .lzl 0x124 0 32 .rc 0

def fieldsOfLZL : List Reg :=
  [LZL.LZL_CTRL_RMT_TMO, LZL.LZL_CTRL_RMT_EN, LZL.LZL_CTRL_LANE1_EN, LZL.LZL_CTRL_LANE0_EN, LZL.LZL_CTRL_EN, LZL.LZL_STAT_TGT_BUSY, LZL.LZL_STAT_RD_OUT, LZL.LZL_STAT_BLOCK_LOCK, LZL.LZL_STAT_LANE_UP, LZL.CRC_ERR0_CNT, LZL.CRC_ERR1_CNT, LZL.RMT_RETRY_CNT, LZL.RMT_TMO_CNT, LZL.RMT_REFUSED_CNT, LZL.LATE_COPY_CNT]

/-! Page SEC (R400). -/

def SEC.LC_STATE : Reg := fieldAt .sec 0x040 0 3 .ro 0
def SEC.LC_CMD : Reg := fieldAt .sec 0x044 0 4 .wo 0
def SEC.CMD_STAT_RESULT : Reg := fieldAt .sec 0x048 4 4 .ro 0
def SEC.CMD_STAT_CMD : Reg := fieldAt .sec 0x048 0 4 .ro 0
def SEC.BOOT_STAT_COPY2 : Reg := fieldAt .sec 0x04C 8 1 .ro 0
def SEC.BOOT_STAT_CAUSE : Reg := fieldAt .sec 0x04C 4 4 .ro 0
def SEC.BOOT_STAT_STAGE : Reg := fieldAt .sec 0x04C 0 4 .ro 0
def SEC.KEY_STAT_DBG_OPEN : Reg := fieldAt .sec 0x050 8 1 .ro 0
def SEC.KEY_STAT_NEXT : Reg := fieldAt .sec 0x050 3 1 .ro 0
def SEC.KEY_STAT_CUR : Reg := fieldAt .sec 0x050 2 1 .ro 0
def SEC.KEY_STAT_TGK : Reg := fieldAt .sec 0x050 1 1 .ro 0
def SEC.KEY_STAT_FLEET : Reg := fieldAt .sec 0x050 0 1 .ro 0
def SEC.KEY_GEN : Reg := fieldAt .sec 0x054 0 32 .ro 0
def SEC.KEY_EPOCH : Reg := fieldAt .sec 0x058 0 16 .ro 0
def SEC.ZEROISE : Reg := fieldAt .sec 0x05C 0 16 .wo 0
def SEC.DBG_CHAL (w : Nat) : Reg := fieldAt .sec (0x060 + 4 * w) 0 32 .ro 0
def SEC.DBG_STAT_PERM : Reg := fieldAt .sec 0x070 0 2 .ro 0
def SEC.TRNG_STAT_REQS : Reg := fieldAt .sec 0x074 8 24 .ro 0
def SEC.TRNG_STAT_SERVING : Reg := fieldAt .sec 0x074 1 1 .ro 0
def SEC.TRNG_STAT_HEALTHY : Reg := fieldAt .sec 0x074 0 1 .ro 0
def SEC.UID_LO : Reg := fieldAt .sec 0x078 0 32 .ro 0
def SEC.UID_HI : Reg := fieldAt .sec 0x07C 0 16 .ro 0
def SEC.SEC_VER_MIN (v : Nat) : Reg := fieldAt .sec (0x080 + 4 * v) 0 32 .ro 0
def SEC.KEY_FAIL_CNT : Reg := fieldAt .sec 0x100 0 32 .rc 0
def SEC.KEY_REQ_TX_CNT : Reg := fieldAt .sec 0x104 0 32 .rc 0
def SEC.KEY_GRANT_TX_CNT : Reg := fieldAt .sec 0x108 0 32 .rc 0
def SEC.KEY_REQ_BAD_CNT : Reg := fieldAt .sec 0x10C 0 32 .rc 0
def SEC.TRNG_FAIL_CNT : Reg := fieldAt .sec 0x110 0 32 .rc 0
def SEC.TOKEN_FAIL_CNT : Reg := fieldAt .sec 0x114 0 32 .rc 0
def SEC.TOKEN (w : Nat) : Reg := fieldAt .sec (0x200 + 4 * w) 0 32 .wo 0

def fieldsOfSEC : List Reg :=
  [SEC.LC_STATE, SEC.LC_CMD, SEC.CMD_STAT_RESULT, SEC.CMD_STAT_CMD, SEC.BOOT_STAT_COPY2, SEC.BOOT_STAT_CAUSE, SEC.BOOT_STAT_STAGE, SEC.KEY_STAT_DBG_OPEN, SEC.KEY_STAT_NEXT, SEC.KEY_STAT_CUR, SEC.KEY_STAT_TGK, SEC.KEY_STAT_FLEET, SEC.KEY_GEN, SEC.KEY_EPOCH, SEC.ZEROISE] ++
  (List.range 4).map SEC.DBG_CHAL ++
  [SEC.DBG_STAT_PERM, SEC.TRNG_STAT_REQS, SEC.TRNG_STAT_SERVING, SEC.TRNG_STAT_HEALTHY, SEC.UID_LO, SEC.UID_HI] ++
  (List.range 4).map SEC.SEC_VER_MIN ++
  [SEC.KEY_FAIL_CNT, SEC.KEY_REQ_TX_CNT, SEC.KEY_GRANT_TX_CNT, SEC.KEY_REQ_BAD_CNT, SEC.TRNG_FAIL_CNT, SEC.TOKEN_FAIL_CNT] ++
  (List.range 128).map SEC.TOKEN

/-! Page PRF (R414). -/

def PRF.PRF_CTRL_STOP : Reg := fieldAt .prf 0x040 8 1 .wo 0
def PRF.PRF_CTRL_CRY_EN : Reg := fieldAt .prf 0x040 3 1 .rw 0
def PRF.PRF_CTRL_KND_EN : Reg := fieldAt .prf 0x040 2 1 .rw 0
def PRF.PRF_CTRL_ENG_EN : Reg := fieldAt .prf 0x040 1 1 .rw 0
def PRF.PRF_CTRL_EN : Reg := fieldAt .prf 0x040 0 1 .rw 0
def PRF.PRF_CFG_RETEST : Reg := fieldAt .prf 0x044 16 1 .rwl 1
def PRF.PRF_CFG_INTERVAL : Reg := fieldAt .prf 0x044 0 16 .rwl 1000
def PRF.PRF_STAT_TGT_B : Reg := fieldAt .prf 0x048 20 4 .ro 0xF
def PRF.PRF_STAT_TGT_A : Reg := fieldAt .prf 0x048 16 4 .ro 0xF
def PRF.PRF_STAT_POR_DONE : Reg := fieldAt .prf 0x048 6 1 .ro 0
def PRF.PRF_STAT_MAINT_BUSY : Reg := fieldAt .prf 0x048 5 1 .ro 0
def PRF.PRF_STAT_BUSY : Reg := fieldAt .prf 0x048 0 5 .ro 0
def PRF.MAINT_CMD_GO : Reg := fieldAt .prf 0x04C 31 1 .wo 0
def PRF.MAINT_CMD_CH : Reg := fieldAt .prf 0x04C 13 1 .wo 0
def PRF.MAINT_CMD_INDEX : Reg := fieldAt .prf 0x04C 8 5 .wo 0
def PRF.MAINT_CMD_TARGET : Reg := fieldAt .prf 0x04C 0 8 .wo 0
def PRF.SEED_LO : Reg := fieldAt .prf 0x050 0 32 .rw 0
def PRF.SEED_HI : Reg := fieldAt .prf 0x054 0 32 .rw 0
def PRF.PAT_CNT : Reg := fieldAt .prf 0x058 0 20 .rw 0
def PRF.EXP_SIG (w : Nat) : Reg := fieldAt .prf (0x060 + 4 * w) 0 32 .rw 0
def PRF.SIG (w : Nat) : Reg := fieldAt .prf (0x070 + 4 * w) 0 32 .ro 0
def PRF.RESULT_RESULT (t : Nat) : Reg := fieldAt .prf (0x080 + 4 * t) 30 2 .ro 0
def PRF.RESULT_RETESTED (t : Nat) : Reg := fieldAt .prf (0x080 + 4 * t) 29 1 .ro 0
def PRF.RESULT_CAUSE (t : Nat) : Reg := fieldAt .prf (0x080 + 4 * t) 24 4 .ro 0
def PRF.RESULT_CELL (t : Nat) : Reg := fieldAt .prf (0x080 + 4 * t) 20 4 .ro 0
def PRF.RESULT_PATTERNS (t : Nat) : Reg := fieldAt .prf (0x080 + 4 * t) 0 20 .ro 0
def PRF.RES_CYCLE (t : Nat) : Reg := fieldAt .prf (0x0A0 + 4 * t) 0 32 .ro 0
def PRF.POR_ENG : Reg := fieldAt .prf 0x0C0 0 32 .ro 0
def PRF.POR_OTHER_DONE : Reg := fieldAt .prf 0x0C4 31 1 .ro 0
def PRF.POR_OTHER_REST : Reg := fieldAt .prf 0x0C4 20 4 .ro 0
def PRF.POR_OTHER_CRYPTO : Reg := fieldAt .prf 0x0C4 16 2 .ro 0
def PRF.POR_OTHER_LANES_B : Reg := fieldAt .prf 0x0C4 8 8 .ro 0
def PRF.POR_OTHER_LANES_A : Reg := fieldAt .prf 0x0C4 0 8 .ro 0
def PRF.PASS_CNT : Reg := fieldAt .prf 0x100 0 32 .rc 0
def PRF.FAIL_CNT : Reg := fieldAt .prf 0x104 0 32 .rc 0
def PRF.ABORT_CNT : Reg := fieldAt .prf 0x108 0 32 .rc 0
def PRF.LIMIT_DEFER_CNT : Reg := fieldAt .prf 0x10C 0 32 .rc 0
def PRF.QUEUED_WR_CNT : Reg := fieldAt .prf 0x110 0 32 .rc 0
def PRF.ROTATION_CNT : Reg := fieldAt .prf 0x114 0 32 .rc 0

def fieldsOfPRF : List Reg :=
  [PRF.PRF_CTRL_STOP, PRF.PRF_CTRL_CRY_EN, PRF.PRF_CTRL_KND_EN, PRF.PRF_CTRL_ENG_EN, PRF.PRF_CTRL_EN, PRF.PRF_CFG_RETEST, PRF.PRF_CFG_INTERVAL, PRF.PRF_STAT_TGT_B, PRF.PRF_STAT_TGT_A, PRF.PRF_STAT_POR_DONE, PRF.PRF_STAT_MAINT_BUSY, PRF.PRF_STAT_BUSY, PRF.MAINT_CMD_GO, PRF.MAINT_CMD_CH, PRF.MAINT_CMD_INDEX, PRF.MAINT_CMD_TARGET, PRF.SEED_LO, PRF.SEED_HI, PRF.PAT_CNT] ++
  (List.range 4).map PRF.EXP_SIG ++
  (List.range 4).map PRF.SIG ++
  (List.range 7).map PRF.RESULT_RESULT ++
  (List.range 7).map PRF.RESULT_RETESTED ++
  (List.range 7).map PRF.RESULT_CAUSE ++
  (List.range 7).map PRF.RESULT_CELL ++
  (List.range 7).map PRF.RESULT_PATTERNS ++
  (List.range 7).map PRF.RES_CYCLE ++
  [PRF.POR_ENG, PRF.POR_OTHER_DONE, PRF.POR_OTHER_REST, PRF.POR_OTHER_CRYPTO, PRF.POR_OTHER_LANES_B, PRF.POR_OTHER_LANES_A, PRF.PASS_CNT, PRF.FAIL_CNT, PRF.ABORT_CNT, PRF.LIMIT_DEFER_CNT, PRF.QUEUED_WR_CNT, PRF.ROTATION_CNT]

/-! Page CPL (R430). -/

def CPL.CPL_CTRL_DEBOUNCE : Reg := fieldAt .cpl 0x040 16 8 .rwl 20
def CPL.CPL_CTRL_TAG_EN : Reg := fieldAt .cpl 0x040 4 4 .rwl 0
def CPL.CPL_CTRL_EN : Reg := fieldAt .cpl 0x040 0 1 .rw 0
def CPL.TREND_DROP : Reg := fieldAt .cpl 0x044 0 16 .rwl 30
def CPL.TYPE_MASK : Reg := fieldAt .cpl 0x048 0 32 .rwl 0xFFFFFFFF
def CPL.PORT_CFG_REG (m : Nat) : Reg := fieldAt .cpl (0x100 + 128 * m) 16 16 .rwl 0
def CPL.PORT_CFG_MDIO_EN (m : Nat) : Reg := fieldAt .cpl (0x100 + 128 * m) 15 1 .rwl 0
def CPL.PORT_CFG_DEVAD (m : Nat) : Reg := fieldAt .cpl (0x100 + 128 * m) 8 5 .rwl 0
def CPL.PORT_CFG_C45 (m : Nat) : Reg := fieldAt .cpl (0x100 + 128 * m) 5 1 .rwl 0
def CPL.PORT_CFG_PHY_ADDR (m : Nat) : Reg := fieldAt .cpl (0x100 + 128 * m) 0 5 .rwl 0
def CPL.MARGIN_CAL_SCALE (m : Nat) : Reg := fieldAt .cpl (0x104 + 128 * m) 16 16 .rwl 256
def CPL.MARGIN_CAL_OFFSET (m : Nat) : Reg := fieldAt .cpl (0x104 + 128 * m) 0 16 .rwl 0
def CPL.HEAD_STAT_LOW_RUN (m : Nat) : Reg := fieldAt .cpl (0x108 + 128 * m) 16 8 .ro 0
def CPL.HEAD_STAT_PENDING (m : Nat) : Reg := fieldAt .cpl (0x108 + 128 * m) 8 4 .ro 0
def CPL.HEAD_STAT_SESSION (m : Nat) : Reg := fieldAt .cpl (0x108 + 128 * m) 7 1 .ro 0
def CPL.HEAD_STAT_CLOSED (m : Nat) : Reg := fieldAt .cpl (0x108 + 128 * m) 6 1 .ro 0
def CPL.HEAD_STAT_WEAR (m : Nat) : Reg := fieldAt .cpl (0x108 + 128 * m) 4 2 .ro 0
def CPL.HEAD_STAT_AUTH (m : Nat) : Reg := fieldAt .cpl (0x108 + 128 * m) 2 2 .ro 0
def CPL.HEAD_STAT_PRES (m : Nat) : Reg := fieldAt .cpl (0x108 + 128 * m) 0 2 .ro 0
def CPL.TAG_ID_LO (m : Nat) : Reg := fieldAt .cpl (0x10C + 128 * m) 0 32 .ro 0
def CPL.TAG_ID_HI (m : Nat) : Reg := fieldAt .cpl (0x110 + 128 * m) 0 16 .ro 0
def CPL.MATES (m : Nat) : Reg := fieldAt .cpl (0x114 + 128 * m) 0 32 .ro 0
def CPL.RATED (m : Nat) : Reg := fieldAt .cpl (0x118 + 128 * m) 0 32 .ro 0
def CPL.MARGIN_FLOOR (m : Nat) : Reg := fieldAt .cpl (0x11C + 128 * m) 16 16 .ro 0
def CPL.MARGIN_SAMPLED (m : Nat) : Reg := fieldAt .cpl (0x11C + 128 * m) 0 16 .ro 0
def CPL.SUM0 (m : Nat) : Reg := fieldAt .cpl (0x120 + 128 * m) 0 32 .ro 0
def CPL.SUM1 (m : Nat) : Reg := fieldAt .cpl (0x124 + 128 * m) 0 32 .ro 0
def CPL.SUM2 (m : Nat) : Reg := fieldAt .cpl (0x128 + 128 * m) 0 32 .ro 0
def CPL.SUM3 (m : Nat) : Reg := fieldAt .cpl (0x12C + 128 * m) 0 32 .ro 0
def CPL.LOCAL_MATES (m : Nat) : Reg := fieldAt .cpl (0x140 + 128 * m) 0 32 .rc 0
def CPL.TAG_TMO_CNT (m : Nat) : Reg := fieldAt .cpl (0x144 + 128 * m) 0 32 .rc 0
def CPL.TAG_CRC_ERR_CNT (m : Nat) : Reg := fieldAt .cpl (0x148 + 128 * m) 0 32 .rc 0
def CPL.AUTH_FAIL_CNT (m : Nat) : Reg := fieldAt .cpl (0x14C + 128 * m) 0 32 .rc 0
def CPL.MDIO_ERR_CNT (m : Nat) : Reg := fieldAt .cpl (0x150 + 128 * m) 0 32 .rc 0

def fieldsOfCPL : List Reg :=
  [CPL.CPL_CTRL_DEBOUNCE, CPL.CPL_CTRL_TAG_EN, CPL.CPL_CTRL_EN, CPL.TREND_DROP, CPL.TYPE_MASK] ++
  (List.range 4).map CPL.PORT_CFG_REG ++
  (List.range 4).map CPL.PORT_CFG_MDIO_EN ++
  (List.range 4).map CPL.PORT_CFG_DEVAD ++
  (List.range 4).map CPL.PORT_CFG_C45 ++
  (List.range 4).map CPL.PORT_CFG_PHY_ADDR ++
  (List.range 4).map CPL.MARGIN_CAL_SCALE ++
  (List.range 4).map CPL.MARGIN_CAL_OFFSET ++
  (List.range 4).map CPL.HEAD_STAT_LOW_RUN ++
  (List.range 4).map CPL.HEAD_STAT_PENDING ++
  (List.range 4).map CPL.HEAD_STAT_SESSION ++
  (List.range 4).map CPL.HEAD_STAT_CLOSED ++
  (List.range 4).map CPL.HEAD_STAT_WEAR ++
  (List.range 4).map CPL.HEAD_STAT_AUTH ++
  (List.range 4).map CPL.HEAD_STAT_PRES ++
  (List.range 4).map CPL.TAG_ID_LO ++
  (List.range 4).map CPL.TAG_ID_HI ++
  (List.range 4).map CPL.MATES ++
  (List.range 4).map CPL.RATED ++
  (List.range 4).map CPL.MARGIN_FLOOR ++
  (List.range 4).map CPL.MARGIN_SAMPLED ++
  (List.range 4).map CPL.SUM0 ++
  (List.range 4).map CPL.SUM1 ++
  (List.range 4).map CPL.SUM2 ++
  (List.range 4).map CPL.SUM3 ++
  (List.range 4).map CPL.LOCAL_MATES ++
  (List.range 4).map CPL.TAG_TMO_CNT ++
  (List.range 4).map CPL.TAG_CRC_ERR_CNT ++
  (List.range 4).map CPL.AUTH_FAIL_CNT ++
  (List.range 4).map CPL.MDIO_ERR_CNT

/-- The fields a page holds after its header (R464). SLOT_CNT and LAYOUT_S hold the slots 1 to 63 and 65 to 72 only (R166). -/
def blockFields : Page → List Reg
  | .chip => fieldsOfCHIP | .time => fieldsOfTIME | .cyc => fieldsOfCYC | .pwr => fieldsOfPWR | .clk => fieldsOfCLK
  | .intc => fieldsOfINTC | .sec => fieldsOfSEC
  | .gtb l => (fieldsOfGTB l).filter fun r =>
      !(r.addr == (Page.gtb l).base + 0x200 || r.addr == (Page.gtb l).base + 0x300
        || r.addr == (Page.gtb l).base + 0x400 || r.addr == (Page.gtb l).base + 0x500)
  | .loaf c => fieldsOfLOAF c | .knd c => fieldsOfKND c | .eng c i => fieldsOfENG c i | .sw => fieldsOfSW
  | .mac m => fieldsOfMAC m | .can c => fieldsOfCAN c | .mvb c => fieldsOfMVB c | .twin => fieldsOfTWIN
  | .lzl => fieldsOfLZL ++ fieldsOfBR .lzl | .pcie => fieldsOfPCIE ++ fieldsOfBR .pcie
  | .qspi => fieldsOfQSPI ++ fieldsOfBR .qspi | .cpl => fieldsOfCPL | .prf => fieldsOfPRF | .gpio => fieldsOfGPIO

/-- Every field of a page, its common header first (R454). -/
def pageFields (p : Page) : List Reg := fieldsOfHDR p ++ blockFields p

end Sys2Proof.Machine
end

