-- ==== Sys2Proof/Machine/Ops.lean ====
section
/-! DEFINITION. The named operations over registers and memories. Everything a command changes in a register or a memory goes through
these (spec/00_scope.md R6, R8; spec/17_register_pages.md R454 to R458). -/

namespace Sys2Proof.Machine

/-! Sparse stores: ascending keys, no entry equal to the value an absent key reads as. -/

/-- The value at a key, `d` where none is listed. -/
def lookup {β : Type} (d : β) : List (Nat × β) → Nat → β
  | [], _ => d
  | (k, v) :: t, a => if a = k then v else lookup d t a

/-- The store without a key. -/
def unlist {β : Type} (l : List (Nat × β)) (a : Nat) : List (Nat × β) := l.filter fun e => e.1 != a

/-- Ascending insertion of a key. -/
def enlist {β : Type} : List (Nat × β) → Nat → β → List (Nat × β)
  | [], a, v => [(a, v)]
  | (k, w) :: t, a, v => if a < k then (a, v) :: (k, w) :: t else (k, w) :: enlist t a v

/-- Write a key: the value an absent key reads as is not listed. -/
def store {β : Type} [DecidableEq β] (d : β) (l : List (Nat × β)) (a : Nat) (v : β) : List (Nat × β) :=
  if v = d then unlist l a else enlist (unlist l a) a v

/-- Keys strictly ascending. -/
def ascending {β : Type} : List (Nat × β) → Bool
  | [] => true
  | [_] => true
  | a :: b :: t => decide (a.1 < b.1) && ascending (b :: t)

/-- The canonical form of a store whose absent keys read `d`. -/
def canonical {β : Type} [DecidableEq β] (d : β) (l : List (Nat × β)) : Bool :=
  ascending l && l.all fun e => decide (e.2 ≠ d)

/-! Memory. -/

/-- What a byte that nothing has written reads as: 0 (R54), but for VLAN entry 1 (R265) and the mask bit of an MSI-X vector, which the
PCI Express specification sets at reset (R361; PRESUMED, log entry 42). -/
def memDefault (a : Nat) : Byte :=
  if 0x680008 ≤ a ∧ a < 0x680010 then [0x80, 0x00, 0x7F, 0xFF, 0x00, 0x01, 0x7F, 0xFF].getD (a - 0x680008) 0
  else if 0xF00000 ≤ a ∧ a < 0xF00400 ∧ a % 16 = 15 then 1
  else 0

/-- A byte of memory. -/
def State.byte (s : State) (a : Nat) : Byte := lookup (memDefault a) s.mem a

/-- Write one byte. -/
def State.setByte (s : State) (a : Nat) (b : Byte) : State := { s with mem := store (memDefault a) s.mem a b }

/-- `n` bytes from an address. -/
def State.bytes (s : State) (a n : Nat) : List Byte := (List.range n).map fun i => s.byte (a + i)

/-- Write consecutive bytes. -/
def State.setBytes (s : State) (a : Nat) : List Byte → State
  | [] => s
  | b :: t => (s.setByte a b).setBytes (a + 1) t

/-- Return a range to its reset contents (R54). -/
def State.clearRange (s : State) (a n : Nat) : State :=
  { s with mem := s.mem.filter fun e => !(decide (a ≤ e.1) && decide (e.1 < a + n)) }

/-- Copy a range over another. -/
def State.copyRange (s : State) (src dst n : Nat) : State :=
  (s.mem.filter fun e => decide (src ≤ e.1) && decide (e.1 < src + n)).foldl
    (fun t e => t.setByte (dst + (e.1 - src)) e.2) (s.clearRange dst n)

/-- A 32-bit little-endian word, as engines see memory (R228). -/
def State.word (s : State) (a : Nat) : Word :=
  (s.byte (a + 3)).append ((s.byte (a + 2)).append ((s.byte (a + 1)).append (s.byte a)))

/-- The canonical form of the memory. -/
abbrev Memory.wf (m : List Host.Cell) : Bool := ascending m && m.all fun e => decide (e.2 ≠ memDefault e.1)

/-! Registers. -/

/-- A field's key. -/
def Reg.key (r : Reg) : Nat := r.addr * 32 + r.lo

/-- The value of a field. -/
def State.get (s : State) (r : Reg) : Nat := lookup r.reset s.regs r.key

/-- Set a field, cut to its width. -/
def State.set (s : State) (r : Reg) (v : Nat) : State :=
  { s with regs := store r.reset s.regs r.key (v % 2 ^ r.width) }

/-- A one-bit field as a truth value. -/
def State.flag (s : State) (r : Reg) : Bool := s.get r != 0

/-- Set a one-bit field. -/
def State.setFlag (s : State) (r : Reg) (b : Bool) : State := s.set r (if b then 1 else 0)

/-- A signed field. -/
def State.getInt (s : State) (r : Reg) : Int := signedOf r.width (s.get r)

/-- Set a signed field, modulo its width. -/
def State.setInt (s : State) (r : Reg) (i : Int) : State := s.set r (fieldOf r.width i)

/-- A 64-bit value in a _LO and _HI pair (R458). -/
def State.get64 (s : State) (lo hi : Reg) : Nat := s.get hi * 2 ^ 32 + s.get lo

/-- Set a _LO and _HI pair. -/
def State.set64 (s : State) (lo hi : Reg) (v : Nat) : State := (s.set lo (v % 2 ^ 32)).set hi (v / 2 ^ 32)

/-! Updates by the hardware (R7): what a read or a clear of the same fabric clock must see is kept beside the field until that clock ends. -/

/-- What a field holds once it has been cleared: an RC field its reset value, so that a minimum starts anew (log entry 139), a W1C field 0. -/
def Reg.cleared (r : Reg) : Nat := if r.acc = .rc then r.reset else 0

/-- The hardware has updated the field in this clock. -/
def State.updateOf (s : State) (r : Reg) : Option HwUpdate := s.updates.find? fun u => u.key = r.key

/-- The field before this clock's updates. -/
def State.before (s : State) (r : Reg) : Nat := ((s.updateOf r).map fun u => u.before).getD (s.get r)

/-- The field as this clock's updates alone make it. -/
def State.kept (s : State) (r : Reg) : Nat := ((s.updateOf r).map fun u => u.kept).getD r.cleared

def State.noteUpdate (s : State) (r : Reg) (before kept : Nat) : State :=
  { s with updates := s.updates.filter (fun u => u.key != r.key) ++ [⟨r.key, before, kept⟩] }

/-- The hardware gives a field a value, and another one if a clear of this clock reaches it. -/
def State.updateTo (s : State) (r : Reg) (v kept : Nat) : State := (s.noteUpdate r (s.before r) kept).set r v

/-- The hardware updates a field from what it holds. -/
def State.update (s : State) (r : Reg) (f : Nat → Nat) : State := s.updateTo r (f (s.get r)) (f (s.kept r))

/-- The hardware sets a one-bit field. -/
def State.updateFlag (s : State) (r : Reg) : State := s.update r fun _ => 1

/-- A field as a read returns it: an RC field as it was before this clock's updates (R6, R7). -/
def State.readOut (s : State) (r : Reg) : Nat := if r.acc = .rc then s.before r else s.get r

/-- What a cleared RC field starts from: PEAK from the jobs in flight, which are the most since the read (R225). -/
def State.floorOf (s : State) (r : Reg) : Nat :=
  if r = KND.PEAK .A then s.kneaderA.runs.length else if r = KND.PEAK .B then s.kneaderB.runs.length else r.cleared

/-- The read of an RC field clears it; this clock's updates stay (R6, R7). -/
def State.clearField (s : State) (r : Reg) : State :=
  match s.updateOf r with
  | none => s.set r (s.floorOf r)
  | some u => (s.noteUpdate r r.cleared u.kept).set r u.kept

/-- A write of ones clears bits of a W1C field; those set in this clock stay (R6, R7). -/
def State.clearBits (s : State) (r : Reg) (m : Nat) : State :=
  s.set r (s.get r - (s.get r &&& (m - (m &&& s.kept r))))

/-! State updates used by every family. -/

def State.withTime (s : State) (f : TimeUnit → TimeUnit) : State := { s with time := f s.time }

def State.withForming (s : State) (f : Forming → Forming) : State := { s with forming := f s.forming }

def State.withSec (s : State) (f : Sec → Sec) : State := { s with sec := f s.sec }

def State.withTwin (s : State) (f : Twin → Twin) : State := { s with twinUnit := f s.twinUnit }

/-- The hidden state of a line. -/
def State.lineOf (s : State) : Line → LineState
  | .A => s.lineA
  | .B => s.lineB

def State.withLine (s : State) (l : Line) (f : LineState → LineState) : State :=
  match l with
  | .A => { s with lineA := f s.lineA }
  | .B => { s with lineB := f s.lineB }

/-- The Loaf of a channel. -/
def State.loafOf (s : State) : Line → Loaf
  | .A => s.loafA
  | .B => s.loafB

def State.withLoaf (s : State) (c : Line) (f : Loaf → Loaf) : State :=
  match c with
  | .A => { s with loafA := f s.loafA }
  | .B => { s with loafB := f s.loafB }

/-- The port of a line. -/
def LineState.portOf (x : LineState) : Side → PortState
  | .front => x.front
  | .rear => x.rear

def LineState.withPort (x : LineState) (d : Side) (f : PortState → PortState) : LineState :=
  match d with
  | .front => { x with front := f x.front }
  | .rear => { x with rear := f x.rear }

/-- Hand something to the outside. -/
def State.emit (s : State) (e : Sent) : State := { s with sent := s.sent ++ [e] }

/-- Draw a free value (log entry 11). -/
def State.draw (s : State) : Nat × State := (Config.freeValue s.freeDraws, { s with freeDraws := s.freeDraws + 1 })

/-- Apply an update only where a condition holds. -/
def State.when (s : State) (c : Bool) (f : State → State) : State := if c then f s else s

/-- Apply an update for each element, in order. -/
def State.each {α : Type} (s : State) (l : List α) (f : α → State → State) : State := l.foldl (fun t a => f a t) s

end Sys2Proof.Machine
end

