-- ==== Sys2Proof/Machine/Flags.lean ====
section
/-! DEFINITION. Interrupt bits, counters, ERR_INFO and the enables every block shares (spec/02_inside_the_device.md R42 to R44;
spec/17_register_pages.md R454 to R457; spec/16_power_clocks_reset.md R434). -/

namespace Sys2Proof.Machine

/-- Set INT_RAW bit `b` of a page (R454). -/
def State.raise (s : State) (p : Page) (b : Nat) : State := s.update (HDR.INT_RAW p) fun v => v ||| 2 ^ b

/-- A MAC interrupt, bits 8 to 11 of a MAC page; MAC_BB packs four per block (R290). -/
def State.raiseMac (s : State) (q j : Nat) : State := s.raise (.mac q) (if q < 8 then 8 + j else 8 + 4 * (q - 8) + j)

/-- A saturating counter plus `n` (R42). -/
def State.countBy (s : State) (r : Reg) (n : Nat) : State := s.update r fun v => min (v + n) (2 ^ r.width - 1)

/-- A saturating counter plus 1. -/
def State.count (s : State) (r : Reg) : State := s.countBy r 1

/-- The fields of ERR_INFO as one entry: class, cell, cause and word (R44). -/
def errInfo (p : Page) : List Reg := [HDR.ERR_INFO_CLASS p, HDR.ERR_INFO_CELL p, HDR.ERR_INFO_CAUSE p, HDR.ERR_INFO_WORD p]

/-- ERR_INFO takes an entry where the one it holds (class, cause) gives way. -/
def State.noteError (s : State) (p : Page) (gives : Nat → Nat → Bool) (entry : List Nat) : State :=
  let now := gives (s.get (HDR.ERR_INFO_CLASS p)) (s.get (HDR.ERR_INFO_CAUSE p))
  let after := gives (s.kept (HDR.ERR_INFO_CLASS p)) (s.kept (HDR.ERR_INFO_CAUSE p))
  if now || after then
    ((errInfo p).zip entry).foldl (fun t x => t.updateTo x.1 (if now then x.2 else s.get x.1) (if after then x.2 else s.kept x.1)) s
  else s

/-- Record a refused configuration write: only while ERR_INFO holds neither an error nor an earlier refused write (R44). -/
def State.refuse (s : State) (p : Page) : State := s.noteError p (fun cls cause => cls = 0 && cause = 0) [0, 0, 8, 0]

/-- Record an error of class 1 CE, 2 DE or 3 UE: the most severe, and the first among equals; WORD belongs to causes 1 and 2 (R44). -/
def State.recordError (s : State) (p : Page) (cls cell cause word : Nat) : State :=
  s.noteError p (fun held _ => held < cls) [cls, cell, cause, if cause = 1 ∨ cause = 2 then word else 0]

/-- The domain of a page is on (R433). -/
def State.powered (s : State) (p : Page) : Bool := bitOf (s.get PWR.PD_STAT_ON) p.domain

/-- The device is fail-silent (R41). -/
def State.failSilent (s : State) : Bool := s.flag CHIP.CHIP_STAT_FAIL_SILENT

/-- The channel region is quarantined (R39). -/
def State.quarantined (s : State) (c : Line) : Bool :=
  match c with
  | .A => s.flag CHIP.CH_MODE_QUAR_A
  | .B => s.flag CHIP.CH_MODE_QUAR_B

/-- The quarantine that bears on a page, if any. -/
def State.pageQuarantined (s : State) (p : Page) : Bool :=
  match p with
  | .gtb c | .loaf c | .knd c | .eng c _ => s.quarantined c
  | .mac m => if m < 8 then false else if m < 10 then s.quarantined .A else s.quarantined .B
  | _ => false

/-- A cell without a spare that an error has isolated (R36). -/
def State.cellDead (s : State) (p : Page) (cell : Nat) : Bool := s.health.dead.contains (p, cell)

/-- The block is one cell, and it is isolated: CAN and MVB controllers and consist MACs (R36). -/
def State.blockDead (s : State) (p : Page) : Bool :=
  match p with
  | .can _ | .mvb _ | .mac _ => s.cellDead p 0
  | _ => false

/-- The block runs: its domain is on, ENABLE is 1, its region is not quarantined and no error has isolated it (R36, R39, R434, R455). -/
def State.live (s : State) (p : Page) : Bool :=
  s.powered p && s.flag (HDR.PAGE_CTRL_ENABLE p) && !s.pageQuarantined p && !s.blockDead p

/-- The block may send: it runs and the device is not fail-silent (R41). -/
def State.mayTransmit (s : State) (p : Page) : Bool := s.live p && !s.failSilent

/-- The page's RWL fields are locked: CFG_LOCK is 1, or was at the start of this fabric clock (R456). -/
def State.locked (s : State) (p : Page) : Bool := s.flag (HDR.PAGE_CTRL_CFG_LOCK p) || s.thisClock.unlocked.contains p

/-- CFG_CYCLE takes CYC_NUM (R457). -/
def State.stampConfig (s : State) (p : Page) : State := s.set (HDR.CFG_CYCLE p) (s.get CYC.CYC_NUM)

/-- LOCKED channel mode (R45). -/
def State.lockedMode (s : State) : Bool := s.flag CHIP.CH_MODE_MODE

/-- The chip is one of a twin pair (R321). -/
def State.twin (s : State) : Bool := s.flag TWIN.TWIN_CTRL_EN

/-- Codes of TWIN_STAT.HAT_STATE (R332). -/
abbrev hatOFF : Nat := 0
abbrev hatNONE : Nat := 1
abbrev hatSTANDBY : Nat := 2
abbrev hatWEARING : Nat := 3
abbrev hatPARTITIONED : Nat := 4

/-- The chip wears the hat, or is a single node, which owns everything itself (R2). -/
def State.owns (s : State) : Bool := !s.twin || s.get TWIN.TWIN_STAT_HAT_STATE == hatWEARING

/-- The lines the chip serves (R2, R321). -/
def State.served (s : State) : List Line :=
  if s.twin then (if s.flag TWIN.TWIN_CTRL_LINE then [.B] else [.A]) else [.A, .B]

/-- Codes of FORM_STAT.STATE (R89). -/
abbrev lnOFF : Nat := 0
abbrev lnLISTEN : Nat := 1
abbrev lnCOLDSTART : Nat := 2
abbrev lnINTEGRATE : Nat := 3
abbrev lnINAUGURATE : Nat := 4
abbrev lnRUN : Nat := 5
abbrev lnLONE : Nat := 6
abbrev lnPASSIVE : Nat := 7
abbrev lnFORERUNNER : Nat := 8

/-- A line's state. -/
def State.lineState (s : State) (l : Line) : Nat := s.get (GTB.FORM_STAT_STATE l)

/-- Both line state machines are in OFF (R45, R79, R321). -/
def State.bothOff (s : State) : Bool := s.lineState .A == lnOFF && s.lineState .B == lnOFF

/-- Codes of TIME_STAT.STATE (R86). -/
abbrev tmUNSYNC : Nat := 0
abbrev tmLEAD : Nat := 1
abbrev tmSYNC : Nat := 2
abbrev tmHOLDOVER : Nat := 3

def State.timeState (s : State) : Nat := s.get TIME.TIME_STAT_STATE

/-- The chip holds a train time (R69). -/
def State.valid (s : State) : Bool := s.flag TIME.TIME_STAT_VALID

/-- The cycle number (R58). -/
def State.cycle (s : State) : Nat := s.get CYC.CYC_NUM

/-- CYCLE_LEN in ns: k times 62,500 (R58). -/
def State.cycleLen (s : State) : Nat := s.time.cycleLenK * 62500

/-- P in ns as in force (R72). -/
def State.precision (s : State) : Nat := s.time.precision

/-- The node's own UID (R4): the chip's. The UID of a senior twin is learned from it (R325). -/
def State.chipUid (s : State) : Uid :=
  BitVec.ofNat 48 (s.get CHIP.UID_HI % 2 ^ 16 * 2 ^ 32 + s.get CHIP.UID_LO)

/-- TTC in ns (R56). -/
def State.ttcNs (s : State) : BitVec 64 := (s.time.ttc >>> 32).setWidth 64

/-- LTC in ns (R55). -/
def State.ltcNs (s : State) : BitVec 64 := (s.time.ltc >>> 32).setWidth 64

/-- TTC in units of 0.25 ns. -/
def State.ttcInstant (s : State) : Instant := (s.time.ttc >>> 30).setWidth 64

/-- T0 in ns (R58). -/
def State.t0 (s : State) : BitVec 64 := BitVec.ofNat 64 (s.get64 CYC.T0_LO CYC.T0_HI)

/-- The instant of the current cycle's tick in ns: T0 plus n times CYCLE_LEN (R58). -/
def State.tickNs (s : State) : BitVec 64 := s.t0 + BitVec.ofNat 64 (s.cycle * s.cycleLen)

/-- The tick as an instant in units of 0.25 ns. -/
def State.tickInstant (s : State) : Instant := s.tickNs * 4

/-- ns since the current cycle's tick. -/
def State.sinceTick (s : State) : Int := (s.ttcNs - s.tickNs).toInt

/-- An instant as ns after the tick. -/
def State.afterTick (s : State) (i : Instant) : Int := Int.fdiv ((i - s.tickInstant).toInt) 4

end Sys2Proof.Machine
end

