-- ==== Sys2Proof/Machine/Time.lean ====
section
/-! DEFINITION. Train time (spec/03_train_time.md R55 to R78): the counters, deviations and the averaging, offset and rate correction,
the time unit's states, the external reference. -/

namespace Sys2Proof.Machine

/-- 2.5 ns in units of 2^-32 ns (R55). -/
abbrev fabricClock : Int := 5 * 2 ^ 31

/-- One fabric clock of LTC and TTC: 2.5 ns, RATE_ADJ and the share of a correction (R55, R56, R66). While a core reset lasts the fabric PLL has
not locked, and LTC starts from zero after it (R444). The updates of the clock that ends are done (R7). -/
def State.clock (s : State) : State :=
  let s : State := { s with
    updates := [], sharedStores := [], thisClock := ⟨[], [], none⟩, proof := { s.proof with aborted := [] }
    softResets := s.softResets.filterMap fun x => if x.2 ≤ 1 then none else some (x.1, x.2 - 1) }
  if s.power.held then s
  else s.withTime fun t =>
    let slew := if t.slewLeft = 0 then 0 else t.slewPerClock
    { t with
      ltc := t.ltc + BitVec.ofInt 96 fabricClock
      ttc := t.ttc + BitVec.ofInt 96 (fabricClock + s.getInt TIME.RATE_ADJ + slew)
      slewLeft := t.slewLeft - 1 }

/-! Deviations and averaging. -/

/-- The node's own position on a line, 0 when it has none (R89). -/
def State.posOn (s : State) (l : Line) : Nat := s.get (GTB.FORM_STAT_POS l)

/-- The node's own position. -/
def State.position (s : State) : Nat := max (s.posOn .A) (s.posOn .B)

/-- The node UID (R4): the senior's UID on both chips of a pair. -/
def State.nodeUid (s : State) : Uid :=
  if s.twin && s.flag PWR.STRAP_TWIN_ID then Config.seniorUid else s.chipUid

/-- A sync node's value on a line is usable (R63). -/
def State.usable (s : State) (v : SyncValue) : Bool :=
  v.verified && v.fresh && !v.doubtful && v.record.loopValid && (v.direct.isSome || (s.lineOf v.line).loopPrev.isSome)

/-- The deviation of a sync node (R64), in 0.25 ns units; C division rounds towards zero. -/
def State.deviation (s : State) (v : SyncValue) : Int :=
  let x := s.lineOf v.line
  let own : Int := (x.loopPrev.getD 0 : Nat)
  let upstream := if s.posOn v.line = 0 || v.pos = 0 then v.upstream else decide (v.pos < s.posOn v.line)
  if let some d := v.direct then d
  else if upstream then
    stampDiff v.stamp (low32 (x.ownA.getD 0)) + Int.tdiv ((v.record.loop.toNat : Int) - own) 2
  else
    stampDiff v.stamp (low32 (x.ownB.getD 0)) + Int.tdiv ((v.record.loop.toNat : Int) + own) 2

/-- The writer is a sync node: by the layout, or by SYNC_SET on a node that does not hold it in full (R17). -/
def State.isSyncNode (s : State) (v : SyncValue) : Bool :=
  if s.forming.fullLayout then s.forming.syncSet.contains v.pos else v.record.syncSet

/-- The usable value of a sync node: line A's, or line B's while line A gives none; a twin chip has one line (R63). -/
def State.valueOf (s : State) (uid : Uid) : Option SyncValue :=
  let on (l : Line) := s.time.values.find? fun v => v.uid = uid && v.line = l && !v.single && s.usable v
  match s.served with
  | [l] => on l
  | _ => (on .A).or (on .B)

/-- The UIDs of the sync nodes heard in this cycle by slice, once each. -/
def State.syncUids (s : State) : List Uid :=
  ((s.time.values.filter fun v => !v.single && s.isSyncNode v).map fun v => v.uid).dedup

/-- Position and deviation of every other sync node with a usable value (R65), at most 15; while there is none, the value a forming tray
or a reverse copy gave (R96, R487). -/
def State.deviations (s : State) : List (Nat × Int) :=
  let slices := ((s.syncUids.filter fun u => u != s.nodeUid).filterMap fun u =>
    (s.valueOf u).map fun v => (v.pos, s.deviation v)).take 15
  if slices.isEmpty then (((s.time.values.filter fun v => v.single && s.usable v).map fun v => (v.pos, s.deviation v)).take 1)
  else slices

/-- The node is itself a sync node (R17). DESIGN CHOICE (log entry 142): a re-integrated node, which does not hold the layout in full, counts
itself as one when it has a position and is sync-eligible or the Starter. -/
def State.selfSync (s : State) : Bool :=
  if s.forming.fullLayout then s.forming.syncSet.contains s.position
  else s.position != 0 && (s.flag TIME.TIME_CTRL_SYNC_ELIG || s.flag TIME.TIME_STAT_STARTER)

/-- Ascending insertion by deviation, equal ones by position. -/
def insertDev (v : Nat × Int) : List (Nat × Int) → List (Nat × Int)
  | [] => [v]
  | w :: t => if v.2 < w.2 ∨ (v.2 = w.2 ∧ v.1 ≤ w.1) then v :: w :: t else w :: insertDev v t

/-- Values sorted ascending. -/
def sortDev (l : List (Nat × Int)) : List (Nat × Int) := l.foldr insertDev []

/-- How many values fall away at each end (R65). -/
def discarded (n : Nat) : Nat := if n ≤ 2 then 0 else if n ≤ 7 then 1 else 2

/-- The values kept of a sorted list (R65). -/
def keptOf (l : List (Nat × Int)) : List (Nat × Int) :=
  (l.drop (discarded l.length)).take (l.length - 2 * discarded l.length)

/-- The mean of the kept values rounded towards zero (R65). -/
def meanOf (l : List (Nat × Int)) : Int :=
  if l.isEmpty then 0 else Int.tdiv ((l.map Prod.snd).sum) l.length

/-- The node's own sync record of this cycle is usable: its slice is FRESH and not DOUBTFUL, and it measured its loop time (R62, R63). -/
def State.ownUsable (s : State) : Bool :=
  s.capture.kind = .fresh && !s.capture.doubtful && s.served.any fun l => (s.lineOf l).loopPrev.isSome

/-- EXT_STEP of the Starter's record when that record is usable (R65); on the Starter, its own. -/
def State.extStep (s : State) : Int :=
  if s.flag TIME.TIME_STAT_STARTER then (if s.ownUsable then s.time.extPublished else 0)
  else ((s.time.values.find? fun v => v.record.starter && s.usable v).map fun v => v.record.extStep.toInt).getD 0

/-- DEV of DEVm: a deviation that 24 bits do not hold has no stated value there and reads as a free value (log entry 131). -/
def State.showDev (s : State) (m : Nat) (v : Int) : State :=
  if decide (-2 ^ 23 ≤ v) && decide (v < 2 ^ 23) then s.setInt (TIME.DEV_DEV m) v
  else
    let (x, s) := s.draw
    s.set (TIME.DEV_DEV m) (x % 2 ^ 24)

/-- DEVm, COUNT and USED of an averaging (R86). -/
def State.showAverage (s : State) (sorted : List (Nat × Int)) : State :=
  let d := discarded sorted.length
  let s := (s.set TIME.TIME_STAT_COUNT sorted.length).set TIME.TIME_STAT_USED (sorted.length - 2 * d)
  s.each (List.range 15) fun m s =>
    match sorted[m]? with
    | some v =>
      (((s.setFlag (TIME.DEV_VALID m) true).setFlag (TIME.DEV_KEPT m) (d ≤ m && m < sorted.length - d)).set
        (TIME.DEV_POS m) v.1).showDev m v.2
    | none => (((s.set (TIME.DEV_VALID m) 0).set (TIME.DEV_KEPT m) 0).set (TIME.DEV_POS m) 0).set (TIME.DEV_DEV m) 0

/-! Offset and rate correction. -/

/-- The clamp of R65, in 0.25 ns units. -/
def State.limit (s : State) : Int := 4 * (s.precision : Int)

/-- Take `o` as the correction that the next tick starts (R65, R66): clamped to P, counted and raised when the clamp acts. -/
def State.takeCorrection (s : State) (o : Int) : State :=
  let exceeds := decide (s.limit < o ∨ o < -s.limit)
  let s := s.when exceeds fun s => (s.count TIME.OUT_PREC_CNT).raise .time 11
  s.withTime fun t => { t with
    correction := some (clampAbs s.limit o)
    outOfPrecisionRun := if exceeds then t.outOfPrecisionRun + 1 else 0 }

/-- R68's bookkeeping when the cycle ends for the time unit. -/
def State.closeInterval (s : State) (o : Option Int) : State :=
  s.withTime fun t => { t with
    accSum := t.accSum + o.getD 0
    accCount := t.accCount + (if o.isSome then 1 else 0)
    intervalCycles := t.intervalCycles + 1
    closedCycle := true }

/-- The rate step of R68 before the gain, in 2^-32 ns per fabric clock: `acc_sum * 2.5 * 2^32 / (acc_cnt * cycle_len_ns * 4)`, with the
rounding of an inexact quotient left free (log entry 10). -/
def State.rateDelta (s : State) : Int :=
  let num : Int := s.time.accSum * (5 * 2 ^ 32)
  let den : Int := (s.time.accCount * s.cycleLen * 8 : Nat)
  let q := Int.fdiv num den
  if q * den = num then q else if Config.rateRoundsUp num den then q + 1 else q

/-- R68's adjustment at the end of an interval. -/
def State.correctRate (s : State) : State :=
  let s :=
    if s.get TIME.RATE_CTRL_INTERVAL ≤ 2 * s.time.accCount then
      let raw := s.getInt TIME.RATE_ADJ + Int.fdiv s.rateDelta (2 ^ s.get TIME.RATE_CTRL_GAIN)
      let new := clampAbs 5368709 raw
      let s := s.when (raw != new) fun s => s.raise .time 12
      if s.time.returnEndSeen || s.time.returnClosed then s.withTime fun t => { t with rateNext := some new }
      else s.setInt TIME.RATE_ADJ new
    else s
  s.withTime fun t => { t with accSum := 0, accCount := 0, intervalCycles := 0 }

/-- RATE_CORRECTION: the interval has run (R68). -/
def execRateCorrection (s : State) : Host.Outcome State Fault Refusal :=
  .next (if s.get TIME.RATE_CTRL_INTERVAL ≤ s.time.intervalCycles then s.correctRate else s)

/-! States of the time unit (R69). -/

/-- A line enters PASSIVE (R90, R150). -/
def State.enterPassive (s : State) (l : Line) : State :=
  ((s.set (GTB.FORM_STAT_STATE l) lnPASSIVE).raise (.gtb l) 14).withLine l fun x =>
    { x with goodRun := 0, writing := false, actNext := false }

/-- The slice keys and the TGK are discarded (R391). -/
def State.dropKeys (s : State) : State :=
  (((s.set SEC.KEY_STAT_TGK 0).set SEC.KEY_STAT_CUR 0).set SEC.KEY_STAT_NEXT 0).withSec fun k =>
    { k with tgk := none, current := none, next := none, late := none }

/-- TIME_LOST: UNSYNC, and running lines go to PASSIVE (R69, R90). -/
def State.loseTime (s : State) : State :=
  let s := ((s.set TIME.TIME_STAT_STATE tmUNSYNC).raise .time 9).dropKeys
  s.each s.served fun l s =>
    if s.lineState l = lnRUN || s.lineState l = lnFORERUNNER then
      (s.enterPassive l).set (GTB.TRAY_STAT_ORIGIN l) 0
    else s

/-- Enter SYNC (R69). -/
def State.enterSync (s : State) : State :=
  if s.timeState = tmSYNC then s else (s.set TIME.TIME_STAT_STATE tmSYNC).raise .time 8

/-- Enter LEAD; without a train time TTC starts from TTC_INIT and the first tick is cycle 0 (R69). -/
def State.enterLead (s : State) : State :=
  let s := s.set TIME.TIME_STAT_STATE tmLEAD
  if s.valid then s
  else
    (s.setFlag TIME.TIME_STAT_VALID true).withTime fun t => { t with
      ttc := BitVec.ofNat 96 (s.get64 TIME.TTC_INIT_LO TIME.TTC_INIT_HI * 2 ^ 32)
      firstTick := true }

/-- A cycle with no usable value from another node (R69). -/
def State.missValues (s : State) : State :=
  if s.timeState = tmSYNC then
    ((s.set TIME.TIME_STAT_STATE tmHOLDOVER).raise .time 15).count TIME.HOLD_CNT |>.withTime fun t =>
      { t with holdoverRun := 1, outOfPrecisionRun := 0 }
  else if s.timeState = tmHOLDOVER then s.withTime fun t => { t with holdoverRun := t.holdoverRun + 1 }
  else s

/-- A cycle that ends at its tick without RETURN_END: no correction (R66, R68), while a value that a forming tray gave keeps or brings the unit
to SYNC (R69, R96). -/
def State.cycleWithoutCorrection (s : State) : State :=
  (if s.timeState = tmUNSYNC then s
   else if s.deviations.isEmpty then s.missValues
   else s.enterSync.withTime fun t => { t with holdoverRun := 0, outOfPrecisionRun := 0 }).closeInterval none

/-- EXT_VALID on a node that is not the Starter: the Starter's, as its record gives it (R75, R86); the Starter's own follows its PPS_IN. -/
def State.showExtValid (s : State) : State :=
  if s.flag TIME.TIME_STAT_STARTER then s
  else s.setFlag TIME.TIME_STAT_EXT_VALID (s.time.values.any fun v => v.record.starter && v.record.extValid && s.usable v)

/-- The averaging of RETURN_END, with the transitions of R69 that a cycle's values cause; in UNSYNC there is none but an adoption's. -/
def State.averageAtReturnEnd (s : State) : State :=
  let others := s.deviations
  let sorted := sortDev ((others ++ if s.selfSync then [(s.position, 0)] else []).take 15)
  if s.timeState = tmUNSYNC then s.closeInterval none
  else
    let s := s.when (!others.isEmpty || s.timeState = tmLEAD) fun s => s.showAverage sorted
    let o := meanOf (keptOf sorted) + s.extStep
    if others.isEmpty then
      if s.timeState = tmLEAD then (s.takeCorrection o).closeInterval (some o)
      else s.missValues.closeInterval none
    else
      let s := ((s.enterSync.withTime fun t => { t with holdoverRun := 0 }).takeCorrection o).closeInterval (some o)
      if s.time.outOfPrecisionRun = 3 then
        (s.withTime fun t => { t with outOfPrecisionRun := 0 }).loseTime
      else s

/-- HOLD_MAX_EXPIRY: HOLD_MAX cycles without a usable value (R69). -/
def execHoldMaxExpiry (s : State) : Host.Outcome State Fault Refusal :=
  .next (
    if s.timeState = tmHOLDOVER && s.get TIME.HOLD_MAX ≤ s.time.holdoverRun then
      if s.flag TIME.TIME_STAT_STARTER || s.served.any (fun l => s.lineState l == lnLONE) then
        s.set TIME.TIME_STAT_STATE tmLEAD
      else s.loseTime
    else s)

/-! Snapshots and the external reference. -/

/-- A snapshot of both counters (R57). -/
def State.snap (s : State) : State :=
  ((s.set64 TIME.SNAP_LTC_LO TIME.SNAP_LTC_HI s.ltcNs.toNat).set TIME.SNAP_LTC_FRAC (s.time.ltc.toNat % 2 ^ 32)).set64
    TIME.SNAP_TTC_LO TIME.SNAP_TTC_HI s.ttcNs.toNat

/-- SNAP. -/
def execSnap (s : State) : Host.Outcome State Fault Refusal := .next s.snap

/-- The node takes PPS_IN (R75). -/
def State.usesPps (s : State) : Bool :=
  s.flag TIME.TIME_CTRL_EXT_EN && s.flag TIME.TIME_STAT_STARTER && (s.timeState == tmLEAD || s.timeState == tmSYNC)

/-- TTC minus the nearest whole second, in ns (R75). -/
def secondError (ttc : BitVec 64) : Int :=
  let r := ttc.toNat % 1000000000
  if r < 500000000 then (r : Int) else -((1000000000 - r : Nat) : Int)

/-- PPS_EDGE: the error of an edge of the polarity set (R75); `rising` is the edge's direction. -/
def execPpsEdge (at_ : BitVec 64) (rising : Bool) (s : State) : Host.Outcome State Fault Refusal :=
  .next (
    if s.usesPps && rising != s.flag TIME.TIME_CTRL_PPS_POL then
      let e := secondError at_
      let s := s.setInt TIME.PPS_ERR e
      let run := if 4 * e.natAbs ≤ s.get TIME.EXT_MAX then s.time.ppsGoodRun + 1 else 0
      let s := s.withTime fun t => { t with ppsOutstanding := 4 * e, ppsGoodRun := run }
      s.when (decide (3 ≤ run)) fun s => s.setFlag TIME.TIME_STAT_EXT_VALID true
    else s)

/-- PPS_LOST: no edge for 3 s (R76). -/
def execPpsLost (s : State) : Host.Outcome State Fault Refusal :=
  .next (
    if s.flag TIME.TIME_STAT_STARTER then
      ((s.setFlag TIME.TIME_STAT_EXT_VALID false).raise .time 13).withTime fun t =>
        { t with ppsOutstanding := 0, ppsGoodRun := 0, extPublished := 0 }
    else s)

/-- The part of the outstanding error published in a cycle (R75). -/
def State.publishExt (s : State) : State :=
  if s.usesPps then
    let p := clampAbs (s.get TIME.EXT_MAX : Int) (-s.time.ppsOutstanding)
    s.withTime fun t => { t with extPublished := p, ppsOutstanding := t.ppsOutstanding + p }
  else s.withTime fun t => { t with extPublished := 0 }

end Sys2Proof.Machine
end

