-- ==== Sys2Proof/Machine/Cycle.lean ====
section
/-! DEFINITION. The cycle (spec/03_train_time.md R58, R79 to R85): phases, marks, the cycle length and what a tick does to them. -/

namespace Sys2Proof.Machine

/-- The node sends the tray of its line itself: origin, acting as origin, COLDSTART or LONE (R14, R81). -/
def State.sendsTray (s : State) (l : Line) : Bool :=
  s.flag (GTB.TRAY_STAT_ORIGIN l) || s.lineState l == lnCOLDSTART || s.lineState l == lnLONE

/-- A forerunner layout is in force (R118, R162). -/
def State.slotted (s : State) : Bool := s.forming.slotPlan != 0 && s.served.any fun l => s.flag (GTB.FORM_STAT_MODE l)

/-- TRAY's length in ns: TRAY_LEN, or the forerunner slots (R80, R162). -/
def State.trayLen (s : State) : Nat :=
  if s.slotted then
    s.get CYC.TX_OFFS + ((s.forming.layout.map fun y => y.nodes.length).getD 0) * s.forming.slotPlan
  else s.get CYC.TRAY_LEN

/-- Where IDLE starts in the cycle, in ns (R80); in a forerunner cycle that its slots do not leave IDLE_LEN of, right after TRAY (R162). -/
def State.idleStart (s : State) : Nat :=
  if s.slotted && decide (s.cycleLen < s.trayLen + s.get CYC.IDLE_LEN) then min s.trayLen s.cycleLen
  else s.cycleLen - s.get CYC.IDLE_LEN

/-- A line takes part in the cycle (R81). -/
def State.anyPartakes (s : State) : Bool := s.served.any fun l => (s.lineOf l).partakes

/-- CYC_STAT.PHASE (R80, R82, R87): 0 TRAY, 1 FREE, 2 IDLE, 3 no cycle. A cycle in which a line takes part stays in TRAY until RETURN_END;
one in which none takes part enters FREE at TRAY_LEN (log entry 20). No cycle until the first tick and while the chip holds no train time (R87). -/
def State.phase (s : State) : Nat :=
  if !(s.valid && s.time.running && s.time.ticked) then 3
  else if (s.idleStart : Int) ≤ s.sinceTick then 2
  else if s.sinceTick < s.trayLen then 0
  else if s.anyPartakes && !s.time.returnEndSeen then 0
  else 1

/-- The line handles trays numbered apart from the chip's own cycles, `ended` being the last of these: it listens to, integrates into or
inaugurates with a train whose train time the chip does not hold (R73). -/
def State.apart (s : State) (l : Line) (ended : Nat) : Bool :=
  [lnLISTEN, lnINTEGRATE, lnINAUGURATE].contains (s.lineState l) && (s.lineOf l).trayCycle.any fun c => c != ended

/-- The divisor of a mark: 0 means 1,024 (R83). -/
def markDiv (m : MarkCfg) : Nat := if m.div = 0 then 1024 else m.div

/-- The mark is selected in cycle `n` (R83). -/
def State.markSelected (s : State) (m : MarkCfg) (n : Nat) : Bool :=
  m.en && decide (m.phase < markDiv m) && n % markDiv m == m.phase && decide (m.offs < s.cycleLen)

/-- The marks' settings as the registers hold them. -/
def State.markSettings (s : State) : List MarkCfg :=
  (List.range 16).map fun m =>
    ⟨s.flag (CYC.CM_CTRL_EN m), s.get (CYC.CM_OFFS m), s.get (CYC.CM_CTRL_DIV m), s.get (CYC.CM_CTRL_PHASE m)⟩

/-- The length of a pulse in ns: WIDTH times 10, up to half the cycle (R84). -/
def State.pulseNs (s : State) : Nat := min (s.get CYC.OUT_CTRL_WIDTH * 10) (s.cycleLen / 2)

/-- CYC_TICK pulses when driven (R84). Pin 4 is CYC_TICK, pins 0 to 3 CYC_MARK[q]; the pulse is high unless the polarity is active low. -/
def State.pulseTick (s : State) : State :=
  s.when (s.flag CYC.OUT_CTRL_TICK_EN) fun s => s.emit (.pulse 4 s.pulseNs (!s.flag CYC.OUT_CTRL_TICK_POL))

/-- CYC_MARK[q] pulses for a mark routed to it (R84). -/
def State.pulseMark (s : State) (m : Nat) : State :=
  s.each (List.range 4) fun q s =>
    s.when (s.flag (CYC.MARK_ROUTE_EN q) && s.get (CYC.MARK_ROUTE_SEL q) == m) fun s =>
      s.emit (.pulse q s.pulseNs (!s.flag CYC.OUT_CTRL_MARK_POL))

/-- The cycle number, T0, the length, the settings and the counters of the new cycle (R58, R72, R79, R83). -/
def State.advanceCycle (s : State) : State :=
  let s :=
    if s.time.firstTick then
      let s := (s.set CYC.CYC_NUM 0).set64 CYC.T0_LO CYC.T0_HI s.ttcNs.toNat
      s.withTime fun t => { t with cycleLenK := t.cycleLenNext.getD t.cycleLenK, cycleLenNext := none }
    else
      let instant := s.tickNs + BitVec.ofNat 64 s.cycleLen
      let n := (s.cycle + 1) % 2 ^ 32
      let s := s.set CYC.CYC_NUM n
      match s.time.cycleLenNext with
      | some k =>
        let s := s.withTime fun t => { t with cycleLenK := k, cycleLenNext := none }
        s.set64 CYC.T0_LO CYC.T0_HI (instant - BitVec.ofNat 64 (n * s.cycleLen)).toNat
      | none => s.set64 CYC.T0_LO CYC.T0_HI (instant - BitVec.ofNat 64 (n * s.cycleLen)).toNat
  s.withTime fun t => { t with
    firstTick := false
    running := true
    ticked := true
    precision := s.get TIME.PREC_ASSUMED
    marks := s.markSettings
    marksFired := []
    marksTold := [] }

/-- The correction and the rate that take effect at the tick (R66, R68). -/
def State.startCorrection (s : State) : State :=
  let s := match s.time.rateNext with
    | some r => (s.setInt TIME.RATE_ADJ r).withTime fun t => { t with rateNext := none }
    | none => s
  match s.time.correction with
  | some o =>
    (s.setInt TIME.LAST_CORR o).withTime fun t => { t with
      slewPerClock := o * 2 ^ 20, slewLeft := 1024, correction := none }
  | none => s

/-- What the tick does to the time unit and the cycle. A cycle without RETURN_END ends here for the rate interval, unless a step abandoned
it (R68, R74). -/
def State.tickTime (s : State) : State :=
  let s := if s.time.closedCycle || s.time.abandoned || s.time.firstTick then s
    else s.cycleWithoutCorrection
  let s := s.advanceCycle.startCorrection.publishExt
  let s := (s.raise .cyc 8).pulseTick
  s.withTime fun t => { t with
    values := t.values.filter fun v => s.apart v.line ((s.cycle + 2 ^ 32 - 1) % 2 ^ 32), returnEndSeen := false, returnClosed := false, closedCycle := false }

/-- CYC_LEN.K (R79): only while both lines are OFF and in range; at the next tick while the chip holds a train time. -/
def State.writeCycLen (s : State) (k : Nat) : State :=
  if s.locked .cyc && k != s.get CYC.CYC_LEN_K then s.refuse .cyc
  else if !s.bothOff || k = 0 || 1024 < k then s.refuse .cyc
  else
    let s := s.when (k != s.get CYC.CYC_LEN_K) fun s => s.stampConfig .cyc
    let s := s.set CYC.CYC_LEN_K k
    if s.valid then s.withTime fun t => { t with cycleLenNext := some k }
    else s.withTime fun t => { t with cycleLenK := k, cycleLenNext := none }

/-- CYC_LEN_WRITE: the K a write brings. -/
def execCycLenWrite (k : BitVec 11) (s : State) : Host.Outcome State Fault Refusal := .next (s.writeCycLen k.toNat)

end Sys2Proof.Machine
end

