-- ==== Sys2Proof/Machine/Keys.lean ====
section
/-! DEFINITION. Slice keys and random values (spec/13_security.md R387 to R396; spec/05_the_tray.md R131, R135). -/

namespace Sys2Proof.Machine

/-! The random bit generator (R396). -/

/-- A crypto core is left to serve (R36, R395). -/
def State.cryptoUp (s : State) : Bool :=
  !s.sec.cryptoFailed.contains s.sec.cryptoServing
    && !(s.proof.maint.any fun m => m.target = 6 && m.index = s.sec.cryptoServing && m.run.ended != some 0)

/-- The generator serves a request: always while entropy is healthy, otherwise up to 2^20 requests after the last reseed, and never one that
asks for prediction resistance. -/
def State.drbgServes (s : State) (resist : Bool) : Bool :=
  s.cryptoUp && (s.flag SEC.TRNG_STAT_HEALTHY || (!resist && decide (s.get SEC.TRNG_STAT_REQS < 2 ^ 20) && s.flag SEC.TRNG_STAT_SERVING))

/-- One request: the value and the state after it, or `none` where the generator refuses. Healthy entropy reseeds after every 2^16 requests
and before every request with prediction resistance; after the last request that failed entropy leaves, the generator serves none. -/
def State.random (s : State) (resist : Bool) : Option (Nat × State) :=
  if s.drbgServes resist then
    let reseed := s.flag SEC.TRNG_STAT_HEALTHY && (resist || decide (2 ^ 16 ≤ s.get SEC.TRNG_STAT_REQS))
    let base := if reseed then s.set SEC.TRNG_STAT_REQS 0 else s
    let out := (base.count SEC.TRNG_STAT_REQS).withSec fun k => { k with drbgDraws := k.drbgDraws + 1 }
    some (Config.drbg s.sec.drbgDraws,
      out.when (!out.flag SEC.TRNG_STAT_HEALTHY && decide (2 ^ 20 ≤ out.get SEC.TRNG_STAT_REQS)) fun s => s.setFlag SEC.TRNG_STAT_SERVING false)
  else none

/-! Derived keys (R388). -/

/-- K_node(UID). -/
def nodeKey (fleet : BitVec 256) (uid : Uid) : BitVec 256 := Config.kdf fleet "GRF-NODE" (bytesBE 6 uid.toNat)

/-- K_slice(g) of an epoch. -/
def sliceKey (tgk : BitVec 256) (epoch : BitVec 16) (gen : Nat) : BitVec 128 :=
  (Config.kdf tgk "GRF-SLICE" (bytesBE 2 epoch.toNat ++ bytesBE 4 gen)).setWidth 128

/-- The node's own key, while slot 0x20 holds the fleet key. -/
def State.ownNodeKey (s : State) : Option (BitVec 256) := if s.cryptoUp then s.sec.fleet.map fun f => nodeKey f s.nodeUid else none

/-- The epoch for which the chip needs a slice key: FORM_EPOCH (R392). -/
def State.epoch (s : State) : BitVec 16 :=
  BitVec.ofNat 16 (s.get (GTB.FORM_EPOCH (s.served.headD .A)))

/-- The slice key in force for the chip's epoch (R392). -/
def State.sliceKeyNow (s : State) : Option (BitVec 128) :=
  if s.get SEC.KEY_EPOCH = s.epoch.toNat then s.sec.current else none

/-- KEY_STAT shows the slots that hold keys (R387). -/
def State.showKeys (s : State) : State :=
  (((s.setFlag SEC.KEY_STAT_FLEET s.sec.fleet.isSome).setFlag SEC.KEY_STAT_TGK s.sec.tgk.isSome).setFlag SEC.KEY_STAT_CUR
    s.sec.current.isSome).setFlag SEC.KEY_STAT_NEXT s.sec.next.isSome

/-! Slice tags (R135). -/

/-- The flags byte of a slice header (R127). -/
def SliceFlags.byte (f : SliceFlags) : Byte :=
  BitVec.ofNat 8 ([(f.fresh, 128), (f.hat, 64), (f.hold, 32), (f.doubtful, 16), (f.withdrawn, 8), (f.spare, 4), (f.claimed, 2)].foldl
    (fun a b => if b.1 then a + b.2 else a) 0)

/-- The 16 bytes of a slice header (R127). -/
def Slice.headerBytes (x : Slice) : List Byte :=
  bytesBE 6 x.uid.toNat ++ bytesBE 1 x.slot.toNat ++ [x.flags.byte] ++ bytesBE 2 x.seq.toNat ++ bytesBE 2 x.len.toNat
    ++ bytesBE 4 x.stamp.toNat

/-- The additional authenticated data: WITHDRAWN as 0, and the claim word of a SPARE slot as 8 zero bytes (R135). -/
def Slice.authBytes (x : Slice) : List Byte :=
  { x with flags := { x.flags with withdrawn := false } }.headerBytes
    ++ (if x.flags.spare then overlay (List.replicate 8 0) x.payload else x.payload)

/-- A copy is a placeholder: FRESH, HOLD and CLAIMED all clear (R130, R131). -/
def Slice.isPlaceholder (x : Slice) : Bool := !x.flags.fresh && !x.flags.hold && !x.flags.claimed

/-- The 96-bit nonce of a tag (R135). -/
def tagNonce (epoch : BitVec 16) (cycle : BitVec 32) (slot : BitVec 7) (l : Line) (placeholder : Bool) (gen : BitVec 32) : BitVec 96 :=
  BitVec.ofNat 96 (natOfBE (bytesBE 2 epoch.toNat ++ bytesBE 4 cycle.toNat ++ bytesBE 1 slot.toNat
    ++ bytesBE 1 (128 * lineBit l + if placeholder then 64 else 0) ++ bytesBE 4 gen.toNat))

/-- The tag of a slice on a line in the cycle of the line's trays (R135, R136). -/
def State.tagOf (s : State) (key : BitVec 128) (l : Line) (x : Slice) : BitVec 64 :=
  Config.gmac key (tagNonce s.epoch (BitVec.ofNat 32 ((s.lineOf l).trayCycle.getD s.cycle)) x.slot l x.isPlaceholder (BitVec.ofNat 32 (s.get SEC.KEY_GEN))) x.authBytes

/-- The tag checks, or AUTH is clear (R131, R137, R147). -/
def State.tagGood (s : State) (auth : Bool) (l : Line) (x : Slice) : Bool :=
  if auth then
    match s.sliceKeyNow with
    | some k => x.tag == s.tagOf k l x
    | none => false
  else true

/-- The chip reads slices: it holds the key, or AUTH is clear (R392). -/
def State.mayRead (s : State) (auth : Bool) : Bool := !auth || s.sliceKeyNow.isSome

/-- A slice with its tag: computed while AUTH is set and a key is held, zero otherwise (R130, R136). -/
def State.tagged (s : State) (auth : Bool) (l : Line) (x : Slice) : Slice :=
  match auth, s.sliceKeyNow with
  | true, some k => { x with tag := s.tagOf k l x }
  | _, _ => { x with tag := 0 }

/-! What a tick does to the keys (R390, R391). -/

/-- The pipelines hold no slice key, and none is derived (R394). -/
def State.clearSliceKeys (s : State) : State :=
  (s.withSec fun x => { x with current := none, next := none, late := none }).showKeys

/-- The first data cycle of an epoch: its generation is 0 from this tick, and the next key becomes current and KEY_EPOCH shows the epoch where it
is of this epoch (R390); a key of an epoch before is no longer current (R392). -/
def State.takeEpochKey (s : State) (epoch : BitVec 16) : State :=
  let s := (s.set SEC.KEY_GEN 0).withSec fun x => { x with rolled := true }
  match s.sec.next.filter fun _ => s.sec.nextEpoch = epoch with
  | some k => (((s.withSec fun x => { x with current := some k, next := none }).set SEC.KEY_EPOCH epoch.toNat).raise .sec 10).showKeys
  | none => s.clearSliceKeys

/-- A key unwrapped after the first data tick becomes current at the next tick, in the generation that is in force there (R390, R391). -/
def State.takeLateKey (s : State) : State :=
  match s.sec.late, s.sec.tgk with
  | some _, some t =>
    (((s.withSec fun x => { x with current := some (sliceKey t s.epoch (s.get SEC.KEY_GEN)), late := none }).set SEC.KEY_EPOCH
      s.epoch.toNat).raise .sec 10).showKeys
  | _, _ => s

/-- The key of the next generation is derived at the tick one cycle before the roll-over tick, unless the next key of a new epoch waits (R391; log
entry 192). -/
def State.deriveRoll (s : State) : State :=
  match s.sec.tgk, s.sec.current, s.sec.next with
  | some t, some _, none =>
    let e := BitVec.ofNat 16 (s.get SEC.KEY_EPOCH)
    if (s.cycle + 1) % 2 ^ 30 = 0 then
      (s.withSec fun x => { x with next := some (sliceKey t e (s.get SEC.KEY_GEN + 1)), nextEpoch := e }).showKeys
    else s
  | _, _, _ => s

/-- The slice key that the generation after the present one has: the one derived, or where it is not at hand, from the TGK (R391). -/
def State.rollOver (s : State) (e : BitVec 16) : Option (BitVec 128) :=
  match s.sec.next.filter fun _ => s.sec.nextEpoch = e with
  | some k => some k
  | none => s.sec.tgk.map fun t => sliceKey t e (s.get SEC.KEY_GEN + 1)

/-- KEY_ROLL: at a tick whose cycle number is a multiple of 2^30 the generation advances and its key becomes current, once (R391). The next key of a
new epoch stays. -/
def State.rollKey (s : State) : State :=
  if s.sec.tgk.isSome && s.time.running && s.cycle % 2 ^ 30 = 0 && !s.sec.rolled then
    let e := BitVec.ofNat 16 (s.get SEC.KEY_EPOCH)
    (((s.withSec fun x => { x with
      current := s.rollOver e, next := x.next.filter fun _ => x.nextEpoch != e, rolled := true }).set SEC.KEY_GEN
        (s.get SEC.KEY_GEN + 1)).raise .sec 11).showKeys
  else s

/-- KEY_ROLL. -/
def execKeyRoll (s : State) : Host.Outcome State Fault Refusal := .next s.rollKey

end Sys2Proof.Machine
end

