-- ==== Sys2Proof/Machine/Layout.lean ====
section
/-! DEFINITION. The slice layout (spec/04_forming_the_train.md R108; spec/05_the_tray.md R162; spec/06_the_loaf.md R175) and the sync set
(spec/01_train_model.md R17). -/

namespace Sys2Proof.Machine

/-- Place slots in frames: the running frame, offset and bank offset (R108). -/
def placeSlots (auth : Bool) : List (Nat × Uid × Nat) → Nat → Nat → Nat → List LayoutSlot
  | [], _, _, _ => []
  | (slot, uid, pay) :: t, frame, used, bank =>
    let len := 16 + pay + if auth then 8 else 0
    if 2000 < used + len + 4 then
      ⟨slot, uid, pay, frame + 1, 30, bank⟩ :: placeSlots auth t (frame + 1) (30 + len) (bank + pay)
    else ⟨slot, uid, pay, frame, used, bank⟩ :: placeSlots auth t frame (used + len) (bank + pay)

/-- The frames a placement uses. -/
def framesOf (l : List LayoutSlot) : Nat := l.foldl (fun m x => max m (x.frame + 1)) 1

/-- Positions 1 to n and crumb slots 65 on, with the payloads that `limit` leaves (R108). -/
def slotRequests (nodes : List DiscRecord) (crumbs crumbPay limit : Nat) : List (Nat × Uid × Nat) :=
  (List.range nodes.length).zip nodes |>.map (fun x => (x.1 + 1, x.2.uid, min x.2.pay.toNat limit))
    |>.append ((List.range crumbs).map fun c => (65 + c, 0, crumbPay))

/-- A build of the layout in frames (R108). -/
def buildLayout (auth : Bool) (nodes : List DiscRecord) (crumbs crumbPay limit : Nat) : List LayoutSlot :=
  placeSlots auth (slotRequests nodes crumbs crumbPay limit) 0 38 0

/-- Cut payloads by 8 until the layout fits in 32 frames (R108). -/
def fitLayout (auth : Bool) (nodes : List DiscRecord) (crumbs crumbPay : Nat) : Nat → Nat → List LayoutSlot
  | 0, limit => buildLayout auth nodes crumbs crumbPay limit
  | fuel + 1, limit =>
    let l := buildLayout auth nodes crumbs crumbPay limit
    if framesOf l ≤ 32 then l else fitLayout auth nodes crumbs crumbPay fuel (limit - 8)

/-- The layout of a final list with the Starter's settings (R108): as configured, then without crumb slots, then with payloads cut. -/
def computeLayout (epoch : BitVec 16) (nodes : List DiscRecord) (f : FormingBlock) : Layout :=
  let crumbs := if framesOf (buildLayout f.auth nodes f.crumbCnt.toNat f.crumbPay.toNat 1928) ≤ 32 then f.crumbCnt.toNat else 0
  let slots := fitLayout f.auth nodes crumbs f.crumbPay.toNat 240 1928
  ⟨epoch, nodes, crumbs, f.auth, framesOf slots, slots⟩

/-- F of a forerunner layout: the largest wire time in ns (R162). -/
def slotWireTime (pays : List Nat) : Nat := pays.foldl (fun m p => max m ((14 + 16 + 12 + 16 + p + 4 + 20) * 8)) 0

/-- S: the forerunner slot length in ns (R162). -/
def slotLength (pays : List Nat) (precision : Nat) : Nat := 40 * ((slotWireTime pays + 2500 + 2 * precision + 39) / 40)

/-- The largest payload limit at which the slot plan fits the cycle (R162). -/
def fitSlots (txOffs idle cycleLen precision n : Nat) (pays : List Nat) : Nat → Nat → Nat
  | 0, limit => limit
  | fuel + 1, limit =>
    if txOffs + n * slotLength (pays.map (min limit)) precision + idle ≤ cycleLen then limit
    else fitSlots txOffs idle cycleLen precision n pays fuel (limit - 8)

/-- The forerunner layout: one slot per position, no tags, no crumb slots (R118, R162). The INDEX of a slot frame is its frame. -/
def forerunnerLayout (epoch : BitVec 16) (nodes : List DiscRecord) (limit : Nat) : Layout :=
  let slots := (placeSlots false (slotRequests nodes 0 0 limit) 0 0 0).map fun x => { x with frame := x.slot - 1, offs := 42 }
  ⟨epoch, nodes, 0, false, nodes.length, slots⟩

/-- The slot of the layout. -/
def Layout.find (y : Layout) (slot : Nat) : Option LayoutSlot := y.slots.find? fun x => x.slot = slot

/-- The position of a UID in a list of records, from 1; 0 when absent. -/
def positionIn (nodes : List DiscRecord) (uid : Uid) : Nat :=
  match nodes.findIdx? fun r => r.uid = uid with
  | some i => i + 1
  | none => 0

/-- The sync nodes of a layout: the sync-eligible nodes at the lowest positions, at most 15, and always the Starter (R17). -/
def syncSetOf (nodes : List DiscRecord) (starter : Uid) : List Nat :=
  let elig := ((List.range nodes.length).zip nodes |>.filter (fun x => x.2.syncElig) |>.map (fun x => x.1 + 1)).take 15
  let p := positionIn nodes starter
  if p = 0 || elig.contains p then elig
  else if elig.length < 15 then insertNat p elig else insertNat p (elig.take 14)

/-- LAYOUT_STAT and LAYOUT_Ss of a line (R166). -/
def State.showLayout (s : State) (l : Line) : State :=
  match s.forming.layout with
  | none => s
  | some y =>
    let s := ((s.set (GTB.LAYOUT_STAT_NODES l) y.nodes.length).set (GTB.LAYOUT_STAT_FRAMES l) y.frames).set
      (GTB.LAYOUT_STAT_CRUMBS l) y.crumbs
    s.each ((List.range 73).filter fun i => i != 0 && i != 64) fun i s =>
      match y.find i with
      | some x => ((s.set (GTB.LAYOUT_S_FRAME l i) x.frame).set (GTB.LAYOUT_S_OFFS l i) x.offs).set (GTB.LAYOUT_S_PAY l i) x.pay
      | none => ((s.set (GTB.LAYOUT_S_FRAME l i) 0).set (GTB.LAYOUT_S_OFFS l i) 0).set (GTB.LAYOUT_S_PAY l i) 0

/-- The node's own slot number in the layout: its position, or 64 + c in a crumb slot; 0 when it has none (R127). -/
def State.ownSlot (s : State) : Nat :=
  if s.position != 0 then s.position
  else
    let c := max (s.get (GTB.FORM_STAT_CRUMB .A)) (s.get (GTB.FORM_STAT_CRUMB .B))
    if c = 0 then 0 else 64 + c

/-- The layout slot the node writes. -/
def State.ownLayoutSlot (s : State) : Option LayoutSlot := s.forming.layout.bind fun y => y.find s.ownSlot

end Sys2Proof.Machine
end

