-- ==== Sys2Proof/Machine/Hat.lean ====
section
/-! DEFINITION. What every block needs of the twin block (spec/11_twin_pairs.md R321 to R337): messages to the peer, the hat state, READY, announced
handovers and the merge records. -/

namespace Sys2Proof.Machine

/-- TWIN_STAT.HAT_STATE (R332). -/
def State.hat (s : State) : Nat := s.get TWIN.TWIN_STAT_HAT_STATE

/-- The line the chip of a pair serves (R321). -/
def State.twinLine (s : State) : Line := if s.flag TWIN.TWIN_CTRL_LINE then .B else .A

/-- The junior chip of the pair: TWIN_ID = 1 (R321, R350). -/
def State.junior (s : State) : Bool := s.flag PWR.STRAP_TWIN_ID

/-- The Lorzel link is up on some lane (R331, R370). -/
def State.lorzelUp (s : State) : Bool := s.get TWIN.TWIN_STAT_LANES_UP != 0

/-- L: the larger of the chip's own LEASE and the LEASE in the last RENEW it granted (R329). -/
def State.leaseSpan (s : State) : Nat := max (s.get TWIN.LEASE_CFG_LEASE) s.twinUnit.peerLease

/-- GUARD (R329). -/
def State.guardSpan (s : State) : Nat := s.get TWIN.LEASE_CFG_GUARD

/-- How many cycles cycle `n` lies after `m`, modulo 2^32. -/
def cyclesAfter (n : Nat) (m : BitVec 32) : Int := (BitVec.ofNat 32 n - m).toInt

/-- EPOCH_AGE at cycle `n` (R341). -/
def State.epochAge (s : State) (n : Nat) : Nat :=
  match s.twinUnit.committed with
  | some e => min 255 (BitVec.ofNat 32 n - e.num).toNat
  | none => 255

/-- Causes 0x1 to 0x5 of R330, which the start-up count needs: the first that fails, 0 where none does. -/
def State.chipUnable (s : State) : Nat :=
  if s.quarantined s.twinLine then 1
  else if s.flag CHIP.CH_MODE_LOCK_LOST then 2
  else if s.flag PWR.SUP_STAT_BO_ACTIVE then 3
  else if !s.valid then 4
  else if !([lnRUN, lnLONE, lnFORERUNNER].contains (s.lineState s.twinLine)) then 5
  else 0

/-- The first cause of R330 that fails at cycle `n`. -/
def State.unable (s : State) (n : Nat) : Nat :=
  let c := s.chipUnable
  if c != 0 then c
  else if !s.twinUnit.headOk then 6
  else if s.hat = hatSTANDBY && !(s.twinUnit.committed.any fun e => e.topo = s.epoch && s.epochAge n ≤ s.leaseSpan + s.guardSpan + 2) then 7
  else 0

/-- READY, UNABLE and EPOCH_AGE as of cycle `n` (R330, R341). -/
def State.refreshTwinAt (s : State) (n : Nat) : State :=
  if s.twin then
    ((s.set TWIN.TWIN_STAT_UNABLE (s.unable n)).setFlag TWIN.TWIN_STAT_READY (s.unable n = 0)).set TWIN.TWIN_STAT_EPOCH_AGE (s.epochAge n)
  else s

def State.refreshTwin (s : State) : State := s.refreshTwinAt s.cycle

/-- The common header of a message (R325). -/
def State.twinHeader (s : State) : TwinHeader :=
  ⟨s.junior, s.unable s.cycle = 0, BitVec.ofNat 3 s.hat, s.hat == hatWEARING && s.twinUnit.released, s.epoch⟩

/-! Link frames sent (R371, R372). -/

/-- The link block runs. -/
def State.linkOn (s : State) : Bool := s.live .lzl && s.flag LZL.LZL_CTRL_EN

/-- The class of a frame's contents. -/
def LinkPayload.cls : LinkPayload → Nat
  | .twin _ (.epochHead _ _ _) | .twin _ (.epochCommit _ _) | .epochData _ => 2
  | .twin _ _ => 1
  | .copy _ => 3
  | .forming _ => 4
  | .request _ => 5
  | .response _ _ => 6
  | .reserved => 0

/-- The SEQ of the next frame of a class. -/
def State.linkSeq (s : State) (cls : Nat) : BitVec 16 := ((s.bridges.outSeq.find? fun e => e.1 = cls).map Prod.snd).getD 0

/-- Frames leave the link: a lane is up. -/
def State.linkSends (s : State) : Bool := s.linkOn && !s.failSilent && s.lorzelUp

/-- Send a link frame: on both lanes for the replicated classes. -/
def State.sendLink (s : State) (p : LinkPayload) (tag : BitVec 16) : State :=
  s.when s.linkSends fun s =>
    let q := s.linkSeq p.cls
    ({ s with bridges := { s.bridges with outSeq := s.bridges.outSeq.filter (fun (e : Nat × BitVec 16) => e.1 != p.cls) ++ [(p.cls, q + 1)] } }).emit
      (.linkFrame ⟨true, s.junior, p.cls = 1 || p.cls = 4, q, tag, p⟩)

/-- Cut bytes into parts of at most `k`, with their offsets. -/
def cutBytes (k : Nat) (bs : List Byte) : List (Nat × List Byte) :=
  (List.range ((bs.length + k - 1) / k)).map fun i => (k * i, (bs.drop (k * i)).take k)

/-- Send a message over the Lorzel link (R325). -/
def State.sendTwin (s : State) (m : TwinMsg) : State :=
  s.when (s.twin && s.mayTransmit .twin) fun s => s.sendLink (.twin s.twinHeader m) 0

/-- Change the hat state with what R332 counts and raises; `n` is the cycle of the change. A chip that enters STANDBY holds its dough image
unsure (R335). -/
def State.setHat (s : State) (st n : Nat) : State :=
  let was := s.hat
  let s := s.set TWIN.TWIN_STAT_HAT_STATE st
  let s := s.when (st = hatWEARING && was != hatWEARING) fun s =>
    (((((s.count TWIN.CLAIM_CNT).set TWIN.HAT_SEQ (s.get TWIN.HAT_SEQ + 1)).raise .twin 8).set TWIN.HAT_CYCLE n).withTwin fun t =>
      { t with released := false, blocked := false, handoverAt := none, unready := false, acked := false })
  let s := s.when (was = hatWEARING && st != hatWEARING) fun s =>
    (((s.raise .twin 9).set TWIN.HAT_CYCLE n).setFlag TWIN.TWIN_STAT_PEER_LOST false).withTwin fun t =>
      { t with released := false, handoverAt := none, blocked := false, acked := false }
  s.when (st = hatSTANDBY && was != hatSTANDBY) fun s => s.withTwin fun t =>
    { t with unsure := true, refreshRun := 0, cutRecord := none }

/-- HAT_OUT inactive (R333, R345). -/
def State.dropHatOut (s : State) : State := (s.set TWIN.TWIN_STAT_HAT_OUT 0).withTwin fun t => { t with outgoing := none }

/-! Announced handovers (R334). -/

/-- The cause for which a wearer hands over, if one stands. -/
def State.handoverCause (s : State) : Option Nat :=
  if s.flag TWIN.TWIN_CTRL_HANDOVER then some 1
  else if s.quarantined s.twinLine then some 2
  else if s.flag CHIP.CH_MODE_LOCK_LOST then some 3
  else if s.flag PWR.SUP_STAT_BO_LONG then some 4
  else none

/-- The first tick at least 10 µs ahead. -/
def State.handoverTick (s : State) : Nat :=
  if s.sinceTick + 10000 ≤ s.cycleLen then s.cycle + 1 else s.cycle + 2

/-- Send HANDOVER, or find it blocked, while a cause stands and none is under way. -/
def State.tryHandover (s : State) (h : Nat) : State :=
  match s.handoverCause with
  | none => s
  | some cause =>
    if !(s.twin && s.hat = hatWEARING && s.twinUnit.handoverAt.isNone) then s
    else if s.twinUnit.unready || s.flag TWIN.TWIN_STAT_PEER_LOST then
      if s.twinUnit.blocked then s
      else ((s.count TWIN.HANDOVER_BLOCKED_CNT).raise .twin 13).withTwin fun t => { t with blocked := true }
    else
      (s.sendTwin (.handover (BitVec.ofNat 32 h) (BitVec.ofNat 8 cause))).withTwin fun t =>
        { t with handoverAt := some (BitVec.ofNat 32 h), acked := false, blocked := false }

/-! Merge records (R335). -/

/-- The model address of a channel's dough image. -/
def doughAddr (c : Line) : Nat := 0x10080000 + lineBit c * 0x100000

/-- The channel whose dough the chip uses (R180). -/
def State.doughChannel (s : State) : Line :=
  match s.served with
  | [l] => l
  | _ => if s.quarantined .A then .B else .A

/-- Runs of consecutive numbers in an ascending list as start and count, cut into records of at most 496 bytes. -/
def recordsOf (enabled : List Nat) : List (Nat × Nat) :=
  let step (acc : List (Nat × Nat)) (i : Nat) : List (Nat × Nat) :=
    match acc with
    | (b, n) :: r => if b + n = i && n < 496 then (b, n + 1) :: r else (i, 1) :: (b, n) :: r
    | [] => [(i, 1)]
  (enabled.foldl step []).reverse

/-- One MERGE record. -/
def State.sendMerge (s : State) (offs n : Nat) (refresh : Bool) : State :=
  let s := s.withTwin fun t => { t with mseqOut := t.mseqOut + 1 }
  s.sendTwin (.merge s.twinUnit.mseqOut (BitVec.ofNat 16 offs) refresh (s.flag (LOAF.DOUGH_STAT_READY .A))
    (s.flag (LOAF.DOUGH_STAT_DOUBTFUL_REQ .A)) (s.bytes (doughAddr s.doughChannel + offs) n))

/-- A refresh: the whole image in four records, at most once a cycle. -/
def State.sendRefresh (s : State) : State :=
  if s.twinUnit.refreshed then s
  else ([(0, 496), (496, 496), (992, 496), (1488, 440)].foldl (fun s x => s.sendMerge x.1 x.2 true) s).withTwin fun t =>
    { t with refreshed := true }

end Sys2Proof.Machine
end

