-- ==== Sys2Proof/Machine/Loaf.lean ====
section
/-! DEFINITION. The Loaf (spec/06_the_loaf.md R167 to R193): banks, slot selection, commits, pins, dough and drafts. -/

namespace Sys2Proof.Machine

/-! Model addresses of the channel's memories (spec/02_inside_the_device.md R51). -/

/-- The payload area of a bank. -/
def bankAddr (c : Line) (b : Nat) : Nat := 0x10000000 + lineBit c * 0x100000 + b * 0x10000

/-- The hold copy and the drafts of a channel. -/
def holdAddr (c : Line) : Nat := doughAddr c + 0x1000
def draftAddr (c : Line) (d : Nat) : Nat := doughAddr c + 0x8000 + d * 0x1000

/-! Directory entries. -/

/-- Status codes of the directory (R174). -/
abbrev stNONE : Nat := 0
abbrev stVERIFIED : Nat := 1
abbrev stPROVISIONAL : Nat := 2
abbrev stSTALE : Nat := 3
abbrev stREJECTED : Nat := 4
abbrev stMISSING : Nat := 5
abbrev stABSENT : Nat := 6
abbrev stEMPTY : Nat := 7

def noFlags : SliceFlags := ⟨false, false, false, false, false, false, false⟩

/-- A bank of a channel. -/
def State.bank (s : State) (c : Line) (b : Nat) : Bank := (s.loafOf c).banks.getD b Bank.reset

def State.withBank (s : State) (c : Line) (b : Nat) (f : Bank → Bank) : State :=
  s.withLoaf c fun x => { x with banks := modifyAt x.banks b f }

/-- The forming bank's index (R193). -/
def State.formingBank (s : State) (c : Line) : Nat := s.get (LOAF.BANK_STAT_FORMING c)

/-- The entry of a slot. -/
def Bank.entry (b : Bank) (slot : Nat) : Option Entry := b.entries.find? fun e => e.slot = slot

def Bank.setEntry (b : Bank) (slot : Nat) (f : Entry → Entry) : Bank :=
  { b with entries := b.entries.map fun e => if e.slot = slot then f e else e }

/-- The status of a slot in the forming bank. -/
def State.slotStatus (s : State) (c : Line) (slot : Nat) : Nat :=
  (((s.bank c (s.formingBank c)).entry slot).map Entry.status).getD stNONE

/-- The channels whose Loafs the chip fills (R46, R47, R168): both, unless a channel is quarantined. -/
def State.channels (s : State) : List Line := [Line.A, Line.B].filter fun c => !s.quarantined c

/-- PROV_EN as it governs a channel: LOAF_A's in LOCKED mode (R186). -/
def State.provEn (s : State) (c : Line) : Bool := s.flag (LOAF.LOAF_CTRL_PROV_EN (if s.lockedMode then .A else c))

/-- The status a provisional read of a slot returns, `st` being the bank's: PROVISIONAL reads as EMPTY with PROV_EN = 0 (R186). -/
def State.maskProv (s : State) (c : Line) (st : Nat) : Nat := if st = stPROVISIONAL && !s.provEn c then stEMPTY else st

/-- The slot holds data for a provisional read (R186). -/
def holdsData (st : Nat) : Bool := st = stPROVISIONAL || st = stVERIFIED || st = stSTALE

/-! Slot selection (R147). -/

/-- The copy held for a slot: the first that arrived and has not turned bad. -/
def heldCopy (copies : List Copy) (slot : Nat) : Option Copy :=
  copies.find? fun c => c.slot = slot && c.judged != .bad

/-- Copies in ascending slot, as what befalls several in one clock is taken (R237). -/
def inSlotOrder (copies : List Copy) : List Copy := (List.range 73).flatMap fun i => copies.filter fun c => c.slot = i

/-- The position is PRESENT on some line (R25). -/
def State.presentOn (s : State) (l : Line) (p : Nat) : Bool :=
  bitOf (s.get64 (GTB.PRES_LO l) (GTB.PRES_HI l)) p

def State.present (s : State) (p : Nat) : Bool :=
  s.presentOn .A p || s.presentOn .B p

/-- The status the copies give a slot while the cycle runs (R147). -/
def runningStatus (copies : List Copy) (slot : Nat) : Nat :=
  match heldCopy copies slot with
  | some c =>
    match c.judged with
    | .pending => stPROVISIONAL
    | _ => if c.slice.flags.fresh then stVERIFIED else stSTALE
  | none => stEMPTY

/-- The writer of a slot is sync- or Starter-eligible (R62): by this node's own settings, by the discovery record of a position, and otherwise as
it is set there. DESIGN CHOICE (log entry 144): the manual does not say how a node learns the settings of a latecomer, or of any writer after a
re-integration. -/
def State.eligibleWriter (s : State) (slot : Nat) (uid : Uid) : Bool :=
  if uid = s.nodeUid then s.flag TIME.TIME_CTRL_SYNC_ELIG || s.get (GTB.FORM_CFG_START_ELIG .A) == 1
  else if s.forming.fullLayout && slot < 64 then
    (s.forming.layout.bind fun y => y.nodes[slot - 1]?).any fun r => r.syncElig || r.startElig
  else Config.eligible uid

/-- The bytes of a copy as they enter the bank: a sync- or Starter-eligible writer's record reads 0 (R132). -/
def State.bankBytes (s : State) (c : Copy) : List Byte :=
  if s.eligibleWriter c.slot c.slice.uid then overlay (List.replicate (min 8 c.slice.payload.length) 0) c.slice.payload else c.slice.payload

/-- Restore a slot's carried payload from LATEST, or zeros in the first cycle of an epoch (R172). -/
def State.restoreCarried (s : State) (ch : Line) (x : LayoutSlot) : State :=
  let dst := bankAddr ch (s.formingBank ch) + x.bankOffs
  if s.flag (LOAF.BANK_STAT_LATEST_VALID ch) && !(s.bank ch (s.formingBank ch)).first then
    s.copyRange (bankAddr ch (s.get (LOAF.BANK_STAT_LATEST ch)) + x.bankOffs) dst x.pay
  else s.clearRange dst x.pay

/-- Write what the copies give a slot into the forming bank of a channel (R172, R174). -/
def State.refreshSlot (s : State) (slot : Nat) (ch : Line) : State :=
  match s.forming.layout.bind fun y => y.find slot with
  | none => s
  | some x =>
    let b := s.formingBank ch
    let goodOn (l : Line) := s.selection.copies.any fun c => c.slot = slot && c.line = l && c.judged = .good
    match heldCopy s.selection.copies slot with
    | some c =>
      let s := s.withBank ch b fun k => k.setEntry slot fun e => { e with
        uid := if c.slice.flags.spare then 0 else c.slice.uid
        status := runningStatus s.selection.copies slot
        lineA := goodOn .A
        lineB := goodOn .B
        flags := { c.slice.flags with withdrawn := false }
        seq := if c.slice.isPlaceholder then e.seq else c.slice.seq }
      if c.slice.flags.fresh || c.slice.flags.hold then
        s.setBytes (bankAddr ch b + x.bankOffs) (fit x.pay (s.bankBytes c))
      else s.restoreCarried ch x
    | none =>
      (s.withBank ch b fun k => k.setEntry slot fun e => { e with status := stEMPTY, lineA := false, lineB := false }).restoreCarried ch x

/-- After a change of copies: the slot in every channel's forming bank, and the record that it was PROVISIONAL (R148). -/
def State.reselect (s : State) (slot : Nat) : State :=
  let s := s.each s.channels fun ch s => s.refreshSlot slot ch
  s.when (runningStatus s.selection.copies slot = stPROVISIONAL) fun s =>
    { s with selection := { s.selection with provisional := insertNat slot s.selection.provisional } }

/-! Drafts. -/

def State.draft (s : State) (c : Line) (d : Nat) : Draft := (s.loafOf c).drafts.getD d Draft.reset

def State.withDraft (s : State) (c : Line) (d : Nat) (f : Draft → Draft) : State :=
  s.withLoaf c fun x => { x with drafts := modifyAt x.drafts d f }

/-- The page that counts a draft's events: LOAF_A for drafts 0 to 3, the channel's own for 4 to 7 (R180). -/
def draftPage (c : Line) (d : Nat) : Line := if d < 4 then .A else c

/-- The channels that hold a draft: host drafts are kept in both (R180). -/
def draftChannels (c : Line) (d : Nat) : List Line := if d < 4 then [.A, .B] else [c]

/-- DOUGH_STAT's draft bits, the same in both pages (R180): bit d of either channel. -/
def State.showDrafts (s : State) : State :=
  let bits (st : DraftState) :=
    (List.range 8).foldl (fun v d => withBit v d ((s.draft .A d).state = st || (s.draft .B d).state = st)) 0
  s.each [Line.A, Line.B] fun c s =>
    (s.set (LOAF.DOUGH_STAT_DRAFT_OPEN c) (bits .opened)).set (LOAF.DOUGH_STAT_DRAFT_PEND c) (bits .pending)

/-- Close a draft. -/
def State.closeDraft (s : State) (c : Line) (d : Nat) : State :=
  (s.each (draftChannels c d) fun k s => s.withDraft k d fun _ => Draft.reset).showDrafts

/-- DRAFT_ERR (R181). -/
def State.draftError (s : State) (p : Line) : State := (s.count (LOAF.DRAFT_ERR_CNT p)).raise (.loaf p) 10

/-- READY and DOUBTFUL_REQ in both pages (R180, R183). -/
def State.setReady (s : State) (b : Bool) : State :=
  (s.setFlag (LOAF.DOUGH_STAT_READY .A) b).setFlag (LOAF.DOUGH_STAT_READY .B) b

def State.setDoubtfulReq (s : State) (b : Bool) : State :=
  (s.setFlag (LOAF.DOUGH_STAT_DOUBTFUL_REQ .A) b).setFlag (LOAF.DOUGH_STAT_DOUBTFUL_REQ .B) b

/-- Merge a draft's enabled bytes into the dough image of both channels and apply READY and DOUBTFUL (R180, R183). A chip of a pair forwards the
merge while it wears the hat, and lets nothing reach the image while it does not (R335). -/
def State.mergeDraft (s : State) (c : Line) (d : Nat) : State :=
  if s.owns then
    let x := s.draft c d
    let s := s.each x.enabled fun i s =>
      s.each [Line.A, Line.B] fun k s => s.setByte (doughAddr k + i) (s.byte (draftAddr c d + i))
    let s := s.when (x.ready || s.flag (LOAF.LOAF_CTRL_AUTO_READY .A)) fun s => s.setReady true
    let s := s.when x.doubtful fun s => s.setDoubtfulReq true
    s.when s.twin fun s => s.each (recordsOf x.enabled) fun r s => s.sendMerge r.1 r.2 false
  else s.count TWIN.MERGE_SUPPRESS_CNT

/-- DRAFT_OPEN (R181). -/
def State.openDraft (s : State) (c : Line) (d : Nat) : State :=
  if (s.draft c d).state = .pending then s.count (LOAF.DRAFT_ERR_CNT (draftPage c d))
  else (s.each (draftChannels c d) fun k s => s.withDraft k d fun _ => { Draft.reset with state := .opened }).showDrafts

/-- DRAFT_COMMIT; `sources` are the PROVISIONAL slots the draft's data was derived from (R181, R187). -/
def State.commitDraft (s : State) (c : Line) (d : Nat) (ready doubtful : Bool) (sources : List Nat) (role : Option Nat) : State :=
  match (s.draft c d).state with
  | .closed => s.draftError (draftPage c d)
  | .pending => s.count (LOAF.DRAFT_ERR_CNT (draftPage c d))
  | .opened =>
    let s := s.each (draftChannels c d) fun k s => s.withDraft k d fun x =>
      { x with ready := ready, doubtful := doubtful, role := role }
    if sources.isEmpty then (s.mergeDraft c d).closeDraft c d
    else
      (s.each (draftChannels c d) fun k s => s.withDraft k d fun x =>
        { x with state := .pending, provisional := true, sources := sources }).showDrafts

/-- DRAFT_ABORT (R181). -/
def State.abortDraft (s : State) (c : Line) (d : Nat) : State :=
  match (s.draft c d).state with
  | .closed => s.draftError (draftPage c d)
  | .pending => s.count (LOAF.DRAFT_ERR_CNT (draftPage c d))
  | .opened => s.closeDraft c d

/-- A data write to a draft (R181). -/
def State.writeDraft (s : State) (c : Line) (d : Nat) (bytes : List (Nat × Byte)) : State :=
  match (s.draft c d).state with
  | .closed => s.draftError (draftPage c d)
  | .pending => s.count (LOAF.DRAFT_ERR_CNT (draftPage c d))
  | .opened =>
    let kept := bytes.filter fun b => b.1 < 1928
    s.each (draftChannels c d) fun k s =>
      (s.each kept fun b s => s.setByte (draftAddr k d + b.1) b.2).withDraft k d fun x =>
        { x with enabled := kept.foldl (fun m b => insertNat b.1 m) x.enabled }

/-- Drafts PENDING against withdrawn slots are discarded (R181, R187). -/
def State.withdrawDrafts (s : State) (slot : Nat) : State :=
  s.each [Line.A, Line.B] fun c s =>
    s.each (List.range 8) fun d s =>
      let x := s.draft c d
      if x.state = .pending && x.sources.contains slot && (c = .A || 4 ≤ d) then
        (((s.closeDraft c d).count (LOAF.DRAFT_WITHDRAWN_CNT (draftPage c d))).raise (.loaf (draftPage c d)) 12)
      else s

/-- Every draft PENDING is discarded (R181, R190). -/
def State.discardPending (s : State) : State :=
  s.each [Line.A, Line.B] fun c s =>
    s.each (List.range 8) fun d s =>
      if (s.draft c d).state = .pending && (c = .A || 4 ≤ d) then
        (((s.closeDraft c d).count (LOAF.DRAFT_WITHDRAWN_CNT (draftPage c d))).raise (.loaf (draftPage c d)) 12)
      else s

/-- Clocks 33 to 39: drafts PENDING merge in ascending draft index, channel A first (R170, R181, R183). -/
def State.mergePending (s : State) : State :=
  s.each (List.range 8) fun d s =>
    s.each [Line.A, Line.B] fun c s =>
      if (s.draft c d).state = .pending && (c = .A || 4 ≤ d) then (s.mergeDraft c d).closeDraft c d else s

/-- DRAFT_EXPIRED: a draft open for DRAFT_TMO cycles is discarded (R181). -/
def State.expireDraft (s : State) (c : Line) (d : Nat) : State :=
  if (s.draft c d).state = .opened && s.get (LOAF.LOAF_CTRL_DRAFT_TMO (draftPage c d)) ≤ (s.draft c d).age then
    ((s.closeDraft c d).count (LOAF.DRAFT_EXPIRED_CNT (draftPage c d))).raise (.loaf (draftPage c d)) 11
  else s

/-- Open drafts age by a cycle. -/
def State.ageDrafts (s : State) : State :=
  s.each [Line.A, Line.B] fun c s =>
    s.withLoaf c fun x => { x with drafts := x.drafts.map fun d => if d.state = .opened then { d with age := d.age + 1 } else d }

/-! Commits. -/

/-- The status a slot ends with (R147): a position ABSENT on both lines is ABSENT whatever arrived; a crumb slot without a copy is MISSING when the
last copy held in the epoch carried CLAIMED. -/
def State.endStatus (s : State) (slot : Nat) (last : SliceFlags) : Nat :=
  if slot < 64 && !s.present slot then stABSENT
  else match runningStatus s.selection.copies slot with
  | 2 => stREJECTED
  | 7 =>
    if s.selection.copies.any fun c => c.slot = slot then stREJECTED
    else if 64 < slot && !last.claimed then stABSENT
    else stMISSING
  | x => x

/-- The final status of a slot: as it stood when the verdicts of the cycle became final (R149). -/
def State.finalStatus (s : State) (slot : Nat) (last : SliceFlags) : Nat :=
  match s.selection.statuses.find? fun x => x.1 = slot with
  | some x => x.2
  | none => s.endStatus slot last

/-- The status of a forming entry: the bank's while the cycle runs, the final one after it (R147, R149). -/
def State.formStatus (s : State) (e : Entry) : Nat := if s.selection.final then s.finalStatus e.slot e.flags else e.status

/-- The committed entry of a final status (R172, R173). DESIGN CHOICE (log entry 173): a HOLD slice of a slot with AGE 255 leaves AGE at 255, and its
payload stands. -/
def commitEntry (e : Entry) (st : Nat) : Entry :=
  if e.flags.spare && (st = stSTALE || st = stVERIFIED) then { e with status := stABSENT, uid := 0, age := 255 }
  else if 64 < e.slot && st = stABSENT then { e with status := stABSENT, uid := 0, age := 255 }
  else if st = stVERIFIED then { e with status := st, age := 0 }
  else { e with status := st, age := if e.age = 255 then 255 else min 254 (e.age + 1) }

/-- The Loaf commits at this tick (R169). -/
def State.loafCommits (s : State) : Bool :=
  s.valid && s.served.any fun l =>
    [lnRUN, lnPASSIVE, lnINAUGURATE, lnLONE, lnFORERUNNER].contains (s.lineState l)

/-- Bits of the positions whose entries satisfy a test (R174). -/
def mapOf (b : Bank) (p : Entry → Bool) : Nat :=
  b.entries.foldl (fun v e => if e.slot < 64 && p e then v ||| 2 ^ e.slot else v) 0

/-- An empty entry of a layout slot (R172, R174). -/
def freshEntry (x : LayoutSlot) (old : Option Entry) : Entry :=
  match old with
  | some e => { e with status := stEMPTY, lineA := false, lineB := false, uid := x.uid, len := x.pay, offs := x.bankOffs }
  | none => ⟨x.slot, x.uid, stEMPTY, false, false, noFlags, 0, x.pay, x.bankOffs, 255⟩

/-- Prepare a forming bank: carried forward from LATEST within an epoch, zero-filled for its first data cycle or after reset (R172). -/
def State.initForming (s : State) (c : Line) (b : Nat) : State :=
  let y := s.forming.layout
  let old := s.bank c (s.get (LOAF.BANK_STAT_LATEST c))
  let keep := !(s.loafOf c).anew && s.flag (LOAF.BANK_STAT_LATEST_VALID c)
  let s := s.withBank c b fun _ => { Bank.reset with
    first := !keep
    nodes := (y.map fun y => y.nodes.length).getD 0
    crumbs := (y.map Layout.crumbs).getD 0
    entries := (y.map fun y => y.slots.map fun x => freshEntry x (if keep then old.entry x.slot else none)).getD [] }
  if keep then s.copyRange (bankAddr c (s.get (LOAF.BANK_STAT_LATEST c))) (bankAddr c b) 0x10000
  else s.clearRange (bankAddr c b) 0x10000

/-- The index the next forming bank takes: the lowest not held (R171). -/
def freeBank (latest : Nat) (previous pinned : Option Nat) : Nat :=
  (lowest 4 fun b => b != latest && some b != previous && some b != pinned).getD 0

/-- The final verdicts as the forming bank commits them: a crumb slot not claimed holds zeros, and a position ABSENT on both lines what it held before,
whatever arrived (R172). The bank belongs to the epoch that was current at its tick (R21). The header fields are written here, at the commit, and read
0 before it: DESIGN CHOICE (log entry 174). -/
def State.closeBank (s : State) (c : Line) : State :=
  let b := s.formingBank c
  let k := s.bank c b
  let s := s.each k.entries fun e s =>
    let st := s.finalStatus e.slot e.flags
    let e' := commitEntry e st
    let s := s.withBank c b fun x => x.setEntry e.slot fun _ => e'
    if 64 < e.slot && e'.status = stABSENT then s.clearRange (bankAddr c b + e.offs) e.len
    else if e'.status = stABSENT then
      match s.forming.layout.bind fun y => y.find e.slot with
      | some x => s.restoreCarried c x
      | none => s
    else s
  let before := (s.bank c (s.get (LOAF.BANK_STAT_LATEST c))).epoch
  s.withBank c b fun x => { x with
    cycle := BitVec.ofNat 32 s.cycle
    epoch := if (s.loafOf c).anew && !k.first then before else s.epoch
    valid := true
    mode := s.flag (GTB.FORM_STAT_MODE (s.served.headD .A))
    lone := s.served.any fun l => s.lineState l == lnLONE
    commitTtc := s.tickNs + BitVec.ofNat 64 s.cycleLen }

/-- A slot committed MISSING that was VERIFIED or STALE before (R193). -/
def slotLost (old new : Bank) : Bool :=
  new.entries.any fun e => e.status = stMISSING &&
    ((old.entry e.slot).any fun o => o.status = stVERIFIED || o.status = stSTALE)

/-- Rotation of a channel's banks (R171) with COMMIT, EPOCH_FIRST and SLOT_MISSING (R193). Once the first bank of an epoch is committed, the next one
carries it forward. -/
def State.rotate (s : State) (c : Line) : State :=
  let s := s.closeBank c
  let done := s.formingBank c
  let s := s.when (s.bank c done).first fun s => s.withLoaf c fun x => { x with anew := false }
  let hadLatest := s.flag (LOAF.BANK_STAT_LATEST_VALID c)
  let prev := s.get (LOAF.BANK_STAT_LATEST c)
  let lost := hadLatest && slotLost (s.bank c prev) (s.bank c done)
  let s := (s.set (LOAF.BANK_STAT_PREVIOUS c) (if hadLatest then prev else 0)).setFlag (LOAF.BANK_STAT_PREV_VALID c) hadLatest
  let s := (s.set (LOAF.BANK_STAT_LATEST c) done).setFlag (LOAF.BANK_STAT_LATEST_VALID c) true
  let s := (s.set (LOAF.LATEST_CYCLE c) (s.bank c done).cycle.toNat).set (LOAF.LATEST_EPOCH c) (s.bank c done).epoch.toNat
  let pin := if s.flag (LOAF.BANK_STAT_PIN_VALID c) then some (s.get (LOAF.BANK_STAT_PINNED c)) else none
  let next := freeBank done (if hadLatest then some prev else none) pin
  let s := ((s.set (LOAF.BANK_STAT_FORMING c) next).setFlag (LOAF.BANK_STAT_FORM_VALID c) true).initForming c next
  let s := s.raise (.loaf c) 8
  let s := s.when (s.bank c done).first fun s => s.raise (.loaf c) 15
  s.when lost fun s => s.raise (.loaf c) 14

/-- Write every copy held into the forming bank of a channel (R172). -/
def State.fillForming (s : State) (c : Line) : State := s.each (s.selection.copies.map Copy.slot) fun i s => s.refreshSlot i c

/-- An epoch begins (R20, R21): no bank committed before belongs to it, whatever number it bears. -/
def State.beginEpoch (s : State) : State := s.each [Line.A, Line.B] fun c s => s.withLoaf c fun x => { x with anew := true }

/-- The Loaf forms its first bank (R169, R172); a Loaf that resumes within a cycle takes up the copies the cycle has brought. -/
def State.startForming (s : State) (c : Line) : State :=
  if s.flag (LOAF.BANK_STAT_FORM_VALID c) then s
  else ((s.setFlag (LOAF.BANK_STAT_FORM_VALID c) true).initForming c (s.formingBank c)).fillForming c

/-- Exactly one bank forms while the Loaf commits (R169): a Loaf that begins to commit within a cycle forms one at once. -/
def State.startLoafs (s : State) : State :=
  s.when s.loafCommits fun s => s.each (s.channels.filter fun c => s.live (.loaf c)) fun c s => s.startForming c

/-- COMMIT_SKIP: at a step the forming bank is discarded and prepared again, and PENDING drafts fall (R190). -/
def State.stepLoaf (s : State) : State :=
  let s := s.discardPending
  let s := { s with selection := Selection.reset }
  s.each s.channels fun c s =>
    ((s.count (LOAF.COMMIT_SKIP_CNT c)).raise (.loaf c) 13).when (s.flag (LOAF.BANK_STAT_FORM_VALID c)) fun s =>
      s.initForming c (s.formingBank c)

/-! Pins (R176). -/

def State.showPin (s : State) (c : Line) : State :=
  let b := s.bank c (s.get (LOAF.BANK_STAT_PINNED c))
  if s.flag (LOAF.BANK_STAT_PIN_VALID c) then (s.set (LOAF.PIN_CYCLE c) b.cycle.toNat).set (LOAF.PIN_EPOCH c) b.epoch.toNat
  else (s.set (LOAF.PIN_CYCLE c) 0).set (LOAF.PIN_EPOCH c) 0

/-- Release the pin. -/
def State.unpin (s : State) (c : Line) : State :=
  ((s.set (LOAF.BANK_STAT_PIN_VALID c) 0).set (LOAF.BANK_STAT_PINNED c) 0).showPin c

/-- Pin the bank in a role, or release the pin where the role has none. -/
def State.pin (s : State) (c : Line) (valid bank : Reg) : State :=
  if s.flag valid then ((s.setFlag (LOAF.BANK_STAT_PIN_VALID c) true).set (LOAF.BANK_STAT_PINNED c) (s.get bank)).showPin c
  else s.unpin c

/-- PIN_LATEST. -/
def execPinLatest (c : Line) (s : State) : Host.Outcome State Fault Refusal :=
  .next (if s.powered (.loaf c) then s.pin c (LOAF.BANK_STAT_LATEST_VALID c) (LOAF.BANK_STAT_LATEST c) else s)

/-- PIN_PREVIOUS. -/
def execPinPrevious (c : Line) (s : State) : Host.Outcome State Fault Refusal :=
  .next (if s.powered (.loaf c) then s.pin c (LOAF.BANK_STAT_PREV_VALID c) (LOAF.BANK_STAT_PREVIOUS c) else s)

/-- UNPIN. -/
def execUnpin (c : Line) (s : State) : Host.Outcome State Fault Refusal :=
  .next (if s.powered (.loaf c) then s.unpin c else s)

/-! Directory pages as bytes (R174). -/

/-- The 16 bytes of an entry. -/
def Entry.toBytes (e : Entry) : List Byte :=
  bytesBE 6 e.uid.toNat
    ++ [BitVec.ofNat 8 (e.status * 32 + (if e.lineA then 16 else 0) + if e.lineB then 8 else 0), e.flags.byte]
    ++ bytesBE 2 e.seq.toNat ++ bytesBE 2 e.len ++ bytesBE 2 e.offs ++ [BitVec.ofNat 8 e.age, BitVec.ofNat 8 e.slot]

/-- The 64-byte bank header. -/
def Bank.headerBytes (b : Bank) (index : Nat) : List Byte :=
  bytesBE 4 b.cycle.toNat ++ bytesBE 2 b.epoch.toNat
    ++ [BitVec.ofNat 8 ((if b.valid then 128 else 0) + (if b.mode then 64 else 0) + (if b.lone then 32 else 0) + if b.first then 16 else 0),
        BitVec.ofNat 8 b.nodes, BitVec.ofNat 8 b.crumbs, BitVec.ofNat 8 index]
    ++ List.replicate 6 0 ++ bytesBE 8 b.commitTtc.toNat
    ++ bytesBE 8 (mapOf b fun e => e.status = stVERIFIED)
    ++ bytesBE 8 (mapOf b fun e => e.status = stVERIFIED || e.status = stSTALE)
    ++ bytesBE 8 (mapOf b fun e => e.status = stMISSING)
    ++ bytesBE 8 (mapOf b fun e => e.status = stABSENT)
    ++ bytesBE 8 (mapOf b fun e => e.status = stREJECTED)

/-- A byte of a directory page: header, positions from 0x040, crumb slots from 0x440. -/
def Bank.dirByte (b : Bank) (index off : Nat) : Byte :=
  if off < 64 then (b.headerBytes index).getD off 0
  else if off < 0x430 then ((b.entry ((off - 64) / 16 + 1)).map fun e => e.toBytes.getD (off % 16) 0).getD 0
  else if 0x440 ≤ off && off < 0x4C0 then ((b.entry ((off - 0x440) / 16 + 65)).map fun e => e.toBytes.getD (off % 16) 0).getD 0
  else 0

/-! The slice cut (R184, R185). -/

/-- The node is in hold (R185): a step abandoned the cycle before, or the twin block places it in a gap (R333). -/
def State.inHold (s : State) : Bool := s.flag (LOAF.DOUGH_STAT_HOLD .A)

def State.setHold (s : State) (b : Bool) : State :=
  (s.setFlag (LOAF.DOUGH_STAT_HOLD .A) b).setFlag (LOAF.DOUGH_STAT_HOLD .B) b

/-- R128's causes for DOUBTFUL other than the dough: a brown-out in the cycle or in progress (R438), LOCK_LOST (R50) on a single node, and
open engine debug (R398). -/
def State.doubtfulCause (s : State) : Bool :=
  s.flag PWR.SUP_STAT_BO_ACTIVE || s.brownoutMark || (s.flag CHIP.CH_MODE_LOCK_LOST) || bitOf (s.get SEC.DBG_STAT_PERM) 0

/-- The payload length the node captures: LEN, or CRUMB_CFG.PAY in a crumb slot (R184). -/
def State.captureLen (s : State) : Nat :=
  match s.ownLayoutSlot with
  | some x => x.pay
  | none => s.get (GTB.FORM_CFG_SLICE_PAY .A)

/-- The outcome of CUT (R184). -/
def State.cut (s : State) : State :=
  let c := s.doughChannel
  let n := s.captureLen
  let twinHat := s.twin && s.owns
  if s.inHold then
    if s.holdCopy.valid then
      let s := { s with capture := ⟨.hold, s.bytes (holdAddr c) n, s.holdCopy.doubtful || s.doubtfulCause, twinHat,
        BitVec.ofNat 16 (s.get (LOAF.DOUGH_SEQ .A)), true, false⟩ }
      s.each [Line.A, Line.B] fun k s => s.set (LOAF.DOUGH_LEN k) n
    else { s with capture := ⟨.none, [], false, twinHat, 0, true, false⟩ }
  else if s.flag (LOAF.DOUGH_STAT_READY .A) then
    let s := { s with capture := ⟨.fresh, s.bytes (doughAddr c) n,
      s.flag (LOAF.DOUGH_STAT_DOUBTFUL_REQ .A) || s.doubtfulCause, twinHat,
      s.nextSeq, true, false⟩ }
    let s := (s.setReady false).setDoubtfulReq false
    s.each [Line.A, Line.B] fun k s => s.set (LOAF.DOUGH_LEN k) n
  else
    let s := { s with capture := ⟨.none, [], false, twinHat, 0, true, false⟩ }
    (((s.setReady false).setDoubtfulReq false).count (LOAF.CUT_NOT_READY_CNT .A)).raise (.loaf .A) 9

/-- What every CUT leaves: LAST_FRESH tells what it captured (R193), and a brown-out warning has had its slice (R438). -/
def State.endCut (s : State) : State :=
  let s := { s with brownoutMark := false }
  s.each [Line.A, Line.B] fun k s => s.setFlag (LOAF.DOUGH_STAT_LAST_FRESH k) (s.capture.kind = .fresh)

/-- The captured FRESH slice has been written on a line: the hold copy, SEQ and DOUGH_SEQ advance once (R128, R184). -/
def State.noteWritten (s : State) : State :=
  if s.capture.kind = .fresh && !s.capture.written then
    let s := { s with
      capture := { s.capture with written := true }
      holdCopy := ⟨true, s.capture.doubtful, s.capture.payload.length⟩
      nextSeq := s.capture.seq + 1 }
    s.each [Line.A, Line.B] fun k s =>
      (s.setBytes (holdAddr k) s.capture.payload).set (LOAF.DOUGH_SEQ k) s.capture.seq.toNat
  else s

/-- A node in LONE writes its capture into its own slot of the forming bank (R191), as a copy of each line in LONE (log entry 159). -/
def State.writeLone (s : State) : State :=
  match s.capture.kind, s.ownLayoutSlot with
  | .none, _ => s
  | _, none => s
  | k, some x =>
    let flags : SliceFlags := { noFlags with
      fresh := k = .fresh, hold := k = .hold, hat := s.capture.hat, doubtful := s.capture.doubtful }
    let slice : Slice := ⟨s.nodeUid, BitVec.ofNat 7 x.slot, flags, s.capture.seq, BitVec.ofNat 16 x.pay, 0, s.capture.payload, 0⟩
    let lone := s.served.filter fun l => s.lineState l == lnLONE
    let s := { s with selection := { s.selection with copies := s.selection.copies ++ lone.map fun l => (⟨x.slot, l, slice, .good⟩ : Copy) } }
    (s.reselect x.slot).noteWritten

end Sys2Proof.Machine
end

