-- ==== Sys2Proof/Machine/Objects.lean ====
section
/-! DEFINITION. Field objects (spec/07_kneaders.md R201 to R206, R216 to R219; spec/10_can_fd_and_mvb.md R296, R297, R305, R306, R313;
spec/09_ethernet_ports_and_switch.md R276): where an object's data lies, STAGE and LIVE, flips and resyncs. -/

namespace Sys2Proof.Machine

/-! Field memories. -/

def canRam (c : Nat) : Nat := 0x6E0000 + 0x4000 * c
def canBuf (c b : Nat) : Nat := canRam c + 160 * b
def canCfg (c b : Nat) : Nat := canRam c + 0x3C00 + 16 * b
def canFifo (c f i : Nat) : Nat := canRam c + (if f = 0 then 0x2800 else 0x3200) + 80 * i
def mvbRam (j : Nat) : Nat := 0x640000 + 0x8000 * j
def mvbData (j e : Nat) : Nat := mvbRam j + 64 * e
def mvbCfg (j e : Nat) : Nat := mvbRam j + 0x4000 + 16 * e
def trdpTx (e : Nat) : Nat := 0x698000 + 64 * e
def trdpRx (e : Nat) : Nat := 0x6A0000 + 32 * e
def trdpPool : Nat := 0x700000

/-- Engine shared memory of a channel (R231), which holds LIVE of engine objects; their STAGE has no address in the map (log entry 30). -/
def sharedMem : Line → Nat
  | .A => 0x280000
  | .B => 0x480000
def sharedStage : Line → Nat
  | .A => 0x30000000
  | .B => 0x30100000

/-- A big-endian number of `n` bytes in memory. -/
def State.beNat (s : State) (a n : Nat) : Nat := natOfBE (s.bytes a n)

/-- A word with byte 0 in bits 31:24 (R296). -/
def State.beWord (s : State) (a : Nat) : Nat := s.beNat a 4
def State.setBeWord (s : State) (a v : Nat) : State := s.setBytes a (bytesBE 4 v)

/-! CAN and MVB configuration entries. -/

def State.canWord (s : State) (c b w : Nat) : Nat := s.beWord (canCfg c b + 4 * w)
def State.canEn (s : State) (c b : Nat) : Bool := bitOf (s.canWord c b 0) 31
def State.canTx (s : State) (c b : Nat) : Bool := s.canEn c b && bitOf (s.canWord c b 0) 30
def State.canRx (s : State) (c b : Nat) : Bool := s.canEn c b && !bitOf (s.canWord c b 0) 30

/-- Data length of a 3-bit code (R297). -/
def canLen (code : Nat) : Nat := [8, 12, 16, 20, 24, 32, 48, 64].getD (code % 8) 8
def State.canDataLen (s : State) (c b : Nat) : Nat := canLen (s.canWord c b 0 / 2 ^ 26)

def State.mvbWord (s : State) (j e w : Nat) : Nat := s.beWord (mvbCfg j e + 4 * w)
def State.mvbDir (s : State) (j e : Nat) : Nat := s.mvbWord j e 0 / 2 ^ 29 % 4
def State.mvbFcode (s : State) (j e : Nat) : Nat := s.mvbWord j e 0 / 2 ^ 26 % 8
def State.mvbAddr (s : State) (j e : Nat) : Nat := s.mvbWord j e 0 % 2 ^ 12
def State.mvbEn (s : State) (j e : Nat) : Bool := bitOf (s.mvbWord j e 0) 31

/-- The port size of an F-code: 2, 4, 8, 16 or 32 bytes (R312). -/
def mvbSize (fcode : Nat) : Nat := if fcode ≤ 4 then 2 ^ (fcode + 1) else 0

/-- A TRDP transmit entry's fields (R276). -/
def State.trdpTxLen (s : State) (e : Nat) : Nat := min 1432 (s.beNat (trdpTx e + 20) 2)
def State.trdpLiveSel (s : State) (e : Nat) : Bool := bitOf (s.byte (trdpTx e)).toNat 1
def State.trdpBuf (s : State) (e : Nat) (second : Bool) : Nat :=
  trdpPool + 64 * (s.beNat (trdpTx e + 22) 2 + if second then (s.trdpTxLen e + 63) / 64 else 0)

/-! Objects (R201). Spaces: 1 LOAF_UID, 2 LOAF_SLOT, 3 CAN, 4 MVB, 5 TRDP, 6 ENG, 7 DOUGH. -/

def canObj (c b : Nat) : Obj := ⟨3, c * 256 + b, .A⟩
def mvbObj (j e : Nat) : Obj := ⟨4, j * 256 + e, .A⟩
def trdpObj (e : Nat) : Obj := ⟨5, e, .A⟩

/-- The data length of a destination object (R201). -/
def State.objLen (s : State) (o : Obj) : Nat :=
  match o.space with
  | 3 => s.canDataLen (o.id / 256) (o.id % 64)
  | 4 => mvbSize (s.mvbFcode (o.id / 256) (o.id % 256))
  | 5 => s.trdpTxLen o.id
  | 6 => min 8192 (0x40000 - 64 * o.id)
  | _ => 0

/-- Where a destination object's STAGE data lies. -/
def State.objStage (s : State) (o : Obj) : Nat :=
  match o.space with
  | 3 => canBuf (o.id / 256) (o.id % 64) + 16
  | 4 => mvbData (o.id / 256) (o.id % 256)
  | 5 => s.trdpBuf o.id (!s.trdpLiveSel o.id)
  | _ => sharedStage o.chan + 64 * o.id

/-- Pairs (STAGE, LIVE, size) of an object's two buffers. TS of a CAN buffer stays with LIVE (R296). -/
def State.objParts (s : State) (o : Obj) : List (Nat × Nat × Nat) :=
  match o.space with
  | 3 =>
    let a := canBuf (o.id / 256) (o.id % 64)
    [(a, a + 80, 8), (a + 16, a + 96, 64)]
  | 4 => let a := mvbData (o.id / 256) (o.id % 256); [(a, a + 32, 32)]
  | 5 => [(s.trdpBuf o.id (!s.trdpLiveSel o.id), s.trdpBuf o.id (s.trdpLiveSel o.id), s.trdpTxLen o.id)]
  | _ => [(sharedStage o.chan + 64 * o.id, sharedMem o.chan + 64 * o.id, s.objLen o)]

/-- The record of a WRITTEN object, if it is (R216). -/
def State.stagedOf (s : State) (o : Obj) : Option Staged := s.staged.find? fun x => x.obj = o

/-- Mark an object WRITTEN, with the job that wrote it, or the channel whose engine did. -/
def State.markWritten (s : State) (o : Obj) (prov : Bool) (writer : Option Writer) (engine : Option Line) : State :=
  match s.stagedOf o with
  | some _ => { s with staged := s.staged.map fun x =>
      if x.obj = o then { x with
        prov := x.prov || prov
        writers := (x.writers.filter fun y => writer.all fun w => !(y.chan == w.chan && y.job == w.job)) ++ writer.toList
        engines := x.engines ++ (engine.toList.filter fun w => !x.engines.contains w) }
      else x }
  | none => { s with staged := s.staged ++ [⟨o, prov, writer.toList, engine.toList⟩] }

def State.clearWritten (s : State) (o : Obj) : State := { s with staged := s.staged.filter fun x => x.obj != o }

/-- A resync: LIVE over STAGE, WRITTEN cleared (R216). -/
def State.resync (s : State) (o : Obj) : State :=
  (s.each (s.objParts o) fun p s => s.copyRange p.2.1 p.1 p.2.2).clearWritten o

/-! CAN transmit requests (R306, R310). -/

def State.withCan (s : State) (c : Nat) (f : CanBus → CanBus) : State := { s with canBus := modifyAt s.canBus c f }

def State.txPending (s : State) (c : Nat) : Nat := s.get64 (CAN.TX_REQ_LO c) (CAN.TX_REQ_HI c)
def State.setTxPending (s : State) (c v : Nat) : State := s.set64 (CAN.TX_REQ_LO c) (CAN.TX_REQ_HI c) v

/-- Set a transmit request: `auto` for a periodic or on-flip one. Setting it clears STATUS. -/
def State.canRequest (s : State) (c b : Nat) (auto : Bool) : State :=
  if !s.canTx c b then s
  else if s.flag (CAN.CAN_STAT_LISTEN_ACT c) then (if auto then s else s.count (CAN.LISTEN_TX_CNT c))
  else if auto && bitOf (s.txPending c) b then s.count (CAN.PERIOD_SKIP_CNT c)
  else (s.setTxPending c (withBit (s.txPending c) b true)).setBeWord (canCfg c b + 12) 0

/-- Before a flip at `at_`: the LIVE element of a transmit buffer, for a frame started before the flip (R217, R305). Those of a buffer without a
request have served. -/
def State.keepFormer (s : State) (o : Obj) (at_ : BitVec 64) : State :=
  let (c, b) := (o.id / 256, o.id % 64)
  if o.space = 3 then
    let pends := bitOf (s.txPending c) b
    s.withCan c fun k => { k with former :=
      (k.former.filterMap fun x => if x.buffer = b then (if pends then some { x with early := false } else none) else some x)
        ++ [⟨b, at_, s.bytes (canBuf c b + 80) 80, false⟩] }
  else s

/-- A flip of a WRITTEN object (R217): STAGE becomes LIVE, and the former LIVE is resynced; a CAN buffer with TRIG on flip requests
transmission (R306). `at_` is the flip's instant. -/
def State.flip (s : State) (o : Obj) (at_ : BitVec 64) : State :=
  match s.stagedOf o with
  | none => s
  | some _ =>
    if o.space = 5 then
      let a := trdpTx o.id
      let t := s.setByte a (BitVec.ofNat 8 (withBit (s.byte a).toNat 1 (!s.trdpLiveSel o.id)))
      t.resync o
    else
      let s := (s.keepFormer o at_).each (s.objParts o) fun p s => s.copyRange p.1 p.2.1 p.2.2
      let s := s.clearWritten o
      if o.space = 3 && bitOf (s.canWord (o.id / 256) (o.id % 64) 0) 25 then s.canRequest (o.id / 256) (o.id % 64) true else s

/-- What the tick does with every WRITTEN object at clock 40, 100 ns on: a flip at a release, a resync at a held tick or after the loss of a lane
(R217, R219, R224). -/
def State.releaseObjects (s : State) (release : Bool) : State :=
  let s := s.each s.staged fun x s => if release && !s.held.contains x.obj then s.flip x.obj (s.ltcNs + 100) else s.resync x.obj
  { s with held := [] }

/-- Two objects share bytes: engine objects start every 64 bytes and are 8,192 long (R201). -/
def Obj.overlaps (a b : Obj) : Bool :=
  a == b || (a.space == 6 && b.space == 6 && a.chan == b.chan && decide (a.id < b.id + 128) && decide (b.id < a.id + 128))

/-- STAGE of the object holds data derived from a PROVISIONAL read of this cycle (R218, R222). -/
def State.holdsProv (s : State) (o : Obj) : Bool := s.staged.any fun x => x.prov && x.obj.overlaps o

/-- The channel of an engine. -/
def Requester.channel : Requester → Option Line
  | .engine c _ => some c
  | _ => none

/-- A write by the host or an engine into an object's STAGE (R305). -/
def State.stageWrite (s : State) (who : Requester) (o : Obj) (addr : Nat) (bytes : List Byte) : State :=
  (s.setBytes addr bytes).markWritten o false none who.channel

/-- A flip asked for by TX_FLIP or PORT_FLIP: with provisional-derived data it waits for the release (R305). -/
def State.flipNow (s : State) (o : Obj) : State := if s.holdsProv o || s.held.contains o then s else s.flip o s.ltcNs

end Sys2Proof.Machine
end

