-- ==== Sys2Proof/Machine/Kneader.lean ====
section
/-! DEFINITION. The kneaders (spec/07_kneaders.md R194 to R224): table, checks, triggers, lanes, sources, conversion, staging, withdraw. -/

namespace Sys2Proof.Machine

def State.kneader (s : State) : Line → Kneader
  | .A => s.kneaderA
  | .B => s.kneaderB

def State.withKneader (s : State) (c : Line) (f : Kneader → Kneader) : State :=
  match c with
  | .A => { s with kneaderA := f s.kneaderA }
  | .B => { s with kneaderB := f s.kneaderB }

/-- A saturating counter plus 1 with its interrupt. -/
def State.countRaise (s : State) (r : Reg) (p : Page) (b : Nat) : State := (s.count r).raise p b

/-! The table (R195 to R197). -/

/-- The BAR0 window of a channel's table macro. -/
def tableMacro : Line → Nat
  | .A => 0x300000
  | .B => 0x500000

/-- What a fetch of a table entry gives. -/
inductive TableRead
  | entry (bytes : List Byte)
  | unreachable
  | bad

/-- The macro that holds an entry for a channel's kneader. -/
def State.macroOf (s : State) (c : Line) (e : Nat) : Line := if 16384 ≤ e && !s.lockedMode then c.other else c

/-- Fetch an entry. -/
def State.fetchEntry (s : State) (c : Line) (e : Nat) : TableRead :=
  let m := s.macroOf c e
  let a := tableMacro m + 32 * (e % 16384)
  if m != c && s.quarantined m then .unreachable
  else if (s.kneader m).badWords.any fun w => a ≤ w && w < a + 32 then .bad
  else .entry (s.bytes a 32)

/-- A job met an unreachable macro or an uncorrectable word: dropped and counted. -/
def State.lostFar (s : State) (c : Line) : State :=
  (s.countRaise (KND.FAR_LOST_CNT c) (.knd c) 15).setFlag (KND.KND_STAT_FAR_LOST c) true
def State.lostBad (s : State) (c : Line) : State := s.countRaise (KND.TBL_UE_CNT c) (.knd c) 14

/-- Fabric clocks from a run's start to its fetch of its first signal entry: head and source (R212), and the longer way to the far half (R195). -/
def JobRun.lead (r : JobRun) : Nat :=
  let space := (r.head.getD 4 0).toNat / 16
  (if 16384 ≤ r.job then 12 else 4) + (if space ≤ 2 then 4 else if space = 6 then 8 else 24)

/-- The instant at which a run's lane fetches the signal entry at a place, one in each fabric clock (R212, R223; log entry 180). -/
def JobRun.fetchAt (r : JobRun) (place : Nat) : Nat := r.started.toNat + 5 * (r.lead + place) / 2

/-- Before a write to entry `e` of a macro, the runs whose lanes have fetched it keep what they read (R223). -/
def State.keepFetched (s : State) (m : Line) (e : Nat) : State :=
  let old := s.bytes (tableMacro m + 32 * e) 32
  let now := s.ltcNs.toNat
  s.each [Line.A, Line.B] fun c s => s.withKneader c fun k => { k with
    runs := k.runs.map fun r =>
      let first := natOfBE ((r.head.drop 10).take 2) % 2 ^ 15
      let at_ := (if s.macroOf c (16384 + e) = m then [e, 16384 + e] else [e]).filter fun x =>
        s.macroOf c x = m && decide (first ≤ x) && decide (x - first < (r.head.getD 12 0).toNat) && decide (r.fetchAt (x - first) < now)
          && !r.fetched.any fun y => y.1 = x - first
      if r.lane.isSome then { r with fetched := r.fetched ++ at_.map fun x => (x - first, old) } else r }

/-- A host write of table bytes (R195, R197): channel A's window reaches both macros in LOCKED mode, channel B's none. -/
def State.writeTable (s : State) (c : Line) (a : Nat) (bytes : List Byte) : State :=
  let put (s : State) (m : Line) : State :=
    ((s.keepFetched m (a / 32)).setBytes (tableMacro m + a) bytes).withKneader m fun k =>
      { k with badWords := k.badWords.filter fun w => w / 8 != (tableMacro m + a) / 8 }
  if !s.lockedMode then put s c
  else if c = .B then s.count (KND.TBL_WR_ERR_CNT .B)
  else put (put s .A) .B

/-- The bits of word `w` of an entry that are not RSVD, by the KIND in its first byte (R8, R198, R199); an entry of another kind has no layout. -/
def tableMask (byte0 w : Nat) : Nat :=
  match byte0 / 16 with
  | 1 => [0xFFFEFFFF, 0xFF00FFFF, 0xFFFF7FFF, 0xFFFF0000, 0x03FF03FF, 0xFFFFFFFF, 0xFFFF0000].getD w 0
  | 2 => [0xFFFFFFFF, 0xFFFF7F7F, 0x3F000000, 0xFFFFFFFF, 0xFFFFFFFF, 0xFFFFFFFF, 0xFFFFFFFF].getD w 0
  | _ => 0xFFFFFFFF

/-! Job heads (R198). -/

structure JobHead where
  kind : Nat
  en : Bool
  prov : Bool
  imm : Bool
  setReady : Bool
  trig : Nat
  cls : Nat
  doubtOk : Bool
  arg : Nat
  srcSp : Nat
  dstSp : Nat
  srcId : Nat
  dstId : Nat
  first : Nat
  count : Nat
  maxAge : Nat
  div : Nat
  phase : Nat
  uid : Uid

def JobHead.ofBytes (b : List Byte) : JobHead :=
  let at_ (i : Nat) : Nat := (b.getD i 0).toNat
  let num (i n : Nat) : Nat := natOfBE ((b.drop i).take n)
  let d := num 16 4 / 2 ^ 16 % 1024
  ⟨at_ 0 / 16, bitOf (at_ 0) 3, bitOf (at_ 0) 2, bitOf (at_ 0) 1, bitOf (at_ 0) 0, at_ 1 / 16, at_ 1 / 4 % 4, bitOf (at_ 1) 1, num 2 2,
    at_ 4 / 16, at_ 4 % 16, num 6 2, num 8 2, num 10 2 % 2 ^ 15, at_ 12, at_ 13, if d = 0 then 1024 else d, num 16 4 % 1024,
    BitVec.ofNat 48 (num 20 6)⟩

/-- The head's destination object, for the field spaces. -/
def JobHead.dest (h : JobHead) (c : Line) : Obj := ⟨h.dstSp, h.dstId, if h.dstSp = 6 then c else .A⟩

/-- The job reads the Loaf. -/
def JobHead.fromLoaf (h : JobHead) : Bool := h.srcSp = 1 || h.srcSp = 2

/-- TRIG codes (R209). -/
abbrev trTICK : Nat := 0
abbrev trMARK : Nat := 1
abbrev trSLOT : Nat := 2
abbrev trRETURN : Nat := 3
abbrev trRX : Nat := 4
abbrev trKICK : Nat := 5

/-- The source names an existing object (R200 cause 4, R201; log entry 32). -/
def State.sourceExists (s : State) (h : JobHead) : Bool :=
  match h.srcSp with
  | 1 => h.srcId = 0
  | 2 => (1 ≤ h.srcId && h.srcId ≤ 63) || (65 ≤ h.srcId && h.srcId ≤ 72)
  | 3 => h.srcId < 2048 && h.srcId % 256 < 64 && s.canRx (h.srcId / 256) (h.srcId % 64)
  | 4 => h.srcId < 512 && s.mvbEn (h.srcId / 256) (h.srcId % 256) && s.mvbDir (h.srcId / 256) (h.srcId % 256) = 2
  | 5 => h.srcId < 512 && bitOf (s.byte (trdpRx h.srcId)).toNat 7
  | 6 => h.srcId < 4096
  | _ => false

/-- The destination names an existing object. -/
def State.destExists (s : State) (h : JobHead) : Bool :=
  match h.dstSp with
  | 3 => h.dstId < 2048 && h.dstId % 256 < 64 && s.canTx (h.dstId / 256) (h.dstId % 64)
  | 4 => h.dstId < 512 && s.mvbEn (h.dstId / 256) (h.dstId % 256) && s.mvbDir (h.dstId / 256) (h.dstId % 256) = 1
  | 5 => h.dstId < 512 && bitOf (s.byte (trdpTx h.dstId)).toNat 7
  | 6 => h.dstId < 4096
  | 7 => h.dstId = 0
  | _ => false

/-- The signal entries of a job, as its table reads. -/
def State.signalsOf (s : State) (c : Line) (h : JobHead) : List TableRead :=
  (List.range h.count).map fun i => s.fetchEntry c (h.first + i)

/-- The signal entries of a run as its lane has fetched them (R223). -/
def State.signalsOfRun (s : State) (c : Line) (r : JobRun) (h : JobHead) : List TableRead :=
  (List.range h.count).map fun i =>
    match r.fetched.find? fun x => x.1 = i with
    | some x => .entry x.2
    | none => s.fetchEntry c (h.first + i)

/-- The first check of R200 that a job fails, 0 for none; the lowest cause is recorded (log entry 33). -/
def State.checkJob (s : State) (h : JobHead) (sigs : List SignalEntry) : Nat :=
  let badSp (x : Nat) : Bool := x = 0 || 8 ≤ x
  let badSig (x : SignalEntry) : Bool := x.kind != 2 || x.smode = 3 || x.subst = 3 || 4 ≤ x.stype || 4 ≤ x.dtype
  let badWidth (x : SignalEntry) : Bool :=
    widthBad x.stype x.swidth || widthBad x.dtype x.dwidth || (x.smode = 0 && x.swidth != x.dwidth)
  if h.kind != 1 || h.cls = 3 || 6 ≤ h.trig || badSp h.srcSp || badSp h.dstSp then 1
  else if h.count = 0 || 32767 < h.first + h.count - 1 then 2
  else if sigs.any badSig then 3
  else if !s.sourceExists h || !s.destExists h then 4
  else if sigs.any badWidth then 5
  else if ((h.trig = trSLOT || h.trig = trRETURN) && !h.fromLoaf) || (h.trig = trRX && !(3 ≤ h.srcSp && h.srcSp ≤ 5)) then 6
  else if h.imm && (h.trig = trSLOT || h.trig = trRETURN || h.dstSp = 7) then 7
  else if (if h.trig = trMARK then 15 < h.arg else h.arg != 0) then 8
  else 0

/-! Triggers (R209 to R211). -/

/-- IN_FLIGHT and PEAK. -/
def State.showFlight (s : State) (c : Line) : State :=
  let n := (s.kneader c).runs.length
  (s.set (KND.KND_STAT_IN_FLIGHT c) n).update (KND.PEAK c) (max n)

/-- LAST_DROP: 1 overrun, 2 scoreboard full, 3 lane lost. -/
def State.noteDrop (s : State) (c : Line) (job why : Nat) : State :=
  (s.set (KND.LAST_DROP_JOB c) job).set (KND.LAST_DROP_WHY c) why

/-- Put a run behind those triggered before it; of those of the same fabric clock that still wait, the lower job index comes first (R211). -/
def insertRun (r : JobRun) : List JobRun → List JobRun
  | [] => [r]
  | x :: t => if x.lane.isNone && x.triggered == r.triggered && decide (r.job < x.job) then r :: x :: t else x :: insertRun r t

/-- The instant of a trigger: TICK fires at clock 40 of the tick sequence, 100 ns after the tick (R209). -/
def State.triggerInstant (s : State) (h : JobHead) : BitVec 64 := s.ltcNs + if h.trig = trTICK then 100 else 0

/-- Put a run on the scoreboard, or drop the trigger at 512 in flight. A replay keeps the instant of the trigger it repeats (R221). -/
def State.enqueueJob (s : State) (c : Line) (job : Nat) (h : JobHead) (again : Option (BitVec 64)) : State :=
  if 512 ≤ (s.kneader c).runs.length then
    (s.countRaise (KND.TRIG_DROP_CNT c) (.knd c) 9).noteDrop c job 2
  else
    let s := s.when again.isSome fun s => s.count (KND.REPLAY_CNT c)
    let run : JobRun := ⟨job, h.cls, s.cycle, h.trig = trSLOT || h.trig = trRETURN, again.isSome, none, [], [], false, none, false,
      h.dstSp = 7, again.getD (s.triggerInstant h), 0, []⟩
    (s.withKneader c fun k => { k with runs := if again.isSome then k.runs ++ [run] else insertRun run k.runs }).showFlight c

/-- The kneader takes triggers (R225, R455). -/
def State.takesTriggers (s : State) (c : Line) : Bool := s.live (.knd c) && s.flag (KND.KND_CTRL_EN c)

/-- A trigger of kind `kind` for a job: counted in the cycles its head selects, checked, then put in flight (R200, R210). -/
def State.triggerJob (s : State) (c : Line) (kind job : Nat) : State :=
  if !s.takesTriggers c then s
  else
    match s.fetchEntry c job with
    | .unreachable => s.lostFar c
    | .bad => s.lostBad c
    | .entry b =>
      let h := JobHead.ofBytes b
      if !h.en || h.trig != kind || s.cycle % h.div != h.phase then s
      else if 512 ≤ (s.kneader c).runs.length then s.enqueueJob c job h none
      else
        let inTable := h.count != 0 && h.first + h.count - 1 ≤ 32767
        let reads := if inTable then s.signalsOf c h else []
        if reads.any fun r => match r with | .unreachable => true | _ => false then s.lostFar c
        else if reads.any fun r => match r with | .bad => true | _ => false then s.lostBad c
        else
          let sigs := reads.filterMap fun r => match r with | .entry b => some (SignalEntry.ofBytes b) | _ => none
          let cause := s.checkJob h sigs
          if cause = 0 then s.enqueueJob c job h none
          else ((s.countRaise (KND.CFG_ERR_CNT c) (.knd c) 10).set (KND.LAST_ERR_JOB c) job).set (KND.LAST_ERR_CAUSE c) cause

/-- The enabled job heads of a channel's own macro with one of these triggers, ascending (log entry 34). -/
def State.headsAmong (s : State) (c : Line) (trigs : List Nat) : List (Nat × JobHead) :=
  let a := tableMacro c
  (s.mem.filter fun e => a ≤ e.1 && e.1 < a + 0x80000 && e.1 % 32 = 0 && e.2.toNat / 16 = 1 && bitOf e.2.toNat 3).filterMap fun e =>
    let h := JobHead.ofBytes (s.bytes e.1 32)
    if trigs.contains h.trig then some ((e.1 - a) / 32, h) else none

def State.headsOf (s : State) (c : Line) (trig : Nat) : List (Nat × JobHead) := s.headsAmong c [trig]

/-- The slot a Loaf job reads: by the UID map, or by its number (R202). -/
def State.slotOfJob (s : State) (c : Line) (h : JobHead) : Option Nat :=
  match h.srcSp with
  | 1 => ((s.kneader c).uidMap.find? fun x => x.1 = h.uid).map Prod.snd
  | 2 => some h.srcId
  | _ => none

/-- Trigger every enabled job of a kind. -/
def State.triggerAll (s : State) (c : Line) (kind : Nat) (p : JobHead → Bool) : State :=
  s.each ((s.headsOf c kind).filter fun x => p x.2) fun x s => s.triggerJob c kind x.1

/-- A SLOT job fires: once a cycle (R209). -/
def State.fireSlotJob (s : State) (c : Line) (job : Nat) : State :=
  if (s.kneader c).fired.contains job then s
  else (s.withKneader c fun k => { k with fired := job :: k.fired }).triggerJob c trSLOT job

/-- A SLOT job fires on its slot's status: VERIFIED, STALE, or PROVISIONAL where it may read such a slot (R209). -/
def State.slotFires (s : State) (c : Line) (h : JobHead) (slot : Nat) : Bool :=
  let st := s.slotStatus c slot
  if st = stPROVISIONAL then h.prov && s.provEn c else st = stVERIFIED || st = stSTALE

/-- SLOT triggers of slots whose status has changed in one clock, in both channels; jobs in ascending index (R211). -/
def State.slotEvents (s : State) (slots : List Nat) : State :=
  if slots.isEmpty then s
  else s.each s.channels fun c s => s.each (s.headsOf c trSLOT) fun x s =>
    match s.slotOfJob c x.2 with
    | some slot => if slots.contains slot && s.slotFires c x.2 slot then s.fireSlotJob c x.1 else s
    | none => s

/-- RETURN_END or the return close: RETURN_END triggers and the SLOT triggers that have not fired, in ascending index (R209, R211). -/
def State.returnTriggers (s : State) : State :=
  s.each s.channels fun c s => s.each (s.headsAmong c [trRETURN, trSLOT]) fun x s =>
    if x.2.trig = trRETURN then s.triggerJob c trRETURN x.1 else s.fireSlotJob c x.1

/-- RX triggers of an updated source object. -/
def State.rxTriggers (s : State) (space id : Nat) : State :=
  s.each [Line.A, Line.B] fun c s => s.triggerAll c trRX fun h => h.srcSp = space && h.srcId = id

/-- KICK; in LOCKED mode both kneaders do the same work (R47). -/
def execKick (c : Line) (job : BitVec 15) (s : State) : Host.Outcome State Fault Refusal :=
  .next (s.each (if s.lockedMode then s.channels else [c]) fun k s => s.triggerJob k trKICK job.toNat)

/-! Sources (R203, R213, R214). -/

/-- What a job finds at its source. -/
structure SourceRead where
  usable : Bool
  bytes : List Byte
  slot : Option Nat
  prov : Bool
  data : Bool

def noSource : SourceRead := ⟨false, [], none, false, false⟩

/-- A field object's age against MAX_AGE. -/
def State.freshEnough (s : State) (h : JobHead) (seen : Bool) (last : Nat) : Bool :=
  seen && (h.maxAge = 255 || (s.cycle + 2 ^ 32 - last) % 2 ^ 32 ≤ h.maxAge)

/-- A Loaf source: the forming bank for SLOT and RETURN_END jobs, LATEST otherwise. -/
def State.readLoafSource (s : State) (c : Line) (h : JobHead) (forming : Bool) : SourceRead :=
  match s.slotOfJob c h with
  | none => noSource
  | some slot =>
    let valid := forming || s.flag (LOAF.BANK_STAT_LATEST_VALID c)
    let b := if forming then s.formingBank c else s.get (LOAF.BANK_STAT_LATEST c)
    match (s.bank c b).entry slot with
    | none => { noSource with slot := some slot }
    | some e =>
      let st := if forming then s.maskProv c (s.formStatus e) else e.status
      let age := if forming then (if e.age = 255 then 255 else min 254 (e.age + 1)) else e.age
      let prov := st = stPROVISIONAL && h.trig = trSLOT && h.prov
      let ok := valid && (h.doubtOk || !e.flags.doubtful) && (st = stVERIFIED || prov
        || (st = stSTALE && age != 255 && (h.maxAge = 255 || age ≤ h.maxAge)))
      ⟨ok, s.bytes (bankAddr c b + e.offs) e.len, some slot, prov, forming && holdsData st⟩

/-- Read a job's source in one burst. -/
def State.readSource (s : State) (c : Line) (h : JobHead) (forming : Bool) : SourceRead :=
  match h.srcSp with
  | 3 =>
    let (k, b) := (h.srcId / 256, h.srcId % 64)
    let bus := s.canBus.getD k CanBus.reset
    let a := canBuf k b + if bus.shadow.contains b then 80 else 0
    ⟨s.canRx k b && s.freshEnough h (bus.seen.contains b) (s.canWord k b 3), s.bytes (a + 16) (s.canDataLen k b), none, false, false⟩
  | 4 =>
    let (j, e) := (h.srcId / 256, h.srcId % 256)
    ⟨s.freshEnough h ((s.mvbBus.getD j MvbBus.reset).seen.contains e) (s.mvbWord j e 2),
      s.bytes (mvbData j e) (mvbSize (s.mvbFcode j e)), none, false, false⟩
  | 5 =>
    let e := h.srcId
    ⟨s.freshEnough h (s.trdpSeen.contains e) (s.beNat (trdpRx e + 20) 4),
      s.bytes (trdpPool + 64 * s.beNat (trdpRx e + 12) 2) (min 1432 (s.beNat (trdpRx e + 2) 2)), none, false, false⟩
  | 6 => ⟨true, s.bytes (sharedMem c + 64 * h.srcId) (min 8192 (0x40000 - 64 * h.srcId)), none, false, false⟩
  | _ => s.readLoafSource c h forming

/-! Lanes (R28, R30, R211). -/

/-- The lanes that run jobs and are free. -/
def State.freeLane (s : State) (c : Line) : Option Nat :=
  let spare := if s.flag (KND.KND_STAT_SPARE_VALID c) then some (s.get (KND.KND_STAT_SPARE c)) else none
  lowest 8 fun l => some l != spare && !(s.kneader c).deadLanes.contains l && !((s.kneader c).runs.any fun r => r.lane = some l)
    && !(s.proof.maint.any fun m => m.target = 5 && m.chan = c && m.index = l && m.run.ended != some 0)

/-- A class has a job waiting. -/
def Kneader.waiting (k : Kneader) (cls : Nat) : Bool := k.runs.any fun r => r.lane.isNone && r.cls = cls

/-- The class the next grant of the round goes to, with the place after it: 8 grants for D0, 2 for D1, 1 for D2, an unused one passing to the
next class down (R30). -/
def Kneader.nextGrant (k : Kneader) : Nat → Nat → Option (Nat × Nat)
  | 0, _ => none
  | fuel + 1, p =>
    let own := if p % 11 < 8 then 0 else if p % 11 < 10 then 1 else 2
    match (List.range 3).find? fun c => decide (own ≤ c) && k.waiting c with
    | some c => some (c, (p + 1) % 11)
    | none => k.nextGrant fuel (p + 1)

/-- Take a run off the scoreboard. -/
def State.endRun (s : State) (c : Line) (r : JobRun) : State :=
  (s.withKneader c fun k => { k with runs := k.runs.erase r }).showFlight c

/-- Start the next job on a free lane: it reads its head and its source (R211, R220, R223). -/
def State.startJob (s : State) (c : Line) : State :=
  match s.freeLane c, (s.kneader c).nextGrant 11 (s.kneader c).grants with
  | some lane, some (cls, place) =>
    match (s.kneader c).runs.find? fun r => r.lane.isNone && r.cls = cls with
    | none => s
    | some r =>
      let s := s.withKneader c fun k => { k with grants := place }
      match s.fetchEntry c r.job with
      | .unreachable => (s.lostFar c).endRun c r
      | .bad => (s.lostBad c).endRun c r
      | .entry b =>
        let h := JobHead.ofBytes b
        let src := s.readSource c h r.forming
        let r' := { r with
          lane := some lane, head := b, source := src.bytes, usable := src.usable, slot := src.slot, prov := src.prov
          toDough := h.dstSp = 7, started := s.ltcNs }
        let dough := src.prov && h.dstSp = 7
        let s := s.when src.prov fun s => s.count (KND.PROV_JOB_CNT c)
        let s := s.when src.data fun s => s.count (LOAF.PROV_READ_CNT c)
        s.withKneader c fun k => { k with
          runs := k.runs.replace r r'
          read := match r.forming, src.slot with
            | true, some p => k.read ++ [(r.job, p)]
            | _, _ => k.read
          dough := if dough && !k.dough.contains r.job then k.dough ++ [r.job] else k.dough }
  | _, _ => s

/-- JOB_START. -/
def execJobStart (c : Line) (s : State) : Host.Outcome State Fault Refusal :=
  .next (if s.powered (.knd c) && !s.quarantined c then s.startJob c else s)

/-! Completion (R204, R205, R207, R215, R218). -/

/-- What a run's signals came to: bits to write, and whether the job skips. -/
structure SignalWrite where
  little : Bool
  offs : Nat
  width : Nat
  value : Nat

/-- An unusable signal follows SUBST (R215). -/
def State.substitute (s : State) (c : Line) (x : SignalEntry) : State × Option Nat × Bool :=
  let s := s.count (KND.SUBST_CNT c)
  match x.subst with
  | 1 => (s, some (x.default % 2 ^ x.dwidth), false)
  | 2 => (s, none, true)
  | _ => (s, none, false)

/-- Convert one signal: the bits to write, if any, and SKIP_JOB. -/
def State.convertOne (s : State) (c : Line) (usable : Bool) (src : List Byte) (x : SignalEntry) : State × Option Nat × Bool :=
  let range := 8 * src.length < x.soffs + x.swidth
  let s := s.when (range && (usable || !src.isEmpty)) fun s => s.countRaise (KND.RANGE_ERR_CNT c) (.knd c) 12
  if range || !usable then s.substitute c x
  else
    match convertSignal x (extract x.sorder src x.soffs x.swidth) with
    | .bits v clamped => (s.when clamped fun s => s.count (KND.SAT_CNT c), some v, false)
    | .unusable => (s.count (KND.NAN_CNT c)).substitute c x
    | .unstated => let (v, s) := s.draw; (s, some (v % 2 ^ x.dwidth), false)

/-- Convert a job's signals in order: the writes within the destination, and SKIP_JOB. Signals behind the one whose SKIP_JOB acts are not converted
and count nothing: DESIGN CHOICE (log entry 181). -/
def State.convertAll (s : State) (c : Line) (usable : Bool) (src : List Byte) (len : Nat) (sigs : List SignalEntry) :
    State × List SignalWrite × Bool :=
  sigs.foldl (fun (acc : State × List SignalWrite × Bool) x =>
    let (s, writes, skip) := acc
    if skip then acc
    else
      let (s, v, skip) := s.convertOne c usable src x
      if skip then (s, writes, true)
      else if 8 * len < x.doffs + x.dwidth then (s.countRaise (KND.RANGE_ERR_CNT c) (.knd c) 12, writes, false)
      else match v with
        | none => (s, writes, false)
        | some v => (s, writes ++ [⟨x.dorder, x.doffs, x.dwidth, v⟩], false)) (s, [], false)

/-- New bytes of the signal's byte range: addresses relative to the object. -/
def SignalWrite.bytes (w : SignalWrite) (old : Nat → Byte) : List (Nat × Byte) :=
  let t := touched w.offs w.width
  let base := w.offs / 8
  t.zip (insertBits w.little (t.map old) (w.offs - 8 * base) w.width w.value)

/-- Write signals into STAGE. -/
def State.writeStage (s : State) (w : Writer) (prov : Bool) (o : Obj) (writes : List SignalWrite) : State :=
  let a := s.objStage o
  (s.each writes fun x s => s.each (x.bytes fun i => s.byte (a + i)) fun b s => s.setByte (a + b.1) b.2).markWritten o prov (some w) none

/-- The kneader's draft: 6, or 7 for a provisional job and its replays (R218, R221). -/
def JobRun.draftOf (r : JobRun) : Nat := if r.prov || (r.replay && r.forming) then 7 else 6

/-- Write signals into a draft, opened at the first write; bits a signal leaves alone come from the draft, or from the dough image. -/
def State.writeKneaderDraft (s : State) (c : Line) (d : Nat) (writes : List SignalWrite) : State :=
  let s := s.when ((s.draft c d).state = .closed) fun s => s.openDraft c d
  s.each writes fun w s =>
    let old (i : Nat) : Byte := if (s.draft c d).enabled.contains i then s.byte (draftAddr c d + i) else s.byte (doughAddr c + i)
    s.writeDraft c d (w.bytes old)

/-! Drops (R212, R224). -/

/-- Abort a draft that is open, without counting an error. -/
def State.abortOpen (s : State) (c : Line) (d : Nat) : State := s.when ((s.draft c d).state = .opened) fun s => s.closeDraft c d

/-- Drop a run: the objects its job wrote in this cycle are resynced, and a dough job's draft is aborted. After the loss of its lane its own object is
resynced whoever wrote it, and holds until the tick (R224). -/
def State.dropRun (s : State) (c : Line) (r : JobRun) (why : Nat) : State :=
  let s := (s.noteDrop c r.job why).endRun c r
  let s := s.each (s.staged.filter fun x => x.writers.any fun w => w.chan = c && w.job = r.job) fun x s => s.resync x.obj
  let h := JobHead.ofBytes r.head
  let lost := why = 3 && r.lane.isSome && 3 ≤ h.dstSp && h.dstSp ≤ 6
  let s := s.when lost fun s => { s.resync (h.dest c) with held := s.held ++ [h.dest c] }
  s.when (r.lane.isSome && r.toDough) fun s => s.abortOpen c r.draftOf

/-- A run past its deadline. -/
def State.overrunJob (s : State) (c : Line) (r : JobRun) : State :=
  (s.countRaise (KND.OVERRUN_CNT c) (.knd c) 8).dropRun c r 1

/-- The commit of draft 7 is the deadline of the forming-bank dough jobs in flight (R212). -/
def State.doughDeadline (s : State) (c : Line) : State :=
  s.each ((s.kneader c).runs.filter fun r => r.forming && r.toDough) fun r s => s.overrunJob c r

/-- Draft 7's commit: once RETURN_END has come and no provisional dough job of the cycle is in flight or to be replayed, or at clock 0 (R218). -/
def State.commitDraft7 (s : State) (c : Line) (force : Bool) : State :=
  let k := s.kneader c
  let busy := k.runs.any (fun r => r.draftOf = 7 && r.toDough) || k.replays.any fun j => k.dough.contains j.1
  if (s.draft c 7).state = .opened && (force || ((s.time.returnEndSeen || s.time.returnClosed) && !busy)) then
    let ready := k.wrote7.any fun j => match s.fetchEntry c j with | .entry b => (JobHead.ofBytes b).setReady | _ => false
    let slots := (k.read.filter fun x => k.dough.contains x.1).map Prod.snd
    (s.commitDraft c 7 ready false slots none).doughDeadline c
  else s

/-- The kneader may write a field destination (R204). -/
def State.ownsField (s : State) (c : Line) : Bool := (s.flag (KND.KND_CTRL_FIELD_OWNER .A)) == (c == .B)

/-- Write a completed job's signals to its destination. -/
def State.deliver (s : State) (c : Line) (r : JobRun) (h : JobHead) (writes : List SignalWrite) : State :=
  if writes.isEmpty then s
  else if h.dstSp = 7 then
    let s := s.writeKneaderDraft c r.draftOf writes
    if r.draftOf = 6 then s.commitDraft c 6 h.setReady false [] none
    else s.withKneader c fun k => { k with wrote7 := insertNat r.job k.wrote7 }
  else
    let field := 3 ≤ h.dstSp && h.dstSp ≤ 5
    if field && s.lockedMode && s.channels.head? != some c then s
    else if field && !s.lockedMode && !s.ownsField c then s.countRaise (KND.DST_REFUSED_CNT c) (.knd c) 13
    else
      let o := h.dest c
      let s := s.writeStage ⟨c, r.job, r.triggered⟩ r.prov o writes
      if h.imm then s.flipNow o else s

/-- Finish the run of a lane. -/
def State.completeJob (s : State) (c : Line) (r : JobRun) : State :=
  let h := JobHead.ofBytes r.head
  let reads := s.signalsOfRun c r h
  if reads.any fun x => match x with | .unreachable => true | _ => false then (s.lostFar c).endRun c r
  else if reads.any fun x => match x with | .bad => true | _ => false then (s.lostBad c).endRun c r
  else
    let sigs := reads.filterMap fun x => match x with | .entry b => some (SignalEntry.ofBytes b) | _ => none
    let len := if h.dstSp = 7 then 1928 else s.objLen (h.dest c)
    let (s, writes, skip) := s.convertAll c r.usable r.source len sigs
    let s := if skip then s else s.deliver c r h writes
    ((s.count (KND.JOB_DONE_CNT c)).endRun c r).commitDraft7 c false

/-- JOB_COMPLETE: the run in a lane. -/
def execJobComplete (c : Line) (lane : BitVec 3) (s : State) : Host.Outcome State Fault Refusal :=
  .next (
    match (s.kneader c).runs.find? fun r => r.lane = some lane.toNat with
    | some r => if s.powered (.knd c) && !s.quarantined c then s.completeJob c r else s
    | none => s)

/-! Deadlines (R212). -/

/-- The tick sequence that starts now is the run's deadline (R212): for a run of the forming bank, otherwise where the trigger lies at least REL_MARGIN before it. -/
def State.dueAtTick (s : State) (c : Line) (r : JobRun) : Bool :=
  r.forming || (!r.toDough && decide (s.get (KND.MARGIN_REL_MARGIN c) ≤ (s.ltcNs - r.triggered).toNat))

/-- The CUT now is the run's deadline (R212): the trigger lies at least CUT_MARGIN before it. -/
def State.dueAtCut (s : State) (c : Line) (r : JobRun) : Bool :=
  !r.forming && r.toDough && decide (s.get (KND.MARGIN_CUT_MARGIN c) ≤ (s.ltcNs - r.triggered).toNat)

/-- Drop the runs that a CUT finds at their deadline. -/
def State.kneaderCut (s : State) : State :=
  s.each s.channels fun c s => s.each ((s.kneader c).runs.filter fun r => s.dueAtCut c r) fun r s => s.overrunJob c r

/-- A lane fails (R224): its runs are dropped; the spare, where there is one, takes the role. -/
def State.loseLaneAt (s : State) (c : Line) (lane : Nat) : State :=
  if (s.kneader c).deadLanes.contains lane then s
  else
    let cls := (((s.kneader c).runs.find? fun r => r.lane = some lane).map JobRun.cls).getD 3
    let s := s.each ((s.kneader c).runs.filter fun r => r.lane = some lane) fun r s => s.dropRun c r 3
    s.withKneader c fun k => { k with deadLanes := k.deadLanes ++ [lane], laneMoves := k.laneMoves ++ [(cls, lane)] }

/-- A lane is lost, in LOCKED mode with the lane of the same index on the other channel (R38). -/
def State.loseLane (s : State) (c : Line) (lane : Nat) : State :=
  s.each (if s.lockedMode then s.channels else [c]) fun k s => s.loseLaneAt k lane

/-- At the tick the spare takes a lost lane's role; without a spare the count of lanes falls (R38, R224). -/
def State.takeSpareLanes (s : State) (c : Line) : State :=
  let lost := (s.kneader c).laneMoves
  let s := s.withKneader c fun k => { k with laneMoves := [] }
  s.each lost fun _ s =>
    if s.flag (KND.KND_STAT_SPARE_VALID c) then s.setFlag (KND.KND_STAT_SPARE_VALID c) false
    else s.set (KND.KND_STAT_LANES c) (s.get (KND.KND_STAT_LANES c) - 1)

/-! Withdraw and replay (R220, R221). -/

/-- A job is to run again, once, with the trigger it had (R212, R221). -/
def Kneader.replay (k : Kneader) (job : Nat) (triggered : BitVec 64) : Kneader :=
  if k.replays.any fun x => x.1 = job then k else { k with replays := k.replays ++ [(job, triggered)] }

/-- WITHDRAW of a slot at one kneader. A draft 7 that is PENDING falls as R181 gives. -/
def State.withdrawAt (s : State) (c : Line) (slot : Nat) : State :=
  let k := s.kneader c
  let jobs := (k.read.filter fun x => x.2 = slot).map Prod.fst
  if jobs.isEmpty then s
  else
    let flying := k.runs.filter fun r => r.forming && r.slot = some slot
    let s := (s.countBy (KND.WITHDRAW_JOB_CNT c) jobs.length).raise (.knd c) 11
    let s := s.each flying fun r s => s.endRun c r
    let s := s.withKneader c fun k => { k with read := k.read.filter fun x => x.2 != slot }
    let wrote := s.staged.filter fun x => x.writers.any fun w => w.chan = c && jobs.contains w.job
    let objs := s.staged.filter fun x => wrote.any fun y => y.obj.overlaps x.obj
    let again := objs.flatMap Staged.writers
    let s := s.each objs fun x s => (s.resync x.obj).count (KND.OBJ_RESYNC_CNT c)
    let s := s.each again fun w s => s.withKneader w.chan fun k => k.replay w.job w.triggered
    if (s.draft c 7).state = .opened && k.wrote7.any fun j => jobs.contains j then
      let s := (s.abortOpen c 7).withKneader c fun k => { k with wrote7 := [] }
      s.each (k.dough.filter fun j => !(s.kneader c).runs.any fun r => r.forming && r.job = j) fun j s => s.withKneader c fun k => k.replay j 0
    else s

/-- WITHDRAW of a slot: PENDING drafts fall and both kneaders take back what they derived from it. -/
def State.withdrawSlot (s : State) (slot : Nat) : State :=
  s.each [Line.A, Line.B] fun c s => s.withdrawAt c slot

/-- JOB_REPLAY: after RETURN_END the jobs to run again are put in flight. -/
def execJobReplay (c : Line) (s : State) : Host.Outcome State Fault Refusal :=
  .next (
    if s.time.returnEndSeen || s.time.returnClosed then
      let jobs := (s.kneader c).replays
      let s := s.withKneader c fun k => { k with replays := [] }
      s.each jobs fun j s =>
        match s.fetchEntry c j.1 with
        | .entry b => s.enqueueJob c j.1 (JobHead.ofBytes b) (some j.2)
        | .unreachable => s.lostFar c
        | .bad => s.lostBad c
    else s)

/-! Ticks and steps (R209, R212, R217 to R219). -/

/-- Clock 0 of the tick sequence: the runs still in flight at their deadline are dropped, and draft 7 commits. -/
def State.kneaderClock0 (s : State) : State :=
  s.each s.channels fun c s =>
    let s := s.each ((s.kneader c).runs.filter fun r => s.dueAtTick c r) fun r s => s.overrunJob c r
    let s := s.commitDraft7 c true
    s.withKneader c fun k => { k with fired := [], read := [], dough := [], wrote7 := [], replays := [] }

/-- Clock 40: objects flip or are resynced, then TICK triggers fire. -/
def State.kneaderClock40 (s : State) (release : Bool) : State :=
  let s := s.releaseObjects release
  if s.valid then s.each s.channels fun c s => s.triggerAll c trTICK fun _ => true else s

/-- MARK triggers of a cycle mark. -/
def State.markTriggers (s : State) (m : Nat) : State :=
  if s.valid then s.each s.channels fun c s => s.triggerAll c trMARK fun h => h.arg % 16 = m else s

/-- A step drops every job in flight without counting, and drafts 6 and 7 (R219). -/
def State.stepKneaders (s : State) : State :=
  s.each [Line.A, Line.B] fun c s =>
    ((s.withKneader c fun k => { k with runs := [], fired := [], read := [], dough := [], wrote7 := [], replays := [] }).showFlight c |>.abortOpen c 6).abortOpen c 7

/-- The maps from UID to slot (R202). -/
def State.rebuildMaps (s : State) : State :=
  let m := ((s.forming.layout.map fun y => y.slots.filter fun x => x.uid != 0).getD []).map fun x => (x.uid, x.slot)
  s.each [Line.A, Line.B] fun c s => s.withKneader c fun k => { k with uidMap := m }

end Sys2Proof.Machine
end

