-- ==== Sys2Proof/Machine/Lines.lean ====
section
/-! DEFINITION. The lines (spec/01_train_model.md R10 to R25; spec/04_forming_the_train.md R88 to R101, R485): working links, orientation, the
conditions for leaving OFF, the transitions of the line state machine and the adoption of train time. -/

namespace Sys2Proof.Machine

/-- A forming setting: used from GTB_A for both lines (R88). -/
def State.setting (s : State) (r : Line → Reg) : Nat := s.get (r .A)

/-- The line's mode: forerunner or GTB (R89). -/
def State.forerunner (s : State) (l : Line) : Bool := s.flag (GTB.FORM_STAT_MODE l)

/-- The PHY link of a port is up (R166). -/
def State.linkUp (s : State) (p : BackbonePort) : Bool :=
  match p.side with
  | .front => s.flag (GTB.TRAY_STAT_FRONT_UP p.line)
  | .rear => s.flag (GTB.TRAY_STAT_REAR_UP p.line)

def State.setLink (s : State) (p : BackbonePort) (b : Bool) : State :=
  match p.side with
  | .front => s.setFlag (GTB.TRAY_STAT_FRONT_UP p.line) b
  | .rear => s.setFlag (GTB.TRAY_STAT_REAR_UP p.line) b

/-- A working GTB link: up, settled, and without a version-1 frame in this cycle or the last (R100); version-1 frames are the traffic of
forerunner mode. -/
def State.working (s : State) (p : BackbonePort) : Bool :=
  let x := (s.lineOf p.line).portOf p.side
  s.linkUp p && x.settled && (s.forerunner p.line || (!x.v1This && !x.v1Last))

/-- The port facing end 1, front until a tray has shown it (R12; log entry 21). -/
def LineState.end1Port (x : LineState) : Side := x.end1Side.getD .front

/-- The upstream-facing port: outward trays arrive on it (R12). -/
def State.upstream (s : State) (l : Line) : BackbonePort := ⟨l, (s.lineOf l).end1Port⟩

/-- The port facing away from end 1. -/
def State.downstream (s : State) (l : Line) : BackbonePort := ⟨l, (s.lineOf l).end1Port.opposite⟩

/-- The node is line end on the line: no working GTB link away from end 1 (R13). -/
def State.isLineEnd (s : State) (l : Line) : Bool := !s.working (s.downstream l)

/-- The port opposite to one. -/
def BackbonePort.across (p : BackbonePort) : BackbonePort := ⟨p.line, p.side.opposite⟩

/-- The two ports of a line. -/
def portsOf (l : Line) : List BackbonePort := [⟨l, .front⟩, ⟨l, .rear⟩]

/-! Conditions for leaving OFF (R485). -/

/-- TX_OFFS < TRAY_LEN and TRAY_LEN + IDLE_LEN ≤ CYCLE_LEN (R80). -/
def State.timingFits (s : State) : Bool :=
  decide (s.get CYC.TX_OFFS < s.get CYC.TRAY_LEN) && decide (s.get CYC.TRAY_LEN + s.get CYC.IDLE_LEN ≤ s.cycleLen)

/-- Life-cycle codes (R400). -/
abbrev lcBLANK : Nat := 0
abbrev lcMANUFACTURE : Nat := 1
abbrev lcPROVISIONED : Nat := 2
abbrev lcDEPLOYED : Nat := 3
abbrev lcRETURN : Nat := 4
abbrev lcSCRAPPED : Nat := 5

def State.lifeCycle (s : State) : Nat := s.get SEC.LC_STATE

/-- The conditions of R485 whose failure raises CFG_BAD. -/
def State.raisedConditions (s : State) : List Bool :=
  [s.timingFits, s.lifeCycle == lcPROVISIONED || s.lifeCycle == lcDEPLOYED, s.lifeCycle != lcDEPLOYED || s.sec.fleet.isSome, !s.sec.zeroised]

def State.checkedConditions (s : State) : Bool := s.raisedConditions.all id

/-- Every condition of R485, with the page's ENABLE (R455) and the line the chip serves (R90). -/
def State.mayLeaveOff (s : State) (l : Line) : Bool :=
  s.flag (GTB.LINE_CTRL_EN l) && s.live (.gtb l) && s.served.contains l && s.checkedConditions
    && s.flag CHIP.CHIP_STAT_BOOT_DONE && !s.flag SW.ETB_CTRL_ETB_EN && !s.quarantined l && !s.failSilent
    && !(s.twin && (s.get TWIN.TWIN_STAT_HAT_STATE == hatPARTITIONED || s.flag TWIN.TWIN_STAT_CFG_BAD))

/-- CFG_BAD of the CYC page (R80, R485). -/
def State.raiseCfgBad (s : State) : State := s.raise .cyc 11

/-! Transitions. -/

def State.setLine (s : State) (l : Line) (st : Nat) : State := s.set (GTB.FORM_STAT_STATE l) st

/-- The line enters LISTEN (R90). The node keeps the layout, and so its position in it, until another layout replaces them (R92, R94). -/
def State.enterListen (s : State) (l : Line) : State :=
  ((s.setLine l lnLISTEN).withLine l fun x =>
    { x with noRoomSeen := false, goodRun := 0, expected := none, writing := false, claiming := none, actNext := false,
             stopNext := false, missThis := false })
    |>.set (GTB.TRAY_STAT_ORIGIN l) 0 |>.set (GTB.TRAY_STAT_MISS_RUN l) 0
    |>.set (GTB.FORM_STAT_CRUMB l) 0

/-- The hat state machine leaves every state but PARTITIONED for OFF with the chip's line (R332), but that a wearer whose line is in OFF because
its channel is quarantined keeps the hat until it has handed it over (R40, R334; log entry 51). -/
def State.hatOff (s : State) : State :=
  if s.hat = hatPARTITIONED || s.hat = hatOFF || (s.hat = hatWEARING && s.quarantined s.twinLine && !s.failSilent) then s
  else (s.setHat hatOFF s.cycle).dropHatOut

/-- The hat after a change of its state: with the line in OFF, R332's row applies. -/
def State.settleHat (s : State) : State :=
  if s.twin && s.lineState s.twinLine = lnOFF then s.hatOff else s

/-- The line returns to OFF and releases BYPASS (R15, R90). With both lines OFF and ETB off the time unit is UNSYNC, TTC running on (R69);
entering UNSYNC discards the slice keys (R391). Presence is held for lines that run only. -/
def State.enterOff (s : State) (l : Line) : State :=
  let s := (((s.enterListen l).setLine l lnOFF).set64 (GTB.PRES_LO l) (GTB.PRES_HI l) 0).set (GTB.TRAY_STAT_LINE_END l) 0
  let s := s.withLine l fun x => { LineState.reset with
    front := x.front, rear := x.rear, end1Side := x.end1Side }
  let s := s.when (s.twin && s.served.contains l) State.hatOff
  if s.bothOff && !s.flag SW.ETB_CTRL_ETB_EN && s.timeState != tmUNSYNC then (s.set TIME.TIME_STAT_STATE tmUNSYNC).dropKeys else s

/-- The line leaves OFF for LISTEN (R90): BYPASS energised, which the state shows; a twin chip's hat starts from NONE (R332). -/
def State.leaveOff (s : State) (l : Line) : State :=
  let s := s.enterListen l
  let s := s.withForming fun f => if f.everFormed then f else { f with frSeen := false }
  s.when (s.twin && s.hat == hatOFF) fun s => (s.setHat hatNONE s.cycle).withTwin fun t => { t with startTicks := 0 }

/-- Apply R485 to a line: leave OFF when every condition holds, return to it when one fails. -/
def State.applyLineConditions (s : State) (l : Line) : State :=
  if s.mayLeaveOff l then (if s.lineState l = lnOFF then s.leaveOff l else s)
  else if s.lineState l = lnOFF then s
  else s.enterOff l

/-- Apply R485 to both lines after anything it depends on has changed, raising CFG_BAD when one of the checked conditions has started to fail. -/
def State.recheckLines (s before : State) : State :=
  let fails := (before.raisedConditions.zip s.raisedConditions).any fun c => c.1 && !c.2
  let s := s.when (fails && (s.flag (GTB.LINE_CTRL_EN .A) || s.flag (GTB.LINE_CTRL_EN .B))) State.raiseCfgBad
  s.each [Line.A, Line.B] fun l s => s.applyLineConditions l

/-- LINE_CTRL.EN (R88, R485). -/
def State.writeLineEnable (s : State) (l : Line) (on : Bool) : State :=
  let s := s.when (s.flag (GTB.LINE_CTRL_EN l) != on) fun s => s.stampConfig (.gtb l)
  let s := s.setFlag (GTB.LINE_CTRL_EN l) on
  let s := s.when (on && !s.checkedConditions) State.raiseCfgBad
  s.applyLineConditions l

/-- The line follows a Starter (R90, R97): BEST and the registers of the Starter followed. -/
def contentionKey (b : FormingBlock) : Nat := b.rank.toNat * 2 ^ 48 + b.suid.toNat

/-- The node's own key as Starter (R95). -/
def State.ownKey (s : State) : Nat := s.setting GTB.FORM_CFG_RANK * 2 ^ 48 + s.nodeUid.toNat

/-- BEST: the lowest key of the last 16 cycles, and the key of the Starter followed while the line follows one (R95). -/
def State.bestKey (s : State) (l : Line) : Option Nat :=
  let seen := ((s.forming.best.filter fun b => b.2 ≤ 16).map Prod.fst).min?
  let st := s.lineState l
  let followed :=
    if (st = lnRUN || st = lnINTEGRATE || st = lnINAUGURATE || st = lnFORERUNNER) then
      some (s.get (GTB.FORM_STAT_STARTER_RANK l) * 2 ^ 48
        + s.get (GTB.STARTER_UID_HI l) * 2 ^ 32 + s.get (GTB.STARTER_UID_LO l))
    else if st = lnCOLDSTART || st = lnLONE then some s.ownKey
    else none
  match seen, followed with
  | some a, some b => some (min a b)
  | some a, none => some a
  | none, b => b

/-- Note a key seen in a forming tray (R95). -/
def State.noteKey (s : State) (k : Nat) : State :=
  s.withForming fun f => { f with best := f.best.filter (fun b => b.1 != k) ++ [(k, 0)] }

/-- TIME_STAT.STARTER; a node that becomes the Starter has had no edge of PPS_IN as such (R75). -/
def State.setStarter (s : State) (on : Bool) : State :=
  let s := s.when (on && !s.flag TIME.TIME_STAT_STARTER) fun s =>
    (s.setFlag TIME.TIME_STAT_EXT_VALID false).withTime fun t => { t with ppsOutstanding := 0, ppsGoodRun := 0, extPublished := 0 }
  s.setFlag TIME.TIME_STAT_STARTER on

/-- The registers of the Starter followed (R89). -/
def State.followStarter (s : State) (b : FormingBlock) : State :=
  let s := s.each s.served fun l s =>
    ((s.set (GTB.FORM_STAT_STARTER_RANK l) b.rank.toNat).set (GTB.STARTER_UID_LO l) (b.suid.toNat % 2 ^ 32)).set
      (GTB.STARTER_UID_HI l) (b.suid.toNat / 2 ^ 32)
  (s.setStarter (b.suid = s.nodeUid)).withForming fun f => { f with settings := some b }

/-- The k, TRAY_LEN and IDLE_LEN of a forming tray equal the node's own (R93). -/
def State.cycleMatches (s : State) (b : FormingBlock) : Bool :=
  decide (b.k.toNat = s.time.cycleLenK) && decide (b.trayLen.toNat = s.get CYC.TRAY_LEN) && decide (b.idleLen.toNat = s.get CYC.IDLE_LEN)

/-- CYC_MISMATCH (R93). -/
def State.cycleMismatch (s : State) (l : Line) : State := (s.count (GTB.CYC_MISMATCH_CNT l)).raise (.gtb l) 21

/-- NO_ROOM: counted, and raised on the first count since LISTEN was entered (R90, R107). -/
def State.noRoom (s : State) (l : Line) : State :=
  let s := s.count (GTB.NO_ROOM_CNT l)
  if (s.lineOf l).noRoomSeen then s
  else (s.raise (.gtb l) 20).withLine l fun x => { x with noRoomSeen := true }

/-- A node that takes no position at the commit for want of room or of a tray (R107). -/
def State.noPosition (s : State) (l : Line) : State := (s.count (GTB.NO_ROOM_CNT l)).raise (.gtb l) 20

/-- The line enters INAUGURATE, with INAUG_START from RUN (R90, R120). The hold for crossed cables ends (R10), and so does the wait for the
inauguration (R99); an INAUG that no data tray has carried yet goes into a discovery tray (R24). -/
def State.enterInaugurate (s : State) (l : Line) : State :=
  let st := s.lineState l
  let running := st = lnRUN || st = lnFORERUNNER
  let s := s.when running fun s => (s.count (GTB.INAUG_CNT l)).raise (.gtb l) 16
  (((s.setLine l lnINAUGURATE).withLine l fun x => { x with
    writing := false, claiming := none, holdCrossed := false
    inaugPending := x.inaugPending && st != lnCOLDSTART && st != lnLONE }).withForming (fun f => { f with inaugSeen := none })).startLoafs

/-- The line enters INTEGRATE (R90). -/
def State.enterIntegrate (s : State) (l : Line) (p : Purpose) : State :=
  (s.setLine l lnINTEGRATE).withLine l fun x => { x with purpose := p, goodRun := 0, writing := false }

/-! Adopting train time (R58, R73, R74). -/

/-- Enabled marks of a cycle that a step skips (R74). -/
def State.skippedMarks (s : State) (n : Nat) (p : MarkCfg → Nat → Bool) : Nat :=
  (((List.range 16).zip s.time.marks).filter fun x => s.markSelected x.2 n && p x.2 x.1).length

/-- A step of TTC by `o` (0.25 ns units) into cycle `n`, whose tick lies at `tick` (R74). STEP_LAST is in ns: DESIGN CHOICE (log entry 141), `o`
is rounded towards zero. An offset that waits for the tick is dropped, and a rate that waits for it is kept for the first tick of the new timeline: DESIGN
CHOICE (log entry 177). -/
def State.stepTime (s : State) (o : Int) (n : Nat) (tick : BitVec 64) : State :=
  let old := s.skippedMarks s.cycle fun _ i => !s.time.marksFired.contains i
  let ttc' := s.time.ttc + BitVec.ofInt 96 (o * 2 ^ 30)
  let into := (((ttc' >>> 32).setWidth 64 : BitVec 64) - tick).toInt
  let before (m : MarkCfg) := decide ((m.offs : Int) < into)
  let new := s.skippedMarks n fun m _ => before m
  let fired := (((List.range 16).zip s.time.marks).filter fun x => before x.2).map Prod.fst
  let skipped := if s.time.running then old + new else 0
  let s := (s.countBy CYC.MARK_SKIP_CNT skipped).when (skipped != 0) fun s => s.raise .cyc 10
  let s := (((s.setInt TIME.STEP_LAST (saturate 32 (Int.tdiv o 4))).count TIME.STEP_CNT).updateFlag TIME.TIME_STAT_STEPPED).raise .time 10
  let s := s.set TIME.AS_CTRL_TBI (s.get TIME.AS_CTRL_TBI + 1)
  let s := s.withTime fun t => { t with
    ttc := ttc', accSum := 0, accCount := 0, intervalCycles := 0, abandoned := true, afterStep := true,
    marksFired := fired, correction := none, slewLeft := 0, values := [] }
  s.dropKeys.stepLoaf.stepKneaders

/-- Take the cycle number of a tray and recompute T0 (R58, R73): tick n lies TX_OFFS before the sender's outward instant. -/
def State.takeCycle (s : State) (n : Nat) (tick : BitVec 64) : State :=
  (s.set CYC.CYC_NUM n).set64 CYC.T0_LO CYC.T0_HI (tick - BitVec.ofNat 64 (n * s.cycleLen)).toNat
    |>.withTime fun t => { t with firstTick := false }

/-- Adopt train time from values whose uncorrected average is `o` (R73): at once without a train time, as an ordinary correction within P,
as a step beyond. `sent` is the sender's SEND_TIME and `cycle` its header's cycle. T0 is in ns: DESIGN CHOICE (log entry 141), the sender's
instant is rounded down to whole ns. -/
def State.adoptTime (s : State) (o : Int) (cycle : Nat) (sent : BitVec 32) (starter : Uid) : State :=
  let jump := !s.valid || decide (s.limit < o ∨ o < -s.limit)
  let ttc' : Fixed := if jump then s.time.ttc + BitVec.ofInt 96 (o * 2 ^ 30) else s.time.ttc
  let now : Instant := (ttc' >>> 30).setWidth 64
  let tick := ((now - BitVec.ofInt 64 (stampDiff (low32 now) sent)) >>> 2) - BitVec.ofNat 64 (s.get CYC.TX_OFFS)
  let s :=
    if !s.valid then
      ((s.setInt TIME.LAST_CORR o).withTime fun t => { t with ttc := ttc' }).each [Line.A, Line.B] fun k s => s.withLine k fun x => { x with grdTick := none }
    else if jump then (s.setInt TIME.LAST_CORR o).stepTime o cycle tick
    else
      let s := s.withTime fun t => { t with correction := some o }
      if s.time.closedCycle then s else s.closeInterval (some o)
  let s := (s.takeCycle cycle tick).setFlag TIME.TIME_STAT_VALID true
  let s := s.enterSync.withTime fun t => { t with starterHeld := some starter, running := true, outOfPrecisionRun := 0 }
  s.startLoafs

/-- The average a line's values give a chip that adopts: R65's, without a value of its own and without the clamp (R73). -/
def State.adoptionOffset (s : State) : Int := meanOf (keptOf (sortDev s.deviations)) + s.extStep

end Sys2Proof.Machine
end

