-- ==== Sys2Proof/Machine/Wire.lean ====
section
/-! DEFINITION. Bytes on the wire (spec/05_the_tray.md R124 to R140; spec/13_security.md R389; spec/12_bridges.md R375), wire times, the
instants of a port (R60) and the guardian's origination windows (R156). -/

namespace Sys2Proof.Machine

/-! Wire times and instants. -/

/-- Tenths of a nanosecond per byte at an interface code (R141, R290). -/
def byteTime (code : Nat) : Nat :=
  match code with
  | 0 => 80
  | 1 => 32
  | 2 => 16
  | 3 => 8
  | _ => 800

/-- The interface of a backbone port: SGMII at 1 Gbit/s in forerunner mode, MAC_CTRL.IF otherwise and in ETB mode (R117, R262, R288). -/
def State.portCode (s : State) (p : BackbonePort) : Nat :=
  if s.forerunner p.line && !s.flag SW.ETB_CTRL_ETB_EN then 0 else s.get (MAC.MAC_CTRL_IF (8 + portIndex p))

/-- ns that bytes take at an interface code, rounded up. -/
def wireNs (code bytes : Nat) : Nat := (bytes * byteTime code + 9) / 10

/-- PORT_ASYM of a port, signed, in 0.25 ns units (R60). -/
def State.asym (s : State) (p : BackbonePort) : Int := s.getInt (TIME.PORT_ASYM (portIndex p))

/-- A receive instant moved earlier by half of PORT_ASYM, a transmit instant later by half (R60); an odd value's half is cut towards zero
(log entry 22). -/
def State.rxInstant (s : State) (p : BackbonePort) (i : Instant) : Instant := i - BitVec.ofInt 64 (Int.tdiv (s.asym p) 2)
def State.txInstant (s : State) (p : BackbonePort) (i : Instant) : Instant := i + BitVec.ofInt 64 (Int.tdiv (s.asym p) 2)

/-- The midpoint of two instants (R59); DESIGN CHOICE (log entry 22): half of an odd number of units is cut towards zero. -/
def midpoint (x y : Instant) : Instant := x + BitVec.ofInt 64 (Int.tdiv (instantDiff y x) 2)

/-! The guardian (R156, R157). -/

/-- Whole GRD_CLK periods of 40 ns: the opening rounded up, the closing rounded down. -/
def grdUp (i : Int) : Int := 40 * Int.fdiv (i + 39) 40
def grdDown (i : Int) : Int := 40 * Int.fdiv i 40

/-- The window in which the port may originate forming and data trays (R156). -/
def State.trayWindow (s : State) (start len : Int) : Bool :=
  decide (grdUp ((s.get CYC.TX_OFFS : Int) - s.precision) ≤ start) && decide (start + len ≤ grdDown (s.get CYC.TRAY_LEN))

/-- A frame that leaves a port from now on keeps it busy until its last bit, `len` ns from now (R41). -/
def State.occupy (s : State) (p : BackbonePort) (len : Nat) : State :=
  { s with switch := { s.switch with ports := modifyAt s.switch.ports (8 + portIndex p) fun q =>
      { q with busyUntil := BitVec.ofNat 64 (max q.busyUntil.toNat (s.ltcNs.toNat + len)) } } }

/-- An origination at a port whose last bit leaves `len` ns from now: it leaves whole when the window admits it and the guardian has not closed
the port; otherwise it is cut, ends with an inverted FCS and counts GRD_BLOCK_CNT (R156, R157). Nothing leaves a line that may not send. -/
def State.originate (s : State) (l : Line) (p : BackbonePort) (len : Nat) (inWindow : Bool) (mk : Bool → Sent) : State :=
  if !s.mayTransmit (.gtb l) then s
  else
    let good := inWindow && !s.flag (GTB.TRAY_STAT_GRD_CLOSED l)
    ((s.when (!good) fun s => s.count (GTB.GRD_BLOCK_CNT l)).occupy p len).emit (mk good)

/-! Encodings. -/

/-- A discovery record (R139). -/
def DiscRecord.toBytes (r : DiscRecord) : List Byte :=
  let bit (b : Bool) (v : Nat) := if b then v else 0
  bytesBE 6 r.uid.toNat ++ [r.dev, r.hop] ++ bytesBE 2 r.pay.toNat
    ++ [BitVec.ofNat 8 (bit r.startElig 128 + r.rank.toNat * 16 + bit r.syncElig 8 + bit r.twin 4 + bit r.frSeen 2 + bit r.crossed 1),
        BitVec.ofNat 8 (bit r.adopted 128 + r.crumb.toNat)]

/-- The record of 12 bytes. -/
def DiscRecord.ofBytes (b : List Byte) : DiscRecord :=
  let at_ (i : Nat) : Nat := (b.getD i 0).toNat
  ⟨BitVec.ofNat 48 (natOfBE (b.take 6)), b.getD 6 0, b.getD 7 0, BitVec.ofNat 16 (natOfBE ((b.drop 8).take 2)),
   bitOf (at_ 10) 7, BitVec.ofNat 3 (at_ 10 / 16), bitOf (at_ 10) 3, bitOf (at_ 10) 2, bitOf (at_ 10) 1, bitOf (at_ 10) 0,
   bitOf (at_ 11) 7, BitVec.ofNat 4 (at_ 11)⟩

/-- `n` records from bytes. -/
def discRecords (n : Nat) (b : List Byte) : List DiscRecord :=
  (List.range n).map fun i => DiscRecord.ofBytes ((b.drop (12 * i)).take 12)

/-- The record is empty: 12 zero bytes (R139). -/
def DiscRecord.isEmpty (r : DiscRecord) : Bool := r.toBytes.all (· == 0)

/-- The 63 fresh records, in index order (R139, R140). -/
def freshBytes (fresh : List DiscRecord) : List Byte :=
  (List.range 63).flatMap fun i => ((fresh.find? fun r => r.hop.toNat = i).map DiscRecord.toBytes).getD (List.replicate 12 0)

/-- The discovery body (R139); `seek` leaves the fresh records out. -/
def DiscBody.toBytes (b : DiscBody) (seek : Bool) : List Byte :=
  bytesBE 6 b.end1.toNat ++ [BitVec.ofNat 8 b.carried.length, 0] ++ b.carried.flatMap DiscRecord.toBytes
    ++ if seek then [] else freshBytes b.fresh

/-- The discovery body in bytes as it travels over the Lorzel link (R375). -/
def DiscBody.ofBytes (b : List Byte) : DiscBody :=
  let n := (b.getD 6 0).toNat
  ⟨BitVec.ofNat 48 (natOfBE (b.take 6)), discRecords n (b.drop 8), (discRecords 63 (b.drop (8 + 12 * n))).filter fun r => !r.isEmpty⟩

/-- Bytes 1 to 7 of the forming block: RANK and SUID (R138). -/
def FormingBlock.keyBytes (b : FormingBlock) : List Byte := bytesBE 1 b.rank.toNat ++ bytesBE 6 b.suid.toNat

/-- Key body bytes 0 to 9 (R140). -/
def KeyBody.headBytes (b : KeyBody) : List Byte :=
  bytesBE 2 b.newEpoch.toNat ++ bytesBE 4 b.finalCycle.toNat ++ bytesBE 4 b.firstData.toNat

/-- Entry bytes 0 to 7 (R389). -/
def entryHead (uid : Uid) : List Byte := bytesBE 6 uid.toNat ++ [0, 0]

/-- A 68-byte entry (R389). -/
def KeyEntry.toBytes (e : KeyEntry) : List Byte :=
  entryHead e.uid ++ bytesBE 12 e.iv.toNat ++ bytesBE 32 e.ct.toNat ++ bytesBE 16 e.tag.toNat

def KeyEntry.ofBytes (b : List Byte) : KeyEntry :=
  ⟨BitVec.ofNat 48 (natOfBE (b.take 6)), BitVec.ofNat 96 (natOfBE ((b.drop 8).take 12)),
   BitVec.ofNat 256 (natOfBE ((b.drop 20).take 32)), BitVec.ofNat 128 (natOfBE ((b.drop 52).take 16))⟩

/-- Bytes of a one-frame discovery tray with its FCS (R139, R140). -/
def discoverySize (b : DiscBody) (seek : Bool) : Nat := 30 + 40 + (b.toBytes seek).length + 4

/-- The entries that frame `k` of a key-distribution tray carries: 28 to a frame (R140, R389). -/
def keyEntriesOf {α : Type} (entries : List α) (k : Nat) : List α := (entries.drop (28 * k)).take 28

/-- Frames of a key-distribution tray (R389). -/
def keyFrames (entries : Nat) : Nat := max 1 ((entries + 27) / 28)

/-- Bytes of a frame of a key-distribution tray with its FCS: frame 0 carries the block and the body's head. -/
def keyFrameSize (entries k : Nat) : Nat := max 64 (30 + (if k = 0 then 56 else 0) + 68 * entries + 4)

/-- A sync record of this node for a line (R62). -/
def State.syncRecord (s : State) (l : Line) : SyncRecord where
  loop := BitVec.ofNat 32 ((s.lineOf l).loopPrev.getD 0)
  extStep := BitVec.ofInt 16 (if s.flag TIME.TIME_STAT_STARTER then s.time.extPublished else 0)
  loopValid := (s.lineOf l).loopPrev.isSome
  extValid := s.flag TIME.TIME_STAT_STARTER && s.flag TIME.TIME_STAT_EXT_VALID
  starter := s.flag TIME.TIME_STAT_STARTER
  syncSet := s.forming.layout.isSome && s.selfSync

/-- The 8 bytes of a sync record (R62). -/
def SyncRecord.toBytes (r : SyncRecord) : List Byte :=
  let bit (b : Bool) (v : Nat) := if b then v else 0
  bytesBE 4 r.loop.toNat ++ bytesBE 2 r.extStep.toNat
    ++ [BitVec.ofNat 8 (bit r.loopValid 128 + bit r.extValid 64 + bit r.starter 32 + bit r.syncSet 16), 0]

def SyncRecord.ofBytes (b : List Byte) : SyncRecord :=
  let f := (b.getD 6 0).toNat
  ⟨BitVec.ofNat 32 (natOfBE (b.take 4)), BitVec.ofNat 16 (natOfBE ((b.drop 4).take 2)), bitOf f 7, bitOf f 6, bitOf f 5, bitOf f 4⟩

/-! Frames in bytes (R121 to R127, R138 to R140, R160). -/

/-- The destination address of a line's tray frames (R121). -/
def trayAddress (l : Line) : List Byte := [0x03, 0x46, 0x4C, 0x00, 0x00, match l with | .A => 0x01 | .B => 0x02]

/-- The 16 bytes of a tray header (R124). -/
def TrayHeader.toBytes (h : TrayHeader) : List Byte :=
  let bit (b : Bool) (v : Nat) := if b then v else 0
  [BitVec.ofNat 8 (h.version.toNat * 16 + h.kind.toNat),
   BitVec.ofNat 8 (bit h.last 128 + bit h.ret 64 + bit h.auth 32 + bit h.inaug 16 + bit h.final 8 + bit h.reverse 4),
   h.index.setWidth 8, h.count.setWidth 8]
    ++ bytesBE 4 h.cycle.toNat ++ bytesBE 2 h.epoch.toNat ++ [h.origin.setWidth 8, h.hop] ++ bytesBE 4 h.sendTime.toNat

/-- The first 30 bytes of a tray frame: destination, source, EtherType and tray header (R121, R122, R124). -/
def frameHead (l : Line) (h : TrayHeader) : List Byte := trayAddress l ++ bytesBE 6 h.sa.toNat ++ bytesBE 2 h.etype.toNat ++ h.toBytes

/-- The 40 bytes of a forming block (R138). -/
def FormingBlock.toBytes (b : FormingBlock) : List Byte :=
  let bit (x : Bool) (v : Nat) := if x then v else 0
  0 :: b.keyBytes ++ bytesBE 4 b.stamp.toNat ++ b.sync.toBytes ++ bytesBE 2 b.k.toNat ++ bytesBE 4 b.trayLen.toNat ++ bytesBE 4 b.idleLen.toNat
    ++ bytesBE 2 b.crumbPay.toNat ++ [BitVec.ofNat 8 (bit b.auth 128 + bit b.frAllow 64 + b.crumbCnt.toNat), 0] ++ bytesBE 2 b.frK.toNat
    ++ [b.round, b.followers, 0, 0]

/-- The 16 bytes before the entries of a key body (R140). -/
def KeyBody.prefixBytes (b : KeyBody) : List Byte := b.headBytes ++ [b.rep, b.entryCnt, 0, 68, 0, 0]

/-- A slice on the wire (R127). -/
def Slice.toBytes (auth : Bool) (x : Slice) : List Byte := x.headerBytes ++ x.payload ++ if auth then bytesBE 8 x.tag.toNat else []

/-- A frame of at least 60 bytes before its FCS (R108, R264). -/
def padded (bs : List Byte) : List Byte := bs ++ List.replicate (60 - bs.length) 0

/-- A data frame without its FCS (R108, R133, R160). -/
def DataFrame.toBytes (l : Line) (f : DataFrame) : List Byte :=
  padded (frameHead l f.hdr ++ (if f.hdr.index = 0 then bytesBE 8 f.presence.toNat else []) ++ f.slices.flatMap (Slice.toBytes f.hdr.auth))

/-- A cold-start tray without its FCS (R139). -/
def coldStartBytes (l : Line) (h : TrayHeader) (b : FormingBlock) : List Byte := padded (frameHead l h ++ b.toBytes)

/-- A discovery tray without its FCS (R139). -/
def discoveryBytes (l : Line) (h : TrayHeader) (b : FormingBlock) (body : DiscBody) (seek : Bool) : List Byte :=
  frameHead l h ++ b.toBytes ++ body.toBytes seek

/-- A frame of a key-distribution tray without its FCS (R140). -/
def keyDistBytes (l : Line) (h : TrayHeader) (b : FormingBlock) (body : KeyBody) : List Byte :=
  padded (frameHead l h ++ (if h.index = 0 then b.toBytes ++ body.prefixBytes else []) ++ body.entries.flatMap KeyEntry.toBytes)

/-- A slot frame without its FCS (R160). -/
def slotFrameBytes (l : Line) (h : TrayHeader) (t : TimingBlock) (x : Slice) : List Byte :=
  padded (frameHead l h ++ bytesBE 4 t.rxFront.toNat ++ bytesBE 4 t.rxRear.toNat ++ bytesBE 4 t.corr.toNat ++ x.toBytes false)

end Sys2Proof.Machine
end

