-- ==== Sys2Proof/Machine/Guardian.lean ====
section
/-! DEFINITION. The slice guardian's write mask (spec/05_the_tray.md R153 to R155). -/

namespace Sys2Proof.Machine

/-- What of a frame's content the mask looks at: its body's kind. -/
inductive MaskBody
  | data (frame : DataFrame)
  | coldStart
  | seek
  | records (carried : Nat)
  | keys
  | slot
deriving DecidableEq, Repr

/-- The guardian loads its copy: at the tick that starts the first data cycle of an epoch and at a claim confirmation (R153); a re-integrated node
gets neither and loads it as its line enters RUN (DESIGN CHOICE, log entry 153). -/
def State.loadGuard (s : State) (l : Line) : State :=
  let y := s.forming.layout
  s.withLine l fun x => { x with guard := some ⟨(y.map Layout.slots).getD [], y.any Layout.auth, s.posOn l, s.get (GTB.FORM_STAT_CRUMB l)⟩ }

/-- A slot of the guardian's copy in a frame. -/
def GuardCopy.slot (g : GuardCopy) (frame slot : Nat) : Option LayoutSlot := g.slots.find? fun x => x.slot = slot && x.frame = frame

/-- Byte `k` lies in the slot's range, of which `len` bytes from the start count. -/
def inRange (x : Option LayoutSlot) (k skip len : Nat) : Bool := x.any fun x => x.offs + skip ≤ k && k < x.offs + skip + len

/-- Bytes of a slot with its header and tag. -/
def GuardCopy.lengthOf (g : GuardCopy) (x : Option LayoutSlot) : Nat := (x.map fun x => 16 + x.pay + if g.auth then 8 else 0).getD 0

/-- The mask for the body of a data tray other than a reverse copy (R154). -/
def State.dataMask (s : State) (l : Line) (f : DataFrame) (k bit : Nat) : Bool :=
  (s.lineOf l).guard.any fun g =>
    let frame := f.hdr.index.toNat
    if f.hdr.ret then g.slots.any fun x => x.frame = frame && k = x.offs + 7 && bit = 3
    else
      let own := g.slot frame g.position
      let crumb := g.slot frame (64 + g.crumb)
      let claim := (s.lineOf l).claiming.bind fun c => g.slot frame (64 + c)
      let emptyWord := f.slices.any fun y => (claim.any fun x => y.slot.toNat = x.slot) && natOfBE (y.payload.take 6) = 0
      let run := s.lineState l == lnRUN && g.position != 0
      (run && (inRange own k 0 (g.lengthOf own) || (frame == 0 && k == 37 - g.position / 8 && bit == g.position % 8)))
        || (g.crumb != 0 && inRange crumb k 0 (g.lengthOf crumb))
        || (s.lineState l == lnINTEGRATE && emptyWord && inRange claim k 16 8)

/-- The guardian lets the merge stage change bit `bit` of byte `k`, counted from the destination address (R154). -/
def State.maskAllows (s : State) (info : FrameInfo) (h : TrayHeader) (body : MaskBody) (k bit : Nat) : Bool :=
  let l := info.port.line
  let loops := !s.working info.port.across
  let starter := s.flag TIME.TIME_STAT_STARTER
  let fcs := info.size - 4 ≤ k
  let head := !h.ret && (k = 25 || (k = 15 && bit = 4) || (k = 15 && bit = 6 && loops))
  let stamp := !h.ret && starter && 38 ≤ k && k < 50
  fcs || head || match body with
    | .data f => !h.reverse && s.dataMask l f k bit
    | .coldStart => stamp || (!h.ret && k = 67)
    | .seek => stamp || (!h.ret && loops && 70 ≤ k && k < 76)
    | .records n => stamp || (!h.ret && 78 + 12 * n + 12 * h.hop.toNat ≤ k && k < 90 + 12 * n + 12 * h.hop.toNat)
    | .keys => stamp && h.index = 0
    | .slot => false

end Sys2Proof.Machine
end

