-- ==== Sys2Proof/Machine/Forming.lean ====
section
/-! DEFINITION. Forming the train (spec/01_train_model.md R10 to R25; spec/04_forming_the_train.md R88 to R119): topology events, cold start,
discovery, the final list, key distribution and what a tick does to the lines. -/

namespace Sys2Proof.Machine

/-! Topology events (R22 to R24, R99 to R101, R115). -/

/-- TRAY_STAT.LINE_END of a line that is inserted (R13). -/
def State.refreshLineEnd (s : State) (l : Line) : State :=
  s.setFlag (GTB.TRAY_STAT_LINE_END l) (s.lineState l != lnOFF && s.isLineEnd l)

/-- A coupler port (R11). -/
def State.couplerPort (s : State) (p : BackbonePort) : Bool := bitOf (s.get (GTB.PORT_CFG_COUPLER .A)) (portIndex p)

/-- Discovery starts again: nothing of the rounds before counts (R24). -/
def Forming.restart (f : Forming) : Forming :=
  { f with end1 := none, end1FromA := false, end1Port := none, recommit := false, tookAt := none, roundA := [], roundB := [], roundLines := [], arrivedA := none, arrivedB := none, carried := [], carriedLists := [], merged := [],
           confirmRound := 0, finalList := none, firstData := none, keyTrayWhole := false, keyBody := none, keyTray := none, keyRepeats := 0,
           keyLines := [], pendingLayout := none, beyond := false, mismatch := false, fallback := false, fallbackEnd := false,
           tgkEpoch := none }

/-- Discovery starts again for the node: a crossing found in the rounds before counts no more (R10, R24). -/
def State.restartForming (s : State) : State :=
  (s.withForming Forming.restart).withLine .B fun x => { x with crossPending := false }

/-- The Starter schedules the seek round for a trigger of cycle `t` whose newest link came up in cycle `u` (R101). -/
def State.scheduleSeek (s : State) (t u : Nat) : State :=
  s.restartForming.withForming fun f => { f with seekCycle := some (max (t + 2) (u + s.setting GTB.FORM_TMR_LINK_SETTLE + 1)) }

/-- Some served line is in a state of the list. -/
def State.anyLine (s : State) (states : List Nat) : Bool := s.served.any fun l => states.contains (s.lineState l)

/-- An inauguration trigger seen by this node (R22, R24, R99): INAUG goes into the next tray that passes, and the Starter schedules the seek
round. -/
def State.trigger (s : State) (u : Nat) : State :=
  if s.served.all fun l => s.lineState l == lnOFF then s
  else
    let t := s.cycle
    let s := (s.withForming fun f => { f with stirred := true }).each s.served fun l s => s.withLine l fun x => { x with inaugPending := true }
    s.when (s.flag TIME.TIME_STAT_STARTER && s.anyLine [lnRUN, lnFORERUNNER, lnPASSIVE, lnINAUGURATE]) fun s => s.scheduleSeek t u

/-- A change of one of the two kinds that R22 pairs: the first opens the coupling window, the second within it is the trigger on a coupler
port. -/
def State.topologyEvent (s : State) (p : BackbonePort) (link : Bool) : State :=
  let x := (s.lineOf p.line).portOf p.side
  let paired := if link then x.couplerSeen else x.linkSeen
  if paired then
    let s := s.withLine p.line fun y => y.withPort p.side fun q => { q with linkSeen := false, couplerSeen := false }
    let u := if s.linkUp p then ((s.lineOf p.line).portOf p.side).linkUpCycle else s.cycle
    s.when (s.couplerPort p) fun s => s.trigger u
  else
    s.withLine p.line fun y => y.withPort p.side fun q =>
      if link then { q with linkSeen := true } else { q with couplerSeen := true }

/-- PORT_LINK_CHANGE (R22, R24, R100), with LINK_CHANGE of the port's backbone block (R290). -/
def execPortLinkChange (p : BackbonePort) (up : Bool) (s : State) : Host.Outcome State Fault Refusal :=
  .next (
    if !s.powered (.gtb p.line) || s.linkUp p == up then s
    else
      let s := ((s.setLink p up).setFlag (MAC.MAC_STAT_LINK (8 + portIndex p)) up).raiseMac (8 + portIndex p) 0
      let s := s.withLine p.line fun y => y.withPort p.side fun q =>
        { q with settled := false, rxOwn := none, delays := [], linkUpCycle := if up then s.cycle else q.linkUpCycle, linkUpAt := if up then s.ltcNs else q.linkUpAt }
      (s.topologyEvent p true).refreshLineEnd p.line)

/-- COUPLING_WINDOW_EXPIRY (R22, R23). -/
def execCouplingWindowExpiry (p : BackbonePort) (s : State) : Host.Outcome State Fault Refusal :=
  .next (
    let x := (s.lineOf p.line).portOf p.side
    let s := s.when (x.couplerSeen && !x.linkSeen) fun s => (s.count (GTB.CPL_ONLY_CNT p.line)).raise (.gtb p.line) 28
    s.withLine p.line fun y => y.withPort p.side fun q => { q with linkSeen := false, couplerSeen := false })

/-- LINK_SETTLE_EXPIRY (R100). -/
def execLinkSettleExpiry (p : BackbonePort) (s : State) : Host.Outcome State Fault Refusal :=
  .next (
    if s.linkUp p then
      (s.withLine p.line fun y => y.withPort p.side fun q => { q with settled := true }).refreshLineEnd p.line
    else s)

/-- A version-1 frame on a port of a line in GTB mode; the first one in RUN is a trigger (R115). -/
def State.takeV1 (s : State) (p : BackbonePort) : State :=
  let s := s.count (GTB.V1_FRAME_CNT p.line)
  let s := s.withLine p.line fun y => y.withPort p.side fun q => { q with v1This := true }
  let s := (s.withForming fun f => { f with frSeen := true }).refreshLineEnd p.line
  if s.lineState p.line == lnRUN && !(s.lineOf p.line).v1Trigger then
    (s.withLine p.line fun x => { x with v1Trigger := true }).trigger s.cycle
  else s

/-- V1_FRAME_RX. -/
def execV1FrameRx (p : BackbonePort) (s : State) : Host.Outcome State Fault Refusal :=
  .next (if s.live (.gtb p.line) && s.lineState p.line != lnOFF && !s.forerunner p.line then s.takeV1 p else s)

/-! Receiving a tray frame of any kind (R121, R142). -/

/-- The frame leaves with a good FCS: it came with one, and no datapath parity error was found in it (R142). -/
def FrameInfo.clean (i : FrameInfo) : Bool := i.fcsOk && !i.parity

/-- The line whose destination address the frame carries. -/
def FrameInfo.addressed (i : FrameInfo) : Line := if i.otherLine then i.port.line.other else i.port.line

/-- What R121 makes of a tray frame: the state, and whether the node handles it further. `pass` forwards the frame with no change at all, with a
good or an inverted FCS; one with the other line's address leaves in the bytes it came in, `raw`. -/
def State.admitFrame (s : State) (info : FrameInfo) (hdr : TrayHeader) (raw : List Byte) (pass : State → Bool → State) : State × Bool :=
  let l := info.port.line
  let onward := s.working info.port.across && s.mayTransmit (.gtb l)
  let fwd (s : State) := s.when onward fun s => pass s info.clean
  if !s.live (.gtb l) || s.lineState l == lnOFF then (s, false)
  else if !info.otherLine && hdr.version == 1 && !s.forerunner l then (s.takeV1 info.port, false)
  else if !s.working info.port then (s, false)
  else
    let s := s.when (!info.fcsOk) fun s => s.count (GTB.FRAME_ERR_CNT l)
    if info.otherLine then
      (((s.count (GTB.WRONG_LINE_CNT l)).raise (.gtb l) 15).when onward fun s =>
        s.emit (.ethFrame (8 + portIndex info.port.across) raw info.clean), false)
    else if hdr.version != (if s.forerunner l then 1 else 2) then (fwd (s.count (GTB.HDR_MISMATCH_CNT l)), false)
    else if hdr.kind = 0 || 4 < hdr.kind.toNat then (fwd s, false)
    else (s, true)

/-- A tray that starts on a line takes the INAUG that waits for it (R99): a data tray with its frame 0, a discovery or key-distribution tray; cold-start
trays carry none. -/
def State.openMark (s : State) (l : Line) (h : TrayHeader) : State :=
  s.when ((s.lineOf l).inaugPending && h.kind ≠ 2 && (h.index = 0 || (h.kind = 1 && h.version = 1))) fun s =>
    s.withLine l fun x => { x with inaugPending := false, inaugMark := some h.cycle.toNat }

/-- INAUG goes into the frames of this tray (R99). -/
def State.marksInaug (s : State) (l : Line) (h : TrayHeader) : Bool :=
  h.kind ≠ 2 && (s.lineOf l).inaugMark == some h.cycle.toNat

/-- The header as the node passes it on the outward pass (R126); on the return pass it leaves as it came (R154). -/
def State.outwardHeader (s : State) (l : Line) (h : TrayHeader) : TrayHeader :=
  { h with hop := if h.hop = 255 then 255 else h.hop + 1, inaug := h.inaug || s.marksInaug l h }

/-- Where a tray goes on its outward pass: out of the opposite port, or back as the line end (R145). -/
def State.onwardPort (s : State) (info : FrameInfo) : BackbonePort := if s.working info.port.across then info.port.across else info.port

/-- A forming tray that came with a wrong FCS, or in which a parity error was found: it leaves with the header edits and an inverted FCS (R126,
R142), and the node takes nothing from it (log entry 151). -/
def State.passDamaged (s : State) (info : FrameInfo) (hdr : TrayHeader) (own : Bool) (mk : BackbonePort → TrayHeader → Bool → Sent) : State :=
  let l := info.port.line
  if hdr.ret then
    s.when (!own && s.working info.port.across && s.mayTransmit (.gtb l)) fun s => s.emit (mk info.port.across hdr false)
  else
    let s := s.openMark l hdr
    s.when (s.mayTransmit (.gtb l)) fun s =>
      s.emit (mk (s.onwardPort info) { s.outwardHeader l hdr with ret := !s.working info.port.across } false)

/-- The outward instants of a tray at this node (R59): `a` at the onward port, and at a line end `a = b`, the midpoint. -/
def State.takeOutward (s : State) (info : FrameInfo) (loops : Bool) : State :=
  let rx := s.rxInstant info.port info.arrived
  if loops then
    let m := midpoint rx (s.txInstant info.port info.left)
    s.withLine info.port.line fun x => { x with ownA := some m, ownB := some m }
  else s.withLine info.port.line fun x => { x with ownA := some (s.txInstant info.port.across info.left), ownB := none }

/-- The return instant (R59). -/
def State.takeReturn (s : State) (info : FrameInfo) : State :=
  s.withLine info.port.line fun x => { x with ownB := some (s.rxInstant info.port info.arrived) }

/-- The return instant of a Starter's own tray, at the port it left by (R96). -/
def State.takePortReturn (s : State) (info : FrameInfo) : State :=
  s.withLine info.port.line fun x => x.withPort info.port.side fun q => { q with coldBack := some (s.rxInstant info.port info.arrived) }

/-- The loop time of this tray, where both instants are known. -/
def LineState.loopNow (x : LineState) : Option Nat :=
  match x.ownA, x.ownB with
  | some a, some b => some (instantDiff b a).toNat
  | _, _ => none

/-- The loop time of a port's own tray (R96). -/
def PortState.roll (q : PortState) : PortState :=
  { q with
    coldOut := none, coldBack := none
    coldLoop := match q.coldOut, q.coldBack with
      | some a, some b => some (instantDiff b a).toNat
      | _, _ => none }

/-- The marks and instants of a line start anew with the trays of cycle `n`; `follows` when it is the cycle after the last one, whose loop time
is then the line's own loop time of the previous cycle (R62, R63). -/
def LineState.roll (x : LineState) (n : Nat) (follows : Bool) : LineState :=
  { x with
    trayCycle := some n
    loopPrev := if follows then x.loopNow else none
    revLoop := match x.revOwnA, x.revOwnB with
      | some a, some b => some (instantDiff b a).toNat
      | _, _ => none
    ownA := none, ownB := none, revOwnA := none, revOwnB := none
    partakes := false, nextIndex := 0, nextReturn := 0, broken := false, spacing := none
    sawOutwardLast := x.sawOutward, sawOutward := false, sawReverse := false
    outwardBad := [], writtenOutward := [], crumbsSeen := [], inaugRead := false
    front := x.front.roll, rear := x.rear.roll }

/-- A chip without a train time has no tick: what a cycle collects starts anew with the first tray of the next. -/
def State.openCycle (s : State) : State :=
  let s := s.withTime fun t => { t with values := [], returnEndSeen := false, returnClosed := false, closedCycle := false }
  let s := { s with selection := Selection.reset }
  s.each [Line.A, Line.B] fun l s => s.withLine l fun x =>
    { x with
      front := { x.front with v1Last := x.front.v1This, v1This := false }
      rear := { x.rear with v1Last := x.rear.v1This, v1This := false } }

/-- A tray of cycle `n` on a line that listens, integrates or inaugurates: the line's instants and marks belong to that cycle, whatever the chip's
own cycle is (R73, R92, R96). A line in RUN or PASSIVE takes trays of its own cycle only (R125). -/
def State.openTray (s : State) (l : Line) (n : Nat) : State :=
  let x := s.lineOf l
  if x.trayCycle == some n || !([lnLISTEN, lnINTEGRATE, lnINAUGURATE].contains (s.lineState l)) then s
  else
    let s := s.when (!s.valid && !(s.served.any fun k => (s.lineOf k).trayCycle == some n)) State.openCycle
    let s := s.withTime fun t => { t with values := t.values.filter fun v => v.line != l }
    let s := { s with selection := { s.selection with copies := s.selection.copies.filter fun c => c.line != l } }
    s.withLine l fun x => x.roll n (x.trayCycle.any fun c => (c + 1) % 2 ^ 32 == n)

/-! Starters and following (R90, R91, R95, R97). -/

/-- Split bytes into segments of at most 508 (R375). -/
def segmentsOf (kind round : Nat) (bytes : List Byte) : List FormingSegment :=
  let n := max 1 ((bytes.length + 507) / 508)
  (List.range n).map fun i =>
    ⟨BitVec.ofNat 8 kind, BitVec.ofNat 8 round, BitVec.ofNat 8 i, BitVec.ofNat 8 n, (bytes.drop (508 * i)).take 508⟩

/-- Forming data to the other chip of a pair (R91, R103, R375). -/
def State.sendForming (s : State) (kind round : Nat) (bytes : List Byte) : State :=
  s.when s.twin fun s => s.each (segmentsOf kind round bytes) fun g s => s.sendLink (.forming g) 0

/-- The line whose trays decide for the node (R91): A, or B while A is OFF or PASSIVE; in a pair the wearer's own line, a standby deciding nothing
(log entry 145). -/
def State.decides (s : State) (l : Line) : Bool :=
  s.served.contains l
    && if s.twin then s.hat != hatSTANDBY else l == .A || s.lineState .A == lnOFF || s.lineState .A == lnPASSIVE

/-- The key K as it stands in the registers of the Starter followed (R89, R95). -/
def State.followedKey (s : State) (l : Line) : Nat :=
  s.get (GTB.FORM_STAT_STARTER_RANK l) * 2 ^ 48 + s.get64 (GTB.STARTER_UID_LO l) (GTB.STARTER_UID_HI l)

/-- The wearer passes its decisions to the other chip (R91, R375): the Starter followed, the epoch, fallback, the first data cycle. -/
def State.sendDecision (s : State) : State :=
  s.when (s.twin && s.owns) fun s => s.sendForming 2 0
    (bytesBE 8 (s.followedKey (s.served.headD .A)) ++ bytesBE 2 s.forming.newEpoch.toNat
      ++ [if s.forming.fallback then 1 else 0, 0] ++ bytesBE 4 (s.forming.firstData.getD 0))

/-- Follow the Starter of a forming tray (R91); another one than before is a decision to pass on. A line that does not decide takes the settings of the
Starter decided on from its trays (R106, R108). -/
def State.follow (s : State) (l : Line) (b : FormingBlock) : State :=
  if !s.decides l then
    if s.followedKey l = contentionKey b then s.withForming fun f => { f with settings := some b } else s
  else
    let new := s.followedKey l != contentionKey b
    (s.followStarter b).when new State.sendDecision

/-- The tray is worse than BEST (R95). -/
def State.worseThanBest (s : State) (l : Line) (b : FormingBlock) : Bool :=
  (s.bestKey l).any fun k => decide (k < contentionKey b)

/-- COLD_DROP (R95). -/
def State.dropCold (s : State) (l : Line) : State := s.count (GTB.COLD_DROP_CNT l)

/-- A Starter gives up its cold start or discovery (R97). -/
def State.coldLost (s : State) (l : Line) : State :=
  (s.raise (.gtb l) 18).withForming fun f => { f with seekCycle := none }

/-- The value of the Starter in a forming tray: `up` when it stamped the tray before this node saw it outward (R96, R138). -/
def State.formingDeviation (s : State) (l : Line) (b : FormingBlock) (up : Bool) : Option Int :=
  let x := s.lineOf l
  let own : Int := (x.loopNow.getD 0 : Nat)
  if !b.sync.loopValid then none
  else if up then x.ownA.map fun a => stampDiff b.stamp (low32 a) + Int.tdiv ((b.sync.loop.toNat : Int) - own) 2
  else x.ownB.map fun i => stampDiff b.stamp (low32 i) + Int.tdiv ((b.sync.loop.toNat : Int) + own) 2

/-- Keep the Starter's value and adopt from it where R73 says so. -/
def State.adoptFrom (s : State) (l : Line) (hdr : TrayHeader) (b : FormingBlock) (up : Bool) : State :=
  match s.formingDeviation l b up with
  | none => s
  | some d =>
    if b.suid = s.nodeUid then s
    else
      let pos := (s.forming.layout.map fun y => positionIn y.nodes b.suid).getD 0
      let s := s.withTime fun t => { t with values := t.values ++ [⟨l, pos, b.suid, b.stamp, b.sync, true, false, true, up, some d, true⟩] }
      let fresh := s.timeState = tmUNSYNC && (s.lineState l = lnINTEGRATE || s.lineState l = lnPASSIVE)
      let other := s.followedKey l = contentionKey b && s.time.starterHeld != some b.suid
      if fresh || other then
        ((s.showAverage [(pos, d)]).adoptTime (d + b.sync.extStep.toInt) hdr.cycle.toNat hdr.sendTime b.suid).withForming fun f =>
          { f with adopted := true }
      else s

/-- The sync record of the Starter for a line and direction (R96, R138): with the loop time of its own tray out of that port, or with the line's
where the port is the one facing away from end 1. -/
def State.portSync (s : State) (l : Line) (d : Side) : SyncRecord :=
  let r := s.syncRecord l
  match ((s.lineOf l).portOf d).coldLoop with
  | some v => { r with loop := BitVec.ofNat 32 v, loopValid := true }
  | none => if (s.downstream l).side = d then r else { r with loop := 0, loopValid := false }

/-- The forming block of a tray this node sends out of a port (R95, R138): its own settings as Starter, the Starter's otherwise. In PROVISIONED a
Starter sends AUTH clear (R383). -/
def State.formingBlock (s : State) (l : Line) (d : Side) (a : Instant) (round count : Nat) : FormingBlock :=
  if s.flag TIME.TIME_STAT_STARTER then
    { rank := BitVec.ofNat 3 (s.setting GTB.FORM_CFG_RANK)
      suid := s.nodeUid
      stamp := low32 a
      sync := s.portSync l d
      k := BitVec.ofNat 16 s.time.cycleLenK
      trayLen := BitVec.ofNat 32 (s.get CYC.TRAY_LEN)
      idleLen := BitVec.ofNat 32 (s.get CYC.IDLE_LEN)
      crumbPay := BitVec.ofNat 16 (s.setting GTB.CRUMB_CFG_PAY)
      auth := s.setting GTB.FORM_CFG_AUTH = 1 && s.lifeCycle != lcPROVISIONED
      frAllow := s.setting GTB.FORM_CFG_FR_ALLOW = 1
      crumbCnt := BitVec.ofNat 4 (s.setting GTB.CRUMB_CFG_CNT)
      frK := BitVec.ofNat 16 (s.setting GTB.FR_CFG_FR_K)
      round := BitVec.ofNat 8 round
      followers := BitVec.ofNat 8 count }
  else
    let none_ : SyncRecord := ⟨0, 0, false, false, false, false⟩
    match s.forming.settings with
    | some b => { b with stamp := 0, sync := none_, round := BitVec.ofNat 8 round, followers := BitVec.ofNat 8 count }
    | none => ⟨0, 0, 0, none_, 0, 0, 0, 0, false, false, 0, 0, BitVec.ofNat 8 round, BitVec.ofNat 8 count⟩

/-- The settings of the Starter that an inauguration goes by (R108, R116): on the Starter, those it sends. -/
def State.starterSettings (s : State) : Option FormingBlock :=
  if s.flag TIME.TIME_STAT_STARTER then some (s.formingBlock (s.served.headD .A) .front 0 0 0) else s.forming.settings

/-- The header of a forming tray this node sends (R124). In forerunner mode it starts at HOP 1 too: DESIGN CHOICE (log entry 149), so that the
records of R140 keep their places. -/
def State.formingHeader (s : State) (l : Line) (a : Instant) (kind : Nat) (final : Bool) : TrayHeader where
  sa := s.nodeUid
  etype := BitVec.ofNat 16 (s.get (GTB.TRAY_CFG_ETYPE .A))
  version := if s.forerunner l then 1 else 2
  kind := BitVec.ofNat 4 kind
  last := true
  ret := false
  auth := false
  inaug := kind ≠ 2 && (s.lineOf l).inaugMark == some s.cycle
  final := final
  reverse := false
  index := 0
  count := 1
  cycle := BitVec.ofNat 32 s.cycle
  epoch := BitVec.ofNat 16 (s.get (GTB.FORM_EPOCH l))
  origin := BitVec.ofNat 6 (s.posOn l)
  hop := 1
  sendTime := low32 a

/-- The Starter writes its stamp and sync record as a tray passes it outward towards a side (R138). -/
def State.starterStamp (s : State) (l : Line) (d : Side) (b : FormingBlock) : FormingBlock :=
  if b.suid = s.nodeUid then
    { b with stamp := low32 ((s.lineOf l).ownA.getD 0), sync := s.portSync l d }
  else b

/-! Cold start (R90, R96 to R98). -/

/-- The line enters COLDSTART: this node is the Starter it follows. -/
def State.enterColdStart (s : State) (l : Line) : State :=
  let s := (s.setLine l lnCOLDSTART).withLine l fun x =>
    { x with coldNumber := 0, coldAny := false, followersPrev := none, followersSum := 0 }
  let s := s.when (s.decides l || !s.flag TIME.TIME_STAT_STARTER) fun s => s.setStarter true
  s.followStarter (s.formingBlock l .front 0 0 0)

/-- A worse Starter meets a node in LONE: it starts a cold start of its own, on both lines (R90, R91). -/
def State.leaveLone (s : State) : State :=
  s.each s.served fun k s => if s.lineState k = lnLONE then s.enterColdStart k else s

/-- The node follows another Starter by its other line, which decides (R91). -/
def State.followsElsewhere (s : State) (l : Line) : Bool :=
  !s.flag TIME.TIME_STAT_STARTER && !s.decides l && s.served.any fun k => s.decides k
    && [lnINTEGRATE, lnINAUGURATE, lnRUN, lnFORERUNNER].contains (s.lineState k)

/-- LISTEN_TIMER_EXPIRY (R90); during a relink wait no listen timer runs (R117). The Starter followed is one decision for both lines (R91): while the
deciding line follows another, the other line does not start a train of its own (DEDUCED, log entry 169). -/
def execListenTimerExpiry (l : Line) (s : State) : Host.Outcome State Fault Refusal :=
  .next (
    if s.lineState l = lnLISTEN && !s.forming.relinkWait && s.setting GTB.FORM_CFG_START_ELIG = 1 && !s.followsElsewhere l then s.enterColdStart l
    else s)

/-- One cold-start tray out of both ports, each with the stamp and the loop time of its direction (R96): the first one starts or keeps train
time (R69). -/
def State.sendColdStart (s : State) (l : Line) (at_ : Instant) (number : Nat) : State :=
  let first := !s.valid
  let s := s.when (s.timeState = tmUNSYNC) State.enterLead
  let a (s : State) (p : BackbonePort) : Instant := s.txInstant p (if first then s.ttcInstant else at_)
  let s := s.withLine l fun x => { x with ownA := some (a s (s.downstream l)), ownB := none }
  let s := s.withTime fun t => { t with starterHeld := some s.nodeUid }
  s.each ((portsOf l).filter s.working) fun p s =>
    let a := a s p
    let s := s.withLine l fun x => x.withPort p.side fun q => { q with coldOut := some a, coldBack := none }
    let len := wireNs (s.portCode p) 74
    let ok := first || s.trayWindow (s.afterTick a) len
    s.originate l p len ok fun good => .coldStart p (s.formingHeader l a 2 false) (s.formingBlock l p.side a number 0) good

/-- COLD_START_TRAY_TX: a line in COLDSTART sends its next tray (R96). -/
def execColdStartTrayTx (l : Line) (a : Instant) (s : State) : Host.Outcome State Fault Refusal :=
  .next (
    if s.lineState l = lnCOLDSTART && s.live (.gtb l) then
      let n := min 8 ((s.lineOf l).coldNumber + 1)
      (s.withLine l fun x => { x with coldNumber := n, followersSum := 0 }).sendColdStart l a n
    else s)

/-- LONE_PROBE_EXPIRY: one cold-start tray (R98). -/
def execLoneProbeExpiry (l : Line) (a : Instant) (s : State) : Host.Outcome State Fault Refusal :=
  .next (if s.lineState l = lnLONE && s.live (.gtb l) then s.sendColdStart l a 1 else s)

/-- The node gives way to a better Starter (R97): as Starter it stops at once, and the outcome holds for both lines (R91). -/
def State.giveWay (s : State) (l : Line) (b : FormingBlock) : State :=
  let lost := s.flag TIME.TIME_STAT_STARTER && s.lineState l != lnLONE
  let s := (s.when lost fun s => s.coldLost l).setStarter false
  (s.follow l b).each s.served fun k s =>
    if k = l || [lnCOLDSTART, lnLONE, lnRUN, lnFORERUNNER].contains (s.lineState k) then s.enterIntegrate k .follow else s

/-- The key that a Starter must beat on a line: the node's own while it leads, that of the Starter followed otherwise. -/
def State.keyToBeat (s : State) (l : Line) : Nat :=
  if s.lineState l = lnCOLDSTART || s.lineState l = lnLONE then s.ownKey else s.followedKey l

/-- The transitions a cold-start tray of another Starter causes (R90, R93, R97). -/
def State.meetColdStart (s : State) (l : Line) (b : FormingBlock) : State :=
  let st := s.lineState l
  if st = lnLISTEN then
    if s.cycleMatches b then (s.follow l b).enterIntegrate l .follow else s.cycleMismatch l
  else if !s.decides l || st = lnPASSIVE then s
  else if contentionKey b < s.keyToBeat l then
    if s.cycleMatches b then s.giveWay l b else s.cycleMismatch l
  else if st = lnLONE then s.leaveLone
  else s

/-- The line follows the Starter of a tray. -/
def State.follows (s : State) (l : Line) (b : FormingBlock) : Bool :=
  s.followedKey l == contentionKey b && [lnINTEGRATE, lnINAUGURATE, lnRUN, lnFORERUNNER].contains (s.lineState l)

/-- A cold-start tray (R96, R97). -/
def State.coldStartRx (s : State) (info : FrameInfo) (hdr : TrayHeader) (b : FormingBlock) : State :=
  let l := info.port.line
  let own := b.suid = s.nodeUid
  let (s, take) := s.admitFrame info hdr (coldStartBytes info.addressed hdr b) fun s good => s.emit (.coldStart info.port.across hdr b good)
  if !take then s
  else if !info.clean then
    if own && !hdr.ret then s
    else if !hdr.ret && s.worseThanBest l b then s.dropCold l
    else s.passDamaged info hdr own fun p h good => .coldStart p h b good
  else if hdr.ret then
    let s := s.takeReturn info
    if own then
      let s := s.takePortReturn info
      s.when (s.lineState l = lnCOLDSTART) fun s => s.withLine l fun x =>
        { x with followersSum := x.followersSum + b.followers.toNat, coldAny := x.coldAny || b.followers != 0 }
    else
      let s := s.when (s.mayTransmit (.gtb l)) fun s => s.emit (.coldStart info.port.across hdr b true)
      s.when (s.follows l b) fun s => s.adoptFrom l hdr b true
  else if own then s
  else
    let worse := s.worseThanBest l b
    let s := s.noteKey (contentionKey b)
    if worse then (if s.lineState l = lnLONE then s.leaveLone else s).dropCold l
    else
      let s := (s.meetColdStart l b).openTray l hdr.cycle.toNat
      let s := s.when (s.decides l) fun s => s.withForming fun f => { f with starterEpoch := hdr.epoch, epochOf := some b.suid }
      let loops := !s.working info.port.across
      let s := s.takeOutward info loops
      let b' := if s.follows l b then { b with followers := if b.followers = 255 then 255 else b.followers + 1 } else b
      let h := { s.outwardHeader l hdr with ret := loops }
      let p := if loops then info.port else info.port.across
      let s := s.when (s.mayTransmit (.gtb l)) fun s => s.emit (.coldStart p h b' true)
      s.when (loops && s.follows l b) fun s => s.adoptFrom l hdr b true

/-! Discovery (R101 to R104). -/

/-- This node's discovery record (R102). -/
def State.ownRecord (s : State) (l : Line) (hop : Nat) (confirm : Bool) : DiscRecord where
  uid := s.nodeUid
  dev := 0x74
  hop := BitVec.ofNat 8 hop
  pay := BitVec.ofNat 16 (s.setting GTB.FORM_CFG_SLICE_PAY)
  startElig := s.setting GTB.FORM_CFG_START_ELIG = 1
  rank := BitVec.ofNat 3 (s.setting GTB.FORM_CFG_RANK)
  syncElig := s.flag TIME.TIME_CTRL_SYNC_ELIG
  twin := s.twin
  frSeen := s.forming.frSeen
  crossed := confirm && s.lineB.crossPending
  adopted := s.forming.adopted
  crumb := BitVec.ofNat 4 (s.get (GTB.FORM_STAT_CRUMB l))

/-- The fresh list of a line. -/
def Forming.roundOf (f : Forming) : Line → List DiscRecord
  | .A => f.roundA
  | .B => f.roundB

def Forming.setRound (f : Forming) (l : Line) (r : List DiscRecord) : Forming :=
  let f := { f with roundLines := f.roundLines.filter (· != l) ++ [l] }
  match l with
  | .A => { f with roundA := r }
  | .B => { f with roundB := r }

/-- The fresh list of a line in the round in progress; a line that brought none in it adds none to the merge (R103). -/
def Forming.freshOf (f : Forming) (l : Line) : List DiscRecord := if f.roundLines.contains l then f.roundOf l else []

/-- The list that the confirm tray of cycle `n` carried (R104, R105): its round stands as not final while another follows. -/
def Forming.setCarried (f : Forming) (n : Nat) (list : List DiscRecord) : Forming :=
  { f with carried := list, carriedLists := f.carriedLists.filter (fun x => x.1 != n) ++ [(n, list)],
           finalList := if f.finalCycle = n then f.finalList else none }

def Forming.setArrived (f : Forming) (l : Line) (d : Side) : Forming :=
  match l with
  | .A => { f with arrivedA := some d }
  | .B => { f with arrivedB := some d }

/-- The line is part of an inauguration from here on. With another Starter than before, what the rounds before have brought counts no more
(R110). -/
def State.joinDiscovery (s : State) (l : Line) (b : FormingBlock) : State :=
  let s := s.when (s.decides l && s.followedKey l != contentionKey b) State.restartForming
  let s := s.follow l b
  if s.lineState l = lnINAUGURATE then s else s.enterInaugurate l

/-- The transitions a seek (1), count (2) or confirm (3) tray of another Starter causes (R90, R110). -/
def State.meetDiscovery (s : State) (l : Line) (b : FormingBlock) (round : Nat) : State :=
  let better := contentionKey b < s.keyToBeat l
  let st := s.lineState l
  if st = lnLISTEN then (if round = 1 then (s.follow l b).enterIntegrate l .follow else s.joinDiscovery l b)
  else if st = lnCOLDSTART then (if better && round < 3 && s.decides l then s.giveWay l b else s)
  else if st = lnLONE then (if better && round = 1 && s.decides l then s.giveWay l b else s)
  else
    let s := s.when (better && s.flag TIME.TIME_STAT_STARTER && s.decides l) fun s =>
      (s.coldLost l).setStarter false
    s.joinDiscovery l b

/-- The epoch that the new one counts from (R20): the Starter's, as a tray it sent shows it; a node that no such tray has reached takes its own
where it holds that Starter's train time, and the sender's otherwise (DEDUCED, log entry 147). -/
def State.learnEpoch (s : State) (l : Line) (hdr : TrayHeader) (b : FormingBlock) (fromStarter : Bool) : State :=
  if !s.decides l then s
  else if fromStarter then s.withForming fun f => { f with starterEpoch := hdr.epoch, epochOf := some b.suid }
  else if s.forming.epochOf == some b.suid || b.suid = s.nodeUid then s
  else
    let e := if s.time.starterHeld == some b.suid then BitVec.ofNat 16 (s.get (GTB.FORM_EPOCH l)) else hdr.epoch
    s.withForming fun f => { f with starterEpoch := e, epochOf := some b.suid }

/-- INAUG in a discovery or key-distribution tray has been seen (R14); on the Starter, discovery restarts at the seek round (R24, R99). -/
def State.readInaug (s : State) (hdr : TrayHeader) : State :=
  let s := s.when hdr.inaug fun s => s.withForming fun f => { f with stirred := true }
  if hdr.inaug && s.flag TIME.TIME_STAT_STARTER && s.anyLine [lnINAUGURATE] then
    let t := hdr.cycle.toNat - 1
    s.scheduleSeek t t
  else s

/-- END1_UID of the seek round (R101): the result on line A governs, and line B's only where line A has brought none, as it does not where the
Starter's line A is OFF (log entry 146). A twin chip has its own line's. -/
def State.noteEnd1 (s : State) (l : Line) (uid : Uid) : State :=
  s.when (l == .A || !s.forming.end1FromA || s.twin) fun s =>
    s.withForming fun f => { f with end1 := some uid, end1FromA := f.end1FromA || l == .A }

/-- The node at which a seek tray loops is end 1 where that line's result governs (R101): `d` is its side without a working link. Its count trays
leave by the other side, on both lines (R10, R102); the seek tray itself shows no orientation (R12). -/
def State.becomeEnd1 (s : State) (l : Line) (d : Side) : State :=
  let s := s.noteEnd1 l s.nodeUid
  s.when (s.forming.end1 == some s.nodeUid && (l == .A || !s.forming.end1FromA || s.twin)) fun s =>
    s.withForming fun f => { f with end1Port := some d }

/-- SEEK_TRAY_TX: the Starter sends the seek tray out of a line's front port (R101); without a working link there it is end 1. -/
def execSeekTrayTx (l : Line) (a : Instant) (s : State) : Host.Outcome State Fault Refusal :=
  .next (
    let due := s.forming.seekCycle.any fun c => decide (c ≤ s.cycle)
    if s.flag TIME.TIME_STAT_STARTER && due && s.live (.gtb l)
        && s.lineState l != lnOFF then
      let front : BackbonePort := ⟨l, .front⟩
      let a := s.txInstant front a
      let s := if s.lineState l = lnINAUGURATE then s else s.enterInaugurate l
      let s := s.withForming fun f => { f with
        round := 1, starterEpoch := BitVec.ofNat 16 (s.get (GTB.FORM_EPOCH l)), epochOf := some s.nodeUid }
      let s := s.openMark l (s.formingHeader l a 3 false)
      if s.working front then
        let s := s.withLine l fun x => { x with ownA := some a, ownB := none }
        let hdr := s.formingHeader l a 3 false
        let block := s.formingBlock l .front a 1 0
        let s := s.withLine l fun x => x.withPort .front fun q => { q with coldOut := some a, coldBack := none }
        let body : DiscBody := ⟨0, [], []⟩
        let len := wireNs (s.portCode front) (discoverySize body true)
        let ok := s.trayWindow (s.afterTick a) len
        s.originate l front len ok fun good => .discovery front hdr block body good
      else s.becomeEnd1 l .front
    else s)

/-- A seek tray (R101). -/
def State.seekRx (s : State) (info : FrameInfo) (hdr : TrayHeader) (b : FormingBlock) (body : DiscBody) : State :=
  let l := info.port.line
  let (s, take) := s.admitFrame info hdr (discoveryBytes info.addressed hdr b body true) fun s good => s.emit (.discovery info.port.across hdr b body good)
  if !take then s
  else if !info.clean then
    if !hdr.ret && s.worseThanBest l b then s.dropCold l
    else s.passDamaged info hdr (b.suid = s.nodeUid) fun p h good => .discovery p h b body good
  else
    let s := s.readInaug hdr
    if hdr.ret then
      let s := (s.takeReturn info).noteEnd1 l body.end1
      if b.suid = s.nodeUid then s.takePortReturn info
      else
        let s := s.when (s.mayTransmit (.gtb l)) fun s => s.emit (.discovery info.port.across hdr b body true)
        s.when (s.follows l b) fun s => s.adoptFrom l hdr b true
    else if s.worseThanBest l b then (s.noteKey (contentionKey b)).dropCold l
    else
      let s := s.noteKey (contentionKey b)
      let match_ := s.cycleMatches b
      let s := if match_ then s.meetDiscovery l b 1 else s.cycleMismatch l
      let s := s.when match_ fun s =>
        ((if s.forming.round = 1 then s else s.restartForming).withForming fun f => { f with round := 1 }).learnEpoch l hdr b true
      let loops := !s.working info.port.across
      let s := ((s.openTray l hdr.cycle.toNat).takeOutward info loops).openMark l hdr
      let h := { s.outwardHeader l hdr with ret := loops }
      if loops then
        let body := { body with end1 := s.nodeUid }
        let s := s.becomeEnd1 l info.port.side.opposite
        let s := s.when (s.mayTransmit (.gtb l)) fun s => s.emit (.discovery info.port h b body true)
        s.when (s.follows l b) fun s => s.adoptFrom l hdr b true
      else s.when (s.mayTransmit (.gtb l)) fun s => s.emit (.discovery info.port.across h b body true)

/-- The node is origin of the discovery in progress: end 1 (R12, R101). -/
def State.isEnd1 (s : State) : Bool := s.forming.end1 == some s.nodeUid

/-- A count (2) or confirm (3) tray from the origin out of the port facing away from end 1 (R102, R104, R140), or the FINAL discovery tray of
forerunner mode (R105). -/
def State.sendRound (s : State) (l : Line) (a : Instant) (round : Nat) (final : Bool) : State :=
  let s := s.withLine l fun x => { x with end1Side := s.forming.end1Port.or x.end1Side }
  let p := s.downstream l
  let a := s.txInstant p a
  let s := s.withLine l fun x => { x with ownA := some a, ownB := none, starterUp := s.flag TIME.TIME_STAT_STARTER }
  let own := s.ownRecord l 0 (round = 3)
  let body : DiscBody := ⟨0, if round = 3 then s.forming.carried else [], [own]⟩
  let s := s.withForming fun f => { f.setRound l [own] with round := if final then 4 else round, adopted := false }
  let s := s.openMark l (s.formingHeader l a 3 final)
  let block := s.formingBlock l p.side a round (if round = 3 then s.forming.confirmRound else 0)
  let hdr := s.formingHeader l a 3 final
  let len := wireNs (s.portCode p) (discoverySize body false)
  let ok := s.trayWindow (s.afterTick a) len
  if s.working p then s.originate l p len ok fun good => .discovery p hdr block body good
  else s.when final fun s => s.withForming fun f => { f with keyLines := f.keyLines ++ [l] }

/-- COUNT_TRAY_TX (R102). -/
def execCountTrayTx (l : Line) (a : Instant) (s : State) : Host.Outcome State Fault Refusal :=
  .next (
    if s.isEnd1 && s.lineState l = lnINAUGURATE && s.live (.gtb l) && s.forming.finalList.isNone then s.sendRound l a 2 false
    else s)

/-- CONFIRM_TRAY_TX (R104): carries the merged list of the previous round, of at most 63 records (R139). -/
def execConfirmTrayTx (l : Line) (a : Instant) (s : State) : Host.Outcome State Fault Refusal :=
  .next (
    if s.isEnd1 && s.lineState l = lnINAUGURATE && s.live (.gtb l) && s.forming.finalList.isNone && !s.forming.merged.isEmpty then
      let s := if s.forming.round = 3 then s
        else s.withForming fun f => { f.setCarried s.cycle (f.merged.take 63) with confirmRound := f.confirmRound + 1 }
      s.sendRound l a 3 false
    else s)

/-- The records a return pass of cycle `n` brings, kept for the line and sent to the twin (R102, R103). -/
def State.readRound (s : State) (l : Line) (n : Nat) (b : FormingBlock) (body : DiscBody) : State :=
  let confirm := b.round = 3
  let s := s.withForming fun f =>
    let f := f.setRound l body.fresh
    let f := if confirm then f.setCarried n body.carried else f
    { f with
      round := b.round.toNat
      confirmRound := if confirm then b.followers.toNat else f.confirmRound }
  s.sendForming 1 (16 * b.round.toNat + (if confirm then b.followers.toNat else 0)) (body.toBytes false)

/-- The epoch after one; no layout carries epoch 0 (R20). -/
def nextEpoch (e : BitVec 16) : BitVec 16 := if e = 0xFFFF then 1 else e + 1

/-- The key-distribution tray, or the FINAL tray in its place, has come back whole on a line (R105). -/
def Forming.addKeyLine (f : Forming) (l : Line) : Forming := { f with keyLines := f.keyLines.filter (· != l) ++ [l] }

/-- The FINAL discovery tray of forerunner mode (R105): the first data cycle is the next, of the Starter's epoch plus 1. -/
def State.readFinal (s : State) (l : Line) (hdr : TrayHeader) (body : DiscBody) : State :=
  State.sendDecision <| s.withForming fun f => { f.addKeyLine l with
    finalList := some body.carried, keyTrayWhole := true, firstData := some (hdr.cycle.toNat + 1),
    newEpoch := nextEpoch f.starterEpoch, keyBody := none, round := 4 }

/-- A repeat of the key-distribution tray in the cycle that a node holds as its first data cycle moves that cycle on by one (R105). A node that has
made its commit at the tick goes back to INAUGURATE until the next one (DESIGN CHOICE, log entry 148). -/
def State.moveFirstData (s : State) : State :=
  let s := s.when (s.forming.firstData == some s.cycle) fun s => (s.withForming fun f => { f with firstData := some (s.cycle + 1) }).sendDecision
  if s.forming.tookAt == some s.cycle then
    let s := (s.withForming fun f => { f with firstData := some (s.cycle + 1), tookAt := none, recommit := true }).sendDecision
    s.each s.served fun l s =>
      if [lnRUN, lnFORERUNNER].contains (s.lineState l) || (s.lineOf l).holdCrossed then
        ((s.setLine l lnINAUGURATE).set (GTB.TRAY_STAT_ORIGIN l) 0).withLine l fun x => { x with
          writing := false, crossPending := x.holdCrossed, holdCrossed := false }
      else s
  else s

/-- A count or confirm tray on its way (R102, R104, R140). -/
def State.discoveryRx (s : State) (round : Nat) (info : FrameInfo) (hdr : TrayHeader) (b : FormingBlock) (body : DiscBody) : State :=
  let l := info.port.line
  let (s, take) := s.admitFrame info hdr (discoveryBytes info.addressed hdr b body false) fun s good => s.emit (.discovery info.port.across hdr b body good)
  if !take then s
  else if !info.clean then
    if !hdr.ret && s.worseThanBest l b then s.dropCold l
    else s.passDamaged info hdr s.isEnd1 fun p h good => .discovery p h b body good
  else
    let s := s.readInaug hdr
    let s := s.when hdr.final State.moveFirstData
    let read (s : State) (body : DiscBody) : State :=
      if s.lineState l = lnINAUGURATE && s.follows l b then
        let s := if hdr.final then s.readFinal l hdr body else s.readRound l hdr.cycle.toNat b body
        s.adoptFrom l hdr b (s.lineOf l).starterUp
      else s
    if hdr.ret then
      let s := s.takeReturn info
      let s := s.when (!s.isEnd1 && s.mayTransmit (.gtb l)) fun s => s.emit (.discovery info.port.across hdr b body true)
      read s body
    else if s.worseThanBest l b then (s.noteKey (contentionKey b)).dropCold l
    else
      let s := (s.noteKey (contentionKey b)).withLine l fun x => { x with end1Side := some info.port.side }
      let loops := !s.working info.port.across
      let p := if loops then info.port else info.port.across
      if !s.cycleMatches b then
        let s := ((s.cycleMismatch l).withForming fun f => { f with mismatch := true }).openMark l hdr
        s.when (s.mayTransmit (.gtb l)) fun s => s.emit (.discovery p { s.outwardHeader l hdr with ret := loops } b body true)
      else
        let s := ((s.meetDiscovery l b round).learnEpoch l hdr b false).openTray l hdr.cycle.toNat
        let s := (s.takeOutward info loops).openMark l hdr
        let h := { s.outwardHeader l hdr with ret := loops }
        let s := s.withLine l fun x => { x with starterUp := b.sync.starter }
        let hop := hdr.hop.toNat
        let takesPart := s.lineState l = lnINAUGURATE && !hdr.final && hop ≠ 0 && hop < 63
        let body' := if takesPart then { body with fresh := body.fresh ++ [s.ownRecord l hop (round = 3)] } else body
        let s := s.withForming fun f =>
          { f.setArrived l info.port.side with
            adopted := if takesPart then false else f.adopted, beyond := f.beyond || (!hdr.final && 63 ≤ hop) }
        let b' := s.starterStamp l info.port.across.side b
        let s := s.when (s.mayTransmit (.gtb l)) fun s => s.emit (.discovery p h b' body' true)
        if loops then read s body' else s

/-! The merge (R103). -/

/-- The merged record of a node present on both lines. -/
def mergeRecord (a b : DiscRecord) : DiscRecord :=
  { a with frSeen := a.frSeen || b.frSeen, crossed := a.crossed || b.crossed, adopted := a.adopted || b.adopted }

/-- Line B's records from index `i` to before `j` that line A does not hold. -/
def onlyB (a b : List DiscRecord) (i j : Nat) : List DiscRecord :=
  ((b.take j).drop i).filter fun r => !(a.any fun x => x.uid == r.uid)

/-- Walk line A's records; `i` is the first index of line B after the last anchor. -/
def mergeFrom (a b : List DiscRecord) : List DiscRecord → Nat → List DiscRecord
  | [], i => onlyB a b i b.length
  | r :: t, i =>
    match (b.findIdx? fun x => x.uid == r.uid).filter fun j => decide (i ≤ j) with
    | some j => onlyB a b i j ++ mergeRecord r (b.getD j r) :: mergeFrom a b t (j + 1)
    | none => r :: mergeFrom a b t i

/-- The merged list, HOP holding position minus 1 (R103, R139). -/
def mergeLists (a b : List DiscRecord) : List DiscRecord :=
  let l := mergeFrom a b a 0
  (List.range l.length).zip l |>.map fun x => { x.2 with hop := BitVec.ofNat 8 x.1 }

/-- A node is present on both lines but its order disagrees: it counts as present on the leading line only (R103). -/
def orderDisagrees (b : List DiscRecord) (uid : Uid) : List DiscRecord → Nat → Bool
  | [], _ => false
  | r :: t, i =>
    match b.findIdx? fun x => x.uid == r.uid with
    | some j => if i ≤ j then orderDisagrees b uid t (j + 1) else r.uid == uid || orderDisagrees b uid t i
    | none => orderDisagrees b uid t i

/-- The line that leads the merge: A, or B where the Starter's line A is OFF, which its record shows by standing in line B's list alone (R101, R103;
DEDUCED, log entry 146). -/
def State.leadLine (s : State) : Line :=
  let starter := (s.starterSettings.map fun b => b.suid).getD 0
  let has (l : Line) := (s.forming.freshOf l).any fun r => r.uid == starter
  if !has .A && has .B then .B else .A

/-- The same at the commit, the round's lists being the last each line brought. -/
def State.leadCommit (s : State) : Line :=
  let starter := (s.starterSettings.map fun b => b.suid).getD 0
  let has (l : Line) := (s.forming.roundOf l).any fun r => r.uid == starter
  if !has .A && has .B then .B else .A

/-- A node of the merged list is present on a line (R25, R103): its record stands there, and where both lines have it, its order does not keep it to
the leading one. -/
def State.foundOn (s : State) (lead l : Line) (uid : Uid) : Bool :=
  let on (k : Line) := (s.forming.roundOf k).any fun r => r.uid == uid
  on l && (l == lead || !on lead || !orderDisagrees (s.forming.roundOf l) uid (s.forming.roundOf lead) 0)

/-- CABLE_CROSSED (R10, R103): line B is held from the commit on. The forming data of a pair show no arrival port, so its chips find a crossing by
the order alone (log entry 145). -/
def State.checkCrossed (s : State) : State :=
  let f := s.forming
  let ports := match f.arrivedA, f.arrivedB with
    | some x, some y => x != y
    | _, _ => false
  let lead := s.leadLine
  if (ports || orderDisagrees (f.roundOf lead.other) s.nodeUid (f.roundOf lead) 0) && !s.lineB.crossPending then
    (s.raise (.gtb .B) 22).withLine .B fun x => { x with crossPending := true }
  else s

/-- The node falls back to forerunner mode for this final list (R116). -/
def fallsBack (final : List DiscRecord) : Bool :=
  final.any fun r => r.frSeen || r.dev = 0x51

/-- The final round at RETURN_END (R104, R116, R119). -/
def State.takeFinal (s : State) (list : List DiscRecord) : State :=
  let l := s.served.headD .A
  let mode := s.forerunner l
  let allow := s.starterSettings.any fun b => b.frAllow
  let old := fallsBack list
  let s := s.withForming fun f => { f with
    finalList := some list, finalCycle := s.cycle,
    newEpoch := nextEpoch f.starterEpoch,
    fallback := !mode && old && allow, fallbackEnd := mode && !old }
  s.when s.forming.fallback fun s => s.each s.served fun l s => s.raise (.gtb l) 26

/-- A fresh TGK for an inauguration this node distributes (R389). -/
def State.drawTgk (s : State) : State :=
  match s.random false with
  | some (v, s) =>
    (s.withSec fun k => { k with tgk := some (BitVec.ofNat 256 v) }).showKeys.withForming fun f => { f with tgkEpoch := some f.newEpoch }
  | none => s

/-- Seal a TGK for a node (R389). -/
def State.sealEntry (s : State) (uid : Uid) (aad : List Byte) : Option (KeyEntry × State) :=
  match s.sec.fleet, s.sec.tgk, s.random false with
  | some fleet, some tgk, some (iv, s) =>
    let iv := BitVec.ofNat 96 iv
    let (ct, tag) := Config.gcmSeal (nodeKey fleet uid) iv (entryHead uid ++ aad) tgk
    some (⟨uid, iv, ct, tag⟩, s)
  | _, _, _ => none

/-- Records as R104 compares two lists: without ADOPTED, which tells of the round before (R102, R110; log entry 130). -/
def plainRecords (l : List DiscRecord) : List DiscRecord := l.map fun r => { r with adopted := false }

/-- RETURN_END of a count or confirm round (R103, R104): the merge, the finality, and the forming data of a twin pair. -/
def State.formingReturnEnd (s : State) : State :=
  let f := s.forming
  if (f.round = 2 || f.round = 3) && f.finalList.isNone then
    let fresh := mergeLists (f.freshOf s.leadLine) (f.freshOf s.leadLine.other)
    let s := (s.withForming fun f => { f with merged := fresh }).checkCrossed
    let final := f.round = 3 && ((plainRecords (fresh.take 63) == plainRecords f.carried && !fresh.any fun r => r.adopted) || f.confirmRound = 3)
    if !final then s
    else
      let s := s.takeFinal f.carried
      let auth := s.starterSettings.any fun b => b.auth
      let s := s.when (s.isEnd1 && s.owns && auth && !s.forming.fallback && !s.forerunner (s.served.headD .A)) State.drawTgk
      let s := s.sendDecision
      if s.twin && s.owns && s.isEnd1 && s.forming.tgkEpoch.isSome then
        match s.sealEntry s.nodeUid (bytesBE 2 s.forming.newEpoch.toNat) with
        | some (e, s) => s.sendForming 3 0 (bytesBE 2 s.forming.newEpoch.toNat ++ [0, 0] ++ e.toBytes)
        | none => s
      else s
  else s

/-! Key distribution (R105, R389, R390). -/

/-- Every node of the final list lies on a line whose return pass brought the key-distribution tray back whole (R105). -/
def State.keyTrayCovered (s : State) : Bool :=
  (s.forming.finalList.getD []).all fun r =>
    s.forming.keyLines.any fun l => (s.forming.roundOf l).any fun x => x.uid == r.uid

/-- The layout of the final list (R106, R108, R162). -/
def State.layoutOf (s : State) (final : List DiscRecord) : Option Layout :=
  s.starterSettings.map fun b =>
    if s.forerunner (s.served.headD .A) then
      let nodes := final.take 32
      forerunnerLayout s.forming.newEpoch nodes
        (fitSlots (s.get CYC.TX_OFFS) (s.get CYC.IDLE_LEN) s.cycleLen s.precision nodes.length (nodes.map fun r => r.pay.toNat) 240 1928)
    else computeLayout s.forming.newEpoch (final.take 63) b

/-- The frames of a key-distribution tray, one after the other (R140, R156). -/
def State.sendKeyFrames (s : State) (l : Line) (p : BackbonePort) (a : Instant) (block : FormingBlock) (body : KeyBody) : State :=
  let n := keyFrames body.entries.length
  let code := s.portCode p
  ((List.range n).foldl (fun (acc : State × Int) k =>
    let (s, start) := acc
    let part := { body with entries := keyEntriesOf body.entries k }
    let size := keyFrameSize part.entries.length k
    let hdr := { s.formingHeader l a 4 false with last := decide (k + 1 = n), index := BitVec.ofNat 5 k, count := BitVec.ofNat 6 n }
    let len := wireNs code size
    (s.originate l p ((start - s.afterTick a).toNat + len) (s.trayWindow start len) fun good => .keyDist p hdr block part good,
      start + wireNs code (size + 20)))
    (s, s.afterTick a)).1

/-- KEY_DIST_TRAY_TX: the origin sends the tray, or repeats it, up to 3 times (R105); in forerunner mode the FINAL discovery tray. -/
def execKeyDistTrayTx (l : Line) (a : Instant) (s : State) : Host.Outcome State Fault Refusal :=
  .next (
    match s.forming.finalList with
    | none => s
    | some final =>
      let again := s.forming.round = 4 || s.forming.keyRepeats = 0 || !s.keyTrayCovered
      if !(s.isEnd1 && s.lineState l = lnINAUGURATE && s.live (.gtb l) && !s.forming.fallback && again
          && (s.forming.round = 4 || s.forming.keyRepeats < 3)) then s
      else if s.forerunner l then
        let s := s.withForming fun f => { f with
          carried := final, keyRepeats := f.keyRepeats + (if f.round = 4 then 0 else 1), keyTrayWhole := true, firstData := some (s.cycle + 1)
          keyLines := if f.round = 4 then f.keyLines else [] }
        (s.sendRound l a 3 true)
      else
        let auth := s.starterSettings.any fun b => b.auth
        let drawn := s.forming.tgkEpoch == some s.forming.newEpoch
        if auth && s.twin && !s.owns && !drawn then s
        else
          let s := if s.forming.round = 4 then s else s.withForming fun f => { f with keyRepeats := f.keyRepeats + 1, keyLines := [] }
          let p := s.downstream l
          let a := s.txInstant p a
          let s := s.withLine l fun x => { x with ownA := some a, ownB := none, starterUp := s.flag TIME.TIME_STAT_STARTER }
          let block := s.formingBlock l p.side a 0 s.forming.confirmRound
          let body : KeyBody := ⟨⟨s.forming.newEpoch, BitVec.ofNat 32 s.forming.finalCycle, BitVec.ofNat 32 (s.cycle + 1),
            BitVec.ofNat 8 (s.forming.keyRepeats - 1), 0⟩, []⟩
          let (entries, s) :=
            if auth && drawn then
              final.foldl (fun (acc : List KeyEntry × State) r =>
                match acc.2.sealEntry r.uid (block.keyBytes ++ body.headBytes) with
                | some (e, t) => (acc.1 ++ [e], t)
                | none => acc) ([], s)
            else ([], s)
          let entries := if entries.length = final.length then entries else []
          let body := { body with entries := entries, entryCnt := BitVec.ofNat 8 entries.length }
          let s := s.withForming fun f => { f with
            round := 4, firstData := some (s.cycle + 1), keyTrayWhole := true, keyBody := some body, pendingLayout := s.layoutOf final }
          let s := s.sendDecision
          let s := s.when (auth && drawn) fun s => s.withSec fun k => { k with
            next := k.tgk.map fun t => sliceKey t s.forming.newEpoch 0, nextEpoch := s.forming.newEpoch }
          let s := s.showKeys
          let s := s.openMark l (s.formingHeader l a 4 false)
          if s.working p then s.sendKeyFrames l p a block body
          else s.withForming fun f => f.addKeyLine l)

/-- Unwrap this node's entry (R390): the next key, or the key in force where the epoch has already started. -/
def State.unwrapKey (s : State) (b : FormingBlock) (body : KeyBody) : State :=
  let have_ := s.sec.nextEpoch == body.newEpoch && s.sec.next.isSome
  match s.ownNodeKey, body.entries.find? fun e => e.uid == s.nodeUid with
  | some k, some e =>
    if have_ then s
    else
      match Config.gcmOpen k e.iv (entryHead e.uid ++ b.keyBytes ++ body.headBytes) e.ct e.tag with
      | some t =>
        if s.epoch = body.newEpoch && s.forming.firstData.isNone then
          if s.sec.current.isSome then s
          else (s.withSec fun x => { x with tgk := some t, late := some (sliceKey t body.newEpoch (s.get SEC.KEY_GEN)) }).showKeys
        else (s.withSec fun x => { x with
          tgk := some t, next := some (sliceKey t body.newEpoch 0), nextEpoch := body.newEpoch }).showKeys
      | none => s
  | _, _ => s

/-- A frame of a key-distribution tray that came with a good FCS (R140); a tray of another cycle starts anew. -/
def State.noteKeyFrame (s : State) (l : Line) (hdr : TrayHeader) (b : FormingBlock) (body : KeyBody) : State :=
  s.withForming fun f =>
    let k := (f.keyTray.filter fun k => k.cycle = hdr.cycle).getD ⟨hdr.cycle, none, [], []⟩
    let i := hdr.index.toNat
    { f with keyTray := some { k with
      head := if i = 0 then some (b, body) else k.head
      entries := if k.got.any fun x => x.2 = i then k.entries else k.entries ++ body.entries
      got := if k.got.contains (l, i) then k.got else k.got ++ [(l, i)] } }

/-- Every frame of the tray has come, on a line or on any (R105, R140). -/
def KeyTray.whole (k : KeyTray) (count : Nat) (l : Option Line) : Bool :=
  (List.range count).all fun i => k.got.any fun x => x.2 == i && l.all fun l => x.1 == l

/-- What a node takes from a key-distribution tray on its return pass once it has received it whole (R105, R390). -/
def State.readKeyDist (s : State) (l : Line) (hdr : TrayHeader) (b : FormingBlock) (body : KeyBody) : State :=
  let s := (s.noteKeyFrame l hdr b body).withForming fun f => { f with round := 4 }
  match s.forming.keyTray with
  | none => s
  | some k =>
    let s := s.when (k.whole hdr.count.toNat (some l)) fun s => s.withForming fun f => f.addKeyLine l
    match k.whole hdr.count.toNat none && s.lineState l = lnINAUGURATE, k.head with
    | true, some (b, head) =>
      let body := { head with entries := k.entries }
      let s := s.withForming fun f => { f with
        keyTrayWhole := true, newEpoch := body.newEpoch, firstData := some body.firstData.toNat, keyBody := some body,
        finalList := (f.carriedLists.find? fun x => x.1 == body.finalCycle.toNat).map Prod.snd, finalCycle := body.finalCycle.toNat }
      let s := (s.withForming fun f => { f with pendingLayout := f.finalList.bind s.layoutOf }).sendDecision
      if b.auth then s.unwrapKey b body else s
    | _, _ => s

/-- The epoch that a key-distribution tray in progress brings: its frame 0's. -/
def State.keyTrayEpoch (s : State) (hdr : TrayHeader) (body : KeyBody) : BitVec 16 :=
  if hdr.index = 0 then body.newEpoch
  else ((s.forming.keyTray.filter fun k => k.cycle = hdr.cycle).bind fun k => k.head.map fun h => h.2.newEpoch).getD s.forming.newEpoch

/-- A frame of a key-distribution tray. -/
def State.keyDistRx (s : State) (info : FrameInfo) (hdr : TrayHeader) (b : FormingBlock) (body : KeyBody) : State :=
  let l := info.port.line
  let first := hdr.index = 0
  let (s, take) := s.admitFrame info hdr (keyDistBytes info.addressed hdr b body) fun s good => s.emit (.keyDist info.port.across hdr b body good)
  if !take then s
  else if !info.clean then
    (s.when (s.keyTrayEpoch hdr body == s.forming.newEpoch) State.moveFirstData).passDamaged info hdr s.isEnd1 fun p h good => .keyDist p h b body good
  else
    let s := (s.readInaug hdr).when (s.keyTrayEpoch hdr body == s.forming.newEpoch) State.moveFirstData
    let adopt (s : State) : State := s.when (first && s.follows l b) fun s => s.adoptFrom l hdr b (s.lineOf l).starterUp
    if hdr.ret then
      let s := s.when first fun s => s.takeReturn info
      let s := s.when (!s.isEnd1 && s.mayTransmit (.gtb l)) fun s => s.emit (.keyDist info.port.across hdr b body true)
      adopt (s.readKeyDist l hdr b body)
    else
      let loops := !s.working info.port.across
      let s := s.openTray l hdr.cycle.toNat
      let s := s.when first fun s => (s.takeOutward info loops).withLine l fun x => { x with starterUp := b.sync.starter }
      let s := s.openMark l hdr
      let h := { s.outwardHeader l hdr with ret := loops }
      let b' := if first then s.starterStamp l info.port.across.side b else b
      let s := s.when (s.mayTransmit (.gtb l)) fun s => s.emit (.keyDist (s.onwardPort info) h b' body true)
      if loops then adopt (s.readKeyDist l hdr b body) else s

/-! Timeouts. -/

/-- RELINK_EXPIRY (R117, R119): the former Starter goes to COLDSTART, the others start their listen timers. -/
def execRelinkExpiry (s : State) : Host.Outcome State Fault Refusal :=
  .next (
    if s.forming.relinkWait then
      let s := s.withForming fun f => { f with relinkWait := false }
      if s.forming.wasStarter then s.each s.served fun l s => if s.lineState l = lnLISTEN then s.enterColdStart l else s
      else s
    else s)

/-- INAUG_TRAY_TIMEOUT (R90, R107): a node that knows the final list has missed every key-distribution tray, and has no position (R89). -/
def execInaugTrayTimeout (l : Line) (s : State) : Host.Outcome State Fault Refusal :=
  .next (
    if s.lineState l = lnINAUGURATE then
      let missed := s.forming.finalList.isSome && !s.forming.keyTrayWhole
      let s := s.when missed fun s => (s.noPosition l).set (GTB.FORM_STAT_POS l) 0
      s.enterListen l
    else s)

/-- INTEGRATE_TIMEOUT (R90). -/
def execIntegrateTimeout (l : Line) (s : State) : Host.Outcome State Fault Refusal :=
  .next (if s.lineState l = lnINTEGRATE then s.enterListen l else s)

/-- PASSIVE_TMO_EXPIRY (R90); a line held for crossed cables stays (R10). -/
def execPassiveTmoExpiry (l : Line) (s : State) : Host.Outcome State Fault Refusal :=
  .next (if s.lineState l = lnPASSIVE && !(s.lineOf l).holdCrossed then s.enterListen l else s)

/-- LINE_ENABLE. -/
def execLineEnable (l : Line) (s : State) : Host.Outcome State Fault Refusal :=
  .next (if s.powered (.gtb l) then s.writeLineEnable l true else s)

/-- LINE_DISABLE. -/
def execLineDisable (l : Line) (s : State) : Host.Outcome State Fault Refusal :=
  .next (if s.powered (.gtb l) then s.writeLineEnable l false else s)

/-! What a tick does (R90, R98, R106, R116 to R119). -/

/-- The one-node layout of LONE, without crumb slots (R98). -/
def State.loneLayout (s : State) (epoch : BitVec 16) : Layout :=
  let b := s.formingBlock (s.served.headD .A) .front 0 0 0
  computeLayout epoch [s.ownRecord (s.served.headD .A) 0 false] { b with crumbCnt := 0 }

/-- The presence record of a line after a commit: the positions whose nodes its last count found (R25, R103, R111). -/
def State.setPresence (s : State) (lead l : Line) (nodes : List DiscRecord) : State :=
  let bits := (List.range nodes.length).foldl (fun v i =>
    if (nodes[i]?).any fun n => s.foundOn lead l n.uid then v ||| 2 ^ (i + 1) else v) 0
  s.set64 (GTB.PRES_LO l) (GTB.PRES_HI l) bits

/-- LAYOUT_TRIM: this node's payload was cut (R108). In forerunner mode R162 has "the node" raise it: DESIGN CHOICE (log entry 172), a node whose own
payload the trimmed slot plan cuts. -/
def State.checkTrim (s : State) : State :=
  let cut := s.ownLayoutSlot.any fun x => decide (x.pay < s.setting GTB.FORM_CFG_SLICE_PAY)
  s.when cut fun s => s.each s.served fun l s => s.raise (.gtb l) 23

/-- What every commit of a layout sets: epoch, position, sync set, the Starter's train time, the slot plan, the guardian's copy, a cleared record of
version-1 frames. `anew` says that an epoch begins with it. A trigger that no line's tray has carried yet stays for the next one (R24). -/
def State.commitLayout (s : State) (y : Layout) (starter : Uid) (anew : Bool) : State :=
  let pos := positionIn y.nodes s.nodeUid
  let plan := if s.forerunner (s.served.headD .A) then slotLength (y.slots.map fun x => x.pay) s.precision else 0
  let waits := s.served.all fun l => (s.lineOf l).inaugPending
  let s := s.when anew State.beginEpoch
  let s := s.withForming fun f => { f with
    layout := some y, fullLayout := true, syncSet := syncSetOf y.nodes starter, everFormed := true, frSeen := false, adopted := false,
    claims := [], claimConfirmed := false, stirred := waits, inaugSeen := none, seekCycle := none, epochOf := none, recommit := false, slotPlan := plan }
  let s := s.each s.served fun l s => s.withLine l fun x => { x with inaugPending := waits, inaugMark := none, v1Trigger := false }
  let s := s.withTime fun t => { t with starterHeld := some starter }
  let s := s.each s.served fun l s =>
    ((((s.set (GTB.FORM_EPOCH l) y.epoch.toNat).set (GTB.FORM_STAT_POS l) pos).set (GTB.FORM_STAT_CRUMB l) 0).setFlag
      (GTB.TRAY_STAT_AUTH_ON l) y.auth).set (GTB.FR_SLOT l) plan |>.showLayout l |>.loadGuard l
  s.checkTrim

/-- Enter LONE (R98): the layout of one node, an inauguration commit unless that layout is already in force (log entry 23). -/
def State.enterLone (s : State) : State :=
  let again := s.forming.layout.any fun y => y.nodes.length = 1 && y.nodes.all fun r => r.uid == s.nodeUid
  let e := s.get (GTB.FORM_EPOCH (s.served.headD .A))
  let e' := if again then e else if e = 0xFFFF then 1 else e + 1
  let s := s.commitLayout (s.loneLayout (BitVec.ofNat 16 e')) s.nodeUid !again
  let s := s.when (s.timeState = tmUNSYNC) State.enterLead
  let s := s.each s.served fun l s =>
    if s.lineState l = lnCOLDSTART then
      (((s.setLine l lnLONE).raise (.gtb l) 19).set64 (GTB.PRES_LO l) (GTB.PRES_HI l) 2).set (GTB.TRAY_STAT_ORIGIN l) 0
    else s
  if again then s
  else
    let s := s.each s.served fun l s => s.when (s.lineState l = lnLONE) fun s => s.raise (.gtb l) 17
    match s.random false with
    | some (v, s) =>
      let t := BitVec.ofNat 256 v
      ((s.withSec fun k => { k with tgk := some t, current := some (sliceKey t (BitVec.ofNat 16 e') 0), next := none }).set SEC.KEY_GEN 0
        |>.set SEC.KEY_EPOCH e').showKeys
    | none => s

/-- The cold start's outcome at the end of a cycle in which trays were sent (R90): a line whose trays returned followers begins the inauguration of both,
and the node has no partner where none of its lines had any (R91, R98). DESIGN CHOICE (log entry 150): where tray 8 comes back without
followers although an earlier one had some, neither row of R90 applies, and the line stays in COLDSTART and goes on sending tray 8. -/
def State.judgeColdStart (s : State) (l : Line) : State :=
  let x := s.lineOf l
  let cold := s.served.filter fun k => s.lineState k = lnCOLDSTART
  if s.lineState l != lnCOLDSTART || x.coldNumber = 0 then s
  else if x.followersSum ≠ 0 && (x.followersPrev == some x.followersSum || x.coldNumber = 8) then
    let s := s.each s.served fun k s => if s.lineState k = lnCOLDSTART then s.enterInaugurate k else s
    s.restartForming.withForming fun f => { f with seekCycle := some s.cycle }
  else if x.coldNumber = 8 && cold.head? = some l && cold.all (fun k => !(s.lineOf k).coldAny) then s.enterLone
  else s.withLine l fun x => { x with followersPrev := some x.followersSum }

/-- k as the mode that begins at this tick has it (R117, R119): FR_K as the Starter's forming block gives it, or CYC_LEN. -/
def State.changeLength (s : State) : State :=
  if s.forming.fallback then
    let k := match s.starterSettings with
      | some b => b.frK.toNat
      | none => s.setting GTB.FR_CFG_FR_K
    s.withTime fun t => { t with cycleLenNext := some k }
  else if s.forming.fallbackEnd then s.withTime fun t => { t with cycleLenNext := some (s.get CYC.CYC_LEN_K) }
  else s

/-- Fallback to forerunner mode, or return from it, at the tick after the decision (R117, R119). In GTB mode FR_SLOT is 0 (R166). -/
def State.changeMode (s : State) (fr : Bool) : State :=
  let starter := s.flag TIME.TIME_STAT_STARTER
  let s := s.each s.served fun l s =>
    let s := s.setFlag (GTB.FORM_STAT_MODE l) fr
    let s := s.when (!fr) fun s => (s.raise (.gtb l) 27).set (GTB.FR_SLOT l) 0
    if s.lineState l = lnOFF then s else s.enterListen l
  s.clearSliceKeys.restartForming.withForming fun f => { f with relinkWait := true, wasStarter := starter, slotPlan := 0 }

/-- The node takes no position: back to LISTEN, counting the cause (R107, R383); FORM_STAT shows none (R89). -/
def State.takeNoPosition (s : State) (keyFail : Bool) : State :=
  let f := s.forming
  let s := s.when keyFail fun s => s.count SEC.KEY_FAIL_CNT
  let s := s.each s.served fun l s =>
    if s.lineState l = lnINAUGURATE then
      ((if keyFail then s else if f.mismatch then s.cycleMismatch l else s.noPosition l).enterListen l).set (GTB.FORM_STAT_POS l) 0
    else s
  s.restartForming

/-- The origin repeats the key-distribution tray in this cycle, and so starts no data cycle at its tick (R105). -/
def State.repeatsKeyTray (s : State) : Bool :=
  s.isEnd1 && s.anyLine [lnINAUGURATE] && !s.keyTrayCovered && decide (s.forming.keyRepeats < 3)

/-- The slice key of a new epoch (R390); a commit that a repeat has moved (`again`) finds it in force. -/
def State.commitKey (s : State) (epoch : BitVec 16) (again : Bool) : State :=
  if again && s.sec.current.isSome && s.get SEC.KEY_EPOCH = epoch.toNat then s
  else
    let s := s.takeEpochKey epoch
    s.when s.sec.current.isNone fun s => (s.count SEC.KEY_FAIL_CNT).raise .sec 9

/-- The tick that starts the first data cycle of a new epoch (R106, R107). -/
def State.takeEpoch (s : State) : State :=
  let f := s.forming
  let confirmed := f.finalList.isSome && f.keyBody.all fun b => b.finalCycle.toNat = f.finalCycle
  let starter := (s.starterSettings.map fun b => b.suid).getD 0
  let auth := s.starterSettings.any fun b => b.auth
  let fr := s.forerunner (s.served.headD .A)
  let lead := s.leadCommit
  match f.finalList.bind s.layoutOf with
  | none => s.takeNoPosition false
  | some y =>
    let pos := positionIn y.nodes s.nodeUid
    if !confirmed || !f.keyTrayWhole || pos = 0 then s.takeNoPosition false
    else if s.lifeCycle = lcPROVISIONED && auth && !fr then s.takeNoPosition true
    else
      let s := s.commitLayout y starter !f.recommit
      let s := s.when s.twin fun s => s.setPresence lead s.twinLine.other y.nodes
      let s := s.each s.served fun l s =>
        if s.lineState l = lnINAUGURATE then
          let s := s.setPresence lead l y.nodes
          let hold := l == .B && (s.lineOf l).crossPending
          let s := (s.setLine l (if hold then lnPASSIVE else if fr then lnFORERUNNER else lnRUN)).raise (.gtb l) 17
          let s := s.set (GTB.TRAY_STAT_ORIGIN l) (if pos = 1 && !fr then 1 else 0)
          let s := s.withLine l fun x => { x with
            expected := none, holdCrossed := hold, crossPending := false, absentRun := [], windowOk := false, missThis := false,
            writing := !hold, claiming := none }
          (s.set (GTB.TRAY_STAT_MISS_RUN l) 0).refreshLineEnd l
        else s
      let s := s.withForming fun g => { g with firstData := none, tookAt := some s.cycle }
      if !auth || fr then s.clearSliceKeys else s.commitKey y.epoch f.recommit

/-- The lines at a tick, the cycle number already advanced. -/
def State.tickForming (s : State) : State :=
  let s := s.when s.forming.tookAt.isSome State.restartForming
  let s := s.withForming fun f => { f with
    best := (f.best.map fun b => (b.1, b.2 + 1)).filter fun b => b.2 ≤ 16, round := 0, roundLines := [] }
  let s := s.each s.served fun l s => s.judgeColdStart l
  let s := s.each [Line.A, Line.B] fun l s => s.withLine l fun x =>
    { x with
      front := { x.front with v1Last := x.front.v1This, v1This := false }
      rear := { x.rear with v1Last := x.rear.v1This, v1This := false } }
  if s.forming.fallback then s.changeMode true
  else if s.forming.fallbackEnd then s.changeMode false
  else if s.forming.firstData == some s.cycle && !s.repeatsKeyTray then s.takeEpoch
  else s

end Sys2Proof.Machine
end

