-- ==== Sys2Proof/Machine/ProofOps.lean ====
section
/-! DEFINITION. Proofing runs as other blocks end them (spec/14_proofing.md R407 to R411): targets, results and aborts. -/

namespace Sys2Proof.Machine

/-- The channel of a proofing target (R414). -/
def proofChan (t : Nat) : Line := if t % 2 = 0 then .A else .B

/-- The page that owns a cell of a target (R405). -/
def proofPage (t cell : Nat) : Page := if t < 2 then .eng (proofChan t) cell else if t < 4 then .knd (proofChan t) else .sec

def State.rotation (s : State) (t : Nat) : Rotation := s.proof.rotations.getD t Rotation.reset

def State.withRotation (s : State) (t : Nat) (f : Rotation → Rotation) : State :=
  { s with proof := { s.proof with rotations := modifyAt s.proof.rotations t f } }

/-- The targets whose runs go together (R407). -/
def State.proofPair (s : State) (t : Nat) : List Nat :=
  if s.lockedMode && t < 4 then [t, if t % 2 = 0 then t + 1 else t - 1] else [t]

/-- Patterns applied by now: one per 292.97 ns, which is 75,000 / 256 (R401, R404). -/
def State.patternsBy (s : State) (r : ProofRun) : Nat := min r.patterns ((s.ltcNs - r.start).toNat * 256 / 75000)

/-- Every pattern of a run is applied (R410). -/
def State.patternsAll (s : State) (r : ProofRun) : Bool := s.patternsBy r = r.patterns

/-- Write RESULTt (R407, R410). -/
def State.writeResult (s : State) (t result cause cell patterns : Nat) (retested : Bool) : State :=
  let s := (((((s.set (PRF.RESULT_RESULT t) result).set (PRF.RESULT_CAUSE t) cause).set (PRF.RESULT_CELL t) cell).set
    (PRF.RESULT_PATTERNS t) patterns).setFlag (PRF.RESULT_RETESTED t) retested).set (PRF.RES_CYCLE t) s.cycle
  s.raise .prf 10

/-- A cell leaves proofing: BUSY, PROOF_BUSY and ACC_DEFERRED clear, and an engine is the spare again, or failed where the run has isolated it. -/
def State.leaveProof (s : State) (t cell : Nat) (failed : Bool) : State :=
  let p := proofPage t cell
  let s := s.set PRF.PRF_STAT_BUSY (withBit (s.get PRF.PRF_STAT_BUSY) t false)
  let s := (s.setFlag (HDR.PAGE_STAT_PROOF_BUSY p) false).setFlag (HDR.PAGE_STAT_ACC_DEFERRED p) false
  if t < 2 then s.set (ENG.ENG_STAT_STATE (proofChan t) cell) (if failed then 5 else 3) else s

/-- End a run as ABORTED; it is due again at once (R409). Of several causes in one fabric clock the lowest is recorded. The writes queued for the page
are the caller's to apply. -/
def State.abortOne (s : State) (t cause : Nat) : State :=
  match (s.rotation t).run with
  | none => s.when (s.proof.aborted.contains t && decide (cause < s.get (PRF.RESULT_CAUSE t))) fun s => s.set (PRF.RESULT_CAUSE t) cause
  | some r =>
    let s := (s.leaveProof t r.cell (r.ended == some 2)).withRotation t fun x => { x with run := none, due := true }
    let s := { s with proof := { s.proof with aborted := t :: s.proof.aborted } }
    ((s.writeResult t 3 cause r.cell (s.patternsBy r) (s.rotation t).retest).count PRF.ABORT_CNT).raise .prf 9

/-- An abort, of both runs of a pair. -/
def State.abortRun (s : State) (t cause : Nat) : State :=
  if (s.rotation t).run.isSome || s.proof.aborted.contains t then s.each (s.proofPair t) fun t s => s.abortOne t cause else s

end Sys2Proof.Machine
end

