-- ==== Sys2Proof/Machine/Region.lean ====
section
/-! DEFINITION. Zeroisation, region quarantine and fail-silent (spec/02_inside_the_device.md R36, R39, R41, R50; spec/13_security.md R399;
spec/16_power_clocks_reset.md R445). -/

namespace Sys2Proof.Machine

/-- Zeroisation (R399): every key slot, the slice keys and the security SRAM; both lines to OFF until a reset (R485). -/
def State.zeroise (s : State) : State :=
  let before := s
  let s := s.abortRun 4 9
  let s := s.withSec fun k => { Sec.reset with
    zeroised := true, drbgDraws := k.drbgDraws, chal := k.chal, waiting := k.waiting, cryptoServing := k.cryptoServing,
    cryptoFailed := k.cryptoFailed }
  let s := (((s.set SEC.KEY_STAT_FLEET 0).set SEC.KEY_STAT_TGK 0).set SEC.KEY_STAT_CUR 0).set SEC.KEY_STAT_NEXT 0
  (s.raise .sec 13).recheckLines before

/-- FAULT_N is low (R41, R473). -/
def State.faultN (s : State) : Bool := s.failSilent

/-- The BYPASS output of a line (R15, R287): energised while the line is out of OFF and in ETB mode; released at fail-silent, at the quarantine of
the channel that serves the line, and while the device's reset or power holds it off. -/
def State.bypass (s : State) (l : Line) : Bool :=
  (s.lineState l != lnOFF || s.flag SW.ETB_CTRL_ETB_EN) && !s.failSilent && !s.quarantined l && !s.power.held

/-- A frame in transmission at a port is cut off (R41). A frame in forwarding ends with the frame received (R155), which the command that brings it
has seen; an attempt on a field bus that has not ended brings no frame (log entry 178). -/
def State.cutOff (s : State) (q : Nat) : State :=
  if s.ltcNs.toNat < (s.switch.ports.getD q SwPort.reset).busyUntil.toNat then
    ({ s with switch := { s.switch with ports := modifyAt s.switch.ports q fun p => { p with busyUntil := s.ltcNs } } }).emit (.frameCut q)
  else s

/-- A chip UE (R41): FAULT_N, transmitters and BYPASS off, the lines and the hat to OFF, keys zeroised, the cause in the fault latch, which keeps the
first. -/
def State.failSilence (s : State) (region cause cell : Nat) : State :=
  if s.failSilent then s
  else
    let before := s
    let s := (((s.setFlag CHIP.CHIP_STAT_FAIL_SILENT true).emit .faultN).each (List.range 12) fun q s => s.cutOff q)
    let s := if s.flag PWR.FAULT_LATCH_VALID then s
      else ((((s.updateFlag PWR.FAULT_LATCH_VALID).set PWR.FAULT_LATCH_REGION region).set PWR.FAULT_LATCH_CAUSE cause).set
        PWR.FAULT_LATCH_CELL cell).set PWR.FAULT_CYCLE s.cycle
    let s := s.recheckLines before
    let s := s.when (s.hat != hatOFF) fun s => (s.setHat hatOFF s.cycle).dropHatOut
    s.zeroise

/-- A channel stops (R39): its kneader's jobs end, and what it and its engines have not released is given up. In LOCKED mode the other channel
carries the same work on (R50). -/
def State.stopChannel (s : State) (c : Line) : State :=
  let s := if s.lockedMode then s
    else s.each (s.staged.filter fun x => x.engines.contains c || x.writers.any fun w => w.chan = c) fun x s => s.resync x.obj
  let s := (s.withKneader c fun k => { k with runs := [], fired := [], read := [], dough := [], wrote7 := [], replays := [] }).showFlight c
  s.each [4, 5, 6, 7] fun d s => s.closeDraft c d

/-- The marks of a channel's quarantine; its table macro is unreachable from the other channel (R195). -/
def State.quarantineMark (s : State) (c : Line) : State :=
  (((match c with
    | .A => s.setFlag CHIP.CH_MODE_QUAR_A true
    | .B => s.setFlag CHIP.CH_MODE_QUAR_B true).raise .chip 10).stopChannel c).setFlag (KND.KND_STAT_FAR_LOST c.other) true

/-- A region UE quarantines a channel (R39); in LOCKED mode the comparison is lost with it (R50); both channels quarantined are a chip UE
(R36). A wearer whose own line's channel it is announces the failure (R40). -/
def State.quarantineWith (s : State) (c : Line) (cause cell : Nat) : State :=
  if s.quarantined c then s
  else
    let before := s
    let s := s.quarantineMark c
    let s := s.when (s.lockedMode && !s.flag CHIP.CH_MODE_LOCK_LOST) fun s => (s.setFlag CHIP.CH_MODE_LOCK_LOST true).raise .chip 9
    let s := (s.recheckLines before).tryHandover s.handoverTick
    if s.quarantined c.other then s.failSilence (match c with | .A => 0 | .B => 1) cause cell else s

/-- An error that a page's block reports upward (R42 to R44). -/
def State.reportUE (s : State) (p : Page) (cell cause word : Nat) : State :=
  ((s.count (HDR.ERR_CNT_UE p)).raise p 2).recordError p 3 cell cause word

/-- What a line's slice guardian finds is a UE of its region (R36, R156), a protocol check of the cell (cause 8 of ERR_INFO). -/
def State.guardianFault (s : State) (l : Line) : State := (s.reportUE (.gtb l) 0 8 0).quarantineWith l 8 0

end Sys2Proof.Machine
end

