-- ==== Sys2Proof/Machine/EngOps.lean ====
section
/-! DEFINITION. Engine roles as other blocks see them (spec/08_protocol_engines.md R234 to R243, R252; spec/06_the_loaf.md R177): roles and
the engines that hold them, events, pending bits, withdraw and the discards of a tick. -/

namespace Sys2Proof.Machine

def State.roles (s : State) : Line → List Role
  | .A => s.rolesA
  | .B => s.rolesB

def State.role (s : State) (c : Line) (r : Nat) : Role := (s.roles c).getD r Role.reset

/-- The physical engine that holds a role (R252). -/
def State.engineOf (s : State) (c : Line) (r : Nat) : Option Nat :=
  if bitOf (s.get (ENG.ROLE_VALID c 0)) r then
    some ((if r < 8 then s.get (ENG.ROLE_MAP_LO c 0) / 16 ^ r else s.get (ENG.ROLE_MAP_HI c 0) / 16 ^ (r - 8)) % 16)
  else none

/-- The spare engine of a channel. -/
def State.spareEngine (s : State) (c : Line) : Option Nat :=
  if bitOf (s.get (ENG.ROLE_VALID c 0)) 15 then some (s.get (ENG.ROLE_MAP_HI c 0) / 16 ^ 7 % 16) else none

/-- The role an engine holds. -/
def State.roleAt (s : State) (c : Line) (i : Nat) : Option Nat := lowest 15 fun r => s.engineOf c r = some i

/-- The page of a role's engine shows its state (R259); an engine that has failed shows that until the tick moves its role. -/
def State.showRole (s : State) (c : Line) (r : Nat) : State :=
  match s.engineOf c r with
  | none => s
  | some i =>
    let k := s.role c r
    let st := if s.get (ENG.ENG_STAT_STATE c i) = 5 then 5 else match k.st with | .halted => 0 | .running => 1 | .waiting => 2
    ((((s.setFlag (ENG.ENG_STAT_TAINTED c i) k.tainted).setFlag (ENG.ENG_STAT_SEALED c i) k.sealed_).set (ENG.ENG_STAT_VIEW c i) k.view).set
      (ENG.ENG_STAT_EVQ_DEPTH c i) k.evq.length).set (ENG.ENG_STAT_STATE c i) st

/-- The channel leads: its engines act for themselves, or, in LOCKED mode, for the pair (R256). -/
def State.leads (s : State) (c : Line) : Bool := !s.lockedMode || s.channels.head? == some c

/-- The channels whose engines act as one with those of a leading channel (R256). -/
def State.pairOf (s : State) (c : Line) : List Line := if s.lockedMode then s.channels else [c]

def State.withRoleOf (s : State) (c : Line) (r : Nat) (f : Role → Role) : State :=
  (match c with
    | .A => { s with rolesA := modifyAt s.rolesA r f }
    | .B => { s with rolesB := modifyAt s.rolesB r f }).showRole c r

/-- Change a role; in LOCKED mode both engines of the pair (R256). -/
def State.withRole (s : State) (c : Line) (r : Nat) (f : Role → Role) : State := s.each (s.pairOf c) fun k s => s.withRoleOf k r f

/-- Do something in the page of a role's engine, in LOCKED mode of both (R256). -/
def State.atEngine (s : State) (c : Line) (r : Nat) (f : Line → Nat → State → State) : State :=
  s.each (s.pairOf c) fun k s =>
    match s.engineOf k r with
    | some i => f k i s
    | none => s

/-- Count and raise in the page of a role's engine. -/
def State.countRole (s : State) (c : Line) (r : Nat) (reg : Line → Nat → Reg) (bit : Nat) : State :=
  s.atEngine c r fun k i s => s.countRaise (reg k i) (.eng k i) bit

/-- Count without an interrupt. -/
def State.countRoleOnly (s : State) (c : Line) (r : Nat) (reg : Line → Nat → Reg) : State :=
  s.atEngine c r fun k i s => s.count (reg k i)

/-- Event types (R236). -/
abbrev evTICK : Nat := 1
abbrev evMARK : Nat := 2
abbrev evWITHDRAW : Nat := 3
abbrev evVIEW : Nat := 4
abbrev evMBOX_IN : Nat := 5
abbrev evMBOX_ACK : Nat := 6
abbrev evDMA : Nat := 7
abbrev evSTART : Nat := 8
abbrev evHELD : Nat := 9
abbrev evOVERRUN : Nat := 10
abbrev evEPOCH : Nat := 11

/-- An event word. -/
def eventWord (type arg : Nat) : Word := BitVec.ofNat 32 (type * 2 ^ 28 + arg % 2 ^ 28)

/-- Two events that share one place in the pending store (R238). -/
def samePlace (a b : Word) : Bool :=
  a.toNat / 2 ^ 28 = b.toNat / 2 ^ 28 && (a.toNat / 2 ^ 28 ≠ evWITHDRAW || a.toNat / 2 ^ 16 = b.toNat / 2 ^ 16)

/-- Enqueue an event (R236, R238). The types that are always enqueued are so for a halted role too; of the others a role that executes nothing takes
none (log entry 119). -/
def State.pushEvent (s : State) (c : Line) (r type arg : Nat) : State :=
  let k := s.role c r
  let always := [evWITHDRAW, evVIEW, evSTART, evHELD, evOVERRUN].contains type
  let w := eventWord type arg
  if !always && (k.st = .halted || !bitOf k.evEn type) then s
  else if k.evq.length < 32 && k.held.isEmpty then s.withRole c r fun k => { k with evq := k.evq ++ [w] }
  else if always then s.withRole c r fun k => { k with held := (k.held.filter fun x => !samePlace x w) ++ [w] }
  else s.countRole c r ENG.EVQ_OVF_CNT 11

/-- Every role that holds an engine on a channel that is not quarantined. -/
def State.eachRole (s : State) (f : Line → Nat → State → State) : State :=
  s.each (s.channels.filter s.leads) fun c s => s.each (List.range 15) fun r s => if (s.engineOf c r).isSome then f c r s else s

/-- A mark fires: its pending bit and its event (R236, R240). -/
def State.engineMark (s : State) (m : Nat) : State :=
  s.eachRole fun c r s => (s.withRole c r fun k => { k with pend := withBit k.pend m true }).pushEvent c r evMARK m

/-- WITHDRAW of a slot at the engines whose read map holds it (R235). -/
def State.engineWithdraw (s : State) (slot : Nat) : State :=
  s.eachRole fun c r s =>
    if (s.role c r).readMap.contains slot then
      let s := s.withRole c r fun k => { k with relq := [], dma := k.dma.map fun d => if d.held then { d with busy := false, held := false } else d }
      let s := s.each ((s.pairOf c).flatMap fun k => [(k, 4), (k, 5)]) fun x s =>
        if (s.draft x.1 x.2).state = .pending && (s.draft x.1 x.2).role = some r then
          ((s.closeDraft x.1 x.2).count (LOAF.DRAFT_WITHDRAWN_CNT x.1)).raise (.loaf x.1) 12
        else s
      (s.countRoleOnly c r ENG.WITHDRAW_EVT_CNT).pushEvent c r evWITHDRAW (slot * 2 ^ 16 + s.cycle % 2 ^ 16)
    else s

/-- Clock 33: taint and read map of the cycle that ends clear (R234). -/
def State.engineClock33 (s : State) : State := s.eachRole fun c r s => s.withRole c r fun k => { k with tainted := false, readMap := [] }

/-- Clock 40's discards (R243): at a held tick every queue, and in a release the unsealed ones. -/
def State.engineDiscards (s : State) (release : Bool) (ended : Nat) : State :=
  s.eachRole fun c r s =>
    let k := s.role c r
    if k.relq.isEmpty then s
    else if !release then
      ((s.withRole c r fun k => { k with relq := [] }).countRoleOnly c r ENG.HELD_DISCARD_CNT).pushEvent c r evHELD (ended % 2 ^ 16)
    else if !k.sealed_ then
      ((s.withRole c r fun k => { k with relq := [] }).countRole c r ENG.OVERRUN_CNT 9).pushEvent c r evOVERRUN (ended % 2 ^ 16)
    else s

/-- A view that points at the bank leaving PREVIOUS moves to the new LATEST, with an event that is counted (R177). `gone` is that bank. A halted role
that no WFT has given a view has none to move (log entry 119). -/
def State.moveViews (s : State) (c : Line) (gone : Nat) : State :=
  s.each (List.range 15) fun r s =>
    if s.leads c && (s.engineOf c r).isSome && (s.role c r).view = gone then
      let b := s.get (LOAF.BANK_STAT_LATEST c)
      let s := s.withRole c r fun k => { k with view := b }
      if (s.role c r).st = .halted && !(s.role c r).viewed then s
      else (s.each (s.pairOf c) fun k s => s.count (LOAF.VIEW_MOVED_CNT k)).pushEvent c r evVIEW b
    else s

/-- A step discards what engines hold for the abandoned cycle at its tick; the step itself changes no queue (R243). -/
def State.engineEpoch (s : State) (epoch : Nat) : State := s.eachRole fun c r s => s.pushEvent c r evEPOCH epoch

end Sys2Proof.Machine
end

