-- ==== Sys2Proof/Machine/EngCore.lean ====
section
/-! DEFINITION. The engines' own work (spec/08_protocol_engines.md R226 to R241, R249 to R258): registers, traps, the Xknd instructions,
events, waiting, mailbox, semaphores, starting and moving. -/

namespace Sys2Proof.Machine

/-! Memories and guards. -/

/-- Model addresses of a role's I-TCM and D-TCM: the TCMs have no host window (R231). -/
def tcmI (c : Line) (r : Nat) : Nat := 0x40000000 + lineBit c * 0x400000 + r * 0x20000
def tcmD (c : Line) (r : Nat) : Nat := tcmI c r + 0x10000

/-- The role executes instructions: its channel leads, an engine holds it and runs. -/
def State.engRuns (s : State) (c : Line) (r : Nat) : Bool :=
  s.leads c && (s.role c r).st == .running && (s.engineOf c r).any fun i => s.live (.eng c i)

/-- The role's engine is in service, running or waiting. -/
def State.engServes (s : State) (c : Line) (r : Nat) : Bool :=
  s.leads c && (s.role c r).st != .halted && (s.engineOf c r).any fun i => s.live (.eng c i)

/-! Registers (R226). -/

def Role.reg (k : Role) (n : Nat) : Word := if n = 0 then 0 else k.regs.getD n 0
def Role.setReg (k : Role) (n : Nat) (v : Word) : Role := if n = 0 then k else { k with regs := setAt k.regs n v }

/-- A CSR's stored value; absent means 0. -/
def Role.csr (k : Role) (a : Nat) : Word := lookup 0 k.csrs a
def Role.setCsr (k : Role) (a : Nat) (v : Word) : Role := { k with csrs := store 0 k.csrs a v }

abbrev csrMSTATUS : Nat := 0x300
abbrev csrMIE : Nat := 0x304
abbrev csrMTVEC : Nat := 0x305
abbrev csrMEPC : Nat := 0x341
abbrev csrMCAUSE : Nat := 0x342
abbrev csrMTVAL : Nat := 0x343
abbrev csrMINSTRET : Nat := 0xB02

/-- An instruction retires: the pc moves past it. minstret counts it. -/
def Role.retire (k : Role) (next : Word) : Role :=
  let lo := k.csr csrMINSTRET + 1
  let k := if lo = 0 then k.setCsr (csrMINSTRET + 0x80) (k.csr (csrMINSTRET + 0x80) + 1) else k
  { k.setCsr csrMINSTRET lo with pc := next }

/-- An instruction of `len` bytes that writes a register retires. -/
def Role.result (k : Role) (rd : Nat) (v : Word) (len : Nat) : Role := (k.setReg rd v).retire (k.pc + BitVec.ofNat 32 len)

/-- Exception causes of the base architecture (R226; PRESUMED, log entry 40). -/
abbrev exFETCH : Nat := 1
abbrev exILLEGAL : Nat := 2
abbrev exLOADALIGN : Nat := 4
abbrev exLOAD : Nat := 5
abbrev exSTOREALIGN : Nat := 6
abbrev exSTORE : Nat := 7
abbrev exECALL : Nat := 11

/-- Taking a trap: mepc, mcause, mtval, mstatus.MPIE and MIE, and the pc at mtvec (R226; log entry 40). -/
def Role.trap (k : Role) (interrupt : Bool) (cause : Nat) (tval : Word) : Role :=
  let st := (k.csr csrMSTATUS).toNat
  let k := ((k.setCsr csrMEPC k.pc).setCsr csrMCAUSE (BitVec.ofNat 32 (cause + if interrupt then 2 ^ 31 else 0))).setCsr csrMTVAL tval
  let k := k.setCsr csrMSTATUS (BitVec.ofNat 32 (withBit (withBit st 7 (bitOf st 3)) 3 false))
  let tv := (k.csr csrMTVEC).toNat
  let base := tv / 4 * 4
  { k with st := .running, waitFor := none, pc := BitVec.ofNat 32 (if interrupt && tv % 4 = 1 then base + 4 * cause else base) }

/-- Return from a trap (MRET; log entry 40). -/
def Role.mret (k : Role) : Role :=
  let st := (k.csr csrMSTATUS).toNat
  let k := k.setCsr csrMSTATUS (BitVec.ofNat 32 (withBit (withBit st 3 (bitOf st 7)) 7 true))
  k.retire (k.csr csrMEPC)

/-- An exception in a role. -/
def State.engTrap (s : State) (c : Line) (r cause : Nat) (tval : Word) : State := s.withRole c r fun k => k.trap false cause tval

/-- An access fault: refused accesses count (R228). -/
def State.accessFault (s : State) (c : Line) (r cause : Nat) (addr : Word) : State :=
  (s.countRole c r ENG.ACC_REFUSED_CNT 13).engTrap c r cause addr

/-- A register result in a role. -/
def State.engResult (s : State) (c : Line) (r rd : Nat) (v : Word) (len : Nat) : State := s.withRole c r fun k => k.result rd v len

/-! Arithmetic of Xknd (R232). -/

/-- BFX. -/
def bfxOf (x : Word) (off w : Nat) (sx : Bool) : Word :=
  let v := x.toNat / 2 ^ off % 2 ^ w
  if sx then BitVec.ofInt 32 (signedOf w v) else BitVec.ofNat 32 v

/-- BFI. -/
def bfiOf (old x : Word) (off w : Nat) : Word :=
  let mask := BitVec.ofNat 32 ((2 ^ w - 1) * 2 ^ off)
  (old &&& ~~~mask) ||| (BitVec.ofNat 32 (x.toNat % 2 ^ w * 2 ^ off) &&& mask)

/-- SSCL for `sat` 0 to 2. -/
def ssclOf (x y : Word) (sat sh : Nat) : Word :=
  let v := roundHalfAway (x.toInt * y.toInt) (2 ^ sh)
  match sat with
  | 0 => BitVec.ofInt 32 (saturate 32 v)
  | 1 => BitVec.ofInt 32 (max (-32768) (min 32767 v))
  | _ => BitVec.ofInt 32 (max 0 (min 65535 v))

/-- Byte `i` of a word. -/
def byteOf (x : Word) (i : Nat) : Nat := x.toNat / 256 ^ i % 256

/-- BSWAP for modes 0 to 2. -/
def bswapOf (x : Word) (mode : Nat) : Word :=
  match mode with
  | 0 => BitVec.ofNat 32 (byteOf x 0 * 2 ^ 24 + byteOf x 1 * 2 ^ 16 + byteOf x 2 * 2 ^ 8 + byteOf x 3)
  | 1 => BitVec.ofNat 32 (byteOf x 2 * 2 ^ 24 + byteOf x 3 * 2 ^ 16 + byteOf x 0 * 2 ^ 8 + byteOf x 1)
  | _ => BitVec.ofNat 32 (byteOf x 0 * 2 ^ 8 + byteOf x 1)

def State.bfx (s : State) (c : Line) (r rd rs1 off w1 : Nat) (sx : Bool) : State :=
  s.engResult c r rd (bfxOf ((s.role c r).reg rs1) off (w1 + 1) sx) 4

def State.bfi (s : State) (c : Line) (r rd rs1 off w1 : Nat) : State :=
  s.engResult c r rd (bfiOf ((s.role c r).reg rd) ((s.role c r).reg rs1) off (w1 + 1)) 4

def State.sscl (s : State) (c : Line) (r rd rs1 rs2 sat sh : Nat) (word : Word) : State :=
  if sat = 3 then s.engTrap c r exILLEGAL word
  else s.engResult c r rd (ssclOf ((s.role c r).reg rs1) ((s.role c r).reg rs2) sat sh) 4

def State.bswap (s : State) (c : Line) (r rd rs1 mode : Nat) (word : Word) : State :=
  if mode = 3 then s.engTrap c r exILLEGAL word else s.engResult c r rd (bswapOf ((s.role c r).reg rs1) mode) 4

/-- The words of the Xknd instructions (R232), as an illegal-instruction trap records them. -/
def xkndWord (imm12 rs1 funct3 rd : Nat) : Word := BitVec.ofNat 32 (imm12 * 2 ^ 20 + rs1 * 2 ^ 15 + funct3 * 2 ^ 12 + rd * 2 ^ 7 + 0x0B)

/-! Provisional loads (R233, R234). -/

/-- How WIN_ORDER permutes byte addresses: codes 0 to 3 (R354). -/
def winXor (code : Nat) : Nat := [0, 3, 1, 7].getD code 0

/-- A word at an address of a window that presents bytes in an order. -/
def State.orderedWord (s : State) (base off code : Nat) : Word :=
  BitVec.ofNat 32 ((List.range 4).foldl (fun v i => v + (s.byte (base + ((off + i) ^^^ winXor code))).toNat * 256 ^ i) 0)

/-- A word of a directory page, presented in an order. -/
def Bank.orderedWord (b : Bank) (index off code : Nat) : Word :=
  BitVec.ofNat 32 ((List.range 4).foldl (fun v i => v + (b.dirByte index ((off + i) ^^^ winXor code)).toNat * 256 ^ i) 0)

/-- The slot of a directory offset, if an entry lies there (R174). -/
def dirSlot (off : Nat) : Option Nat :=
  if off < 64 then none
  else if off < 0x430 then some ((off - 64) / 16 + 1)
  else if 0x440 ≤ off && off < 0x4C0 then some ((off - 0x440) / 16 + 65)
  else none

/-- The forming bank as provisional reads see it (R186). -/
def State.provBank (s : State) (c : Line) : Bank :=
  let k := s.bank c (s.formingBank c)
  { k with entries := k.entries.map fun e => { e with status := s.maskProv c (s.formStatus e) } }

/-- The status a provisional read of a slot returns (R186). -/
def State.provStatus (s : State) (c : Line) (slot : Nat) : Nat := (((s.provBank c).entry slot).map Entry.status).getD stNONE

/-- LDP's data, status and slot at a payload offset (R186, R233). -/
def State.ldpPayload (s : State) (c : Line) (off : Nat) : Word × Nat × Option Nat :=
  let b := s.formingBank c
  match (s.bank c b).entries.find? fun e => decide (e.offs ≤ off) && decide (off < (e.offs + e.len + 3) / 4 * 4) with
  | none => (0, stNONE, none)
  | some e =>
    let st := s.provStatus c e.slot
    if holdsData st then
      (s.orderedWord (bankAddr c b) off (s.get PCIE.WIN_ORDER_A_PAY), st, some e.slot)
    else (0, st, some e.slot)

/-- LDP's data, status and slot at a directory offset. -/
def State.ldpDirectory (s : State) (c : Line) (off : Nat) : Word × Nat × Option Nat :=
  let b := s.formingBank c
  let w := (s.provBank c).orderedWord b off (s.get PCIE.WIN_ORDER_A_DIR)
  match dirSlot off with
  | some slot => (w, s.provStatus c slot, some slot)
  | none => (w, stNONE, none)

/-- LDP. -/
def State.ldp (s : State) (c : Line) (r rd rs1 : Nat) (imm : Int) : State :=
  let a : Word := (s.role c r).reg rs1 + BitVec.ofInt 32 imm
  let x := a.toNat
  if x % 4 ≠ 0 then s.engTrap c r exLOADALIGN a
  else if x / 0x10000 ≠ 4 && !(0x50000 ≤ x && x < 0x51000) then s.accessFault c r exLOAD a
  else
    let (v, st, slot) := if x / 0x10000 = 4 then s.ldpPayload c (x % 0x10000) else s.ldpDirectory c (x % 0x1000)
    let s := s.withRole c r fun k => ({ k with kstat := st } : Role).result rd v 4
    let s := s.when (holdsData st) fun s => s.each (s.pairOf c) fun k s => s.count (LOAF.PROV_READ_CNT k)
    match slot with
    | some p => s.when (st = stPROVISIONAL) fun s => s.withRole c r fun k => { k with tainted := true, readMap := insertNat p k.readMap }
    | none => s

/-! Waiting for the tick (R240, R241). -/

/-- The pending bits a WFT selects from: bit 17 follows the queue. -/
def Role.pending (k : Role) : Nat := withBit k.pend 17 (!k.evq.isEmpty)

/-- Events held back enter the queue as places free (R238). -/
def Role.refill (k : Role) : Role :=
  let room := 32 - k.evq.length
  { k with evq := k.evq ++ k.held.take room, held := k.held.drop room }

/-- A planned move of the role is cancelled where the engine leaves its WFT before the copy has ended, 5.12 µs after its start (R253). -/
def State.leaveWait (s : State) (c : Line) (r : Nat) : State :=
  match s.engMoves.find? fun m => m.chan = c && m.role = r && m.planned with
  | some m =>
    if (s.ltcNs - m.started).toNat < 5120 then
      let s := { s with engMoves := s.engMoves.filter fun x => x != m }
      let s := s.countRoleOnly c r ENG.PLAN_CANCEL_CNT
      s.each (s.pairOf c) fun k s => match s.spareEngine k with
        | some i => s.set (ENG.ENG_STAT_STATE k i) 3
        | none => s
    else s
  | none => s

/-- A WFT returns with the bits selected: rd is written, bits 16:0 returned clear, and with bit 16 the view becomes LATEST. -/
def State.wftReturns (s : State) (c : Line) (r mask rd : Nat) : State :=
  let k := s.role c r
  let got := k.pending &&& mask
  let s := s.withRole c r fun k =>
    ({ k with st := .running, waitFor := none, pend := k.pend - (k.pend &&& (mask % 2 ^ 17)) } : Role).result rd (BitVec.ofNat 32 got) 4
  s.when (bitOf got 16) fun s => s.withRole c r fun k => { k with view := s.get (LOAF.BANK_STAT_LATEST c), viewed := true }

/-- WFT: bit 16 of rs1 seals the release queue; bits already pending return at once. -/
def State.wft (s : State) (c : Line) (r rd rs1 : Nat) : State :=
  let mask := ((s.role c r).reg rs1).toNat
  let s := s.when (bitOf mask 16) fun s => s.withRole c r fun k => { k with sealed_ := true, idleTicks := 0 }
  if (s.role c r).pending &&& mask ≠ 0 then s.wftReturns c r mask rd
  else s.withRole c r fun k => { k with st := .waiting, waitFor := some (mask, rd) }

/-- WFT_RETURN: a waiting engine whose selected bits are pending. -/
def State.wftReturn (s : State) (c : Line) (r : Nat) : State :=
  match (s.role c r).waitFor with
  | some (mask, rd) =>
    if (s.role c r).st = .waiting && (s.role c r).pending &&& mask ≠ 0 then (s.leaveWait c r).wftReturns c r mask rd else s
  | none => s

/-! EBREAK and interrupts (R226, R239). -/

/-- EBREAK without a debugger: the engine halts. -/
def State.ebreak (s : State) (c : Line) (r : Nat) : State :=
  let pc := (s.role c r).pc.toNat
  let s := s.atEngine c r fun k i s => (s.set (ENG.HALT_PC k i) pc).raise (.eng k i) 16
  s.withRole c r fun k => { k with st := .halted }

/-- The machine external interrupt is pending and enabled: mip.MEIP from the queue, mie.MEIE and mstatus.MIE (R239). -/
def Role.interrupted (k : Role) : Bool :=
  !k.evq.isEmpty && bitOf (k.csr csrMIE).toNat 11 && bitOf (k.csr csrMSTATUS).toNat 3

/-- The trap to mtvec; taken in a WFT, the pc that mepc saves is the WFT's own. -/
def State.takeInterrupt (s : State) (c : Line) (r : Nat) : State :=
  if s.engServes c r && (s.role c r).interrupted then
    (s.when ((s.role c r).st = .waiting) fun s => s.leaveWait c r).withRole c r fun k => k.trap true 11 0
  else s

/-! The event queue (R236). -/

/-- EVQ_POP: the next event word, 0 when empty. -/
def State.popEvent (s : State) (c : Line) (r : Nat) : Word × State :=
  match (s.role c r).evq with
  | [] => (0, s)
  | w :: t => (w, s.withRole c r fun k => ({ k with evq := t } : Role).refill)

/-! The release queue (R242, R244). -/

/-- A store enters the release queue; the 65th of a cycle discards them all. -/
def State.queueStore (s : State) (c : Line) (r : Nat) (addr : Word) (data : List Byte) : State :=
  let k := s.role c r
  if k.refused then s
  else if 64 ≤ k.relq.length then
    (s.withRole c r fun k => { k with relq := [], refused := true }).countRole c r ENG.RELQ_OVF_CNT 10
  else s.withRole c r fun k => { k with relq := k.relq ++ [⟨addr, data⟩] }

/-! The mailbox (R249). -/

/-- The outbound doorbell rings; an acknowledgement in the same clock leaves the mailbox full (R249). -/
def State.ringOut (s : State) (c : Line) (r : Nat) : State :=
  s.atEngine c r fun k i s => (s.updateFlag (ENG.MBOX_CTRL_OUT_FULL k i)).raise (.eng k i) 8

/-- A word of the outbound mailbox: ignored while it is full. -/
def State.writeMboxOut (s : State) (c : Line) (r w : Nat) (v : Word) : State :=
  s.atEngine c r fun k i s => if s.flag (ENG.MBOX_CTRL_OUT_FULL k i) then s else s.set (ENG.MBOX_OUT k i w) v.toNat

/-- MBOX_OUT_DB: queued while the engine is tainted (R242). -/
def State.mboxOutDb (s : State) (c : Line) (r : Nat) : State :=
  if (s.role c r).tainted then s.queueStore c r 0x000F0040 [1, 0, 0, 0] else s.ringOut c r

/-- The inbound mailbox is acknowledged. -/
def State.ackIn (s : State) (c : Line) (r : Nat) : State :=
  s.atEngine c r fun k i s => s.clearField (ENG.MBOX_CTRL_IN_FULL k i)

/-- MBOX_IN_ACK: a mailbox register, so queued while the engine is tainted. -/
def State.mboxInAck (s : State) (c : Line) (r : Nat) : State :=
  if (s.role c r).tainted then s.queueStore c r 0x000F0080 [1, 0, 0, 0] else s.ackIn c r

/-- The host reaches a mailbox page: in LOCKED mode writes go to the leading channel only, and a page without a role counts. -/
def State.hostMbox (s : State) (c : Line) (i : Nat) (f : Nat → State → State) : State :=
  if !s.leads c then s
  else match s.roleAt c i with
    | some r => f r s
    | none => s.count (ENG.MBOX_NOROLE_CNT c i)

/-- The inbound doorbell. -/
def State.inDb (s : State) (c : Line) (i : Nat) : State :=
  s.hostMbox c i fun r s => (s.atEngine c r fun k j s => s.updateFlag (ENG.MBOX_CTRL_IN_FULL k j)).pushEvent c r evMBOX_IN 0

/-- The host acknowledges the outbound mailbox. -/
def State.outAck (s : State) (c : Line) (i : Nat) : State :=
  s.hostMbox c i fun r s => (s.atEngine c r fun k j s => s.clearField (ENG.MBOX_CTRL_OUT_FULL k j)).pushEvent c r evMBOX_ACK 0

/-- A host write of an inbound word: ignored while the mailbox is full. -/
def State.writeMboxIn (s : State) (c : Line) (i w v : Nat) : State :=
  s.hostMbox c i fun r s => s.atEngine c r fun k j s => if s.flag (ENG.MBOX_CTRL_IN_FULL k j) then s else s.set (ENG.MBOX_IN k j w) v

/-! Semaphores (R250). -/

def State.sems (s : State) : Line → List Nat
  | .A => s.semA
  | .B => s.semB

def State.setSem (s : State) (c : Line) (k v : Nat) : State :=
  s.each (s.pairOf c) fun x s => match x with
    | .A => { s with semA := setAt s.semA k v }
    | .B => { s with semB := setAt s.semB k v }

/-- A load takes a free semaphore and returns 0, or returns the holder's role plus 1. -/
def State.semLoad (s : State) (c : Line) (r k : Nat) : Word × State :=
  match (s.sems c).getD k 0 with
  | 0 => (0, s.setSem c k (r + 1))
  | h => (BitVec.ofNat 32 h, s)

/-- A store of 0 by the holder frees it. -/
def State.semStore (s : State) (c : Line) (r k : Nat) (v : Word) : State :=
  if v = 0 && (s.sems c).getD k 0 = r + 1 then s.setSem c k 0 else s

/-! Starting a role (R254, R255, R258). -/

/-- The role starts at an address with ROLE_START of a cause. -/
def State.startRole (s : State) (c : Line) (r : Nat) (entry : Word) (cause poisoned : Nat) : State :=
  (s.withRole c r fun k => { k with st := .running, waitFor := none, pc := entry, idleTicks := 0 }).pushEvent c r evSTART
    (min 255 poisoned * 256 + cause)

/-- A cold start: ROLE_START is the first event, so nothing of a former run is left in the queue (R258). -/
def State.startCold (s : State) (c : Line) (r : Nat) (entry : Word) : State :=
  (s.withRole c r fun k => { k with evq := [], held := [] }).startRole c r entry 0 0

/-- A restart at WARM_ENTRY with the release queue discarded (R255, R259). -/
def State.restartWarm (s : State) (c : Line) (r : Nat) : State :=
  match (s.role c r).image with
  | some (_, warm) => ((s.leaveWait c r).withRole c r fun k => { k with relq := [] }).startRole c r warm 2 0
  | none => s

/-- RUN: 1 starts a role with an image at COLD_ENTRY, 0 halts it. -/
def State.writeRun (s : State) (c : Line) (i : Nat) (on : Bool) : State :=
  let was := s.flag (ENG.ENG_CTRL_RUN c i)
  let s := s.each (s.pairOf c) fun k s => s.setFlag (ENG.ENG_CTRL_RUN k i) on
  match s.roleAt c i with
  | none => s
  | some r =>
    if on && !was then
      match (s.role c r).image with
      | some (cold, _) => if s.live (.eng c i) then s.startCold c r cold else s
      | none => s
    else if !on then (s.leaveWait c r).withRole c r fun k => { k with st := .halted, waitFor := none }
    else s

/-- RUN is set for a role whose engine is in service and has not failed; an EBREAK may have halted it. -/
def State.roleOn (s : State) (c : Line) (r : Nat) : Bool :=
  s.leads c && (s.engineOf c r).any fun i => s.live (.eng c i) && s.flag (ENG.ENG_CTRL_RUN c i) && s.get (ENG.ENG_STAT_STATE c i) != 5

/-- WARM: a restart without counting. -/
def State.writeWarm (s : State) (c : Line) (i : Nat) : State :=
  match s.roleAt c i with
  | some r => if s.roleOn c r then s.restartWarm c r else s
  | none => s

/-- The watchdog has run out (R255). -/
def State.watchdog (s : State) (c : Line) (r : Nat) : State :=
  match s.engineOf c r with
  | some i =>
    let w := s.get (ENG.WDT c i)
    if w != 0 && w ≤ (s.role c r).idleTicks then (s.countRole c r ENG.WDT_CNT 12).restartWarm c r else s
  | none => s

/-! Moves (R252 to R254). -/

/-- Show a whole map in every page of the channel. -/
def State.showMap (s : State) (c : Line) (lo hi valid : Nat) : State :=
  s.each (List.range 16) fun e s => ((s.set (ENG.ROLE_MAP_LO c e) lo).set (ENG.ROLE_MAP_HI c e) hi).set (ENG.ROLE_VALID c e) valid

/-- The map with a nibble replaced. -/
def nibbleSet (v k i : Nat) : Nat := v - v / 16 ^ k % 16 * 16 ^ k + i * 16 ^ k

/-- Give a role to an engine, and the channel another spare or none: what the maps and the pages' ROLE show (R252). -/
def State.assignRole (s : State) (c : Line) (r : Nat) (i : Option Nat) (spare : Option Nat) : State :=
  let lo := s.get (ENG.ROLE_MAP_LO c 0)
  let hi := s.get (ENG.ROLE_MAP_HI c 0)
  let valid := s.get (ENG.ROLE_VALID c 0)
  let e := i.getD 15
  let lo := if r < 8 then nibbleSet lo r e else lo
  let hi := nibbleSet (if r < 8 then hi else nibbleSet hi (r - 8) e) 7 (spare.getD 15)
  let s := s.showMap c lo hi (withBit (withBit valid r i.isSome) 15 spare.isSome)
  s.each (List.range 16) fun j s => s.set (ENG.ENG_STAT_ROLE c j) ((s.roleAt c j).getD 15)

/-- What a page holds of a role moves to another engine's page: the mailbox, RUN, WDT and the image's data (R249, R253; log entry 41). -/
def State.movePage (s : State) (c : Line) (i j : Nat) : State :=
  let regs (e : Nat) := [ENG.ENG_CTRL_RUN c e, ENG.WDT c e, ENG.IMAGE_ID c e, ENG.SEC_VER c e, ENG.MBOX_CTRL_IN_FULL c e,
    ENG.MBOX_CTRL_OUT_FULL c e] ++ (List.range 8).map (ENG.MBOX_IN c e) ++ (List.range 8).map (ENG.MBOX_OUT c e)
  s.each ((regs i).zip (regs j)) fun p s => (s.set p.2 (s.get p.1)).set p.1 p.1.reset

/-- An engine that holds no role any more shows nothing of one (R252, R259). -/
def State.clearShown (s : State) (c : Line) (i : Nat) : State :=
  (((s.setFlag (ENG.ENG_STAT_TAINTED c i) false).setFlag (ENG.ENG_STAT_SEALED c i) false).set (ENG.ENG_STAT_VIEW c i) 0).set
    (ENG.ENG_STAT_EVQ_DEPTH c i) 0

/-- The spare takes a role of one channel; the engine that held it becomes the spare after a planned move, and has failed otherwise. -/
def State.spareTakes (s : State) (c : Line) (r : Nat) (planned : Bool) : State :=
  match s.engineOf c r, s.spareEngine c with
  | some i, some j =>
    let s := s.movePage c i j
    let s := (s.assignRole c r (some j) (if planned then some i else none)).clearShown c i
    let s := (s.set (ENG.ENG_STAT_STATE c i) (if planned then 3 else 5)).raise (.eng c j) 14
    s.showRole c r
  | _, _ => s

/-- A role lost: the spare stays, the failed page raises ROLE_LOST, and its semaphores free (R250, R254). -/
def State.loseRole (s : State) (c : Line) (r : Nat) : State :=
  match s.engineOf c r with
  | some i =>
    let s := ((s.assignRole c r none (s.spareEngine c)).clearShown c i).raise (.eng c i) 15
    let s := s.set (ENG.ENG_STAT_STATE c i) 5
    match c with
    | .A => { s with semA := s.semA.map fun h => if h = r + 1 then 0 else h, rolesA := modifyAt s.rolesA r fun _ => Role.reset }
    | .B => { s with semB := s.semB.map fun h => if h = r + 1 then 0 else h, rolesB := modifyAt s.rolesB r fun _ => Role.reset }
  | none => s

/-- A move takes place at the tick, on both engines of a pair (R253, R254, R256). -/
def State.makeMove (s : State) (m : EngMove) : State :=
  let chans := s.pairOf m.chan
  if m.planned then s.each chans fun k s => s.spareTakes k m.role true
  else if m.lost || (s.spareEngine m.chan).isNone then
    let s := s.each chans fun k s => match s.spareEngine k with
      | some j => s.set (ENG.ENG_STAT_STATE k j) 3
      | none => s
    s.each chans fun k s => s.loseRole k m.role
  else
    let s := s.each chans fun k s => s.spareTakes k m.role false
    let s := s.each (s.pairOf m.chan) fun k s => match s.engineOf k m.role with
      | some j => s.countBy (ENG.POISON_CNT k j) m.poisoned
      | none => s
    let s := s.withRole m.chan m.role fun k =>
      { Role.reset with image := k.image, view := k.view, viewed := k.viewed }
    match (s.role m.chan m.role).image with
    | some (_, warm) =>
      if (s.engineOf m.chan m.role).any fun j => s.flag (ENG.ENG_CTRL_RUN m.chan j) then s.startRole m.chan m.role warm 1 m.poisoned else s
    | none => s

/-- Every move that a tick completes. -/
def State.makeMoves (s : State) : State := s.each s.engMoves fun m s => { s.makeMove m with engMoves := s.engMoves.filter fun x => x != m }

/-! The commands. -/

def execBfx (c : Line) (r : BitVec 4) (rd rs1 off w1 : BitVec 5) (sx : Bool) (s : State) : Host.Outcome State Fault Refusal :=
  .next (if s.engRuns c r.toNat then s.bfx c r.toNat rd.toNat rs1.toNat off.toNat w1.toNat sx else s)

def execBfi (c : Line) (r : BitVec 4) (rd rs1 off w1 : BitVec 5) (s : State) : Host.Outcome State Fault Refusal :=
  .next (if s.engRuns c r.toNat then s.bfi c r.toNat rd.toNat rs1.toNat off.toNat w1.toNat else s)

def execSscl (c : Line) (r : BitVec 4) (rd rs1 rs2 : BitVec 5) (sat : BitVec 2) (sh : BitVec 5) (s : State) :
    Host.Outcome State Fault Refusal :=
  .next (if s.engRuns c r.toNat then
    s.sscl c r.toNat rd.toNat rs1.toNat rs2.toNat sat.toNat sh.toNat
      (xkndWord (sat.toNat * 2 ^ 10 + sh.toNat * 2 ^ 5 + rs2.toNat) rs1.toNat 2 rd.toNat)
  else s)

def execBswap (c : Line) (r : BitVec 4) (rd rs1 : BitVec 5) (mode : BitVec 2) (s : State) : Host.Outcome State Fault Refusal :=
  .next (if s.engRuns c r.toNat then
    s.bswap c r.toNat rd.toNat rs1.toNat mode.toNat (xkndWord mode.toNat rs1.toNat 3 rd.toNat)
  else s)

def execLdp (c : Line) (r : BitVec 4) (rd rs1 : BitVec 5) (imm : BitVec 12) (s : State) : Host.Outcome State Fault Refusal :=
  .next (if s.engRuns c r.toNat then s.ldp c r.toNat rd.toNat rs1.toNat imm.toInt else s)

def execWft (c : Line) (r : BitVec 4) (rd rs1 : BitVec 5) (s : State) : Host.Outcome State Fault Refusal :=
  .next (if s.engRuns c r.toNat then s.wft c r.toNat rd.toNat rs1.toNat else s)

def execWftReturn (c : Line) (r : BitVec 4) (s : State) : Host.Outcome State Fault Refusal :=
  .next (if s.engServes c r.toNat then s.wftReturn c r.toNat else s)

def execEbreak (c : Line) (r : BitVec 4) (s : State) : Host.Outcome State Fault Refusal :=
  .next (if s.engRuns c r.toNat then s.ebreak c r.toNat else s)

def execMachineExternalInterrupt (c : Line) (r : BitVec 4) (s : State) : Host.Outcome State Fault Refusal :=
  .next (s.takeInterrupt c r.toNat)

/-- EVQ_POP: firmware loads the register. -/
def execEvqPop (c : Line) (r : BitVec 4) (rd : BitVec 5) (s : State) : Host.Outcome State Fault Refusal :=
  .next (if s.engRuns c r.toNat then
    let (v, s) := s.popEvent c r.toNat
    s.engResult c r.toNat rd.toNat v 4
  else s)

/-- MBOX_OUT_DB: firmware stores 1. -/
def execMboxOutDb (c : Line) (r : BitVec 4) (s : State) : Host.Outcome State Fault Refusal :=
  .next (if s.engRuns c r.toNat then (s.mboxOutDb c r.toNat).withRole c r.toNat fun k => k.retire (k.pc + 4) else s)

/-- MBOX_IN_ACK: firmware stores 1. -/
def execMboxInAck (c : Line) (r : BitVec 4) (s : State) : Host.Outcome State Fault Refusal :=
  .next (if s.engRuns c r.toNat then (s.mboxInAck c r.toNat).withRole c r.toNat fun k => k.retire (k.pc + 4) else s)

def execInDb (c : Line) (i : BitVec 4) (s : State) : Host.Outcome State Fault Refusal :=
  .next (if s.powered (.eng c i.toNat) then s.inDb c i.toNat else s)

def execOutAck (c : Line) (i : BitVec 4) (s : State) : Host.Outcome State Fault Refusal :=
  .next (if s.powered (.eng c i.toNat) then s.outAck c i.toNat else s)

def execSemaphoreLoad (c : Line) (r : BitVec 4) (rd : BitVec 5) (k : BitVec 6) (s : State) : Host.Outcome State Fault Refusal :=
  .next (if s.engRuns c r.toNat then
    let (v, s) := s.semLoad c r.toNat k.toNat
    s.engResult c r.toNat rd.toNat v 4
  else s)

def execSemaphoreStore (c : Line) (r : BitVec 4) (k : BitVec 6) (v : Word) (s : State) : Host.Outcome State Fault Refusal :=
  .next (if s.engRuns c r.toNat then (s.semStore c r.toNat k.toNat v).withRole c r.toNat fun k => k.retire (k.pc + 4) else s)

def execEngWdt (c : Line) (r : BitVec 4) (s : State) : Host.Outcome State Fault Refusal :=
  .next (if s.roleOn c r.toNat then s.watchdog c r.toNat else s)

def execEngRun (c : Line) (i : BitVec 4) (on : Bool) (s : State) : Host.Outcome State Fault Refusal :=
  .next (if s.powered (.eng c i.toNat) then s.writeRun c i.toNat on else s)

def execEngWarm (c : Line) (i : BitVec 4) (s : State) : Host.Outcome State Fault Refusal :=
  .next (if s.powered (.eng c i.toNat) then s.writeWarm c i.toNat else s)

end Sys2Proof.Machine
end

