-- ==== Sys2Proof/Machine/Drafts.lean ====
section
/-! DEFINITION. Drafts as their writers reach them (spec/06_the_loaf.md R180 to R183; spec/08_protocol_engines.md R245): owners, the commands
and the data writes. -/

namespace Sys2Proof.Machine

/-- How a request meets a draft: it applies, it is dropped with DRAFT_ERR because another role owns the draft (R245), it counts in LOAF_B as a
host write to channel B's window (R180), or the window ignores it (R179). -/
inductive DraftAccess | applies | foreign | channelB | ignored
deriving DecidableEq, Repr

/-- Who reaches a draft (R179, R181, R228, R245). -/
def State.draftAccess (s : State) (who : Requester) (c : Line) (d : Nat) : DraftAccess :=
  match who with
  | .engine c' r =>
    if c' = c && (d = 4 || d = 5) then
      let x := s.draft c d
      if x.state != .closed && x.role != some r then .foreign else .applies
    else .ignored
  | _ => if c = .B then .channelB else if d < 4 then .applies else .ignored

/-- The PROVISIONAL slots a requester's data may derive from: a tainted engine's read map (R187). -/
def State.sourcesOf (s : State) : Requester → List Nat
  | .engine c r => if (s.role c r).tainted then (s.role c r).readMap else []
  | _ => []

/-- The role of a requester. -/
def Requester.roleOf : Requester → Option Nat
  | .engine _ r => some r
  | _ => none

/-- Apply a draft operation where the requester may; engines of a pair act in both channels. -/
def State.atDraft (s : State) (who : Requester) (c : Line) (d : Nat) (f : Line → State → State) : State :=
  match s.draftAccess who c d with
  | .applies => match who with
    | .engine _ _ => s.each (s.pairOf c) f
    | _ => f c s
  | .foreign => s.draftError c
  | .channelB => s.count (LOAF.DRAFT_ERR_CNT .B)
  | .ignored => s

/-- OPEN by a requester: the draft records an engine's role (R245). -/
def State.requestOpen (s : State) (who : Requester) (c : Line) (d : Nat) : State :=
  s.atDraft who c d fun k s =>
    let pend := (s.draft k d).state = .pending
    let s := s.openDraft k d
    if pend then s else s.each (draftChannels k d) fun j s => s.withDraft j d fun x => { x with role := who.roleOf }

def State.requestCommit (s : State) (who : Requester) (c : Line) (d : Nat) (ready doubtful : Bool) : State :=
  s.atDraft who c d fun k s => s.commitDraft k d ready doubtful (s.sourcesOf who) who.roleOf

def State.requestAbort (s : State) (who : Requester) (c : Line) (d : Nat) : State := s.atDraft who c d fun k s => s.abortDraft k d

def State.requestData (s : State) (who : Requester) (c : Line) (d : Nat) (data : List (Nat × Byte)) : State :=
  s.atDraft who c d fun k s => s.writeDraft k d data

/-- A write to a control word (R182): it acts only when it covers the whole word. -/
def State.requestControl (s : State) (who : Requester) (c : Line) (d v : Nat) (whole : Bool) : State :=
  if !whole then s.atDraft who c d fun k s => s.draftError (draftPage k d)
  else match v % 4 with
    | 1 => s.requestOpen who c d
    | 2 => s.requestCommit who c d (bitOf v 8) (bitOf v 9)
    | 3 => s.requestAbort who c d
    | _ => s.atDraft who c d fun k s => s.when ((s.draft k d).state = .pending) fun s => s.count (LOAF.DRAFT_ERR_CNT (draftPage k d))

/-- The control word as it reads: the state in bits 11:10 (R182). -/
def State.controlWord (s : State) (c : Line) (d : Nat) : Nat :=
  match (s.draft c d).state with
  | .closed => 0
  | .opened => 0x400
  | .pending => 0x800

/-- The Loaf of a channel is powered. -/
def State.loafOn (s : State) (c : Line) : Bool := s.powered (.loaf c)

def execDraftOpen (who : Requester) (c : Line) (d : BitVec 3) (s : State) : Host.Outcome State Fault Refusal :=
  .next (if s.loafOn c then s.requestOpen who c d.toNat else s)

def execDraftCommit (who : Requester) (c : Line) (d : BitVec 3) (ready doubtful : Bool) (s : State) : Host.Outcome State Fault Refusal :=
  .next (if s.loafOn c then s.requestCommit who c d.toNat ready doubtful else s)

def execDraftAbort (who : Requester) (c : Line) (d : BitVec 3) (s : State) : Host.Outcome State Fault Refusal :=
  .next (if s.loafOn c then s.requestAbort who c d.toNat else s)

def execDraftDataWrite (who : Requester) (c : Line) (d : BitVec 3) (data : List (BitVec 12 × Byte)) (s : State) :
    Host.Outcome State Fault Refusal :=
  .next (if s.loafOn c then s.requestData who c d.toNat (data.map fun b => (b.1.toNat, b.2)) else s)

def execDraftExpired (c : Line) (d : BitVec 3) (s : State) : Host.Outcome State Fault Refusal :=
  .next (if s.loafOn c then s.expireDraft c d.toNat else s)

end Sys2Proof.Machine
end

