-- ==== Sys2Proof/Machine/Can.lean ====
section
/-! DEFINITION. The CAN FD and MVB controllers (spec/10_can_fd_and_mvb.md R291 to R318). -/

namespace Sys2Proof.Machine

/-! CAN. -/

def State.can (s : State) (c : Nat) : CanBus := s.canBus.getD c CanBus.reset

/-- Codes of CAN_STAT.STATE (R294). -/
abbrev cnOFF : Nat := 0
abbrev cnINTEGRATING : Nat := 1
abbrev cnACTIVE : Nat := 2
abbrev cnPASSIVE : Nat := 3
abbrev cnBUSOFF : Nat := 4
abbrev cnRECOVERING : Nat := 5

def State.canState (s : State) (c : Nat) : Nat := s.get (CAN.CAN_STAT_STATE c)
def State.setCanState (s : State) (c st : Nat) : State := s.set (CAN.CAN_STAT_STATE c) st

/-- On the bus: ERR_ACTIVE or ERR_PASSIVE. -/
def State.canOnBus (s : State) (c : Nat) : Bool := s.live (.can c) && (s.canState c == cnACTIVE || s.canState c == cnPASSIVE)

/-- BUS_OFF with AUTO_RECOVER = 1 goes on to RECOVERING (R294). -/
def State.autoRecover (s : State) (c : Nat) : State :=
  s.when (s.canState c = cnBUSOFF && s.flag (CAN.CAN_CTRL_AUTO_RECOVER c)) fun s => s.setCanState c cnRECOVERING

/-- Set TEC and REC with the transitions they cause (R294). -/
def State.setErrorCounts (s : State) (c tec rec : Nat) : State :=
  let warned := s.flag (CAN.CAN_STAT_WARN c)
  let warn := 96 ≤ tec || 96 ≤ rec
  let s := (s.set (CAN.CAN_STAT_TEC c) (min tec 255)).set (CAN.CAN_STAT_REC c) (min rec 255)
  let s := (s.setFlag (CAN.CAN_STAT_WARN c) warn).when (warn && !warned) fun s => s.raise (.can c) 12
  let s :=
    if s.canState c = cnACTIVE && (127 < tec || 127 < rec) then (s.setCanState c cnPASSIVE).raise (.can c) 13
    else if s.canState c = cnPASSIVE && tec ≤ 127 && rec ≤ 127 then s.setCanState c cnACTIVE
    else s
  if s.canState c = cnPASSIVE && 255 < tec then ((s.countRaise (CAN.BUS_OFF_CNT c) (.can c) 14).setCanState c cnBUSOFF).autoRecover c
  else s

/-- STATUS of a transmit buffer (R309): 31 TX_OK, 30 CANCELLED, 29 CANCEL_LATE, 28 SS_FAIL, 27:26 SS_CAUSE, 25 FMT_ERR, 24 MEM_ERR. -/
def State.endRequest (s : State) (c b status : Nat) : State :=
  let s := s.setTxPending c (withBit (s.txPending c) b false)
  let cancels := s.get64 (CAN.TX_CANCEL_LO c) (CAN.TX_CANCEL_HI c)
  let s := s.set64 (CAN.TX_CANCEL_LO c) (CAN.TX_CANCEL_HI c) (withBit cancels b false)
  let s := s.withCan c fun k => { k with
    former := k.former.filter fun x => x.buffer != b || decide (s.ltcNs.toNat < x.flipped.toNat)
    cancels := k.cancels.filter fun x => x.1 != b
    ackRun := if k.ackBuffer = b then 0 else k.ackRun }
  (s.setBeWord (canCfg c b + 12) status).when (bitOf (s.canWord c b 0) 22) fun s => s.raise (.can c) 11

/-- Cancels that were left open, of which none has found its frame started: CANCELLED (R308). -/
def State.settleCancels (s : State) (c : Nat) (open_ : BitVec 64 → Bool) : State :=
  s.each ((s.can c).cancels.filter fun x => open_ x.2) fun x s => if bitOf (s.txPending c) x.1 then s.endRequest c x.1 (2 ^ 30) else s

/-- Clear every pending request with CANCELLED. -/
def State.cancelAll (s : State) (c : Nat) : State :=
  s.each (List.range 64) fun b s => if bitOf (s.txPending c) b then s.endRequest c b (2 ^ 30) else s

/-- The controller leaves OFF (R294). -/
def State.canStart (s : State) (c : Nat) : State :=
  if s.canState c = cnOFF then (s.setErrorCounts c 0 0).setCanState c cnINTEGRATING else s

/-- The controller returns to OFF. -/
def State.canStop (s : State) (c : Nat) : State := (s.cancelAll c).setCanState c cnOFF

/-- CAN_CTRL.EN written 0: at once where no frame can be in progress; on the bus at the end of the frame, which CAN_DISABLE, the next frame or
the next attempt that ends brings (R294; log entry 189). -/
def State.askStop (s : State) (c : Nat) : State := if s.canOnBus c then s else s.canStop c

/-- A frame on the bus has ended: a controller switched off during it goes to OFF. -/
def State.frameEnds (s : State) (c : Nat) : State := s.when (!s.flag (CAN.CAN_CTRL_EN c)) fun s => s.canStop c

/-- CAN_ENABLE. -/
def execCanEnable (c : BitVec 3) (s : State) : Host.Outcome State Fault Refusal :=
  .next (if s.powered (.can c.toNat) then (s.setFlag (CAN.CAN_CTRL_EN c.toNat) true).canStart c.toNat else s)

/-- CAN_DISABLE, at the end of the frame in progress. -/
def execCanDisable (c : BitVec 3) (s : State) : Host.Outcome State Fault Refusal :=
  .next (if s.powered (.can c.toNat) then (s.setFlag (CAN.CAN_CTRL_EN c.toNat) false).canStop c.toNat else s)

/-- CAN_INTEGRATED: 11 recessive bits. -/
def execCanIntegrated (c : BitVec 3) (s : State) : Host.Outcome State Fault Refusal :=
  .next (
    if s.canState c.toNat = cnINTEGRATING then
      let s := s.setCanState c.toNat cnACTIVE
      s.setErrorCounts c.toNat (s.get (CAN.CAN_STAT_TEC c.toNat)) (s.get (CAN.CAN_STAT_REC c.toNat))
    else s)

/-- RESTART (R294). -/
def execRestart (c : BitVec 3) (s : State) : Host.Outcome State Fault Refusal :=
  .next (if s.canState c.toNat = cnBUSOFF then s.setCanState c.toNat cnRECOVERING else s)

/-- BUS_ON (R294). -/
def execBusOn (c : BitVec 3) (s : State) : Host.Outcome State Fault Refusal :=
  .next (
    if s.canState c.toNat = cnRECOVERING then ((s.setCanState c.toNat cnACTIVE).setErrorCounts c.toNat 0 0).raise (.can c.toNat) 15
    else s)

/-- What an error adds to TEC, or for a receiver to REC, as ISO 11898-1 counts (R294, R295; log entry 35). -/
def State.faultCount (s : State) (c code : Nat) (transmitter : Bool) (f : CanFault) : Nat :=
  8 * f.runs.toNat +
    if transmitter then
      if (code = 3 && s.canState c = cnPASSIVE && !f.dominant) || (code = 1 && f.inArbitration) then 0 else 8
    else (if f.inFlag then 8 else 1) + if f.dominant then 8 else 0

/-- An error of the protocol: LAST_ERR, PROTO_ERR_CNT and the counters, which stay in listen-only (R310). It ends the frame. -/
def State.canError (s : State) (c code : Nat) (dataPhase transmitter : Bool) (f : CanFault) : State :=
  let s := (s.update (CAN.LAST_ERR_CODE c) fun _ => code).update (CAN.LAST_ERR_DATA c) fun _ => if dataPhase then 1 else 0
  let s := s.countRaise (CAN.PROTO_ERR_CNT c) (.can c) 19
  let (tec, rec_) := (s.get (CAN.CAN_STAT_TEC c), s.get (CAN.CAN_STAT_REC c))
  let n := s.faultCount c code transmitter f
  let s := if s.flag (CAN.CAN_STAT_LISTEN_ACT c) then s
    else if transmitter then s.setErrorCounts c (tec + n) rec_ else s.setErrorCounts c tec (rec_ + n)
  if transmitter then s else (s.settleCancels c fun _ => true).frameEnds c

/-- CAN_ERROR. -/
def execCanError (c code : BitVec 3) (dataPhase transmitter : Bool) (fault : CanFault) (s : State) : Host.Outcome State Fault Refusal :=
  .next (if s.canOnBus c.toNat then s.canError c.toNat code.toNat dataPhase transmitter fault else s)

/-! Receiving (R298 to R304). -/

/-- Data bytes of a DLC. -/
def dlcLen (fdf : Bool) (dlc : Nat) : Nat :=
  if dlc ≤ 8 then dlc else if fdf then [12, 16, 20, 24, 32, 48, 64].getD (dlc - 9) 64 else 8

/-- Words 0 to 3 of an element (R296). -/
def CanFrame.header (f : CanFrame) (index : Nat) (ts : BitVec 64) : List Byte :=
  let bit (b : Bool) (k : Nat) : Nat := if b then 2 ^ k else 0
  bytesBE 4 (bit f.esi 31 + bit f.xtd 30 + bit f.rtr 29 + f.id.toNat)
    ++ bytesBE 4 (bit f.fdf 31 + bit f.brs 30 + f.dlc.toNat * 2 ^ 16 + index * 2 ^ 8 + dlcLen f.fdf f.dlc.toNat)
    ++ bytesBE 8 ts.toNat

/-- An identifier matches under a mask (R298). -/
def idMatches (frame : CanFrame) (xtd : Bool) (id mask : Nat) : Bool :=
  frame.xtd == xtd && frame.id.toNat &&& mask == id &&& mask

/-- The receive buffer that takes a frame. -/
def State.bufferFor (s : State) (c : Nat) (f : CanFrame) : Option Nat :=
  lowest 64 fun b => s.canRx c b && idMatches f (bitOf (s.canWord c b 0) 29) (s.canWord c b 1 % 2 ^ 29) (s.canWord c b 2 % 2 ^ 29)

/-- The FIFO and filter that take it otherwise. -/
def State.fifoFor (s : State) (c : Nat) (f : CanFrame) : Option (Nat × Nat) :=
  match lowest 16 fun i => s.flag (CAN.FLT_ID_EN c i)
      && idMatches f (s.flag (CAN.FLT_ID_XTD c i)) (s.get (CAN.FLT_ID_ID c i)) (s.get (CAN.FLT_MASK c i)) with
  | some i => some (s.get (CAN.FLT_ID_FIFO c i), i)
  | none => if s.flag (CAN.CAN_CTRL_NOMATCH c) then some (1, 0) else none

def State.newData (s : State) (c : Nat) : Nat := s.get64 (CAN.NEW_DATA_LO c) (CAN.NEW_DATA_HI c)
def State.setNewData (s : State) (c b : Nat) (v : Bool) : State :=
  s.set64 (CAN.NEW_DATA_LO c) (CAN.NEW_DATA_HI c) (withBit (s.newData c) b v)

def State.canLocked (s : State) (c b : Nat) : Bool := (s.can c).locks.any fun x => x.1 = b

/-- Store a frame in a receive buffer, or in its shadow while it is locked (R299, R301). -/
def State.storeInBuffer (s : State) (c b : Nat) (f : CanFrame) (ts : BitVec 64) : State :=
  let locked := s.canLocked c b
  let full := (s.can c).shadow.contains b
  let s := s.when (locked && full) fun s => s.countRaise (CAN.LOST_CNT c) (.can c) 17
  let s := s.when (!locked && bitOf (s.newData c) b) fun s => s.count (CAN.OVERWRITE_CNT c)
  let a := canBuf c b + if locked then 80 else 0
  let s := (s.setBytes a (f.header b ts)).setBytes (a + 16) (f.data.take (s.canDataLen c b))
  let s := s.withCan c fun k => { k with
    shadow := if locked then insertNat b k.shadow else k.shadow
    seen := insertNat b k.seen }
  let s := (s.setNewData c b true).setBeWord (canCfg c b + 12) s.cycle
  let s := s.when (bitOf (s.canWord c b 0) 22) fun s => s.raise (.can c) 8
  (s.count (CAN.RX_FRAMES c)).rxTriggers 3 (c * 256 + b)

/-- Store a frame in a FIFO (R304). -/
def State.storeInFifo (s : State) (c f index : Nat) (frame : CanFrame) (ts : BitVec 64) : State :=
  let fill := s.get (CAN.FIFO_STAT_FILL c f)
  let ovw := if f = 0 then s.flag (CAN.FIFO_CFG_OVW0 c) else s.flag (CAN.FIFO_CFG_OVW1 c)
  let wm := if f = 0 then s.get (CAN.FIFO_CFG_WM0 c) else s.get (CAN.FIFO_CFG_WM1 c)
  let full := 32 ≤ fill
  let s := s.when full fun s => s.countRaise (CAN.FIFO_LOST_CNT c) (.can c) 17
  if full && !ovw then s
  else
    let put := s.get (CAN.FIFO_STAT_PUT c f)
    let a := canFifo c f put
    let s := (s.setBytes a (frame.header index ts)).setBytes (a + 16) (frame.data.take 64)
    let s := s.set (CAN.FIFO_STAT_PUT c f) ((put + 1) % 32)
    let s := if full then s.set (CAN.FIFO_STAT_GET c f) ((s.get (CAN.FIFO_STAT_GET c f) + 1) % 32)
      else s.set (CAN.FIFO_STAT_FILL c f) (fill + 1)
    let s := s.count (CAN.RX_FRAMES c)
    s.when (wm = 0 || (!full && fill + 1 = wm)) fun s => s.raise (.can c) (9 + f)

/-- A successful reception counts REC down (ISO 11898-1; log entry 35). -/
def State.countGoodRx (s : State) (c : Nat) : State :=
  let r := s.get (CAN.CAN_STAT_REC c)
  if s.flag (CAN.CAN_STAT_LISTEN_ACT c) || r = 0 then s
  else if r ≤ 127 then s.setErrorCounts c (s.get (CAN.CAN_STAT_TEC c)) (r - 1)
  else
    let (v, s) := s.draw
    s.setErrorCounts c (s.get (CAN.CAN_STAT_TEC c)) (119 + v % 9)

/-- CAN_FRAME_RX: `ts` is LTC in ns in the clock in which the start-of-frame edge is recognised; 2 mtq come off (R300). -/
def execCanFrameRx (c : BitVec 3) (frame : CanFrame) (ts : BitVec 64) (s : State) : Host.Outcome State Fault Refusal :=
  .next (
    let c := c.toNat
    let ts := ts - 25
    if !s.canOnBus c then s
    else if frame.fdf && !s.flag (CAN.CAN_CTRL_FD_EN c) then
      (if s.flag (CAN.CAN_CTRL_PXE c) then s else s.canError c 2 false false ⟨false, false, 0, false⟩)
    else
      let s := (s.countGoodRx c).settleCancels c fun _ => true
      let s := match s.bufferFor c frame with
      | some b => s.storeInBuffer c b frame ts
      | none =>
        match s.fifoFor c frame with
        | some (f, i) => s.storeInFifo c f i frame ts
        | none => s.count (CAN.NOMATCH_CNT c)
      s.frameEnds c)

/-- Who holds a lock: the host, counted once whichever bridge it uses, or one engine role (R301). -/
def readerOf : Requester → Requester
  | .engine c r => .engine c r
  | _ => .pcie

/-- Release a lock: a full shadow moves in and NEW_DATA is set, an empty one clears it. -/
def State.releaseLock (s : State) (c b : Nat) : State :=
  let full := (s.can c).shadow.contains b
  let s := s.when full fun s => s.copyRange (canBuf c b + 80) (canBuf c b) 80
  (s.setNewData c b full).withCan c fun k => { k with locks := k.locks.filter fun x => x.1 != b, shadow := k.shadow.filter fun x => x != b }

/-- A read of word 0 of a receive buffer's main element. -/
def State.lockBuffer (s : State) (c b : Nat) (r : Requester) : State :=
  if s.canRx c b && !s.canLocked c b then s.withCan c fun k => { k with locks := k.locks ++ [(b, readerOf r, s.ltcNs)] } else s

/-- A read of the last word of the configured data. -/
def State.unlockBuffer (s : State) (c b : Nat) (r : Requester) : State :=
  if (s.can c).locks.any fun x => x.1 = b && x.2.1 = readerOf r then s.releaseLock c b else s

/-- CAN_RX_LOCK. -/
def execCanRxLock (c : BitVec 3) (b : BitVec 6) (r : Requester) (s : State) : Host.Outcome State Fault Refusal :=
  .next (
    let a := canBuf c.toNat b.toNat
    if s.live (.can c.toNat) then (s.emit (.regData r a (BitVec.ofNat 32 (s.beWord a)))).lockBuffer c.toNat b.toNat r else s)

/-- CAN_RX_UNLOCK. -/
def execCanRxUnlock (c : BitVec 3) (b : BitVec 6) (r : Requester) (s : State) : Host.Outcome State Fault Refusal :=
  .next (
    let a := canBuf c.toNat b.toNat + 12 + s.canDataLen c.toNat b.toNat
    if s.live (.can c.toNat) then (s.emit (.regData r a (BitVec.ofNat 32 (s.beWord a)))).unlockBuffer c.toNat b.toNat r else s)

/-- The lock has been held for LOCK_TMO µs (R303). -/
def State.lockExpired (s : State) (c b : Nat) : Bool :=
  let t := s.get (CAN.CAN_CTRL_LOCK_TMO c)
  t != 0 && (s.can c).locks.any fun x => x.1 = b && decide (t * 1000 ≤ (s.ltcNs - x.2.2).toNat)

/-- LOCK_TMO (R303). -/
def execLockTmo (c : BitVec 3) (b : BitVec 6) (s : State) : Host.Outcome State Fault Refusal :=
  .next (
    let c := c.toNat
    if s.lockExpired c b.toNat then
      (s.releaseLock c b.toNat).countRaise (CAN.LOCK_TMO_CNT c) (.can c) 18
    else s)

/-- FIFO_ACK: GET advances by the count, capped at FILL (R304). -/
def State.ackFifo (s : State) (c f n : Nat) : State :=
  let fill := s.get (CAN.FIFO_STAT_FILL c f)
  let k := min n fill
  (s.set (CAN.FIFO_STAT_GET c f) ((s.get (CAN.FIFO_STAT_GET c f) + k) % 32)).set (CAN.FIFO_STAT_FILL c f) (fill - k)

/-- FIFO_ACK. -/
def execFifoAck (c : BitVec 3) (f : BitVec 1) (n : BitVec 6) (s : State) : Host.Outcome State Fault Refusal :=
  .next (if s.powered (.can c.toNat) then s.ackFifo c.toNat f.toNat n.toNat else s)

/-! Transmitting (R305 to R309). -/

/-- TX_REQ. -/
def State.requestTx (s : State) (c mask : Nat) : State :=
  s.each (List.range 64) fun b s => if bitOf mask b then s.canRequest c b false else s

/-- TX_REQ. -/
def execTxReq (c : BitVec 3) (mask : BitVec 64) (s : State) : Host.Outcome State Fault Refusal :=
  .next (if s.powered (.can c.toNat) then s.requestTx c.toNat mask.toNat else s)

/-- A periodic buffer's DIV and PHASE select this cycle, in which it has not asked yet (R73, R306). -/
def State.periodic (s : State) (c b : Nat) : Bool :=
  let w := s.canWord c b 1
  let div := if w / 2 ^ 16 % 1024 = 0 then 1024 else w / 2 ^ 16 % 1024
  s.live (.can c) && s.canTx c b && bitOf (s.canWord c b 0) 24 && s.valid && s.cycle % div = w % 1024 && !(s.can c).fired.contains b

/-- A periodic request. -/
def State.periodicRequest (s : State) (c b : Nat) : State :=
  (s.canRequest c b true).withCan c fun k => { k with fired := k.fired ++ [b] }

/-- CAN_PERIODIC_REQ: at tick + OFFS in the cycles DIV and PHASE select (R306). -/
def execCanPeriodicReq (c : BitVec 3) (b : BitVec 6) (s : State) : Host.Outcome State Fault Refusal :=
  .next (
    if s.periodic c.toNat b.toNat && decide ((s.canWord c.toNat b.toNat 2 : Int) ≤ s.sinceTick) then s.periodicRequest c.toNat b.toNat else s)

/-- The periodic requests from OFFS before clock 40, 100 ns after the tick: TICK makes them before its flips. Answers those made (R306). -/
def State.earlyRequests (s : State) : State × List (Nat × Nat) :=
  let s := s.each (List.range 8) fun c s => s.withCan c fun k => { k with fired := [] }
  let due := (List.range 8).flatMap fun c => ((List.range 64).filter fun b => s.periodic c b && decide (s.canWord c b 2 < 100)).map fun b => (c, b)
  let made := due.filter fun x => !bitOf (s.txPending x.1) x.2
  (s.each due fun x s => s.periodicRequest x.1 x.2, made)

/-- These requests send LIVE as it stood before the flips of this tick (R306). -/
def State.markEarly (s : State) (made : List (Nat × Nat)) : State :=
  let mark (b : Nat) (y : FormerLive) : FormerLive := if y.buffer = b && y.flipped = s.ltcNs + 100 then { y with early := true } else y
  s.each made fun x s => s.withCan x.1 fun k => { k with former := k.former.map (mark x.2) }

/-- The frame order of arbitration (R307): the leading 11 bits, then base before extended, then the rest. -/
def arbitrationKey (word0 : Nat) : Nat :=
  let id := word0 % 2 ^ 29
  let xtd : Nat := if bitOf word0 30 then 1 else 0
  let rtr : Nat := if bitOf word0 29 then 1 else 0
  if xtd = 0 then (id / 2 ^ 18) * 2 ^ 21 + rtr * 2 ^ 20 else (id / 2 ^ 18) * 2 ^ 21 + 3 * 2 ^ 19 + (id % 2 ^ 18) * 2 + rtr

/-- The LIVE element of a buffer as a frame that started at `start` finds it: a later flip leaves it alone (R217, R305, R306). -/
def State.liveElement (s : State) (c b : Nat) (start : BitVec 64) : List Byte :=
  (((s.can c).former.find? fun x => x.buffer = b && (x.early || decide (start.toNat < x.flipped.toNat))).map FormerLive.bytes).getD
    (s.bytes (canBuf c b + 80) 80)

/-- A word of an element (R296). -/
def elementWord (l : List Byte) (w : Nat) : Nat := natOfBE ((l.drop (4 * w)).take 4)

/-- TX_ORDER, FD_EN and BRS_EN. -/
def State.canSettings (s : State) (c : Nat) : CanSettings :=
  ⟨s.flag (CAN.CAN_CTRL_TX_ORDER c), s.flag (CAN.CAN_CTRL_FD_EN c), s.flag (CAN.CAN_CTRL_BRS_EN c)⟩

/-- The settings under which an arbitration started at `start` chose (R307). -/
def State.settingsAt (s : State) (c : Nat) (start : BitVec 64) : CanSettings :=
  (((s.can c).settings.find? fun x => decide (start.toNat < x.1.toNat)).map Prod.snd).getD (s.canSettings c)

/-- Before a write of CAN_CTRL: the settings of an attempt in progress. -/
def State.keepSettings (s : State) (c : Nat) : State :=
  if s.txPending c = 0 then s.withCan c fun k => { k with settings := [] }
  else s.withCan c fun k => { k with settings := k.settings ++ [(s.ltcNs, s.canSettings c)] }

/-- LIVE may not be sent (R307). -/
def State.badFormat (s : State) (c b : Nat) (start : BitVec 64) : Bool :=
  let w := elementWord (s.liveElement c b start) 1
  let k := s.settingsAt c start
  (bitOf w 31 && !k.fdEn) || (bitOf w 30 && !k.brsEn)

/-- The pending buffer that an arbitration started at `start` takes; `late` are those requested after it started. -/
def State.txChoice (s : State) (c late : Nat) (start : BitVec 64) : Option Nat :=
  let l := (List.range 64).filter fun b => bitOf (s.txPending c) b && !bitOf late b && !s.badFormat c b start
  if (s.settingsAt c start).txOrder then l.head?
  else
    let key (b : Nat) := arbitrationKey (elementWord (s.liveElement c b start) 0)
    l.foldl (fun best b => match best with
      | none => some b
      | some x => if key b < key x then some b else some x) none

/-- Requests whose LIVE frame may not be sent clear with FMT_ERR. -/
def State.dropUnsendable (s : State) (c late : Nat) (start : BitVec 64) : State :=
  s.each (List.range 64) fun b s =>
    if bitOf (s.txPending c) b && !bitOf late b && s.badFormat c b start then s.endRequest c b (2 ^ 25) else s

/-- Mark a cancel that its frame's end resolves. -/
def State.openCancel (s : State) (c b : Nat) : State :=
  s.set64 (CAN.TX_CANCEL_LO c) (CAN.TX_CANCEL_HI c) (withBit (s.get64 (CAN.TX_CANCEL_LO c) (CAN.TX_CANCEL_HI c)) b true)

/-- A cancel by a register write or by EN = 0, which does not say whether the buffer's frame has started: off the bus it has not; on the bus the
next frame or attempt that ends shows it (R297, R308; log entry 189). -/
def State.askCancel (s : State) (c b : Nat) : State :=
  if !bitOf (s.txPending c) b then s
  else if s.canOnBus c && !s.flag (CAN.CAN_STAT_LISTEN_ACT c) then
    (s.openCancel c b).withCan c fun k => { k with cancels := k.cancels ++ (if k.cancels.any fun x => x.1 = b then [] else [(b, s.ltcNs)]) }
  else s.endRequest c b (2 ^ 30)

/-- A cancel of one buffer's request; `started` is when the frame in arbitration or beyond started, if there is one (R308). -/
def State.cancelTx (s : State) (c b : Nat) (started : Option (BitVec 64)) (late : Nat) : State :=
  if !bitOf (s.txPending c) b then s
  else if started.any fun t => s.txChoice c late t = some b then s.openCancel c b
  else s.endRequest c b (2 ^ 30)

/-- TX_CANCEL. -/
def execTxCancel (c : BitVec 3) (mask : BitVec 64) (started : Option (BitVec 64)) (late : BitVec 64) (s : State) :
    Host.Outcome State Fault Refusal :=
  .next (
    if s.powered (.can c.toNat) then
      let taken := started.bind fun t => s.txChoice c.toNat late.toNat t
      s.each (List.range 64) fun b t =>
        if mask.getLsbD b then t.cancelTx c.toNat b (started.filter fun _ => taken = some b) late.toNat else t
    else s)

/-- TX_FLIP. -/
def State.flipTx (s : State) (c mask : Nat) : State :=
  s.each (List.range 64) fun b s => if bitOf mask b then s.flipNow (canObj c b) else s

/-- TX_FLIP. -/
def execTxFlip (c : BitVec 3) (mask : BitVec 64) (s : State) : Host.Outcome State Fault Refusal :=
  .next (if s.powered (.can c.toNat) then s.flipTx c.toNat mask.toNat else s)

/-- The frame that a buffer sends from `start` on: words 0 and 1 of LIVE and its data, bytes beyond the configured length as 0 (R307). ESI is the
controller's error state and goes with BRS only into an FD frame; a remote frame is classical and carries no data; a base identifier ends at bit 18
(R291, R296; log entry 190). -/
def State.liveFrame (s : State) (c b : Nat) (start : BitVec 64) : Nat × Nat × List Byte :=
  let l := s.liveElement c b start
  let (w0, w1) := (elementWord l 0, elementWord l 1)
  let fd := bitOf w1 31
  let rtr := bitOf w0 29 && !fd
  let id := if bitOf w0 30 then w0 % 2 ^ 29 else w0 % 2 ^ 29 / 2 ^ 18 * 2 ^ 18
  let bit (x : Bool) (k : Nat) : Nat := if x then 2 ^ k else 0
  (bit (fd && s.canState c = cnPASSIVE) 31 + bit (bitOf w0 30) 30 + bit rtr 29 + id, if fd then w1 else withBit w1 30 false,
    if rtr then [] else fit (dlcLen fd (w1 / 2 ^ 16 % 16)) ((l.drop 16).take (s.canDataLen c b)))

/-- The transmitter delay of an FD frame with BRS: the first of the edges received, in mtq after the one sent, that does not come before TDCF
(R293). -/
def State.measureTdcv (s : State) (c b : Nat) (start : BitVec 64) (edges : List (BitVec 16)) : State :=
  let w1 := elementWord (s.liveElement c b start) 1
  if s.flag (CAN.TDC_EN c) && bitOf w1 31 && bitOf w1 30 then
    match edges.find? fun e => s.get (CAN.TDC_TDCF c) ≤ e.toNat with
    | some e => s.set (CAN.TDC_STAT_TDCV c) (min 127 e.toNat)
    | none => s
  else s

/-- The end of an attempt of buffer `b` that started at `start` (R295, R308, R309). -/
def State.endAttempt (s : State) (c b : Nat) (start : BitVec 64) (out : TxOutcome) : State :=
  let cancel := bitOf (s.get64 (CAN.TX_CANCEL_LO c) (CAN.TX_CANCEL_HI c)) b
  let single := bitOf (s.canWord c b 0) 23
  match out with
  | .nothing => s
  | .sent =>
    let (w0, w1, data) := s.liveFrame c b start
    let s := s.emit (.canFrame c w0 w1 data)
    let s := (s.setBytes (canBuf c b + 88) (bytesBE 8 (start - 25).toNat)).count (CAN.TX_FRAMES c)
    let s := s.endRequest c b (2 ^ 31 + if cancel then 2 ^ 29 else 0)
    let s := s.when cancel fun s => s.countRaise (CAN.CANCEL_LATE_CNT c) (.can c) 20
    s.setErrorCounts c (s.get (CAN.CAN_STAT_TEC c) - 1) (s.get (CAN.CAN_STAT_REC c))
  | .arbitrationLost =>
    let s := s.withCan c fun k => { k with ackRun := 0 }
    if cancel then s.endRequest c b (2 ^ 30) else if single then s.endRequest c b (2 ^ 28) else s
  | .error ack =>
    let s := s.withCan c fun k => { k with ackBuffer := b, ackRun := if !ack then 0 else if k.ackBuffer = b then k.ackRun + 1 else 1 }
    let limit := s.get (CAN.ACK_LIMIT c)
    if cancel then s.endRequest c b (2 ^ 30)
    else if single then s.endRequest c b (2 ^ 28 + 2 ^ 26)
    else if limit ≠ 0 && limit ≤ (s.can c).ackRun then
      (s.endRequest c b (2 ^ 28 + 2 ^ 27)).countRaise (CAN.ACK_LIMIT_CNT c) (.can c) 16
    else s

/-- An attempt that started at `ended.start` has ended. Cancels from before its start found no frame started; of those left open since, only the
frame's own did (R308). -/
def State.attemptEnds (s : State) (c late : Nat) (ended : TxEnd) : State :=
  let s := s.settleCancels c fun t => decide (t.toNat < ended.start.toNat)
  let s := s.dropUnsendable c late ended.start
  let s := match s.txChoice c late ended.start with
    | some b => (s.measureTdcv c b ended.start ended.edges).endAttempt c b ended.start ended.outcome
    | none => s
  ((s.settleCancels c fun _ => true).withCan c fun k => { k with settings := [] }).frameEnds c

/-- An attempt may end: on the bus, or with the error that has taken the controller off it; a fail-silent device sends nothing (R41). -/
def State.canAttempts (s : State) (c : Nat) (out : TxOutcome) : Bool :=
  !s.flag (CAN.CAN_STAT_LISTEN_ACT c) && !s.failSilent &&
    (s.canOnBus c || (s.live (.can c) && cnBUSOFF ≤ s.canState c && match out with | .error _ => true | _ => false))

/-- CAN_TX_ATTEMPT_END. -/
def execCanTxAttemptEnd (c : BitVec 3) (late : BitVec 64) (ended : TxEnd) (s : State) :
    Host.Outcome State Fault Refusal :=
  .next (if s.canAttempts c.toNat ended.outcome then s.attemptEnds c.toNat late.toNat ended else s)

/-- A write of a word of a buffer configuration entry (R297); `cancel` is what EN = 0 does to a pending request. A buffer that becomes a receive
buffer has no STAGE left to flip. -/
def State.writeCanCfg (s : State) (c b w v : Nat) (cancel : State → State) : State :=
  let a := canCfg c b + 4 * w
  let clears := w = 0 && !bitOf v 31
  if 3 ≤ w then s
  else if s.canEn c b && !clears then s.count (CAN.CFG_IGN_CNT c)
  else
    let s :=
      if !s.canEn c b then s
      else if s.canTx c b then cancel s
      else if s.canLocked c b then s.releaseLock c b else s
    let s := s.when (w = 0 && !bitOf v 30) fun s => s.clearWritten (canObj c b)
    s.setBeWord a (if w = 0 then v / 2 ^ 22 * 2 ^ 22 else if w = 1 then v % 2 ^ 29 else v)

/-- CAN_BUF_CFG_WRITE. -/
def execCanBufCfgWrite (c : BitVec 3) (b : BitVec 6) (w : BitVec 2) (v : Word) (started : Option (BitVec 64)) (late : BitVec 64) (s : State) :
    Host.Outcome State Fault Refusal :=
  .next (if s.powered (.can c.toNat) then s.writeCanCfg c.toNat b.toNat w.toNat v.toNat fun s => s.cancelTx c.toNat b.toNat started late.toNat else s)

/-- A word of a configuration entry as it reads: with its RO bits 15 to 13 (R297). -/
def State.readCanCfg (s : State) (c b w : Nat) : Nat :=
  let v := s.canWord c b w
  let bit (x : Bool) (k : Nat) : Nat := if x then 2 ^ k else 0
  if w ≠ 0 then v
  else if bitOf v 30 then
    let st := s.stagedOf (canObj c b)
    v + bit (bitOf (s.txPending c) b) 15 + bit st.isSome 14 + bit (st.any Staged.prov) 13
  else v + bit (bitOf (s.newData c) b) 15 + bit (s.canLocked c b) 14 + bit ((s.can c).shadow.contains b) 13

/-- A read of a word of the message RAM, with the lock it takes or releases (R296, R301). -/
def State.readCanRam (s : State) (c off : Nat) (r : Requester) : Nat × State :=
  if 0x3C00 ≤ off then (s.readCanCfg c ((off - 0x3C00) / 16 % 64) (off / 4 % 4), s)
  else
    let v := s.beWord (canRam c + off)
    if off < 0x2800 then
      let b := off / 160
      let s := if off % 160 = 0 then s.lockBuffer c b r else s
      let s := if s.canRx c b && off % 160 = 12 + s.canDataLen c b then s.unlockBuffer c b r else s
      (v, s)
    else (v, s)

/-- A write of a word of the message RAM: STAGE of a transmit buffer, or a configuration entry. LEN follows the DLC (R296). -/
def State.writeCanRam (s : State) (who : Requester) (c off v : Nat) : State :=
  if 0x3C00 ≤ off then
    let b := (off - 0x3C00) / 16 % 64
    s.writeCanCfg c b (off / 4 % 4) v fun s => s.askCancel c b
  else if 0x2800 ≤ off || 80 ≤ off % 160 || !bitOf (s.canWord c (off / 160) 0) 30 then s
  else
    let b := off / 160
    let v := if off % 160 = 4 then (v &&& 0xC00F0000) + dlcLen (bitOf v 31) (v / 2 ^ 16 % 16) else v
    if off % 160 = 8 || off % 160 = 12 then s else s.stageWrite who (canObj c b) (canRam c + off) (bytesBE 4 v)

/-! Listen-only (R310). -/

/-- The chip wears the hat, or has no twin: FOLLOW_HAT leaves the controller on (R310). -/
def State.canListens (s : State) (c : Nat) : Bool :=
  s.flag (CAN.CAN_CTRL_LISTEN c) || (s.flag (CAN.CAN_CTRL_FOLLOW_HAT c) && !s.owns)

/-- LISTEN_ONLY_START, at the end of the frame in progress. -/
def execListenOnlyStart (c : BitVec 3) (s : State) : Host.Outcome State Fault Refusal :=
  .next (
    if s.canListens c.toNat && !s.flag (CAN.CAN_STAT_LISTEN_ACT c.toNat) then
      (s.setFlag (CAN.CAN_STAT_LISTEN_ACT c.toNat) true).cancelAll c.toNat
    else s)

/-- LISTEN_ONLY_END: the controller integrates before it sends. -/
def execListenOnlyEnd (c : BitVec 3) (s : State) : Host.Outcome State Fault Refusal :=
  .next (
    if !s.canListens c.toNat && s.flag (CAN.CAN_STAT_LISTEN_ACT c.toNat) then
      let s := s.setFlag (CAN.CAN_STAT_LISTEN_ACT c.toNat) false
      if s.canState c.toNat = cnACTIVE || s.canState c.toNat = cnPASSIVE then s.setCanState c.toNat cnINTEGRATING else s
    else s)

/-! MVB (R312 to R318). -/

def State.mvb (s : State) (j : Nat) : MvbBus := s.mvbBus.getD j MvbBus.reset
def State.withMvb (s : State) (j : Nat) (f : MvbBus → MvbBus) : State := { s with mvbBus := modifyAt s.mvbBus j f }

/-- Listen-only, in effect between bus frames (R318). -/
def State.mvbListens (s : State) (j : Nat) : Bool :=
  s.flag (MVB.MVB_CTRL_LISTEN j) || (s.flag (MVB.MVB_CTRL_FOLLOW_HAT j) && !s.owns)

/-- The entry that acts on an address: the lowest enabled one with a direction (R313). -/
def State.mvbEntry (s : State) (j addr : Nat) : Option Nat :=
  lowest 256 fun e => s.mvbEn j e && s.mvbAddr j e = addr && (s.mvbDir j e = 1 || s.mvbDir j e = 2)

/-- CNT of an entry plus 1, saturating. -/
def State.countEntry (s : State) (j e : Nat) : State := s.setBeWord (mvbCfg j e + 12) (min 0xFFFF (s.mvbWord j e 3 + 1))

/-- A line of MVB_CTRL.LINES is enabled. -/
def State.mvbLine (s : State) (j line : Nat) : Bool := bitOf (s.get (MVB.MVB_CTRL_LINES j)) line

/-- What both lines delivered in the place of one frame, valid or not: A_OK and B_OK, and the trusted line, which changes when it delivered no valid
frame in the place of one on the other (R317). -/
def State.judgeLines (s : State) (j : Nat) (validA validB : Bool) : State :=
  let (okA, okB) := (validA && s.mvbLine j 0, validB && s.mvbLine j 1)
  let s := (s.setFlag (MVB.MVB_STAT_A_OK j) okA).setFlag (MVB.MVB_STAT_B_OK j) okB
  let trustB := s.flag (MVB.MVB_STAT_TRUSTED j)
  if (if trustB then !okB && okA else !okA && okB) then
    (s.setFlag (MVB.MVB_STAT_TRUSTED j) (!trustB)).countRaise (MVB.LINE_SWITCH_CNT j) (.mvb j) 10
  else s

/-- The controller takes part in its bus. -/
def State.mvbOn (s : State) (j : Nat) : Bool := s.live (.mvb j) && s.flag (MVB.MVB_CTRL_EN j)

/-- A slave frame leaves on every enabled line; a fail-silent device sends nothing (R41, R317). -/
def State.sendSlave (s : State) (j : Nat) (data : List Byte) : State :=
  s.when (!s.failSilent) fun s => s.emit (.mvbSlave j (s.get (MVB.MVB_CTRL_LINES j)) data)

/-- A master frame taken (R312 to R314, R318); `conflict` says that the slave frame read back differs from the one sent. -/
def State.takeMaster (s : State) (j fcode addr : Nat) (conflict : Bool) : State :=
  let s := s.count (MVB.MF_CNT j)
  let listens := s.mvbListens j
  let s := s.setFlag (MVB.MVB_STAT_LISTEN_ACT j) listens
  if fcode = 15 then
    if addr ≠ s.get (MVB.DEV_ADDR j) then s
    else if listens then s.count (MVB.LISTEN_SKIP_CNT j)
    else s.sendSlave j (bytesBE 2 (s.get (MVB.DSW j)))
  else if 4 < fcode then s
  else
    match s.mvbEntry j addr with
    | none => s
    | some e =>
      if s.mvbDir j e = 2 then s.withMvb j fun k => { k with awaiting := some e }
      else if fcode ≠ s.mvbFcode j e then s.count (MVB.FCODE_ERR_CNT j)
      else if listens then s.count (MVB.LISTEN_SKIP_CNT j)
      else if s.failSilent then s
      else
        let s := (s.count (MVB.SF_TX_CNT j)).setBeWord (mvbCfg j e + 8) s.cycle
        let s := (s.countEntry j e).sendSlave j (s.bytes (mvbData j e + 32) (mvbSize fcode))
        s.when conflict fun s => s.countRaise (MVB.CONFLICT_CNT j) (.mvb j) 12

/-- MVB_MASTER_FRAME_RX: the frame counts as the line trusted when it came delivered it (log entry 36). -/
def execMvbMasterFrameRx (j : BitVec 1) (fcode : BitVec 4) (addr : BitVec 12) (seen : MvbMaster) (s : State) :
    Host.Outcome State Fault Refusal :=
  .next (
    let j := j.toNat
    if !s.mvbOn j then s
    else
      let valid := if s.flag (MVB.MVB_STAT_TRUSTED j) then seen.validB && s.mvbLine j 1 else seen.validA && s.mvbLine j 0
      let s := (s.judgeLines j seen.validA seen.validB).withMvb j fun k => { k with awaiting := none }
      s.when valid fun s => s.takeMaster j fcode.toNat addr.toNat seen.conflict)

/-- An accepted slave frame for a sink port (R315). -/
def State.takeSlave (s : State) (j e : Nat) (data : List Byte) : State :=
  let s := (s.setBytes (mvbData j e) data).setBeWord (mvbCfg j e + 8) s.cycle
  let s := (s.countEntry j e).count (MVB.SF_RX_CNT j)
  let s := s.withMvb j fun k => { k with
    seen := insertNat e k.seen
    stale := k.stale.filter fun x => x != e
    since := k.since.filter (fun x => x.1 != e) ++ [(e, s.ltcNs)] }
  let s := s.when (bitOf (s.mvbWord j e 0) 25) fun s => s.raise (.mvb j) 8
  s.rxTriggers 4 (j * 256 + e)

/-- What a line delivered in the place of a slave frame is valid: its check sequences are good, and where a sink port awaits it, it has come within
the reply window with the port's size (R315, R317). -/
def State.validSlave (s : State) (j : Nat) (inWindow : Bool) (x : MvbRx) : Bool :=
  match x with
  | .good data => (s.mvb j).awaiting.all fun e => inWindow && data.length = mvbSize (s.mvbFcode j e)
  | _ => false

/-- MVB_SLAVE_FRAME_RX: what both lines delivered in the place of a slave frame. The sink port last addressed takes it as the line trusted when it
came delivered it (log entry 36). -/
def execMvbSlaveFrameRx (j : BitVec 1) (a b : MvbRx) (inWindow : Bool) (s : State) : Host.Outcome State Fault Refusal :=
  .next (
    let j := j.toNat
    if !s.mvbOn j then s
    else
      let trusted := if s.flag (MVB.MVB_STAT_TRUSTED j) then (if s.mvbLine j 1 then b else .silent) else (if s.mvbLine j 0 then a else .silent)
      let valid := s.validSlave j inWindow trusted
      let t := (s.judgeLines j (s.validSlave j inWindow a) (s.validSlave j inWindow b)).withMvb j fun k => { k with awaiting := none }
      match (s.mvb j).awaiting, trusted with
      | none, _ => t
      | some _, .silent => t
      | some e, .good data => if valid then t.takeSlave j e data else t.countRaise (MVB.FRAME_ERR_CNT j) (.mvb j) 11
      | some _, .bad => t.countRaise (MVB.FRAME_ERR_CNT j) (.mvb j) 11)

/-- A sink port has had no accepted update for SINK_TMO ms, counted from its last one or from when EN was set (R316; log entry 163). -/
def State.mvbSilent (s : State) (j e : Nat) : Bool :=
  let t := s.mvbWord j e 1 % 2 ^ 16
  t != 0 && decide (t * 1000000 ≤ (s.ltcNs - (((s.mvb j).since.find? fun x => x.1 = e).map Prod.snd).getD 0).toNat)

/-- PORT_STALE: SINK_TMO ms without an accepted update (R316). -/
def execPortStale (j : BitVec 1) (e : Byte) (s : State) : Host.Outcome State Fault Refusal :=
  .next (
    let (j, e) := (j.toNat, e.toNat)
    if s.live (.mvb j) && s.mvbEn j e && s.mvbDir j e = 2 && s.mvbSilent j e && !(s.mvb j).stale.contains e then
      (s.withMvb j fun k => { k with stale := insertNat e k.stale }).countRaise (MVB.STALE_CNT j) (.mvb j) 9
    else s)

/-- PORT_FLIP (R313). -/
def execPortFlip (j : BitVec 1) (e : Byte) (s : State) : Host.Outcome State Fault Refusal :=
  .next (if s.powered (.mvb j.toNat) then s.flipNow (mvbObj j.toNat e.toNat) else s)

/-- A write of a word of a port entry (R313): words 0 and 1, by R297's rule. -/
def State.writeMvbCfg (s : State) (j e w v : Nat) : State :=
  let clears := w = 0 && !bitOf v 31
  if 2 ≤ w then s
  else if s.mvbEn j e && !clears then s.count (MVB.CFG_IGN_CNT j)
  else
    let s := s.when (w = 0 && !clears) fun s => s.withMvb j fun k => { k with since := k.since.filter (fun x => x.1 != e) ++ [(e, s.ltcNs)] }
    let s := s.when (w = 0 && v / 2 ^ 29 % 4 != 1) fun s => s.clearWritten (mvbObj j e)
    s.setBeWord (mvbCfg j e + 4 * w) (if w = 0 then v &&& 0xFE000FFF else v % 2 ^ 16)

/-- A word of a port entry as it reads. -/
def State.readMvbCfg (s : State) (j e w : Nat) : Nat :=
  let v := s.mvbWord j e w
  if w ≠ 0 then v
  else
    let st := s.stagedOf (mvbObj j e)
    match s.mvbDir j e with
    | 1 => v + (if st.isSome then 2 ^ 15 else 0) + if st.any Staged.prov then 2 ^ 14 else 0
    | 2 => v + if (s.mvb j).stale.contains e then 2 ^ 15 else 0
    | _ => v

/-- A word of the port RAM: past a sink port's 32 bytes of data it reads 0 (R313). -/
def State.readMvbRam (s : State) (j off : Nat) : Nat :=
  if off < 0x4000 then (if 32 ≤ off % 64 && s.mvbDir j (off / 64) = 2 then 0 else s.beWord (mvbRam j + off))
  else if off < 0x5000 then s.readMvbCfg j ((off - 0x4000) / 16) (off / 4 % 4)
  else 0

def State.writeMvbRam (s : State) (who : Requester) (j off v : Nat) : State :=
  if off < 0x4000 then
    let e := off / 64
    if off % 64 < 32 && s.mvbDir j e = 1 then s.stageWrite who (mvbObj j e) (mvbRam j + off) (bytesBE 4 v) else s
  else if off < 0x5000 then s.writeMvbCfg j ((off - 0x4000) / 16) (off / 4 % 4) v
  else s

end Sys2Proof.Machine
end

