-- ==== Sys2Proof/Machine/Tray.lean ====
section
/-! DEFINITION. The tray (spec/05_the_tray.md R121 to R165, R486, R487; spec/01_train_model.md R13, R14; spec/04_forming_the_train.md R90, R92,
R99, R111 to R114; spec/03_train_time.md R81, R82): sending, passing, writing and reading data trays, reverse copies and slot frames, the
acceptance window, and the node's RETURN_END. -/

namespace Sys2Proof.Machine

/-! Building slices (R128 to R130, R62). -/

/-- The node's payload carries a sync record: it is sync- or Starter-eligible (R62). -/
def State.writesRecord (s : State) : Bool := s.flag TIME.TIME_CTRL_SYNC_ELIG || s.setting GTB.FORM_CFG_START_ELIG == 1

/-- The stamp of a line: the low 32 bits of its outward instant a (R61, R130). -/
def State.stampOn (s : State) (l : Line) : BitVec 32 := low32 ((s.lineOf l).ownA.getD 0)

/-- The node's slice from its capture (R128, R129); `claimed` in a crumb slot. A confirmation without a capture carries CLAIMED alone. -/
def State.ownSlice (s : State) (l : Line) (x : LayoutSlot) (claimed : Bool) : Slice :=
  let k := s.capture
  let flags : SliceFlags := { noFlags with
    fresh := k.kind = .fresh, hold := k.kind = .hold, hat := k.hat && k.kind != .none,
    doubtful := k.doubtful && k.kind != .none, claimed := claimed }
  let body := fit x.pay k.payload
  let body := if s.writesRecord then overlay ((s.syncRecord l).toBytes.take x.pay) body else body
  ⟨s.nodeUid, BitVec.ofNat 7 x.slot, flags, k.seq, BitVec.ofNat 16 x.pay, s.stampOn l, body, 0⟩

/-- The claim word of crumb `c` (R134). -/
def claimWord (uid : Uid) (c : Nat) : List Byte := if uid = 0 then List.replicate 8 0 else bytesBE 6 uid.toNat ++ [BitVec.ofNat 8 c, 0]

/-- The claimant of a claim word. -/
def claimant (payload : List Byte) : Uid := BitVec.ofNat 48 (natOfBE (payload.take 6))

/-- The placeholder of a slot (R130). A crumb slot whose claim is confirmed has its claimant's UID in the layout; any other carries SPARE and
the claim word. -/
def State.placeholder (s : State) (l : Line) (x : LayoutSlot) : Slice :=
  if x.slot < 65 || x.uid ≠ 0 then
    ⟨x.uid, BitVec.ofNat 7 x.slot, noFlags, 0, BitVec.ofNat 16 x.pay, s.stampOn l, List.replicate x.pay 0, 0⟩
  else
    let word := match s.forming.claims.find? fun c => c.1 = x.slot - 64 with
      | some c => claimWord c.2.1 c.1
      | none => List.replicate 8 0
    ⟨0, BitVec.ofNat 7 x.slot, { noFlags with spare := true }, 0, BitVec.ofNat 16 x.pay, s.stampOn l, fit x.pay word, 0⟩

/-- The chip writes its slice in this cycle: it captured something, and holds a key while AUTH is set (R129, R392). -/
def State.writesOwn (s : State) (auth : Bool) : Bool := s.capture.taken && s.capture.kind != .none && s.mayRead auth

/-- Own slot, own frame (R127). -/
def State.ownIn (s : State) (frame : Nat) : Option LayoutSlot := s.ownLayoutSlot.filter fun x => x.frame = frame

/-! Reading (R144, R147, R148). -/

/-- WITHDRAW of a slot in a cycle (R148, R149): counted, and everything derived from it taken back. -/
def State.raiseWithdraw (s : State) (slot : Nat) : State :=
  if s.selection.withdrawn.contains slot then s
  else
    let s := { s with selection := { s.selection with withdrawn := insertNat slot s.selection.withdrawn } }
    let s := s.each (s.served.filter fun l => s.lineState l != lnOFF) fun l s => s.count (GTB.WITHDRAW_CNT l)
    ((s.withdrawDrafts slot).withdrawSlot slot).engineWithdraw slot

/-- Record a judged copy of a line and let the slot's status follow; after RETURN_END or the return close no status of the cycle changes
(R149). -/
def State.takeCopy (s : State) (auth : Bool) (k : Copy) : State :=
  if s.selection.final then s
  else
    let same (c : Copy) : Bool := c.slot = k.slot && c.line = k.line
    let held := heldCopy s.selection.copies k.slot
    let copies := if s.selection.copies.any same then s.selection.copies.map fun c => if same c then { c with judged := k.judged } else c
      else s.selection.copies ++ [k]
    let s := ({ s with selection := { s.selection with copies := copies } }).reselect k.slot
    let turned := held.any fun c => same c && k.judged = .bad
    s.when (!auth && turned && s.selection.provisional.contains k.slot) fun s => s.raiseWithdraw k.slot

/-- SLOT triggers for those of these slots whose status has changed since `before` (R209). -/
def State.slotsMoved (s before : State) (slots : List Nat) : State :=
  s.slotEvents (slots.filter fun i => runningStatus s.selection.copies i != runningStatus before.selection.copies i)

/-- The usable value of a sync node from a verified slice (R62 to R64). -/
def State.takeValue (s : State) (l : Line) (x : Slice) : State :=
  let slot := x.slot.toNat
  let elig := (s.forming.layout.bind fun y => y.nodes[slot - 1]?).any fun r => r.syncElig || r.startElig
  let known := s.time.values.any fun v => v.uid = x.uid && v.line = l && !v.single
  if 63 < slot || (s.forming.fullLayout && !elig) || known || !(x.flags.fresh || x.flags.hold) then s
  else
    let v : SyncValue := ⟨l, slot, x.uid, x.stamp, SyncRecord.ofBytes x.payload, x.flags.fresh, x.flags.doubtful, true,
      (s.lineOf l).writtenOutward.contains slot, none, false⟩
    s.withTime fun t => { t with values := t.values ++ [v] }

/-- The presence bit of a position in the tray that returns: frame 0's own map, and after it the map read last (R111, R133). -/
def State.reached (s : State) (l : Line) (f : DataFrame) (slot : Nat) : Bool :=
  if f.hdr.index = 0 then f.presence.getLsbD slot else !(s.lineOf l).absentRun.any fun e => e.1 = slot

/-- The slice delivers nothing: the placeholder of a position that the tray did not reach (R25, R130; log entry 128). -/
def State.undelivered (s : State) (l : Line) (f : DataFrame) (x : Slice) : Bool :=
  x.slot.toNat < 64 && x.isPlaceholder && !s.reached l f x.slot.toNat

/-- Judge one slice of a frame on its return pass: `fcs` is `none` until the frame has ended. A chip of a pair sends its peer a copy (R374). -/
def State.readSlice (s : State) (l : Line) (auth : Bool) (fcs : Option Bool) (x : Slice) : State :=
  let slot := x.slot.toNat
  match s.forming.layout.bind fun y => y.find slot with
  | none => s
  | some y =>
    let tag := s.tagGood auth l x
    let first := !s.selection.copies.any fun c => c.slot = slot && c.line = l
    let s := s.when (!tag && first) fun s => (s.count (GTB.TAG_FAIL_CNT l)).raise (.gtb l) 9
    let s := s.when (first && slot = s.ownSlot && x.flags.withdrawn) fun s => s.count (GTB.OWN_WITHDRAWN_CNT l)
    let judged : Judgement :=
      if !tag || x.flags.withdrawn || x.payload.length ≠ y.pay then .bad
      else match fcs with
        | none => .pending
        | some true => .good
        | some false => .bad
    let s := s.takeCopy auth ⟨slot, l, x, judged⟩
    let s := s.when (s.twin && first) fun s => s.each (cutBytes 504 (x.toBytes auth)) fun p s =>
      s.sendLink (.copy (.piece (BitVec.ofNat 32 s.cycle) l x.slot (BitVec.ofNat 16 p.1) p.2)) 0
    if judged = .good then s.takeValue l x else s

/-- Frame 0's presence map (R111): a set bit makes a position PRESENT, a clear one counts. -/
def State.readPresence (s : State) (l : Line) (map : BitVec 64) : State :=
  let n := (s.forming.layout.map fun y => y.nodes.length).getD 0
  s.each ((List.range n).map (· + 1)) fun p s =>
    if map.getLsbD p then
      (s.set64 (GTB.PRES_LO l) (GTB.PRES_HI l) (withBit (s.get64 (GTB.PRES_LO l) (GTB.PRES_HI l)) p true)).withLine l fun x =>
        { x with absentRun := x.absentRun.filter fun e => e.1 != p }
    else
      let run := (((s.lineOf l).absentRun.find? fun e => e.1 = p).map Prod.snd).getD 0
      s.withLine l fun x => { x with absentRun := (x.absentRun.filter fun e => e.1 != p) ++ [(p, run + 1)] }

/-- POSITION_ABSENT: clear on 2 consecutive return passes (R111). -/
def execPositionAbsent (l : Line) (p : BitVec 6) (s : State) : Host.Outcome State Fault Refusal :=
  .next (
    if (s.lineOf l).absentRun.any fun e => e.1 = p.toNat && 2 ≤ e.2 then
      s.set64 (GTB.PRES_LO l) (GTB.PRES_HI l) (withBit (s.get64 (GTB.PRES_LO l) (GTB.PRES_HI l)) p.toNat false)
    else s)

/-- The line's return pass has been read to its end. -/
abbrev returnDone : Nat := 64

/-- INAUG is seen: since the last commit there has been one (R14), and a claim that is not confirmed is void (R114). -/
def State.seeInaug (s : State) (l : Line) : State :=
  (s.withForming fun f => { f with stirred := true }).withLine l fun x => if s.forming.claimConfirmed then x else { x with claiming := none }

/-- The copies that a frame has brought before its end are bad when it breaks the tray there (R123, R147). -/
def State.breakCopies (s : State) (l : Line) (f : DataFrame) : State :=
  s.each (inSlotOrder (s.selection.copies.filter fun c => c.line == l && c.judged == .pending && f.slices.any fun y => y.slot.toNat = c.slot)) fun c s =>
    s.takeCopy f.hdr.auth { c with judged := .bad }

/-- A read return frame of a data tray: copies, presence, claim words, INAUG. `fcs = none`: still on its way. -/
def State.readReturn (s : State) (l : Line) (f : DataFrame) (fcs : Option Bool) : State :=
  let before := s
  let x := s.lineOf l
  let idx := f.hdr.index.toNat
  let ended := fcs.isSome
  let s := s.when (ended && f.hdr.inaug) fun s => (s.seeInaug l).withLine l fun x => { x with inaugRead := true }
  let s := s.when (ended && idx = 0 && fcs = some true) fun s => (s.readPresence l f.presence).withLine l fun x => { x with lastTray := some f.hdr }
  let s := if x.broken then s.when ended fun s => s.breakCopies l f
    else if !s.mayRead f.hdr.auth then s
    else s.each (f.slices.filter fun y => !(s.undelivered l f y && s.tagGood f.hdr.auth l y)) fun y s => s.readSlice l f.hdr.auth fcs y
  let s := s.slotsMoved before (f.slices.map fun y => y.slot.toNat)
  if !ended then s
  else
    let s := s.when s.twin fun s =>
      s.sendLink (.copy (.verdict (BitVec.ofNat 32 s.cycle) l (BitVec.ofNat 8 idx) (fcs = some true) x.broken)) 0
    s.withLine l fun x => { x with nextReturn := if f.hdr.last then returnDone else idx + 1 }

/-! Claims (R113, R114). -/

/-- An inauguration to come has been learned of within the last 4 cycles (R99). -/
def State.inaugHold (s : State) : Bool := s.forming.inaugSeen.any fun c => decide (s.cycle ≤ c + 4)

/-- The crumb slots whose claim words these slices show filled for others. -/
def State.crumbsTaken (s : State) (slices : List Slice) : List Nat :=
  (slices.filter fun z => 64 < z.slot.toNat && z.flags.spare && claimant z.payload ≠ 0 && claimant z.payload ≠ s.nodeUid).map fun z => z.slot.toNat - 64

/-- Positions and crumb slots taken, with the claim words that this tray has shown filled for others (R19). -/
def State.placesTaken (s : State) (l : Line) : Nat :=
  match s.forming.layout with
  | none => 0
  | some y =>
    let taken (c : Nat) : Bool :=
      (y.find (64 + c)).any (fun x => x.uid ≠ 0 && x.uid ≠ s.nodeUid) || (s.forming.claims.any fun x => x.1 = c && x.2.1 ≠ s.nodeUid)
        || (s.lineOf l).crumbsSeen.contains c
    y.nodes.length + (((List.range y.crumbs).map fun i => i + 1).filter taken).length

/-- The latecomer's claim as the tray passes outward: write the lowest empty claim word, or confirm a claim that comes back filled. A node that
would make it 64 does not claim, and listens again (R19). -/
def State.claimOutward (s : State) (l : Line) (auth inaug : Bool) (slices : List Slice) : State × List Slice :=
  let s := s.withLine l fun x => { x with crumbsSeen := x.crumbsSeen ++ s.crumbsTaken slices }
  let x := s.lineOf l
  let full := decide (63 ≤ s.placesTaken l)
  let late := s.lineState l = lnINTEGRATE && x.purpose = .claim && s.timeState = tmSYNC && s.mayRead auth && !s.inaugHold && !inaug
  if !late then (s, slices)
  else
    match x.claiming with
    | some c =>
      let mine := slices.find? fun y => y.slot.toNat = 64 + c && y.flags.spare && claimant y.payload = s.nodeUid
      match mine, s.forming.layout.bind fun y => y.find (64 + c) with
      | some _, some slot =>
        if full && !s.forming.claimConfirmed then ((s.noRoom l).enterListen l, slices)
        else
        let own := s.tagged auth l (s.ownSlice l slot true)
        let s := s.when (!s.forming.claimConfirmed) fun s => s.raise (.gtb l) 24
        let s := s.each s.served fun k s => s.set (GTB.FORM_STAT_CRUMB k) c
        let s := s.when (decide (slot.pay < s.setting GTB.FORM_CFG_SLICE_PAY)) fun s => s.raise (.gtb l) 23
        let s := ((s.withForming fun f => { f with claimConfirmed := true }).noteWritten).each s.served fun k s => s.loadGuard k
        (s, slices.map fun y => if y.slot.toNat = 64 + c then own else y)
      | _, _ => (s, slices)
    | none =>
      match slices.find? fun y => 64 < y.slot.toNat && y.flags.spare && claimant y.payload = 0 with
      | some y =>
        if full then ((s.noRoom l).enterListen l, slices)
        else
          let c := y.slot.toNat - 64
          (s.withLine l fun x => { x with claiming := some c },
            slices.map fun z => if z.slot = y.slot then { z with payload := overlay (claimWord s.nodeUid c) z.payload } else z)
      | none => (s, slices)

/-- The latecomer reads its claim word on the return pass. -/
def State.claimReturn (s : State) (l : Line) (slices : List Slice) : State :=
  match (s.lineOf l).claiming with
  | some c =>
    if s.lineState l != lnINTEGRATE || s.forming.claimConfirmed then s
    else if slices.any fun y => y.slot.toNat = 64 + c && y.flags.spare && claimant y.payload != s.nodeUid then
      ((s.count (GTB.CRUMB_LOST_CNT l)).raise (.gtb l) 25).withLine l fun x => { x with claiming := none }
    else s
  | none => s

/-- Set the UID that the layout gives a crumb slot. -/
def Forming.setCrumb (f : Forming) (c : Nat) (uid : Uid) : Forming :=
  { f with layout := f.layout.map fun z => { z with slots := z.slots.map fun x => if x.slot = 64 + c then { x with uid := uid } else x } }

/-- CLAIM_WORD_EXPIRY: 16 return passes without a write with CLAIMED (R114). -/
def execClaimWordExpiry (c : BitVec 4) (s : State) : Host.Outcome State Fault Refusal :=
  .next (
    if s.forming.claims.any fun x => x.1 = c.toNat && 16 ≤ x.2.2 then
      s.withForming fun f => { f.setCrumb c.toNat 0 with claims := f.claims.filter fun x => x.1 != c.toNat }
    else s)

/-- The claim of a crumb slot as a return pass shows it (R113, R114): a write with CLAIMED on any line, the claimant of a filled claim word, or of a
slot whose claimant wrote nothing. -/
def nextClaims (claims : List (Nat × Uid × Nat)) (c : Nat) (y : Slice) : List (Nat × Uid × Nat) :=
  let uid := if y.flags.spare then claimant y.payload else y.uid
  let age := ((claims.find? fun x => x.1 = c).map fun x => x.2.2).getD 0
  let rest := claims.filter fun x => x.1 != c
  if y.flags.claimed then rest ++ [(c, y.uid, 0)]
  else if uid ≠ 0 then rest ++ [(c, uid, age + 1)]
  else claims.map fun x => if x.1 = c then (x.1, x.2.1, x.2.2 + 1) else x

/-- What a finished return pass tells about the crumb slots: claims at the origin, claimants in the layout (R113, R114, R202). -/
def State.noteCrumbs (s : State) : State :=
  let good (slot : Nat) := (s.selection.copies.filter fun c => c.slot = slot && c.judged = .good).map fun c => c.slice
  let shown (slot : Nat) := ((good slot).find? fun y => y.flags.claimed).or (heldCopy s.selection.copies slot |>.map fun c => c.slice)
  let crumbs := (List.range ((s.forming.layout.map Layout.crumbs).getD 0)).map fun i => i + 1
  let s := s.each crumbs fun c s =>
    match shown (64 + c) with
    | none => s
    | some y => s.withForming fun f => { f.setCrumb c (if y.flags.spare then 0 else y.uid) with claims := nextClaims f.claims c y }
  s.rebuildMaps

/-! The acceptance window (R112, R150, R151). -/

/-- R14: the third miss makes the node act as origin. -/
def State.takesOrigin (s : State) (l : Line) : Bool :=
  !s.working (s.upstream l) && s.timeState != tmUNSYNC && !s.forming.stirred

/-- A miss (R150): counted once a cycle; E moves on by CYCLE_LEN, unless the tray of this cycle has been taken already and has moved it. The
exception of R99 holds for 4 cycles. -/
def State.missTray (s : State) (l : Line) (noTray : Bool) : State :=
  let x := s.lineOf l
  let pending := noTray && s.inaugHold
  if x.missThis then s
  else
    let s := s.withLine l fun x => if x.partakes then { x with missThis := true } else { x with
      missThis := true, goodRun := 0, expected := x.expected.map fun e => e + BitVec.ofNat 64 (4 * s.cycleLen) }
    if pending then s
    else
      let s := (s.count (GTB.WINDOW_MISS_CNT l)).raise (.gtb l) 8
      let run := min 3 (s.get (GTB.TRAY_STAT_MISS_RUN l) + 1)
      let s := s.set (GTB.TRAY_STAT_MISS_RUN l) run
      s.when (run = 3 && s.takesOrigin l) fun s => s.withLine l fun x => { x with actNext := true }

/-- WINDOW_MISS: no outward frame 0 by E + P. -/
def execWindowMiss (l : Line) (s : State) : Host.Outcome State Fault Refusal :=
  .next (
    if s.live (.gtb l) && s.lineState l = lnRUN && !s.flag (GTB.TRAY_STAT_ORIGIN l) && !(s.lineOf l).windowOk then s.missTray l true else s)

/-- ENTER_PASSIVE: three consecutive misses, unless R14 makes the node act as origin. -/
def execEnterPassive (l : Line) (s : State) : Host.Outcome State Fault Refusal :=
  .next (
    if (s.lineState l = lnRUN || s.lineState l = lnFORERUNNER) && s.get (GTB.TRAY_STAT_MISS_RUN l) = 3 && !(s.lineOf l).actNext
        && !s.flag (GTB.TRAY_STAT_ORIGIN l) then s.enterPassive l
    else s)

/-- Frame 0 of an outward tray against the window. -/
def State.judgeArrival (s : State) (l : Line) (arrived : Instant) (hop : Nat) : State :=
  let x := s.lineOf l
  let next := some (arrived + BitVec.ofNat 64 (4 * s.cycleLen))
  let inside := x.expected.any fun e => decide ((instantDiff arrived e).natAbs ≤ 4 * s.precision)
  let s := s.withLine l fun x => { x with lastHop := hop }
  if s.lineState l = lnRUN then
    if x.expected.isNone || inside then
      (s.set (GTB.TRAY_STAT_MISS_RUN l) 0).withLine l fun x => { x with windowOk := true, partakes := true, expected := next }
    else if hop ≠ x.lastHop then
      (s.count (GTB.RECENTRE_CNT l)).withLine l fun x => { x with expected := next, missThis := true }
    else s.missTray l false
  else
    s.withLine l fun x => { x with
      expected := next, goodRun := if inside then x.goodRun + 1 else 0,
      partakes := x.partakes || s.lineState l = lnINTEGRATE || s.lineState l = lnPASSIVE }

/-- The spacing of two successive data trays against CYCLE_LEN while the line listens (R93). -/
def State.checkSpacing (s : State) (l : Line) (n : Nat) (arrived : Instant) : State :=
  let kept := ((s.lineOf l).heard.filter fun h => (h.1 + 1) % 2 ^ 32 == n).map fun h =>
    decide ((instantDiff arrived (h.2 + BitVec.ofNat 64 (4 * s.cycleLen))).natAbs ≤ 4000)
  (s.when (kept == some false) fun s => s.cycleMismatch l).withLine l fun x => { x with heard := some (n, arrived), spacing := kept }

/-! Frame checks (R123). -/

/-- The frame keeps the tray whole: its index, its gap, the frame count of the layout where the line has one in force, and, once it has ended, its
size. -/
def State.frameFits (s : State) (info : FrameInfo) (f : DataFrame) (expected : Nat) (ended : Bool) : Bool :=
  let count := if s.lineState info.port.line = lnLISTEN then none else s.forming.layout.map Layout.frames
  (!ended || (decide (64 ≤ info.size) && decide (info.size ≤ 2000))) && f.hdr.index.toNat = expected && (expected = 0 || info.gapNs ≤ 1000)
    && decide (f.hdr.index.toNat < f.hdr.count.toNat) && count.all fun n => f.hdr.count.toNat = n

/-- A frame of a data tray goes on (R123, R142): a short one as it came and one that runs past 2,000 bytes ended there, both with an inverted
FCS. -/
def State.forwardData (s : State) (info : FrameInfo) (p : BackbonePort) (came f : DataFrame) : State :=
  s.when (s.mayTransmit (.gtb p.line)) fun s =>
    if info.size < 64 then s.emit (.dataFrame p came false)
    else if 2000 < info.size then s.emit (.ethFrame (8 + portIndex p) ((f.toBytes p.line).take 1996) false)
    else s.emit (.dataFrame p f info.clean)

/-- TRAY_BROKEN (R123). -/
def State.breakTray (s : State) (l : Line) : State :=
  if (s.lineOf l).broken then s
  else ((s.count (GTB.TRAY_BROKEN_CNT l)).raise (.gtb l) 11).withLine l fun x => { x with broken := true }

/-- The frame that a tray in progress waits for has not started (R123): the tray is broken there. No command tells of a gap that no frame ends, so it is
found when the cycle's verdicts fall due (log entry 171). -/
def State.breakStalled (s : State) (l : Line) : State :=
  let x := s.lineOf l
  let frames := (s.forming.layout.map Layout.frames).getD 0
  let stalled (next : Nat) := 0 < next && next < frames
  s.when (x.partakes && (stalled x.nextIndex || stalled x.nextReturn)) fun s => s.breakTray l

/-- The header matches the node's cycle and epoch, or the node is in no state that compares (R125). -/
def State.headerMatches (s : State) (l : Line) (h : TrayHeader) : Bool :=
  !(s.lineState l = lnRUN || s.lineState l = lnPASSIVE || s.lineState l = lnFORERUNNER)
    || (h.cycle.toNat = s.cycle && h.epoch.toNat = s.get (GTB.FORM_EPOCH l))

/-! The outward pass. -/

/-- The slices seen written on the outward pass, and those rejected there: the tag of every slice that its owner, or the origin for it, has
written upstream (R131, R144, R149). -/
def State.checkUpstream (s : State) (l : Line) (f : DataFrame) : State :=
  let checks := f.hdr.auth && s.mayRead true && s.lineState l = lnRUN && (s.lineOf l).windowOk
  s.each f.slices fun y s =>
    let slot := y.slot.toNat
    let s := s.when (!y.isPlaceholder && slot ≠ s.ownSlot) fun s => s.withLine l fun x => { x with
      writtenOutward := insertNat slot x.writtenOutward }
    let upstream := slot ≠ s.ownSlot && if slot < 64 && s.posOn l ≠ 0 then decide (slot < s.posOn l) else !y.isPlaceholder
    if checks && upstream && !s.tagGood true l y then
      ((s.count (GTB.TAG_FAIL_CNT l)).raise (.gtb l) 9).withLine l fun x => { x with outwardBad := insertNat slot x.outwardBad }
    else s

/-- The masked writes of this node into a passing frame (R129, R133, R154). -/
def State.writeFrame (s : State) (l : Line) (f : DataFrame) : State × DataFrame :=
  let run := s.lineState l = lnRUN && (s.lineOf l).windowOk
  let f := if run && f.hdr.index = 0 && s.posOn l ≠ 0 then { f with presence := f.presence ||| BitVec.ofNat 64 (2 ^ s.posOn l) } else f
  match s.ownIn f.hdr.index.toNat with
  | some x =>
    if run && (s.lineOf l).writing && s.writesOwn f.hdr.auth && f.slices.any fun y => y.slot.toNat = x.slot then
      let own := s.tagged f.hdr.auth l (s.ownSlice l x (64 < x.slot))
      (s.noteWritten, { f with slices := f.slices.map fun y => if y.slot.toNat = x.slot then own else y })
    else (s, f)
  | none =>
    let (s, slices) := s.claimOutward l f.hdr.auth f.hdr.inaug f.slices
    (s, { f with slices := slices })

/-- The marks this node sets on the return pass (R144). -/
def State.markWithdrawn (s : State) (l : Line) (f : DataFrame) : State × DataFrame :=
  let marks := (s.lineOf l).outwardBad
  let bad (y : Slice) := marks.contains y.slot.toNat
  (s.countBy (GTB.WITHDRAWN_SET_CNT l) (f.slices.filter bad).length,
    { f with slices := f.slices.map fun y => if bad y then { y with flags := { y.flags with withdrawn := true } } else y })

/-- A tray of a running train reaches a line that leads nobody (R90): the outcome of contention, for both lines where this one decides (R91). -/
def State.meetDataTray (s : State) (l : Line) : State :=
  let st := s.lineState l
  if st != lnCOLDSTART && st != lnLONE then s
  else
    let s := s.when (st = lnCOLDSTART) fun s => s.coldLost l
    if s.decides l then
      (s.setStarter false).each s.served fun k s =>
        if s.lineState k = lnCOLDSTART || s.lineState k = lnLONE then s.enterListen k else s
    else s.enterListen l

/-- The node acting as origin sends no tray on the line in this cycle, the first in which its upstream-facing port has a working link (R486). -/
def State.idleOrigin (s : State) (l : Line) : Bool :=
  s.posOn l ≠ 1 && s.working (s.upstream l) && (s.lineOf l).revIdle.all fun c => c = s.cycle

/-- The node, acting as origin or origin, meets another's outward tray on its upstream-facing port (R14, R486): it stops, and in its idle cycle takes
the tray as the first of another hop count (R112). -/
def State.yieldOrigin (s : State) (l : Line) (info : FrameInfo) (f : DataFrame) : State :=
  if s.idleOrigin l then
    let s := s.withLine l fun x => { x with stopNext := true }
    if f.hdr.index = 0 then
      (s.count (GTB.RECENTRE_CNT l)).withLine l fun x => { x with
        expected := some (s.rxInstant info.port info.arrived + BitVec.ofNat 64 (4 * s.cycleLen)), lastHop := f.hdr.hop.toNat }
    else s
  else s.when (f.hdr.origin.toNat < s.posOn l) fun s => s.withLine l fun x => { x with stopNext := true, expected := none }

/-- Two layouts of one epoch with the same nodes and the same slice ranges: the layout that a node holds in full is still the one in force
(R17). -/
def Layout.sameAs (z y : Layout) : Bool :=
  z.epoch = y.epoch && (z.nodes.map fun r => r.uid) == (y.nodes.map fun r => r.uid)
    && (z.slots.map fun x => (x.slot, x.pay)) == (y.slots.map fun x => (x.slot, x.pay))

/-- The layout that the slices of a return pass show (R92). -/
def heardLayout (h : TrayHeader) (slices : List Slice) : Layout :=
  let nodes := (slices.filter fun y => y.slot.toNat < 64).map fun y =>
    (⟨y.uid, 0x74, 0, y.len, false, 0, false, false, false, false, false, 0⟩ : DiscRecord)
  let crumbs := slices.filter fun y => 64 < y.slot.toNat
  let pay := (crumbs.head?.map fun y => y.len.toNat).getD 0
  let slots := (placeSlots h.auth (slotRequests nodes crumbs.length pay 1928) 0 38 0).map fun x =>
    match crumbs.find? fun y => y.slot.toNat = x.slot && !y.flags.spare with
    | some y => { x with uid := y.uid }
    | none => x
  ⟨h.epoch, nodes, crumbs.length, h.auth, framesOf slots, slots⟩

/-- A listening line learns the layout from a whole return pass (R90, R92), and whether it may claim: positions, confirmed claims and claims in
progress leave it a place (R19). Layout, epoch and position are the node's, on both lines (R20, R21, R91); a line that hears another epoch than the one
in which the other line runs learns nothing (DESIGN CHOICE, log entry 170). -/
def State.learnLayout (s : State) (l : Line) (h : TrayHeader) (reverse : Bool) : State :=
  let slices := (s.lineOf l).listened
  let y := heardLayout h slices
  let pos := positionIn y.nodes s.nodeUid
  let crumbs := slices.filter fun y => 64 < y.slot.toNat
  let free (z : Slice) : Bool := z.flags.spare && claimant z.payload = 0
  let claims := crumbs.foldl (fun a z => nextClaims a (z.slot.toNat - 64) z) []
  let held := s.forming.fullLayout && s.forming.layout.any fun z => z.sameAs y
  let other := s.epoch != h.epoch
  if other && s.anyLine [lnRUN, lnFORERUNNER, lnINAUGURATE] then s
  else
  let s := s.when other State.beginEpoch
  let s := s.when (!held) fun s => s.withForming fun f => { f with layout := some y, fullLayout := false, claims := claims, claimConfirmed := false }
  let s := s.each s.served fun k s =>
    (((s.set (GTB.FORM_EPOCH k) h.epoch.toNat).setFlag (GTB.TRAY_STAT_AUTH_ON k) h.auth).showLayout k).set (GTB.FORM_STAT_POS k) pos
  let s := s.rebuildMaps
  let s := s.when other fun s => s.each (s.served.filter fun k => s.lineState k = lnPASSIVE) fun k s => s.loadGuard k
  if pos ≠ 0 then s.enterIntegrate l .reintegrate
  else if crumbs.any free && !h.inaug && y.nodes.length + (crumbs.filter fun z => !free z).length < 63 && !reverse then s.enterIntegrate l .claim
  else s.noRoom l

/-- A listening line keeps the slices of a return pass beside slot selection and judges nothing (R92). -/
def State.gatherSlices (s : State) (l : Line) (f : DataFrame) : State :=
  s.withLine l fun x => { x with
    listened := (if f.hdr.index = 0 then [] else x.listened.filter fun z => !f.slices.any fun y => y.slot = z.slot) ++ f.slices }

/-- A frame of a return pass on a listening line (R92, R93): with the last one the layout is learned, where every frame has come in order with a
good FCS and the tray kept the spacing. DESIGN CHOICE (log entry 176): the spacing takes two trays to compare, so the first whole return pass teaches
nothing. -/
def State.listenReturn (s : State) (l : Line) (f : DataFrame) (good reverse : Bool) : State :=
  let x := s.lineOf l
  let idx := f.hdr.index.toNat
  let whole := good && !x.broken && idx = x.nextReturn && (idx = 0 || x.heardWhole)
  let s := (s.gatherSlices l f).withLine l fun x => { x with nextReturn := if f.hdr.last then returnDone else idx + 1, heardWhole := whole }
  if f.hdr.last && whole && idx + 1 = f.hdr.count.toNat && x.spacing == some true then s.learnLayout l f.hdr reverse else s

/-- A frame of the return pass as the node reads it; a listening line judges nothing. -/
def State.readPass (s : State) (l : Line) (f : DataFrame) (fcs : Option Bool) : State :=
  let st := s.lineState l
  if st = lnLISTEN then s.when fcs.isSome fun s => s.listenReturn l f (fcs == some true) false
  else if st = lnRUN || st = lnPASSIVE || st = lnINTEGRATE then
    (s.readReturn l f fcs).when (fcs.isSome && st = lnINTEGRATE) fun s => s.claimReturn l f.slices
  else s

/-- An outward frame of a data tray with REVERSE clear. -/
def State.trayFrameRx (s : State) (info : FrameInfo) (frame : DataFrame) : State :=
  let l := info.port.line
  let (s, take) := s.admitFrame info frame.hdr (frame.toBytes info.addressed) fun s good => s.emit (.dataFrame info.port.across frame good)
  if !take then s
  else
    let s := (s.meetDataTray l).openTray l frame.hdr.cycle.toNat
    let idx := frame.hdr.index.toNat
    let rx := s.rxInstant info.port info.arrived
    let s := (s.when frame.hdr.inaug fun s => s.seeInaug l).withLine l fun x => { x with sawOutward := true }
    let s := s.when (idx = 0 && s.time.running) fun s => s.set (GTB.TRAY_ARR l) (s.afterTick rx).toNat
    if s.flag (GTB.TRAY_STAT_ORIGIN l) && !s.idleOrigin l && frame.hdr.origin.toNat < s.posOn l then s.yieldOrigin l info frame
    else
      let origin := s.flag (GTB.TRAY_STAT_ORIGIN l)
      let s := s.when origin fun s => s.yieldOrigin l info frame
      let loops := !s.working info.port.across
      let match_ := s.headerMatches l frame.hdr
      let s := s.when (!match_ && idx = 0) fun s => s.count (GTB.HDR_MISMATCH_CNT l)
      let s := s.when (match_ && !s.frameFits info frame (s.lineOf l).nextIndex true) fun s => s.breakTray l
      let s := s.when (idx = 0 && match_ && (!origin || s.idleOrigin l)) fun s => s.takeOutward info loops
      let s := s.when (idx = 0 && !origin) fun s =>
        if match_ then
          (s.when (s.lineState l = lnLISTEN) fun s => s.checkSpacing l frame.hdr.cycle.toNat rx).judgeArrival l rx frame.hdr.hop.toNat
        else s.missTray l false
      let s := s.withLine l fun x =>
        { x with nextIndex := if match_ then idx + 1 else x.nextIndex, end1Side := some info.port.side }
      let s := s.openMark l frame.hdr
      let touch := match_ && !origin && !(s.lineOf l).broken
      let s := s.when touch fun s => s.checkUpstream l frame
      let (s, f) := if touch then s.writeFrame l frame else (s, frame)
      let f := { f with hdr := { s.outwardHeader l f.hdr with ret := loops } }
      let (s, f) := if touch && loops then s.markWithdrawn l f else (s, f)
      let s := s.forwardData info (s.onwardPort info) frame f
      let reads := loops && match_ && !origin && (s.lineState l != lnRUN || (s.lineOf l).windowOk)
      if reads then s.readPass l f (some (info.clean && decide (64 ≤ info.size) && decide (info.size ≤ 2000))) else s

/-! The return pass. -/

/-- A frame of a data tray with RETURN set and REVERSE clear. `fcs = none` brings its slices before its end. -/
def State.returnFrameRx (s : State) (info : FrameInfo) (frame : DataFrame) (fcs : Option Bool) : State :=
  let l := info.port.line
  let ended := fcs.isSome
  let info := { info with fcsOk := fcs != some false }
  let good := (fcs == some true) && info.clean && decide (64 ≤ info.size) && decide (info.size ≤ 2000)
  let (s', take) := s.admitFrame info frame.hdr (frame.toBytes info.addressed) fun s good => s.emit (.dataFrame info.port.across frame good)
  let s := if ended then s' else s
  if !take then s
  else
    let idx := frame.hdr.index.toNat
    let s := s.openTray l frame.hdr.cycle.toNat
    let match_ := s.headerMatches l frame.hdr
    let s := s.when (idx = 0 && ended && match_) fun s => s.takeReturn info
    let s := s.when (match_ && !s.frameFits info frame (s.lineOf l).nextReturn ended) fun s => s.breakTray l
    let st := s.lineState l
    let x := s.lineOf l
    let marks := ended && st = lnRUN && x.windowOk && !s.flag (GTB.TRAY_STAT_ORIGIN l) && match_ && !x.broken
    let (s, f) := if marks then s.markWithdrawn l frame else (s, frame)
    let consumed := s.flag (GTB.TRAY_STAT_ORIGIN l) && match_ && !s.idleOrigin l
    let s := s.when (ended && !consumed && s.working info.port.across) fun s => s.forwardData info info.port.across frame f
    if !match_ || (st = lnRUN && !x.windowOk && !consumed) then s
    else s.readPass l frame (if ended then some good else none)

/-! Sending data trays (R14, R130, R156, R486). -/

/-- The slices of a frame as the origin sends them. -/
def State.originSlices (s : State) (l : Line) (y : Layout) (frame : Nat) (own : Bool) : List Slice :=
  (y.slots.filter fun x => x.frame = frame).map fun x =>
    if own && x.slot = s.ownSlot && s.writesOwn y.auth then s.tagged y.auth l (s.ownSlice l x (64 < x.slot))
    else s.tagged y.auth l (s.placeholder l x)

/-- The header of a frame of the origin's data tray. -/
def State.dataHeader (s : State) (l : Line) (y : Layout) (a : Instant) (frame : Nat) (reverse : Bool) : TrayHeader where
  sa := s.nodeUid
  etype := BitVec.ofNat 16 (s.get (GTB.TRAY_CFG_ETYPE .A))
  version := 2
  kind := 1
  last := frame + 1 = y.frames
  ret := false
  auth := y.auth
  inaug := (s.lineOf l).inaugMark == some s.cycle
  final := false
  reverse := reverse
  index := BitVec.ofNat 5 frame
  count := BitVec.ofNat 6 y.frames
  cycle := BitVec.ofNat 32 s.cycle
  epoch := y.epoch
  origin := BitVec.ofNat 6 (s.posOn l)
  hop := 1
  sendTime := low32 a

/-- Bytes of a data frame with its FCS, a short one padded to 64 (R108). -/
def frameSize (y : Layout) (frame : Nat) : Nat :=
  max 64 ((y.slots.filter fun x => x.frame = frame).foldl (fun n x => n + 16 + x.pay + if y.auth then 8 else 0) (if frame = 0 then 42 else 34))

/-- REV_LOOP in the place of the presence map (R486). -/
def revLoopField (l : Option Nat) : BitVec 64 := match l with | some v => BitVec.ofNat 64 (v * 2 ^ 32 + 2 ^ 31) | none => 0

/-- Send every frame of a tray out of a port. -/
def State.sendFrames (s : State) (l : Line) (p : BackbonePort) (y : Layout) (a : Instant) (reverse : Bool) : State :=
  let presence : BitVec 64 := if reverse then revLoopField (s.lineOf l).revLoop
    else if s.posOn l = 0 then 0 else BitVec.ofNat 64 (2 ^ s.posOn l)
  let code := s.portCode p
  ((List.range y.frames).foldl (fun (acc : State × Int) k =>
    let (s, start) := acc
    let len := wireNs code (frameSize y k)
    let f : DataFrame := ⟨s.dataHeader l y a k reverse, if k = 0 then presence else 0, s.originSlices l y k (!reverse)⟩
    (s.originate l p ((start - s.afterTick a).toNat + len) (s.trayWindow start len) fun good => .dataFrame p f good,
      start + wireNs code (frameSize y k + 20)))
    (s, s.afterTick a)).1

/-- DATA_TRAY_TX: the origin, or a node acting as origin, sends the data tray of its line. -/
def execDataTrayTx (l : Line) (a : Instant) (s : State) : Host.Outcome State Fault Refusal :=
  .next (
    match s.forming.layout with
    | none => s
    | some y =>
      if !(s.flag (GTB.TRAY_STAT_ORIGIN l) && s.lineState l = lnRUN && s.live (.gtb l)) then s
      else
        let p := s.downstream l
        let up := s.upstream l
        let acting := s.posOn l ≠ 1
        let upWorks := acting && s.working up
        if upWorks && (s.lineOf l).revIdle.all fun c => c = s.cycle then s.withLine l fun x => { x with revIdle := some s.cycle }
        else
          let upA := s.txInstant up a
          let a := s.txInstant p a
          let s := s.withLine l fun x => { x with
            ownA := some a, ownB := none, partakes := true, windowOk := true,
            revIdle := if upWorks then x.revIdle else none, revOwnA := if upWorks then some upA else none, revOwnB := none }
          let s := s.openMark l (s.dataHeader l y a 0 false)
          let wrote := s.writesOwn y.auth && s.ownLayoutSlot.isSome
          let s := if s.working p then s.sendFrames l p y a false else s
          let s := if upWorks then s.sendFrames l up y upA true else s
          let s := if s.working p then s
            else
              let s := s.withLine l fun x => { x with ownB := some a }
              s.each (List.range y.frames) fun k s =>
                s.readReturn l ⟨s.dataHeader l y a k false, if s.posOn l = 0 then 0 else BitVec.ofNat 64 (2 ^ s.posOn l), s.originSlices l y k true⟩ (some true)
          if wrote then s.noteWritten else s)

/-! Reverse copies (R487). -/

/-- The value of the node acting as origin from a reverse copy. -/
def State.takeReverseValue (s : State) (l : Line) (f : DataFrame) (fcs : Bool) : State :=
  let x := s.lineOf l
  match x.revLoop, x.revOwnA with
  | some own, some a =>
    if fcs && f.presence.getLsbD 31 && s.lineState l != lnRUN then
      let d := stampDiff f.hdr.sendTime (low32 a) + Int.tdiv ((f.presence.toNat / 2 ^ 32 : Nat) - (own : Int)) 2
      let v : SyncValue := ⟨l, f.hdr.origin.toNat, 0, f.hdr.sendTime, ⟨0, 0, true, false, false, true⟩, true, false, true, true, some d, true⟩
      s.withTime fun t => { t with values := t.values ++ [v] }
    else s
  | _, _ => s

/-- A frame of a reverse copy on its way towards end 1 or back (R487): checked like a data tray's (R123, R125), and nothing written into it. -/
def State.passReverse (s : State) (info : FrameInfo) (frame : DataFrame) : State :=
  let l := info.port.line
  let idx := frame.hdr.index.toNat
  let ret := frame.hdr.ret
  let rx := s.rxInstant info.port info.arrived
  let s := (s.meetDataTray l).withLine l fun x => { x with sawReverse := true }
  let match_ := s.headerMatches l frame.hdr
  let s := s.when (!match_ && idx = 0 && !ret) fun s => (s.count (GTB.HDR_MISMATCH_CNT l)).missTray l false
  let next := if ret then (s.lineOf l).nextReturn else (s.lineOf l).nextIndex
  let s := s.when (match_ && !s.frameFits info frame next true) fun s => s.breakTray l
  let reads := match_ && !(s.lineOf l).broken
  let good := info.clean && decide (64 ≤ info.size) && decide (info.size ≤ 2000)
  let learn (s : State) : State :=
    if !reads then s
    else
      let s := s.when (idx = 0) fun s => (s.takeReverseValue l frame good).withLine l fun x => { x with lastTray := some frame.hdr }
      if s.lineState l = lnLISTEN then s.listenReturn l frame good true
      else s.withLine l fun x => { x with nextReturn := if frame.hdr.last then returnDone else idx + 1 }
  if ret then
    let s := s.when (idx = 0 && match_) fun s => s.withLine l fun x => { x with revOwnB := some rx }
    learn (s.when (s.working info.port.across) fun s => s.forwardData info info.port.across frame frame)
  else
    let loops := !s.working info.port.across
    let s := s.when (idx = 0 && match_) fun s =>
      if loops then
        let m := midpoint rx (s.txInstant info.port info.left)
        s.withLine l fun x => { x with revOwnA := some m, revOwnB := some m }
      else s.withLine l fun x => { x with revOwnA := some (s.txInstant info.port.across info.left), revOwnB := none }
    let s := s.when (idx = 0 && match_) fun s =>
      if s.lineState l = lnLISTEN then (s.checkSpacing l frame.hdr.cycle.toNat rx).judgeArrival l rx frame.hdr.hop.toNat
      else s.when (s.lineState l = lnINTEGRATE || s.lineState l = lnPASSIVE) fun s => s.judgeArrival l rx frame.hdr.hop.toNat
    let s := (s.withLine l fun x => { x with
      nextIndex := if match_ then idx + 1 else x.nextIndex, end1Side := some info.port.side.opposite }).openMark l frame.hdr
    let h := { s.outwardHeader l frame.hdr with ret := loops }
    let s := s.forwardData info (s.onwardPort info) frame { frame with hdr := h }
    if loops then learn s else s

/-- A frame of a reverse copy (R487): a node acting as origin consumes it, one that an outward tray has reached in this cycle or the last discards
it. -/
def State.reverseCopyRx (s : State) (info : FrameInfo) (frame : DataFrame) : State :=
  let l := info.port.line
  let (s, take) := s.admitFrame info frame.hdr (frame.toBytes info.addressed) fun s good => s.emit (.dataFrame info.port.across frame good)
  if !take then s
  else if s.flag (GTB.TRAY_STAT_ORIGIN l) then
    s.when (frame.hdr.ret && frame.hdr.index = 0) fun s => s.withLine l fun x => { x with revOwnB := some (s.rxInstant info.port info.arrived) }
  else
    let s := s.openTray l frame.hdr.cycle.toNat
    if (s.lineOf l).sawOutward || (s.lineOf l).sawOutwardLast then s else s.passReverse info frame

/-! The node's RETURN_END and the return close (R81, R82, R149). -/

/-- The positions that a tray has not shown, on the line that the other chip of a pair reads (R111): where none of that line's slices has come there
was no return pass, and its record stands (R25, R192). -/
def State.missPositions (s : State) (l : Line) : State :=
  let n := (s.forming.layout.map fun y => y.nodes.length).getD 0
  let came := s.selection.copies.any fun c => c.line == l
  let missed (p : Nat) := came && !s.selection.copies.any fun c => c.line == l && c.slot == p
  s.withLine l fun x => (((List.range n).map (· + 1)).filter missed).foldl (fun x p =>
    let run := ((x.absentRun.find? fun e => e.1 = p).map Prod.snd).getD 0
    { x with absentRun := (x.absentRun.filter fun e => e.1 != p) ++ [(p, run + 1)] }) x

/-- The final statuses of the cycle: WITHDRAW, SLICE_REJECT and the slot counters (R148, R149). -/
def State.finalise (s : State) : State :=
  let slots := ((s.forming.layout.map Layout.slots).getD []).map LayoutSlot.slot
  let auth := s.forming.layout.any Layout.auth
  let s := s.each (s.served.filter fun l => s.lineState l != lnOFF && !s.forerunner l) fun l s => s.breakStalled l
  let s := s.each (inSlotOrder (s.selection.copies.filter fun c => c.judged == .pending)) fun c s => s.takeCopy auth { c with judged := .bad }
  let s := { s with selection := { s.selection with final := true } }
  let s := s.each slots fun i s => s.when (s.selection.provisional.contains i) fun s => s.reselect i
  let last (s : State) (i : Nat) : SliceFlags := (((s.bank .A (s.formingBank .A)).entry i).map Entry.flags).getD noFlags
  let s := s.when s.twin fun s => s.missPositions s.twinLine.other
  let s := { s with selection := { s.selection with statuses := slots.map fun i => (i, s.endStatus i (last s i)) } }
  let pages := s.served.filter fun l => s.lineState l != lnOFF
  s.each slots fun i s =>
    let st := s.finalStatus i (last s i)
    let s := s.when (s.selection.provisional.contains i && (st = stREJECTED || st = stMISSING)) fun s => s.raiseWithdraw i
    s.each pages fun l s =>
      if st = stREJECTED then (s.count (GTB.SLOT_CNT_REJECT l i)).raise (.gtb l) 10
      else if st = stSTALE && !(last s i).spare then s.count (GTB.SLOT_CNT_STALE l i)
      else s

/-- What every node learns at RETURN_END of an inauguration to come (R99). -/
def State.learnInaug (s : State) : State :=
  if s.served.any fun l => (s.lineOf l).inaugRead then
    let s := s.withForming fun f => { f with stirred := true, inaugSeen := if s.inaugHold then f.inaugSeen else some s.cycle }
    s.when (s.flag TIME.TIME_STAT_STARTER && s.anyLine [lnRUN, lnFORERUNNER, lnPASSIVE] && s.forming.seekCycle.isNone) fun s =>
      s.scheduleSeek (s.cycle - 1) (s.cycle - 1)
  else s

/-- The lines that may give a train time: in INTEGRATE or PASSIVE (R73). -/
def State.adoptLines (s : State) : List Line := s.served.filter fun l => s.lineState l = lnINTEGRATE || s.lineState l = lnPASSIVE

/-- The Starter a line's data trays show, when it is another one than that whose train time the chip holds (R69, R73). -/
def State.otherStarter (s : State) (l : Line) : Bool :=
  (s.twin || s.decides l) && s.time.values.any fun v =>
    v.line = l && v.record.starter && s.usable v && v.uid != s.nodeUid && s.time.starterHeld != some v.uid

/-- The values of this cycle are for adoption (R73): in UNSYNC, or when a line has come to follow another Starter. -/
def State.adopts (s : State) : Bool :=
  !s.adoptLines.isEmpty && !s.deviations.isEmpty && (s.timeState = tmUNSYNC || s.adoptLines.any s.otherStarter)

/-- Adoption at RETURN_END (R73). DESIGN CHOICE (log entry 175): from slot frames too the tick is put TX_OFFS before the sender's instant, as R58 has it,
whatever slot that sender holds. -/
def State.adoptAtReturnEnd (s : State) : State :=
  match s.adoptLines.findSome? fun l => (s.lineOf l).lastTray with
  | some h =>
    (s.showAverage (sortDev s.deviations)).adoptTime s.adoptionOffset h.cycle.toNat h.sendTime
      ((s.time.values.find? fun v => v.record.starter).map (fun v => v.uid) |>.getD 0)
  | none => s

/-- What RETURN_END does to train time: adoption, or the averaging. DESIGN CHOICE (log entry 143): which of the two is decided on the state before
it, so that a node that loses its train time here adopts from the values of a later cycle. -/
def State.correctAtReturnEnd (s : State) : State :=
  if s.time.abandoned then s
  else
    let s := s.showExtValid
    if s.adopts then s.adoptAtReturnEnd else s.averageAtReturnEnd

/-- TRAY_LATE (R82). -/
def State.lateTray (s : State) : State := (s.count CYC.TRAY_LATE_CNT).raise .cyc 9

/-- The node's RETURN_END. A chip that runs no cycle yet has no statuses of its own to close (R169). -/
def State.returnEnd (s : State) : State :=
  let at_ := s.sinceTick
  let s := s.when s.time.running fun s =>
    let s := s.set CYC.RETURN_END_AT at_.toNat
    (s.when (decide ((s.trayLen : Int) < at_)) State.lateTray).finalise
  let s := s.noteCrumbs.learnInaug
  let s := s.withTime fun t => { t with returnEndSeen := true }
  let s := s.correctAtReturnEnd
  (s.each [Line.A, Line.B] fun c s => s.commitDraft7 c false).returnTriggers

/-- The line's return pass has been read to its end; slot frames have none, and the sender of RETURN_END times it (R70, R81; log entry 2). -/
def State.lineReturned (s : State) (l : Line) : Bool := s.forerunner l || (s.lineOf l).nextReturn == returnDone

/-- Every line that takes part has been read to its end (R81). -/
def State.returnReached (s : State) : Bool :=
  let part := s.served.filter fun l => (s.lineOf l).partakes
  (!part.isEmpty && part.all s.lineReturned)
    || s.anyLine [lnFORERUNNER] || (s.anyLine [lnLONE] && s.capture.taken)

/-- RETURN_END. In INAUGURATE, where discovery trays run, it closes the round (R103, R104). -/
def execReturnEnd (s : State) : Host.Outcome State Fault Refusal :=
  .next (
    if s.time.returnEndSeen || s.time.returnClosed then s
    else if s.anyLine [lnINAUGURATE] then s.formingReturnEnd
    else if s.returnReached then s.returnEnd
    else s)

/-- The return close of the cycle has come: 2,560 ns before the next tick (R82). -/
def State.closeDue (s : State) : Bool := s.valid && s.time.running && decide ((s.cycleLen : Int) - 2560 ≤ s.sinceTick)

/-- RETURN_CLOSE: an incomplete return pass ends the cycle (R82); a line's that was due is a late tray. -/
def execReturnClose (s : State) : Host.Outcome State Fault Refusal :=
  .next (
    if s.time.returnEndSeen || s.time.returnClosed || !s.closeDue then s
    else
      let s := s.when (s.anyPartakes && decide ((s.trayLen : Int) < s.sinceTick)) State.lateTray
      let s := s.finalise
      let s := s.withTime fun t => { t with returnClosed := true }
      (s.each [Line.A, Line.B] fun c s => s.commitDraft7 c false).returnTriggers)

/-! Forerunner slot frames (R160 to R165). -/

/-- The delay of a port's link: the average of up to 16 measurements. DESIGN CHOICE (log entry 156): the average is cut towards zero, it runs over
fewer measurements until there are 16, and it is 0 before the first. -/
def PortState.delay (p : PortState) : Int := if p.delays.isEmpty then 0 else Int.tdiv p.delays.sum p.delays.length

/-- The header of a slot frame (R160, R161). LAST 1 and ORIGIN 0, and one SEND_TIME for both ports, with the PORT_ASYM of the port facing away from
end 1: DESIGN CHOICE (log entry 154). -/
def State.slotHeader (s : State) (l : Line) (a : Instant) : TrayHeader where
  sa := s.nodeUid
  etype := BitVec.ofNat 16 (s.get (GTB.TRAY_CFG_ETYPE .A))
  version := 1
  kind := 1
  last := true
  ret := false
  auth := false
  inaug := (s.lineOf l).inaugMark == some s.cycle
  final := false
  reverse := false
  index := BitVec.ofNat 5 (s.posOn l - 1)
  count := BitVec.ofNat 6 ((s.forming.layout.map fun z => z.nodes.length).getD 0)
  cycle := BitVec.ofNat 32 s.cycle
  epoch := BitVec.ofNat 16 (s.get (GTB.FORM_EPOCH l))
  origin := 0
  hop := 0
  sendTime := low32 a

/-- The guardian's transmit window of a slot (R163). It opens and closes with the GRD_CLK period before each bound, so that a frame scheduled at
slot start + P lies inside it (DEDUCED, log entry 152). -/
def State.slotWindow (s : State) (pos : Nat) (start len : Int) : Bool :=
  let slot : Int := (s.get CYC.TX_OFFS + (pos - 1) * s.forming.slotPlan : Nat)
  decide (grdDown (slot + s.precision) ≤ start) && decide (start + len ≤ grdDown (slot + s.forming.slotPlan - s.precision))

/-- FORERUNNER_SLOT_TX: the slot frame, or a null frame where the node would write nothing (R161, R163). Its timing block names the neighbours' own
slot frames since the node's last one (DEDUCED, log entry 155). -/
def execForerunnerSlotTx (l : Line) (a : Instant) (s : State) : Host.Outcome State Fault Refusal :=
  .next (
    let pos := s.posOn l
    match s.lineState l = lnFORERUNNER && s.live (.gtb l) && pos ≠ 0, s.ownLayoutSlot with
    | true, some x =>
      let y := s.lineOf l
      let a := s.txInstant (s.downstream l) a
      let s := s.withLine l fun y => { y with ownA := some a, sentA := some a, partakes := true }
      let s := s.openMark l (s.slotHeader l a)
      let writes := s.capture.taken && s.capture.kind != .none
      let stamp (d : PortState) : BitVec 32 := (d.rxOwn.map low32).getD 0
      let null : Slice := ⟨s.nodeUid, BitVec.ofNat 7 x.slot, noFlags, 0, 0, s.stampOn l, [], 0⟩
      let slice := if writes then s.ownSlice l x false else null
      let len := wireNs 0 (max 64 (62 + slice.payload.length))
      let ok := s.slotWindow pos (s.afterTick a) len
      let hdr := s.slotHeader l a
      let s := s.each ((portsOf l).filter s.working) fun p s =>
        s.originate l p len ok fun good => .slotFrame p hdr ⟨stamp y.front, stamp y.rear, 0⟩ slice good
      let s := s.withLine l fun y => { y with front := { y.front with rxOwn := none }, rear := { y.rear with rxOwn := none } }
      if writes then s.noteWritten else s.count (GTB.NULL_FRAME_CNT l)
    | _, _ => s)

/-- The link delay a neighbour's own slot frame gives (R165): `seen` is the arrival there of this node's last slot frame. DESIGN CHOICE (log entry
156): the half is cut towards zero. -/
def State.measureDelay (s : State) (p : BackbonePort) (hdr : TrayHeader) (timing : TimingBlock) (rx : Instant) : State :=
  let seen := match p.side with | .rear => timing.rxFront | .front => timing.rxRear
  let s := s.withLine p.line fun x => x.withPort p.side fun q => { q with rxOwn := some rx }
  match (s.lineOf p.line).sentA with
  | some a =>
    if seen = 0 then s
    else
      let d := Int.tdiv (stampDiff seen (low32 a) + stampDiff (low32 rx) hdr.sendTime) 2
      s.withLine p.line fun x => x.withPort p.side fun q => { q with delays := (d :: q.delays).take 16 }
  | none => s

/-- A slot frame that counts as a miss (R125, R164). DESIGN CHOICE (log entry 157): the run of misses counts frames, and a frame inside its window
ends it. -/
def State.missSlot (s : State) (l : Line) : State :=
  ((s.count (GTB.WINDOW_MISS_CNT l)).raise (.gtb l) 8).set (GTB.TRAY_STAT_MISS_RUN l) (min 3 (s.get (GTB.TRAY_STAT_MISS_RUN l) + 1))

/-- What a slot frame brings: its slice's copy and the value of a sync node. -/
def State.readSlot (s : State) (l : Line) (hdr : TrayHeader) (timing : TimingBlock) (slice : Slice) (rx : Instant) (d : Int) (inside : Bool)
    (fcs : Option Bool) : State :=
  let s := s.withLine l fun x => { x with
    partakes := true, lastTray := some hdr, goodRun := if inside then (if x.missThis then x.goodRun else x.goodRun + 1) else 0, missThis := true }
  let s := s.when fcs.isSome fun s => s.set (GTB.TRAY_STAT_MISS_RUN l) 0
  let judged : Judgement := match fcs with | none => .pending | some true => .good | some false => .bad
  let s := (s.takeCopy false ⟨slice.slot.toNat, l, slice, judged⟩).slotsMoved s [slice.slot.toNat]
  let elig := (s.forming.layout.bind fun y => y.nodes[slice.slot.toNat - 1]?).any fun r => r.syncElig || r.startElig
  if judged = .good && elig && (slice.flags.fresh || slice.flags.hold) then
    let dev := stampDiff (hdr.sendTime + timing.corr + BitVec.ofInt 32 d) (low32 rx)
    let r := { SyncRecord.ofBytes slice.payload with loopValid := true }
    let v : SyncValue := ⟨l, slice.slot.toNat, slice.uid, slice.stamp, r, slice.flags.fresh, slice.flags.doubtful, true, true, some dev, false⟩
    s.withTime fun t => { t with values := t.values ++ [v] }
  else s

/-- A slot frame; `fcs = none` brings the frame before its end (R191). -/
def State.slotFrameRx (s : State) (info : FrameInfo) (hdr : TrayHeader) (timing : TimingBlock) (slice : Slice) (fcs : Option Bool) : State :=
  let l := info.port.line
  let ended := fcs.isSome
  let info := { info with fcsOk := fcs != some false }
  let good := fcs == some true && info.clean
  let (s', take) := s.admitFrame info hdr (slotFrameBytes info.addressed hdr timing slice) fun s good => s.emit (.slotFrame info.port.across hdr timing slice good)
  let s := if ended then s' else s
  if !take then s
  else
    let s := s.when ended fun s => s.meetDataTray l
    let rx := s.rxInstant info.port info.arrived
    let s := s.when (hdr.hop = 0 && good) fun s => s.measureDelay info.port hdr timing rx
    let d := ((s.lineOf l).portOf info.port.side).delay
    let repeat_ := instantDiff (s.txInstant info.port.across info.left) rx
    let t' := { timing with corr := timing.corr + BitVec.ofInt 32 (repeat_ + d) }
    let s := s.when ended fun s => s.openMark l hdr
    let s := s.when (ended && s.working info.port.across && s.mayTransmit (.gtb l)) fun s =>
      s.emit (.slotFrame info.port.across (s.outwardHeader l hdr) t' slice good)
    let s := s.when (hdr.inaug && ended) fun s => (s.seeInaug l).withLine l fun x => { x with inaugRead := true }
    let st := s.lineState l
    let departure := rx - BitVec.ofInt 64 (timing.corr.toNat + d)
    let start := s.tickInstant + BitVec.ofNat 64 (4 * (s.get CYC.TX_OFFS + hdr.index.toNat * s.forming.slotPlan + s.precision))
    let inside := decide ((instantDiff departure start).natAbs ≤ 4 * s.precision)
    if !(st = lnFORERUNNER || st = lnPASSIVE || st = lnINTEGRATE) then s
    else if !s.headerMatches l hdr then s.when ended fun s => (s.count (GTB.HDR_MISMATCH_CNT l)).missSlot l
    else if !inside && s.time.running then s.when ended fun s => s.missSlot l
    else s.readSlot l hdr timing slice rx d inside (if ended then some good else none)

/-! What a tick does to the lines. -/

/-- Entry into RUN at a tick (R90, R151, R487). -/
def State.enterRun (s : State) (l : Line) : State :=
  let x := s.lineOf l
  let time := s.timeState = tmSYNC || s.timeState = tmLEAD
  let key := s.mayRead (s.flag (GTB.TRAY_STAT_AUTH_ON l))
  let ready := match s.lineState l with
    | 3 => (x.purpose = .reintegrate || (x.purpose = .claim && s.forming.claimConfirmed)) && key
    | 7 => !x.holdCrossed
    | _ => false
  if 2 ≤ x.goodRun && time && ready then
    let joins := s.lineState l = lnINTEGRATE
    let s := (s.setLine l (if s.forerunner l then lnFORERUNNER else lnRUN)).set (GTB.TRAY_STAT_MISS_RUN l) 0
    (s.when joins fun s => s.loadGuard l).withLine l fun x => { x with
      writing := true, goodRun := 0
      actNext := x.sawReverse && !s.working (s.upstream l) && !s.forerunner l }
  else s

/-- The outward instant after a tick from which the next one is expected: the last measured, or that plus CYCLE_LEN (R81). -/
def State.nextA (s : State) (x : LineState) : Option Instant :=
  let later (a : Instant) : Instant := a + BitVec.ofNat 64 (4 * s.cycleLen)
  match x.ownA, x.lastA with
  | some a, some b => some (if 0 < instantDiff a b then a else later b)
  | some a, none => some a
  | none, y => y.map later

/-- A line at a tick: the origin role, entry into RUN, and the marks of the cycle that ends. A node that enters RUN on reverse copies acts as origin
from the next tick (R14, R487). -/
def State.tickLine (s : State) (l : Line) : State :=
  let x := s.lineOf l
  let s :=
    if x.stopNext then s.set (GTB.TRAY_STAT_ORIGIN l) 0
    else if x.actNext && s.lineState l = lnRUN then (s.set (GTB.TRAY_STAT_ORIGIN l) 1).set (GTB.TRAY_STAT_MISS_RUN l) 0
    else s
  let s := (s.withLine l fun x => { x with actNext := false, stopNext := false, missThis := false, windowOk := false }).enterRun l
  let apart := s.apart l ((s.cycle + 2 ^ 32 - 1) % 2 ^ 32)
  s.withLine l fun x =>
    let x := { x with lastA := s.nextA x }
    if apart then x else x.roll s.cycle true

/-- Every served line at a tick. -/
def State.tickLines (s : State) : State := s.each s.served fun l s => s.tickLine l

end Sys2Proof.Machine
end

