-- ==== Sys2Proof/Machine/KeyRequests.lean ====
section
/-! DEFINITION. KEY_REQ and KEY_GRANT (spec/13_security.md R391 to R393). -/

namespace Sys2Proof.Machine

/-- Time left of FREE in ns, 0 outside FREE. -/
def State.freeLeft (s : State) : Int :=
  if s.phase = 1 then (s.idleStart : Int) - s.sinceTick else 0

/-- A frame of `size` bytes on a backbone port ends with P before FREE does (R158). -/
def State.fitsFree (s : State) (p : BackbonePort) (size : Nat) : Bool :=
  decide ((wireNs (s.portCode p) (size + 20) : Int) + s.precision ≤ s.freeLeft)

/-- The window of MAC_BB in ns after the tick, in whole GRD_CLK periods: from the end of TRAY, or RETURN_END where a line takes part and that is later, to
IDLE (R82, R156). -/
def State.freeWindow (s : State) (start len : Int) : Bool :=
  let opens := if s.anyPartakes then max s.trayLen (s.get CYC.RETURN_END_AT) else s.trayLen
  s.phase = 1 && decide (grdUp opens ≤ start) && decide (start + len ≤ grdDown s.idleStart)

/-- The guardian lets a best-effort frame of `size` bytes leave the port now (R156, R157). -/
def State.bbAdmits (s : State) (p : BackbonePort) (size : Nat) : Bool :=
  !s.flag (GTB.TRAY_STAT_GRD_CLOSED p.line) && s.freeWindow s.sinceTick (wireNs (s.portCode p) size)

/-- The guardian lets the port originate frames (R157). -/
def State.mayOriginate (s : State) (p : BackbonePort) : Bool := !s.flag (GTB.TRAY_STAT_GRD_CLOSED p.line)

/-- The backbone ports a chip sends KEY_REQ from: lines not in OFF and links that are up (R393). -/
def State.keyPorts (s : State) : List BackbonePort :=
  (s.served.filter fun l => s.lineState l != lnOFF).flatMap fun l => (portsOf l).filter s.linkUp

/-- The chip needs the slice key of its epoch (R392): AUTH is set in its train, GTB mode, and it holds none. -/
def State.needsKey (s : State) : Bool :=
  s.sliceKeyNow.isNone && s.served.any fun l =>
    s.lineState l != lnOFF && !s.forerunner l && (((s.lineOf l).lastTray.any fun h => h.auth) ||
      ((s.lineState l == lnRUN || s.lineState l == lnPASSIVE) && s.forming.layout.any fun y => y.auth))

/-- The first 20 bytes of KEY_REQ. -/
def KeyReqFrame.head (f : KeyReqFrame) : List Byte :=
  [1, 0] ++ bytesBE 6 f.uid.toNat ++ bytesBE 8 f.nonce.toNat ++ bytesBE 2 f.epoch.toNat ++ [0, 0]

/-- The first 36 bytes of KEY_GRANT. -/
def KeyGrantFrame.head (f : KeyGrantFrame) : List Byte :=
  [2, 0] ++ bytesBE 6 f.uid.toNat ++ bytesBE 8 f.nonce.toNat ++ bytesBE 2 f.epoch.toNat ++ [0, 0] ++ bytesBE 4 f.gen.toNat
    ++ bytesBE 6 f.responder.toNat ++ List.replicate 6 0

/-- KEY_REQ, once in a cycle, from every port where it fits. A chip that runs no cycle yet has no FREE of its own: it asks in the FREE that the trays it hears give,
which its sender's instant stands for (log entry 126). -/
def State.sendKeyReq (s : State) : State :=
  if !s.needsKey || s.failSilent || (s.time.running && s.sec.asked) then s
  else match s.ownNodeKey, (s.keyPorts.filter fun p => (s.fitsFree p 64 || !s.time.running) && s.live (.gtb p.line) && s.mayOriginate p), s.random false with
    | some key, p :: ps, some (v, s) =>
      let f : KeyReqFrame := ⟨s.nodeUid, s.nodeUid, BitVec.ofNat 64 v, s.epoch, 0⟩
      let f := { f with mac := Config.cmac key f.head }
      let s := s.withSec fun k => { k with nonce := some f.nonce, asked := true }
      s.each (p :: ps) fun p s => (s.count SEC.KEY_REQ_TX_CNT).emit (.keyReq p f)
    | _, _, _ => s

def execKeyReqTx (s : State) : Host.Outcome State Fault Refusal := .next (if s.powered .sec then s.sendKeyReq else s)

/-- A KEY_REQ in the responder: at most 4 per port and cycle are taken, and only with a CMAC that verifies and its own epoch. -/
def State.takeKeyReq (s : State) (p : BackbonePort) (f : KeyReqFrame) : State :=
  match s.sec.fleet with
  | none => s
  | some fleet =>
    let n := s.sec.takenCount.getD (portIndex p) 0
    if s.lineState p.line != lnRUN || s.sliceKeyNow.isNone || s.sec.tgk.isNone || 4 ≤ n then s
    else if f.mac != Config.cmac (nodeKey fleet f.uid) f.head then s.count SEC.KEY_REQ_BAD_CNT
    else if f.epoch != s.epoch then s
    else s.withSec fun k => { k with taken := k.taken ++ [⟨p, f.uid, f.nonce⟩], takenCount := setAt k.takenCount (portIndex p) (n + 1) }

def execKeyReqRx (p : BackbonePort) (f : KeyReqFrame) (s : State) : Host.Outcome State Fault Refusal :=
  .next (if s.powered .sec && s.lineState p.line != lnOFF then s.takeKeyReq p f else s)

/-- One KEY_GRANT. -/
def State.grantKey (s : State) (q : TakenRequest) : State :=
  match s.sec.fleet, s.sec.tgk, s.random false with
  | some fleet, some tgk, some (v, s) =>
    let f : KeyGrantFrame := ⟨s.nodeUid, q.uid, q.nonce, s.epoch, BitVec.ofNat 32 (s.get SEC.KEY_GEN), s.nodeUid, BitVec.ofNat 96 v, 0, 0⟩
    let (ct, tag) := Config.gcmSeal (nodeKey fleet q.uid) f.iv f.head tgk
    (s.count SEC.KEY_GRANT_TX_CNT).emit (.keyGrant q.port { f with ct := ct, tag := tag })
  | _, _, _ => s

/-- The grants that fit what is left of FREE, in the order taken; the rest wait for the next FREE. -/
def State.sendGrants (s : State) : State :=
  let room (p : BackbonePort) (before : Nat) := s.fitsFree p ((before + 1) * 134 - 20)
  let split := s.sec.taken.foldl (fun (acc : List TakenRequest × List TakenRequest) q =>
    if room q.port (acc.1.filter fun x => x.port = q.port).length && s.linkUp q.port && s.mayOriginate q.port then (acc.1 ++ [q], acc.2)
    else (acc.1, acc.2 ++ [q])) ([], [])
  if s.failSilent || s.sliceKeyNow.isNone then s
  else (s.each split.1 fun q s => s.grantKey q).withSec fun k => { k with taken := split.2 }

def execKeyGrantTx (s : State) : Host.Outcome State Fault Refusal := .next (if s.powered .sec then s.sendGrants else s)

/-- The requester checks a grant and derives the slice key. -/
def State.takeGrant (s : State) (f : KeyGrantFrame) : State :=
  match s.ownNodeKey with
  | none => s
  | some key =>
    if f.uid != s.nodeUid || s.sec.nonce != some f.nonce || f.epoch != s.epoch || s.sliceKeyNow.isSome then s
    else match Config.gcmOpen key f.iv f.head f.ct f.tag with
      | none => s
      | some tgk =>
        ((((s.withSec fun k => { k with tgk := some tgk, current := some (sliceKey tgk f.epoch f.gen.toNat), nonce := none }).set
          SEC.KEY_GEN f.gen.toNat).set SEC.KEY_EPOCH f.epoch.toNat).raise .sec 10).showKeys

def execKeyGrantRx (p : BackbonePort) (f : KeyGrantFrame) (s : State) : Host.Outcome State Fault Refusal :=
  .next (if s.powered .sec && s.lineState p.line != lnOFF then s.takeGrant f else s)

/-- A tick opens a new KEY_REQ, a new roll-over and a new count of 4 requests per port, which those carried over fill first. -/
def State.tickRequests (s : State) : State :=
  s.withSec fun k => { k with rolled := false, asked := false, takenCount := (List.range 4).map fun i => (k.taken.filter fun q => portIndex q.port = i).length }

end Sys2Proof.Machine
end

