-- ==== Sys2Proof/Machine/Packet.lean ====
section
/-! DEFINITION. Ethernet frames as bytes (spec/09_ethernet_ports_and_switch.md R265, R275, R276, R284, R371): headers, VLAN tags, IP, UDP and
TCP checksums, the TRDP header and CRC-32. -/

namespace Sys2Proof.Machine

/-- A byte list's big-endian number at an offset. -/
def beAt (bs : List Byte) (off n : Nat) : Nat := natOfBE ((bs.drop off).take n)

/-- Replace bytes at an offset. -/
def putAt (bs : List Byte) (off : Nat) (v : List Byte) : List Byte := bs.take off ++ v ++ bs.drop (off + v.length)

/-! CRC-32 of IEEE 802.3 (R325, R371). -/

/-- One bit of the reflected CRC-32. -/
def crcBit (r : BitVec 32) : BitVec 32 := if r.getLsbD 0 then (r >>> 1) ^^^ 0xEDB88320 else r >>> 1

def crcByte (r : BitVec 32) (b : Byte) : BitVec 32 :=
  let r := r ^^^ b.setWidth 32
  crcBit (crcBit (crcBit (crcBit (crcBit (crcBit (crcBit (crcBit r)))))))

def crc32 (bs : List Byte) : BitVec 32 := ~~~(bs.foldl crcByte 0xFFFFFFFF)

/-! Ethernet. -/

/-- A frame as the switch holds it: addresses, the tag it carried, and what follows the tag from the EtherType on. -/
structure Eth where
  da : BitVec 48
  sa : BitVec 48
  tci : Option Nat
  body : List Byte
deriving DecidableEq, Repr

/-- Parse a frame without its FCS. -/
def Eth.ofBytes (bs : List Byte) : Eth :=
  let tagged := beAt bs 12 2 = 0x8100
  ⟨BitVec.ofNat 48 (beAt bs 0 6), BitVec.ofNat 48 (beAt bs 6 6), if tagged then some (beAt bs 14 2) else none, bs.drop (if tagged then 16 else 12)⟩

/-- A frame's bytes, with a tag or without. -/
def Eth.toBytes (e : Eth) (tag : Option Nat) : List Byte :=
  bytesBE 6 e.da.toNat ++ bytesBE 6 e.sa.toNat ++ (match tag with | some v => [0x81, 0x00] ++ bytesBE 2 v | none => []) ++ e.body

/-- The R-TAG's sequence number, if one follows the tag (R284). -/
def Eth.rtag (e : Eth) : Option Nat := if beAt e.body 0 2 = 0xF1C1 then some (beAt e.body 4 2) else none

/-- The body without its R-TAG. -/
def Eth.inner (e : Eth) : List Byte := if e.rtag.isSome then e.body.drop 6 else e.body

/-- The EtherType behind tags. -/
def Eth.etype (e : Eth) : Nat := beAt e.inner 0 2

/-- Add an R-TAG. -/
def Eth.addRtag (e : Eth) (seq : Nat) : Eth := { e with body := [0xF1, 0xC1, 0, 0] ++ bytesBE 2 seq ++ e.body }

/-- A unicast address. -/
def isUnicast (a : BitVec 48) : Bool := !a.getLsbD 40

/-! Internet checksums. -/

/-- The sum of 16-bit words, an odd byte padded with 0. -/
def wordSum : List Byte → Nat
  | [] => 0
  | [a] => a.toNat * 256
  | a :: b :: t => a.toNat * 256 + b.toNat + wordSum t

/-- Fold a sum to 16 bits with end-around carry. -/
def fold16 (v : Nat) : Nat :=
  let v := v / 65536 + v % 65536
  let v := v / 65536 + v % 65536
  v / 65536 + v % 65536

/-- The ones' complement checksum of bytes with a partial sum. -/
def checksum (bs : List Byte) (partialSum : Nat) : Nat := 0xFFFF - fold16 (wordSum bs + partialSum)

/-- An IP packet as R275 parses it: version, header length, the transport protocol and segment, whether it is a fragment or has extension
headers, and the pseudo-header's sum. -/
structure Ip where
  v4 : Bool
  hdr : Nat
  proto : Nat
  seg : List Byte
  frag : Bool
  ext : Bool
  pseudo : Nat
deriving DecidableEq, Repr

/-- IPv6 extension header numbers: hop-by-hop, routing, fragment, ESP, authentication, destination options, mobility. -/
def isExtHeader (n : Nat) : Bool := [0, 43, 44, 50, 51, 60, 135].contains n

/-- Parse the packet behind an EtherType. -/
def Ip.parse (etype : Nat) (p : List Byte) : Option Ip :=
  if etype = 0x0800 then
    let ihl := 4 * (beAt p 0 1 % 16)
    let total := beAt p 2 2
    if beAt p 0 1 / 16 = 4 && 20 ≤ ihl && ihl ≤ total && total ≤ p.length then
      let seg := (p.take total).drop ihl
      some ⟨true, ihl, beAt p 9 1, seg, beAt p 6 2 % 0x4000 != 0, false, wordSum ((p.drop 12).take 8) + beAt p 9 1 + seg.length⟩
    else none
  else if etype = 0x86DD then
    let len := beAt p 4 2
    if beAt p 0 1 / 16 = 6 && 40 + len ≤ p.length then
      let seg := (p.drop 40).take len
      some ⟨false, 40, beAt p 6 1, seg, false, isExtHeader (beAt p 6 1), wordSum ((p.drop 8).take 32) + beAt p 6 1 + seg.length⟩
    else none
  else none

/-- Where the transport checksum lies in the segment: UDP 6, TCP 16. -/
def Ip.csAt (i : Ip) : Option Nat :=
  if i.ext || i.frag then none
  else if i.proto = 17 && 8 ≤ i.seg.length then some 6
  else if i.proto = 6 && 20 ≤ i.seg.length then some 16
  else none

/-- UDP or TCP follows, as R275 asks of a frame that parses; a fragment's segment need not hold the header. -/
def Ip.parses (i : Ip) : Bool :=
  (i.proto = 17 && (i.frag || 8 ≤ i.seg.length)) || (i.proto = 6 && (i.frag || 20 ≤ i.seg.length))

/-- UDP payload to a port. -/
def Ip.udpTo (i : Ip) (port : Nat) : Option (List Byte) :=
  if i.proto = 17 && !i.ext && !i.frag && 8 ≤ i.seg.length && beAt i.seg 2 2 = port then some (i.seg.drop 8) else none

/-- The transport checksum of a segment whose checksum field is zero; UDP sends 0 as 0xFFFF. -/
def Ip.l4Sum (i : Ip) (seg : List Byte) (at_ : Nat) : Nat :=
  let v := checksum (putAt seg at_ [0, 0]) i.pseudo
  if i.proto = 17 && v = 0 then 0xFFFF else v

/-- The TRDP header FCS over 36 bytes, stored least significant byte first (IEC 61375-2-3; PRESUMED, log entry 44). -/
def trdpFcs (hdr : List Byte) : List Byte := (bytesBE 4 (crc32 (hdr.take 36)).toNat).reverse

/-- Insert the requested checksums in R275's order: the frame and whether one was skipped. -/
def Eth.insertSums (e : Eth) (ip l4 trdp : Bool) (port : Nat) : Eth × Bool :=
  if !ip && !l4 && !trdp then (e, false)
  else match (Ip.parse e.etype (e.inner.drop 2)).filter Ip.parses with
    | none => (e, true)
    | some i =>
      let lead := e.body.length - e.inner.length + 2
      let data := i.udpTo port
      let okT := trdp && data.any fun d => 40 ≤ d.length
      let seg := if okT then putAt i.seg 44 (trdpFcs (i.seg.drop 8)) else i.seg
      let okL := l4 && i.csAt.isSome
      let seg := match i.csAt with
        | some a => if l4 then putAt seg a (bytesBE 2 (i.l4Sum seg a)) else seg
        | none => seg
      let body := putAt e.body (lead + i.hdr) seg
      let okI := ip && i.v4
      let body := if okI then
          putAt body (lead + 10) (bytesBE 2 (checksum (putAt ((body.drop lead).take i.hdr) 10 [0, 0]) 0))
        else body
      ({ e with body := body }, (ip && !okI) || (l4 && !okL) || (trdp && !okT))

/-- The received IPv4 checksum: 0 not IPv4, 1 good, 2 bad (R274). -/
def Eth.ipCheck (e : Eth) : Nat :=
  match Ip.parse e.etype (e.inner.drop 2) with
  | some i => if i.v4 then (if checksum ((e.inner.drop 2).take i.hdr) 0 = 0 then 1 else 2) else 0
  | none => 0

/-- The received transport checksum: 0 not checked, 1 good, 2 bad; a UDP checksum of 0 over IPv4 is not checked. -/
def Eth.l4Check (e : Eth) : Nat :=
  match Ip.parse e.etype (e.inner.drop 2) with
  | some i => match i.csAt with
    | some a => if i.v4 && i.proto = 17 && beAt i.seg a 2 = 0 then 0 else if checksum i.seg i.pseudo = 0 then 1 else 2
    | none => 0
  | none => 0

/-- The payload of a TRDP telegram (R275): UDP to the port, 40 bytes or more. -/
def Eth.trdp (e : Eth) (port : Nat) : Option (List Byte) :=
  match Ip.parse e.etype (e.inner.drop 2) with
  | some i => (i.udpTo port).filter fun d => 40 ≤ d.length
  | none => none

/-- The received TRDP header FCS: 0 not a telegram, 1 good, 2 bad. -/
def Eth.trdpCheck (e : Eth) (port : Nat) : Nat :=
  match e.trdp port with
  | some d => if (d.drop 36).take 4 = trdpFcs d then 1 else 2
  | none => 0

end Sys2Proof.Machine
end

