-- ==== Sys2Proof/Machine/SwitchOps.lean ====
section
/-! DEFINITION. The switch's tables, buffer, queues and rings (spec/09_ethernet_ports_and_switch.md R263 to R274, R281, R288; spec/12_bridges.md
R353, R358, R362). -/

namespace Sys2Proof.Machine

def State.withSwitch (s : State) (f : Switch → Switch) : State := { s with switch := f s.switch }

/-- Ports 8 to 11 as backbone ports (R260). -/
def backbonePort (q : Nat) : BackbonePort := ⟨if q < 10 then .A else .B, if q % 2 = 0 then .front else .rear⟩

def isBackbone (q : Nat) : Bool := 8 ≤ q && q < 12

def State.etbOn (s : State) : Bool := s.flag SW.ETB_CTRL_ETB_EN

/-- The switch runs. -/
def State.switchOn (s : State) : Bool := s.live .sw && s.flag SW.SW_CTRL_EN

/-- A port runs. -/
def State.portOn (s : State) (q : Nat) : Bool := s.live (.mac q) && s.flag (MAC.MAC_CTRL_EN q)

/-- The interface code of ports 0 to 11. -/
def State.ifCode (s : State) (q : Nat) : Nat := if isBackbone q then s.portCode (backbonePort q) else s.get (MAC.MAC_CTRL_IF q)

/-- The longest frame of a port, FCS included (R263, R289); ports 12 to 14 take HP_CFG.MAX (log entry 45). -/
def State.maxFrame (s : State) (q : Nat) : Nat :=
  [1518, 1522, 2000, 9018].getD (s.get (if q < 12 then MAC.MAC_CTRL_MAX q else SW.HP_CFG_MAX)) 1518

/-! Tables. -/

def vlanWord (vid w : Nat) : Nat := 0x680000 + 8 * vid + 4 * w
def staticWord (i w : Nat) : Nat := 0x688000 + 16 * i + 4 * w
def filterWord (i w : Nat) : Nat := 0x689000 + 32 * i + 4 * w
def genWord (i w : Nat) : Nat := 0x68D000 + 16 * i + 4 * w
def recWord (i w : Nat) : Nat := 0x68E000 + 32 * i + 4 * w
def gclWord (q bank k : Nat) : Nat := 0x690000 + 0x800 * q + 0x400 * bank + 4 * k

/-- The VLAN is valid (R265). -/
def State.vlanValid (s : State) (vid : Nat) : Bool := vid != 0 && vid != 4095 && bitOf (s.beWord (vlanWord vid 0)) 31

def State.vlanMember (s : State) (vid : Nat) : Nat := s.beWord (vlanWord vid 0) % 2 ^ 15
def State.vlanUntag (s : State) (vid : Nat) : Nat := s.beWord (vlanWord vid 1) % 2 ^ 15
def State.vlanLines (s : State) (vid : Nat) : Nat := s.beWord (vlanWord vid 1) / 2 ^ 16 % 4
def State.vlanFailover (s : State) (vid : Nat) : Bool := bitOf (s.beWord (vlanWord vid 1)) 18

/-- The ports of a mask. -/
def portsOfMask (m : Nat) : List Nat := (List.range 15).filter fun q => bitOf m q

/-- A static entry for an address: its index (R266). -/
def State.staticEntry (s : State) (vid : Nat) (mac : BitVec 48) : Option Nat :=
  lowest 256 fun i => let w := s.beWord (staticWord i 1)
    bitOf w 31 && w / 2 ^ 16 % 2 ^ 12 = vid && w % 2 ^ 16 * 2 ^ 32 + s.beWord (staticWord i 0) = mac.toNat

/-- The learned entry for an address. -/
def State.learned (s : State) (vid : Nat) (mac : BitVec 48) : Option FdbEntry := s.switch.fdb.find? fun e => e.vid = vid && e.mac = mac

/-- Seconds since an entry was refreshed, up to 4,095. -/
def State.fdbAge (s : State) (e : FdbEntry) : Nat := min 4095 ((s.ltcNs - e.refreshed).toNat / 1000000000)

/-- A backbone port as its aggregation group shows it in ETB mode (R288). -/
def State.groupPort (s : State) (q : Nat) : Nat := if s.etbOn && isBackbone q then 8 + q % 2 else q

/-- Learning (R266): an entry moves, refreshes or is added at the lowest free index. -/
def State.learn (s : State) (vid : Nat) (mac : BitVec 48) (q : Nat) : State :=
  if !s.flag SW.SW_CTRL_LEARN || !isUnicast mac || (s.staticEntry vid mac).isSome then s
  else match s.learned vid mac with
    | some e => s.withSwitch fun x => { x with fdb := x.fdb.map fun f =>
        if f = e then { f with port := q, refreshed := s.ltcNs } else f }
    | none =>
      match lowest 8192 fun i => !(s.switch.fdb.any fun e => e.index = i) with
      | some i => (s.withSwitch fun x => { x with fdb := x.fdb ++ [⟨i, mac, vid, q, s.ltcNs⟩] }).set SW.FDB_CNT (s.switch.fdb.length + 1)
      | none => s.countRaise SW.FDB_FULL_CNT .sw 8

/-- FDB_AGE_OUT (R266). -/
def execFdbAgeOut (e : BitVec 13) (s : State) : Host.Outcome State Fault Refusal :=
  .next (match s.switch.fdb.find? fun x => x.index = e.toNat with
    | some x =>
      if s.live .sw && s.get SW.SW_CTRL_AGE ≤ s.fdbAge x then
        (s.withSwitch fun y => { y with fdb := y.fdb.filter fun z => z != x }).set SW.FDB_CNT (s.switch.fdb.length - 1)
      else s
    | none => s)

/-- A stream filter that matches: its index is the handle (R282). -/
def State.filterOf (s : State) (q vid : Nat) (e : Eth) : Option Nat :=
  lowest 512 fun i => let w := s.beWord (filterWord i 0)
    let a := s.beWord (filterWord i 2) % 2 ^ 16 * 2 ^ 32 + s.beWord (filterWord i 1)
    bitOf w 31 && bitOf (w / 2 ^ 15) q && w % 2 ^ 12 = vid && a = (if bitOf w 30 then e.sa else e.da).toNat

/-- The enabled function of a handle in a table of 256. -/
def State.functionFor (s : State) (word0 : Nat → Nat) (handle : Nat) : Option Nat :=
  lowest 256 fun i => let w := s.beWord (word0 i)
    bitOf w 31 && w % 2 ^ 9 = handle

/-! Backbone rules (R268). -/

/-- The backbone ports of a line forward. -/
def State.lineForwards (s : State) (l : Line) : Bool :=
  s.etbOn || [lnRUN, lnPASSIVE, lnLONE, lnFORERUNNER].contains (s.lineState l)

/-- The port of the other line on the same side: R268 sends a frame on the line BB_LINES selects, and where its entry names a port of the other
line the spec does not say on which of the selected line's two ports (DESIGN CHOICE, log entry 185). -/
def mirrorPort (q : Nat) : Nat := if q < 10 then q + 2 else q - 2

/-- The lines a VLAN selects, with failover (R268). -/
def State.entryLines (s : State) (vid : Nat) : List Line :=
  match s.vlanLines vid with
  | 0 => []
  | 1 => if s.vlanFailover vid && !s.lineForwards .A then [.B] else [.A]
  | 2 => if s.vlanFailover vid && !s.lineForwards .B then [.A] else [.B]
  | _ => [.A, .B]

/-- The active member of an aggregation group, front for even ports (R288). -/
def State.groupMember (s : State) (e : Eth) (q : Nat) : Option Nat :=
  let up := [8 + q % 2, 10 + q % 2].filter fun p => bitOf (s.get SW.ETB_CTRL_GRP_UP) (p - 8)
  up[Config.groupHash e.sa e.da % up.length]?

/-- The egress set under R268 and R288, with how many lines had to drop the frame. `allowed` masks the ports that may be in it: the VLAN's
members (R267), or a telegram's PORTS (R277). -/
def State.backboneRules (s : State) (inPort vid allowed : Nat) (e : Eth) (set : List Nat) : List Nat × Nat :=
  let own := set.filter fun q => !isBackbone q
  if s.etbOn then
    let groups := ((set.filter isBackbone).map fun q => 8 + q % 2).dedup
    let groups := if !isBackbone inPort && s.vlanLines vid = 0 then [] else groups
    let groups := groups.filter fun q => !(isBackbone inPort && q % 2 = inPort % 2)
    (own ++ groups.filterMap (s.groupMember e), 0)
  else
    let due :=
      if isBackbone inPort then set.filter fun q => isBackbone q && (backbonePort q).line = (backbonePort inPort).line
      else
        let bb := set.filter isBackbone
        (bb ++ bb.map mirrorPort).dedup.filter fun q => bitOf allowed q && (s.entryLines vid).contains (backbonePort q).line
    let down := ([Line.A, Line.B].filter fun l => !s.lineForwards l && due.any fun q => (backbonePort q).line = l).length
    (own ++ due.filter fun q => s.lineForwards (backbonePort q).line, down)

/-! The buffer and the queues (R270). -/

/-- Cells in use: a frame that waits on several ports is stored once (log entry 46). -/
def State.cellsUsed (s : State) : Nat :=
  (s.switch.queues.foldl (fun (acc : List Nat × Nat) x => if acc.1.contains x.id then acc else (x.id :: acc.1, acc.2 + x.cells)) ([], 0)).2

/-- Cells held by frames a port received (R281). -/
def State.cellsFrom (s : State) (q : Nat) : Nat :=
  (s.switch.queues.foldl (fun (acc : List Nat × Nat) x =>
    if x.inPort ≠ q || acc.1.contains x.id then acc else (x.id :: acc.1, acc.2 + x.cells)) ([], 0)).2

def State.cellsTotal (s : State) : Nat := 8192 - 256 * s.get SW.BUF_CFG_TRDP_POOL

def State.showBuffer (s : State) : State := s.set SW.BUF_STAT s.cellsUsed

/-- The frames of a queue, first to leave first. -/
def State.queueOf (s : State) (q g : Nat) : List Queued := s.switch.queues.filter fun x => x.port = q && x.queue = g

/-- Cells of a frame of 256 bytes each. -/
def cellsOf (n : Nat) : Nat := (n + 255) / 256

def State.swPort (s : State) (q : Nat) : SwPort := s.switch.ports.getD q SwPort.reset
def State.withPort (s : State) (q : Nat) (f : SwPort → SwPort) : State := s.withSwitch fun x => { x with ports := modifyAt x.ports q f }

/-- Place a frame's copies in the egress queues, leaving out the ports it is too long for. Answers whether any copy was placed. The spec does not
say whether cells hold the FCS, nor which drop counts a frame that both finds no free cells and exceeds QLIM: cells hold no FCS, and the free
cells are asked for first (DESIGN CHOICE, log entry 187). -/
def State.enqueue (s : State) (copies : List (Nat × List Byte)) (queueAt : Nat → Nat) (inPort : Nat) (ring : Option Nat) (telegram : Bool) :
    State × Bool :=
  let copies := copies.filter fun c => s.portOn c.1
  let (fit, long) := copies.partition fun c => (padded c.2).length + 4 ≤ s.maxFrame c.1
  let s := s.each long fun c s => s.count (MAC.TX_OVERSIZE_CNT c.1)
  let cells := fit.foldl (fun m c => max m (cellsOf (padded c.2).length)) 0
  if fit.isEmpty then (s, false)
  else if s.cellsTotal < s.cellsUsed + cells then (s.countRaise SW.BUF_DROP_CNT .sw 9, false)
  else
    let id := s.switch.nextId
    let s := s.withSwitch fun x => { x with nextId := id + 1 }
    let (s, any) := fit.foldl (fun (acc : State × Bool) c =>
      let (s, any) := acc
      let g := queueAt c.1
      let held := ((s.queueOf c.1 g).map Queued.cells).sum
      if s.get SW.QLIM < held + cells then (s.count SW.QLIM_DROP_CNT, any)
      else (s.withSwitch fun x => { x with queues := x.queues ++
        [(⟨id, c.1, g, inPort, padded c.2, cells, s.ltcNs, ring, telegram, false⟩ : Queued)] }, true)) (s, false)
    (s.showBuffer, any)

/-- Take a frame out of its queue; where it was the head, the next one becomes the head now. -/
def State.dequeue (s : State) (x : Queued) : State :=
  let headed := (s.queueOf x.port x.queue).head? = some x
  let s := s.withSwitch fun y => { y with queues := y.queues.erase x }
  (match (s.queueOf x.port x.queue).head? with
    | some h => s.when headed fun s => s.withSwitch fun y => { y with queues := y.queues.replace h { h with headAt := s.ltcNs } }
    | none => s).showBuffer

/-! PAUSE on transmit (R281). -/

/-- A PAUSE frame's bytes without FCS, from the chip's own UID (R122). -/
def State.pauseBytes (s : State) (quanta : Nat) : List Byte :=
  padded ([0x01, 0x80, 0xC2, 0x00, 0x00, 0x01] ++ bytesBE 6 s.chipUid.toNat ++ [0x88, 0x08, 0x00, 0x01] ++ bytesBE 2 quanta)

/-- A PAUSE frame leaves a port; a backbone port's guardian cuts it outside FREE or while it closes originations (R156, R157). -/
def State.sendPause (s : State) (q quanta : Nat) : State :=
  let p := backbonePort q
  let good := !isBackbone q || s.etbOn || s.bbAdmits p 64
  if s.failSilent then s
  else ((s.when (!good) fun s => s.count (GTB.GRD_BLOCK_CNT p.line)).count (MAC.PAUSE_TX_CNT q)).emit (.ethFrame q (s.pauseBytes quanta) good)

/-- The level of received frames has changed: above XOFF a PAUSE goes out, at XON or below one with quanta 0. -/
def State.checkPause (s : State) (q : Nat) : State :=
  if 12 ≤ q || !s.portOn q || !s.flag (MAC.MAC_CTRL_PAUSE_TX_EN q) then s
  else
    let held := s.cellsFrom q
    match (s.swPort q).pausing with
    | none =>
      if s.get (MAC.PAUSE_THR_XOFF q) < held then
        (s.sendPause q (s.get (MAC.PAUSE_TX_QUANTA q))).withPort q fun p => { p with pausing := some s.ltcNs }
      else s
    | some _ =>
      if held ≤ s.get (MAC.PAUSE_THR_XON q) then (s.sendPause q 0).withPort q fun p => { p with pausing := none } else s

/-! Rings (R273, R274). -/

/-- Where a ring's descriptors and buffers lie in the device: the ring window or engine shared memory; `none` for host memory. -/
def State.ringSpace (s : State) (g : Nat) : Option Nat :=
  match g / 16 with
  | 0 => if s.flag SW.HP_CFG_RING_LOC then some 0xF80000 else none
  | 1 => some (sharedMem .A)
  | _ => some (sharedMem .B)

/-- The memory of a ring answers: no quarantine has cut it off (R39). -/
def State.ringReaches (s : State) (g : Nat) : Bool :=
  match g / 16 with
  | 0 => true
  | 1 => !s.quarantined .A
  | _ => !s.quarantined .B

/-- Store into a device memory; engine shared memory keeps the STAGE of its objects equal (R230). -/
def State.storeSpace (s : State) (base off : Nat) (bs : List Byte) : State :=
  let s := s.setBytes (base + off) bs
  if base = sharedMem .A then s.setBytes (sharedStage .A + off) bs
  else if base = sharedMem .B then s.setBytes (sharedStage .B + off) bs
  else s

/-- The PCIe bridge passes outbound requests (R362). -/
def State.pcieUp (s : State) : Bool := s.live .pcie && s.flag PCIE.PCIE_STAT_DL_UP && s.flag PCIE.PCIE_STAT_BME && !s.flag PCIE.PCIE_STAT_D3HOT

/-! Host memory (R355, R358). -/

/-- Max_Payload_Size, at most 512 bytes, and Max_Read_Request_Size in use (R357). -/
def State.payloadMax (s : State) : Nat := 128 * 2 ^ min 2 s.bridges.config.payload.toNat
def State.requestMax (s : State) : Nat := 128 * 2 ^ min 5 s.bridges.config.request.toNat

/-- Cut a range of host memory into parts of at most `k` bytes that cross no 4 KB boundary: their offsets and lengths. -/
def cutHost (k addr : Nat) : Nat → Nat → Nat → List (Nat × Nat)
  | 0, _, _ => []
  | f + 1, offs, n =>
    let m := min n (min k (4096 - (addr + offs) % 4096))
    if n = 0 then [] else (offs, m) :: cutHost k addr f (offs + m) (n - m)

/-- An outbound write to host memory; while the link is down or in D3hot it is dropped and counted. -/
def State.hostWrite (s : State) (addr : BitVec 64) (bs : List Byte) : State :=
  if s.pcieUp then
    s.each (cutHost s.payloadMax addr.toNat bs.length 0 bs.length) fun p s =>
      s.emit (.hostWrite (addr + BitVec.ofNat 64 p.1) ((bs.drop p.1).take p.2))
  else s.count PCIE.OUT_DROP_CNT

/-- A descriptor word, least significant byte first (R353). -/
def leBytes (n v : Nat) : List Byte := (bytesBE n v).reverse

def State.leAt (s : State) (a n : Nat) : Nat := natOfBE (s.bytes a n).reverse

def State.ringBase (s : State) (g : Nat) : BitVec 64 := BitVec.ofNat 64 (s.get64 (SW.RING_BASE_LO g) (SW.RING_BASE_HI g))

/-- The ring is on: 16 to 4,096 entries in powers of two. -/
def State.ringSize (s : State) (g : Nat) : Nat :=
  let n := s.get (SW.RING_SIZE g)
  if [16, 32, 64, 128, 256, 512, 1024, 2048, 4096].contains n then n else 0

/-- The descriptor at HEAD: address and word 2, and for a host ring the frame data where fetched. -/
structure HeadDesc where
  addr : BitVec 64
  word2 : Nat
  data : Option (Option (List Byte))
deriving DecidableEq, Repr

/-- The descriptor at HEAD, where the ring holds one the device can use; `some none` where its fetch failed. -/
def State.headDesc (s : State) (g : Nat) : Option (Option HeadDesc) :=
  let head := s.get (SW.RING_PTR_HEAD g)
  if s.ringSize g = 0 || head = s.get (SW.RING_PTR_TAIL g) then none
  else match s.ringSpace g with
    | some base =>
      if !s.ringReaches g then some none else
      let a := base + (s.ringBase g).toNat + 16 * head
      let addr := BitVec.ofNat 64 (s.leAt a 8)
      let w2 := s.leAt (a + 8) 4
      some (some ⟨addr, w2, some (some (s.bytes (base + addr.toNat) (w2 % 2 ^ 14)))⟩)
    | none =>
      match s.switch.descs.find? fun d => d.ring = g && d.index = head with
      | some d => match d.words with
        | some (a, w) => some (some ⟨a, w.toNat, d.data⟩)
        | none => some none
      | none => none

/-- Write the descriptor at HEAD back and advance HEAD. -/
def State.finishDesc (s : State) (g : Nat) (addr : BitVec 64) (word2 word3 : Nat) : State :=
  let head := s.get (SW.RING_PTR_HEAD g)
  let bs := leBytes 8 addr.toNat ++ leBytes 4 word2 ++ leBytes 4 word3
  let s := match s.ringSpace g with
    | some base => if s.ringReaches g then s.storeSpace base ((s.ringBase g).toNat + 16 * head) bs else s
    | none => s.hostWrite (s.ringBase g + BitVec.ofNat 64 (16 * head)) bs
  let s := s.set (SW.RING_PTR_HEAD g) ((head + 1) % s.ringSize g)
  s.withSwitch fun x => { x with descs := x.descs.filter fun d => !(d.ring = g && d.index = head) }

/-- A transmit descriptor ends (R274): OWN clears, DONE and the results are written; IRQ sets the ring's bit. -/
def State.finishTx (s : State) (g : Nat) (d : HeadDesc) (stamp : Option (BitVec 64)) (bits : Nat) : State :=
  let s := s.finishDesc g (stamp.getD d.addr) (d.word2 % 2 ^ 31) (2 ^ 31 + bits)
  if bitOf d.word2 26 then
    let r := if g < 32 then SW.RING_INT_LO else SW.RING_INT_HI
    (s.update r fun v => v ||| 2 ^ (g % 32)).raise .sw 14
  else s

/-- The frame of a ring's waiting descriptor has started, or will never start: TS_REQ's write-back (R274). -/
def State.reportStart (s : State) (x : Queued) (stamp : Option (BitVec 64)) : State :=
  match x.ring with
  | some g =>
    match s.switch.awaiting.find? fun a => a.ring = g && a.ids.contains x.id with
    | some a =>
      let s := s.withSwitch fun y => { y with awaiting := y.awaiting.filter fun b => b != a }
      match s.headDesc g with
      | some (some d) => s.finishTx g d stamp (2 ^ 30 + if a.skip then 2 ^ 26 else 0)
      | _ => s
    | none => s
  | none => s

/-- A copy that leaves its queue without being sent; the last one answers a descriptor that waits for its start. -/
def State.discard (s : State) (x : Queued) : State :=
  let s := s.dequeue x
  let ids := match s.switch.awaiting.find? fun a => a.ids.contains x.id with | some a => a.ids | none => [x.id]
  let s := if s.switch.queues.any fun y => ids.contains y.id then s else s.reportStart x none
  s.checkPause x.inPort

/-! Fetching from host memory (R358). -/

/-- What the cuts of an outbound read have brought, in order. -/
def HostFetch.bytes (f : HostFetch) : List Byte := (f.parts.mergeSort fun a b => a.1 ≤ b.1).flatMap Prod.snd

/-- The ring of an outbound read. -/
def OutRead.ring : OutRead → Nat
  | .desc g _ => g
  | .data g _ => g

/-- Issue the cuts that wait while fewer than 256 are outstanding. -/
def State.issuePieces (s : State) : State :=
  let ps := s.bridges.waiting
  ({ s with bridges := { s.bridges with waiting := [] } }).each ps fun p s =>
    match lowest 256 fun t => !(s.bridges.reads.any fun (x : OutTag) => x.tag = t) with
    | some t =>
      let s := { s with bridges := { s.bridges with reads := s.bridges.reads ++ [(⟨t, p, s.ltcNs⟩ : OutTag)] } }
      (s.set PCIE.PCIE_STAT_OUTSTANDING s.bridges.reads.length).emit (.hostRead t p.addr p.len)
    | none => { s with bridges := { s.bridges with waiting := s.bridges.waiting ++ [p] } }

/-- Ask for an outbound read. -/
def State.issueRead (s : State) (r : OutRead) (addr : BitVec 64) (len : Nat) : State :=
  let cuts := (cutHost s.requestMax addr.toNat len 0 len).map fun c => (⟨r, c.1, addr + BitVec.ofNat 64 c.1, c.2⟩ : OutPiece)
  ({ s with bridges := { s.bridges with
    waiting := s.bridges.waiting ++ cuts, fetches := s.bridges.fetches ++ [(⟨r, [], cuts.length, false⟩ : HostFetch)] } }).issuePieces

/-- Fetch the descriptor at an index of a host ring. -/
def State.fetchDesc (s : State) (g i : Nat) : State := s.issueRead (.desc g i) (s.ringBase g + BitVec.ofNat 64 (16 * i)) 16

/-- Fetch the next descriptors a host ring has handed over. -/
def State.fetchDescs (s : State) (g : Nat) : State :=
  if (s.ringSpace g).isSome || s.ringSize g = 0 || !s.pcieUp then s
  else (List.range 256).foldl (fun s _ =>
    let next := s.switch.fetched.getD g 0
    if next = s.get (SW.RING_PTR_TAIL g) || 256 ≤ s.bridges.reads.length then s
    else (s.fetchDesc g next).withSwitch fun x => { x with fetched := setAt x.fetched g ((next + 1) % s.ringSize g) }) s

/-- A receive descriptor whose fetch failed has dropped its frame (R358); it is fetched again for the next one. -/
def State.refetch (s : State) (g : Nat) : State :=
  let head := s.get (SW.RING_PTR_HEAD g)
  let s := s.withSwitch fun x => { x with descs := x.descs.filter fun d => !(d.ring = g && d.index = head) }
  if s.pcieUp then s.fetchDesc g head else s.withSwitch fun x => { x with fetched := setAt x.fetched g head }

/-- Deliver a frame to a receive ring of port 12, 13 or 14 (R274). A frame longer than their maximum does not leave on them; they have no
TX_OVERSIZE_CNT (R264, R290). -/
def State.deliverRing (s : State) (port : Nat) (bs : List Byte) (pcp vid inPort : Nat) (rtag tagged : Bool) (checks : Nat) (sof : BitVec 64) : State :=
  let g := 16 * (port - 12) + 8 + pcp
  if s.maxFrame port < bs.length + 4 then s
  else match s.headDesc g with
  | some (some d) =>
    if d.word2 % 2 ^ 14 < bs.length then s.count SW.RX_RING_FULL_CNT
    else
      let s := match s.ringSpace g with
        | some base => s.storeSpace base d.addr.toNat bs
        | none => s.hostWrite d.addr bs
      s.finishDesc g sof bs.length (2 ^ 31 + (if rtag then 2 ^ 30 else 0) + checks * 2 ^ 24 + (if tagged then 2 ^ 23 else 0)
        + inPort * 2 ^ 19 + pcp * 2 ^ 16 + vid)
  | some none => (s.count SW.RX_RING_FULL_CNT).when (s.ringSpace g).isNone fun s => s.refetch g
  | none => s.count SW.RX_RING_FULL_CNT

/-- RING_TAIL_WRITE (R273). -/
def State.writeTail (s : State) (g tail : Nat) : State := if g < 48 then (s.set (SW.RING_PTR_TAIL g) tail).fetchDescs g else s

/-- RING_TAIL_WRITE. -/
def execRingTailWrite (g : BitVec 6) (tail : BitVec 16) (s : State) : Host.Outcome State Fault Refusal :=
  .next (if s.powered .sw then s.writeTail g.toNat tail.toNat else s)

end Sys2Proof.Machine
end

