-- ==== Sys2Proof/Machine/Twin.lean ====
section
/-! DEFINITION. The twin block and the slice cut (spec/11_twin_pairs.md R321 to R348; spec/06_the_loaf.md R184, R185). Events that fall on a tick
(LEASE_END, CLAIM, STARTUP_COUNT_REACHED, HANDOVER_TICK) are taken directly before the TICK of the same number (log entry 52). -/

namespace Sys2Proof.Machine

/-- The number of the tick that comes next. -/
def State.nextTick (s : State) : Nat := (s.cycle + 1) % 2 ^ 32

/-- The twin block takes messages and acts (R321, R322). -/
def State.twinRuns (s : State) : Bool := s.twin && s.live .twin && !s.flag TWIN.TWIN_STAT_CFG_BAD

/-- Straps wired alike (R322). -/
def State.twinCfgBad (s : State) : State :=
  let before := s
  let s := (s.setFlag TWIN.TWIN_STAT_CFG_BAD true).raise .twin 19
  ((s.setHat hatOFF s.cycle).dropHatOut).recheckLines before

/-- What every message header tells (R322, R325, R333). -/
def State.noteHeader (s : State) (h : TwinHeader) : State :=
  let s := (s.setFlag TWIN.TWIN_STAT_PEER_READY h.ready).withTwin fun t =>
    { t with peerHat := h.hatState.toNat, peerReleased := h.released }
  s.when (s.twinUnit.outgoing.isSome && h.hatState.toNat = hatWEARING && h.released) State.dropHatOut

/-- A message from the peer. -/
def State.onTwin (s : State) (h : TwinHeader) (f : State → State) : State :=
  if !s.twinRuns then s
  else if h.twinId = s.junior then s.twinCfgBad
  else (f (s.noteHeader h)).refreshTwin

/-- The message of cycle `n` arrives at or after tick n+1 (R327). -/
def State.lateFor (s : State) (n : BitVec 32) : Bool := s.valid && decide (0 < cyclesAfter s.cycle n)

/-! Lease, claim and start-up. -/

/-- GRANT(n) (R327). -/
def State.grant (s : State) (n : BitVec 32) : State :=
  let s := (s.set TWIN.LAST_GRANT n.toNat).withTwin fun t => { t with granted := true }
  s.sendTwin (.grant n ((s.twinUnit.committed.map StateEpoch.num).getD 0) (BitVec.ofNat 8 (s.unable s.cycle)) s.twinUnit.unsure)

/-- RENEW_RX (R327, R332): a chip in PARTITIONED or NONE becomes standby. -/
def execRenewRx (hdr : TwinHeader) (cycle : BitVec 32) (lease : BitVec 8) (s : State) : Host.Outcome State Fault Refusal :=
  .next <| s.onTwin hdr fun s =>
    if s.lateFor cycle then s.count TWIN.LATE_MSG_CNT
    else if s.hat = hatOFF || s.hat = hatWEARING then s
    else
      let before := s
      let s := s.when (s.hat != hatSTANDBY) fun s => s.setHat hatSTANDBY s.cycle
      let s := s.withTwin fun t => { t with renewed := some cycle, peerLease := lease.toNat }
      let s := (s.recheckLines before).settleHat
      s.when (s.hat = hatSTANDBY) fun s => s.grant cycle

/-- GRANT_RX (R327, R328, R334, R335). -/
def execGrantRx (hdr : TwinHeader) (cycle _epochNum : BitVec 32) (_unable : BitVec 8) (unsure : Bool) (s : State) :
    Host.Outcome State Fault Refusal :=
  .next <| s.onTwin hdr fun s =>
    if s.lateFor cycle then s.count TWIN.LATE_MSG_CNT
    else if s.hat != hatWEARING then s
    else
      let s := (s.set TWIN.LAST_GRANT cycle.toNat).withTwin fun t => { t with unready := !hdr.ready }
      let s := s.when (s.flag TWIN.TWIN_STAT_PEER_LOST) fun s =>
        (s.setFlag TWIN.TWIN_STAT_PEER_LOST false).raise .twin 11
      let s := s.when (hdr.ready && s.twinUnit.blocked) fun s => s.tryHandover s.handoverTick
      s.when unsure State.sendRefresh

/-- The chip stops wearing without a handover and enters PARTITIONED (R328, R347). -/
def State.partition (s : State) : State :=
  let before := s
  let s := ((s.setHat hatPARTITIONED s.nextTick).raise .twin 12).dropHatOut
  s.recheckLines before

/-- LEASE_END (R328). -/
def execLeaseEnd (s : State) : Host.Outcome State Fault Refusal :=
  .next (
    if s.twinRuns && s.hat = hatWEARING && !s.flag TWIN.TWIN_STAT_PEER_LOST
        && (s.get TWIN.LEASE_CFG_LEASE : Int) ≤ cyclesAfter s.nextTick (BitVec.ofNat 32 (s.get TWIN.LAST_GRANT)) then
      if s.get TWIN.TWIN_STAT_HBT_IN = 0 then ((s.setFlag TWIN.TWIN_STAT_PEER_LOST true).count TWIN.PEER_LOST_CNT).raise .twin 10
      else s.partition.count TWIN.PARTITION_CNT
    else s)

/-! Mirror windows (R338 to R342). -/

/-- A mirror window's start and length in units of 64 bytes. -/
def State.windowAt (s : State) (w : Nat) : Nat × Nat := (s.get (TWIN.MIRROR_CFG_OFFS w), s.get (TWIN.MIRROR_LEN w))

/-- The memory a window names: 0 shared memory, or a role's D-TCM, with its channel; channel A in LOCKED mode (R338). -/
def State.windowMem (s : State) (w : Nat) : Option Nat × Line :=
  (if s.flag (TWIN.MIRROR_CFG_KIND w) then none else some (s.get (TWIN.MIRROR_CFG_ROLE w)),
   if s.flag (TWIN.MIRROR_CFG_CH w) && !s.lockedMode then .B else .A)

/-- The window ends within its memory: 64 KB of D-TCM, 256 KB of shared memory. -/
def State.windowFits (s : State) (w : Nat) : Bool :=
  let x := s.windowAt w
  match (s.windowMem w).1 with
  | some r => r < 15 && x.1 + x.2 ≤ 1024
  | none => x.1 + x.2 ≤ 4096

/-- Two windows share a byte. -/
def State.windowsMeet (s : State) (v w : Nat) : Bool :=
  let a := s.windowAt v
  let b := s.windowAt w
  s.windowMem v == s.windowMem w && a.1 < b.1 + b.2 && b.1 < a.1 + a.2

/-- The windows in use, in order (R338, R350). -/
def State.windows (s : State) : List Nat :=
  (List.range 16).filter fun w => s.flag (TWIN.MIRROR_CFG_EN w) && s.windowFits w
    && !((List.range 16).any fun v => v != w && s.flag (TWIN.MIRROR_CFG_EN v) && s.windowsMeet v w)

/-- The model addresses a window's bytes are written to. -/
def State.windowTargets (s : State) (w : Nat) : List Nat :=
  let off := 64 * (s.windowAt w).1
  let chans := if s.lockedMode then [Line.A, Line.B] else [(s.windowMem w).2]
  match (s.windowMem w).1 with
  | some r => chans.map fun c => tcmD c r + off
  | none => chans.flatMap fun c => [sharedMem c + off, sharedStage c + off]

/-- The content of the windows in use, in window order. -/
def State.windowBytes (s : State) : List Byte :=
  s.windows.flatMap fun w => s.bytes ((s.windowTargets w).headD 0) (64 * (s.windowAt w).2)

/-- Write data over the windows, in window order. -/
def State.writeWindows (s : State) (ws : List Nat) (data : List Byte) : State :=
  match ws with
  | [] => s
  | w :: t =>
    let n := 64 * (s.windowAt w).2
    ((s.windowTargets w).foldl (fun s a => s.setBytes a (data.take n)) s).writeWindows t (data.drop n)

/-- CRC-32 of the MIRROR registers: their words in address order, most significant byte first (R325; PRESUMED, log entry 53). -/
def State.mirrorCrc (s : State) : BitVec 32 :=
  crc32 ((List.range 16).flatMap fun w =>
    bytesBE 4 (s.get (TWIN.MIRROR_CFG_EN w) * 2 ^ 31 + s.get (TWIN.MIRROR_CFG_KIND w) * 2 ^ 30 + s.get (TWIN.MIRROR_CFG_CH w) * 2 ^ 29
      + s.get (TWIN.MIRROR_CFG_ROLE w) * 2 ^ 24 + s.get (TWIN.MIRROR_CFG_OFFS w)) ++ bytesBE 4 (s.get (TWIN.MIRROR_LEN w)))

/-- The restore of R342: only an epoch of the current topology epoch. -/
def State.restoreEpoch (s : State) : State :=
  match s.twinUnit.committed with
  | some e => if e.topo = s.epoch then s.writeWindows s.windows e.data else s
  | none => s

/-- The chip takes the hat at tick `t` (R332, R333). -/
def State.takeHat (s : State) (t : Nat) (restore : Bool) : State :=
  let s := ((s.setHat hatWEARING t).set TWIN.LAST_GRANT t).withTwin fun x =>
    { x with tookAt := some (BitVec.ofNat 32 t), heldAt := some (BitVec.ofNat 32 t), outgoing := none }
  s.when restore State.restoreEpoch

/-- Take it by CLAIM(t). -/
def State.claimHat (s : State) (t : Nat) (restore : Bool) : State :=
  (s.takeHat t restore).sendTwin (.claim (BitVec.ofNat 32 t))

/-- CLAIM: the claim rule of R329, at each tick from g + L + GUARD on. -/
def execClaim (s : State) : Host.Outcome State Fault Refusal :=
  .next (
    let s := s.refreshTwinAt s.nextTick
    if s.twinRuns && s.hat = hatSTANDBY && s.twinUnit.granted
        && ((s.leaseSpan + s.guardSpan : Nat) : Int) ≤ cyclesAfter s.nextTick (BitVec.ofNat 32 (s.get TWIN.LAST_GRANT))
        && s.unable s.nextTick = 0 then
      if s.get TWIN.TWIN_STAT_HBT_IN = 2 then s.count TWIN.CLAIM_DEFER_CNT
      else (s.claimHat s.nextTick true).refreshTwinAt s.nextTick
    else s)

/-- The start-up count as the next tick makes it (R331). -/
def State.startCount (s : State) : Nat :=
  if s.hat = hatNONE && (s.twinUnit.startTicks != 0 || s.chipUnable = 0) then s.twinUnit.startTicks + 1 else s.twinUnit.startTicks

/-- STARTUP_COUNT_REACHED (R331): a chip for which one of the causes 0x1 to 0x5 has come since does not claim (R330); no EPOCH_HEAD has come yet, and so
no cause 0x6 counts. -/
def execStartupCountReached (s : State) : Host.Outcome State Fault Refusal :=
  .next (
    if s.twinRuns && s.hat = hatNONE
        && s.get (if s.junior then TWIN.LEASE_CFG_START_JUNIOR else TWIN.LEASE_CFG_START_SENIOR) ≤ s.startCount then
      if !s.junior || s.lorzelUp || s.get TWIN.TWIN_STAT_HBT_IN = 0 then (if s.chipUnable = 0 then s.claimHat s.nextTick false else s)
      else s.partition
    else s)

/-- CLAIM_RX (R331, R332): the claim tick is a held tick of both chips (R333). -/
def execClaimRx (hdr : TwinHeader) (tick : BitVec 32) (s : State) : Host.Outcome State Fault Refusal :=
  .next <| s.onTwin hdr fun s =>
    let s := s.when (s.hat != hatOFF && decide (cyclesAfter s.cycle tick < 0)) fun s => s.withTwin fun t => { t with heldAt := some tick }
    if s.hat = hatNONE then (s.setHat hatSTANDBY s.cycle).grant tick
    else if s.hat = hatWEARING && s.twinUnit.tookAt = some tick then
      if s.junior then
        (if s.valid && 0 < cyclesAfter s.cycle tick then s
         else ((s.setHat hatSTANDBY s.cycle).dropHatOut).grant tick)
      else s.count TWIN.CLAIM_DEFER_CNT
    else s

/-! Handover (R333, R334). -/

/-- TWIN_CTRL.HANDOVER written: 1 requests, 0 withdraws the request (R334). -/
def State.writeHandover (s : State) (on : Bool) : State :=
  let s := (s.when (s.flag TWIN.TWIN_CTRL_HANDOVER != on) fun s => s.stampConfig .twin).setFlag TWIN.TWIN_CTRL_HANDOVER on
  if s.handoverCause.isSome then s.tryHandover s.handoverTick else s.withTwin fun t => { t with blocked := false }

/-- HANDOVER. -/
def execHandover (on : Bool) (s : State) : Host.Outcome State Fault Refusal :=
  .next (if s.powered .twin then s.writeHandover on else s)

/-- HANDOVER_RX: a READY standby acknowledges (R332). -/
def execHandoverRx (hdr : TwinHeader) (tick : BitVec 32) (_cause : BitVec 8) (s : State) : Host.Outcome State Fault Refusal :=
  .next <| s.onTwin hdr fun s =>
    if s.hat = hatSTANDBY && s.unable s.cycle = 0 && decide (cyclesAfter s.cycle tick < 0) then
      (s.sendTwin (.handoverAck tick)).withTwin fun t => { t with handoverAt := some tick }
    else s

/-- HANDOVER_ACK_RX (R333, R334). -/
def execHandoverAckRx (hdr : TwinHeader) (tick : BitVec 32) (s : State) : Host.Outcome State Fault Refusal :=
  .next <| s.onTwin hdr fun s =>
    if s.hat = hatWEARING && s.twinUnit.handoverAt = some tick && decide (cyclesAfter s.cycle tick < 0) then
      s.withTwin fun t => { t with acked := true }
    else s

/-- HANDOVER_TICK: the hat changes chips at tick h, or the wearer tries again (R333, R334). The outgoing chip counts the handover as a grant of
cycle h (log entry 54). -/
def execHandoverTick (s : State) : Host.Outcome State Fault Refusal :=
  .next (
    let t := s.nextTick
    if s.twinRuns && s.twinUnit.handoverAt = some (BitVec.ofNat 32 t) then
      if s.hat = hatWEARING then
        if s.twinUnit.acked then
          let s := ((s.setHat hatSTANDBY t).count TWIN.HANDOVER_CNT).setFlag TWIN.TWIN_CTRL_HANDOVER false
          ((s.set TWIN.LAST_GRANT t).withTwin fun x => { x with
            granted := true, heldAt := some (BitVec.ofNat 32 t), outgoing := some (BitVec.ofNat 32 t)
            keptOut := BitVec.ofNat 32 (s.get GPIO.OUT) }).settleHat
        else
          let s := s.withTwin fun x => { x with handoverAt := none }
          let s := s.tryHandover ((t + 1) % 2 ^ 32)
          s.when s.twinUnit.handoverAt.isSome fun s => s.count TWIN.HANDOVER_RETRY_CNT
      else if s.hat = hatSTANDBY then
        (s.takeHat t true).count TWIN.HANDOVER_CNT |>.withTwin fun x => { x with handoverAt := none }
      else s.withTwin fun x => { x with handoverAt := none }
    else s)

/-- HAT_OUT_RELEASE: the outgoing wearer's HAT_OUT ends (R333). -/
def execHatOutRelease (s : State) : Host.Outcome State Fault Refusal :=
  .next (
    match s.twinUnit.outgoing with
    | some h =>
      if (s.twinUnit.peerHat = hatWEARING && s.twinUnit.peerReleased) || decide (2 ≤ cyclesAfter s.cycle h) then s.dropHatOut else s
    | none => s)

/-- TWIN_CTRL.HOST_GRANT written (R332): claim tick c is the next tick, without restore. -/
def State.writeHostGrant (s : State) (v : Nat) : State :=
  if s.twinRuns && s.hat = hatPARTITIONED && v = 0xB4A7 && s.get TWIN.TWIN_STAT_HBT_IN = 0
      && s.leaseSpan + s.guardSpan ≤ s.twinUnit.hbtSilentTicks then
    let before := s
    ((s.claimHat s.nextTick false).recheckLines before).settleHat
  else s

/-- HOST_GRANT. -/
def execHostGrant (v : BitVec 16) (s : State) : Host.Outcome State Fault Refusal := .next (s.writeHostGrant v.toNat)

/-! The dough across the pair (R335, R336). -/

/-- MERGE_RX. -/
def execMergeRx (hdr : TwinHeader) (mseq offs : BitVec 16) (refresh ready doubtful : Bool) (dough : List Byte) (s : State) :
    Host.Outcome State Fault Refusal :=
  .next <| s.onTwin hdr fun s =>
    if s.hat = hatWEARING || s.hat = hatOFF then s
    else
      let u := s.twinUnit
      let gap := mseq != u.mseqIn + 1
      let run := if gap then 0 else u.refreshRun
      let run := if !refresh then run else if offs = 0 then 1 else if offs.toNat = 496 * run && run != 0 then run + 1 else 0
      let s := s.withTwin fun t => { t with
        mseqIn := mseq, unsure := (t.unsure || gap) && run != 4, refreshRun := if run = 4 then 0 else run }
      let s := s.each ((List.range dough.length).zip dough) fun x s =>
        if offs.toNat + x.1 < 1928 then s.each [Line.A, Line.B] fun k s => s.setByte (doughAddr k + offs.toNat + x.1) x.2 else s
      (s.setReady ready).setDoubtfulReq doubtful

/-- CUT_RECORD_RX (R336): one that comes after the standby's own CUT is not used; one whose MSEQ is not that of the last merge received shows a
gap (log entry 55). -/
def execCutRecordRx (hdr : TwinHeader) (cycle : BitVec 32) (seq : BitVec 16) (flags : SliceFlags) (write : Bool) (len mseq : BitVec 16)
    (s : State) : Host.Outcome State Fault Refusal :=
  .next <| s.onTwin hdr fun s =>
    if s.hat = hatSTANDBY && cycle.toNat = s.cycle && !s.capture.taken then
      s.withTwin fun t => { t with
        unsure := t.unsure || mseq != t.mseqIn
        cutRecord := some ⟨cycle, seq, flags, write, len, s.bytes (doughAddr s.doughChannel) 1928, s.ttcNs⟩ }
    else s

/-- CUT_LATE (R336): nothing is written. -/
def State.cutLate (s : State) : State :=
  { (s.count TWIN.CUT_LATE_CNT) with capture := ⟨.none, [], false, false, 0, true, false⟩ }

/-- Where a line's CUT point lies, in ns after the tick: CUT_LEAD before the outward instant expected, the last measured plus CYCLE_LEN; in a
standby the deadline of the CUT record, 300 ns before that instant; none where the line takes no cut (R81, R336). -/
def State.cutPoint (s : State) (l : Line) : Option Int :=
  let lead : Int := if s.twin && s.hat = hatSTANDBY then 300 else s.get CYC.CUT_LEAD
  if s.lineState l = lnOFF then none
  else if s.sendsTray l then some (s.get CYC.TX_OFFS - lead)
  else (s.lineOf l).lastA.map fun a => s.afterTick (a + BitVec.ofNat 64 (4 * s.cycleLen)) - lead

/-- The earliest cut point of the lines, the tick sequence being over (R81, R184). -/
def State.cutInstant (s : State) : Option Int := ((s.served.filterMap s.cutPoint).map fun p => max 100 p).min?

/-- The cut point has been reached. -/
def State.cutDue (s : State) : Bool := s.cutInstant.any fun p => decide (p ≤ s.sinceTick)

/-- By how many ns a CUT record has met its deadline; negative where it is late (R336). -/
def State.recordMargin (s : State) (r : CutRecord) : Int := s.cutInstant.getD s.sinceTick - (r.arrived - s.tickNs).toInt

/-- The standby's CUT, at the deadline of the record (R335, R336). -/
def State.standbyCut (s : State) : State :=
  let n := s.captureLen
  if s.twinUnit.unsure then s.cutLate
  else
    match s.twinUnit.cutRecord.filter fun r => decide (0 ≤ s.recordMargin r) with
    | some r =>
      let s := (s.update TWIN.CUT_MARGIN (min (s.recordMargin r).toNat)).setHold false
      if !r.write then { s with capture := ⟨.none, [], false, false, 0, true, false⟩ }
      else if r.flags.hold then
        { s with capture := ⟨.hold, s.bytes (holdAddr s.doughChannel) n, r.flags.doubtful, r.flags.hat, r.seq, true, false⟩ }
      else
        let s := { s with capture := ⟨.fresh, fit n (r.dough.take r.len.toNat), r.flags.doubtful, r.flags.hat, r.seq, true, false⟩ }
        s.each [Line.A, Line.B] fun k s => s.set (LOAF.DOUGH_LEN k) n
    | none =>
      if s.twinUnit.renewed = some (BitVec.ofNat 32 s.cycle) then
        ((s.setHold false).cutLate.raise .twin 15).update TWIN.CUT_MARGIN fun _ => 0
      else
        let s := s.setHold true
        if s.holdCopy.valid then
          { s with capture := ⟨.hold, s.bytes (holdAddr s.doughChannel) n, s.holdCopy.doubtful, false,
            BitVec.ofNat 16 (s.get (LOAF.DOUGH_SEQ .A)), true, false⟩ }
        else { s with capture := ⟨.none, [], false, false, 0, true, false⟩ }

/-- The CUT record of the wearer's capture (R336). -/
def State.sendCutRecord (s : State) : State :=
  let k := s.capture
  let flags : SliceFlags := { noFlags with fresh := k.kind = .fresh, hold := k.kind = .hold, hat := true, doubtful := k.doubtful }
  s.sendTwin (.cut (BitVec.ofNat 32 s.cycle) k.seq flags (k.kind != .none) (BitVec.ofNat 16 s.captureLen) s.twinUnit.mseqOut)

/-- CUT (R184): one per cycle, at the earliest cut point of the lines; CUT_EARLY_CNT where CUT_LEAD would place it inside the tick sequence. -/
def execCut (s : State) : Host.Outcome State Fault Refusal :=
  .next (
    let points := s.served.filterMap s.cutPoint
    if !s.time.running || s.capture.taken || !s.cutDue || !s.channels.any (fun c => s.live (.loaf c)) then s
    else
      let single := !s.twin
      let hat := s.hat
      let lone := s.served.any fun l => s.lineState l == lnLONE
      let s := s.when ((single || hat != hatSTANDBY) && points.any fun p => p < 100) fun s => (s.count (LOAF.CUT_EARLY_CNT .A))
      let s := s.kneaderCut.set CYC.CUT_AT s.sinceTick.toNat
      let s :=
        if single then s.cut
        else if hat = hatWEARING then s.cut.sendCutRecord
        else if hat = hatSTANDBY then s.standbyCut
        else { s with capture := ⟨.none, [], false, false, 0, true, false⟩ }
      s.endCut.when lone State.writeLone)

/-! State epochs (R339 to R341). -/

/-- The 16 bytes of EPOCH_HEAD (R325). -/
def epochHeadBytes (h : TwinHeader) (num len crc : BitVec 32) : List Byte :=
  [0x20, BitVec.ofNat 8 ((if h.twinId then 128 else 0) + (if h.ready then 64 else 0) + h.hatState.toNat * 8 + if h.released then 4 else 0)]
    ++ bytesBE 2 h.epoch.toNat ++ bytesBE 4 num.toNat ++ bytesBE 4 len.toNat ++ bytesBE 4 crc.toNat

/-- The snapshot of the cycle that ended, and its transfer (R339). -/
def State.sendEpoch (s : State) (n : Nat) : State :=
  if s.twin && s.hat = hatWEARING && s.lorzelUp && (s.twinUnit.peerHat = hatNONE || s.twinUnit.peerHat = hatSTANDBY)
      && s.mayTransmit .twin && s.mayTransmit .lzl then
    let data := s.windowBytes
    let num := BitVec.ofNat 32 n
    let len := BitVec.ofNat 32 data.length
    let crc := s.mirrorCrc
    let head := epochHeadBytes s.twinHeader num len crc
    let s := s.sendTwin (.epochHead num len crc)
    let s := (s.each (cutBytes 512 data) fun p s => s.sendLink (.epochData p.2) 0).sendTwin (.epochCommit num (crc32 (head ++ data)))
    (s.set TWIN.EPOCH_NUM n).set TWIN.EPOCH_LEN data.length
  else s

/-- EPOCH_FAIL (R340). -/
def State.epochFail (s : State) : State :=
  ((s.count TWIN.EPOCH_DISCARD_CNT).raise .twin 14).withTwin fun t => { t with incoming := none }

/-- EPOCH_HEAD_RX (R340). -/
def execEpochHeadRx (hdr : TwinHeader) (num len crc : BitVec 32) (s : State) : Host.Outcome State Fault Refusal :=
  .next <| s.onTwin hdr fun s =>
    if s.hat != hatSTANDBY && s.hat != hatNONE then s
    else
      let s := s.when s.twinUnit.incoming.isSome State.epochFail
      let same := crc == s.mirrorCrc
      let s := s.withTwin fun t => { t with headOk := same }
      if same then
        (s.set TWIN.EPOCH_LEN len.toNat).withTwin fun t => { t with incoming := some (num, hdr.epoch, epochHeadBytes hdr num len crc) }
      else (s.count TWIN.MIRROR_MISMATCH_CNT).raise .twin 17

/-- EPOCH_COMMIT_RX, with the data received since EPOCH_HEAD (R340). -/
def execEpochCommitRx (hdr : TwinHeader) (num crc : BitVec 32) (data : List Byte) (s : State) : Host.Outcome State Fault Refusal :=
  .next <| s.onTwin hdr fun s =>
    match s.twinUnit.incoming with
    | none => s
    | some (n, topo, head) =>
      if n = num && crc32 (head ++ data) = crc && data.length = natOfBE ((head.drop 8).take 4) && !s.lateFor (n + 1) then
        (s.set TWIN.EPOCH_NUM n.toNat).withTwin fun t => { t with incoming := none, committed := some ⟨n, topo, data⟩ }
      else s.epochFail

/-! The heartbeat wire (R326). -/

/-- The code of a pulse width: within ±250 ns of 1, 2 or 3 µs. -/
def hbtCode (width : Nat) : Option Nat := [1, 2, 3].find? fun c => 1000 * c ≤ width + 250 && width ≤ 1000 * c + 250

/-- HBT_PULSE_RX: width in ns and the TTC at which the pulse started. -/
def execHbtPulseRx (widthNs : BitVec 16) (start : BitVec 64) (s : State) : Host.Outcome State Fault Refusal :=
  .next (
    if s.twinRuns then
      match hbtCode widthNs.toNat with
      | none => s
      | some c =>
        let d := (start - s.tickNs).toInt - 100
        let w : Int := s.precision + 500
        (s.set TWIN.TWIN_STAT_HBT_IN c).withTwin fun t => { t with
          hbtSeen := t.hbtSeen || (decide (-w ≤ d) && decide (d ≤ w))
          hbtEarly := t.hbtEarly || (decide (-w ≤ d - s.cycleLen) && decide (d - s.cycleLen ≤ w)) }
    else s)

/-- HBT_LOST: the second tick in a row without a pulse (R326). -/
def execHbtLost (s : State) : Host.Outcome State Fault Refusal :=
  .next (
    if s.twinRuns && s.get TWIN.TWIN_STAT_HBT_IN != 0 && 1 ≤ s.twinUnit.hbtMiss && !s.twinUnit.hbtSeen
        && decide ((100 + s.precision + 500 : Int) < s.sinceTick) then
      ((s.set TWIN.TWIN_STAT_HBT_IN 0).count TWIN.HBT_LOST_CNT).raise .twin 16
    else s)

/-! What a tick does to the pair. -/

/-- Start of tick `t` = s.cycle: whether this tick is held (`gap`), and the counts of R326, R330, R331 and R340. -/
def State.tickTwin (s : State) (before : State) (gap : Bool) : State :=
  if !s.twinRuns then s
  else
    let n := BitVec.ofNat 32 s.cycle
    let held := s.twinUnit.heldAt = some n
    let s := s.withTwin fun t => { t with
      startTicks := before.startCount
      hbtMiss := if t.hbtSeen then 0 else t.hbtMiss + 1
      hbtSeen := t.hbtEarly
      hbtEarly := false
      hbtSilentTicks := if s.get TWIN.TWIN_STAT_HBT_IN = 0 then t.hbtSilentTicks + 1 else 0
      heldAt := none
      cutRecord := none
      refreshed := false }
    let s := s.when held fun s => s.count TWIN.HELD_TICK_CNT
    let s := s.setFlag TWIN.TWIN_STAT_GAP gap
    let s := match s.twinUnit.incoming with
      | some (k, _, _) => if 1 < cyclesAfter s.cycle k then s.epochFail else s
      | none => s
    s.refreshTwin

/-- The chip of a pair makes no release at tick `t` (R219, R328, R333): a claim or handover tick, a wearer past its lease, or a standby that has
had no RENEW of the cycle that ends, whose node then makes none either, as a partitioned chip, which has none (R343; log entry 56). -/
def State.twinHolds (s : State) (t : Nat) : Bool :=
  s.twin && (s.twinUnit.heldAt = some (BitVec.ofNat 32 t)
    || (s.hat = hatWEARING && !s.flag TWIN.TWIN_STAT_PEER_LOST
        && decide ((s.get TWIN.LEASE_CFG_LEASE : Int) ≤ cyclesAfter t (BitVec.ofNat 32 (s.get TWIN.LAST_GRANT))))
    || ((s.hat = hatSTANDBY || s.hat = hatPARTITIONED) && s.twinUnit.renewed != some (BitVec.ofNat 32 t - 1)))

/-- Clock 40 of the tick sequence (R326, R327, R333, R339): the first release and HAT_OUT, RENEW, the epoch, the heartbeat. -/
def State.twinClock40 (s : State) (release : Bool) : State :=
  if !s.twinRuns then s
  else
    let s := s.when (release && s.hat = hatWEARING) fun s =>
      (s.setFlag TWIN.TWIN_STAT_HAT_OUT true).withTwin fun t => { t with released := true }
    let s := s.when (s.hat = hatWEARING) fun s =>
      s.sendTwin (.renew (BitVec.ofNat 32 s.cycle) (BitVec.ofNat 8 (s.get TWIN.LEASE_CFG_LEASE)))
    let s := s.when release fun s => s.sendEpoch ((s.cycle + 2 ^ 32 - 1) % 2 ^ 32)
    let us := if s.hat = hatWEARING then 2 else if s.hat = hatPARTITIONED then 3 else 1
    s.when (s.hat != hatOFF && s.mayTransmit .twin) fun s => s.emit (.hbtPulse us)

end Sys2Proof.Machine
end

