-- ==== Sys2Proof/Machine/Reset.lean ====
section
/-! DEFINITION. Power domains and resets (spec/16_power_clocks_reset.md R431 to R435, R444, R446; spec/17_register_pages.md R455;
spec/02_inside_the_device.md R51, R54). -/

namespace Sys2Proof.Machine

/-- The life-cycle state and identity as OTP gives them, the state being the highest that either copy shows (R383, R400, R461). -/
def State.loadOtp (s : State) : State :=
  let uid := (s.otp.uid.getD 0).toNat
  let s := s.set SEC.LC_STATE (max s.otp.lifeA s.otp.lifeB)
  let s := ((s.set CHIP.UID_LO (uid % 2 ^ 32)).set CHIP.UID_HI (uid / 2 ^ 32)).set SEC.UID_LO (uid % 2 ^ 32)
  let s := s.set SEC.UID_HI (uid / 2 ^ 32)
  s.each (List.range 4) fun v s => s.set (SEC.SEC_VER_MIN v) (s.otp.rollback.getD v 0)

/-- Sample the straps (R446); SENIOR shows TWIN_ID (R350). -/
def State.sampleStraps (s : State) (bootSrc : Nat) (twinId : Bool) : State :=
  ((s.set PWR.STRAP_BOOT_SRC bootSrc).setFlag PWR.STRAP_TWIN_ID twinId).setFlag TWIN.TWIN_STAT_SENIOR (!twinId)

/-- Everything returns to its reset state but the OTP; the model's own records stay. -/
def State.fullReset (s : State) : State :=
  ({ State.reset with
      otp := s.otp
      sec := { Sec.reset with drbgDraws := s.sec.drbgDraws }
      sent := s.sent
      freeDraws := s.freeDraws
      pending := s.pending } : State).loadOtp

/-- What the resets of R444's second to fourth row keep: fault latch, FAULT_CYCLE, RST_CAUSE and the brown-out counters. -/
def keptOverReset : List Reg :=
  [PWR.FAULT_LATCH_VALID, PWR.FAULT_LATCH_REGION, PWR.FAULT_LATCH_CAUSE, PWR.FAULT_LATCH_CELL, PWR.FAULT_CYCLE, PWR.RST_CAUSE_BO_SEEN,
   PWR.RST_CAUSE_LC, PWR.RST_CAUSE_SOFT, PWR.RST_CAUSE_VDD, PWR.RST_CAUSE_PIN, PWR.RST_CAUSE_POR, PWR.BO_WARN_CNT, PWR.BO_LONG_CNT]

/-- A reset of the second to fourth row, with its bit of RST_CAUSE. -/
def State.chipReset (s : State) (cause : Reg) : State :=
  let t := s.fullReset.sampleStraps (s.get PWR.STRAP_BOOT_SRC) (s.flag PWR.STRAP_TWIN_ID)
  (t.each keptOverReset fun r t => t.set r (s.get r)).updateFlag cause

/-! Blocks. -/

/-- Remove every register field of a page from offset `from_` on: it reads its reset value. -/
def State.clearPage (s : State) (base from_ len : Nat) : State :=
  { s with regs := s.regs.filter fun e => !(decide (base + from_ ≤ e.1 / 32) && decide (e.1 / 32 < base + len)) }

/-- Every proofing run ends without a result: its cell is restored (R409). -/
def State.endRuns (s : State) : State :=
  let s := s.each (List.range 5) fun t s =>
    match (s.rotation t).run with
    | some r => s.leaveProof t r.cell (r.ended == some 2)
    | none => s
  match s.proof.maint with
  | none => s
  | some m =>
    let pages := if m.target = 2 then (List.range 8).map Page.can ++ (List.range 2).map Page.mvb else match m.target with
      | 1 => [.sw] | 3 => [.gtb m.chan] | 4 => [.eng m.chan m.index] | 5 => [.knd m.chan] | _ => [.sec]
    let s := s.each pages fun p s => (s.setFlag (HDR.PAGE_STAT_PROOF_BUSY p) false).setFlag (HDR.PAGE_STAT_ACC_DEFERRED p) false
    s.when (m.target = 4) fun s => s.set (ENG.ENG_STAT_STATE m.chan m.index)
      (if s.flag (HDR.PAGE_STAT_FAULT (.eng m.chan m.index)) then 5 else if (s.roleAt m.chan m.index).isSome then 0 else 3)

/-- The working state of a page's block beyond registers and memories returns to its reset state. -/
def State.resetBlock (s : State) (p : Page) : State :=
  match p with
  | .chip | .pwr | .clk | .intc | .gpio => s
  | .time => s.withTime fun t => { TimeUnit.reset with ltc := t.ltc, ttc := t.ttc, cycleLenK := t.cycleLenK, running := t.running }
  | .cyc => s.withTime fun t => { t with
      running := false, ticked := false, firstTick := true, cycleLenK := 16, cycleLenNext := none, marks := TimeUnit.reset.marks, marksFired := [] }
  | .sec => ((s.clearRange 0x100200 0x200).withSec fun k => { k with chal := none, waiting := none, nonce := none, taken := [], takenCount := [0, 0, 0, 0] }).showKeys
  | .gtb l => s.withLine l fun x =>
    let port (q : PortState) : PortState := { q with linkSeen := false, couplerSeen := false }
    { LineState.reset with front := port x.front, rear := port x.rear }
  | .loaf c => (s.withLoaf c fun x => { Loaf.reset with banks := x.banks }).showDrafts
  | .knd c => s.withKneader c fun k => { Kneader.reset with uidMap := k.uidMap, badWords := k.badWords, deadLanes := k.deadLanes }
  | .eng c i =>
    match s.roleAt c i with
    | some r => s.withRoleOf c r fun k => { Role.reset with image := k.image, view := s.get (LOAF.BANK_STAT_LATEST c) }
    | none => s
  | .sw => s.withSwitch fun w => { Switch.reset with fdb := w.fdb, ports := w.ports, asPorts := w.asPorts }
  | .mac m => s.withSwitch fun w => { w with
      ports := modifyAt w.ports m fun _ => SwPort.reset, asPorts := if m < 8 then modifyAt w.asPorts m fun _ => AsPort.reset else w.asPorts }
  | .can c => s.withCan c fun _ => CanBus.reset
  | .mvb j => s.withMvb j fun _ => MvbBus.reset
  | .twin => s.withTwin fun _ => Twin.reset
  | .lzl => { s with bridges := { s.bridges with
      seen := [], early := [], dueSeq := [], laneSeq := [], outSeq := [], badCrc := [], copyParts := [], remoteWrites := [], epochData := [], hostReads := s.bridges.hostReads.map fun (r : HostRead) => { r with link := none } } }
  | .pcie => { s with bridges := { s.bridges with
      config := PcieConfig.reset, reads := [], waiting := [], fetches := [], hostReads := s.bridges.hostReads.filter fun (r : HostRead) => r.bridge != .pcie } }
  | .qspi => { s with bridges := { s.bridges with
      slot := none, frames := 0, hostReads := s.bridges.hostReads.filter fun (r : HostRead) => r.bridge != .qspi } }
  | .cpl => { s with tags := List.replicate 4 TagPort.reset }
  | .prf => { s.endRuns with proof := Proof.reset }

/-- Registers that show what lies outside a page's own block: a block reset leaves them (log entry 57). -/
def shownElsewhere (p : Page) : List Reg :=
  match p with
  | .chip => [CHIP.UID_LO, CHIP.UID_HI, CHIP.CH_MODE_QUAR_A, CHIP.CH_MODE_QUAR_B, CHIP.CH_MODE_LOCK_LOST, CHIP.CHIP_STAT_FAIL_SILENT,
      CHIP.CHIP_STAT_BOOT_DONE]
  | .pwr => [PWR.PD_CTRL, PWR.PD_STAT_ON, PWR.PD_STAT_SEQ_BUSY, PWR.SUP_STAT_BO_STATE, PWR.SUP_STAT_TJ_WIN, PWR.SUP_STAT_VDD_WIN,
      PWR.SUP_STAT_BO_LONG, PWR.SUP_STAT_BO_ACTIVE, PWR.TJ, PWR.STRAP_BOOT_SRC, PWR.STRAP_TWIN_ID, PWR.PUSH_STAT_PUSH, PWR.PUSH_STAT_READY]
      ++ keptOverReset
  | .clk => [CLK.CLK_STAT_FAB_LOCK, CLK.CLK_STAT_ENG_LOCK, CLK.CLK_STAT_SDS0_LOCK, CLK.CLK_STAT_SDS1_LOCK, CLK.CLK_STAT_PCIE_LOCK]
  | .sec => [SEC.LC_STATE, SEC.UID_LO, SEC.UID_HI] ++ (List.range 4).map SEC.SEC_VER_MIN
      ++ [SEC.KEY_STAT_FLEET, SEC.KEY_STAT_TGK, SEC.KEY_STAT_CUR, SEC.KEY_STAT_NEXT, SEC.TRNG_STAT_HEALTHY, SEC.TRNG_STAT_SERVING,
          SEC.TRNG_STAT_REQS, SEC.KEY_GEN, SEC.KEY_EPOCH]
  | .eng c i => [ENG.ROLE_MAP_LO c i, ENG.ROLE_MAP_HI c i, ENG.ROLE_VALID c i, ENG.ENG_STAT_ROLE c i, ENG.IMAGE_ID c i, ENG.SEC_VER c i]
      ++ (if s5 c i then [ENG.ENG_STAT_STATE c i] else [])
  | .gpio => [GPIO.IN]
  | .mac m => (List.range (if m < 8 then 1 else 4)).map fun j => MAC.MAC_STAT_LINK (m + j)
  | .twin => [TWIN.TWIN_STAT_LANES_UP, TWIN.TWIN_STAT_SENIOR, TWIN.TWIN_STAT_CFG_BAD]
  | _ => []
where
  /-- Spare and failed engines keep their state; a role's engine is halted. -/
  s5 (_c : Line) (i : Nat) : Bool := i = 15

/-- SOFT_RESET (R444, R455): INT_RAW, INT_EN, ERR_INFO and every register from 0x040 on, with the block's working state; memories stay. The bit
reads 1 for 16 fabric clocks. -/
def State.softReset (s : State) (p : Page) : State :=
  let before := s
  let own (u : HwUpdate) := p.headerBase ≤ u.key / 32 && u.key / 32 < p.headerBase + 0x1000
  let s : State := { s with updates := s.updates.filter fun u => !own u }
  let s := ((s.set (HDR.INT_RAW p) 0).set (HDR.INT_EN p) 0).set (HDR.ERR_INFO_CLASS p) 0
  let s := ((s.set (HDR.ERR_INFO_CAUSE p) 0).set (HDR.ERR_INFO_CELL p) 0).set (HDR.ERR_INFO_WORD p) 0
  let s := if p = .mac 8 then s.each [Page.mac 8, .mac 9, .mac 10, .mac 11] fun q s => s.resetBlock q else s.resetBlock p
  let s := s.clearPage p.headerBase 0x40 0x1000
  let s : State := { s with softResets := s.softResets.filter (fun x => x.1 != p.headerBase) ++ [(p.headerBase, 16)] }
  let s := s.each (shownElsewhere p) fun r s => s.set r (before.get r)
  let s := match p with
    | .eng c i => (match s.roleAt c i with
      | some r => s.showRole c r
      | none => s.set (ENG.ENG_STAT_STATE c i) (before.get (ENG.ENG_STAT_STATE c i)))
    | _ => s
  (s.recheckLines before).settleHat

/-- SOFT_RESET (R455): refused while CFG_LOCK is set. -/
def State.requestSoftReset (s : State) (p : Page) : State :=
  if !s.powered p then s else if s.locked p then s.refuse p else s.softReset p

def execSoftReset (p : Page) (s : State) : Host.Outcome State Fault Refusal := .next (s.requestSoftReset p)

/-! Domains (R431 to R435). -/

/-- The memories of a domain as ranges of model addresses (R51). -/
def State.domainMemory (s : State) (d : Nat) : List (Nat × Nat) :=
  let fab (c : Line) := [(bankAddr c 0, 0x100000), (0x300000 + 0x200000 * lineBit c, 0x80000), (sharedMem c, 0x40000), (sharedStage c, 0x40000)]
  let cluster (c : Line) (first : Nat) :=
    (List.range 15).filterMap fun r =>
      match s.engineOf c r with
      | some i => if i / 8 * 8 = first then some (tcmI c r, 0x20000) else none
      | none => none
  match d with
  | 2 => fab .A
  | 3 => fab .B
  | 4 => cluster .A 0
  | 5 => cluster .A 8
  | 6 => cluster .B 0
  | 7 => cluster .B 8
  | 10 => [(0x680000, 0x40000), (trdpPool, 0x100000)]
  | 12 => [(0x6E0000, 0x20000), (0x640000, 0x10000)]
  | 13 => [(0xF80000, 0x20000), (0xF00000, 0x1008)]
  | _ => []

/-- The pages of a domain. -/
def domainPages (d : Nat) : List Page := (allPages ++ [Page.mac 9, .mac 10, .mac 11]).filter fun p => p.domain = d

/-- A domain's pages, working state and memories return to their reset state (R54, R434); isolated cells and FAULT stay (R454). -/
def State.resetDomain (s : State) (d : Nat) : State :=
  let before := s
  let s := s.each (domainPages d) fun p s =>
    let s := s.resetBlock p
    match p with
    | .mac m => if m < 8 then s.clearPage p.base 0 0x1000 else s.clearPage p.base 0 0x400
    | .eng c i =>
      let map := (s.get (ENG.ROLE_MAP_LO c i), s.get (ENG.ROLE_MAP_HI c i), s.get (ENG.ROLE_VALID c i), s.get (ENG.ENG_STAT_ROLE c i))
      let s := s.clearPage p.base 0 0x1000
      let s := ((s.set (ENG.ROLE_MAP_LO c i) map.1).set (ENG.ROLE_MAP_HI c i) map.2.1).set (ENG.ROLE_VALID c i) map.2.2.1
      let s := s.set (ENG.ENG_STAT_ROLE c i) map.2.2.2
      (match s.roleAt c i with
        | some r => (s.withRoleOf c r fun _ => { Role.reset with view := s.get (LOAF.BANK_STAT_LATEST c) }).showRole c r
        | none => s.set (ENG.ENG_STAT_STATE c i) (if before.flag (HDR.PAGE_STAT_FAULT p) then 5 else if s.spareEngine c = some i then 3 else 0))
    | _ => s.clearPage p.base 0 0x1000
  let s := s.each (domainPages d) fun p s => s.when (before.flag (HDR.PAGE_STAT_FAULT p)) fun s => s.setFlag (HDR.PAGE_STAT_FAULT p) true
  let s := s.each (s.domainMemory d) fun x s => s.clearRange x.1 x.2
  let s := s.when (d = 2) fun s => { s with loafA := Loaf.reset, kneaderA := Kneader.reset, semA := List.replicate 64 0 }
  let s := s.when (d = 3) fun s => { s with loafB := Loaf.reset, kneaderB := Kneader.reset, semB := List.replicate 64 0 }
  let s := s.when (d = 10) fun s => { s with switch := Switch.reset, trdpSeen := [] }
  let s := s.when (d = 11) fun s => s.each (List.range 8) fun m s => s.setFlag (MAC.MAC_STAT_LINK m) false
  s

/-- The domains a domain needs (R431). -/
def domainNeeds (d : Nat) : List Nat :=
  match d with
  | 0 => []
  | 4 | 5 | 8 => [2]
  | 6 | 7 | 9 => [3]
  | 11 => [10]
  | _ => [0]

/-- The host may switch the domain (R431). -/
def hostSwitches (d : Nat) : Bool := !([0, 1, 2, 3, 13].contains d) && decide (d < 16)

def State.domainOn (s : State) (d : Nat) : Bool := bitOf (s.get PWR.PD_STAT_ON) d

/-- Idle before power-down (R432). -/
def State.domainIdle (s : State) (d : Nat) : Bool :=
  let cluster (c : Line) (first : Nat) :=
    (List.range 8).all fun i => [0, 3, 5].contains (s.get (ENG.ENG_STAT_STATE c (first + i)))
  match d with
  | 4 => cluster .A 0
  | 5 => cluster .A 8
  | 6 => cluster .B 0
  | 7 => cluster .B 8
  | 8 => s.lineState .A = lnOFF
  | 9 => s.lineState .B = lnOFF
  | 10 => !s.flag SW.SW_CTRL_EN
  | 11 => (List.range 8).all fun m => !s.flag (MAC.MAC_CTRL_EN m)
  | 12 => ((List.range 8).all fun c => !s.flag (CAN.CAN_CTRL_EN c)) && ((List.range 2).all fun j => !s.flag (MVB.MVB_CTRL_EN j))
      && !s.flag CPL.CPL_CTRL_EN
  | 14 => !s.twin
  | 15 => !s.flag PRF.PRF_CTRL_EN && !s.flag PRF.PRF_STAT_MAINT_BUSY
  | _ => true

/-- A request is granted (R432). -/
def State.mayPower (s : State) (d : Nat) (on : Bool) : Bool :=
  hostSwitches d && (if on then (domainNeeds d).all s.domainOn
    else !((List.range 16).any fun e => (domainNeeds e).contains d && s.domainOn e) && s.domainIdle d)

/-- PD_CTRL (R432, R435): in LOCKED mode a request for either bit of a pair applies to both. -/
def State.writePdCtrl (s : State) (v : Nat) : State :=
  let cur := s.get PWR.PD_CTRL
  let partner (d : Nat) : Option Nat := if !s.lockedMode then none else match d with
    | 4 => some 6 | 6 => some 4 | 5 => some 7 | 7 => some 5 | _ => none
  let want (d : Nat) : Bool :=
    match partner d with
    | some e => if bitOf v d != bitOf cur d then bitOf v d else bitOf v e
    | none => bitOf v d
  let s := s.each (List.range 16) fun d s =>
    if want d = bitOf cur d then s
    else
      let pair := d :: (partner d).toList
      if pair.all fun e => s.mayPower e (want d) then
        let s := (s.stampConfig .pwr).set PWR.PD_CTRL (withBit (s.get PWR.PD_CTRL) d (want d))
        { s with power := { s.power with queue := s.power.queue ++ [(d, want d)] } }
      else (s.countRaise PWR.PD_REFUSED_CNT .pwr 12).refuse .pwr
  s.setFlag PWR.PD_STAT_SEQ_BUSY (!s.power.queue.isEmpty)

def execPdCtrlWrite (v : BitVec 32) (s : State) : Host.Outcome State Fault Refusal := .next (s.writePdCtrl v.toNat)

/-- What a domain brings up with it: its PLL shows as locked (R441, R451; log entry 58). -/
def State.showLocks (s : State) (d : Nat) : State :=
  let s := (s.setFlag CLK.CLK_STAT_FAB_LOCK true).setFlag CLK.CLK_STAT_ENG_LOCK true
  match d with
  | 8 | 9 => s.setFlag CLK.CLK_STAT_SDS0_LOCK true
  | 11 | 14 => s.setFlag CLK.CLK_STAT_SDS1_LOCK true
  | 13 => s.setFlag CLK.CLK_STAT_PCIE_LOCK true
  | _ => s

/-- The sequencer completes one switch (R433): the first pending one; a power-up waits while BO_ACTIVE is 1. -/
def State.completeSwitch (s : State) : State :=
  if s.power.held then s
  else
    match s.power.queue.find? fun q => !q.2 || !s.flag PWR.SUP_STAT_BO_ACTIVE with
    | none => s
    | some (d, on) =>
      let before := s
      let s := s.resetDomain d
      let s := { s with power := { s.power with queue := s.power.queue.erase (d, on) } }
      let s := s.set PWR.PD_STAT_ON (withBit (s.get PWR.PD_STAT_ON) d on)
      let s := s.when on fun s => s.showLocks d
      let s := s.when (d = 1 && on) State.loadOtp
      let s := s.when (d = 14 && on) fun s => s.setFlag TWIN.TWIN_STAT_SENIOR (!s.flag PWR.STRAP_TWIN_ID)
      let s := s.setFlag PWR.PD_STAT_SEQ_BUSY (!s.power.queue.isEmpty)
      let s := s.when s.power.queue.isEmpty fun s => s.raise .pwr 11
      s.recheckLines before

def execPdDone (s : State) : Host.Outcome State Fault Refusal := .next s.completeSwitch

/-! The reset sources (R444). -/

/-- POWER_ON_RESET: everything; the straps are sampled at its release. -/
def execPowerOnReset (bootSrc : BitVec 2) (twinId : Bool) (s : State) : Host.Outcome State Fault Refusal :=
  .next (s.fullReset.sampleStraps bootSrc.toNat twinId)

/-- RESET_N. -/
def execResetN (bootSrc : BitVec 2) (twinId : Bool) (s : State) : Host.Outcome State Fault Refusal :=
  .next ((s.chipReset PWR.RST_CAUSE_PIN).sampleStraps bootSrc.toNat twinId)

/-- CORE_RESET: the reset lasts until CORE_RESET_END. -/
def execCoreReset (s : State) : Host.Outcome State Fault Refusal :=
  .next { (s.chipReset PWR.RST_CAUSE_VDD) with power := { Power.reset with held := true } }

/-- CORE_RESET_END: straps are sampled and start-up begins. -/
def execCoreResetEnd (bootSrc : BitVec 2) (twinId : Bool) (s : State) : Host.Outcome State Fault Refusal :=
  .next (if s.power.held then { s with power := { s.power with held := false } }.sampleStraps bootSrc.toNat twinId else s)

/-- PWR.CHIP_RST (R444). -/
def State.writeChipRst (s : State) (v : Nat) : State := if v = 0xB4A7 then s.chipReset PWR.RST_CAUSE_SOFT else s

def execChipRst (v : BitVec 16) (s : State) : Host.Outcome State Fault Refusal := .next (s.writeChipRst v.toNat)

/-- A 1 written to FAULT_LATCH.VALID clears the latch and FAULT_CYCLE (R445), but not a fault of this fabric clock (R7). -/
def State.clearFaultLatch (s : State) : State :=
  let s := s.clearBits PWR.FAULT_LATCH_VALID 1
  if s.flag PWR.FAULT_LATCH_VALID then s
  else s.each [PWR.FAULT_LATCH_REGION, PWR.FAULT_LATCH_CAUSE, PWR.FAULT_LATCH_CELL, PWR.FAULT_CYCLE] fun r s => s.set r 0

def execFaultLatchClear (s : State) : Host.Outcome State Fault Refusal := .next s.clearFaultLatch

end Sys2Proof.Machine
end

