-- ==== Sys2Proof/Machine/PageOps.lean ====
section
/-! DEFINITION. Reads and writes by access type, the common page header and the ENG pages (spec/00_scope.md R6 to R8;
spec/17_register_pages.md R454 to R457; spec/08_protocol_engines.md R249, R259). -/

namespace Sys2Proof.Machine

/-! Words. -/

/-- The fields of the word at a BAR0 address of a page. -/
def wordFields (p : Page) (addr : Nat) : List Reg := (pageFields p).filter fun r => r.addr = addr

/-- The part of a word that a field holds. -/
def Reg.part (r : Reg) (v : Nat) : Nat := v / 2 ^ r.lo % 2 ^ r.width

/-- The page is one the device holds; the blocks of MAC_BB count as pages here (R464). -/
def Page.known (p : Page) : Bool := (allPages ++ [Page.mac 9, .mac 10, .mac 11]).contains p

/-- The pages whose ENABLE reads 1 always (R454). -/
def Page.alwaysEnabled (p : Page) : Bool := p.domain ≤ 1

/-- The INT_RAW bits a page defines: bits 2:0 (R43) and its block's; RSVD bits read 0 (R8). -/
def Page.intMask (p : Page) : Nat :=
  7 + match p with
  | .chip => 0xF00
  | .time => 0xFF00
  | .cyc => 0xFFFF0F00
  | .pwr => 0x3F00
  | .clk => 0x300
  | .intc => 0
  | .sec => 0xFF00
  | .gtb _ => 0x1FFFFF00
  | .loaf _ => 0xFF00
  | .knd _ => 0xFF00
  | .eng _ _ => 0x1FF00
  | .sw => 0x1FF00
  | .mac m => if m < 8 then 0xF00 else 0xFFFF00
  | .can _ => 0x1FFF00
  | .mvb _ => 0x1F00
  | .twin => 0xFFF00
  | .lzl => 0x700
  | .pcie => 0x700
  | .qspi => 0x300
  | .cpl => 0xFFFFFF00
  | .prf => 0x1F00
  | .gpio => 0x100

/-- A write that changes no word: it is refused (R8, R44). -/
def State.refuseIf (s : State) (p : Page) (bad : Bool) : State := if bad then s.refuse p else s

/-- A write to a word by the access types of its fields (R6, R456): RWL fields only while CFG_LOCK is 0, a refused write where one would have
changed, and CFG_CYCLE where an RW or RWL field of the block has (R457). WO fields act elsewhere. -/
def State.writeFields (s : State) (p : Page) (addr v : Nat) : State :=
  let fs := wordFields p addr
  let locked := s.locked p
  let t := s.each fs fun r t =>
    match r.acc with
    | .rw => t.set r (r.part v)
    | .rwl => if locked then t else t.set r (r.part v)
    | .w1c => t.clearBits r (r.part v)
    | .w1s => t.set r (s.get r ||| r.part v)
    | _ => t
  let t : State := { t with thisClock := { t.thisClock with
    written := t.thisClock.written ++ (fs.filter fun r => r.acc = .rwl && s.get r != t.get r).map fun r => (p, r, s.get r) } }
  let t := t.refuseIf p (locked && fs.any fun r => r.acc = .rwl && s.get r != r.part v)
  if fs.any fun r => (r.acc = .rw || r.acc = .rwl) && s.get r != t.get r then t.stampConfig p else t

/-- The value of a word as a read returns it; WO fields read 0 (R6). -/
def State.fieldsWord (s : State) (p : Page) (addr : Nat) : Nat :=
  (wordFields p addr).foldl (fun v r => v + if r.acc = .wo then 0 else s.readOut r * 2 ^ r.lo) 0

/-- A read clears the RC fields of a word (R6). -/
def State.clearRc (s : State) (p : Page) (addr : Nat) : State :=
  s.each ((wordFields p addr).filter fun r => r.acc = .rc) fun r s => s.clearField r

/-! The common header (R454 to R456). -/

/-- LOCK_KEY. -/
def State.writeLockKey (s : State) (p : Page) (v : Nat) : State :=
  if s.flag CHIP.LOCK_CTRL_STICKY then s
  else if v % 2 ^ 16 = 0xB4A7 then
    let s := s.when (s.flag (HDR.PAGE_CTRL_CFG_LOCK p)) fun s => { s with thisClock := { s.thisClock with unlocked := p :: s.thisClock.unlocked } }
    s.setFlag (HDR.PAGE_CTRL_CFG_LOCK p) false
  else s.refuse p

/-- CFG_LOCK set by a write of 1: the RWL fields of the page written in this fabric clock have not taken their values, and the writes are refused
(R456). -/
def State.setLock (s : State) (p : Page) : State :=
  let mine := s.thisClock.written.filter fun x => x.1 = p
  let s : State := { s with thisClock := { s.thisClock with written := s.thisClock.written.filter fun x => x.1 != p } }
  let s := (s.each mine.reverse fun x s => s.set x.2.1 x.2.2).refuseIf p (!mine.isEmpty)
  s.setFlag (HDR.PAGE_CTRL_CFG_LOCK p) true

/-- LOCK_ALL: every page that has power, in one fabric clock. -/
def State.lockAll (s : State) : State := s.each (allPages.filter s.powered) fun p s => s.setLock p

/-- INT_RAW, W1C: an interrupt of this fabric clock stays (R7). -/
def State.clearInt (s : State) (p : Page) (v : Nat) : State := s.clearBits (HDR.INT_RAW p) v

/-- INT_SET: as a hardware event would. -/
def State.setInt_ (s : State) (p : Page) (v : Nat) : State := s.set (HDR.INT_RAW p) (s.get (HDR.INT_RAW p) ||| (v &&& p.intMask))

/-- PAGE_CTRL: ENABLE; PROOF_ALLOW unless CFG_LOCK is 1 or set by the same write; CFG_LOCK; SOFT_RESET. -/
def State.writePageCtrl (s : State) (p : Page) (v : Nat) : State :=
  let before := s
  let s := if p.alwaysEnabled then s else s.setFlag (HDR.PAGE_CTRL_ENABLE p) (bitOf v 0)
  let changes := bitOf v 3 != s.flag (HDR.PAGE_CTRL_PROOF_ALLOW p)
  let held := s.locked p || bitOf v 2
  let s := if held then s.refuseIf p changes else s.setFlag (HDR.PAGE_CTRL_PROOF_ALLOW p) (bitOf v 3)
  let s := s.when (bitOf v 2) fun s => s.setLock p
  let s := s.when (bitOf v 1) fun s => if before.locked p then s.refuse p else s.softReset p
  s.recheckLines before

/-- A write to a header word. -/
def State.writeHeader (s : State) (p : Page) (off v : Nat) : State :=
  match off with
  | 0x008 => s.writePageCtrl p v
  | 0x010 => s.clearInt p v
  | 0x014 => s.set (HDR.INT_EN p) (v &&& p.intMask)
  | 0x01C => s.setInt_ p v
  | 0x02C => s.writeLockKey p v
  | _ => s

/-- The block has work in flight (R454). -/
def State.busy (s : State) (p : Page) : Bool :=
  match p with
  | .pwr => !s.power.queue.isEmpty
  | .sec => s.sec.waiting.isSome || !s.sec.taken.isEmpty || bitOf (s.get PRF.PRF_STAT_BUSY) 4
  | .gtb l => (s.lineOf l).partakes && !s.time.returnEndSeen
  | .knd c => s.get (KND.KND_STAT_IN_FLIGHT c) != 0
  | .eng c i => (s.roleAt c i).any fun r => (s.role c r).dma.any fun d => d.busy
  | .sw => !s.switch.queues.isEmpty
  | .mac m => (if m < 8 then [m] else [8, 9, 10, 11]).any fun q => decide (s.ltcNs.toNat < (s.switch.ports.getD q SwPort.reset).busyUntil.toNat)
  | .mvb j => (s.mvb j).awaiting.isSome
  | .can c => s.txPending c != 0
  | .lzl => s.bridges.hostReads.any fun (r : HostRead) => r.link.isSome
  | .pcie => !s.bridges.reads.isEmpty || s.bridges.hostReads.any fun (r : HostRead) => r.bridge == .pcie
  | .qspi => s.get QSPI.QSPI_STAT_SLOT = 1
  | .cpl => (List.range 4).any fun m => s.flag (CPL.HEAD_STAT_SESSION m)
  | .prf => s.get PRF.PRF_STAT_BUSY != 0 || s.flag PRF.PRF_STAT_MAINT_BUSY
  | _ => false

/-- A header word as it reads: READY, BUSY, HOLD and INT_STAT follow what they show; INT_SET reads INT_RAW; SOFT_RESET reads 1 until the reset ends. -/
def State.headerWord (s : State) (p : Page) (off : Nat) : Nat :=
  match off with
  | 0x00C =>
    let s := (s.setFlag (HDR.PAGE_STAT_READY p) (s.powered p && s.flag (HDR.PAGE_CTRL_ENABLE p))).setFlag (HDR.PAGE_STAT_BUSY p) (s.busy p)
    let s := s.when (s.pageQuarantined p) fun s => s.setFlag (HDR.PAGE_STAT_HOLD p) true
    s.fieldsWord p (p.headerBase + off)
  | 0x008 => s.fieldsWord p (p.headerBase + off) + if s.softResets.any fun x => x.1 = p.headerBase then 2 else 0
  | 0x018 => s.get (HDR.INT_RAW p) &&& s.get (HDR.INT_EN p)
  | 0x01C => s.get (HDR.INT_RAW p)
  | _ => s.fieldsWord p (p.headerBase + off)

/-! The ENG pages (R249, R259). -/

/-- A write to an ENG page's registers. -/
def State.writeEngBlock (s : State) (c : Line) (i off v : Nat) : State :=
  let p := Page.eng c i
  match off with
  | 0x040 =>
    let on := bitOf v 0
    let s := s.when (on != s.flag (ENG.ENG_CTRL_RUN c i)) fun s => s.stampConfig p
    let s := s.writeRun c i on
    if bitOf v 1 then s.writeWarm c i else s
  | 0x058 =>
    if s.leads c && (s.roleAt c i).isNone then s.count (ENG.MBOX_NOROLE_CNT c i)
    else
      let s := if bitOf v 9 then s.inDb c i else s
      if bitOf v 8 then s.outAck c i else s
  | _ =>
    if 0x080 ≤ off && off < 0x0A0 then s.writeMboxIn c i ((off - 0x080) / 4) v
    else s.writeFields p (p.base + off) v

/-- A write to an ENG page, header or block. -/
def State.writeEngPage (s : State) (c : Line) (i off v : Nat) : State :=
  if off < 0x40 then s.writeHeader (.eng c i) off v else s.writeEngBlock c i off v

/-- The run that tests an engine: an in-service run, or a maintenance run that is not deferred (R408, R413). -/
def State.testRun (s : State) (c : Line) (i : Nat) : Option ProofRun :=
  match (s.rotation (lineBit c)).run.filter fun (r : ProofRun) => r.cell = i with
  | some r => some r
  | none => (s.proof.maint.filter fun m => m.target = 4 && m.chan = c && m.index = i && m.run.ended != some 0).map Maintenance.run

/-- The engine of an ENG page is under test (R408). -/
def State.engineUnderTest (s : State) (c : Line) (i : Nat) : Bool := (s.testRun c i).isSome

/-- STATE as the save record of an engine under test holds it: failed, halted with a role, or spare (R407, R413). -/
def State.savedState (s : State) (c : Line) (i : Nat) : Nat :=
  if s.flag (HDR.PAGE_STAT_FAULT (.eng c i)) then 5 else if (s.roleAt c i).isSome then 0 else 3

/-- What an ENG page's word reads as: from the save record while the engine is under test (R408); in LOCKED mode
channel B's mailbox shows channel A's (R249). -/
def State.engWord (s : State) (c : Line) (i off : Nat) : Nat :=
  let p := Page.eng c i
  if off < 0x40 then s.headerWord p off
  else
    let s := s.when (s.engineUnderTest c i) fun s => s.set (ENG.ENG_STAT_STATE c i) (s.savedState c i)
    let mirrored := s.lockedMode && c == .B && (off = 0x058 || (0x080 ≤ off && off < 0x0C0))
    if mirrored then s.fieldsWord (.eng .A i) ((Page.eng .A i).base + off) else s.fieldsWord p (p.base + off)

/-! The commands on the header. -/

/-- A command on a page the device holds and that has power (R434). -/
def State.onPage (s : State) (p : Page) (f : State → State) : State := if p.known && s.powered p then f s else s

def execLockKey (p : Page) (v : BitVec 16) (s : State) : Host.Outcome State Fault Refusal :=
  .next (s.onPage p fun s => s.writeLockKey p v.toNat)

def execCfgLock (p : Page) (s : State) : Host.Outcome State Fault Refusal := .next (s.onPage p fun s => s.setLock p)

def execLockAll (s : State) : Host.Outcome State Fault Refusal := .next s.lockAll

/-- LOCK_CTRL.STICKY. -/
def execSticky (s : State) : Host.Outcome State Fault Refusal := .next (s.setFlag CHIP.LOCK_CTRL_STICKY true)

def execIntRawClear (p : Page) (v : Word) (s : State) : Host.Outcome State Fault Refusal :=
  .next (s.onPage p fun s => s.clearInt p v.toNat)

def execIntSet (p : Page) (v : Word) (s : State) : Host.Outcome State Fault Refusal :=
  .next (s.onPage p fun s => s.setInt_ p v.toNat)

end Sys2Proof.Machine
end

