-- ==== Sys2Proof/Machine/Proof.lean ====
section
/-! DEFINITION. Cells that fail and proofing (spec/02_inside_the_device.md R36 to R38; spec/14_proofing.md R401 to R414;
spec/08_protocol_engines.md R254). -/

namespace Sys2Proof.Machine

/-! Runs that end early (R408, R409). -/

/-- The writes queued for the engines whose runs an abort of a target ends, as channel, engine, offset and value. -/
def State.queuedOf (s : State) (t : Nat) : List (Line × Nat × Nat × Nat) :=
  (s.proofPair t).flatMap fun u =>
    match (s.rotation u).run with
    | some r => r.queued.map fun w => (proofChan u, r.cell, w.2.1, w.2.2.toNat)
    | none => []

/-- Apply queued writes in order, after the saved state. -/
def State.applyQueued (s : State) (q : List (Line × Nat × Nat × Nat)) : State :=
  s.each q fun w s => s.writeEngPage w.1 w.2.1 w.2.2.1 w.2.2.2

/-- Abort the run of a target, and in LOCKED mode its partner's. -/
def State.abortProof (s : State) (t cause : Nat) : State := (s.abortRun t cause).applyQueued (s.queuedOf t)

/-- Abort every in-service run. -/
def State.abortInService (s : State) (cause : Nat) : State := s.each (List.range 5) fun t s => s.abortProof t cause

/-- The page that owns the target of a maintenance run (R405, R413). -/
def Maintenance.page (m : Maintenance) : Page :=
  match m.target with
  | 1 => .sw
  | 2 => .can 0
  | 3 => .gtb m.chan
  | 4 => .eng m.chan m.index
  | 5 => .knd m.chan
  | _ => .sec

/-- The pages that show a maintenance run: those of every block it takes. -/
def Maintenance.pages (m : Maintenance) : List Page :=
  if m.target = 2 then (List.range 8).map Page.can ++ (List.range 2).map Page.mvb else [m.page]

/-- What an engine's STATE shows when nothing tests it. -/
def State.showEngine (s : State) (c : Line) (i : Nat) : State :=
  if s.flag (HDR.PAGE_STAT_FAULT (.eng c i)) then s.set (ENG.ENG_STAT_STATE c i) 5
  else match s.roleAt c i with
    | some r => (s.set (ENG.ENG_STAT_STATE c i) 0).showRole c r
    | none => s.set (ENG.ENG_STAT_STATE c i) 3

/-- The maintenance run's target is restored, the writes queued for an engine's page are applied, and its result is written (R408, R413). -/
def State.endMaint (s : State) (result cause : Nat) : State :=
  match s.proof.maint with
  | none => s
  | some m =>
    let s := { s with proof := { s.proof with maint := none } }
    let s := (s.setFlag PRF.PRF_STAT_MAINT_BUSY false).each m.pages fun p s => s.setFlag (HDR.PAGE_STAT_PROOF_BUSY p) false
    let s := s.when (m.target = 4) fun s => (s.setFlag (HDR.PAGE_STAT_ACC_DEFERRED m.page) false).showEngine m.chan m.index
    let s := s.applyQueued (m.run.queued.map fun w => (m.chan, m.index, w.2.1, w.2.2.toNat))
    s.writeResult 5 result cause m.index (if result = 3 then s.patternsBy m.run else m.run.patterns) m.retest

/-- A maintenance run that an excursion ends is not tried again (log entry 62). -/
def State.abortMaint (s : State) (cause : Nat) : State :=
  match s.proof.maint with
  | none => s
  | some m => if m.run.ended = some 0 then s else ((s.endMaint 3 cause).count PRF.ABORT_CNT).raise .prf 9

/-- An excursion (R402): every run in progress ends. -/
def State.excursion (s : State) (cause : Nat) : State := (s.abortInService cause).abortMaint cause

/-! Failures (R36, R38, R254). -/

/-- An error that a page's block contains: counted, raised and recorded (R42 to R44). -/
def State.classDE (s : State) (p : Page) (cell cause word : Nat) : State :=
  ((s.count (HDR.ERR_CNT_UE p)).raise p 1).recordError p 2 cell cause word

/-- A channel has no spare engine any more. -/
def State.dropSpare (s : State) (c : Line) : State :=
  s.showMap c (s.get (ENG.ROLE_MAP_LO c 0)) (nibbleSet (s.get (ENG.ROLE_MAP_HI c 0)) 7 15) (withBit (s.get (ENG.ROLE_VALID c 0)) 15 false)

/-- The cell a move takes its role from. -/
def State.moveCell (s : State) (m : EngMove) : Nat := (s.engineOf m.chan m.role).getD 16

/-- Failed engines give way in ascending cell index, and before planned moves (R38; log entry 161). -/
def insertMove (cell : EngMove → Nat) (m : EngMove) : List EngMove → List EngMove
  | [] => [m]
  | x :: t => if !x.planned && cell x ≤ cell m then x :: insertMove cell m t else m :: x :: t

/-- The spare of a channel is there for a failed cell: none of a lower index has failed in this cycle (R38). The deadline classes are those of
kneader jobs (R31), so all engines are of one class (log entry 161). -/
def State.spareFor (s : State) (c : Line) (i : Nat) : Bool :=
  (s.spareEngine c).isSome && s.engMoves.all fun m => m.chan != c || m.planned || decide (i < s.moveCell m)

/-- An engine fails: isolated at once; its role moves to the spare at the next tick or is lost. `poisoned` and `lost` tell what the copy of its
TCMs will meet. An engine under proofing reports nothing (R37). -/
def State.failEngine (s : State) (c : Line) (i cause word poisoned : Nat) (lost : Bool) : State :=
  if s.engineUnderTest c i || s.get (ENG.ENG_STAT_STATE c i) = 5 then s
  else
    let p := Page.eng c i
    let role := s.roleAt c i
    let s := (s.classDE p 0 (if role.isSome && !s.spareFor c i then 7 else cause) word).setFlag (HDR.PAGE_STAT_FAULT p) true
    let s := s.set (ENG.ENG_STAT_STATE c i) 5
    match role with
    | none => s.dropSpare c
    | some r =>
      let s := s.abortProof (lineBit c) 1
      let s := { s with engMoves := insertMove s.moveCell ⟨c, r, false, s.ltcNs, poisoned, lost⟩ (s.engMoves.filter fun m => !(m.chan = c && m.role = r)) }
      let s := s.withRole c r fun k => { k with st := .halted, waitFor := none, relq := [], evq := [], dma := List.replicate 4 Dma.reset }
      match s.spareEngine c with
      | some j => s.set (ENG.ENG_STAT_STATE c j) 6
      | none => s

/-- A kneader lane fails. Of two lanes lost in one cycle the spare takes the one whose job has the higher class, then the lower index (R38). -/
def State.failLane (s : State) (c : Line) (lane cause word : Nat) : State :=
  let t := 2 + lineBit c
  if (s.rotation t).run.any (fun (r : ProofRun) => r.cell = lane) || (s.kneader c).deadLanes.contains lane then s
  else
    let k := s.kneader c
    let cls := ((k.runs.find? fun r => r.lane = some lane).map JobRun.cls).getD 3
    let spare := s.flag (KND.KND_STAT_SPARE_VALID c) && k.laneMoves.all fun x => decide (cls < x.1) || (cls = x.1 && decide (lane < x.2))
    let s := s.classDE (.knd c) lane (if spare then cause else 7) word
    let s := (s.setFlag (HDR.PAGE_STAT_FAULT (.knd c)) true).abortProof t 1
    s.loseLane c lane

/-- A crypto core fails: the other serves from the next tick (R38). -/
def State.failCrypto (s : State) (i cause word : Nat) : State :=
  if (s.rotation 4).run.any (fun (r : ProofRun) => r.cell = i) || s.sec.cryptoFailed.contains i then s
  else
    let s := s.classDE .sec i (if s.sec.cryptoFailed.isEmpty then cause else 7) word
    let s := (s.setFlag (HDR.PAGE_STAT_FAULT .sec) true).abortProof 4 1
    s.withSec fun k => { k with cryptoFailed := k.cryptoFailed ++ [i] }

/-- At a tick the spare core takes the work of one that has failed. -/
def State.takeSpareCore (s : State) : State :=
  s.withSec fun k => if k.cryptoFailed.contains k.cryptoServing then { k with cryptoServing := 1 - k.cryptoServing } else k

/-- An engine that proofing isolates gives its role to the spare, at power-on before any image is loaded (R412, R413). -/
def State.isolateEngine (s : State) (c : Line) (i : Nat) : State :=
  let s := (s.setFlag (HDR.PAGE_STAT_FAULT (.eng c i)) true).set (ENG.ENG_STAT_STATE c i) 5
  match s.roleAt c i with
  | some r => if (s.spareEngine c).isSome then s.spareTakes c r false else s.loseRole c r
  | none => s.dropSpare c

/-- A lane that proofing isolates. -/
def State.isolateLane (s : State) (c : Line) (lane : Nat) : State :=
  ((s.setFlag (HDR.PAGE_STAT_FAULT (.knd c)) true).loseLaneAt c lane).takeSpareLanes c

/-- A crypto core that proofing isolates. -/
def State.isolateCrypto (s : State) (i : Nat) : State :=
  (s.setFlag (HDR.PAGE_STAT_FAULT .sec) true).withSec fun k => { k with
    cryptoFailed := k.cryptoFailed ++ [i], cryptoServing := if k.cryptoServing = i then 1 - i else k.cryptoServing }

/-! Conditions (R402, R403, R405). -/

/-- Every condition of R402 holds. -/
def State.withinLimits (s : State) : Bool :=
  s.flag PWR.SUP_STAT_VDD_WIN && s.flag CLK.CLK_STAT_FAB_OK && s.flag CLK.CLK_STAT_ENG_OK && s.flag PWR.SUP_STAT_TJ_WIN

/-- Proofing is allowed at all in the life-cycle state (R403). -/
def State.proofingState (s : State) : Bool := !([lcBLANK, lcSCRAPPED].contains s.lifeCycle)

/-- User seeds, pattern count and signature are (R403). -/
def State.userProofing (s : State) : Bool := [lcMANUFACTURE, lcRETURN].contains s.lifeCycle

/-- The spare of a target's cells (R38, R405). -/
def State.proofSpare (s : State) (t : Nat) : Option Nat :=
  let c := proofChan t
  if t < 2 then s.spareEngine c
  else if t < 4 then if s.flag (KND.KND_STAT_SPARE_VALID c) then some (s.get (KND.KND_STAT_SPARE c)) else none
  else if s.sec.cryptoFailed.isEmpty then some (1 - s.sec.cryptoServing) else none

/-- In-service proofing of a target is on (R405). -/
def State.proofOn (s : State) (t : Nat) : Bool :=
  s.live .prf && s.proofingState && s.flag PRF.PRF_CTRL_EN && s.proof.maint.isNone
    && (if t < 2 then s.flag PRF.PRF_CTRL_ENG_EN else if t < 4 then s.flag PRF.PRF_CTRL_KND_EN else s.flag PRF.PRF_CTRL_CRY_EN)
    && (t = 4 || s.live (proofPage t 0))

/-- PROOF_ALLOW of the page that owns a cell (R405). -/
def State.proofAllow (s : State) (t cell : Nat) : Bool := s.flag (HDR.PAGE_CTRL_PROOF_ALLOW (proofPage t cell))

/-- Patterns of the fixed set (R404): by target of an in-service run. -/
def fixedPatterns (t : Nat) : Nat := if t < 2 then 4096 else if t < 4 then 2048 else 3072

/-- Kinds of the fixed set's signatures (R403): 0 engine, 1 lane, 2 crypto core, 3 switch, 4 field-bus block, 5 line pipeline. -/
def proofKind (t : Nat) : Nat := if t < 2 then 0 else if t < 4 then 1 else 2

/-- PRF_STAT.TGT_A and TGT_B (R414). -/
def State.showTarget (s : State) (t cell : Nat) : State :=
  match t with
  | 0 => s.set PRF.PRF_STAT_TGT_A cell
  | 1 => s.set PRF.PRF_STAT_TGT_B cell
  | _ => s

/-! In-service runs (R406, R407). -/

/-- A run starts on the spare: save, and the first pattern. -/
def State.startRun (s : State) (t cell : Nat) : State :=
  let p := proofPage t cell
  let s := (s.set PRF.PRF_STAT_BUSY (withBit (s.get PRF.PRF_STAT_BUSY) t true)).setFlag (HDR.PAGE_STAT_PROOF_BUSY p) true
  let s := s.when (t < 2) fun s => s.set (ENG.ENG_STAT_STATE (proofChan t) cell) 4
  (s.showTarget t cell).withRotation t fun x => { x with
    due := false, retest := false, target := none, run := some ⟨cell, s.ltcNs, fixedPatterns t, [], none⟩ }

/-- A run of the target may start: due, on, no run or move in progress, a spare that may be tested, and no job left on a lane. -/
def State.runReady (s : State) (t : Nat) : Bool :=
  (s.rotation t).due && (s.rotation t).run.isNone && s.proofOn t
    && !(t < 2 && s.engMoves.any fun m => m.chan = proofChan t)
    && match s.proofSpare t with
      | some i => s.proofAllow t i && (t < 2 || 3 < t || !(s.kneader (proofChan t)).runs.any fun r => r.lane = some i)
      | none => false

/-- PROOF_RUN_START: in IDLE; deferred outside the limits of R402, or while BO_ACTIVE is 1 (R438). Target 5 is a deferred maintenance run. -/
def State.proofStart (s : State) (t : Nat) : State :=
  if t = 5 then
    match s.proof.maint with
    | some m =>
      if m.run.ended != some 0 || s.flag PWR.SUP_STAT_BO_ACTIVE then s
      else if s.withinLimits then
        { s with proof := { s.proof with maint := some { m with run := { m.run with start := s.ltcNs, ended := none } } } }
      else s.count PRF.LIMIT_DEFER_CNT
    | none => s
  else if s.phase != 2 || s.flag PWR.SUP_STAT_BO_ACTIVE || !(s.proofPair t).all s.runReady then s
  else if !s.withinLimits then s.count PRF.LIMIT_DEFER_CNT
  else s.each (s.proofPair t) fun t s =>
    match s.proofSpare t with
    | some i => s.startRun t i
    | none => s

def execProofRunStart (t : BitVec 3) (s : State) : Host.Outcome State Fault Refusal := .next (s.proofStart t.toNat)

/-- SIG0 to SIG3: the signature of the last run that ended. -/
def State.showSignature (s : State) (sig : BitVec 128) : State :=
  s.each (List.range 4) fun w s => s.set (PRF.SIG w) (sig.toNat / 2 ^ (32 * w))

/-- A second FAIL of an in-service run (R411): the spare is isolated, and the channel has none of its type. -/
def State.isolateSpare (s : State) (t cell : Nat) : State :=
  let c := proofChan t
  let s := s.setFlag (HDR.PAGE_STAT_FAULT (proofPage t cell)) true
  let s := s.countRaise PRF.FAIL_CNT .prf 8
  if t < 2 then (s.dropSpare c).set (ENG.ENG_STAT_STATE c cell) 5
  else if t < 4 then
    (s.setFlag (KND.KND_STAT_SPARE_VALID c) false).withKneader c fun k => { k with deadLanes := k.deadLanes ++ [cell] }
  else s.withSec fun k => { k with cryptoFailed := k.cryptoFailed ++ [cell] }

/-- A maintenance FAIL (R413): a cell is isolated and its role passes on as after any failure; a block without a spare shows FAULT. -/
def State.failMaint (s : State) (m : Maintenance) : State :=
  let s := s.countRaise PRF.FAIL_CNT .prf 8
  match m.target with
  | 4 => s.isolateEngine m.chan m.index
  | 5 => s.isolateLane m.chan m.index
  | 6 => s.isolateCrypto m.index
  | _ => s.each m.pages fun p s => s.setFlag (HDR.PAGE_STAT_FAULT p) true

/-- The expected signature of a maintenance run: the user's where the user gave a pattern count (R403, R414; log entry 60). -/
def State.maintSignature (s : State) (m : Maintenance) : BitVec 128 :=
  if s.userProofing && s.get PRF.PAT_CNT != 0 then
    BitVec.ofNat 128 ((List.range 4).foldl (fun v w => v + s.get (PRF.EXP_SIG w) * 2 ^ (32 * w)) 0)
  else Config.fixedSignature (match m.target with | 4 => 0 | 5 => 1 | 6 => 2 | 1 => 3 | 2 => 4 | _ => 5)

/-- PROOF_PATTERNS_DONE, once the full pattern count is reached (R410): compare; one retest where RETEST is 1; the result waits for the restore (R407, R411). -/
def State.patternsDone (s : State) (t : Nat) (sig : BitVec 128) : State :=
  if t = 5 then
    match s.proof.maint with
    | some m =>
      if m.run.ended.isSome || !s.patternsAll m.run then s
      else
        let pass := sig == s.maintSignature m
        let set (s : State) (m : Maintenance) : State := { s with proof := { s.proof with maint := some m } }
        let s := s.showSignature sig
        if pass then set s { m with run := { m.run with ended := some 1 } }
        else if s.flag PRF.PRF_CFG_RETEST && !m.retest then set s { m with retest := true, run := { m.run with start := s.ltcNs } }
        else set (s.failMaint m) { m with run := { m.run with ended := some 2 } }
    | none => s
  else
    match (s.rotation t).run with
    | some r =>
      if r.ended.isSome || !s.patternsAll r then s
      else
        let s := s.showSignature sig
        if sig == Config.fixedSignature (proofKind t) then s.withRotation t fun x => { x with run := some { r with ended := some 1 } }
        else if s.flag PRF.PRF_CFG_RETEST && !(s.rotation t).retest then
          s.withRotation t fun x => { x with retest := true, run := some { r with start := s.ltcNs } }
        else (s.isolateSpare t r.cell).withRotation t fun x => { x with run := some { r with ended := some 2 } }
    | none => s

def execProofPatternsDone (t : BitVec 3) (sig : BitVec 128) (s : State) : Host.Outcome State Fault Refusal :=
  .next (s.patternsDone t.toNat sig)

/-- An in-service run whose patterns are done ends: restore, result, queued writes, and the wait for the next move (R406 to R408). -/
def State.restoreRun (s : State) (t : Nat) : State :=
  match (s.rotation t).run with
  | some r =>
    match r.ended with
    | some result =>
      let q := r.queued.map fun w => (proofChan t, r.cell, w.2.1, w.2.2.toNat)
      let retested := (s.rotation t).retest
      let s := s.leaveProof t r.cell (result = 2)
      let s := s.withRotation t fun x => { x with
        run := none, retest := false, wait := if result = 1 then some (s.get PRF.PRF_CFG_INTERVAL) else none }
      let s := (s.showTarget t 15).writeResult t result 0 r.cell r.patterns retested
      (s.when (result = 1) fun s => s.count PRF.PASS_CNT).applyQueued q
    | none => s
  | none => s

/-- PROOF_RESTORE: at the next IDLE; a maintenance run does not wait for it. -/
def State.proofRestore (s : State) (t : Nat) : State :=
  if t = 5 then
    match s.proof.maint with
    | some m =>
      match m.run.ended with
      | some 1 => (s.endMaint 1 0).count PRF.PASS_CNT
      | some 2 => s.endMaint 2 0
      | _ => s
    | none => s
  else if s.phase = 2 then s.restoreRun t else s

def execProofRestore (t : BitVec 3) (s : State) : Host.Outcome State Fault Refusal := .next (s.proofRestore t.toNat)

/-- The cells of a target. -/
def proofCells (t : Nat) : Nat := if t < 2 then 16 else if t < 4 then 8 else 2

/-- A cell does work that can move: an engine holds a role, a lane or crypto core serves. -/
def State.holdsWork (s : State) (t cell : Nat) : Bool :=
  let c := proofChan t
  if t < 2 then (s.roleAt c cell).isSome && s.get (ENG.ENG_STAT_STATE c cell) != 5
  else if t < 4 then !(s.kneader c).deadLanes.contains cell && s.proofSpare t != some cell
  else s.sec.cryptoServing = cell && !s.sec.cryptoFailed.contains cell

/-- The next cell in ascending index with wrap after the spare. -/
def State.nextCell (s : State) (t spare : Nat) : Option Nat :=
  let n := proofCells t
  (((List.range n).map fun k => (spare + 1 + k) % n).find? fun i => s.holdsWork t i && s.proofAllow t i)

/-- A move of a rotation has taken place: its cell is the spare and due, and a full round counts (R406). -/
def State.rotated (s : State) (t : Nat) : State :=
  let n := (s.rotation t).moves + 1
  let s := s.withRotation t fun x => { x with due := true, target := none, moves := n % proofCells t }
  s.when (n = proofCells t) fun s => s.countRaise PRF.ROTATION_CNT .prf 12

/-- PROOF_INTERVAL_EXPIRY: choose the next target. A crypto core moves between two operations, at once. -/
def State.proofExpiry (s : State) (t : Nat) : State :=
  if (s.rotation t).wait != some 0 || !s.proofOn t || s.get (PRF.RESULT_RESULT t) != 1 then s
  else
    match s.proofSpare t with
    | none => s
    | some spare =>
      match s.nextCell t spare with
      | none => s
      | some i =>
        let s := (s.showTarget t i).withRotation t fun x => { x with wait := none, target := some i }
        if t = 4 then (s.withSec fun k => { k with cryptoServing := spare }).rotated 4 else s

def execProofIntervalExpiry (t : BitVec 3) (s : State) : Host.Outcome State Fault Refusal :=
  .next (s.each (s.proofPair t.toNat) fun t s => s.proofExpiry t)

/-- What a tick does: INTERVAL counts; a lane takes no new job from this tick's clock 0, and is the spare once its jobs are complete, which KND_STAT shows
(`former` until then); an engine whose role has left is due (R406). -/
def State.tickProof (s : State) : State :=
  s.each (List.range 5) fun t s =>
    let s := s.withRotation t fun x => { x with wait := x.wait.map fun n => n - 1 }
    match (s.rotation t).target with
    | none => s
    | some i =>
      if t < 2 then if s.proofSpare t = some i then s.rotated t else s
      else if s.flag (KND.KND_STAT_SPARE_VALID (proofChan t)) then
        ((s.withRotation t fun x => { x with former := some (s.get (KND.KND_STAT_SPARE (proofChan t))) }).set (KND.KND_STAT_SPARE (proofChan t)) i).rotated t
      else s.withRotation t fun x => { x with target := none }

/-! PRF_CTRL and MAINT_CMD (R409, R413). -/

/-- PRF_CTRL: STOP, or an enable that falls, aborts with cause 0x8. -/
def State.writePrfCtrl (s : State) (v : Nat) : State :=
  let was := (s.flag PRF.PRF_CTRL_EN, s.flag PRF.PRF_CTRL_ENG_EN, s.flag PRF.PRF_CTRL_KND_EN, s.flag PRF.PRF_CTRL_CRY_EN)
  let s := s.writeFields .prf ((Page.prf).base + 0x40) v
  let s := s.when (was.2.1 && !bitOf v 1) fun s => (s.abortProof 0 8).abortProof 1 8
  let s := s.when (was.2.2.1 && !bitOf v 2) fun s => (s.abortProof 2 8).abortProof 3 8
  let s := s.when (was.2.2.2 && !bitOf v 3) fun s => s.abortProof 4 8
  if bitOf v 8 || (was.1 && !bitOf v 0) then s.abortInService 8 else s

def execPrfStop (s : State) : Host.Outcome State Fault Refusal := .next (if s.powered .prf then s.abortInService 8 else s)

/-- The target of a maintenance command is idle (R413). -/
def State.maintIdle (s : State) (m : Maintenance) : Bool :=
  match m.target with
  | 4 => m.index < 16 && [0, 3, 5].contains (s.get (ENG.ENG_STAT_STATE m.chan m.index))
  | 5 => m.index < 8 && !(s.kneader m.chan).runs.any fun r => r.lane = some m.index
  | 6 => m.index < 2
  | 1 | 2 | 3 => m.pages.all fun p => !s.flag (HDR.PAGE_CTRL_ENABLE p)
  | _ => false

/-- The pattern count of a maintenance run (R404, R414). -/
def State.maintPatterns (s : State) (target : Nat) : Nat :=
  if s.userProofing && s.get PRF.PAT_CNT != 0 then s.get PRF.PAT_CNT
  else match target with
    | 1 => 61440
    | 2 => 20480
    | 3 => 24576
    | 4 => 4096
    | 5 => 2048
    | _ => 3072

/-- MAINT_CMD (R413). -/
def State.maintCmd (s : State) (v : Nat) : State :=
  if !bitOf v 31 then s
  else
    let target := v % 2 ^ 8
    let m : Maintenance := ⟨target, if bitOf v 13 then .B else .A, v / 2 ^ 8 % 2 ^ 5, false, ⟨v / 2 ^ 8 % 2 ^ 5, s.ltcNs, s.maintPatterns target, [], none⟩⟩
    if s.bothOff && s.maintIdle m && s.proof.maint.isNone && s.proofingState && s.live .prf then
      let s := s.abortInService 8
      let ok := s.withinLimits && !s.flag PWR.SUP_STAT_BO_ACTIVE
      let s := s.when (!s.withinLimits) fun s => s.count PRF.LIMIT_DEFER_CNT
      let s := { s with proof := { s.proof with maint := some { m with run := { m.run with ended := if ok then none else some 0 } } } }
      let s := (s.setFlag PRF.PRF_STAT_MAINT_BUSY true).each m.pages fun p s => s.setFlag (HDR.PAGE_STAT_PROOF_BUSY p) true
      s.when (target = 4) fun s => s.set (ENG.ENG_STAT_STATE m.chan m.index) 4
    else s.refuse .prf

def execMaintCmd (v : Word) (s : State) : Host.Outcome State Fault Refusal :=
  .next (if s.powered .prf then s.maintCmd v.toNat else s)

/-! Power-on proofing (R412). -/

/-- What power-on proofing found. -/
def State.powerOnProofing (s : State) (x : PowerOnProof) : State :=
  if !s.proofingState then s
  else match x.aborted with
  | some (cause, patterns) => ((s.writeResult 6 3 cause.toNat 0 patterns.toNat false).count PRF.ABORT_CNT).raise .prf 9
  | none =>
    let e := x.engines.toNat
    let o := x.others.toNat
    let fail := e != 0 || o != 0
    let s := (s.set PRF.POR_ENG e).set PRF.POR_OTHER_LANES_A (o % 2 ^ 8)
    let s := (s.set PRF.POR_OTHER_LANES_B (o / 2 ^ 8 % 2 ^ 8)).set PRF.POR_OTHER_CRYPTO (o / 2 ^ 16 % 2 ^ 2)
    let s := (s.set PRF.POR_OTHER_REST (o / 2 ^ 20 % 2 ^ 4)).setFlag PRF.POR_OTHER_DONE true
    let s := (s.setFlag PRF.PRF_STAT_POR_DONE true).writeResult 6 (if fail then 2 else 1) 0 0 153600 false
    let s := if fail then s.raise .prf 11 else s.count PRF.PASS_CNT
    let s := s.each (List.range 16) fun i s => s.when (bitOf e i) fun s => s.isolateEngine .A i
    let s := s.each (List.range 16) fun i s => s.when (bitOf e (16 + i)) fun s => s.isolateEngine .B i
    let s := s.each (List.range 8) fun i s => s.when (bitOf o i) fun s => s.isolateLane .A i
    let s := s.each (List.range 8) fun i s => s.when (bitOf o (8 + i)) fun s => s.isolateLane .B i
    let s := s.each (List.range 2) fun i s => s.when (bitOf o (16 + i)) fun s => s.isolateCrypto i
    let s := s.when (bitOf o 20) fun s => s.quarantineWith .A 9 0
    let s := s.when (bitOf o 21) fun s => s.quarantineWith .B 9 0
    let s := s.when (bitOf o 22) fun s => s.failSilence 2 9 0
    s.when (bitOf o 23) fun s => s.failSilence 3 9 0

end Sys2Proof.Machine
end

