-- ==== Sys2Proof/Machine/Security.lean ====
section
/-! DEFINITION. The life cycle, tokens, key installation, debug and secure boot (spec/13_security.md R382 to R387, R396 to R400;
spec/16_power_clocks_reset.md R438, R447, R448; spec/15_coupler_heads.md R422). -/

namespace Sys2Proof.Machine

/-! Tokens (R385). -/

/-- The TOKEN area: byte 0 of a token in bits 31:24 of the first word (log entry 63). -/
abbrev tokenBase : Nat := 0x100200

/-- A token as placed at an offset of the area. -/
def State.tokenAt (s : State) (off : Nat) : List Byte := s.bytes (tokenBase + off) 128

/-- The body of an install command: the area from byte 128 on. -/
def State.tokenBody (s : State) : List Byte := s.bytes (tokenBase + 128) 384

/-- The argument of a token: bytes 24 to 31. -/
def tokenArg (t : List Byte) : List Byte := (t.drop 24).take 8

/-- The public key hash of a key slot whose root is burned and not revoked (R386, R387): slots 0 to 3 Foulan, 4 to 7 operator. -/
def State.rootOf (s : State) (slot : Nat) : Option (BitVec 384) :=
  if slot < 4 then if bitOf s.otp.revoked.toNat slot then none else some (Config.foulanRoot slot)
  else if slot < 8 && !bitOf s.otp.revoked.toNat (4 + slot) then s.otp.operatorRoots[slot - 4]?
  else none

/-- A token is accepted for a command. -/
def State.tokenGood (s : State) (t : List Byte) (cmd : Nat) : Bool :=
  let slot := natOfBE ((t.drop 7).take 1)
  let uid := natOfBE (t.take 6)
  s.cryptoUp && natOfBE ((t.drop 6).take 1) == cmd
    && (uid == (s.otp.uid.getD 0).toNat || (uid == 0 && cmd == 1))
    && (s.sec.chal.any fun c => natOfBE ((t.drop 8).take 16) == c.toNat)
    && match s.rootOf slot with
      | some root => Config.verify root (t.take 32) (t.drop 32)
      | none => false

/-- Its root is Foulan's. -/
def tokenFoulan (t : List Byte) : Bool := decide (natOfBE ((t.drop 7).take 1) < 4)

/-- An install command's body is the one the token covers (R385). -/
def State.bodyCovered (s : State) (t : List Byte) : Bool :=
  natOfBE (tokenArg t) == (Config.sha384 s.tokenBody).toNat / 2 ^ 320

/-! Commands (R384, R387, R398, R422). -/

/-- Whether a command is listed for the life-cycle state (R384). -/
def State.commandAllowed (s : State) (cmd : Nat) : Bool :=
  match cmd with
  | 0x1 => s.lifeCycle = lcBLANK
  | 0x2 => s.lifeCycle = lcMANUFACTURE
  | 0x3 => s.lifeCycle = lcPROVISIONED && !s.otp.operatorRoots.isEmpty && s.otp.flashFleet.isSome
  | 0x4 => s.lifeCycle = lcDEPLOYED
  | 0x5 => s.lifeCycle != lcSCRAPPED
  | 0x6 => s.lifeCycle = lcPROVISIONED
  | 0x7 => s.lifeCycle != lcSCRAPPED
  | 0x8 => s.lifeCycle = lcPROVISIONED || s.lifeCycle = lcDEPLOYED
  | 0x9 => s.lifeCycle = lcPROVISIONED || s.lifeCycle = lcDEPLOYED
  | 0xA => s.lifeCycle = lcPROVISIONED || s.lifeCycle = lcDEPLOYED
  | _ => false

/-- The token, or the two tokens, that a command needs. -/
def State.commandSigned (s : State) (cmd : Nat) : Bool :=
  let t := s.tokenAt 0
  let foulan := tokenFoulan t
  s.tokenGood t cmd && match cmd with
    | 0x1 | 0x2 => foulan
    | 0x3 => !foulan
    | 0x4 =>
      let u := s.tokenAt 128
      s.tokenGood u cmd && foulan != tokenFoulan u
    | 0x5 => !foulan || s.lifeCycle != lcDEPLOYED
    | 0x6 => foulan && s.bodyCovered t
    | 0x7 => true
    | 0x8 => !foulan && s.bodyCovered t
    | 0x9 => if s.lifeCycle = lcPROVISIONED then foulan else !foulan
    | _ => !foulan && s.bodyCovered t

/-- A command ends: CMD_STAT, TOKEN_FAIL_CNT and LC_CMD_DONE. Result codes: 0 done, 2 token refused, 3 not allowed, 4 OTP write failed. -/
def State.endCommand (s : State) (cmd result : Nat) : State :=
  let s := (s.set SEC.CMD_STAT_CMD cmd).set SEC.CMD_STAT_RESULT result
  (s.when (result = 2) fun s => s.count SEC.TOKEN_FAIL_CNT).raise .sec 15

/-- A transition: zeroise, burn, chip reset. CMD_STAT does not outlast the reset. -/
def State.transition (s : State) (cmd dest : Nat) (burn : Otp → Otp) : State :=
  let s := (s.zeroise.endCommand cmd 0)
  { s with otp := { burn s.otp with lifeA := dest, lifeB := dest } }.chipReset PWR.RST_CAUSE_LC

/-- Generate the device identity key and the KEK, with prediction resistance. -/
def State.provision (s : State) : State :=
  match s.random true with
  | none => s.endCommand 0x2 4
  | some (a, s) =>
    match s.random true with
    | none => s.endCommand 0x2 4
    | some (b, s) => s.transition 0x2 lcPROVISIONED fun o => { o with deviceKey := some (BitVec.ofNat 256 a), kek := some (BitVec.ofNat 256 b) }

/-- What an accepted command does. -/
def State.doCommand (s : State) (cmd : Nat) : State :=
  let t := s.tokenAt 0
  let arg := tokenArg t
  match cmd with
  | 0x1 => s.transition 0x1 lcMANUFACTURE fun o => { o with
      uid := some (BitVec.ofNat 48 (natOfBE (arg.take 6))), revoked := o.revoked ||| BitVec.ofNat 16 (natOfBE (arg.drop 6) % 16) }
  | 0x2 => s.provision
  | 0x3 => s.transition 0x3 lcDEPLOYED id
  | 0x4 => s.transition 0x4 lcRETURN fun o => { o with deviceKey := none, kek := none, flashFleet := none, flashHead := none }
  | 0x5 => s.transition 0x5 lcSCRAPPED fun o => { o with deviceKey := none, kek := none, flashFleet := none, flashHead := none }
  | 0x6 =>
    if 4 ≤ s.otp.operatorRoots.length then s.endCommand 0x6 4
    else { s with otp := { s.otp with operatorRoots := s.otp.operatorRoots ++ [Config.sha384 s.tokenBody] } }.endCommand 0x6 0
  | 0x7 => { s with otp := { s.otp with revoked := s.otp.revoked ||| (BitVec.ofNat 16 (natOfBE arg) &&& 0x0F0F) } }.endCommand 0x7 0
  | 0x8 =>
    match s.otp.deviceKey.bind fun k => Config.openBody k s.tokenBody with
    | some key => { s with otp := { s.otp with flashFleet := some key } }.endCommand 0x8 0
    | none => s.endCommand 0x8 2
  | 0x9 =>
    let perm := natOfBE arg % 4
    ((s.set SEC.DBG_STAT_PERM perm).setFlag SEC.KEY_STAT_DBG_OPEN true).raise .sec 14 |>.endCommand 0x9 0
  | 0xA =>
    match s.otp.deviceKey.bind fun k => Config.openBody k s.tokenBody with
    | some key => { s with otp := { s.otp with flashHead := some key } }.endCommand 0xA 0
    | none => s.endCommand 0xA 2
  | _ => s

/-- Judge a command: by the state, then by its token. -/
def State.judgeCommand (s : State) (cmd : Nat) : State :=
  if !s.commandAllowed cmd then s.endCommand cmd 3
  else if !s.commandSigned cmd then s.endCommand cmd 2
  else s.doCommand cmd

/-- A write of LC_CMD: it waits while BO_ACTIVE is 1 (R438), and in SCRAPPED every write is ignored (R400). -/
def State.runCommand (s : State) (cmd : Nat) : State :=
  if !s.powered .sec || s.lifeCycle = lcSCRAPPED then s
  else if s.sec.waiting.isSome then s
  else if s.flag PWR.SUP_STAT_BO_ACTIVE then
    ((s.set SEC.CMD_STAT_CMD cmd).set SEC.CMD_STAT_RESULT 1).withSec fun k => { k with waiting := some cmd }
  else s.judgeCommand cmd

def execLcManufacture (s : State) : Host.Outcome State Fault Refusal := .next (s.runCommand 0x1)
def execLcProvision (s : State) : Host.Outcome State Fault Refusal := .next (s.runCommand 0x2)
def execLcDeploy (s : State) : Host.Outcome State Fault Refusal := .next (s.runCommand 0x3)
def execLcReturn (s : State) : Host.Outcome State Fault Refusal := .next (s.runCommand 0x4)
def execLcScrap (s : State) : Host.Outcome State Fault Refusal := .next (s.runCommand 0x5)
def execOperatorRootInstall (s : State) : Host.Outcome State Fault Refusal := .next (s.runCommand 0x6)
def execRootRevoke (s : State) : Host.Outcome State Fault Refusal := .next (s.runCommand 0x7)
def execFleetKeyInstall (s : State) : Host.Outcome State Fault Refusal := .next (s.runCommand 0x8)
def execDebugToken (s : State) : Host.Outcome State Fault Refusal := .next (s.runCommand 0x9)
def execHeadKeyInstall (s : State) : Host.Outcome State Fault Refusal := .next (s.runCommand 0xA)

/-! Challenges, zeroisation and entropy (R396, R398, R399). -/

/-- A read of DBG_CHAL0 draws a new challenge; where the generator refuses, the old one stays. -/
def State.drawChallenge (s : State) : State :=
  match s.random true with
  | some (v, s) =>
    let c := BitVec.ofNat 128 v
    (s.withSec fun k => { k with chal := some c }).each (List.range 4) fun w s => s.set (SEC.DBG_CHAL w) (c.toNat / 2 ^ (96 - 32 * w))
  | none => s

def execDbgChalRead (who : Requester) (s : State) : Host.Outcome State Fault Refusal :=
  .next (
    if !s.powered .sec || s.lifeCycle = lcSCRAPPED then s
    else
      let s := s.drawChallenge
      s.emit (.regData who 0x100060 (BitVec.ofNat 32 (s.get (SEC.DBG_CHAL 0)))))

/-- SEC.ZEROISE. -/
def State.writeZeroise (s : State) (v : Nat) : State := if v = 0xB4A7 then s.zeroise else s

def execZeroise (v : BitVec 16) (s : State) : Host.Outcome State Fault Refusal :=
  .next (if s.powered .sec then s.writeZeroise v.toNat else s)

/-- TRNG_FAIL: entropy stops until a reset. -/
def execTrngFail (s : State) : Host.Outcome State Fault Refusal :=
  .next (if s.powered .sec then (s.setFlag SEC.TRNG_STAT_HEALTHY false).countRaise SEC.TRNG_FAIL_CNT .sec 12 else s)

/-! Secure boot (R397). -/

/-- The boot stops. -/
def State.bootFail (s : State) (stage cause : Nat) : State :=
  let s := (s.set SEC.BOOT_STAT_STAGE stage).set SEC.BOOT_STAT_CAUSE cause
  { s.raise .sec 8 with power := { s.power with bootNext := 0 } }

/-- The boot goes on to the next stage. -/
def State.bootOn (s : State) (stage : Nat) : State :=
  { s.set SEC.BOOT_STAT_STAGE stage with power := { s.power with bootNext := stage + 1 } }

/-- A number of `n` bytes at an offset of a header, most significant byte first (R257, R397). -/
def headNum (b : List Byte) (off n : Nat) : Nat := natOfBE ((b.drop off).take n)

/-- The digest field of 48 bytes holds the hash of `data` that SIG_ALG names (R257, R397). -/
def digestGood (alg : Nat) (field data : List Byte) : Bool :=
  if alg = 1 then field == bytesBE 32 (Config.sha256 data).toNat ++ List.replicate 16 0
  else alg = 2 && field == bytesBE 48 (Config.sha384 data).toNat

/-- A signature field of 96 bytes verifies over `data` under a slot whose root may be used; that of P-256 fills its first 64 (R257, R385, R397). -/
def State.signatureGood (s : State) (slot alg : Nat) (data field : List Byte) : Bool :=
  (alg = 2 || (field.drop 64).all (· == 0)) && (s.rootOf slot).any fun root => Config.verify root data field

/-- Sizes of an image header: I segment, D init, bytes zeroed after it (R257). -/
def imageI (b : List Byte) : Nat := headNum b 16 4
def imageD (b : List Byte) : Nat := headNum b 20 4
def imageZero (b : List Byte) : Nat := headNum b 24 4

/-- The header of an image is one of R257, with its segments behind it. -/
def headerGood (b : List Byte) : Bool :=
  headNum b 0 4 = 0x47524645 && headNum b 4 1 = 1 && [1, 2].contains (headNum b 5 1) && headNum b 7 1 < 4 && headNum b 8 2 < 2 ^ 15
    && headNum b 10 1 < 4 && headNum b 11 1 = 0 && headNum b 40 8 = 0 && headNum b 192 64 = 0
    && decide (4 ≤ imageI b) && decide (imageI b ≤ 65536) && imageI b % 4 = 0 && imageD b % 4 = 0 && decide (imageD b + imageZero b ≤ 65536)
    && decide (256 + imageI b + imageD b ≤ b.length)

/-- Why an image is not taken: 3 header, digest or signature, 4 rollback; 0 where it is (R257, R397). -/
def State.imageCause (s : State) (b : List Byte) (counter : Nat) : Nat :=
  let alg := headNum b 5 1
  if !(headerGood b && digestGood alg ((b.drop 48).take 48) ((b.drop 256).take (imageI b + imageD b))
    && s.signatureGood (headNum b 6 1) alg (b.take 96) ((b.drop 96).take 96)) then 3
  else if headNum b 12 4 < s.otp.rollback.getD counter 0 then 4 else 0

/-- The entries of a manifest, 16 bytes each (R397). -/
def manifestEntries (b : List Byte) : List (List Byte) := (List.range (headNum b 12 2)).map fun i => (b.drop (256 + 16 * i)).take 16

/-- Why a manifest is not taken (R397): 3, 4, or 0 where it is. One whose fields are not R397's, or that has not exactly one CLASS 0x1 entry, fails as
a bad signature does (log entry 184). -/
def State.manifestCause (s : State) (b : List Byte) : Nat :=
  let alg := headNum b 5 1
  let entries := manifestEntries b
  let entryGood (e : List Byte) : Bool := [1, 2].contains (headNum e 0 1) && headNum e 1 1 < 4 && headNum e 2 2 < 2 ^ 15 && headNum e 12 4 = 0
  if !(headNum b 0 4 = 0x47524D46 && headNum b 4 1 = 1 && [1, 2].contains alg && headNum b 7 1 < 2 && decide (headNum b 8 4 ≤ 64)
    && decide (1 ≤ headNum b 12 2) && decide (headNum b 12 2 ≤ 31) && headNum b 18 14 = 0 && headNum b 176 80 = 0
    && decide (256 + 16 * headNum b 12 2 ≤ b.length) && entries.all entryGood && (entries.filter fun e => headNum e 0 1 = 1).length = 1
    && digestGood alg ((b.drop 32).take 48) ((b.drop 256).take (16 * headNum b 12 2))
    && s.signatureGood (headNum b 6 1) alg (b.take 80) ((b.drop 80).take 96)) then 3
  else if headNum b 8 4 < s.otp.rollback.getD 0 0 then 4 else 0

/-- An image is taken for a role of a channel (R257, R258). -/
def State.imageTaken (s : State) (b : List Byte) (c : Line) (r : Nat) : Bool :=
  s.imageCause b 2 == 0 && bitOf (headNum b 7 1) (if s.lockedMode then 1 else 0) && bitOf (headNum b 10 1) (lineBit c) && bitOf (headNum b 8 2) r

/-- Load an image into the engine that holds a role: TCMs, entries, IMAGE_ID and SEC_VER (R258). -/
def State.loadImage (s : State) (b : List Byte) (c : Line) (r i : Nat) : State :=
  let s := (s.clearRange (tcmI c r) 0x10000).setBytes (tcmI c r) ((b.drop 256).take (imageI b))
  let s := (s.setBytes (tcmD c r) ((b.drop (256 + imageI b)).take (imageD b))).clearRange (tcmD c r + imageD b) (imageZero b)
  let s := (s.set (ENG.IMAGE_ID c i) (headNum b 36 4)).set (ENG.SEC_VER c i) (headNum b 12 4)
  s.withRoleOf c r fun k => { k with image := some (BitVec.ofNat 32 (headNum b 28 4), BitVec.ofNat 32 (headNum b 32 4)) }

/-- The entry may load into a channel: in LOCKED mode only into both at once (R47; log entry 158). -/
def State.entryFor (s : State) (x : BootEntry) (b : List Byte) (c : Line) (r : Nat) : Bool :=
  if s.lockedMode then [Line.A, .B].all fun k => bitOf x.chans (lineBit k) && s.imageTaken b k r else s.imageTaken b c r

/-- A manifest entry names a role of a channel. -/
def BootEntry.names (x : BootEntry) (c : Line) (r : Nat) : Bool := bitOf x.chans (lineBit c) && bitOf x.roles r

/-- One manifest entry: every channel and role it names, but those an earlier entry has named (R397). -/
def State.loadEntry (s : State) (earlier : List BootEntry) (x : BootEntry) (b : List Byte) : State :=
  s.each [Line.A, Line.B] fun c s =>
    s.each (List.range 15) fun r s =>
      if !x.names c r || earlier.any fun y => y.names c r then s
      else match s.engineOf c r with
        | none => s
        | some i =>
          if s.entryFor x b c r then s.loadImage b c r i
          else s.refuse (.eng c i)

/-- The engines whose role has an image and whose RUN was set before the boot start (R258). -/
def State.startLoaded (s : State) : State :=
  s.each [Line.A, Line.B] fun c s =>
    if !s.leads c then s
    else s.each (List.range 15) fun r s =>
      match s.engineOf c r, (s.role c r).image with
      | some i, some (cold, _) => if s.flag (ENG.ENG_CTRL_RUN c i) && s.live (.eng c i) then s.startCold c r cold else s
      | _, _ => s

/-- Advance the rollback counters to what the boot verified, capped at 64 (R397). -/
def State.advanceCounters (s : State) : State :=
  let s := { s with otp := { s.otp with rollback := s.otp.rollback.mapIdx fun v old => max old (min 64 (s.power.versions.getD v old)) } }
  s.each (List.range 4) fun v s => s.set (SEC.SEC_VER_MIN v) (s.otp.rollback.getD v 0)

/-- The boot source is a host push (R446). -/
def State.pushes (s : State) : Bool := [1, 2].contains (s.get PWR.STRAP_BOOT_SRC)

/-- An entry of a pushed stream lies behind the position already consumed (R447). -/
def State.behindStream (s : State) (x : BootEntry) : Bool := s.pushes && decide (x.offs < s.power.consumed)

/-- An entry's image has been read from its source. -/
def State.consume (s : State) (x : BootEntry) : State :=
  if s.behindStream x then s else { s with power := { s.power with consumed := x.offs + x.len } }

/-- The images of the manifest entries as the boot reads them, from a position of the stream on: one behind a pushed stream's position is refused,
so nothing of it is taken (R447). -/
def readImages (push : Bool) (pos : Nat) : List (BootEntry × List Byte) → List (BootEntry × List Byte)
  | [] => []
  | (x, b) :: t =>
    if push && decide (x.offs < pos) then (x, []) :: readImages push pos t
    else (x, b.take x.len) :: readImages push (x.offs + x.len) t

/-- A boot stage ends (R397). -/
def State.bootStage (s : State) (r : BootResult) : State :=
  let next := s.power.bootNext
  match r with
  | .rom otpGood trngGood proof =>
    if next != 1 then s
    else if !otpGood then s.bootFail 1 1
    else if !trngGood then s.bootFail 1 2
    else
      let s := ((s.setFlag SEC.TRNG_STAT_HEALTHY true).setFlag SEC.TRNG_STAT_SERVING true).bootOn 1
      let s := s.powerOnProofing proof
      (s.setFlag PWR.PUSH_STAT_PUSH s.pushes).setFlag PWR.PUSH_STAT_READY s.pushes
  | .manifest first second =>
    if next != 2 then s
    else
      let copy2 := s.manifestCause first != 0 && !s.pushes
      let b := if copy2 then second else first
      let s := s.setFlag SEC.BOOT_STAT_COPY2 copy2
      let cause := s.manifestCause b
      if cause != 0 then s.bootFail 2 cause
      else
        let s := s.bootOn 2
        let entriesOf (cls : Nat) := ((manifestEntries b).filter fun e => headNum e 0 1 = cls).map fun e =>
          (⟨headNum e 1 1, headNum e 2 2, headNum e 4 4, headNum e 8 4⟩ : BootEntry)
        { s with power := { s.power with
            versions := [headNum b 8 4, 0, 64]
            firmware := (entriesOf 1).head?
            entries := entriesOf 2
            consumed := 256 + 16 * headNum b 12 2
            advance := bitOf (headNum b 7 1) 0
            subsystemNext := BitVec.ofNat 32 (headNum b 16 2 * 2 ^ 16 + headNum b 14 2) } }
  | .firmware b =>
    if next != 3 then s
    else
      let entry := s.power.firmware.getD ⟨0, 0, 0, 0⟩
      let b := b.take entry.len
      let cause := if s.behindStream entry || headNum b 8 2 != 0 || headNum b 10 1 != 0 then 3 else s.imageCause b 1
      if cause != 0 then s.bootFail 3 cause
      else
        let s := (s.bootOn 3).consume entry
        { s with power := { s.power with versions := setAt s.power.versions 1 (headNum b 12 4) } }
  | .fleetKey good =>
    if next != 4 then s
    else
      let s := s.withSec fun k => { k with headKey := if s.otp.kek.isSome && s.cryptoUp then s.otp.flashHead else none }
      if s.lifeCycle != lcDEPLOYED then s.bootOn 4
      else
        match s.otp.kek, s.otp.flashFleet with
        | some _, some key =>
          if good && s.cryptoUp then ((s.withSec fun k => { k with fleet := some key }).showKeys).bootOn 4 else s.bootFail 4 5
        | _, _ => s.bootFail 4 5
  | .images list =>
    if next != 5 then s
    else
      let list := readImages s.pushes s.power.consumed (s.power.entries.zip (list ++ List.replicate s.power.entries.length []))
      let s := s.each (List.range list.length) fun k s =>
        s.each list[k]?.toList fun x s => s.loadEntry ((list.take k).map Prod.fst) x.1 x.2
      let taken := list.filter fun x => s.imageCause x.2 2 == 0
      let least := taken.foldl (fun v x => min v (headNum x.2 12 4)) 64
      let s := { s with power := { s.power with versions := setAt s.power.versions 2 (if taken.isEmpty then 0 else least) } }
      s.startLoaded.bootOn 5
  | .subsystem =>
    if next != 6 then s
    else
      let s := { s with power := { s.power with subsystem := s.power.subsystemNext } }
      (s.when (s.power.advance && s.lifeCycle = lcDEPLOYED) State.advanceCounters).bootOn 6
  | .complete =>
    if next != 7 then s
    else
      let before := s
      let s := (s.set SEC.BOOT_STAT_STAGE 7).setFlag CHIP.CHIP_STAT_BOOT_DONE true
      let s := { s with power := { s.power with bootNext := 0 } }
      let s := ((s.setFlag PWR.PUSH_STAT_PUSH false).setFlag PWR.PUSH_STAT_READY false).raise .chip 11
      let asked := s.flag (GTB.LINE_CTRL_EN .A) || s.flag (GTB.LINE_CTRL_EN .B)
      (s.when (asked && !s.checkedConditions) State.raiseCfgBad).recheckLines before

def execBootStageDone (r : BootResult) (s : State) : Host.Outcome State Fault Refusal :=
  .next (if s.power.held || !s.powered .sec then s else s.bootStage r)

/-! Host push (R447). -/

/-- A chunk handed over: READY clears until the security core has taken it. -/
def State.pushChunk (s : State) (last : Bool) : State :=
  let s := s.setFlag PWR.PUSH_STAT_READY false
  { s with power := { s.power with pushLast := last } }

/-- PUSH_CHUNK_TAKEN: READY sets again, but after the last chunk. -/
def execPushChunkTaken (s : State) : Host.Outcome State Fault Refusal :=
  .next (if s.flag PWR.PUSH_STAT_PUSH && !s.power.pushLast then s.setFlag PWR.PUSH_STAT_READY true else s)

end Sys2Proof.Machine
end

