-- ==== Sys2Proof/Machine/Coupler.lean ====
section
/-! DEFINITION. Coupler heads: the debounced level, the tag protocol, sessions, wear and the summary (spec/15_coupler_heads.md R415 to R430). -/

namespace Sys2Proof.Machine

def State.tag (s : State) (m : Nat) : TagPort := s.tags.getD m TagPort.reset

def State.withTag (s : State) (m : Nat) (f : TagPort → TagPort) : State := { s with tags := modifyAt s.tags m f }

/-- An interrupt of a port (R430). -/
def State.raiseHead (s : State) (m j : Nat) : State := s.raise .cpl (8 + 6 * m + j)

/-! Frames (R418). -/

/-- CRC-16, polynomial 0x1021, initial value 0xFFFF. -/
def crc16 (bs : List Byte) : Nat :=
  bs.foldl (fun c b =>
    (List.range 8).foldl (fun c _ => if 2 ^ 15 ≤ c then (2 * c % 2 ^ 16) ^^^ 0x1021 else 2 * c) (c ^^^ (b.toNat * 2 ^ 8))) 0xFFFF

/-- A tag frame: start byte, LEN, CMD or STATUS, SEQ, DATA, CRC. -/
def tagFrame (sof cmd seq : Byte) (data : List Byte) : List Byte :=
  let body := [BitVec.ofNat 8 (data.length + 2), cmd, seq] ++ data
  sof :: body ++ bytesBE 2 (crc16 body)

/-- CMD or STATUS, SEQ and DATA of a good frame. -/
def readTagFrame (sof : Byte) (bs : List Byte) : Option (Byte × Byte × List Byte) :=
  let len := (bs.getD 1 0).toNat
  let body := (bs.drop 1).take (len + 1)
  if bs.head? = some sof && 2 ≤ len && len ≤ 58 && bs.length = len + 4 && natOfBE (bs.drop (len + 2)) == crc16 body then
    some (bs.getD 2 0, bs.getD 3 0, (bs.drop 4).take (len - 2))
  else none

/-! Keys and MACs (R422, R423). -/

/-- An AES-128-CMAC under K_head. -/
def State.headMac (s : State) (tagId : Nat) (msg : List Byte) : Option (List Byte) :=
  if !s.cryptoUp then none
  else s.sec.headKey.map fun k =>
    let key := (Config.kdf k "GRF-HEAD" (bytesBE 6 tagId)).setWidth 128
    bytesBE 16 (Config.cmac (key.setWidth 256) msg).toNat

/-! The link (R415, R417). -/

/-- The tag link is active. -/
def State.tagActive (s : State) (m : Nat) : Bool :=
  s.live .cpl && s.flag CPL.CPL_CTRL_EN && bitOf (s.get CPL.CPL_CTRL_TAG_EN) m && bitOf (s.get (GTB.PORT_CFG_COUPLER .A)) m
    && !s.cellDead .cpl m

/-- The chip drives the bus. -/
def State.tagDrives (s : State) : Bool := s.owns && !s.failSilent

/-- Send the request in hand: CPL_DE is high from one bit time before its first start bit to the end of its last stop bit, 10 bits to a byte at
115,200 baud (R415). -/
def State.sendTag (s : State) (m : Nat) : State :=
  s.when s.tagDrives fun s =>
    let ns := (10 * (s.tag m).request.length + 1) * 1000000000 / 115200
    (s.withTag m fun x => { x with deUntil := s.ltcNs + BitVec.ofNat 64 ns }).emit (.tagFrame m (s.tag m).request)

/-- The CPL_DE output of a port: low on a link that is not active (R415, R417). -/
def State.cplDe (s : State) (m : Nat) : Bool :=
  s.tagActive m && !s.failSilent && decide (s.ltcNs.toNat < (s.tag m).deUntil.toNat)

/-- A new request of a step: SEQ advances. `tail` gives the MAC from the SEQ, where the command carries one. -/
def State.tagRequest (s : State) (m : Nat) (step : TagStep) (cmd : Byte) (data : List Byte) (mac : Bool) : State :=
  let x := s.tag m
  let seq := x.seq + 1
  let tail := if mac then (s.headMac ((x.tagId.getD 0).toNat) ([cmd, seq] ++ data ++ bytesBE 16 x.nonce.toNat)).getD [] else []
  (s.withTag m fun x => { x with step := step, seq := seq, tries := 1, request := tagFrame 0xC5 cmd seq (data ++ tail) }).sendTag m

/-! Wear (R426). -/

/-- The states that apply: 2 WORN, 1 NEAR_END, 0 GOOD. -/
def wearNow (rated mates lowRun : Nat) : Nat :=
  if (rated != 0 && decide (rated ≤ mates)) || decide (3 ≤ lowRun) then 2
  else if rated != 0 && decide (9 * rated ≤ 10 * mates) then 1 else 0

/-- Evaluate wear: NEAR_END and WORN are raised once per TAG_ID, and become events of the session. -/
def State.evalWear (s : State) (m : Nat) : State :=
  let x := s.tag m
  let wear := max x.wear (max (min 2 x.tagState) (wearNow (s.get (CPL.RATED m)) x.mates x.lowRun))
  let near := wear = 1 && !x.nearRaised
  let worn := wear = 2 && !x.wornRaised
  let s := s.withTag m fun x => { x with
    wear := wear, nearRaised := x.nearRaised || near, wornRaised := x.wornRaised || worn
    events := x.events ++ (if near then [2] else []) ++ (if worn then [3] else []) }
  (s.when near fun s => s.raiseHead m 1).when worn fun s => s.raiseHead m 2

/-! Reporting (R429). -/

/-- The sampled margin as the records carry it: 0x8000 where there is none. -/
def marginField (x : Option Int) : Nat := (x.map fun v => fieldOf 16 v).getD 0x8000

/-- HEAD_STAT, MATES, MARGIN and the summary in one fabric clock. -/
def State.showHead (s : State) (m : Nat) : State :=
  let x := s.tag m
  let s := (((s.set (CPL.HEAD_STAT_PRES m) x.pres).set (CPL.HEAD_STAT_AUTH m) x.auth).set (CPL.HEAD_STAT_WEAR m) x.wear).set
    (CPL.HEAD_STAT_LOW_RUN m) x.lowRun
  let s := ((s.set (CPL.MATES m) x.mates).set (CPL.MARGIN_SAMPLED m) (marginField x.sampled)).set (CPL.MARGIN_FLOOR m) (fieldOf 16 x.floor)
  let rated := s.get (CPL.RATED m)
  let stat := x.pres + 4 * x.auth + 16 * x.wear + if s.flag (CPL.HEAD_STAT_CLOSED m) then 128 else 0
  let life := if rated = 0 then 0 else min 255 (100 * x.mates / rated)
  let bytes := bytesBE 6 (x.tagId.getD 0).toNat ++ bytesBE 1 stat ++ bytesBE 1 m ++ bytesBE 4 x.mates ++ bytesBE 2 (marginField x.sampled)
    ++ bytesBE 1 x.lowRun ++ bytesBE 1 life
  let w (i : Nat) := natOfBE ((bytes.drop (4 * i)).take 4)
  (((s.set (CPL.SUM0 m) (w 0)).set (CPL.SUM1 m) (w 1)).set (CPL.SUM2 m) (w 2)).set (CPL.SUM3 m) (w 3)

/-! Sessions (R424, R428). -/

/-- A session starts with IDENT. -/
def State.startSession (s : State) (m : Nat) : State :=
  let s := (s.setFlag (CPL.HEAD_STAT_SESSION m) true).withTag m fun x => { x with restart := false, events := [], sampled := none }
  s.tagRequest m .ident 0x01 [] false

/-- A session ends; a closing during it starts another. -/
def State.endSession (s : State) (m : Nat) : State :=
  let again := (s.tag m).restart
  let s := ((s.withTag m fun x => { x with step := .idle, request := [], restart := false }).setFlag (CPL.HEAD_STAT_SESSION m) false).showHead m
  if again && s.tagActive m then s.startSession m else s

/-- The frame in flight is over and the session may not go on: the coupler has opened, a closing has come, or the hat has moved. -/
def State.tagCutShort (s : State) (m : Nat) : Bool :=
  !s.flag (CPL.HEAD_STAT_CLOSED m) || (s.tag m).restart || !s.tagDrives || !s.tagActive m

/-- Go on with the session, unless it is cut short. -/
def State.goOn (s : State) (m : Nat) (f : State → State) : State := if s.tagCutShort m then s.endSession m else f s

/-- Step 4: the margin is sampled when the port allows it. -/
def State.stepMargin (s : State) (m : Nat) : State := s.withTag m fun x => { x with step := .margin, request := [] }

/-- Step 5: the next record to log, or the end. -/
def State.stepLog (s : State) (m : Nat) : State :=
  let x := s.tag m
  match x.events with
  | [] => s.endSession m
  | e :: _ =>
    s.tagRequest m .logWrite 0x05 (bytesBE 4 x.mates ++ bytesBE 6 s.nodeUid.toNat ++ bytesBE 2 (marginField x.sampled) ++ bytesBE 1 e
      ++ bytesBE 1 x.lowRun ++ bytesBE 1 x.wear ++ bytesBE 1 m) true

/-- Step 3: INCR by PENDING. -/
def State.stepIncr (s : State) (m : Nat) : State :=
  let n := s.get (CPL.HEAD_STAT_PENDING m)
  if n = 0 then s.stepMargin m else s.tagRequest m .incr 0x04 (bytesBE 1 n ++ [0]) true

/-- The log is read back after a TAG_ID change: from the newest record, until 8 hold a margin (R427). -/
def State.stepLogRead (s : State) (m index left : Nat) : State :=
  if left = 0 || 8 ≤ (s.tag m).margins.length then (s.withTag m fun x => { x with loaded := true }).stepIncr m
  else s.tagRequest m (.logRead index left) 0x06 (bytesBE 1 index) false

/-- Step 2: CHAL, or READ_CNT while slot 0x40 is empty or no nonce can be drawn. -/
def State.stepChal (s : State) (m : Nat) : State :=
  let plain := (s.withTag m fun x => { x with auth := 3 }).tagRequest m .readCnt 0x02 [] false
  if s.sec.headKey.isNone then plain
  else match s.random false with
    | none => plain
    | some (v, s) =>
      let n := BitVec.ofNat 128 v
      (s.withTag m fun x => { x with nonce := n }).tagRequest m .chal 0x03 (bytesBE 16 n.toNat) false

/-- All tries of a step have failed. -/
def State.tagGiveUp (s : State) (m : Nat) : State :=
  match (s.tag m).step with
  | .ident => ((s.withTag m fun x => { x with pres := 2 }).raiseHead m 3).endSession m
  | .chal => ((s.withTag m fun x => { x with auth := 2 }).raiseHead m 4).stepMargin m
  | .readCnt => s.stepMargin m
  | .incr => s.stepMargin m
  | .logRead _ _ => s.stepIncr m
  | .logWrite => (s.withTag m fun x => { x with events := x.events.drop 1 }).stepLog m
  | .margin => s
  | .idle => s

/-- TAG_TIMEOUT: three tries in all with one SEQ (R419). -/
def State.tagTimeout (s : State) (m : Nat) : State :=
  let x := s.tag m
  if x.request.isEmpty then s
  else
    let s := s.count (CPL.TAG_TMO_CNT m)
    s.goOn m fun s =>
      if x.tries < 3 then (s.withTag m fun x => { x with tries := x.tries + 1 }).sendTag m else s.tagGiveUp m

/-! What a response tells (R420, R424): both chips of a pair take it. -/

/-- The counter record; with the first one after a TAG_ID change LOW_RUN comes from the tag (R424). -/
def State.takeCounter (s : State) (m : Nat) (r : List Byte) : State :=
  s.withTag m fun x => { x with
    mates := natOfBE (r.take 4), tagState := natOfBE ((r.drop 11).take 1), tagLogNext := natOfBE ((r.drop 12).take 1) % 32
    lowRun := if x.newId then natOfBE ((r.drop 10).take 1) else x.lowRun, newId := false }

/-- A TAG_ID; another than the last seen on the port makes the head new. -/
def State.takeTagId (s : State) (m id : Nat) : State :=
  if (s.tag m).tagId = some (BitVec.ofNat 48 id) then s
  else
    let s := s.withTag m fun x => { x with
      tagId := some (BitVec.ofNat 48 id), loaded := false, newId := true, margins := [], nearRaised := false, wornRaised := false, wear := 0, auth := 0
      lowRun := 0 }
    let s := (s.set (CPL.TAG_ID_LO m) (id % 2 ^ 32)).set (CPL.TAG_ID_HI m) (id / 2 ^ 32)
    (s.set (CPL.HEAD_STAT_PENDING m) 1).raiseHead m 0

/-- The identity record: false where the head is of no known kind. -/
def State.takeIdentity (s : State) (m : Nat) (d : List Byte) : State × Bool :=
  let kind := natOfBE ((d.drop 7).take 1)
  if natOfBE ((d.drop 6).take 1) != 1 || 32 ≤ kind || !bitOf (s.get CPL.TYPE_MASK) kind then
    ((s.withTag m fun x => { x with pres := 3 }).raiseHead m 3, false)
  else
    let s := s.takeTagId m (natOfBE (d.take 6))
    let s := s.set (CPL.RATED m) (natOfBE ((d.drop 8).take 4))
    (s.withTag m fun x => { x with pres := 1, floor := signedOf 16 (natOfBE ((d.drop 12).take 2)) }, true)

/-- INCR acknowledged: what it counted is no longer pending. -/
def State.takeIncr (s : State) (m delta : Nat) (r : List Byte) : State :=
  let s := s.set (CPL.HEAD_STAT_PENDING m) (s.get (CPL.HEAD_STAT_PENDING m) - delta)
  (s.takeCounter m r).evalWear m

/-- A wear-log record stored: its margin joins those kept for the median. -/
def State.takeLog (s : State) (m : Nat) (rec : List Byte) (r : List Byte) : State :=
  let v := natOfBE ((rec.drop 10).take 2)
  let s := s.takeCounter m r
  s.withTag m fun x => { x with margins := if v = 0x8000 then x.margins else (x.margins ++ [signedOf 16 v]).drop (x.margins.length + 1 - 8) }

/-- A MAC in a response is good. -/
def State.macGood (s : State) (m : Nat) (msg mac : List Byte) : Bool :=
  s.headMac ((s.tag m).tagId.getD 0).toNat msg == some mac

/-- A good response, at the chip that drives. -/
def State.tagAnswered (s : State) (m : Nat) (status seq : Byte) (d : List Byte) : State :=
  let x := s.tag m
  let nonce := bytesBE 16 x.nonce.toNat
  let refused := s.count (CPL.AUTH_FAIL_CNT m)
  match x.step with
  | .ident =>
    if status != 0 || d.length != 32 then s
    else
      let (s, ok) := s.takeIdentity m d
      if ok then s.goOn m fun s => s.stepChal m else s.endSession m
  | .chal =>
    if status != 0 || d.length != 38 then s
    else
      let r := (d.drop 6).take 16
      if !s.macGood m (nonce ++ d.take 22) (d.drop 22) then refused
      else
        let s := (s.takeCounter m r).withTag m fun x => { x with auth := 1 }
        s.goOn m fun s => if x.loaded then s.stepIncr m else s.stepLogRead m (((s.tag m).tagLogNext + 31) % 32) 32
  | .readCnt =>
    if status != 0 || d.length != 16 then s
    else (s.takeCounter m d).goOn m fun s => s.stepMargin m
  | .logRead index left =>
    if status != 0 || d.length != 16 then s
    else
      let v := natOfBE ((d.drop 10).take 2)
      let keep := v != 0x8000 && natOfBE ((d.drop 12).take 1) != 0
      let s := s.withTag m fun x => { x with margins := if keep then signedOf 16 v :: x.margins else x.margins }
      s.goOn m fun s => s.stepLogRead m ((index + 31) % 32) (left - 1)
  | .incr =>
    if d.length != 32 then s.goOn m fun s => s.tagGiveUp m
    else if !s.macGood m ([status, seq] ++ d.take 16 ++ nonce) (d.drop 16) then refused
    else if status != 0 then s.goOn m fun s => s.tagGiveUp m
    else
      let delta := (x.request.getD 4 0).toNat
      (s.takeIncr m delta (d.take 16)).goOn m fun s => s.stepMargin m
  | .logWrite =>
    if d.length != 32 then s.goOn m fun s => s.tagGiveUp m
    else if !s.macGood m ([status, seq] ++ d.take 16 ++ nonce) (d.drop 16) then refused
    else if status != 0 then s.goOn m fun s => s.tagGiveUp m
    else
      let s := s.takeLog m ((x.request.drop 4).take 16) (d.take 16)
      s.goOn m fun s => (s.withTag m fun x => { x with events := x.events.drop 1 }).stepLog m
  | .margin => s
  | .idle => s

/-- A response overheard whose MAC does not verify: the third of CHAL with one SEQ makes the head counterfeit there too (R417, R423, R424). -/
def State.overheardBad (s : State) (m : Nat) (cmd seq : Byte) : State :=
  let x := s.tag m
  let n := if x.seq = seq && x.tries != 0 then x.tries + 1 else 1
  let s := (s.count (CPL.AUTH_FAIL_CNT m)).withTag m fun x => { x with seq := seq, tries := n }
  s.when (cmd = 0x03 && n = 3) fun s => (s.withTag m fun x => { x with auth := 2, tries := 0 }).raiseHead m 4

/-- The MAC of an overheard response is good: a write's covers STATUS, SEQ, counter record and NONCE (R423). A chip without the head key takes it
as it is. -/
def State.overheardGood (s : State) (m : Nat) (cmd seq : Byte) (q : List Byte) (status : Byte) (d : List Byte) : Bool :=
  s.sec.headKey.isNone || (if cmd = 0x03 then s.macGood m (q.take 16 ++ d.take 22) (d.drop 22)
    else s.macGood m ([status, seq] ++ d.take 16 ++ bytesBE 16 (s.tag m).nonce.toNat) (d.drop 16))

/-- What a chip that does not drive learns from an exchange on the bus (R417). -/
def State.tagOverheard (s : State) (m : Nat) (cmd seq : Byte) (q : List Byte) (status : Byte) (d : List Byte) : State :=
  if status != 0 then s
  else if (cmd = 0x03 && d.length = 38 || (cmd = 0x04 || cmd = 0x05) && d.length = 32) && !s.overheardGood m cmd seq q status d then
    s.overheardBad m cmd seq
  else
    let s := match cmd.toNat with
      | 0x01 => if d.length = 32 then (s.takeIdentity m d).1 else s
      | 0x02 => if d.length = 16 then (s.takeCounter m d).withTag m fun x => { x with auth := 3 } else s
      | 0x03 =>
        if d.length = 38 then
          (s.takeCounter m ((d.drop 6).take 16)).withTag m fun x =>
            { x with auth := if s.sec.headKey.isSome then 1 else 3, nonce := BitVec.ofNat 128 (natOfBE (q.take 16)) }
        else s
      | 0x04 => if d.length = 32 then s.takeIncr m (q.getD 0 0).toNat (d.take 16) else s
      | 0x05 =>
        if d.length = 32 then
          let v := natOfBE ((q.drop 10).take 2)
          let s := s.takeLog m q (d.take 16)
          s.withTag m fun x => { x with
            lowRun := natOfBE ((q.drop 13).take 1), wear := max x.wear (natOfBE ((q.drop 14).take 1))
            sampled := if v = 0x8000 then none else some (signedOf 16 v) }
        else s
      | _ => s
    (s.withTag m fun x => { x with seq := seq, tries := 0 }).showHead m

/-- TAG_RESPONSE_RX: a response, with the request it answers as the bus carried it. An outgoing wearer finishes the frame in flight (R417). -/
def State.tagResponse (s : State) (m : Nat) (request response : List Byte) : State :=
  match readTagFrame 0x5C response with
  | none => s.count (CPL.TAG_CRC_ERR_CNT m)
  | some (status, seq, d) =>
    if s.tagDrives || !(s.tag m).request.isEmpty then
      if (s.tag m).request.isEmpty || seq != (s.tag m).seq then s else s.tagAnswered m status seq d
    else
      match readTagFrame 0xC5 request with
      | none => s.count (CPL.TAG_CRC_ERR_CNT m)
      | some (cmd, qseq, q) => if qseq = seq then s.tagOverheard m cmd seq q status d else s

/-! Margin (R425, R427). -/

/-- A read of the PHY as a margin in 0.1 dB, rounded towards zero. -/
def State.marginOf (s : State) (m r : Nat) : Int :=
  Int.tdiv (((r : Int) - s.get (CPL.MARGIN_CAL_OFFSET m)) * s.getInt (CPL.MARGIN_CAL_SCALE m)) 256

/-- The smallest of the reads that the PHY answered. -/
def State.sampleOf (s : State) (m : Nat) (reads : List (Option (BitVec 16))) : Option Int :=
  (reads.filterMap id).foldl (fun (best : Option Int) r =>
    let v := saturate 16 (s.marginOf m r.toNat)
    some (match best with | some b => min b v | none => v)) none

/-- An integer in its place among ascending ones. -/
def insertInt (v : Int) : List Int → List Int
  | [] => [v]
  | x :: xs => if v ≤ x then v :: x :: xs else x :: insertInt v xs

/-- More than DROP below the median of the 8 margins kept; the median of 8 lies midway between the two in the middle (log entry 64). -/
def drifts (margins : List Int) (sampled : Int) (drop : Nat) : Bool :=
  let a := margins.foldr insertInt []
  margins.length = 8 && decide (2 * (sampled + drop) < a.getD 3 0 + a.getD 4 0)

/-- The 16 reads at 1 ms intervals may have been taken: the first no earlier than 100 ms after the port's link came up (R425). -/
def State.sampleDue (s : State) (m : Nat) : Bool :=
  let p := backbonePort (8 + m)
  s.linkUp p && decide (115000000 ≤ (s.ltcNs - ((s.lineOf p.line).portOf p.side).linkUpAt).toNat)

/-- MARGIN_SAMPLE: step 4 ends, with no sample where the link did not come up within the coupling window. -/
def State.marginSample (s : State) (m : Nat) (linked : Bool) (reads : List (Option (BitVec 16))) : State :=
  if (s.tag m).step != .margin || (linked && !s.sampleDue m) then s
  else if s.tagCutShort m then s.endSession m
  else
    let used := if linked && s.flag (CPL.PORT_CFG_MDIO_EN m) then reads.take 16 else []
    let s := s.countBy (CPL.MDIO_ERR_CNT m) (used.filter Option.isNone).length
    let v := s.sampleOf m used
    let low := match v with | some x => decide (x < (s.tag m).floor) | none => true
    let s := s.withTag m fun x => { x with sampled := v, lowRun := if low then min 255 (x.lowRun + 1) else 0 }
    let s := s.evalWear m
    let drift := match v with | some x => drifts (s.tag m).margins x (s.get CPL.TREND_DROP) | none => false
    let s := s.when drift fun s => (s.raiseHead m 5).withTag m fun x => { x with events := x.events ++ [4] }
    if (s.tag m).auth = 1 then (s.withTag m fun x => { x with events := 1 :: x.events }).stepLog m else s.endSession m

/-! The commands. -/

/-- CPL_CLOSED_CHANGE: the first debounced level after a reset is the starting state; an opening ends a session that has no frame in flight
(R416, R428). -/
def State.closedChange (s : State) (p : BackbonePort) (closed : Bool) : State :=
  let m := portIndex p
  let first := !(s.tag m).started
  let was := s.flag (CPL.HEAD_STAT_CLOSED m)
  let s := (s.setFlag (CPL.HEAD_STAT_CLOSED m) closed).withTag m fun x => { x with started := true }
  if first || was = closed then s
  else
    let s := s.topologyEvent p false
    if !closed && (s.tag m).step = .margin then s.endSession m else s

def execCplClosedChange (p : BackbonePort) (closed : Bool) (s : State) : Host.Outcome State Fault Refusal :=
  .next (if s.powered .cpl then s.closedChange p closed else s)

/-- TAG_SESSION: a closing on an active tag link. -/
def State.tagSession (s : State) (m : Nat) : State :=
  if !s.tagActive m then s
  else
    let s := (s.count (CPL.LOCAL_MATES m)).countBy (CPL.HEAD_STAT_PENDING m) 1
    if !s.tagDrives then s
    else match (s.tag m).step with
      | .idle => s.startSession m
      | .margin => (s.withTag m fun x => { x with restart := true }).endSession m
      | _ => s.withTag m fun x => { x with restart := true }

def execTagSession (m : BitVec 2) (s : State) : Host.Outcome State Fault Refusal := .next (s.tagSession m.toNat)

/-- A chip that drives no bus any more goes no further: a session with no frame in flight ends (R417). -/
def State.dropSessions (s : State) : State :=
  s.each (List.range 4) fun m s => if !s.tagDrives && (s.tag m).step = .margin then s.endSession m else s

/-- The incoming wearer's sessions at its first release (R417). -/
def State.hatSessions (s : State) : State :=
  s.each (List.range 4) fun m s =>
    if s.tagActive m && s.flag (CPL.HEAD_STAT_CLOSED m) && (s.tag m).step = .idle then s.startSession m else s

def execTagResponseRx (m : BitVec 2) (request response : List Byte) (s : State) : Host.Outcome State Fault Refusal :=
  .next (if s.tagActive m.toNat then s.tagResponse m.toNat request response else s)

def execTagTimeout (m : BitVec 2) (s : State) : Host.Outcome State Fault Refusal :=
  .next (if s.tagActive m.toNat then s.tagTimeout m.toNat else s)

def execMarginSample (m : BitVec 2) (linked : Bool) (reads : List (Option (BitVec 16))) (s : State) : Host.Outcome State Fault Refusal :=
  .next (if s.tagActive m.toNat then s.marginSample m.toNat linked reads else s)

end Sys2Proof.Machine
end

