-- ==== Sys2Proof/Machine/Power.lean ====
section
/-! DEFINITION. Supplies, temperature, the guardian oscillator counter and the host push (spec/16_power_clocks_reset.md R436 to R443, R447;
spec/14_proofing.md R402). -/

namespace Sys2Proof.Machine

/-! The brown-out monitor (R437 to R439). -/

/-- Codes of SUP_STAT.BO_STATE. -/
abbrev boNORMAL : Nat := 0
abbrev boWARN : Nat := 1
abbrev boRECOVER : Nat := 2

/-- A reading of VDD in mV: the lowest since the last read, at 2 mV resolution, and the proofing window. -/
def State.readVdd (s : State) (mv : Nat) : State :=
  (s.update PWR.VDD_MIN (min (mv / 2 * 2))).setFlag PWR.SUP_STAT_VDD_WIN (780 ≤ mv && mv ≤ 820)

/-- A warning within 1 µs of VDD leaving its window: runs that the excursion ended show cause 0x6 (R439). -/
def State.renameAborts (s : State) : State :=
  let s := match s.proof.vddAborted with
    | some (t, targets) => s.when ((s.ltcNs - t).toNat ≤ 1000) fun s => s.each targets fun u s => s.set (PRF.RESULT_CAUSE u) 6
    | none => s
  { s with proof := { s.proof with vddAborted := none } }

/-- The monitor changes state now, with this warning time behind it (R437). -/
def State.monitor (s : State) (spent : Nat) : State :=
  { s with power := { s.power with boSince := s.ltcNs, boSpent := spent } }

/-- Nanoseconds since the monitor's last change of state. -/
def State.monitored (s : State) : Nat := (s.ltcNs - s.power.boSince).toNat

/-- VDD below 0.760 V for 200 ns: from BO_NORMAL and from BO_RECOVER. -/
def State.brownoutWarn (s : State) (mv : Nat) : State :=
  if s.get PWR.SUP_STAT_BO_STATE = boWARN then s.readVdd mv
  else
    let s := s.monitor (if s.get PWR.SUP_STAT_BO_STATE = boNORMAL then 0 else s.power.boSpent)
    let s := (s.readVdd mv).set PWR.SUP_STAT_BO_STATE boWARN
    let s := (s.setFlag PWR.SUP_STAT_BO_ACTIVE true).updateFlag PWR.RST_CAUSE_BO_SEEN
    let s := (s.countRaise PWR.BO_WARN_CNT .pwr 8).renameAborts.excursion 6
    { s with brownoutMark := true }

def execBrownoutWarn (mv : BitVec 12) (s : State) : Host.Outcome State Fault Refusal := .next (s.brownoutWarn mv.toNat)

/-- The warning time reaches 50 µs, once per warning: a wearer starts the handover of R334. -/
def State.brownoutLong (s : State) : State :=
  if s.get PWR.SUP_STAT_BO_STATE = boWARN && !s.flag PWR.SUP_STAT_BO_LONG && 50000 ≤ s.power.boSpent + s.monitored then
    ((s.setFlag PWR.SUP_STAT_BO_LONG true).countRaise PWR.BO_LONG_CNT .pwr 9).tryHandover s.handoverTick
  else s

def execBrownoutLong (s : State) : Host.Outcome State Fault Refusal := .next s.brownoutLong

/-- VDD above 0.775 V. -/
def execBoRecover (s : State) : Host.Outcome State Fault Refusal :=
  .next (if s.get PWR.SUP_STAT_BO_STATE = boWARN then (s.monitor (s.power.boSpent + s.monitored)).set PWR.SUP_STAT_BO_STATE boRECOVER else s)

/-- 1 ms in BO_RECOVER: the life-cycle command that waited runs (R438). -/
def State.brownoutEnd (s : State) : State :=
  if s.get PWR.SUP_STAT_BO_STATE = boRECOVER && 1000000 ≤ s.monitored then
    let s := ((s.set PWR.SUP_STAT_BO_STATE boNORMAL).setFlag PWR.SUP_STAT_BO_ACTIVE false).setFlag PWR.SUP_STAT_BO_LONG false
    let s := s.raise .pwr 10
    match s.sec.waiting with
    | some cmd => (s.withSec fun k => { k with waiting := none }).judgeCommand cmd
    | none => s
  else s

def execBrownoutEnd (s : State) : Host.Outcome State Fault Refusal := .next s.brownoutEnd

/-! Proofing excursions (R402). -/

/-- The targets with a run in progress; a maintenance run is target 5. -/
def State.runningTargets (s : State) : List Nat :=
  ((List.range 5).filter fun t => (s.rotation t).run.isSome) ++ if s.proof.maint.any (fun m => m.run.ended != some 0) then [5] else []

/-- VDD stands at `mv` for 200 ns: leaving the window ends the runs with cause 0x3; a reading inside it shows the window again. -/
def State.vddReading (s : State) (mv : Nat) : State :=
  let was := s.flag PWR.SUP_STAT_VDD_WIN
  let s := s.readVdd mv
  if s.flag PWR.SUP_STAT_VDD_WIN || !was then s
  else
    let targets := s.runningTargets
    let s := s.excursion 3
    { s with proof := { s.proof with vddAborted := some (s.ltcNs, targets) } }

def execVddWindowExcursion (mv : BitVec 12) (s : State) : Host.Outcome State Fault Refusal := .next (s.vddReading mv.toNat)

/-- A sample of Tj in 0.25 °C (R440). -/
def State.tjSample (s : State) (t : BitVec 12) : State :=
  let ok := -160 ≤ t.toInt && t.toInt ≤ 500
  let s := (s.set PWR.TJ t.toNat).setFlag PWR.SUP_STAT_TJ_WIN ok
  if ok then s else (s.raise .pwr 13).excursion 5

def execTjRange (t : BitVec 12) (s : State) : Host.Outcome State Fault Refusal := .next (s.tjSample t)

/-- A window of the guardian oscillator counter (R443). -/
def State.gocWindow (s : State) (ref fab eng : Nat) (early : Bool) : State :=
  let within (lo hi v : Nat) : Bool := lo ≤ v && v ≤ hi
  let s := ((s.set CLK.GOC_REF ref).set CLK.GOC_FAB fab).set CLK.GOC_ENG eng
  let refOk := within 248 252 ref
  let fabOk := within 3980 4020 fab
  let engOk := within 7960 8040 eng
  let s := (s.setFlag CLK.CLK_STAT_GRD_OK (!early)).setFlag CLK.CLK_STAT_REF_OK refOk
  let s := (s.setFlag CLK.CLK_STAT_FAB_OK fabOk).setFlag CLK.CLK_STAT_ENG_OK engOk
  let deviates := early || !refOk || !within 3960 4040 fab || !within 7920 8080 eng
  let s := if fabOk && engOk then s else (s.countRaise CLK.PLL_DEV_CNT .clk 9).excursion 4
  let second := deviates && s.power.deviating
  let s := { s with power := { s.power with deviating := deviates } }
  let s := s.when deviates fun s => s.countRaise CLK.GOC_DEV_CNT .clk 8
  s.when second fun s => (s.reportUE .clk 0 6 0).failSilence 4 6 0

def execGocWindow (ref fab eng : BitVec 16) (early : Bool) (s : State) : Host.Outcome State Fault Refusal :=
  .next (s.gocWindow ref.toNat fab.toNat eng.toNat early)

end Sys2Proof.Machine
end

