-- ==== Sys2Proof/Machine/Errors.lean ====
section
/-! DEFINITION. Errors as cells detect them: memory and datapath errors, the scrubber, crossbar timeouts and the lockstep comparator
(spec/02_inside_the_device.md R34 to R54; spec/07_kneaders.md R197; spec/10_can_fd_and_mvb.md R311). -/

namespace Sys2Proof.Machine

/-- CAUSE of an uncorrectable error (R44). -/
def ErrKind.cause : ErrKind → Nat
  | .single => 1
  | .double => 2
  | .parity => 3
  | .protocol => 8

/-- The page whose block an error belongs to, and the cell within it. -/
def ErrSite.place : ErrSite → Page × Nat
  | .engine c i => (.eng c i.toNat, 0)
  | .kneaderLane c lane => (.knd c, lane.toNat)
  | .kneaderTable c _ => (.knd c, 63)
  | .cryptoCore i => (.sec, i.toNat)
  | .canCell c | .canWord c _ => (.can c.toNat, 0)
  | .mvbCell j | .mvbWord j _ => (.mvb j.toNat, 0)
  | .gpioCell p => (.gpio, p.toNat)
  | .tagLink m => (.cpl, m.toNat)
  | .consistMac m => (.mac m.toNat, 0)
  | .bankSlot c _ _ | .draft c _ | .doughImage c | .holdCopy c | .trayStaging c => (.loaf c, 0)
  | .sharedMemory c _ => (.loaf c, 1)
  | .switchFrame _ | .trdpWord _ | .trdpEntry _ _ => (.sw, 0)
  | .bridgeBuffer p => (match p with | .qspi => .qspi | .lzl => .lzl | _ => .pcie, 0)
  | .epochShadow => (.twin, 0)
  | .saveBuffer => (.prf, 0)
  | .sliceDirectory c => (.loaf c, 2)
  | .lineRegion c => (.gtb c, 0)
  | .sharedRegion => (.sw, 0)
  | .securityRegion => (.sec, 0)

/-! Corrected errors (R36, R42, R43, R52). -/

/-- One scrub period in ns (R53). -/
def State.scrubPeriod (s : State) : Nat := s.get CHIP.SCRUB_CTRL_PERIOD * 100000000

/-- A CE at a word: counted, recorded, and a storm where 16 fall within one scrub period. -/
def State.correctedError (s : State) (p : Page) (cell word : Nat) : State :=
  let now := s.ltcNs.toNat
  let same (x : CeRun) : Bool := x.source = p.source && x.cell = cell && x.word = word
  let times := ((s.health.ces.find? same).map fun x => x.times.filter fun t => now < t + s.scrubPeriod).getD [] ++ [now]
  let storm := 16 ≤ times.length
  let s := { s with health := { s.health with
    ces := s.health.ces.filter (fun x => !same x) ++ if storm then [] else [(⟨p.source, cell, word, times⟩ : CeRun)] } }
  let s := (s.count (HDR.ERR_CNT_CE p)).recordError p 1 cell 1 word
  s.when storm fun s => s.raise p 0

/-! Items discarded (R36). -/

/-- A word of a slice's payload in a bank: the slice is discarded from it (log entry 65). -/
def State.loseBankSlot (s : State) (c : Line) (b slot : Nat) : State :=
  match (s.bank c b).entry slot with
  | none => s
  | some e =>
    let s := s.when (b = s.formingBank c) fun s => { s with selection := { s.selection with
      copies := s.selection.copies.filter fun x => x.slot != slot } }
    (s.withBank c b fun k => k.setEntry slot fun e => { e with
      status := stEMPTY, lineA := false, lineB := false, flags := noFlags, age := 0 }).clearRange (bankAddr c b + e.offs) e.len

/-- A FIFO element is dropped; those behind it move up (R311). -/
def State.dropFifoElement (s : State) (c f i : Nat) : State :=
  let get := s.get (CAN.FIFO_STAT_GET c f)
  let fill := s.get (CAN.FIFO_STAT_FILL c f)
  let at_ := (i + 32 - get) % 32
  if fill ≤ at_ then s.clearRange (canFifo c f i) 80
  else
    let s := s.each ((List.range (fill - 1)).drop at_) fun k s =>
      s.copyRange (canFifo c f ((get + k + 1) % 32)) (canFifo c f ((get + k) % 32)) 80
    let s := s.clearRange (canFifo c f ((get + fill - 1) % 32)) 80
    (s.set (CAN.FIFO_STAT_PUT c f) ((s.get (CAN.FIFO_STAT_PUT c f) + 31) % 32)).set (CAN.FIFO_STAT_FILL c f) (fill - 1)

/-- A word of the CAN message RAM (R311): STAGE of a transmit buffer is read again from LIVE (log entry 65). -/
def State.loseCanWord (s : State) (c off : Nat) : State :=
  let off := off / 8 * 8
  let s := s.count (CAN.MEM_ERR_CNT c)
  if 0x3C00 ≤ off then
    let b := (off - 0x3C00) / 16 % 64
    s.writeCanCfg c b 0 (withBit (s.canWord c b 0) 31 false) fun s => s.askCancel c b
  else if 0x2800 ≤ off then
    let f := if off < 0x3200 then 0 else 1
    s.dropFifoElement c f ((off - (canFifo c f 0 - canRam c)) / 80 % 32)
  else
    let b := off / 160
    if s.canTx c b then
      if off % 160 < 80 then s.resync (canObj c b)
      else if bitOf (s.txPending c) b then s.endRequest c b (2 ^ 24) else s
    else
      let s := s.clearRange (canRam c + off) 8
      if off % 160 < 80 then
        (s.setNewData c b false).withCan c fun k => { k with seen := k.seen.filter fun x => x != b }
      else s.withCan c fun k => { k with shadow := k.shadow.filter fun x => x != b }

/-- A word of the MVB port RAM: a sink port's data count as never received, a source port's STAGE is read again from LIVE, a port entry is
switched off (log entry 65). -/
def State.loseMvbWord (s : State) (j off : Nat) : State :=
  let off := off / 8 * 8
  if off < 0x4000 then
    let e := off / 64
    if s.mvbDir j e = 1 then s.resync (mvbObj j e)
    else (s.clearRange (mvbRam j + off) 8).withMvb j fun k => { k with seen := k.seen.filter fun x => x != e }
  else if off < 0x5000 then
    let e := (off - 0x4000) / 16
    s.setBeWord (mvbCfg j e) (withBit (s.mvbWord j e 0) 31 false)
  else s

/-- A word of engine shared memory: its content is open (log entries 11, 65). -/
def State.loseSharedWord (s : State) (c : Line) (off : Nat) : State :=
  let off := off / 8 * 8
  let (v, s) := s.draw
  let bs := bytesBE 8 v
  (s.setBytes (sharedMem c + off) bs).setBytes (sharedStage c + off) bs

/-- A frame in the switch buffer: its copies are dropped. -/
def State.loseFrame (s : State) (id : Nat) : State := s.each (s.switch.queues.filter fun x => x.id = id) fun x s => s.discard x

/-- The entry of a table whose dataset holds a pool offset: receive entries first (R276). -/
def State.poolHolder (s : State) (off : Nat) : Option (Bool × Nat) :=
  let holds (a len : Nat) : Bool := decide (a ≤ trdpPool + off) && decide (trdpPool + off < a + len)
  match lowest 512 fun e => holds (trdpPool + 64 * s.beNat (trdpRx e + 12) 2) (min 1432 (s.beNat (trdpRx e + 2) 2)) with
  | some e => some (true, e)
  | none => (lowest 512 fun e => holds (s.trdpBuf e false) (s.trdpTxLen e) || holds (s.trdpBuf e true) (s.trdpTxLen e)).map fun e => (false, e)

/-- A TRDP entry is switched off: its EN clears (log entry 65). -/
def State.dropTrdpEntry (s : State) (receive : Bool) (e : Nat) : State :=
  let a := if receive then trdpRx e else trdpTx e
  s.setByte a (BitVec.ofNat 8 (withBit (s.byte a).toNat 7 false))

/-- A word of the TRDP pool: a received dataset counts as never received, STAGE of a transmit entry is read again from LIVE, and an entry whose
LIVE dataset is lost sends no more (log entry 65). -/
def State.loseTrdpWord (s : State) (off : Nat) : State :=
  let off := off / 8 * 8
  match s.poolHolder off with
  | some (true, e) => { s.clearRange (trdpPool + off) 8 with trdpSeen := s.trdpSeen.filter fun x => x != e }
  | some (false, e) =>
    let a := s.trdpBuf e (!s.trdpLiveSel e)
    if a ≤ trdpPool + off && trdpPool + off < a + s.trdpTxLen e then s.resync (trdpObj e) else s.dropTrdpEntry false e
  | none => s.clearRange (trdpPool + off) 8

/-- The epoch shadow: the epoch in arrival is discarded (R340), else the committed one is lost (log entry 65). -/
def State.loseEpoch (s : State) : State :=
  if s.twinUnit.incoming.isSome then s.epochFail else s.withTwin fun t => { t with committed := none }

/-- The dough image: what the host has made ready is lost (log entry 65). -/
def State.loseDough (s : State) : State := (s.setReady false).setDoubtfulReq false

/-- The hold copy: there is none until the next slice is written (log entry 65). -/
def State.loseHold (s : State) : State := { s with holdCopy := { s.holdCopy with valid := false } }

/-- The slice staged for this cycle is not written (log entry 65). -/
def State.loseStaging (s : State) : State := { s with capture := { s.capture with kind := .none } }

/-- Mark the oldest read of the PCIe bridge that waits. -/
def spoilFirst : List HostRead → List HostRead
  | [] => []
  | r :: t => if r.bridge = .pcie then { r with spoiled := true } :: t else r :: spoilFirst t

/-- A word of a bridge buffer: the PCIe completion being gathered, the delayed-read result, or the message being assembled (R361, log entry 65). -/
def State.loseBridge (s : State) (p : Page) : State :=
  match p with
  | .qspi => { s with bridges := { s.bridges with slot := s.bridges.slot.map fun _ => none } }
  | .lzl => ({ s with bridges := { s.bridges with epochData := [] } }).withForming fun f => { f with heldSegments := [] }
  | _ => { s with bridges := { s.bridges with hostReads := spoilFirst s.bridges.hostReads } }

/-! Uncorrectable errors (R36). -/

/-- A cell without a spare is isolated. -/
def State.isolateCell (s : State) (p : Page) (cell cause word : Nat) : State :=
  if s.cellDead p cell then s
  else
    let s := (s.classDE p cell cause word).setFlag (HDR.PAGE_STAT_FAULT p) true
    { s with health := { s.health with dead := s.health.dead ++ [(p, cell)] } }

/-- A failed engine's copy meets another bad word before the tick (R254). -/
def State.worsenMove (s : State) (c : Line) (r : Nat) (lost : Bool) : State :=
  { s with engMoves := s.engMoves.map fun m => if m.chan = c && m.role = r && !m.planned then
      { m with poisoned := m.poisoned + (if lost then 0 else 1), lost := m.lost || lost } else m }

/-- An uncorrectable error in an engine. Words 0x0000 to 0x1FFF are its I-TCM and those from 0x2000 on its D-TCM, as its address map orders
them (log entry 66); a D-TCM word becomes 0. -/
def State.engineError (s : State) (c : Line) (i : Nat) (kind : ErrKind) (word : Nat) : State :=
  if s.engineUnderTest c i then s
  else
    let inMemory := kind = .double && word < 0x4000
    let lost := inMemory && word < 0x2000
    let poisoned := inMemory && !lost
    let failed := s.get (ENG.ENG_STAT_STATE c i) = 5
    match s.roleAt c i with
    | none => s.failEngine c i kind.cause word 0 false
    | some r =>
      let s := s.when poisoned fun s => s.clearRange (tcmI c r + 8 * word) 8
      if failed then s.when inMemory fun s => s.worsenMove c r lost
      else s.failEngine c i kind.cause word (if poisoned then 1 else 0) lost

/-- A region UE of a channel (R39). -/
def State.regionUE (s : State) (p : Page) (c : Line) (cell cause word : Nat) : State :=
  (s.reportUE p cell cause word).quarantineWith c cause cell

/-- A UE of the shared (2) or security (3) region is one of the chip (R36). -/
def State.chipUE (s : State) (p : Page) (region cell cause word : Nat) : State :=
  (s.reportUE p cell cause word).failSilence region cause cell

/-- What the device does with an uncorrectable error at a site. -/
def State.uncorrectable (s : State) (site : ErrSite) (kind : ErrKind) (word : Nat) : State :=
  let (p, cell) := site.place
  let cause := kind.cause
  let contained (f : State → State) : State := f (s.classDE p cell cause word)
  match site with
  | .engine c i => s.engineError c i.toNat kind word
  | .kneaderLane c lane => s.failLane c lane.toNat cause word
  | .kneaderTable c addr => contained fun s => s.withKneader c fun k => { k with
      badWords := insertNat (tableMacro c + addr.toNat / 8 * 8) k.badWords }
  | .cryptoCore i => s.failCrypto i.toNat cause word
  | .canCell _ => s.isolateCell p 0 cause word
  | .mvbCell _ => s.isolateCell p 0 cause word
  | .consistMac _ => s.isolateCell p 0 cause word
  | .gpioCell _ => s.isolateCell p cell cause word
  | .tagLink m => (s.when (s.flag (CPL.HEAD_STAT_SESSION m.toNat)) fun s => s.endSession m.toNat).isolateCell p cell cause word
  | .bankSlot c b slot => contained fun s => s.loseBankSlot c b.toNat slot.toNat
  | .draft c d => contained fun s => s.closeDraft c d.toNat
  | .switchFrame id => contained fun s => s.loseFrame id
  | .trdpWord off => contained fun s => s.loseTrdpWord off.toNat
  | .trdpEntry receive e => contained fun s => s.dropTrdpEntry receive e.toNat
  | .canWord c off => contained fun s => s.loseCanWord c.toNat off.toNat
  | .mvbWord j off => contained fun s => s.loseMvbWord j.toNat off.toNat
  | .sharedMemory c off => contained fun s => s.loseSharedWord c off.toNat
  | .doughImage _ => contained State.loseDough
  | .holdCopy _ => contained State.loseHold
  | .trayStaging _ => contained State.loseStaging
  | .bridgeBuffer _ => contained fun s => s.loseBridge p
  | .epochShadow => contained State.loseEpoch
  | .saveBuffer => contained fun s => s.excursion 7
  | .sliceDirectory c | .lineRegion c => s.regionUE p c cell cause word
  | .sharedRegion => s.chipUE p 2 cell cause word
  | .securityRegion => s.chipUE p 3 cell cause word

/-- A maintenance run tests a cell (R413). -/
def State.inMaint (s : State) (target : Nat) (c : Line) (i : Nat) : Bool :=
  s.proof.maint.any fun m => m.target = target && m.chan = c && m.index = i && m.run.ended != some 0

/-- A cell under test reports nothing (R37, R409). -/
def State.siteUnderTest (s : State) (site : ErrSite) : Bool :=
  match site with
  | .engine c i => s.engineUnderTest c i.toNat
  | .kneaderLane c lane => s.inMaint 5 c lane.toNat || (s.rotation (2 + lineBit c)).run.any fun (r : ProofRun) => r.cell = lane.toNat
  | .cryptoCore i =>
    s.inMaint 6 .A i.toNat || s.inMaint 6 .B i.toNat || (s.rotation 4).run.any fun (r : ProofRun) => r.cell = i.toNat
  | _ => false

/-- An error found at a site: a single-bit error of a memory is corrected, everything else is uncorrectable (R36, R52). -/
def State.errorAt (s : State) (site : ErrSite) (kind : ErrKind) (word : Nat) : State :=
  let (p, cell) := site.place
  if !s.powered p || s.siteUnderTest site then s
  else match kind with
    | .single => s.correctedError p cell word
    | _ => s.uncorrectable site kind word

def execMemoryError (site : ErrSite) (kind : ErrKind) (word : BitVec 20) (s : State) : Host.Outcome State Fault Refusal :=
  .next (s.errorAt site kind word.toNat)

/-- SCRUB_READ: what the scrubber finds it classes as a functional read would (R53). -/
def execScrubRead (site : ErrSite) (found : Option ErrKind) (word : BitVec 20) (s : State) : Host.Outcome State Fault Refusal :=
  .next (match found with | some kind => s.errorAt site kind word.toNat | none => s)

/-! Crossbar and comparator. -/

/-- A crossbar timeout against a target region (R34): the third in a cycle is a UE of that region. The always-on region, 4, has no row of its own
in the escalation matrix: its UE is one of the chip (log entry 78). -/
def State.crossbarTimeout (s : State) (target : Nat) : State :=
  let n := s.health.timeouts.getD target 0 + 1
  let s := { s with health := { s.health with timeouts := setAt s.health.timeouts target n } }
  let s := s.countRaise CHIP.XBAR_TMO_CNT .chip 8
  if n < 3 then s.classDE .chip target 4 0
  else match target with
    | 0 => s.regionUE .chip .A 0 4 0
    | 1 => s.regionUE .chip .B 1 4 0
    | _ => s.chipUE .chip target target 4 0

/-- LOCKSTEP_MISCOMPARE: in LOCKED mode while both channels are compared, a UE of both channel regions (R48 to R50). Both stop, so nothing leaves
either from then on. -/
def execLockstepMiscompare (s : State) : Host.Outcome State Fault Refusal :=
  .next (
    if s.lockedMode && !s.flag CHIP.CH_MODE_LOCK_LOST then ((s.chipUE .chip 4 0 5 0).quarantineMark .A).quarantineMark .B
    else s)

end Sys2Proof.Machine
end

