-- ==== Sys2Proof/Machine/Intc.lean ====
section
/-! DEFINITION. The interrupt tree: source lines, INT_N, vectors and their messages (spec/17_register_pages.md R459, R460, R462;
spec/12_bridges.md R361). -/

namespace Sys2Proof.Machine

/-- The page of a source number, if one holds it (R464). -/
def pageOfSource (n : Nat) : Option Page := allPages.find? fun p => p.source = n

/-- The line of a source: high while INT_STAT of its page is not 0. -/
def State.srcLine (s : State) (n : Nat) : Bool :=
  match pageOfSource n with
  | some p => (s.get (HDR.INT_RAW p) &&& s.get (HDR.INT_EN p)) != 0
  | none => false

/-- The sources that pages hold. -/
def sources : List Nat := allPages.map Page.source

/-- A word of SRC_LINE. -/
def State.srcLineWord (s : State) (w : Nat) : Nat :=
  (sources.filter fun n => n / 32 = w && s.srcLine n).foldl (fun v n => v ||| 2 ^ (n % 32)) 0

/-- INT_N is asserted. -/
def State.intN (s : State) : Bool :=
  !s.power.held && s.flag INTC.INTC_CTRL_INTN_EN && sources.any fun n => s.flag (INTC.SRC_ROUTE_INTN_EN n) && s.srcLine n

/-- The pending level of a vector. -/
def State.vecPending (s : State) (v : Nat) : Bool :=
  sources.any fun n => s.flag (INTC.SRC_ROUTE_MSIX_EN n) && s.get (INTC.SRC_ROUTE_VEC n) = v && s.srcLine n

/-- VEC_PEND as one value. -/
def State.vecPend (s : State) : Nat :=
  (sources.filter fun n => s.flag (INTC.SRC_ROUTE_MSIX_EN n) && s.srcLine n).foldl (fun v n => v ||| 2 ^ s.get (INTC.SRC_ROUTE_VEC n)) 0

def State.vecArm (s : State) : Nat := s.get64 INTC.VEC_ARM_LO INTC.VEC_ARM_HI

/-- The MSI-X table of vector v: address and data words, and the mask bit of its control word (R361). -/
def msixEntry (v : Nat) : Nat := 0xF00000 + 16 * v
def State.msixMasked (s : State) (v : Nat) : Bool := s.bridges.config.msixMask || bitOf (s.beWord (msixEntry v + 12)) 0

/-- The pending bit array (R352, R361). -/
def pbaByte (v : Nat) : Nat := 0xF01000 + 4 * (v / 32) + (3 - v % 32 / 8)
def State.setPba (s : State) (v : Nat) (b : Bool) : State :=
  s.setByte (pbaByte v) (BitVec.ofNat 8 (withBit (s.byte (pbaByte v)).toNat (v % 8) b))
def State.pba (s : State) (v : Nat) : Bool := bitOf (s.byte (pbaByte v)).toNat (v % 8)

/-- The bridge writes a vector's message, or drops it (R361, R362). -/
def State.sendMsix (s : State) (v : Nat) : State :=
  if s.pcieUp && s.bridges.config.msixEn then
    s.emit (.msix v (BitVec.ofNat 64 (s.beWord (msixEntry v + 4) * 2 ^ 32 + s.beWord (msixEntry v))) (BitVec.ofNat 32 (s.beWord (msixEntry v + 8))))
  else s.count PCIE.OUT_DROP_CNT

/-- A message reaches the bridge: while its vector is masked it waits in the pending bit array. -/
def State.passMsix (s : State) (v : Nat) : State :=
  if s.pcieUp && s.bridges.config.msixEn && s.msixMasked v then s.setPba v true else s.sendMsix v

/-- Pending messages whose vector is no longer masked go out (R361; the PCI Express specification). -/
def State.unmaskMsix (s : State) : State :=
  s.each (List.range 64) fun v s =>
    if s.pba v && s.bridges.config.msixEn && !s.msixMasked v then (s.setPba v false).sendMsix v else s

/-- MSIX_MESSAGE: an armed vector whose pending level is 1. -/
def State.msixMessage (s : State) (v : Nat) : State :=
  if !s.power.held && s.flag INTC.INTC_CTRL_MSIX_EN && bitOf s.vecArm v && s.vecPending v then
    ((s.set64 INTC.VEC_ARM_LO INTC.VEC_ARM_HI (withBit s.vecArm v false)).count INTC.MSIX_CNT).passMsix v
  else s

def execMsixMessage (v : BitVec 6) (s : State) : Host.Outcome State Fault Refusal := .next (s.msixMessage v.toNat)

/-- Arm the vectors of a mask; where one's pending level is 1 a new message follows at once (R460). -/
def State.rearm (s : State) (mask : Nat) : State :=
  (s.set64 INTC.VEC_ARM_LO INTC.VEC_ARM_HI (s.vecArm ||| mask)).each ((List.range 64).filter fun v => bitOf mask v) fun v s => s.msixMessage v

/-- VEC_REARM_LO and VEC_REARM_HI. -/
def execVecRearm (mask : BitVec 64) (s : State) : Host.Outcome State Fault Refusal := .next (s.rearm mask.toNat)

end Sys2Proof.Machine
end

