-- ==== Sys2Proof/Machine/Switch.lean ====
section
/-! DEFINITION. The switch's commands (spec/09_ethernet_ports_and_switch.md R263 to R290; spec/03_train_time.md R77, R78; spec/05_the_tray.md
R156 to R159): receiving, forwarding, starting and dropping frames, pause, TRDP telegrams, recovery, ETB mode, 802.1AS. -/

namespace Sys2Proof.Machine

/-! Forwarding. -/

/-- A frame on its way through the switch: R265's VID and PCP, the internal priority, which is a transmit ring's index (R274) and otherwise the
PCP, and what R274 reports of it. -/
structure Transit where
  inPort : Nat
  frame : Eth
  vid : Nat
  pcp : Nat
  prio : Nat
  handle : Option Nat
  strip : Bool
  sof : BitVec 64
  ring : Option Nat
deriving DecidableEq, Repr

/-- The bits R274's receive descriptor reports of the three checksums. -/
def State.checkBits (s : State) (e : Eth) : Nat := e.ipCheck * 16 + e.l4Check * 4 + e.trdpCheck (s.get SW.TRDP_CFG_PORT)

/-- The bytes that leave on a port: tagged or untagged as UNTAG gives, the R-TAG stripped on non-backbone ports where asked (R274, R285). -/
def State.egressBytes (s : State) (t : Transit) (q : Nat) : List Byte :=
  let e := if t.strip && !isBackbone q then { t.frame with body := t.frame.inner } else t.frame
  e.toBytes (if bitOf (s.vlanUntag t.vid) q then none else some (t.pcp * 2 ^ 13 + t.vid))

/-- The egress queue of a priority on a port (R270, R274). -/
def State.queueFor (s : State) (q prio : Nat) : Nat := s.get (MAC.PCP_MAP q) / 8 ^ prio % 8

/-- The wearer's standby drops engine frames towards the consist (R346). -/
def State.standbyDrops (s : State) (inPort q : Nat) : Bool :=
  s.twin && !s.owns && s.flag TWIN.TWIN_CTRL_ENG_TX_FOLLOW && 13 ≤ inPort && q < 8

/-- Send a frame to a set of ports; answers whether it reached any. -/
def State.forwardTo (s : State) (t : Transit) (set : List Nat) : State × Bool :=
  let stopped := set.filter fun q => s.standbyDrops t.inPort q
  let s := s.countBy TWIN.STBY_DROP_CNT stopped.length
  let set := set.filter fun q => !s.standbyDrops t.inPort q
  let (s, any) := s.enqueue ((set.filter fun q => q < 12).map fun q => (q, s.egressBytes t q)) (fun q => s.queueFor q t.prio) t.inPort t.ring false
  let rings := set.filter fun q => 12 ≤ q
  let s := s.each rings fun q s =>
    s.deliverRing q (s.egressBytes t q) t.prio t.vid t.inPort t.frame.rtag.isSome t.frame.tci.isSome (s.checkBits t.frame) t.sof
  (s.checkPause t.inPort, any || !rings.isEmpty)

/-- R267's set before R268: the entry's ports or the VLAN's members, without the ingress port; `none` where a static entry drops. -/
def State.egressSet (s : State) (t : Transit) : Option (List Nat) :=
  let member := s.vlanMember t.vid
  let keep (l : List Nat) := l.filter fun q => bitOf member q && q != t.inPort
  match s.staticEntry t.vid t.frame.da with
  | some i =>
    let w := s.beWord (staticWord i 2)
    if bitOf w 31 then none else some (keep (portsOfMask w))
  | none =>
    match (if isUnicast t.frame.da then s.learned t.vid t.frame.da else none) with
    | some e => some (keep [e.port])
    | none => some (keep (portsOfMask member))

/-- R-TAG of a frame that enters the backbone on both lines (R284). -/
def State.generate (s : State) (t : Transit) : State × Transit :=
  if isBackbone t.inPort || s.vlanLines t.vid ≠ 3 || t.frame.rtag.isSome then (s, t)
  else match t.handle.bind (s.functionFor (genWord · 0)) with
    | some i =>
      let seq := s.beWord (genWord i 1) % 2 ^ 16
      (s.setBeWord (genWord i 1) ((seq + 1) % 2 ^ 16), { t with frame := t.frame.addRtag seq })
    | none => (s, t)

/-- Forward by R267 and R268. -/
def State.forward (s : State) (t : Transit) : State × Bool :=
  match s.egressSet t with
  | none => (s, false)
  | some set =>
    let (set, down) := s.backboneRules t.inPort t.vid (s.vlanMember t.vid) t.frame set
    let s := s.countBy SW.LINE_DOWN_DROP_CNT down
    let (s, t') := if set.any isBackbone then s.generate t else (s, t)
    let bb := set.filter isBackbone
    let own := set.filter fun q => !isBackbone q
    if t'.frame = t.frame || own.isEmpty then s.forwardTo t' set
    else
      let (s, a) := s.forwardTo t' bb
      let (s, b) := s.forwardTo t own
      (s, a || b)

/-! Qci (R282, R283). -/

/-- The cycle whose window holds a start-of-frame time, among the current one and the one before. -/
def State.windowCycle (s : State) (i : Nat) (sof : BitVec 64) : Option Nat :=
  let w := s.beWord (filterWord i 3)
  let div := w / 2 ^ 16 % 2 ^ 10
  let div := if div = 0 then 1024 else div
  [(s.cycle, (0 : Int)), (s.cycle + 2 ^ 32 - 1, (s.cycleLen : Int))].findSome? fun c =>
    let n := c.1 % 2 ^ 32
    let into := (sof - s.tickNs).toInt + c.2
    if n % div = w % 2 ^ 10 && decide ((s.beWord (filterWord i 4) : Int) ≤ into) && decide (into < (s.beWord (filterWord i 5) : Int)) then some n
    else none

/-- Frames counted so far in a filter's window of a cycle. -/
def State.windowCount (s : State) (i n : Nat) : Nat := ((s.switch.windows.find? fun x => x.1 = i && x.2.1 = n).map fun x => x.2.2).getD 0

/-- A 16-bit count in word 7 of a filter, PASS in the upper half. -/
def State.countFilter (s : State) (i : Nat) (pass : Bool) : State :=
  let w := s.beWord (filterWord i 7)
  let (p, d) := (w / 2 ^ 16, w % 2 ^ 16)
  s.setBeWord (filterWord i 7) (if pass then min 0xFFFF (p + 1) * 2 ^ 16 + d else p * 2 ^ 16 + min 0xFFFF (d + 1))

/-- A frame of a filter's stream: passed, or a violation that drops it and may block the stream. -/
def State.checkStream (s : State) (i len : Nat) (sof : BitVec 64) : State × Bool :=
  let w2 := s.beWord (filterWord i 2)
  let w3 := s.beWord (filterWord i 3)
  let max := s.beWord (filterWord i 6) % 2 ^ 16
  let win := if bitOf w3 31 then s.windowCycle i sof else none
  let tooLong := w2 / 2 ^ 16 != 0 && decide (w2 / 2 ^ 16 < len)
  let outside := bitOf w3 31 && win.isNone
  let tooMany := max != 0 && (win.any fun n => max ≤ s.windowCount i n)
  let s := match win with
    | some n => s.withSwitch fun x => { x with windows := (i, n, s.windowCount i n + 1) :: x.windows.filter fun y => y.1 != i }
    | none => s
  if tooLong || outside || tooMany || bitOf w3 29 then
    let s := (s.countFilter i false).count SW.QCI_DROP_CNT
    (s.when (bitOf w3 30) fun s => (s.setBeWord (filterWord i 3) (w3 ||| 2 ^ 29)).raise .sw 10, false)
  else (s.countFilter i true, true)

/-- The central star on a consist port. -/
def State.star (s : State) (q : Nat) (handle : Option Nat) (len : Nat) (sof : BitVec 64) : State × Bool :=
  if 8 ≤ q then (s, true)
  else match s.get (MAC.MAC_CTRL_STAR_MODE q), handle with
    | 1, some i => s.checkStream i len sof
    | 2, some i => s.checkStream i len sof
    | 2, none => (s.count SW.QCI_DROP_CNT, false)
    | _, _ => (s, true)

/-! Recovery (R285): the vector recovery algorithm of IEEE 802.1CB (PRESUMED, log entry 48). -/

def State.recoveryOf (s : State) (i : Nat) : Recovery := (s.switch.recovery.find? fun r => r.fn = i).getD ⟨i, true, [], 0⟩

def State.setRecovery (s : State) (r : Recovery) : State :=
  s.withSwitch fun x => { x with recovery := r :: x.recovery.filter fun y => y.fn != r.fn }

/-- A saturating 32-bit count in a table word. -/
def State.countWord (s : State) (a : Nat) : State := s.setBeWord a (min 0xFFFFFFFF (s.beWord a + 1))

/-- HIST, 1 to 32. -/
def State.histLen (s : State) (i : Nat) : Nat := max 1 (min 32 (s.beWord (recWord i 0) / 2 ^ 16 % 2 ^ 6))

/-- Vector recovery of a sequence number: passed or discarded. -/
def State.recover (s : State) (i seq : Nat) : State × Bool :=
  let r := s.recoveryOf i
  let n := s.histLen i
  let last := s.beWord (recWord i 5) % 2 ^ 16
  let delta : Int := signedOf 16 ((seq + 2 ^ 16 - last) % 2 ^ 16)
  let pass (s : State) (h : List Bool) (at_ : Nat) : State × Bool :=
    (((s.setRecovery ⟨i, false, h.take n, s.ltcNs⟩).setBeWord (recWord i 5) at_).countWord (recWord i 2), true)
  if r.takeAny then pass s [true] seq
  else if delta ≥ n ∨ delta ≤ -n then ((s.countWord (recWord i 3)).count SW.CB_DISCARD_CNT, false)
  else if delta ≤ 0 then
    if r.history.getD delta.natAbs false then ((s.countWord (recWord i 3)).count SW.CB_DISCARD_CNT, false)
    else pass s (setAt (r.history ++ List.replicate (n - r.history.length) false) delta.natAbs true) last
  else pass s (true :: (List.replicate (delta.toNat - 1) false ++ r.history)) seq

/-- CB_RESET. -/
def execCbReset (fn : Byte) (s : State) : Host.Outcome State Fault Refusal :=
  .next (
    let i := fn.toNat
    let r := s.recoveryOf i
    let w := s.beWord (recWord i 1) % 2 ^ 16
    if s.live .sw && bitOf (s.beWord (recWord i 0)) 31 && !r.takeAny && w * 1000000 ≤ (s.ltcNs - r.lastPass).toNat then
      ((s.setRecovery ⟨i, true, [], r.lastPass⟩).countWord (recWord i 4)).countRaise SW.CB_RESET_CNT .sw 11
    else s)

/-! TRDP reception (R278). -/

/-- The receive entry a telegram matches: its comId and source, or its comId with SRC_IP 0. -/
def State.trdpEntry (s : State) (comId src : Nat) : Option Nat :=
  let at_ (want : Nat) := lowest 512 fun e =>
    bitOf (s.byte (trdpRx e)).toNat 7 && s.beNat (trdpRx e + 4) 4 = comId && s.beNat (trdpRx e + 8) 4 = want
  (at_ src).or (at_ 0)

/-- Offer a frame to the receive entries: whether the frame is forwarded as well. A telegram that fails several checks counts once; the spec does
not say where: checksums and FCS first, then type, length and fragment, then the duplicate, then topology (DESIGN CHOICE, log entry 188). -/
def State.trdpReceive (s : State) (e : Eth) : State × Bool :=
  let p := e.inner.drop 2
  match Ip.parse e.etype p with
  | some i =>
    if !(i.v4 && i.proto = 17 && 8 ≤ i.seg.length && beAt i.seg 2 2 = s.get SW.TRDP_CFG_PORT && 20 ≤ i.seg.length) then (s, true)
    else
      let d := i.seg.drop 8
      match s.trdpEntry (beAt d 8 4) (beAt p 12 4) with
      | none => (s, true)
      | some n =>
        let a := trdpRx n
        let fcs := e.ipCheck = 1 && (beAt i.seg 6 2 = 0 || checksum i.seg i.pseudo = 0 || i.frag) && (d.drop 36).take 4 = trdpFcs d
        let len := beAt d 6 2 = 0x5064 && beAt d 20 4 = s.beNat (a + 2) 2 && !i.frag && beAt d 20 4 ≤ d.length - 40
        let dup := beAt d 0 4 = s.beNat (a + 16) 4
        let topoOk (v : Nat) (r : Reg) := v = 0 || v = s.get r
        let topo := !bitOf (s.byte a).toNat 6 || (topoOk (beAt d 12 4) SW.TRDP_TOPO_ETB && topoOk (beAt d 16 4) SW.TRDP_TOPO_OP)
        if !fcs then (s.countRaise SW.TRDP_FCS_ERR_CNT .sw 12, false)
        else if !len then (s.countRaise SW.TRDP_LEN_ERR_CNT .sw 12, false)
        else if dup then (s.count SW.TRDP_DUP_CNT, false)
        else if !topo then (s.countRaise SW.TRDP_TOPO_ERR_CNT .sw 12, false)
        else
          let data := (d.drop 40).take (min 1432 (s.beNat (a + 2) 2))
          let s := s.setBytes (trdpPool + 64 * s.beNat (a + 12) 2) data
          let s := ((s.setBytes (a + 16) (bytesBE 4 (beAt d 0 4))).setBytes (a + 20) (bytesBE 4 s.cycle)).setBytes (a + 24)
            (bytesBE 4 (min 0xFFFFFFFF (s.beNat (a + 24) 4 + 1)))
          let s := { s with trdpSeen := if s.trdpSeen.contains n then s.trdpSeen else s.trdpSeen ++ [n] }
          (s.rxTriggers 5 n, bitOf (s.byte a).toNat 5)
  | none => (s, true)

/-! Ingress. -/

/-- R265: VID and PCP, or the drop. Ports 12 to 14 have no PVID register: VID 1 and PCP 0, the reset value of PVID; a transmit ring's untagged
frame takes the ring's index as its PCP (log entry 45). -/
def State.assignVlan (s : State) (q : Nat) (e : Eth) : Option (Nat × Nat) :=
  let pvid := if q < 12 then s.get (MAC.PVID_PVID q) else 1
  let pcp := if q < 12 then s.get (MAC.PVID_PCP q) else 0
  let only := q < 12 && s.flag (MAC.PVID_TAGGED_ONLY q)
  match e.tci with
  | none => if only then none else some (pvid, pcp)
  | some v => if v % 4096 = 0 then (if only then none else some (pvid, v / 2 ^ 13)) else some (v % 4096, v / 2 ^ 13)

/-- The trap that takes a frame (R269). -/
def State.trapOf (s : State) (e : Eth) : Option Nat :=
  lowest 8 fun t => s.flag (SW.TRAP_CFG_EN t) && s.get (SW.TRAP_MAC_HI t) * 2 ^ 32 + s.get (SW.TRAP_MAC_LO t) = e.da.toNat
    && (s.get (SW.TRAP_CFG_ETYPE t) = 0 || s.get (SW.TRAP_CFG_ETYPE t) = e.etype)

/-- The port a trap sends to; 0b11 has no meaning in R289's table, and the frame then goes nowhere, counted as trapped (DESIGN CHOICE, log
entry 186). -/
def State.trapPorts (s : State) (k : Nat) : List Nat := match s.get (SW.TRAP_CFG_TARGET k) with | 0 => [12] | 1 => [13] | 2 => [14] | _ => []

/-- The switch takes an accepted frame from a port (R265 to R269, R278, R282 to R285). -/
def State.ingress (s : State) (q : Nat) (e : Eth) (len : Nat) (sof : BitVec 64) (prio ring : Option Nat) : State × Bool :=
  let port := s.groupPort q
  match s.assignVlan q e with
  | none => (s, false)
  | some (vid, pcp) =>
    let keep (l : List Nat) := l.filter fun o => bitOf (s.vlanMember vid) o && o != q
    let pcp := if e.tci.isSome then pcp else prio.getD pcp
    if !s.vlanValid vid || !bitOf (s.vlanMember vid) q then (s.count SW.VLAN_DROP_CNT, false)
    else
      let s := s.learn vid e.sa port
      let t : Transit := ⟨q, e, vid, pcp, prio.getD pcp, s.filterOf q vid e, false, sof, ring⟩
      match s.trapOf e with
      | some k =>
        (s.countRaise SW.TRAP_CNT .sw 15).forwardTo t (keep (s.trapPorts k))
      | none =>
        let (s, ok) := s.star q t.handle len sof
        if !ok then (s, false)
        else
          match e.rtag, t.handle.bind (s.functionFor (recWord · 0)) with
          | some seq, some i =>
            let (s, pass) := s.recover i seq
            if pass then
              let (s, fwd) := s.trdpReceive e
              if fwd then s.forward { t with strip := bitOf (s.beWord (recWord i 0)) 30 } else (s, true)
            else if isBackbone q then
              let other := keep [if q % 2 = 0 then q + 1 else q - 1]
              s.forwardTo t (s.backboneRules q vid (s.vlanMember vid) e other).1
            else (s, false)
          | _, _ =>
            let (s, fwd) := s.trdpReceive e
            if fwd then s.forward t else (s, true)

/-! PAUSE on receive (R159, R279, R280). -/

/-- A PAUSE frame of `quanta` received on a port: its time runs from now; a frame in transmission completes, and PAUSED shows from then on
(R279). -/
def State.takePause (s : State) (q quanta : Nat) : State :=
  if isBackbone q && !s.etbOn then s.count (GTB.PAUSE_IGN_CNT (backbonePort q).line)
  else
    let s := s.count (MAC.PAUSE_RX_CNT q)
    if !s.flag (MAC.MAC_CTRL_PAUSE_RX_EN q) || s.flag (MAC.MAC_STAT_HOLDOFF q) then s
    else if quanta = 0 then s.set (MAC.MAC_STAT_PAUSED q) 0
    else
      let was := s.flag (MAC.MAC_STAT_PAUSED q)
      let s := s.withPort q fun p => { p with
        pauseUntil := s.ltcNs + BitVec.ofNat 64 (wireNs (s.ifCode q) (64 * quanta))
        pauseSince := if was then p.pauseSince else s.ltcNs }
      s.set (MAC.MAC_STAT_PAUSED q) 1

def execPauseFrameRx (q : BitVec 4) (quanta : BitVec 16) (s : State) : Host.Outcome State Fault Refusal :=
  .next (if q.toNat < 12 && s.portOn q.toNat then s.takePause q.toNat quanta.toNat else s)

def execPauseExpiry (q : BitVec 4) (s : State) : Host.Outcome State Fault Refusal :=
  .next (if q.toNat < 12 && s.portOn q.toNat && (s.swPort q.toNat).pauseUntil.toNat ≤ s.ltcNs.toNat then s.set (MAC.MAC_STAT_PAUSED q.toNat) 0 else s)

def execPauseStorm (q : BitVec 4) (s : State) : Host.Outcome State Fault Refusal :=
  .next (
    let q := q.toNat
    if q < 12 && s.portOn q && s.flag (MAC.MAC_STAT_PAUSED q)
        && s.get (MAC.PAUSE_WD_WD q) * 1000000 ≤ (s.ltcNs - (s.swPort q).pauseSince).toNat then
      ((((s.set (MAC.MAC_STAT_PAUSED q) 0).set (MAC.MAC_STAT_HOLDOFF q) 1).count (MAC.PAUSE_STORM_CNT q)).raiseMac q 1).withPort q fun p =>
        { p with holdoffUntil := s.ltcNs + BitVec.ofNat 64 (s.get (MAC.PAUSE_WD_HOLDOFF q) * 1000000) }
    else s)

def execPauseStormEnd (q : BitVec 4) (s : State) : Host.Outcome State Fault Refusal :=
  .next (
    let q := q.toNat
    if q < 12 && s.portOn q && s.flag (MAC.MAC_STAT_HOLDOFF q) && (s.swPort q).holdoffUntil.toNat ≤ s.ltcNs.toNat then
      (s.set (MAC.MAC_STAT_HOLDOFF q) 0).raiseMac q 2
    else s)

/-- PAUSE_TX_REPEAT: half the quanta have elapsed above XON, or the level has come down to it (R281). -/
def execPauseTxRepeat (q : BitVec 4) (s : State) : Host.Outcome State Fault Refusal :=
  .next (
    let q := q.toNat
    match (s.swPort q).pausing with
    | some at_ =>
      if q < 12 && s.portOn q && s.flag (MAC.MAC_CTRL_PAUSE_TX_EN q) then
        if s.cellsFrom q ≤ s.get (MAC.PAUSE_THR_XON q) then s.checkPause q
        else if wireNs (s.ifCode q) (32 * s.get (MAC.PAUSE_TX_QUANTA q)) ≤ (s.ltcNs - at_).toNat then
          (s.sendPause q (s.get (MAC.PAUSE_TX_QUANTA q))).withPort q fun p => { p with pausing := some s.ltcNs }
        else s
      else s
    | none => s)

/-! 802.1AS (R77, R78, R286). -/

def State.asPort (s : State) (m : Nat) : AsPort := s.switch.asPorts.getD m AsPort.reset
def State.withAs (s : State) (m : Nat) (f : AsPort → AsPort) : State := s.withSwitch fun x => { x with asPorts := modifyAt x.asPorts m f }

/-- The grandmaster acts on a consist port. -/
def State.grandmaster (s : State) (m : Nat) : Bool :=
  s.flag TIME.TIME_CTRL_AS_GM_EN && s.owns && s.portOn m && s.flag (MAC.MAC_CTRL_AS_EN m) && !s.failSilent

/-- 802.1AS time of a TTC instant on a port: the offset that port uses. -/
def State.asTime (s : State) (m : Nat) (ttc : BitVec 64) : BitVec 64 := ttc + s.time.asOffsets.getD m 0

/-- Sync with Follow_Up: a new AS_OFFS takes effect here. -/
def execAsSyncTx (m : BitVec 3) (sfd : BitVec 64) (s : State) : Host.Outcome State Fault Refusal :=
  .next (
    let m := m.toNat
    if s.grandmaster m then
      let seq := (s.asPort m).syncSeq
      let s := s.withTime fun t => { t with asOffsets := setAt t.asOffsets m (BitVec.ofNat 64 (s.get64 TIME.AS_OFFS_LO TIME.AS_OFFS_HI)) }
      let s := s.withAs m fun p => { p with syncSeq := seq + 1 }
      (s.emit (.asMessage m s.nodeUid (.sync seq))).emit (.asMessage m s.nodeUid (.followUp seq (s.asTime m sfd) (BitVec.ofNat 16 (s.get TIME.AS_CTRL_TBI))
        s.time.asPhaseChange))
    else s)

/-- AS_OFFS_WRITE: a grandmaster phase change. -/
def State.writeAsOffs (s : State) (v : BitVec 64) : State :=
  let old := BitVec.ofNat 64 (s.get64 TIME.AS_OFFS_LO TIME.AS_OFFS_HI)
  let s := s.when (old != v) fun s => s.stampConfig .time
  ((s.set64 TIME.AS_OFFS_LO TIME.AS_OFFS_HI v.toNat).set TIME.AS_CTRL_TBI (s.get TIME.AS_CTRL_TBI + 1)).withTime fun t =>
    { t with asPhaseChange := (v - old).toInt }

def execAsOffsWrite (v : BitVec 64) (s : State) : Host.Outcome State Fault Refusal := .next (s.writeAsOffs v)

/-- The node UID as an EUI-64. -/
def State.eui64 (s : State) : BitVec 64 :=
  let u := s.nodeUid.toNat
  BitVec.ofNat 64 (u / 2 ^ 24 * 2 ^ 40 + 0xFFFE * 2 ^ 24 + u % 2 ^ 24)

def execAsAnnounceTx (m : BitVec 3) (s : State) : Host.Outcome State Fault Refusal :=
  .next (
    let m := m.toNat
    if s.grandmaster m then
      let st := s.timeState
      let locked := st = tmSYNC || st = tmLEAD
      let ext := s.flag TIME.TIME_STAT_EXT_VALID
      let cls := if ext && locked then 6 else if st = tmHOLDOVER then 7 else 248
      let seq := (s.asPort m).announceSeq
      (s.withAs m fun p => { p with announceSeq := seq + 1 }).emit (.asMessage m s.nodeUid (.announce seq s.eui64
        (BitVec.ofNat 8 (s.get TIME.AS_CTRL_PRIO1)) (BitVec.ofNat 8 (s.get TIME.AS_CTRL_PRIO2)) (BitVec.ofNat 8 cls)
        (if locked then 0x21 else 0xFE) (if ext then 0x90 else 0xA0)))
    else s)

def execAsPdelayReqTx (m : BitVec 3) (sfd : BitVec 64) (s : State) : Host.Outcome State Fault Refusal :=
  .next (
    let m := m.toNat
    if s.grandmaster m then
      let seq := (s.asPort m).reqSeq + 1
      (s.withAs m fun p => { p with reqSeq := seq, reqSent := sfd }).emit (.asMessage m s.nodeUid (.pdelayReq seq))
    else s)

/-- Seconds and nanoseconds of an 802.1AS timestamp as ns. -/
def stampAt (bs : List Byte) (off : Nat) : BitVec 64 := BitVec.ofNat 64 (beAt bs off 6 * 1000000000 + beAt bs (off + 6) 4)

/-- A received 802.1AS message (IEEE 802.1AS layout; PRESUMED, log entry 49): Announce is discarded and counted, Pdelay_Req answered, the two
responses give the mean link delay. -/
def State.takeAs (s : State) (m : Nat) (e : Eth) (sof : BitVec 64) : State :=
  let p := e.inner.drop 2
  let seq := BitVec.ofNat 16 (beAt p 30 2)
  match beAt p 0 1 % 16 with
  | 0xB =>
    let first := !s.switch.foreignSeen
    let s := (s.withAs m fun a => { a with foreign := a.foreign + 1 }).withSwitch fun x => { x with foreignSeen := true }
    s.when first fun s => s.raise .time 14
  | 2 =>
    if s.grandmaster m then
      (s.emit (.asMessage m s.nodeUid (.pdelayResp seq (s.asTime m sof)))).emit
        (.asMessage m s.nodeUid (.pdelayRespFollowUp seq (s.asTime m s.ttcNs)))
    else s
  | 3 =>
    if seq = (s.asPort m).reqSeq then s.withAs m fun a => { a with respIn := sof, reqIn := stampAt p 34 } else s
  | 0xA =>
    if seq = (s.asPort m).reqSeq then
      let a := s.asPort m
      let d := Int.tdiv ((a.respIn - a.reqSent).toInt - (stampAt p 34 - a.reqIn).toInt) 2
      (s.set (MAC.AS_DELAY_MEAN m) d.toNat).setFlag (MAC.AS_DELAY_AS_CAPABLE m) (decide (d ≤ (s.get (MAC.AS_PORT2_NBR_THR m) : Int)))
    else s
  | _ => s

/-! Receiving. -/

/-- A frame error (R290). -/
def State.frameError (s : State) (q : Nat) (r : Nat → Reg) : State := (s.count (r q)).raiseMac q 3

/-- A MAC's frame: size and FCS (R263), then PAUSE, 802.1AS, the free window (R158, R268) and the switch. -/
def State.receive (s : State) (q : Nat) (bytes : List Byte) (fcsOk : Bool) (sof : BitVec 64) : State :=
  if bytes.isEmpty then s
  else if bytes.length < 64 then s.frameError q MAC.RUNT_CNT
  else if s.maxFrame q < bytes.length then s.frameError q MAC.OVERSIZE_CNT
  else if !fcsOk then s.frameError q MAC.CRC_ERR_CNT
  else
    let e := Eth.ofBytes (bytes.take (bytes.length - 4))
    let l := (backbonePort q).line
    let s := s.count (MAC.RX_FRAMES q)
    if beAt e.body 0 2 = 0x8808 then (if beAt e.body 2 2 = 1 then s.takePause q (beAt e.body 4 2) else s)
    else if isBackbone q && !s.etbOn && s.time.running && (s.phase = 0 || s.phase = 2) then s.count (GTB.FOREIGN_IN_TRAY_CNT l)
    else if e.etype = 0x88F7 then
      (if q < 8 && s.flag (MAC.MAC_CTRL_AS_EN q) then s.takeAs q e sof else s)
    else if !s.switchOn || (isBackbone q && !s.lineForwards l) then s
    else (s.ingress q e bytes.length sof none none).1

/-- FRAME_RX. -/
def execFrameRx (q : BitVec 4) (bytes : List Byte) (fcsOk : Bool) (sof : BitVec 64) (s : State) : Host.Outcome State Fault Refusal :=
  .next (if q.toNat < 12 && s.portOn q.toNat then s.receive q.toNat bytes fcsOk sof else s)

/-! Gates and transmission (R271, R272). -/

/-- The gate-control list of a bank: gates and intervals up to the first interval of 0. -/
def State.gclList (s : State) (q bank : Nat) : List (Nat × Nat) :=
  ((List.range 256).map fun k => let w := s.beWord (gclWord q bank k); (w / 2 ^ 24, w % 2 ^ 24)).takeWhile fun e => e.2 != 0

/-- A gate is open throughout an interval: entries that start at `start`; the last one lasts until the tick. -/
def gatesOpen (g lo hi : Nat) : Nat → List (Nat × Nat) → Bool
  | _, [] => true
  | start, [e] => !decide (start < hi) || bitOf e.1 g
  | start, e :: f :: t => (!(decide (lo < start + e.2) && decide (start < hi)) || bitOf e.1 g) && gatesOpen g lo hi (start + e.2) (f :: t)

/-- The list's bank and the one after the next tick. -/
def State.gclBank (s : State) (q : Nat) : Nat := if bitOf (s.get SW.GCL_STAT) q then 1 else 0
def State.gclNext (s : State) (q : Nat) : Nat := if bitOf (s.get SW.GCL_CTRL) q then 1 - s.gclBank q else s.gclBank q

/-- The lists govern a port (R271). -/
def State.usesGates (s : State) (q : Nat) : Bool := s.flag (MAC.MAC_CTRL_QBV_EN q) && (!isBackbone q || s.etbOn)

/-- Queue `g` of a port may send for `ns` from now: from the entry in force on, and over the tick by entry 0 on. -/
def State.gateAllows (s : State) (q g ns : Nat) : Bool :=
  if !s.usesGates q then true
  else
    let l := s.gclList q (s.gclBank q)
    let k := min (s.swPort q).entry (l.length - 1)
    let start := ((l.take k).map Prod.snd).sum
    let now := s.sinceTick.toNat
    gatesOpen g (max now start) (min (now + ns) s.cycleLen) start (l.drop k)
      && (decide (now + ns ≤ s.cycleLen) || gatesOpen g 0 (now + ns - s.cycleLen) 0 (s.gclList q (s.gclNext q)))

/-- The frame may start now: its gate (R272), or FREE for a backbone port in GTB and forerunner mode (R158). -/
def State.mayStart (s : State) (x : Queued) : Bool :=
  if isBackbone x.port && !s.etbOn then s.fitsFree (backbonePort x.port) (x.bytes.length + 4)
  else s.gateAllows x.port x.queue (wireNs (s.ifCode x.port) (x.bytes.length + 24))

/-- The heads of a port's queues, highest queue first. -/
def State.heads (s : State) (q : Nat) : List Queued := (List.range 8).reverse.filterMap fun g => (s.queueOf q g).head?

/-- During FREE a backbone port defers to the next FREE the frames that would go before the one that may start, each once (R158). -/
def State.deferHeads (s : State) (q : Nat) : State :=
  if isBackbone q && !s.etbOn && s.phase = 1 then
    let put := ((s.heads q).takeWhile fun x => !s.mayStart x).filter fun x => !x.deferred
    (s.withSwitch fun y => { y with queues := y.queues.map fun x => if put.contains x then { x with deferred := true } else x }).countBy
      (GTB.FREE_DEFER_CNT (backbonePort q).line) put.length
  else s

/-- Send the frame of the highest queue that may start (R270). -/
def State.startFrame (s : State) (q : Nat) (sfd : BitVec 64) : State :=
  let s := s.deferHeads q
  match (s.heads q).find? s.mayStart with
  | some x =>
    let s := s.dequeue x
    let s := s.withPort q fun p => { p with busyUntil := s.ltcNs + BitVec.ofNat 64 (wireNs (s.ifCode q) (x.bytes.length + 24)) }
    let closed := isBackbone q && !s.etbOn && !s.bbAdmits (backbonePort q) (x.bytes.length + 4)
    let s := s.when closed fun s => s.count (GTB.GRD_BLOCK_CNT (backbonePort q).line)
    let s := (s.count (MAC.TX_FRAMES q)).emit (.ethFrame q x.bytes (!closed))
    (s.reportStart x (some sfd)).checkPause x.inPort
  | none => s

/-- FRAME_TX_START: the port is on, up, not paused and idle. -/
def execFrameTxStart (q : BitVec 4) (sfd : BitVec 64) (s : State) : Host.Outcome State Fault Refusal :=
  .next (
    let q := q.toNat
    if q < 12 && s.live .sw && s.portOn q && s.flag (MAC.MAC_STAT_LINK q) && !s.flag (MAC.MAC_STAT_PAUSED q) && !s.failSilent
        && (s.swPort q).busyUntil.toNat ≤ s.ltcNs.toNat then s.startFrame q sfd
    else s)

/-- GATE_DROP: a frame at the head of its queue for a whole cycle. -/
def execGateDrop (q : BitVec 4) (g : BitVec 3) (s : State) : Host.Outcome State Fault Refusal :=
  .next (match (s.queueOf q.toNat g.toNat).head? with
    | some x => if s.live .sw && s.cycleLen ≤ (s.ltcNs - x.headAt).toNat then (s.discard x).count SW.GATE_DROP_CNT else s
    | none => s)

/-- The intervals of a port's list up to and with the entry in force have passed since the tick. -/
def State.entryOver (s : State) (q : Nat) : Bool :=
  decide (((((s.gclList q (s.gclBank q)).take ((s.swPort q).entry + 1)).map Prod.snd).sum : Int) ≤ s.sinceTick)

/-- GCL_ENTRY_EXPIRY: the next entry, unless the list ends. -/
def execGclEntryExpiry (q : BitVec 4) (s : State) : Host.Outcome State Fault Refusal :=
  .next (
    let q := q.toNat
    if q < 12 && s.live .sw && (s.swPort q).entry + 1 < (s.gclList q (s.gclBank q)).length && s.entryOver q then
      s.withPort q fun p => { p with entry := p.entry + 1 }
    else s)

/-- Bits of GCL_CTRL: a tick of the same clock leaves them to the following one (R271). -/
def State.askSwap (s : State) (mask : Nat) : State := s.update SW.GCL_CTRL fun v => v ||| mask

/-- GCL_SWAP: at the next tick. -/
def execGclSwap (mask : BitVec 12) (s : State) : Host.Outcome State Fault Refusal :=
  .next (if s.powered .sw then s.askSwap mask.toNat else s)

/-- What the tick does to the switch: lists restart, swaps take place, telegrams still queued fall (R271, R277), and the first foreign
Announce of the cycle may raise again (R78). -/
def State.tickSwitch (s : State) : State :=
  if !s.live .sw then s
  else
    let late := s.switch.queues.filter Queued.telegram
    let s := s.each late fun x s => (s.discard x).countRaise SW.TRDP_TX_LATE_CNT .sw 13
    let s := (s.set SW.GCL_STAT (s.get SW.GCL_STAT ^^^ s.before SW.GCL_CTRL)).clearField SW.GCL_CTRL
    s.withSwitch fun x => { x with
      ports := x.ports.map fun p => { p with entry := 0 }, foreignSeen := false, fired := [],
      queues := x.queues.map fun f => { f with deferred := false } }

/-! TX_DESC_DONE (R264, R274, R275). -/

/-- Take the descriptor at HEAD of a transmit ring: its frame enters the buffer, or the reason it does not is written back. -/
def State.sendDesc (s : State) (g : Nat) : State :=
  if s.switch.awaiting.any fun a => a.ring = g then s
  else match s.headDesc g with
    | none => s
    | some none => s.finishTx g ⟨0, 0, none⟩ none (2 ^ 28)
    | some (some d) =>
      let len := d.word2 % 2 ^ 14
      match d.data with
      | none => s
      | some none => s.finishTx g d none (2 ^ 28)
      | some (some data) =>
        if len = 0 || s.maxFrame 12 - 4 < len then (s.finishTx g d none (2 ^ 29)).countRaise SW.TX_LEN_CNT .sw 16
        else
          let (e, skip) := (Eth.ofBytes data).insertSums (bitOf d.word2 30) (bitOf d.word2 29) (bitOf d.word2 28) (s.get SW.TRDP_CFG_PORT)
          let skipBit := if skip then 2 ^ 26 else 0
          let id := s.switch.nextId
          let (s, placed) := s.ingress (12 + g / 16) e (len + 4) s.ttcNs (some (g % 16)) (some g)
          if !placed then s.finishTx g d none (2 ^ 27 + skipBit)
          else
            let ids := ((s.switch.queues.map Queued.id).filter fun i => id ≤ i).dedup
            if bitOf d.word2 27 && !ids.isEmpty then s.withSwitch fun x => { x with awaiting := x.awaiting ++ [⟨g, ids, skip⟩] }
            else s.finishTx g d none (2 ^ 30 + skipBit)

/-- TX_DESC_DONE. -/
def execTxDescDone (g : BitVec 6) (s : State) : Host.Outcome State Fault Refusal :=
  .next (if s.switchOn && g.toNat < 48 && g.toNat % 16 < 8 then s.sendDesc g.toNat else s)

/-! TRDP transmission (R276, R277). -/

/-- The IPv4 header of a telegram with `len` bytes after it. -/
def State.trdpIp (s : State) (a len : Nat) : List Byte :=
  let h := [0x45, BitVec.ofNat 8 ((s.byte (a + 32)).toNat / 4 * 4)] ++ bytesBE 2 (20 + len) ++ [0, 0, 0x40, 0, s.byte (a + 1), 17, 0, 0]
    ++ bytesBE 4 (s.get SW.TRDP_SIP) ++ s.bytes (a + 8) 4
  putAt h 10 (bytesBE 2 (checksum h 0))

/-- The process-data header and dataset; IEC 61375-2-3's reserved word is 0 and the dataset is padded to 32-bit words (PRESUMED, log entry 44). -/
def State.trdpPdu (s : State) (a seq : Nat) (data : List Byte) : List Byte :=
  let h := bytesBE 4 seq ++ [0x01, 0x00, 0x50, 0x64] ++ s.bytes (a + 4) 4 ++ bytesBE 4 (s.get SW.TRDP_TOPO_ETB)
    ++ bytesBE 4 (s.get SW.TRDP_TOPO_OP) ++ bytesBE 4 data.length ++ [0, 0, 0, 0] ++ s.bytes (a + 40) 4 ++ s.bytes (a + 44) 4
  h ++ trdpFcs h ++ data ++ List.replicate ((4 - data.length % 4) % 4) 0

/-- A telegram's frame: header FCS, UDP checksum and IPv4 checksum in R275's order. -/
def State.trdpFrame (s : State) (e seq : Nat) (data : List Byte) : Eth :=
  let a := trdpTx e
  let pdu := s.trdpPdu a seq data
  let port := bytesBE 2 (s.get SW.TRDP_CFG_PORT)
  let udp := port ++ port ++ bytesBE 2 (8 + pdu.length) ++ [0, 0] ++ pdu
  let pseudo := wordSum (bytesBE 4 (s.get SW.TRDP_SIP) ++ s.bytes (a + 8) 4) + 17 + udp.length
  let cs := checksum udp pseudo
  let udp := if bitOf (s.byte a).toNat 6 then putAt udp 6 (bytesBE 2 (if cs = 0 then 0xFFFF else cs)) else udp
  ⟨BitVec.ofNat 48 (s.beNat (a + 12) 6), BitVec.ofNat 48 (s.get SW.TRDP_SMAC_HI * 2 ^ 32 + s.get SW.TRDP_SMAC_LO), none,
    [0x08, 0x00] ++ s.trdpIp a udp.length ++ udp⟩

/-- The entry's cycle is selected. -/
def State.trdpSelected (s : State) (e n : Nat) : Bool :=
  let w := s.beNat (trdpTx e + 24) 4
  let div := w / 2 ^ 16 % 2 ^ 10
  bitOf (s.byte (trdpTx e)).toNat 7 && n % (if div = 0 then 1024 else div) = w % 2 ^ 10

/-- LIVE as the fetch reads it: as it stood before the flip where OFFS falls before clock 40. -/
def State.trdpLive (s : State) (e : Nat) : List Byte :=
  ((s.switch.early.find? fun x => x.1 = e).map Prod.snd).getD (s.bytes (s.trdpBuf e (s.trdpLiveSel e)) (s.trdpTxLen e))

/-- TRDP_TX_FETCH. -/
def State.sendTelegram (s : State) (e : Nat) : State :=
  let a := trdpTx e
  let seq := (s.beNat (a + 36) 4 + 1) % 2 ^ 32
  let f := s.trdpFrame e seq (s.trdpLive e)
  let s := s.setBytes (a + 36) (bytesBE 4 seq)
  let s := s.withSwitch fun x => { x with early := x.early.filter fun y => y.1 != e, fired := x.fired ++ [e] }
  if s.twin && !s.owns then s
  else
    let b0 := (s.byte a).toNat
    let pcp := b0 / 4 % 8
    let vid := s.beNat (a + 2) 2 % 4096
    let ports := s.beNat (a + 18) 2 % 4096
    let (set, down) := s.backboneRules 15 vid ports f (portsOfMask ports)
    let s := s.countBy SW.LINE_DOWN_DROP_CNT down
    let bytes := f.toBytes (if bitOf b0 5 then some (pcp * 2 ^ 13 + vid) else none)
    (s.enqueue (set.map fun q => (q, bytes)) (fun _ => pcp) 15 none true).1.count SW.TRDP_TX_CNT

/-- The entry's telegram is due: its DIV and PHASE select the cycle, tick + OFFS has come, and it has not fired in the cycle (R73). -/
def State.trdpDue (s : State) (e : Nat) : Bool :=
  s.switchOn && s.trdpSelected e s.cycle && decide ((s.beNat (trdpTx e + 28) 4 : Int) ≤ s.sinceTick) && !s.switch.fired.contains e

/-- TRDP_TX_FETCH: an enabled entry in a cycle its DIV and PHASE select, from tick + OFFS on. -/
def execTrdpTxFetch (e : BitVec 9) (s : State) : Host.Outcome State Fault Refusal :=
  .next (if s.trdpDue e.toNat then s.sendTelegram e.toNat else s)

/-- Before the flips of a tick: LIVE of the entries of cycle `n` whose OFFS falls before clock 40 (R277). -/
def State.keepEarly (s : State) (n : Nat) : State :=
  s.withSwitch fun x => { x with early := (((List.range 512).filter fun e => s.trdpSelected e n && decide (s.beNat (trdpTx e + 28) 4 < 100)).map
    fun e => (e, s.bytes (s.trdpBuf e (s.trdpLiveSel e)) (s.trdpTxLen e))) }

/-! ETB mode (R287) and consist links (R290). -/

/-- ETB_EN: only while both lines are in OFF. -/
def State.writeEtb (s : State) (on : Bool) : State :=
  if s.flag SW.ETB_CTRL_ETB_EN = on then s
  else if !s.bothOff || s.locked .sw then s.refuse .sw
  else
    let before := s
    let s := (s.stampConfig .sw).setFlag SW.ETB_CTRL_ETB_EN on
    let s := if on then s.enterLead.withTime fun t => { t with running := true }
      else if s.timeState != tmUNSYNC then (s.set TIME.TIME_STAT_STATE tmUNSYNC).dropKeys else s
    s.recheckLines before

def execEtbEnWrite (on : Bool) (s : State) : Host.Outcome State Fault Refusal := .next (if s.powered .sw then s.writeEtb on else s)

/-- CONSIST_LINK_CHANGE. -/
def execConsistLinkChange (m : BitVec 3) (up : Bool) (s : State) : Host.Outcome State Fault Refusal :=
  .next (
    let q := m.toNat
    if s.powered (.mac q) && s.flag (MAC.MAC_STAT_LINK q) != up then
      let s := (s.setFlag (MAC.MAC_STAT_LINK q) up).raiseMac q 0
      s.set (MAC.MAC_STAT_IF_ACT q) (if up then s.get (MAC.MAC_CTRL_IF q) else 0)
    else s)

end Sys2Proof.Machine
end

