-- ==== Sys2Proof/Machine/Access.lean ====
section
/-! DEFINITION. Reads and writes of the register map as any requester makes them: targets, reachability, the registers with an action of
their own, ranges, the tables and memories, _LO and _HI pairs (spec/00_scope.md R6 to R8; spec/12_bridges.md R352, R353;
spec/17_register_pages.md R452 to R463). -/

namespace Sys2Proof.Machine

/-- How an access ends: done; an error response from the crossbar (R34, R39, R434); refused by the target (R367). -/
inductive Response | done | error | refused
deriving DecidableEq, Repr

/-- What a BAR0 address reaches (R452, R352), with the offset within it. -/
inductive Target
  | page (p : Page) (off : Nat)
  | shared (c : Line) (off : Nat)
  | kndTable (c : Line) (off : Nat)
  | mvbRam (j : Nat) (off : Nat)
  | swTable
  | learned (off : Nat)
  | canRam (c : Nat) (off : Nat)
  | pool (off : Nat)
  | msix
  | pba
  | ring (off : Nat)
  | peer (off : Nat)
  | free
deriving DecidableEq, Repr

def targetAt (a : Nat) : Target :=
  if 0x280000 ≤ a && a < 0x2C0000 then .shared .A (a - 0x280000)
  else if 0x480000 ≤ a && a < 0x4C0000 then .shared .B (a - 0x480000)
  else if 0x300000 ≤ a && a < 0x380000 then .kndTable .A (a - 0x300000)
  else if 0x500000 ≤ a && a < 0x580000 then .kndTable .B (a - 0x500000)
  else if 0x640000 ≤ a && a < 0x650000 then .mvbRam ((a - 0x640000) / 0x8000) (a % 0x8000)
  else if (0x680000 ≤ a && a < 0x696000) || (0x698000 ≤ a && a < 0x6A4000) then .swTable
  else if 0x6C0000 ≤ a && a < 0x6E0000 then .learned (a - 0x6C0000)
  else if 0x6E0000 ≤ a && a < 0x700000 then .canRam ((a - 0x6E0000) / 0x4000) (a % 0x4000)
  else if 0x700000 ≤ a && a < 0x800000 then .pool (a - 0x700000)
  else if 0x800000 ≤ a && a < 0xF00000 then .peer (a - 0x800000)
  else if 0xF00000 ≤ a && a < 0xF00400 then .msix
  else if 0xF01000 ≤ a && a < 0xF01008 then .pba
  else if 0xF80000 ≤ a && a < 0xFA0000 then .ring (a - 0xF80000)
  else match pageAt a with
    | some p => .page p (a - p.base)
    | none => .free

/-- The target answers: its domain is on and its region is not quarantined (R39, R434). The peer window and free ranges are the bridge's. -/
def State.reaches (s : State) (t : Target) : Bool :=
  let on (d : Nat) := bitOf (s.get PWR.PD_STAT_ON) d
  match t with
  | .page p off =>
    if p = .mac 8 && off < 0x40 then on 8 || on 9
    else s.powered p && (match p with | .mac _ => true | _ => !s.pageQuarantined p)
  | .shared c _ | .kndTable c _ => on (2 + lineBit c) && !s.quarantined c
  | .mvbRam _ _ | .canRam _ _ => on 12
  | .swTable | .learned _ | .pool _ => on 10
  | .msix | .pba | .ring _ => on 13
  | .peer _ | .free => true

/-! Derived words. -/

/-- The other page whose value an RO mirror shows: GTB_B's forming settings (R88), LOAF_B's AUTO_READY and in LOCKED mode PROV_EN (R180, R186). -/
def State.mirrored (s : State) (r : Reg) : Option Reg :=
  if [GTB.FORM_CFG_FR_ALLOW .B, GTB.FORM_CFG_AUTH .B, GTB.FORM_CFG_RANK .B, GTB.FORM_CFG_START_ELIG .B, GTB.FORM_CFG_SLICE_PAY .B,
      GTB.CRUMB_CFG_CNT .B, GTB.CRUMB_CFG_PAY .B, GTB.PORT_CFG_COUPLER .B, GTB.FORM_TMR_LONE_PROBE .B, GTB.FORM_TMR_LISTEN_TMO .B,
      GTB.FORM_TMR_PASSIVE_TMO .B, GTB.FORM_TMR_LINK_SETTLE .B, GTB.CPL_WIN .B, GTB.FR_CFG_RELINK .B, GTB.FR_CFG_FR_K .B,
      LOAF.LOAF_CTRL_AUTO_READY .B, KND.KND_CTRL_FIELD_OWNER .B].contains r then some { r with addr := r.addr - 0x200000 }
  else if r = LOAF.LOAF_CTRL_PROV_EN .B && s.lockedMode then some (LOAF.LOAF_CTRL_PROV_EN .A)
  else none

/-- RW and RWL fields of a page that read as RO: the mirrors, and the fields MAC_BB does not have (R290). -/
def State.readOnly (s : State) (p : Page) (r : Reg) : Bool :=
  (s.mirrored r).isSome || match p with
    | .mac m => 8 ≤ m && (r = MAC.MAC_CTRL_STAR_MODE m || r = MAC.MAC_CTRL_AS_EN m)
    | _ => false

/-- A word as its fields show it, mirrors from the page they mirror. -/
def State.shownWord (s : State) (p : Page) (addr : Nat) : Nat :=
  (wordFields p addr).foldl (fun v r => v + if r.acc = .wo then 0 else s.readOut ((s.mirrored r).getD r) * 2 ^ r.lo) 0

/-- The user proofing registers exist in the life-cycle states of R403; elsewhere they read 0 and ignore writes. -/
def State.userOnly (s : State) (p : Page) (off : Nat) : Bool := p = .prf && 0x050 ≤ off && off < 0x070 && !s.userProofing

/-- The levels that outputs drive: an outgoing wearer keeps those of its last release while HAT_OUT is active (R333). -/
def State.gpioOut (s : State) : Nat := if s.twinUnit.outgoing.isSome then s.twinUnit.keptOut.toNat else s.get GPIO.OUT

/-- The levels of the GPIO pins: an output's own, unless a reset or a fail-silent device makes every pin an input (R463). -/
def State.gpioIn (s : State) : Nat :=
  let dir := if s.failSilent || s.power.held then 0 else s.get GPIO.DIR
  (s.gpioOut &&& dir) ||| (s.get GPIO.IN - (s.get GPIO.IN &&& dir))

/-- What the pins' changes since a state before set: EDGE where an edge is enabled, and GPIO_EDGE where a bit of EDGE sets (R463). An isolated pin's cell
sees nothing (R36). -/
def State.pinEdges (s before : State) : State :=
  let up := s.gpioIn - (s.gpioIn &&& before.gpioIn)
  let down := before.gpioIn - (s.gpioIn &&& before.gpioIn)
  let edges := (up &&& s.get GPIO.RISE_EN) ||| (down &&& s.get GPIO.FALL_EN)
  let seen := (List.range 32).foldl (fun v n => if bitOf edges n && !s.cellDead .gpio n then v + 2 ^ n else v) 0
  let fresh := seen - (seen &&& s.get GPIO.EDGE)
  s.when (seen != 0 && s.live .gpio) fun s => (s.update GPIO.EDGE fun v => v ||| seen).when (fresh != 0) fun s => s.raise .gpio 8

/-- MAC_STAT as it reads: a pause shows once the frame in transmission has left (R279), and IF_ACT of a backbone block is the interface its
lane runs at while the link is up (R262). -/
def State.macStat (s : State) (q plain : Nat) : Nat :=
  let w := if bitOf plain 4 && decide (s.ltcNs.toNat < (s.switch.ports.getD q SwPort.reset).busyUntil.toNat) then plain - 2 ^ 4 else plain
  if 8 ≤ q && bitOf plain 0 then w + 2 * s.portCode (backbonePort q) else w

/-- TX_ACTIVE and RX_ACTIVE, which no command shows the model: free on the bus, where a controller in listen-only or a fail-silent device sends
nothing, and 0 off it (R319; log entry 191). -/
def State.canActivity (s : State) (c : Nat) : Nat :=
  if !s.canOnBus c then 0
  else (Config.canActivity c s.ltcNs).toNat % (if s.flag (CAN.CAN_STAT_LISTEN_ACT c) || s.failSilent then 2 else 4)

/-- KND_STAT: a lane that rotation has made the spare shows as it once its jobs in flight are complete (R406). -/
def State.kndStat (s : State) (c : Line) (plain : Nat) : Nat :=
  let i := s.get (KND.KND_STAT_SPARE c)
  match (s.rotation (2 + lineBit c)).former with
  | some f => if (s.kneader c).runs.any fun r => r.lane = some i then plain - i * 2 ^ 20 + f * 2 ^ 20 else plain
  | none => plain

/-- A block register as it reads. -/
def State.blockWord (s : State) (p : Page) (off : Nat) : Nat :=
  let plain := s.shownWord p (p.base + off)
  match p with
  | .chip => if off = 0x058 then plain / 2 * 2 + (if (allPages.filter s.powered).all fun q => s.flag (HDR.PAGE_CTRL_CFG_LOCK q) then 1 else 0) else plain
  | .cyc => if off = 0x060 then s.phase else plain
  | .intc =>
    match off with
    | 0x044 => if s.intN then 1 else 0
    | 0x060 => s.vecPend % 2 ^ 32
    | 0x064 => s.vecPend / 2 ^ 32
    | 0x070 => s.get INTC.VEC_ARM_LO
    | 0x074 => s.get INTC.VEC_ARM_HI
    | _ =>
      if 0x050 ≤ off && off < 0x060 then s.srcLineWord ((off - 0x050) / 4)
      else if 0x200 ≤ off && off < 0x400 && !sources.contains ((off - 0x200) / 4) then 0
      else plain
  | .sec => if s.lifeCycle = lcSCRAPPED && off != 0x040 && off != 0x078 && off != 0x07C then 0 else plain
  | .mac q =>
    if off != 0x044 then plain
    else s.macStat q plain
  | .gtb _ => if off = 0x05C then s.get CYC.CYC_LEN_K else plain
  | .knd c => if off = 0x044 then s.kndStat c plain else plain
  | .can c => if off = 0x070 || off = 0x074 then 0 else if off = 0x044 then plain + s.canActivity c * 2 ^ 8 else plain
  | .mvb j => if off = 0x044 then plain / 2 * 2 + (if s.mvbListens j then 1 else 0) else plain
  | .twin => s.refreshTwin.shownWord p (p.base + off)
  | .pcie =>
    match off with
    | 0x048 => 0x7420 * 2 ^ 16 + Config.vendorId.toNat
    | 0x090 => s.get (BR.EPOCH .pcie 0)
    | _ => plain
  | .qspi => if off = 0x090 then s.get (BR.EPOCH .qspi 0) else plain
  | .lzl =>
    match off with
    | 0x044 => plain + if s.bridges.hostReads.any fun (r : HostRead) => r.link.isSome then 2 ^ 4 else 0
    | 0x090 => s.get (BR.EPOCH .lzl 0)
    | _ => plain
  | .prf => if s.userOnly .prf off then 0 else plain
  | .gpio => if off = 0x050 then s.gpioIn else if off = 0x048 || off = 0x04C then s.get GPIO.OUT else plain
  | _ => plain

/-- A page's word as it reads. -/
def State.pageWord (s : State) (p : Page) (off : Nat) : Nat :=
  match p with
  | .eng c i => s.engWord c i off
  | _ => if off < 0x40 then (if p.base = p.headerBase then s.headerWord p off else 0) else s.blockWord p off

/-! Ranges. -/

/-- What a value of a register's word meets: it is taken; it is refused with cause 0x8; it is ignored. -/
inductive Check | good | refused | ignored
deriving DecidableEq, Repr

def check (ok : Bool) (bad : Check) : Check := if ok then .good else bad
def within (lo hi v : Nat) : Bool := decide (lo ≤ v) && decide (v ≤ hi)
def bitsOf (v lo n : Nat) : Nat := v / 2 ^ lo % 2 ^ n

/-- A slice or crumb payload (R88). -/
def payFits (v : Nat) : Bool := within 8 1928 v && v % 8 = 0

/-- The forming settings' ranges (R88). -/
def formRange (off v : Nat) : Bool :=
  match off with
  | 0x044 => payFits (bitsOf v 0 11)
  | 0x048 => payFits (bitsOf v 0 11) && decide (bitsOf v 16 4 ≤ 8)
  | 0x050 => within 4 256 (bitsOf v 23 9) && within 2 64 (bitsOf v 16 7) && within 1 64 (bitsOf v 8 7) && within 1 4 (bitsOf v 0 3)
  | 0x054 => within 10 5000 (bitsOf v 0 13)
  | 0x058 => within 100 3000 (bitsOf v 16 12) && within 16 1024 (bitsOf v 0 11)
  | _ => true

/-- The bit timings' ranges (R292): fields hold a count minus one. -/
def timingRange (off v : Nat) : Bool :=
  let n (lo w : Nat) := bitsOf v lo w + 1
  match off with
  | 0x048 => within 2 256 (n 24 8) && within 1 128 (n 17 7) && decide (n 10 7 ≤ n 17 7) && decide (8 ≤ 1 + n 24 8 + n 17 7)
  | 0x04C => decide (n 8 4 ≤ n 16 4) && decide (5 ≤ 1 + n 24 5 + n 16 4)
  | _ => true

/-- What the new value of a word meets (R53, R68, R72, R88, R180, R281, R292, R320, R328, R406, R416; log entry 67 for ranges whose treatment the
manual does not state: the write is ignored). -/
def State.rangeCheck (s : State) (p : Page) (off v : Nat) : Check :=
  match p with
  | .chip => if off = 0x050 then check (within 1 100 (bitsOf v 0 7)) .refused else .good
  | .time =>
    match off with
    | 0x06C => check (within 50 2000 (bitsOf v 0 16)) .ignored
    | 0x070 => check (within 2 256 (bitsOf v 0 9)) .ignored
    | 0x074 => check (within 1 1024 (bitsOf v 0 11)) .ignored
    | 0x078 => check (within 1 400 (bitsOf v 0 16)) .ignored
    | _ => .good
  | .cyc => if off = 0x054 then check (decide (200 ≤ bitsOf v 0 16)) .ignored else .good
  | .gtb .A => check (formRange off v) .refused
  | .eng _ _ => if off = 0x050 then check (decide (bitsOf v 0 11 ≤ 1024)) .ignored else .good
  | .sw =>
    match off with
    | 0x040 => check (within 10 3600 (bitsOf v 16 16)) .ignored
    | 0x044 => check (decide (bitsOf v 16 5 ≤ 16)) .ignored
    | _ =>
      if 0x400 ≤ off && off < 0x700 && off % 16 = 8 then
        check ([0, 16, 32, 64, 128, 256, 512, 1024, 2048, 4096].contains (bitsOf v 0 13)) .ignored
      else .good
  | .mac m =>
    match off with
    | 0x040 => check ((if m < 8 then decide (bitsOf v 1 3 ≤ 1) else decide (bitsOf v 1 3 ≤ 4) && bitsOf v 4 2 != 3)) .ignored
    | 0x050 => check (within 1 1000 (bitsOf v 0 16) && within 10 10000 (bitsOf v 16 16)) .ignored
    | 0x054 => check (decide (bitsOf v 16 16 ≤ bitsOf v 0 16)) .ignored
    | _ => .good
  | .can c =>
    if off = 0x048 || off = 0x04C || off = 0x050 then check (!s.flag (CAN.CAN_CTRL_EN c) && timingRange off v) .refused else .good
  | .mvb _ => if off = 0x040 then check (bitsOf v 4 2 != 0) .ignored else .good
  | .twin =>
    if off = 0x048 then
      if bitsOf v 16 5 < bitsOf v 8 5 + 2 then .refused
      else check (within 3 18 (bitsOf v 16 5) && within 1 16 (bitsOf v 8 5) && within 1 4 (bitsOf v 4 4) && within 1 8 (bitsOf v 0 4)) .ignored
    else .good
  | .qspi => if off = 0x040 then check (within 10 10000 (bitsOf v 0 16)) .ignored else .good
  | .lzl => if off = 0x040 then check (within 5 1000 (bitsOf v 16 16)) .ignored else .good
  | .cpl => if off = 0x040 then check (bitsOf v 16 8 != 0) .ignored else .good
  | .prf => if off = 0x044 then check (bitsOf v 0 16 != 0) .ignored else .good
  | _ => .good

/-! Registers with an action of their own. -/

/-- The value of a word without the part that is ignored alone: DRAFT_TMO 0 of LOAF_CTRL (R193). -/
def State.amended (s : State) (p : Page) (off v : Nat) : Nat :=
  match p with
  | .loaf c => if off = 0x040 && bitsOf v 8 8 = 0 then v + s.get (LOAF.LOAF_CTRL_DRAFT_TMO c) * 2 ^ 8 else v
  | _ => v

/-- The word takes a write by its access types, mirrors and fields a block does not have apart. -/
def State.writePlain (s : State) (p : Page) (off v : Nat) : State :=
  let addr := p.base + off
  let v := s.amended p off v
  let kept := (wordFields p addr).foldl (fun v r =>
    if s.readOnly p r then v - r.part v * 2 ^ r.lo + s.get r * 2 ^ r.lo else v) v
  s.writeFields p addr kept

/-- A write whose value is out of range is refused or ignored; on a locked page R456 decides. -/
def State.writeChecked (s : State) (p : Page) (off v : Nat) : State :=
  match s.rangeCheck p off v with
  | .good => s.writePlain p off v
  | bad =>
    let changes := (wordFields p (p.base + off)).any fun r => r.acc = .rwl && s.get r != r.part v
    if s.locked p && changes then s.refuse p else s.refuseIf p (bad = .refused)

/-- CH_MODE: MODE takes effect only while both lines are in OFF (R45). -/
def State.writeChMode (s : State) (on : Bool) : State :=
  if !s.bothOff then s.refuse .chip
  else if on = s.lockedMode then s
  else if s.locked .chip then s.refuse .chip
  else (s.stampConfig .chip).setFlag CHIP.CH_MODE_MODE on

def execChModeWrite (v : Bool) (s : State) : Host.Outcome State Fault Refusal := .next (s.writeChMode v)

/-- TWIN_CTRL: EN and LINE only while both lines are in OFF (R321); EN = 0 ends every hat state (R332). -/
def State.writeTwinCtrl (s : State) (v : Nat) : State :=
  let before := s
  let moves := bitOf v 0 != s.twin || bitOf v 1 != s.flag TWIN.TWIN_CTRL_LINE
  let s :=
    if moves && (s.locked .twin || !s.bothOff) then s.refuse .twin
    else if moves then
      let s := ((s.stampConfig .twin).setFlag TWIN.TWIN_CTRL_EN (bitOf v 0)).setFlag TWIN.TWIN_CTRL_LINE (bitOf v 1)
      s.when (!bitOf v 0 && s.hat != hatOFF) fun s => (s.setHat hatOFF s.cycle).dropHatOut
    else s
  let s :=
    if bitOf v 2 = s.flag TWIN.TWIN_CTRL_ENG_TX_FOLLOW then s
    else if s.locked .twin then s.refuse .twin
    else (s.stampConfig .twin).setFlag TWIN.TWIN_CTRL_ENG_TX_FOLLOW (bitOf v 2)
  let s := s.when (bitOf v 8 != s.flag TWIN.TWIN_CTRL_HANDOVER) fun s => s.writeHandover (bitOf v 8)
  let s := (s.recheckLines before).settleHat
  s.writeHostGrant (v / 2 ^ 16)

def execTwinCtrlWrite (v : Word) (s : State) : Host.Outcome State Fault Refusal :=
  .next (if s.powered .twin then s.writeTwinCtrl v.toNat else s)

/-- PLOG_CLR (R369). -/
def State.clearLog (s : State) (p : Page) : State :=
  let s := (s.set (BR.PLOG_STAT_NUM p) 0).set (BR.PLOG_STAT_OVF p) 0
  s.each (List.range 16) fun e s =>
    ([BR.PLOG_ADDR p e, BR.PLOG_INFO_VALID p e, BR.PLOG_INFO_SOURCE p e, BR.PLOG_INFO_CAUSE p e, BR.PLOG_INFO_SPACE p e,
      BR.PLOG_INFO_TAG p e, BR.PLOG_CYCLE p e]).foldl (fun s r => s.set r 0) s

/-- The page of a bridge (R351). -/
def bridgePage : Requester → Page
  | .pcie => .pcie
  | .qspi => .qspi
  | _ => .lzl

def execPlogClr (b : Requester) (s : State) : Host.Outcome State Fault Refusal :=
  .next (if s.powered (bridgePage b) then s.clearLog (bridgePage b) else s)

/-- A write to OUT, OUT_SET or OUT_CLR: those of one fabric clock act in that order, whatever order they come in, and what changes stamps CFG_CYCLE
(R457, R463). -/
def State.driveOut (s : State) (f : OutClock → OutClock) : State :=
  let k := f (s.thisClock.outs.getD ⟨BitVec.ofNat 32 (s.get GPIO.OUT), 0, 0⟩)
  let t : State := { s with thisClock := { s.thisClock with outs := some k } }
  let t := t.set GPIO.OUT ((k.base ||| k.setBits) &&& ~~~k.clrBits).toNat
  (t.when (t.get GPIO.OUT != s.get GPIO.OUT) fun t => t.stampConfig .gpio).pinEdges s

/-- OUT, OUT_SET and OUT_CLR. -/
def State.writeOutputs (s : State) (v : Nat) : State := s.driveOut fun k => { k with base := BitVec.ofNat 32 v }
def State.setOutputs (s : State) (v : Nat) : State := s.driveOut fun k => { k with setBits := k.setBits ||| BitVec.ofNat 32 v }
def State.clearOutputs (s : State) (v : Nat) : State := s.driveOut fun k => { k with clrBits := k.clrBits ||| BitVec.ofNat 32 v }

def execOutSet (v : Word) (s : State) : Host.Outcome State Fault Refusal := .next (if s.powered .gpio then s.setOutputs v.toNat else s)
def execOutClr (v : Word) (s : State) : Host.Outcome State Fault Refusal := .next (if s.powered .gpio then s.clearOutputs v.toNat else s)

/-- GPIO_EDGE: a pin is driven to a level from outside. -/
def execGpioEdge (p : BitVec 5) (level : Bool) (s : State) : Host.Outcome State Fault Refusal :=
  .next (if s.powered .gpio then (s.set GPIO.IN (withBit (s.get GPIO.IN) p.toNat level)).pinEdges s else s)

/-- A chunk may be written or handed over: no push, or READY = 1 (R447). -/
def State.pushOpen (s : State) : Bool := !s.flag PWR.PUSH_STAT_PUSH || s.flag PWR.PUSH_STAT_READY

/-- PUSH_CTRL: GO hands the chunk over; while READY is 0 the write is dropped and logged with cause 0x3 (R447). -/
def State.writePush (s : State) (v : Nat) : State × Response :=
  if !s.flag PWR.PUSH_STAT_READY then (s, .refused)
  else if bitOf v 31 then (s.pushChunk (bitOf v 30), .done) else (s, .done)

/-- CAN_CTRL: EN starts and stops the controller, AUTO_RECOVER takes it out of BUS_OFF (R294). -/
def State.writeCanCtrl (s : State) (c v : Nat) : State :=
  let was := s.flag (CAN.CAN_CTRL_EN c)
  let s := ((s.keepSettings c).writePlain (.can c) 0x040 v).autoRecover c
  if bitOf v 0 && !was then s.canStart c else if !bitOf v 0 && was then s.askStop c else s

/-- The bits of a mask, with an offset. -/
def maskBits (v base : Nat) : List Nat := ((List.range 32).filter fun b => bitOf v b).map fun b => base + b

/-- A write to a block register. -/
def State.writeBlock (s : State) (p : Page) (off v : Nat) : State :=
  match p with
  | .chip =>
    match off with
    | 0x04C => s.writeChMode (bitOf v 0)
    | 0x058 =>
      let s := s.when (bitOf v 1) fun s => s.setFlag CHIP.LOCK_CTRL_STICKY true
      s.when (bitOf v 0) fun s => s.lockAll
    | _ => s.writeChecked p off v
  | .time => if off = 0x040 then (s.writePlain p off v).when (bitOf v 8) fun s => s.snap else s.writeChecked p off v
  | .cyc => if off = 0x040 then s.writeCycLen (v % 2 ^ 11) else s.writeChecked p off v
  | .pwr =>
    match off with
    | 0x040 => s.writePdCtrl (v % 2 ^ 16)
    | 0x058 => s.when (bitOf v 31) fun s => s.clearFaultLatch
    | 0x064 => s.writeChipRst (v % 2 ^ 16)
    | _ => s.writePlain p off v
  | .intc =>
    match off with
    | 0x070 => s.rearm v
    | 0x074 => s.rearm (v * 2 ^ 32)
    | _ => if 0x200 ≤ off && !sources.contains ((off - 0x200) / 4) then s else s.writePlain p off v
  | .sec =>
    if s.lifeCycle = lcSCRAPPED then s
    else if 0x200 ≤ off && off < 0x400 then s.setBeWord (0x100000 + off) v
    else match off with
      | 0x044 => s.runCommand (v % 16)
      | 0x05C => s.writeZeroise (v % 2 ^ 16)
      | _ => s.writePlain p off v
  | .gtb l => if off = 0x040 then s.writeLineEnable l (bitOf v 0) else s.writeChecked p off v
  | .loaf c =>
    if off = 0x050 then
      match v % 4 with
      | 1 => s.pin c (LOAF.BANK_STAT_LATEST_VALID c) (LOAF.BANK_STAT_LATEST c)
      | 2 => s.pin c (LOAF.BANK_STAT_PREV_VALID c) (LOAF.BANK_STAT_PREVIOUS c)
      | 3 => s.unpin c
      | _ => s
    else s.writeChecked p off v
  | .knd c => if off = 0x04C then s.triggerJob c trKICK (v % 2 ^ 15) else s.writePlain p off v
  | .eng c i => s.writeEngBlock c i off v
  | .sw =>
    if 0x400 ≤ off && off < 0x700 && off % 16 = 12 then s.writeTail ((off - 0x400) / 16) (v % 2 ^ 16)
    else match off with
      | 0x050 =>
        let s := s.writeFields p (p.base + off) (v / 2 * 2 + if s.etbOn then 1 else 0)
        s.writeEtb (bitOf v 0)
      | 0x070 => s.askSwap (v % 2 ^ 12)
      | _ => s.writeChecked p off v
  | .can c =>
    match off with
    | 0x040 => s.writeCanCtrl c v
    | 0x060 => s.requestTx c v
    | 0x064 => s.requestTx c (v * 2 ^ 32)
    | 0x068 => s.each (maskBits v 0) fun b s => s.askCancel c b
    | 0x06C => s.each (maskBits v 32) fun b s => s.askCancel c b
    | 0x070 => s.flipTx c v
    | 0x074 => s.flipTx c (v * 2 ^ 32)
    | 0x088 => s.ackFifo c 0 (v % 2 ^ 6)
    | 0x090 => s.ackFifo c 1 (v % 2 ^ 6)
    | 0x094 => s.when (bitOf v 0 && s.canState c = cnBUSOFF) fun s => s.setCanState c cnRECOVERING
    | _ => s.writeChecked p off v
  | .mvb j => if off = 0x050 then s.flipNow (mvbObj j (v % 2 ^ 8)) else s.writeChecked p off v
  | .twin =>
    if off = 0x040 then s.writeTwinCtrl v
    else if 0x080 ≤ off && off < 0x100 then
      let s := s.writePlain p off v
      let w := (off - 0x080) / 8
      s.refuseIf .twin (s.flag (TWIN.MIRROR_CFG_EN w) && !s.windows.contains w)
    else s.writeChecked p off v
  | .pcie => if off = 0x0A4 then s.when (bitOf v 0) fun s => s.clearLog p else s.writeChecked p off v
  | .qspi => if off = 0x0A4 then s.when (bitOf v 0) fun s => s.clearLog p else s.writeChecked p off v
  | .lzl => if off = 0x0A4 then s.when (bitOf v 0) fun s => s.clearLog p else s.writeChecked p off v
  | .cpl => s.writeChecked p off v
  | .prf =>
    match off with
    | 0x040 => s.writePrfCtrl v
    | 0x04C => s.maintCmd v
    | _ => if s.userOnly .prf off then s else s.writeChecked p off v
  | .gpio =>
    match off with
    | 0x040 => (s.writePlain p off v).pinEdges s
    | 0x044 => s.writeOutputs v
    | 0x048 => s.setOutputs v
    | 0x04C => s.clearOutputs v
    | _ => s.writePlain p off v
  | .clk | .mac _ => s.writeChecked p off v

/-- A write to an ENG page whose engine is under test is queued and applied after its restore; the ninth ends the run first (R408). -/
def State.queueEngWrite (s : State) (who : Requester) (c : Line) (i off : Nat) (v : Word) : State :=
  let t := lineBit c
  let add (x : ProofRun) : ProofRun := { x with queued := x.queued ++ [(who, off, v)] }
  let inService := (s.rotation t).run.any fun (r : ProofRun) => r.cell = i
  if (s.testRun c i).all fun r => r.queued.length < 8 then
    let s := if inService then s.withRotation t fun (r : Rotation) => { r with run := r.run.map add }
      else { s with proof := { s.proof with maint := s.proof.maint.map fun m => { m with run := add m.run } } }
    s.count PRF.QUEUED_WR_CNT
  else (if inService then s.abortProof t 2 else s.abortMaint 2).writeEngPage c i off v.toNat

/-- A write to a page's word: an RW or RWL field that changes stamps CFG_CYCLE (R457), and a setting a line's conditions rest on is judged
anew (R80). -/
def State.writePage (s : State) (who : Requester) (p : Page) (off : Nat) (v : Word) : State × Response :=
  if p = .pwr && off = 0x068 then s.writePush v.toNat
  else match p with
    | .eng c i =>
      if s.engineUnderTest c i then (s.queueEngWrite who c i off v, .done)
      else if off = 0x050 then (s.writeChecked p off v.toNat, .done)
      else (s.writeEngPage c i off v.toNat, .done)
    | _ =>
      if off < 0x40 then (if p.base = p.headerBase then s.writeHeader p off v.toNat else s, .done)
      else
        let t := s.writeBlock p off v.toNat
        let changed := (wordFields p (p.base + off)).any fun r => (r.acc = .rw || r.acc = .rwl) && s.get r != t.get r
        (((t.when changed fun t => t.stampConfig p).recheckLines s), .done)

/-! Tables and memories. -/

/-- The bits of a switch table word that a write takes (R265, R266, R271, R276, R278, R282, R284, R285). -/
def swMask (a : Nat) : Nat :=
  if a < 0x688000 then [0x80007FFF, 0x00077FFF].getD (a / 4 % 2) 0
  else if a < 0x689000 then [0xFFFFFFFF, 0x8FFFFFFF, 0x80007FFF, 0].getD (a / 4 % 4) 0
  else if a < 0x68D000 then [0xFFFF8FFF, 0xFFFFFFFF, 0xFFFFFFFF, 0xC3FF03FF, 0xFFFFFFFF, 0xFFFFFFFF, 0xFFFF, 0].getD (a / 4 % 8) 0
  else if a < 0x68E000 then [0x800001FF, 0xFFFF, 0, 0].getD (a / 4 % 4) 0
  else if a < 0x690000 then [0xC03F01FF, 0xFFFF].getD (a / 4 % 8) 0
  else if a < 0x696000 then 0xFFFFFFFF
  else if a < 0x6A0000 then
    [0xFCFF0FFF, 0xFFFFFFFF, 0xFFFFFFFF, 0xFFFFFFFF, 0xFFFF0FFF, 0xFFFFFFFF, 0x03FF03FF, 0xFFFFFFFF, 0xFC000000, 0, 0xFFFFFFFF,
      0xFFFFFFFF].getD (a / 4 % 16) 0
  else [0xE000FFFF, 0xFFFFFFFF, 0xFFFFFFFF, 0xFFFF0000].getD (a / 4 % 8) 0

/-- A write to a switch table: RO bits keep their value; a filter's BLOCKED is cleared by 0 and its DROP count by any write of 0 (R282). -/
def State.writeSwTable (s : State) (a v : Nat) : State :=
  let old := s.beWord a
  let m := swMask a
  let filter := 0x689000 ≤ a && a < 0x68D000
  let ro := old - (old &&& m)
  if filter && a / 4 % 8 = 7 then (if v = 0 then s.setBeWord a 0 else s)
  else if filter && a / 4 % 8 = 3 then
    s.setBeWord a ((v &&& m) + if bitOf old 29 && bitOf v 29 then 2 ^ 29 else 0)
  else s.setBeWord a ((v &&& m) + ro)

/-- A learned forwarding entry's word (R266). -/
def State.learnedWord (s : State) (off : Nat) : Nat :=
  match s.switch.fdb.find? fun e => e.index = off / 16 with
  | none => 0
  | some e =>
    match off / 4 % 4 with
    | 0 => e.mac.toNat % 2 ^ 32
    | 1 => 2 ^ 31 + e.vid * 2 ^ 16 + e.mac.toNat / 2 ^ 32
    | 2 => s.fdbAge e * 2 ^ 16 + 2 ^ e.port
    | _ => 0

/-- A word of a channel's shared memory, least significant byte first (R228). -/
def State.sharedWord (s : State) (c : Line) (off : Nat) : Nat := s.leAt (sharedMem c + off) 4

/-- A host write to shared memory: LIVE and STAGE stay equal (R230); in LOCKED mode both channels, and channel B's window ignores it (R231). -/
def State.writeShared (s : State) (c : Line) (off : Nat) (bs : List Byte) : State :=
  let put (k : Line) (s : State) := (s.setBytes (sharedMem k + off) bs).setBytes (sharedStage k + off) bs
  if !s.lockedMode then put c s
  else if c = .B then s
  else s.each [Line.A, Line.B] put

/-- A word of the TRDP pool as far as it reaches (R276). -/
def State.poolWord (s : State) (off : Nat) : Nat :=
  if off < s.get SW.BUF_CFG_TRDP_POOL * 0x10000 then s.beWord (trdpPool + off) else 0

/-- A write to a word of a target other than a page. -/
def State.writeOther (s : State) (who : Requester) (a : Nat) (t : Target) (v : Word) : State × Response :=
  match t with
  | .shared c off => (s.writeShared c off (leBytes 4 v.toNat), .done)
  | .kndTable c off => (s.writeTable c off (bytesBE 4 v.toNat), .done)
  | .mvbRam j off => (s.writeMvbRam who j off v.toNat, .done)
  | .swTable => (s.writeSwTable a v.toNat, .done)
  | .canRam c off => (s.writeCanRam who c off v.toNat, .done)
  | .msix =>
    if who = .pcie then ((s.setBeWord a (if a % 16 = 12 then v.toNat % 2 else v.toNat)).unmaskMsix, .done) else (s, .done)
  | .ring off => if s.pushOpen then (s.setBytes (0xF80000 + off) (leBytes 4 v.toNat), .done) else (s, .refused)
  | _ => (s, .done)

/-- What a word of a target other than a page reads as. -/
def State.otherWord (s : State) (who : Requester) (a : Nat) (t : Target) : Nat × State :=
  match t with
  | .shared c off => (s.sharedWord c off, s)
  | .kndTable _ _ => (s.beWord a &&& tableMask (s.byte (a / 32 * 32)).toNat (a / 4 % 8), s)
  | .mvbRam j off => (s.readMvbRam j off, s)
  | .swTable => (s.beWord a, s)
  | .learned off => (s.learnedWord off, s)
  | .canRam c off => s.readCanRam c off who
  | .pool off => (s.poolWord off, s)
  | .msix => (if who = .pcie then s.beWord a else 0, s)
  | .pba => (if who = .pcie then s.beWord a else 0, s)
  | .ring off => (s.leAt (0xF80000 + off) 4, s)
  | _ => (0, s)

/-! Pairs (R458). -/

/-- The offsets of a page's _LO words whose pair is accessed as one 64-bit value: type RO or RW. -/
def pairLo (p : Page) (off : Nat) : Bool :=
  match p with
  | .time => off = 0x048 || off = 0x054 || off = 0x094
  | .cyc => off = 0x048
  | .chip => off = 0x044
  | .sec => off = 0x078
  | .gtb _ => off = 0x068 || off = 0x080
  | .eng _ _ => off = 0x060
  | .can _ => off = 0x078
  | .intc => off = 0x060 || off = 0x068
  | .sw => (0x400 ≤ off && off < 0x700 && off % 16 = 0) || (0x700 ≤ off && off < 0x780 && off % 16 = 0)
  | .prf => off = 0x050
  | .cpl => 0x100 ≤ off && off < 0x300 && off % 0x80 = 0x0C
  | _ => false

/-- The pairs of type RW. -/
def pairWritable (p : Page) (off : Nat) : Bool :=
  pairLo p off && (match p with
    | .time => off = 0x094
    | .sw => true
    | .prf => true
    | _ => false)

/-- A pair is written as one value. -/
def State.writePair (s : State) (who : Requester) (p : Page) (off : Nat) (lo hi : Word) : State × Response :=
  match p with
  | .time =>
    (s.writeAsOffs (BitVec.ofNat 64 (hi.toNat * 2 ^ 32 + lo.toNat)), .done)
  | _ => (s.writePage who p off lo).1.writePage who p (off + 4) hi

/-- A write to a page's word by a requester, _LO words held until their _HI. -/
def State.writeReg (s : State) (who : Requester) (p : Page) (off : Nat) (v : Word) : State × Response :=
  let a := p.base + off
  if pairWritable p off then
    ({ s with writeHold := s.writeHold.filter (fun x => !(x.1 == who && x.2.1 = a)) ++ [(who, a, v)] }, .done)
  else if 4 ≤ off && pairWritable p (off - 4) then
    match s.writeHold.find? fun x => x.1 == who && x.2.1 = a - 4 with
    | some x =>
      ({ s with writeHold := s.writeHold.filter fun y => !(y.1 == who && y.2.1 = a - 4) } : State).writePair who p (off - 4) x.2.2 v
    | none =>
      match p with
      | .time => s.writePair who p (off - 4) (BitVec.ofNat 32 (s.get TIME.AS_OFFS_LO)) v
      | _ => s.writePage who p off v
  else s.writePage who p off v

/-- A read of a page's word: RC fields clear; a _LO latches its _HI; DBG_CHAL0 draws; a page under test counts as deferred (R398, R408). -/
def State.readReg (s : State) (who : Requester) (p : Page) (off : Nat) : Nat × State :=
  let a := p.base + off
  let s := match p with
    | .eng c i => s.when (s.engineUnderTest c i) fun s => s.setFlag (HDR.PAGE_STAT_ACC_DEFERRED p) true
    | _ => s
  let s := s.when (p = .sec && off = 0x060 && s.lifeCycle != lcSCRAPPED) fun s => s.drawChallenge
  match s.readLatch.find? fun x => x.1 == who && x.2.1 = a with
  | some x => (x.2.2, { s with readLatch := s.readLatch.filter fun y => !(y.1 == who && y.2.1 = a) })
  | none =>
    let v := s.pageWord p off
    let s := if off < 0x40 && p.base != p.headerBase then s else s.clearRc p a
    if pairLo p off then
      (v, { s with readLatch := s.readLatch.filter (fun x => !(x.1 == who && x.2.1 = a + 4)) ++ [(who, a + 4, s.pageWord p (off + 4))] })
    else (v, s)

/-! Words by address. -/

/-- The twin may not reach SEC (R382). -/
def secRefused (who : Requester) (t : Target) : Bool := who = .peer && (match t with | .page .sec _ => true | _ => false)

/-- A write of a 32-bit word at a BAR0 address. -/
def State.writeWord (s : State) (who : Requester) (addr : Nat) (v : Word) : State × Response :=
  let a := addr / 4 * 4
  let t := targetAt a
  if secRefused who t then (s, .refused)
  else if !s.reaches t then (s, .error)
  else match t with
    | .page p off => s.writeReg who p off v
    | t => s.writeOther who a t v

/-- A read of a 32-bit word: `none` where it is answered with an error. -/
def State.readWord (s : State) (who : Requester) (addr : Nat) : Option Word × State :=
  let a := addr / 4 * 4
  let t := targetAt a
  if secRefused who t || !s.reaches t then (none, s)
  else
    let (v, s) := match t with
      | .page p off => s.readReg who p off
      | t => s.otherWord who a t
    (some (BitVec.ofNat 32 v), s)

/-- REGISTER_WRITE: the word acts by its access types, its lock and its own rules. What fails the bridge reports with POSTED_FAIL. -/
def execRegisterWrite (who : Requester) (addr : BitVec 24) (v : Word) (s : State) : Host.Outcome State Fault Refusal :=
  .next (s.writeWord who addr.toNat v).1

/-- READ_CLEAR: the read returns the value and clears it. -/
def execReadClear (who : Requester) (addr : BitVec 24) (s : State) : Host.Outcome State Fault Refusal :=
  .next (match s.readWord who addr.toNat with
    | (some v, s) => s.emit (.regData who addr.toNat v)
    | (none, s) => s)

/-- PUSH_CHUNK: a write of PUSH_CTRL with GO. -/
def execPushChunk (who : Requester) (len : BitVec 18) (last : Bool) (s : State) : Host.Outcome State Fault Refusal :=
  .next (s.writeWord who 0x030068 (BitVec.ofNat 32 (2 ^ 31 + (if last then 2 ^ 30 else 0) + len.toNat))).1

end Sys2Proof.Machine
end

