-- ==== Sys2Proof/Machine/Bridges.lean ====
section
/-! DEFINITION. The host bridges: posted writes and their log, host reads, PCIe and host SPI (spec/12_bridges.md R351 to R369, R376, R378 to
R381; spec/06_the_loaf.md R178 to R182). -/

namespace Sys2Proof.Machine

/-! The posted-write error log (R367). -/

/-- The maps of PLOG_INFO.SPACE. -/
abbrev spBAR0 : Nat := 0
abbrev spBAR2 : Nat := 1
abbrev spPEER : Nat := 2

/-- A posted write fails: epoch, log, counter and interrupt. -/
def State.postedFail (s : State) (p : Page) (source cause space addr tag : Nat) : State :=
  let s := s.set (BR.EPOCH p source) (s.get (BR.EPOCH p source) + 1)
  let n := s.get (BR.PLOG_STAT_NUM p)
  let s :=
    if n < 16 then
      ([(BR.PLOG_ADDR p n, addr), (BR.PLOG_INFO_VALID p n, 1), (BR.PLOG_INFO_SOURCE p n, source), (BR.PLOG_INFO_CAUSE p n, cause),
        (BR.PLOG_INFO_SPACE p n, space), (BR.PLOG_INFO_TAG p n, tag), (BR.PLOG_CYCLE p n, s.cycle),
        (BR.PLOG_STAT_NUM p, n + 1)]).foldl (fun s e => s.set e.1 e.2) s
    else (s.count (BR.PLOG_OVF_CNT p)).set (BR.PLOG_STAT_OVF p) 1
  (s.count (BR.POSTED_FAIL_CNT p)).raise p 8

/-- POSTED_FAIL: a write whose failing response the bridge learns of on its own. Sources and causes R367 does not name do not occur. -/
def execPostedFail (b : Requester) (source : BitVec 1) (cause : BitVec 4) (space : BitVec 2) (addr : Word) (tag : BitVec 16) (s : State) :
    Host.Outcome State Fault Refusal :=
  .next (
    let p := bridgePage b
    if s.powered p && (source = 0 || p = .pcie) && 1 ≤ cause.toNat && cause.toNat ≤ 6 then
      s.postedFail p source.toNat cause.toNat space.toNat addr.toNat tag.toNat
    else s)

/-! Words as the bridges carry them (R353). -/

/-- A word from the four bytes of a request: least significant first over PCIe, most significant first over host SPI and in remote requests. -/
def wordFrom (b : Requester) (bs : List Byte) : Word := BitVec.ofNat 32 (natOfBE (if b = .pcie then bs.reverse else bs))
def bytesFrom (b : Requester) (w : Word) : List Byte := if b = .pcie then (bytesBE 4 w.toNat).reverse else bytesBE 4 w.toNat

/-- Cut enabled bytes at an address into aligned words. -/
def wordsIn (addr : Nat) (data : List (Option Byte)) : List (Nat × List (Option Byte)) :=
  let lead := addr % 4
  let bs := List.replicate lead none ++ data
  let n := (bs.length + 3) / 4
  let bs := bs ++ List.replicate (4 * n - bs.length) none
  (List.range n).map fun i => (addr - lead + 4 * i, (bs.drop (4 * i)).take 4)

/-! The peer window, outbound (R376). -/

/-- Remote requests may leave: the link block runs and a lane is up. -/
def State.remoteUp (s : State) : Bool := s.linkSends && s.get LZL.LZL_STAT_LANE_UP != 0

/-- A remote request meets no lane, or its time has run out. -/
def State.remoteTimeout (s : State) : State := (s.count LZL.RMT_TMO_CNT).raise .lzl 10

/-- The peer window decodes (R352). -/
def State.peerOn (s : State) : Bool := s.flag PCIE.PCIE_CTRL_PEER_EN

/-- Send one remote write for a bridge. -/
def State.remoteWrite (s : State) (b : Requester) (tag off : Nat) (data : List Byte) : State :=
  if !s.remoteUp then s.remoteTimeout.postedFail (bridgePage b) 0 4 spPEER off tag
  else
    let t := s.bridges.nextTag
    let ws := s.bridges.remoteWrites.filter fun (w : RemoteWrite) => w.tag != t
    let s := { s with bridges := { s.bridges with nextTag := t + 1, remoteWrites := ws ++ [(⟨t, b, tag, off⟩ : RemoteWrite)] } }
    s.sendLink (.request ⟨true, data.length, off, data, t⟩) t

/-- Join whole words of the peer window into requests within aligned 64-byte blocks. -/
def joinPeer : List (Nat × List Byte) → List (Nat × List Byte)
  | [] => []
  | (a, bs) :: t =>
    match joinPeer t with
    | (b, cs) :: u => if b = a + 4 && b % 64 != 0 then (a, bs ++ cs) :: u else (a, bs) :: (b, cs) :: u
    | [] => [(a, bs)]

/-! Inbound writes (R355, R359, R366). -/

/-- Where a piece's first failing word stands. -/
structure PieceFail where
  cause : Nat
  addr : Nat
deriving DecidableEq, Repr

/-- The bytes a word's enables give, where they give all four. -/
def whole (bs : List (Option Byte)) : Option (List Byte) := if bs.all Option.isSome then some (bs.filterMap id) else none

/-- Enabled bytes into the ring window. -/
def State.writeRing (s : State) (off : Nat) (bs : List (Option Byte)) : State :=
  s.each ((List.range 4).zip bs) fun e s => match e.2 with
    | some b => s.setByte (0xF80000 + off + e.1) b
    | none => s

/-- One aligned word of a write into BAR0, outside the peer window; what failed is kept, the first of a piece. -/
def State.bar0Word (s : State) (b : Requester) (tag a : Nat) (bs : List (Option Byte)) (fail : Option PieceFail) : State × Option PieceFail :=
  if bs.all Option.isNone then (s, fail)
  else match targetAt a with
    | .ring off =>
      if !s.reaches (.ring off) then (s, fail.or (some ⟨1, a⟩))
      else if s.pushOpen then (s.writeRing off bs, fail)
      else (s, fail.or (some ⟨3, a⟩))
    | .free => (s, fail)
    | _ =>
      match whole bs with
      | none => (s.postedFail (bridgePage b) 0 6 spBAR0 a tag, fail)
      | some w =>
        match s.writeWord b a (wordFrom b w) with
        | (s, .done) => (s, fail)
        | (s, .error) => (s, fail.or (some ⟨1, a⟩))
        | (s, .refused) => (s, fail.or (some ⟨3, a⟩))

/-- A piece of a write within one 4 KB page of BAR0. -/
def State.bar0Piece (s : State) (b : Requester) (tag : Nat) (ws : List (Nat × List (Option Byte))) : State :=
  let peer (a : Nat) : Bool := match targetAt a with | .peer _ => true | _ => false
  let far := ws.filter fun w => peer w.1
  let near := ws.filter fun w => !peer w.1
  let (s, fail) := near.foldl (fun (acc : State × Option PieceFail) w => acc.1.bar0Word b tag w.1 w.2 acc.2) (s, none)
  let s := match fail with
    | some f => s.postedFail (bridgePage b) 0 f.cause spBAR0 f.addr tag
    | none => s
  if !s.peerOn then s
  else
    let cut := far.filter fun w => !w.2.all Option.isNone
    let s := s.each (cut.filter fun w => (whole w.2).isNone) fun w s => s.postedFail (bridgePage b) 0 6 spPEER (w.1 - 0x800000) tag
    let reqs := joinPeer (cut.filterMap fun w => (whole w.2).map fun bs => (w.1 - 0x800000, bs.flatMap fun x => [x]))
    s.each reqs fun q s =>
      s.remoteWrite b tag q.1 (((List.range (q.2.length / 4)).map fun i => bytesBE 4 (wordFrom b ((q.2.drop (4 * i)).take 4)).toNat).flatten)

/-- The channel, window offset and role of a BAR2 address (R179). -/
def bar2Chan (a : Nat) : Line := if a < 0x200000 then .A else .B

/-- A piece of a write within one window page of BAR2: only draft windows take it (R179 to R182). -/
def State.bar2Piece (s : State) (b : Requester) (tag : Nat) (ws : List (Nat × List (Option Byte))) : State :=
  match ws with
  | [] => s
  | (a, _) :: _ =>
    let c := bar2Chan a
    if 0x400000 ≤ a then s
    else if !s.reaches (.shared c 0) then s.postedFail (bridgePage b) 0 1 spBAR2 a tag
    else
      let o := a % 0x200000
      if o < 0xA0000 || 0xA8000 ≤ o then s
      else
        let d := o / 0x1000 % 8
        let code := winXor (s.get (match c with | .A => PCIE.WIN_ORDER_A_DOUGH | .B => PCIE.WIN_ORDER_B_DOUGH))
        let bytes := ws.flatMap fun w => ((List.range 4).zip w.2).filterMap fun e => e.2.map fun x => (w.1 % 0x1000 + e.1, x)
        let data := (bytes.filter fun e => e.1 < 1928).map fun e => (e.1 ^^^ code, e.2)
        let s := if data.isEmpty then s else s.requestData b c d data
        match ws.find? fun w => w.1 % 0x1000 = 0xFFC with
        | some w =>
          if w.2.all Option.isNone then s
          else match whole w.2 with
            | some bs => s.requestControl b c d (wordFrom b bs).toNat true
            | none => s.requestControl b c d 0 false
        | none => s

/-- Group words by their 4 KB page, in order. -/
def piecesOf (ws : List (Nat × List (Option Byte))) : List (List (Nat × List (Option Byte))) :=
  let first := ((ws.head?.map Prod.fst).getD 0) / 0x1000
  [first, first + 1].map fun p => ws.filter fun w => w.1 / 0x1000 = p

/-- An inbound write of up to 4 KB. -/
def State.inboundWrite (s : State) (b : Requester) (bar2 : Bool) (addr tag : Nat) (data : List (Option Byte)) : State :=
  s.each (piecesOf (wordsIn addr data)) fun ws s => if bar2 then s.bar2Piece b tag ws else s.bar0Piece b tag ws

/-! Inbound reads (R356, R360, R376). -/

/-- A byte of the BAR2 map as a bridge presents it (R179, R354). -/
def State.bar2Byte (s : State) (b : Requester) (a : Nat) : Byte :=
  let c := bar2Chan a
  let o := a % 0x200000
  let code (x y : Reg) := winXor (s.get (match c with | .A => x | .B => y))
  let role (valid bank : Reg) (i : Nat) : Byte :=
    if !s.flag valid then 0
    else if i < 0x10000 then s.byte (bankAddr c (s.get bank) + (i ^^^ code PCIE.WIN_ORDER_A_PAY PCIE.WIN_ORDER_B_PAY))
    else if i < 0x11000 then (s.bank c (s.get bank)).dirByte (s.get bank) ((i ^^^ code PCIE.WIN_ORDER_A_DIR PCIE.WIN_ORDER_B_DIR) % 0x1000)
    else 0
  let dough := code PCIE.WIN_ORDER_A_DOUGH PCIE.WIN_ORDER_B_DOUGH
  if 0x400000 ≤ a then 0
  else if o < 0x20000 then role (LOAF.BANK_STAT_LATEST_VALID c) (LOAF.BANK_STAT_LATEST c) o
  else if o < 0x40000 then role (LOAF.BANK_STAT_PREV_VALID c) (LOAF.BANK_STAT_PREVIOUS c) (o % 0x20000)
  else if o < 0x60000 then role (LOAF.BANK_STAT_PIN_VALID c) (LOAF.BANK_STAT_PINNED c) (o % 0x20000)
  else if o < 0x60788 then s.byte (doughAddr c + ((o % 0x1000) ^^^ dough))
  else if 0x61000 ≤ o && o < 0x61788 then s.byte (holdAddr c + ((o % 0x1000) ^^^ dough))
  else if 0xA0000 ≤ o && o < 0xA8000 then
    let d := o / 0x1000 % 8
    let i := o % 0x1000
    if i < 1928 then s.byte (draftAddr c d + (i ^^^ dough))
    else if 0xFFC ≤ i then (bytesFrom b (BitVec.ofNat 32 (s.controlWord c d))).getD (i - 0xFFC) 0
    else 0
  else 0

/-- Bytes of a BAR2 read; `none` where the channel region does not answer. -/
def State.readBar2 (s : State) (b : Requester) (a n : Nat) : Option (List Byte) :=
  if a < 0x400000 && !s.reaches (.shared (bar2Chan a) 0) then none else some ((List.range n).map fun i => s.bar2Byte b (a + i))

/-- Bytes of a BAR0 word from its `skip`th on. -/
def State.readBar0 (s : State) (b : Requester) (a n : Nat) : Option (List Byte) × State :=
  match targetAt a with
  | .ring off => (if s.reaches (.ring off) then some (s.bytes a n) else none, s)
  | _ =>
    match s.readWord b a with
    | (some w, s) => (some (((bytesFrom b w).drop (a % 4)).take n), s)
    | (none, s) => (none, s)

/-- Change the read of a bridge that is being served. -/
def State.setRead (s : State) (r r' : HostRead) : State :=
  { s with bridges := { s.bridges with hostReads := s.bridges.hostReads.map fun (x : HostRead) => if x == r then r' else x } }

/-- Cut a read's data into completions of at most `k` bytes, each ending on a 64-byte boundary except the last (R355). -/
def cutCompletion (k : Nat) : Nat → Nat → List Byte → List (List Byte)
  | 0, _, bs => [bs]
  | n + 1, addr, bs =>
    let first := (addr + k) / 64 * 64 - addr
    if bs.length ≤ k then [bs] else bs.take first :: cutCompletion k n (addr + first) (bs.drop first)

/-- A host read ends: its completions, its delayed-read result, or nothing where it is thrown away (R360, R365). -/
def State.endRead (s : State) (r : HostRead) (data : Option (List Byte)) : State :=
  let s := { s with bridges := { s.bridges with hostReads := s.bridges.hostReads.filter fun (x : HostRead) => x != r } }
  if r.drop then s
  else match r.bridge with
    | .qspi => { s with bridges := { s.bridges with slot := some data } }
    | _ =>
      match data with
      | some bs =>
        let cuts := cutCompletion s.payloadMax bs.length (r.addr - bs.length) bs
        if r.spoiled then s.each cuts (fun x s => s.emit (.pciePoisoned r.tag x)) |>.count PCIE.POISON_TX_CNT
        else s.each cuts fun x s => s.emit (.pcieCompletion r.tag true x)
      | none => (s.count PCIE.CA_CNT).emit (.pcieCompletion r.tag false [])

/-- The read goes to the peer for its next piece: one remote read at a time, within an aligned 64-byte block (R376). -/
def State.askPeer (s : State) (r : HostRead) : State :=
  if s.bridges.hostReads.any fun (x : HostRead) => x.link.isSome then s
  else if !s.remoteUp then s.remoteTimeout.endRead r none
  else
    let off := r.addr - 0x800000
    let first := off / 4 * 4
    let last := min ((off + r.left + 3) / 4 * 4) (off / 64 * 64 + 64)
    let t := s.bridges.nextTag
    let s := { s with bridges := { s.bridges with nextTag := t + 1, askedAt := s.ltcNs } }
    (s.setRead r { r with link := some t }).sendLink (.request ⟨false, last - first, first, [], t⟩) t

/-- A BAR2 read is served from the banks that hold its windows' roles when the bridge accepts it (R178). -/
def State.fetchBar2 (s : State) (r : HostRead) : HostRead :=
  let n := min r.left (0x1000 - r.addr % 0x1000)
  match s.readBar2 r.bridge r.addr n, if n < r.left then s.readBar2 r.bridge (r.addr + n) (r.left - n) else some [] with
  | some x, some y => { r with addr := r.addr + r.left, left := 0, got := x ++ y }
  | _, _ => { r with left := 0, failed := true }

/-- Serve the next piece of a read: a word of BAR0 or a remote request. -/
def State.serveRead (s : State) (r : HostRead) : State :=
  if r.left = 0 then s.endRead r (if r.failed then none else some r.got)
  else
    let take (s : State) (data : Option (List Byte)) : State := match data with
      | some bs => s.setRead r { r with addr := r.addr + bs.length, left := r.left - bs.length, got := r.got ++ bs }
      | none => s.endRead r none
    match targetAt r.addr with
    | .peer _ =>
      if s.peerOn then s.askPeer r else take s (some (List.replicate (min r.left (4 - r.addr % 4)) 0))
    | _ =>
      let (data, s) := s.readBar0 r.bridge r.addr (min r.left (4 - r.addr % 4))
      take s data

/-- A read of FENCE waits while a posted write of its bridge may still be refused by the peer (R368). -/
def State.fenceWaits (s : State) (r : HostRead) : Bool :=
  !r.bar2 && r.left != 0 && r.addr / 4 * 4 = (bridgePage r.bridge).base + 0x090
    && s.bridges.remoteWrites.any fun (w : RemoteWrite) => w.bridge == r.bridge

/-- The reads of one bridge complete in the order they were accepted; a read that waits for the peer holds those behind it. -/
def State.serveBridge (b : Requester) : Nat → State → State
  | 0, s => s
  | n + 1, s =>
    match s.bridges.hostReads.find? fun (r : HostRead) => r.bridge == b with
    | some r => if r.link.isSome || s.fenceWaits r then s else State.serveBridge b n (s.serveRead r)
    | none => s

/-- Words and pieces of all reads waiting at most, as fuel. -/
def State.readFuel (s : State) : Nat := (s.bridges.hostReads.map fun (r : HostRead) => r.left + 2).sum + 1

/-- Serve both host bridges. -/
def State.serveReads (s : State) : State :=
  let n := s.readFuel
  State.serveBridge .qspi n (State.serveBridge .pcie n s)

/-- Accept a read. -/
def State.acceptRead (s : State) (r : HostRead) : State :=
  let r := if r.bar2 then s.fetchBar2 r else r
  ({ s with bridges := { s.bridges with hostReads := s.bridges.hostReads ++ [r] } }).serveReads

/-- FENCE: every posted write accepted before the read has its final response, and the read completes with the epoch of source 0 (R368): one that
waits in its bridge, or this one. -/
def execFence (b : Requester) (s : State) : Host.Outcome State Fault Refusal :=
  .next (
    let p := bridgePage b
    if s.powered p then
      let waits := s.bridges.hostReads.any s.fenceWaits
      let s := { s with bridges := { s.bridges with remoteWrites := s.bridges.remoteWrites.filter fun (w : RemoteWrite) => w.bridge != b } }
      if waits then s.serveReads else s.emit (.regData b (p.base + 0x090) (BitVec.ofNat 32 (s.get (BR.EPOCH p 0))))
    else s)

/-! PCIe (R357 to R362). -/

/-- The endpoint takes inbound memory requests: link up, D0, memory space enabled, or a push over PCIe in progress (R362, R447; log entry 68). -/
def State.pcieServes (s : State) : Bool :=
  s.live .pcie && s.flag PCIE.PCIE_STAT_DL_UP && !s.flag PCIE.PCIE_STAT_D3HOT && (s.bridges.config.memEn || s.flag PWR.PUSH_STAT_PUSH)

/-- PCIE_INBOUND_WRITE: `none` marks bytes without enable. -/
def execPcieInboundWrite (bar2 : Bool) (addr : BitVec 24) (data : List (Option Byte)) (poisoned : Bool) (tag : BitVec 16) (s : State) :
    Host.Outcome State Fault Refusal :=
  .next (
    if !s.pcieServes then s
    else if poisoned then s.postedFail .pcie 0 2 (if bar2 then spBAR2 else spBAR0) addr.toNat tag.toNat
    else s.inboundWrite .pcie bar2 addr.toNat tag.toNat (data.take 4096))

/-- PCIE_INBOUND_READ; `spoiled` says that it meets an uncorrectable error in the bridge buffer. -/
def execPcieInboundRead (bar2 : Bool) (addr : BitVec 24) (len : BitVec 13) (tag : BitVec 16) (spoiled : Bool) (s : State) :
    Host.Outcome State Fault Refusal :=
  .next (
    if !s.pcieServes then s
    else s.acceptRead ⟨.pcie, tag.toNat, bar2, addr.toNat, min 4096 len.toNat, [], none, false, spoiled, false⟩)

/-- What an outbound read answers to its ring: a descriptor, then the data of a transmit frame; `none` for an error. -/
def State.answerRead (s : State) (r : OutRead) (data : Option (List Byte)) : State :=
  match r with
  | .desc g i =>
    match data with
    | some bs =>
      let addr := BitVec.ofNat 64 (natOfBE (bs.take 8).reverse)
      let w2 : Word := BitVec.ofNat 32 (natOfBE ((bs.drop 8).take 4).reverse)
      let tx := g % 16 < 8
      let len := w2.toNat % 2 ^ 14
      let have_ : Option (Option (List Byte)) := if tx && len != 0 then none else some (some [])
      let s := s.withSwitch fun x => { x with descs := x.descs ++ [(⟨g, i, some (addr, w2), have_⟩ : HostDesc)] }
      if tx && len != 0 then s.issueRead (.data g i) addr len else s
    | none => s.withSwitch fun x => { x with descs := x.descs ++ [(⟨g, i, none, some none⟩ : HostDesc)] }
  | .data g i =>
    s.withSwitch fun x => { x with descs := x.descs.map fun (d : HostDesc) => if d.ring = g && d.index = i then { d with data := some data } else d }

/-- A cut of an outbound read ends; with the last of its cuts the read itself does, in an error where one of them has. -/
def State.endPiece (s : State) (p : OutPiece) (data : Option (List Byte)) : State :=
  match s.bridges.fetches.find? fun (f : HostFetch) => f.what = p.what with
  | none => s
  | some f =>
    let f' : HostFetch := { f with parts := f.parts ++ (data.toList.map fun d => (p.offs, d)), open_ := f.open_ - 1, failed := f.failed || data.isNone }
    if f'.open_ = 0 then
      ({ s with bridges := { s.bridges with fetches := s.bridges.fetches.filter fun g => g != f } }).answerRead f.what
        (if f'.failed then none else some f'.bytes)
    else { s with bridges := { s.bridges with fetches := s.bridges.fetches.map fun g => if g = f then f' else g } }

/-- An outbound read's tag is free again: its cut ends, and those that wait for a tag go out. -/
def State.finishRead (s : State) (o : OutTag) (data : Option (List Byte)) : State :=
  let s := { s with bridges := { s.bridges with reads := s.bridges.reads.filter fun (x : OutTag) => x.tag != o.tag } }
  let s := s.set PCIE.PCIE_STAT_OUTSTANDING s.bridges.reads.length
  ((s.endPiece o.piece data).issuePieces).fetchDescs o.piece.what.ring

/-- PCIE_COMPLETION_RX: what the completions of a read brought; `none` for status UR or CA, or poisoned data. -/
def execPcieCompletionRx (tag : BitVec 8) (data : Option (List Byte)) (s : State) : Host.Outcome State Fault Refusal :=
  .next (
    if !s.powered .pcie then s
    else match s.bridges.reads.find? fun (x : OutTag) => x.tag = tag.toNat with
      | some o => (s.when data.isNone fun s => s.count PCIE.CPL_ERR_CNT).finishRead o data
      | none => s.count PCIE.CPL_ERR_CNT)

/-- An outbound read without its completions ends in an error (R358). -/
def State.completionTimeout (s : State) (o : OutTag) : State := ((s.count PCIE.CPL_TMO_CNT).raise .pcie 9).finishRead o none

/-- The completion timeout in ns: 10 ms by default (R357); of ranges A and B the least that the PCI Express specification gives (PRESUMED, log
entry 69). -/
def State.cplTimeout (s : State) : Nat :=
  match s.bridges.config.timeout.toNat with
  | 1 => 50000
  | 2 => 1000000
  | 5 => 16000000
  | 6 => 65000000
  | _ => 10000000

/-- CPL_TMO. -/
def execCplTmo (tag : BitVec 8) (s : State) : Host.Outcome State Fault Refusal :=
  .next (
    match s.bridges.reads.find? fun (x : OutTag) => x.tag = tag.toNat with
    | some o => if s.cplTimeout ≤ (s.ltcNs - o.since).toNat then s.completionTimeout o else s
    | none => s)

/-- The link goes down, is reset or enters D3hot (R362): outbound reads end, the function is no longer enabled, and what the host still waited
for goes nowhere. -/
def State.linkDown (s : State) (d3 : Bool) : State :=
  let s := if d3 then s.setFlag PCIE.PCIE_STAT_D3HOT true
    else (((s.setFlag PCIE.PCIE_STAT_DL_UP false).set PCIE.PCIE_STAT_SPEED 0).set PCIE.PCIE_STAT_WIDTH 0).setFlag PCIE.PCIE_STAT_D3HOT false
  let s := s.setFlag PCIE.PCIE_STAT_BME false
  let s := { s with bridges := { s.bridges with
    config := { PcieConfig.reset with d3 := d3 }
    hostReads := s.bridges.hostReads.map fun (r : HostRead) => if r.bridge == Requester.pcie then { r with drop := true } else r } }
  let s := s.each s.bridges.waiting fun p s => s.endPiece p none
  let s := { s with bridges := { s.bridges with waiting := [] } }
  let s := s.each s.bridges.reads fun o s => s.completionTimeout o
  s.raise .pcie 10

/-- LINK_DOWN. -/
def execLinkDown (d3 : Bool) (s : State) : Host.Outcome State Fault Refusal :=
  .next (if s.powered .pcie && s.flag PCIE.PCIE_STAT_DL_UP then s.linkDown d3 else s)

/-- PCIE_LINK_UP: speeds 1 to 3, up to four lanes (R357). -/
def execPcieLinkUp (speed : BitVec 3) (width : BitVec 4) (s : State) : Host.Outcome State Fault Refusal :=
  .next (
    if s.powered .pcie && 1 ≤ speed.toNat && speed.toNat ≤ 3 && [1, 2, 4].contains width.toNat then
      ((s.setFlag PCIE.PCIE_STAT_DL_UP true).set PCIE.PCIE_STAT_SPEED speed.toNat).set PCIE.PCIE_STAT_WIDTH width.toNat
    else s)

/-- The low or high dword of a 64-bit BAR with its type bits (R357; the PCI Express specification). -/
def barWord (bar : BitVec 64) (high prefetch : Bool) : Word :=
  if high then (bar >>> 32).setWidth 32 else bar.setWidth 32 ||| (if prefetch then 0xC else 0x4)

/-- A BAR with one dword written; a region of 2^n bytes keeps its low bits 0. -/
def barWrite (bar : BitVec 64) (high : Bool) (v : Word) (n : Nat) : BitVec 64 :=
  let bar : BitVec 64 := if high then (v.setWidth 64 <<< 32) ||| (bar &&& 0xFFFFFFFF) else (bar &&& 0xFFFFFFFF00000000) ||| v.setWidth 64
  (bar >>> n) <<< n

/-- What a configuration item reads as (R357, R361; the places of the command, power, MSI-X and Device Control bits are the PCI Express
specification's, log entry 69). Items the manual gives no value for read as a free value. -/
def State.configWord (s : State) (item : ConfigItem) : Word × State :=
  let k := s.bridges.config
  let b2 (c : Bool) (n : Nat) : Nat := if c then 2 ^ n else 0
  match item with
  | .ids => (BitVec.ofNat 32 (0x7420 * 2 ^ 16 + Config.vendorId.toNat), s)
  | .command => (BitVec.ofNat 32 (b2 k.memEn 1 + b2 k.busMaster 2 + 2 ^ 20), s)
  | .revClass => (0x028000B0, s)
  | .bar i => (barWord (if i.toNat < 2 then k.bar0 else k.bar2) (i.toNat % 2 = 1) (2 ≤ i.toNat), s)
  | .subsystem => (s.power.subsystem, s)
  | .power => (if k.d3 then 3 else 0, s)
  | .msix => (BitVec.ofNat 32 (b2 k.msixEn 31 + b2 k.msixMask 30 + 63 * 2 ^ 16), s)
  | .deviceControl => let (v, s) := s.draw; ((BitVec.ofNat 32 v &&& 0xFFFF8F1F) ||| BitVec.ofNat 32 (k.payload.toNat * 2 ^ 5 + k.request.toNat * 2 ^ 12), s)
  | .deviceControl2 => let (v, s) := s.draw; ((BitVec.ofNat 32 v &&& 0xFFFFFFF0) ||| k.timeout.setWidth 32, s)
  | .other => let (v, s) := s.draw; (BitVec.ofNat 32 v, s)

/-- A write to a configuration item. -/
def State.writeConfig (s : State) (item : ConfigItem) (v : Word) : State :=
  let set (s : State) (f : PcieConfig → PcieConfig) : State := { s with bridges := { s.bridges with config := f s.bridges.config } }
  match item with
  | .command =>
    (set s fun k => { k with memEn := v.getLsbD 1, busMaster := v.getLsbD 2 }).setFlag PCIE.PCIE_STAT_BME (v.getLsbD 2)
  | .bar i =>
    if i.toNat < 2 then set s fun k => { k with bar0 := barWrite k.bar0 (i.toNat = 1) v 24 }
    else set s fun k => { k with bar2 := barWrite k.bar2 (i.toNat = 3) v 22 }
  | .power =>
    if v.toNat % 4 = 3 && !s.bridges.config.d3 then s.linkDown true
    else if v.toNat % 4 = 0 then (set s fun k => { k with d3 := false }).setFlag PCIE.PCIE_STAT_D3HOT false
    else s
  | .msix => (set s fun k => { k with msixEn := v.getLsbD 31, msixMask := v.getLsbD 30 }).unmaskMsix
  | .deviceControl => set s fun k => { k with payload := v.extractLsb' 5 3, request := v.extractLsb' 12 3 }
  | .deviceControl2 => set s fun k => { k with timeout := v.extractLsb' 0 4 }
  | _ => s

/-- PCIE_CONFIG_REQUEST: Configuration Request Retry Status until stage 0x6 has written the subsystem IDs (R448). -/
def execPcieConfigRequest (item : ConfigItem) (write : Option Word) (tag : BitVec 16) (s : State) : Host.Outcome State Fault Refusal :=
  .next (
    if !s.powered .pcie || !s.flag PCIE.PCIE_STAT_DL_UP then s
    else if s.get SEC.BOOT_STAT_STAGE < 6 then s.emit (.pcieRetry tag.toNat)
    else match write with
      | some v => (s.writeConfig item v).emit (.pcieCompletion tag.toNat true [])
      | none =>
        let (v, s) := s.configWord item
        s.emit (.pcieCompletion tag.toNat true (bytesFrom .pcie v)))

/-! Host SPI (R363 to R366). -/

abbrev spiREADY : Nat := 0xA5
abbrev spiRETRY : Nat := 0x3C
abbrev spiERROR : Nat := 0xC3

/-- Codes of QSPI_STAT's slot (R380). -/
abbrev drEMPTY : Nat := 0
abbrev drFETCHING : Nat := 1
abbrev drHELD : Nat := 2

/-- The bridge answers frames: PD_HOST on, and its enables (R380, R448). -/
def State.spiServes (s : State) : Bool := s.live .qspi && s.flag QSPI.QSPI_CTRL_EN

/-- The map and length of a frame are accepted (R363). -/
def frameGood (addr len : Nat) : Bool := decide (addr / 2 ^ 30 < 2) && decide (4 ≤ len) && decide (len ≤ 4096) && len % 4 = 0

/-- A frame the bridge does not accept. -/
def State.commandError (s : State) : State := (s.count QSPI.CMD_ERR_CNT).emit (.qspiReply spiERROR [])

/-- An offset of the map, beyond whose end nothing answers. -/
def frameOffset (addr : Nat) : Nat := addr % 2 ^ 30

/-- QSPI_WRITE: `room` says whether the write queue has room, `data` what the host drove before the frame ended. -/
def execQspiWrite (addr : Word) (len : BitVec 16) (data : List Byte) (room : Bool) (s : State) : Host.Outcome State Fault Refusal :=
  .next (
    if !s.spiServes then s
    else if !frameGood addr.toNat len.toNat then s.commandError
    else
      let s := s.setFlag QSPI.QSPI_STAT_WQ_FULL (!room)
      if !room then (s.count QSPI.RETRY_CNT).emit (.qspiReply spiRETRY [])
      else
        let s := s.emit (.qspiReply spiREADY [])
        if data.length < len.toNat then s.count QSPI.FRAME_ERR_CNT
        else
          let n := s.bridges.frames + 1
          let s := { s with bridges := { s.bridges with frames := n } }
          s.inboundWrite .qspi (addr.toNat / 2 ^ 30 = 1) (frameOffset addr.toNat) (n % 2 ^ 16) ((data.take len.toNat).map some))

/-- Latch a request and start its fetch (R365). -/
def State.startFetch (s : State) (addr len : Nat) : State :=
  let s := ((s.set QSPI.QSPI_STAT_SLOT drFETCHING).set QSPI.DR_ADDR addr).set QSPI.DR_LEN len
  let s := { s with bridges := { s.bridges with slot := none } }
  (s.acceptRead ⟨.qspi, 0, addr / 2 ^ 30 = 1, frameOffset addr, len, [], none, false, false, false⟩).emit (.qspiReply spiRETRY [])

/-- The slot empties. -/
def State.emptySlot (s : State) : State :=
  { s.set QSPI.QSPI_STAT_SLOT drEMPTY with bridges := { s.bridges with slot := none } }

/-- QSPI_READ: the delayed-read slot. -/
def State.qspiRead (s : State) (addr len : Nat) : State :=
  if !frameGood addr len then s.commandError
  else
    let same := s.get QSPI.DR_ADDR = addr && s.get QSPI.DR_LEN = len
    match s.get QSPI.QSPI_STAT_SLOT with
    | 0 => s.startFetch addr len
    | 1 => (s.count QSPI.RETRY_CNT).emit (.qspiReply spiRETRY [])
    | _ =>
      if same then
        match s.bridges.slot with
        | some (some bs) => s.emptySlot.emit (.qspiReply spiREADY bs)
        | _ => s.emptySlot.emit (.qspiReply spiERROR [])
      else ((s.count QSPI.DR_DISCARD_CNT).raise .qspi 9).startFetch addr len

def execQspiRead (addr : Word) (len : BitVec 16) (s : State) : Host.Outcome State Fault Refusal :=
  .next (if s.spiServes then s.qspiRead addr.toNat len.toNat else s)

/-- DR_CLEAR: a fetch in progress completes and is discarded. -/
def execDrClear (s : State) : Host.Outcome State Fault Refusal :=
  .next (
    if s.spiServes then
      let s := { s with bridges := { s.bridges with
        hostReads := s.bridges.hostReads.map fun (r : HostRead) => if r.bridge == Requester.qspi then { r with drop := true } else r } }
      s.emptySlot.emit (.qspiReply spiREADY [])
    else s)

/-- DR_FETCH_DONE: the fetch of the latched request has completed. -/
def execDrFetchDone (s : State) : Host.Outcome State Fault Refusal :=
  .next (if s.get QSPI.QSPI_STAT_SLOT = drFETCHING && s.bridges.slot.isSome then
    { s.set QSPI.QSPI_STAT_SLOT drHELD with bridges := { s.bridges with slotSince := s.ltcNs } }
  else s)

/-- DR_TMO: held for DR_TMO µs. -/
def execDrTmo (s : State) : Host.Outcome State Fault Refusal :=
  .next (if s.get QSPI.QSPI_STAT_SLOT = drHELD && decide (s.get QSPI.QSPI_CTRL_DR_TMO * 1000 ≤ (s.ltcNs - s.bridges.slotSince).toNat) then (s.emptySlot.count QSPI.DR_TMO_CNT).raise .qspi 9 else s)

end Sys2Proof.Machine
end

