-- ==== Sys2Proof/Machine/EngExec.lean ====
section
/-! DEFINITION. How engines reach memory (spec/08_protocol_engines.md R228 to R231, R242, R243, R246 to R251): the address map, rights and
ownership, local registers, the release queue's application, DMA, and planned moves (R253). -/

namespace Sys2Proof.Machine

/-! Rights (R246). -/

/-- Pages an engine may write. -/
def engWritablePage : Page → Bool
  | .sw | .mac _ | .can _ | .mvb _ | .gpio => true
  | _ => false

/-- An engine of a channel may read a target. -/
def engMayRead (c : Line) : Target → Bool
  | .page p _ =>
    match p with
    | .time | .cyc | .twin | .cpl | .prf => true
    | .gtb k | .loaf k | .knd k | .eng k _ => k = c
    | p => engWritablePage p
  | .kndTable k _ => k = c
  | .mvbRam _ _ | .canRam _ _ | .swTable | .learned _ | .pool _ => true
  | _ => false

/-- An engine of a channel may write a target: no header word but INT_RAW, and of its KND page KICK only. -/
def engMayWrite (c : Line) : Target → Bool
  | .page p off =>
    match p with
    | .knd k => k = c && off = 0x04C
    | p => engWritablePage p && (0x40 ≤ off || off = 0x010)
  | .mvbRam _ _ | .canRam _ _ | .swTable | .learned _ | .pool _ => true
  | _ => false

/-- CAN, MVB and TRDP data, which in SPLIT mode only the channel that owns the field may write (R204, R246). -/
def fieldData : Target → Bool
  | .canRam _ off => off < 0x3C00
  | .mvbRam _ off => off < 0x4000
  | .pool _ => true
  | _ => false

/-- A store of an engine to a BAR0 offset is admitted. -/
def State.engAdmits (s : State) (c : Line) (off : Nat) : Bool :=
  let t := targetAt (off / 4 * 4)
  engMayWrite c t && (s.lockedMode || !fieldData t || s.ownsField c)

/-! The TRDP pool (R276): STAGE of a transmit entry takes an engine's writes. -/

/-- The transmit entry whose STAGE buffer holds a pool offset. -/
def State.stageEntryAt (s : State) (off : Nat) : Option Nat :=
  (List.range 512).find? fun e =>
    let a := s.trdpBuf e (!s.trdpLiveSel e)
    decide (a ≤ trdpPool + off) && decide (trdpPool + off < a + s.trdpTxLen e)

/-- A word written to the pool by an engine: outside every STAGE buffer it is dropped. -/
def State.writePool (s : State) (who : Requester) (off : Nat) (v : Word) : State :=
  match s.stageEntryAt off with
  | some e => s.stageWrite who (trdpObj e) (trdpPool + off) (bytesBE 4 v.toNat)
  | none => s

/-! Stores that leave the engine. -/

/-- A store through a window reaches its target: KICK in the engines' own page, in LOCKED mode of both channels. -/
def State.landWindow (s : State) (c : Line) (r off : Nat) (v : Word) : State × Response :=
  match targetAt (off / 4 * 4) with
  | .page (.knd _) o =>
    if s.reaches (.page (.knd c) o) then
      (s.each (s.pairOf c) fun k s => (s.writeWord (.engine c r) ((Page.knd k).base + o) v).1, .done)
    else (s, .error)
  | .pool o => if s.reaches (.pool o) then (s.writePool (.engine c r) o v, .done) else (s, .error)
  | _ => s.writeWord (.engine c r) off v

/-- A queued store is applied (R243): a window's, or one of the mailbox registers. -/
def State.applyStore (s : State) (c : Line) (r : Nat) (q : QueuedStore) : State :=
  let a := q.addr.toNat
  let v := BitVec.ofNat 32 (natOfBE q.data.reverse)
  if a = 0x000F0040 then (if bitOf v.toNat 0 then s.ringOut c r else s)
  else if a = 0x000F0080 then (if bitOf v.toNat 0 then s.ackIn c r else s)
  else if 0x000F0020 ≤ a && a < 0x000F0040 then s.writeMboxOut c r ((a - 0x000F0020) / 4) v
  else (s.landWindow c r (a % 2 ^ 24) v).1

/-- Clock 40 of a release: the sealed queues are applied in the order stored, role by role (R243). -/
def State.applyQueues (s : State) : State :=
  s.eachRole fun c r s =>
    let k := s.role c r
    if k.sealed_ then (s.each k.relq fun q s => s.applyStore c r q).withRole c r fun k => { k with relq := [] } else s

/-- What a tick starts in every role: the new cycle's queue is open and not sealed; a role counts the ticks it has not waited for (R255);
held descriptors start, or at a held tick are discarded (R248). -/
def State.engineNewCycle (s : State) (release : Bool) : State :=
  s.eachRole fun c r s => s.withRole c r fun k =>
    { k with
      sealed_ := false
      refused := false
      idleTicks := if k.sealed_ then 0 else k.idleTicks + 1
      dma := k.dma.map fun (d : Dma) => if d.held then { d with held := false, busy := d.busy && release } else d }

/-- Clock 40: the tick bit and the TICK event (R236, R240). -/
def State.engineTick (s : State) : State :=
  s.eachRole fun c r s => (s.withRole c r fun k => { k with pend := withBit k.pend 16 true }).pushEvent c r evTICK s.cycle

/-! Local registers (R251). -/

def Role.dmaAt (k : Role) (d : Nat) : Dma := k.dma.getD d Dma.reset

def Role.setDma (k : Role) (d : Nat) (f : Dma → Dma) : Role := { k with dma := modifyAt k.dma d f }

/-- A register of the page of a role's engine. -/
def State.engReg (s : State) (c : Line) (r : Nat) (reg : Line → Nat → Reg) : Nat :=
  match s.engineOf c r with
  | some i => s.get (reg c i)
  | none => 0

/-- A load of a local register. -/
def State.localLoad (s : State) (c : Line) (r off : Nat) : Word × State :=
  let k := s.role c r
  let bit (b : Bool) (i : Nat) : Nat := if b then 2 ^ i else 0
  if off = 0 then s.popEvent c r
  else
    let v : Nat :=
      match off with
      | 0x004 => k.evq.length + bit (!k.held.isEmpty) 8
      | 0x008 => k.evEn
      | 0x00C => k.relq.length + bit k.sealed_ 8 + bit k.tainted 9 + bit k.refused 10
      | 0x044 => s.engReg c r ENG.MBOX_CTRL_OUT_FULL + 2 * s.engReg c r ENG.MBOX_CTRL_IN_FULL
      | _ =>
        if 0x020 ≤ off && off < 0x040 then s.engReg c r fun c i => ENG.MBOX_OUT c i ((off - 0x020) / 4)
        else if 0x060 ≤ off && off < 0x080 then s.engReg c r fun c i => ENG.MBOX_IN c i ((off - 0x060) / 4)
        else if 0x0C0 ≤ off && off < 0x100 then
          let d := k.dmaAt ((off - 0x0C0) / 16)
          match off % 16 with
          | 0 => d.src.toNat
          | 4 => d.dst.toNat
          | 8 => d.len
          | _ => bit d.busy 1 + bit d.err 2
        else 0
    (BitVec.ofNat 32 v, s)

/-- The bits EV_EN holds: types 0x1, 0x2, 0x5, 0x6, 0x7 and 0xB. -/
abbrev evEnMask : Nat := 0x8E6

/-- A destination outside the channel: the immediate window, but for the channel's own KND page (R248). -/
def leavesChannel (dst : Word) : Bool :=
  dst.toNat / 2 ^ 24 = 0x40 && (match targetAt (dst.toNat % 2 ^ 24 / 4 * 4) with
    | .page (.knd _) _ => false
    | _ => true)

/-- The bank is LATEST or PREVIOUS, as a view always is (R177). -/
def State.viewable (s : State) (c : Line) (bank : Nat) : Bool :=
  (s.flag (LOAF.BANK_STAT_LATEST_VALID c) && bank = s.get (LOAF.BANK_STAT_LATEST c))
    || (s.flag (LOAF.BANK_STAT_PREV_VALID c) && bank = s.get (LOAF.BANK_STAT_PREVIOUS c))

/-- The bank that a role's view shows; without a committed bank there a view shows 0 (R177; log entry 160). -/
def State.viewBank (s : State) (c : Line) (r : Nat) : Option Nat :=
  let b := (s.role c r).view
  if s.viewable c b then some b else none

/-- GO starts a descriptor, which keeps its view's bank; from a tainted engine to a destination outside the channel it is held (R247, R248). -/
def State.dmaGo (s : State) (c : Line) (r d : Nat) : State :=
  let k := s.role c r
  let x := k.dmaAt d
  if x.busy then s
  else s.withRole c r fun k => k.setDma d fun x =>
    { x with busy := true, err := false, held := k.tainted && leavesChannel x.dst, bank := s.viewBank c r }

/-- A store to a local register. -/
def State.localStore (s : State) (c : Line) (r off : Nat) (v : Word) : State :=
  if off = 0x008 then s.withRole c r fun k => { k with evEn := v.toNat &&& evEnMask }
  else if (0x020 ≤ off && off < 0x044) || off = 0x080 then
    let q : QueuedStore := ⟨BitVec.ofNat 32 (0x000F0000 + off), leBytes 4 v.toNat⟩
    if (s.role c r).tainted then s.queueStore c r q.addr q.data else s.applyStore c r q
  else if 0x0C0 ≤ off && off < 0x100 then
    let d := (off - 0x0C0) / 16
    match off % 16 with
    | 0 => s.withRole c r fun k => k.setDma d fun (x : Dma) => { x with src := v }
    | 4 => s.withRole c r fun k => k.setDma d fun (x : Dma) => { x with dst := v }
    | 8 => s.withRole c r fun k => k.setDma d fun (x : Dma) => { x with len := v.toNat % 2 ^ 17 }
    | _ => if bitOf v.toNat 0 then s.dmaGo c r d else s
  else s

/-! The address map (R228). -/

/-- What an engine address lies in. -/
inductive EngPlace
  | itcm (off : Nat)
  | dtcm (off : Nat)
  | viewPay (off : Nat)
  | viewDir (off : Nat)
  | draft (d off : Nat)
  | dough (off : Nat)
  | shared (off : Nat)
  | loc (off : Nat)
  | sem (k : Nat)
  | imm (off : Nat)
  | rel (off : Nat)
  | nothing
deriving DecidableEq, Repr

def engPlace (a : Nat) : EngPlace :=
  if a < 0x10000 then .itcm a
  else if a < 0x20000 then .dtcm (a - 0x10000)
  else if a < 0x30000 then .viewPay (a - 0x20000)
  else if a < 0x31000 then .viewDir (a - 0x30000)
  else if a < 0x60000 then .nothing
  else if a < 0x62000 then .draft (4 + (a - 0x60000) / 0x1000) (a % 0x1000)
  else if a < 0x62800 then .dough (a - 0x62000)
  else if a < 0x80000 then .nothing
  else if a < 0xC0000 then .shared (a - 0x80000)
  else if a < 0xF0000 then .nothing
  else if a < 0xF0100 then .loc (a - 0xF0000)
  else if a < 0xF0200 then .sem ((a - 0xF0100) / 4)
  else if a / 2 ^ 24 = 0x40 then .imm (a % 2 ^ 24)
  else if a / 2 ^ 24 = 0x50 then .rel (a % 2 ^ 24)
  else .nothing

/-- Bytes of an area that WIN_ORDER presents in another order, `n` of them as a number, byte 0 least significant; past the area's end 0. -/
def State.orderedLoad (s : State) (base limit off n code : Nat) : Nat :=
  (List.range n).foldl (fun v i =>
    let o := (off + i) ^^^ winXor code
    v + (if o < limit then (s.byte (base + o)).toNat else 0) * 256 ^ i) 0

/-- A word of a bank that a view shows (R177). -/
def State.viewWord (s : State) (c : Line) (bank : Option Nat) (place : EngPlace) : Word :=
  match bank with
  | none => 0
  | some bank => match place with
    | .viewPay off => s.orderedWord (bankAddr c bank) off (s.get PCIE.WIN_ORDER_A_PAY)
    | .viewDir off => (s.bank c bank).orderedWord bank off (s.get PCIE.WIN_ORDER_A_DIR)
    | _ => 0

/-- A read of a draft: payload bytes, or the control word. -/
def State.draftRead (s : State) (c : Line) (d off n : Nat) : Nat :=
  if 0xFFC ≤ off then s.controlWord c d / 256 ^ (off % 4) % 256 ^ n
  else s.orderedLoad (draftAddr c d) 1928 off n (s.get PCIE.WIN_ORDER_A_DOUGH)

/-- How a load ends: with a value, refused, or waiting for queued stores to its page (R242). -/
inductive LoadEnd | value (v : Nat) | refused | waits
deriving DecidableEq, Repr

/-- A queued store to the same page. -/
def Role.queuedTo (k : Role) (off : Nat) : Bool :=
  k.relq.any fun q => (q.addr.toNat / 2 ^ 24 = 0x40 || q.addr.toNat / 2 ^ 24 = 0x50) && q.addr.toNat % 2 ^ 24 / 4096 = off / 4096

/-- A load of `n` bytes at an aligned engine address; `bank` is the bank it reads in a view. Register space, local registers, semaphores and views are
read as whole words. -/
def State.engLoad (s : State) (c : Line) (r : Nat) (bank : Option Nat) (a n : Nat) : LoadEnd × State :=
  match engPlace a with
  | .itcm off => (.value (s.leAt (tcmI c r + off) n), s)
  | .dtcm off => (.value (s.leAt (tcmD c r + off) n), s)
  | .viewPay off => if n = 4 then (.value (s.viewWord c bank (.viewPay off)).toNat, s) else (.refused, s)
  | .viewDir off => if n = 4 then (.value (s.viewWord c bank (.viewDir off)).toNat, s) else (.refused, s)
  | .draft d off => (.value (s.draftRead c d off n), s)
  | .dough off => (.value (s.orderedLoad (doughAddr c) 1928 off n (s.get PCIE.WIN_ORDER_A_DOUGH)), s)
  | .shared off => (.value (s.leAt (sharedMem c + off) n), s)
  | .loc off => if n = 4 then let (v, s) := s.localLoad c r off; (.value v.toNat, s) else (.refused, s)
  | .sem k => if n = 4 then let (v, s) := s.semLoad c r k; (.value v.toNat, s) else (.refused, s)
  | .imm off =>
    let k := s.role c r
    if n != 4 || !engMayRead c (targetAt (off / 4 * 4)) then (.refused, s)
    else if k.tainted && k.queuedTo off then (.waits, s)
    else match s.readWord (.engine c r) off with
      | (some v, s) => (.value v.toNat, s)
      | (none, s) => (.refused, s)
  | .rel _ | .nothing => (.refused, s)

/-- A store to a channel's shared memory: LIVE and STAGE stay equal, in the memories of both channels of a pair. A byte that an engine of a higher
physical index has stored in this fabric clock keeps that store (R230). -/
def State.engShared (s : State) (c : Line) (r off : Nat) (bs : List Byte) : State :=
  let i := (s.engineOf c r).getD 16
  let lands (b : Nat × Byte) : Bool := !s.sharedStores.any fun x => x.chan = c && x.off = b.1 && decide (i < x.engine)
  let data := (((List.range bs.length).map (off + ·)).zip bs).filter lands
  let s := s.each (s.pairOf c) fun k s => s.each data fun b s => (s.setByte (sharedMem k + b.1) b.2).setByte (sharedStage k + b.1) b.2
  { s with sharedStores := s.sharedStores ++ data.map fun b => ⟨c, b.1, i⟩ }

/-- A store to a draft: payload bytes in WIN_ORDER's order, or the control word (R182, R245). -/
def State.draftStore (s : State) (c : Line) (r d off n v : Nat) : State :=
  if 0xFFC ≤ off then s.requestControl (.engine c r) c d v (n = 4)
  else
    let code := s.get PCIE.WIN_ORDER_A_DOUGH
    let data := ((List.range n).map fun i => ((off + i) ^^^ winXor code, BitVec.ofNat 8 (v / 256 ^ i))).filter fun b => b.1 < 1928
    if data.isEmpty then s else s.requestData (.engine c r) c d data

/-- A store of `n` bytes at an aligned engine address: `false` where it is refused. Window stores queue as R242 gives. -/
def State.engStore (s : State) (c : Line) (r a n v : Nat) : Bool × State :=
  match engPlace a with
  | .dtcm off => (true, s.each (s.pairOf c) fun k s => s.setBytes (tcmD k r + off) (leBytes n v))
  | .draft d off => (true, s.draftStore c r d off n v)
  | .shared off => (true, s.engShared c r off (leBytes n v))
  | .loc off => if n = 4 then (true, s.localStore c r off (BitVec.ofNat 32 v)) else (false, s)
  | .sem k => if n = 4 then (true, s.semStore c r k (BitVec.ofNat 32 v)) else (false, s)
  | .imm off =>
    if n != 4 || !s.engAdmits c off then (false, s)
    else if (s.role c r).tainted then (true, s.queueStore c r (BitVec.ofNat 32 a) (leBytes 4 v))
    else
      let (t, resp) := s.landWindow c r off (BitVec.ofNat 32 v)
      (resp = .done, t)
  | .rel off =>
    if n != 4 || !s.engAdmits c off then (false, s) else (true, s.queueStore c r (BitVec.ofNat 32 a) (leBytes 4 v))
  | _ => (false, s)

/-! Loads and stores as instructions. -/

/-- Bytes of an access: 1, 2 or 4. -/
def accessBytes (size : Nat) : Nat := if size = 0 then 1 else if size = 1 then 2 else 4

/-- Extend a loaded value of `n` bytes. -/
def extendTo (n v : Nat) (zext : Bool) : Word := if zext then BitVec.ofNat 32 v else BitVec.ofInt 32 (signedOf (8 * n) v)

/-- A load instruction of `len` bytes. A load that waits leaves the engine at its instruction. -/
def State.loadInstr (s : State) (c : Line) (r rd : Nat) (addr : Word) (size : Nat) (zext : Bool) (len : Nat) : State :=
  let n := accessBytes size
  if addr.toNat % n ≠ 0 then s.engTrap c r exLOADALIGN addr
  else
    let (x, t) := s.engLoad c r (s.viewBank c r) addr.toNat n
    match x with
    | .value v => t.engResult c r rd (extendTo n v zext) len
    | .refused => t.accessFault c r exLOAD addr
    | .waits => s

/-- A store instruction of `len` bytes. -/
def State.storeInstr (s : State) (c : Line) (r : Nat) (addr : Word) (size : Nat) (v : Word) (len : Nat) : State :=
  let n := accessBytes size
  if addr.toNat % n ≠ 0 then s.engTrap c r exSTOREALIGN addr
  else
    let (ok, t) := s.engStore c r addr.toNat n (v.toNat % 256 ^ n)
    if ok then t.withRole c r fun k => k.retire (k.pc + BitVec.ofNat 32 len) else t.accessFault c r exSTORE addr

/-- ENGINE_LOAD. -/
def execEngineLoad (c : Line) (r : BitVec 4) (rd : BitVec 5) (addr : Word) (size : BitVec 2) (zext : Bool) (s : State) :
    Host.Outcome State Fault Refusal :=
  .next (if s.engRuns c r.toNat then s.loadInstr c r.toNat rd.toNat addr size.toNat zext 4 else s)

/-- ENGINE_STORE. -/
def execEngineStore (c : Line) (r : BitVec 4) (addr : Word) (size : BitVec 2) (v : Word) (s : State) : Host.Outcome State Fault Refusal :=
  .next (if s.engRuns c r.toNat then s.storeInstr c r.toNat addr size.toNat v 4 else s)

/-! DMA (R247, R248). -/

/-- A word a descriptor reads. -/
def State.dmaRead (s : State) (c : Line) (r : Nat) (bank : Option Nat) (a : Nat) : LoadEnd × State :=
  match engPlace a with
  | .dtcm _ | .shared _ | .viewPay _ | .viewDir _ | .dough _ | .imm _ => s.engLoad c r bank a 4
  | _ => (.refused, s)

/-- A word a descriptor writes; a draft only where the role owns it. -/
def State.dmaWrite (s : State) (c : Line) (r a v : Nat) : Bool × State :=
  match engPlace a with
  | .dtcm _ | .shared _ => s.engStore c r a 4 v
  | .draft d off =>
    if off < 1928 && (s.draft c d).state != .closed && (s.draft c d).role = some r then s.engStore c r a 4 v else (false, s)
  | .imm off =>
    if s.engAdmits c off then
      let (t, resp) := s.landWindow c r off (BitVec.ofNat 32 v)
      (resp = .done, t)
    else (false, s)
  | _ => (false, s)

/-- How a copy ends: whole, at a word that is refused, or not yet, because a load has to wait for queued stores to its page (R242). -/
inductive CopyEnd | whole | refused | waits
deriving DecidableEq, Repr

/-- Copy words until one is refused or has to wait. -/
def State.dmaCopy (s : State) (c : Line) (r : Nat) (bank : Option Nat) : Nat → Nat → Nat → CopyEnd × State
  | 0, _, _ => (.whole, s)
  | n + 1, src, dst =>
    match s.dmaRead c r bank src with
    | (.waits, t) => (.waits, t)
    | (.refused, t) => (.refused, t)
    | (.value v, t) =>
      let (ok, t) := t.dmaWrite c r dst v
      if ok then t.dmaCopy c r bank n (src + 4) (dst + 4) else (.refused, t)

/-- The descriptor that runs: the lowest that is busy and not held. -/
def Role.dmaRunning (k : Role) : Option Nat := lowest 4 fun d => (k.dmaAt d).busy && !(k.dmaAt d).held

/-- A descriptor in progress meets an error response of the crossbar: it ends with ERR (R34, R247). -/
def State.dmaFail (s : State) (c : Line) (r d : Nat) : State :=
  (s.withRole c r fun k => k.setDma d fun (x : Dma) => { x with busy := false, err := true }).pushEvent c r evDMA (d + 16)

/-- A descriptor ends: its copy, its error bit and its event. One with a load that has to wait does not end (R242, R247; log entry 182). -/
def State.dmaEnd (s : State) (c : Line) (r d : Nat) : State :=
  let x := (s.role c r).dmaAt d
  let good := x.len % 4 = 0 && 4 ≤ x.len && x.len ≤ 65536 && x.src.toNat % 4 = 0 && x.dst.toNat % 4 = 0
  match if good then s.dmaCopy c r x.bank (x.len / 4) x.src.toNat x.dst.toNat else (.refused, s) with
  | (.waits, _) => s
  | (.refused, t) => t.dmaFail c r d
  | (.whole, t) => (t.withRole c r fun k => k.setDma d fun (x : Dma) => { x with busy := false, err := false }).pushEvent c r evDMA d

/-- DMA_GO: firmware stores to DMA_CTRLd. -/
def execDmaGo (c : Line) (r : BitVec 4) (d : BitVec 2) (s : State) : Host.Outcome State Fault Refusal :=
  .next (if s.engRuns c r.toNat then (s.dmaGo c r.toNat d.toNat).withRole c r.toNat fun k => k.retire (k.pc + 4) else s)

/-- DMA_DONE. -/
def execDmaDone (c : Line) (r : BitVec 4) (d : BitVec 2) (s : State) : Host.Outcome State Fault Refusal :=
  .next (if s.engServes c r.toNat && (s.role c r.toNat).dmaRunning == some d.toNat then s.dmaEnd c r.toNat d.toNat else s)

/-! Planned moves (R253). -/

/-- The role waits for the tick, its events are none or not waited for, and no descriptor is busy. -/
def Role.movable (k : Role) : Bool :=
  k.st == .waiting && (k.waitFor.any fun w => bitOf w.1 16 && (!bitOf w.1 17 || k.evq.isEmpty)) && !k.dma.any fun d => d.busy

/-- PLANNED_MOVE: the spare receives the role of the cell the rotation has chosen (R253, R406). -/
def State.plannedMove (s : State) (c : Line) : State :=
  match (s.rotation (lineBit c)).target.bind (s.roleAt c), s.spareEngine c with
  | some r, some j =>
    let ready := s.leads c && s.engServes c r && s.live (.eng c j) && s.get (ENG.ENG_STAT_STATE c j) = 3
      && !s.engMoves.any fun m => m.chan = c
    if ready && s.phase = 2 && 8000 ≤ s.get CYC.IDLE_LEN && (s.role c r).movable then
      s.each (s.pairOf c) fun k s =>
        let s := match s.spareEngine k with
          | some e => s.set (ENG.ENG_STAT_STATE k e) 6
          | none => s
        if k = c then { s with engMoves := s.engMoves ++ [⟨c, r, true, s.ltcNs, 0, false⟩] } else s
    else s
  | _, _ => s

def execPlannedMove (c : Line) (s : State) : Host.Outcome State Fault Refusal := .next (s.plannedMove c)

end Sys2Proof.Machine
end

