-- ==== Sys2Proof/Machine/Link.lean ====
section
/-! DEFINITION. The Lorzel link: lanes, frames, line copies, forming data, and remote requests received (spec/12_bridges.md R370 to R377;
spec/05_the_tray.md R146, R147; spec/04_forming_the_train.md R91, R103; spec/13_security.md R389). -/

namespace Sys2Proof.Machine

/-! Lanes (R370). -/

/-- The enable of a lane. -/
def laneEnable (lane : Nat) : Reg := if lane = 0 then LZL.LZL_CTRL_LANE0_EN else LZL.LZL_CTRL_LANE1_EN

/-- Show a lane up or down, and whether it holds block lock. -/
def State.setLane (s : State) (lane : Nat) (up lock : Bool) : State :=
  let put (r : Reg) (v : Bool) (s : State) := s.set r (withBit (s.get r) lane v)
  (put TWIN.TWIN_STAT_LANES_UP up (put LZL.LZL_STAT_BLOCK_LOCK lock (put LZL.LZL_STAT_LANE_UP up s))).raise .lzl 9

def State.laneUp (s : State) (lane : Nat) : Bool := bitOf (s.get LZL.LZL_STAT_LANE_UP) lane

/-- LANE_UP. -/
def execLaneUp (lane : BitVec 1) (s : State) : Host.Outcome State Fault Refusal :=
  .next (if s.linkOn && s.flag (laneEnable lane.toNat) && !s.laneUp lane.toNat then s.setLane lane.toNat true true else s)

/-! Line copies (R146, R147, R374). -/

/-- A verdict for a tray frame of the other line takes the place of its FCS. -/
def State.takeVerdict (s : State) (l : Line) (index : Nat) (good : Bool) : State :=
  let auth := s.forming.layout.any Layout.auth
  let inFrame (slot : Nat) : Bool := (s.forming.layout.bind fun y => y.find slot).any fun x => x.frame = index
  let copies := inSlotOrder (s.selection.copies.filter fun k => k.line == l && k.judged == .pending && inFrame k.slot)
  (s.each copies fun k s => s.takeCopy auth { k with judged := if good then .good else .bad }).slotsMoved s (copies.map Copy.slot)

/-- A position whose copy comes from the other line is reached on that line (R25, R111): the other chip sends none for a position that its
presence map leaves out. -/
def State.seePosition (s : State) (l : Line) (p : Nat) : State :=
  if p = 0 || 63 < p then s
  else (s.set64 (GTB.PRES_LO l) (GTB.PRES_HI l) (withBit (s.get64 (GTB.PRES_LO l) (GTB.PRES_HI l)) p true)).withLine l fun x =>
    { x with absentRun := x.absentRun.filter fun e => e.1 != p }

/-- A copy of a slice of the other line: the chip checks its tag and judges it. -/
def State.takeLineCopy (s : State) (l : Line) (x : Slice) : State :=
  match s.forming.layout.bind fun y => y.find x.slot.toNat with
  | none => s
  | some y =>
    let auth := s.forming.layout.any Layout.auth
    let tag := s.tagGood auth l x
    let s := s.seePosition l x.slot.toNat
    let s := s.when (!tag && s.powered (.gtb l)) fun s => (s.count (GTB.TAG_FAIL_CNT l)).raise (.gtb l) 9
    let judged : Judgement := if !tag || x.flags.withdrawn || x.payload.length ≠ y.pay then .bad else .pending
    (s.takeCopy auth ⟨x.slot.toNat, l, x, judged⟩).slotsMoved s [x.slot.toNat]

/-- A slice from its bytes: header, payload and tag (R127, R374). -/
def Slice.ofBytes (bs : List Byte) : Slice :=
  let at_ (i n : Nat) : Nat := natOfBE ((bs.drop i).take n)
  let f : Byte := BitVec.ofNat 8 (at_ 7 1)
  ⟨BitVec.ofNat 48 (at_ 0 6), BitVec.ofNat 7 (at_ 6 1),
    ⟨f.getLsbD 7, f.getLsbD 6, f.getLsbD 5, f.getLsbD 4, f.getLsbD 3, f.getLsbD 2, f.getLsbD 1⟩,
    BitVec.ofNat 16 (at_ 8 2), BitVec.ofNat 16 (at_ 10 2), BitVec.ofNat 32 (at_ 12 4), (bs.drop 16).take (at_ 10 2),
    BitVec.ofNat 64 (natOfBE (bs.drop (16 + at_ 10 2)))⟩

/-- The bytes of a slice that starts with these, where its header has come. -/
def copySize (auth : Bool) (bs : List Byte) : Option Nat :=
  if bs.length < 16 then none else some (16 + natOfBE ((bs.drop 10).take 2) + if auth then 8 else 0)

/-- A whole line copy: one that arrives after the chip's own RETURN_END is counted and not used (R146, R374). -/
def State.copyComplete (s : State) (cycle : BitVec 32) (l : Line) (bs : List Byte) : State :=
  if s.time.returnEndSeen || decide (0 < cyclesAfter s.cycle cycle) then s.count LZL.LATE_COPY_CNT
  else if cycle.toNat = s.cycle then s.takeLineCopy l (Slice.ofBytes bs)
  else s

/-- The next piece of a line copy: pieces come in order, and one that does not follow on those before it ends the copy. -/
def State.takePiece (s : State) (cycle : BitVec 32) (l : Line) (slot : BitVec 7) (offs : Nat) (bs : List Byte) : State :=
  let mine (p : CopyPart) : Bool := p.line == l && p.slot == slot
  let come := if offs = 0 then [] else ((s.bridges.copyParts.find? fun p => mine p && p.cycle == cycle).map CopyPart.bytes).getD []
  let s := { s with bridges := { s.bridges with copyParts := s.bridges.copyParts.filter fun p => !mine p } }
  if come.length ≠ offs then s
  else
    let all := come ++ bs
    match copySize (s.forming.layout.any Layout.auth) all with
    | some n => if n ≤ all.length then s.copyComplete cycle l (all.take n)
      else { s with bridges := { s.bridges with copyParts := s.bridges.copyParts ++ [⟨cycle, l, slot, all⟩] } }
    | none => { s with bridges := { s.bridges with copyParts := s.bridges.copyParts ++ [⟨cycle, l, slot, all⟩] } }

/-- A line copy or verdict: the strap check of R322, then the piece or the verdict. -/
def State.lineCopyRx (s : State) (copy : LineCopy) : State :=
  let l := match copy with
    | .piece _ l _ _ _ => l
    | .verdict _ l _ _ _ => l
  if !s.twinRuns then s
  else if l = s.twinLine then s.twinCfgBad
  else
    match copy with
    | .piece n l slot offs bs => s.takePiece n l slot offs.toNat bs
    | .verdict n l i good broken =>
      if s.time.returnEndSeen || n.toNat != s.cycle then s else s.takeVerdict l i.toNat (good && !broken)

def execLineCopyRx (copy : LineCopy) (s : State) : Host.Outcome State Fault Refusal :=
  .next (if s.linkOn then s.lineCopyRx copy else s)

/-! Forming data (R375). -/

/-- The other chip's records of a round (R103). -/
def State.takeRound (s : State) (round : Nat) (body : DiscBody) : State :=
  if s.lineState s.twinLine != lnINAUGURATE then s
  else
    let confirm := round / 16 = 3
    s.withForming fun f => { (if confirm then f.setCarried s.cycle body.carried else f).setRound s.twinLine.other body.fresh with
      round := if f.round = 4 then 4 else round / 16
      confirmRound := if confirm then round % 16 else f.confirmRound }

/-- The wearer's forming decision, which the other chip applies on its line (R91): the Starter followed, the outcome of contention, the epoch,
fallback and the first data cycle. -/
def State.takeDecision (s : State) (b : List Byte) : State :=
  if s.owns then s
  else
    let key := natOfBE (b.take 8)
    let uid : Uid := BitVec.ofNat 48 key
    let first := natOfBE ((b.drop 12).take 4)
    let l := s.twinLine
    let lost := uid ≠ s.nodeUid && key < s.keyToBeat l && [lnCOLDSTART, lnLONE, lnRUN, lnFORERUNNER].contains (s.lineState l)
    let s := s.when lost fun s => (s.when (s.lineState l = lnCOLDSTART) fun s => s.coldLost l).enterIntegrate l .follow
    let s := s.each s.served fun l s =>
      ((s.set (GTB.FORM_STAT_STARTER_RANK l) (key / 2 ^ 48)).set (GTB.STARTER_UID_LO l) (uid.toNat % 2 ^ 32)).set (GTB.STARTER_UID_HI l) (uid.toNat / 2 ^ 32)
    (s.setStarter (uid = s.nodeUid)).withForming fun f => { f with
      settings := f.settings.filter fun x => x.suid = uid
      newEpoch := BitVec.ofNat 16 (natOfBE ((b.drop 8).take 2))
      fallback := bitOf (natOfBE ((b.drop 10).take 1)) 0
      firstData := if first = 0 then f.firstData else some first }

/-- The train group key from the chip that drew it (R389). -/
def State.takeKey (s : State) (b : List Byte) : State :=
  let e := KeyEntry.ofBytes (b.drop 4)
  let epoch := BitVec.ofNat 16 (natOfBE (b.take 2))
  match s.ownNodeKey with
  | none => s
  | some k =>
    if e.uid != s.nodeUid then s
    else match Config.gcmOpen k e.iv (entryHead e.uid ++ bytesBE 2 epoch.toNat) e.ct e.tag with
      | some t => ((s.withSec fun x => { x with tgk := some t }).showKeys).withForming fun f => { f with tgkEpoch := some epoch }
      | none => s

/-- A whole item. -/
def State.takeItem (s : State) (kind round : Nat) (body : List Byte) : State :=
  match kind with
  | 1 => s.takeRound round (DiscBody.ofBytes body)
  | 2 => s.takeDecision body
  | 3 => s.takeKey body
  | _ => s

/-- A segment: a newer item of its KIND discards a partial one; a whole item is taken. -/
def State.formingDataRx (s : State) (g : FormingSegment) : State :=
  if !s.twinRuns then s
  else
    let others := s.forming.heldSegments.filter fun h => h.kind != g.kind
    let mine := s.forming.heldSegments.filter fun h => h.kind == g.kind && h.round == g.round && h.segCnt == g.segCnt
    let mine := if mine.any fun h => h.seg == g.seg then [g] else mine ++ [g]
    let parts := (List.range g.segCnt.toNat).map fun i => mine.find? fun h => h.seg.toNat = i
    if parts.all Option.isSome then
      (s.withForming fun f => { f with heldSegments := others }).takeItem g.kind.toNat g.round.toNat
        ((parts.filterMap id).flatMap fun h => h.body)
    else s.withForming fun f => { f with heldSegments := others ++ mine }

def execFormingDataRx (seg : FormingSegment) (s : State) : Host.Outcome State Fault Refusal :=
  .next (if s.linkOn then s.formingDataRx seg else s)

/-! Remote requests (R376, R377). -/

def State.respond (s : State) (tag : BitVec 16) (status : RemoteStatus) (data : List Byte) : State :=
  s.sendLink (.response status data) tag

/-- A request is one of R376's: 4 to 64 bytes in whole words within an aligned 64-byte block of the peer window. -/
def RemoteRequest.fits (q : RemoteRequest) : Bool :=
  decide (4 ≤ q.len) && decide (q.len ≤ 64) && q.len % 4 = 0 && q.addr % 4 = 0 && decide (q.addr % 64 + q.len ≤ 64)
    && decide (q.addr + q.len ≤ 0x700000)

/-- The words of a remote read, `none` once one is answered with an error. -/
def State.remoteWords (s : State) (a : Nat) : Nat → Option (List Byte) × State
  | 0 => (some [], s)
  | n + 1 =>
    match s.readWord .peer a with
    | (some w, s) =>
      match s.remoteWords (a + 4) n with
      | (some bs, s) => (some (bytesBE 4 w.toNat ++ bs), s)
      | (none, s) => (none, s)
    | (none, s) => (none, s)

/-- A remote write that fails: answered with an error and logged as source 0. -/
def State.refuseRemote (s : State) (q : RemoteRequest) (seq : BitVec 16) (cause : Nat) : State :=
  (s.respond q.tag .error []).postedFail .lzl 0 cause spBAR0 q.addr seq.toNat

/-- Serve a remote write. -/
def State.serveRemoteWrite (s : State) (q : RemoteRequest) (seq : BitVec 16) : State :=
  let (s, bad) := (List.range (q.len / 4)).foldl (fun (acc : State × Response) i =>
    match acc.1.writeWord .peer (q.addr + 4 * i) (BitVec.ofNat 32 (natOfBE ((q.data.drop (4 * i)).take 4))) with
    | (s, .done) => (s, acc.2)
    | (s, r) => (s, if acc.2 = .done then r else acc.2)) (s, Response.done)
  match bad with
  | .done => s
  | .error => s.refuseRemote q seq 1
  | .refused => s.refuseRemote q seq 3

/-- A remote request from the peer. Two reads that cross: the senior answers RETRY, the junior serves (R377). -/
def State.remoteRequestRx (s : State) (q : RemoteRequest) (seq : BitVec 16) : State :=
  if !s.flag LZL.LZL_CTRL_RMT_EN then
    let s := s.count LZL.RMT_REFUSED_CNT
    if q.write then s.refuseRemote q seq 3 else s.respond q.tag .error []
  else if !q.fits then if q.write then s.refuseRemote q seq 3 else s.respond q.tag .error []
  else if q.write then s.serveRemoteWrite q seq
  else if (s.bridges.hostReads.any fun (r : HostRead) => r.link.isSome) && !s.junior then
    (s.count LZL.RMT_RETRY_CNT).respond q.tag .retry []
  else
    match s.remoteWords q.addr (q.len / 4) with
    | (some bs, s) => s.respond q.tag .done bs
    | (none, s) => s.respond q.tag .error []

def execRemoteRequestRx (req : RemoteRequest) (seq : BitVec 16) (s : State) : Host.Outcome State Fault Refusal :=
  .next (if s.linkOn then s.remoteRequestRx req seq else s)

/-- The outstanding remote read. -/
def State.remoteRead (s : State) : Option HostRead := s.bridges.hostReads.find? fun (r : HostRead) => r.link.isSome

/-- The outstanding remote read ends with an error to its host bridge. -/
def State.failRemote (s : State) (r : HostRead) : State := (s.endRead r none).serveReads

/-- The bytes of a response that the host asked for, in its bridge's order. -/
def remoteBytes (r : HostRead) (data : List Byte) : List Byte :=
  let off := r.addr - 0x800000
  let bs := ((List.range (data.length / 4)).map fun i => bytesFrom r.bridge (BitVec.ofNat 32 (natOfBE ((data.drop (4 * i)).take 4)))).flatten
  (bs.drop (off % 4)).take r.left

/-- The peer refused a posted write (cause 0x5). -/
def State.writeRefused (s : State) (tag : BitVec 16) (status : RemoteStatus) : State :=
  match s.bridges.remoteWrites.find? fun (w : RemoteWrite) => w.tag == tag with
  | some w =>
    if status = .error then
      let s := { s with bridges := { s.bridges with remoteWrites := s.bridges.remoteWrites.filter fun (x : RemoteWrite) => x.tag != tag } }
      (s.postedFail (bridgePage w.bridge) 0 5 spPEER w.addr w.hostTag).serveReads
    else s
  | none => s

/-- A remote response: it ends the outstanding read's piece, has the junior re-issue it, or tells of a write the peer refused. -/
def State.remoteResponseRx (s : State) (tag : BitVec 16) (status : RemoteStatus) (data : List Byte) : State :=
  match s.remoteRead with
  | some r =>
    if r.link == some tag then
      match status with
      | .done =>
        let bs := remoteBytes r data
        (s.setRead r { r with link := none, addr := r.addr + bs.length, left := r.left - bs.length, got := r.got ++ bs }).serveReads
      | .retry => (s.setRead r { r with link := none }).serveReads
      | .error => s.failRemote r
    else s.writeRefused tag status
  | none => s.writeRefused tag status

def execRemoteResponseRx (tag : BitVec 16) (status : RemoteStatus) (data : List Byte) (s : State) : Host.Outcome State Fault Refusal :=
  .next (if s.linkOn then s.remoteResponseRx tag status data else s)

/-- RMT_TMO: no response within RMT_TMO µs. -/
def execRmtTmo (s : State) : Host.Outcome State Fault Refusal :=
  .next (match s.remoteRead with
    | some r => if s.get LZL.LZL_CTRL_RMT_TMO * 1000 ≤ (s.ltcNs - s.bridges.askedAt).toNat then s.remoteTimeout.failRemote r else s
    | none => s)

/-! Link frames (R371, R372). -/

/-- The state a meaning leaves. -/
def landed (s : State) : Host.Outcome State Fault Refusal → State
  | .next t => t
  | _ => s

/-- A twin message in a class 0x1 or 0x2 frame. -/
def State.takeTwinMsg (s : State) (h : TwinHeader) (m : TwinMsg) : State :=
  match m with
  | .renew n lease => landed s (execRenewRx h n lease s)
  | .grant n e u unsure => landed s (execGrantRx h n e u unsure s)
  | .claim t => landed s (execClaimRx h t s)
  | .handover t cause => landed s (execHandoverRx h t cause s)
  | .handoverAck t => landed s (execHandoverAckRx h t s)
  | .cut n seq flags write len mseq => landed s (execCutRecordRx h n seq flags write len mseq s)
  | .merge mseq offs refresh ready doubtful dough => landed s (execMergeRx h mseq offs refresh ready doubtful dough s)
  | .epochHead num len crc =>
    landed s (execEpochHeadRx h num len crc { s with bridges := { s.bridges with epochData := [] } })
  | .epochCommit num crc =>
    let t := landed s (execEpochCommitRx h num crc s.bridges.epochData s)
    { t with bridges := { t.bridges with epochData := [] } }

/-- A replicated frame's class and SEQ have already come on the other lane. -/
def State.frameSeen (s : State) (cls lane : Nat) (seq : BitVec 16) : Bool :=
  s.bridges.seen.any fun e => e.1 = cls && e.2.1 = seq && e.2.2 != lane

/-- Remember a SEQ until the other lane brings it too; a lane brings its frames in order, so what the other lane brought up to this SEQ is
settled. -/
def State.noteSeq (s : State) (cls lane : Nat) (seq : BitVec 16) : State :=
  let rest := s.bridges.seen.filter fun e => !(e.1 = cls && e.2.2 != lane && decide ((e.2.1 - seq).toInt ≤ 0))
  { s with bridges := { s.bridges with seen := if s.frameSeen cls lane seq then rest else rest ++ [(cls, seq, lane)] } }

/-- Deliver a frame to its class. -/
def State.deliverFrame (s : State) (f : LinkFrame) : State :=
  match f.payload with
  | .twin h m => s.takeTwinMsg h m
  | .epochData bs => { s with bridges := { s.bridges with epochData := s.bridges.epochData ++ bs } }
  | .copy c => s.lineCopyRx c
  | .forming g => s.formingDataRx g
  | .request q => s.remoteRequestRx q f.seq
  | .response status data => s.remoteResponseRx f.tag status data
  | .reserved => s

/-! The order of striped frames (R372; log entry 89): a frame waits for those before it, until every lane that is up has come to a later SEQ and
so cannot bring them any more. -/

/-- The SEQ a class expects next. -/
def State.seqDue (s : State) (cls : Nat) : Option (BitVec 16) := (s.bridges.dueSeq.find? fun e => e.1 = cls).map Prod.snd

def State.setSeqDue (s : State) (cls : Nat) (seq : BitVec 16) : State :=
  { s with bridges := { s.bridges with dueSeq := s.bridges.dueSeq.filter (fun e => e.1 != cls) ++ [(cls, seq)] } }

/-- No lane that is up can still bring the SEQ. -/
def State.seqLost (s : State) (cls : Nat) (seq : BitVec 16) : Bool :=
  ([0, 1].filter s.laneUp).all fun n => s.bridges.laneSeq.any fun (e : Nat × Nat × BitVec 16) => e.1 = cls && e.2.1 = n && decide (0 < (BitVec.toInt (e.2.2 - seq)))

/-- Deliver the frames of a class whose turn has come. -/
def State.drainClass (cls : Nat) : Nat → State → State
  | 0, s => s
  | n + 1, s =>
    let waiting := s.bridges.early.filter fun (f : LinkFrame) => f.payload.cls = cls
    match s.seqDue cls with
    | none => s
    | some due =>
      match waiting.find? fun (f : LinkFrame) => f.seq = due with
      | some f =>
        let s := { s with bridges := { s.bridges with early := s.bridges.early.filter fun (g : LinkFrame) => g != f } }
        State.drainClass cls n ((s.setSeqDue cls (due + 1)).deliverFrame f)
      | none =>
        if waiting.isEmpty || !s.seqLost cls due then s else State.drainClass cls n (s.setSeqDue cls (due + 1))

/-- The spread of SEQs and frames that wait, as fuel. -/
def State.drainFuel (s : State) (cls : Nat) : Nat :=
  let waiting := s.bridges.early.filter fun (f : LinkFrame) => f.payload.cls = cls
  waiting.length + (waiting.map fun (f : LinkFrame) => (f.seq - (s.seqDue cls).getD f.seq).toNat + 1).sum

/-- A striped frame of a lane: a class's first one sets the count, and one from before it goes through. -/
def State.stripedRx (s : State) (lane : Nat) (f : LinkFrame) : State :=
  let cls := f.payload.cls
  let s := { s with bridges := { s.bridges with
    laneSeq := s.bridges.laneSeq.filter (fun (e : Nat × Nat × BitVec 16) => !(e.1 = cls && e.2.1 = lane)) ++ [(cls, lane, f.seq)] } }
  let due := (s.seqDue cls).getD f.seq
  if (f.seq - due).toInt < 0 then s.deliverFrame f
  else
    let s := { (s.setSeqDue cls due) with bridges := { (s.setSeqDue cls due).bridges with early := s.bridges.early ++ [f] } }
    State.drainClass cls (s.drainFuel cls) s

/-- What waited for a lane that has gone down. -/
def State.drainAll (s : State) : State := s.each [2, 3, 5, 6] fun cls s => State.drainClass cls (s.drainFuel cls) s

/-- A lane goes down, which counts for the pair in the TWIN page (R348, R370). -/
def State.dropLane (s : State) (lane : Nat) (lock : Bool) : State :=
  let s := { s with bridges := { s.bridges with badCrc := s.bridges.badCrc.filter fun e => e.1 != lane } }
  let s := (s.setLane lane false lock).drainAll
  s.when s.twin fun s => s.countRaise TWIN.LANE_DOWN_CNT .twin 18

/-- LANE_DOWN: frames in flight on the lane are lost (R370); its effect on the pair counts in the TWIN page (R348). -/
def execLaneDown (lane : BitVec 1) (s : State) : Host.Outcome State Fault Refusal :=
  .next (
    if s.laneUp lane.toNat then
      s.dropLane lane.toNat false
    else s)

/-- A frame with a bad CRC: the eighth within 1 µs takes its lane down (R370). -/
def State.badFrame (s : State) (lane : Nat) : State :=
  let s := s.count (if lane = 0 then LZL.CRC_ERR0_CNT else LZL.CRC_ERR1_CNT)
  let recent := (s.bridges.badCrc.filter fun e => decide ((s.ltcNs - e.2).toNat ≤ 1000)) ++ [(lane, s.ltcNs)]
  let s := { s with bridges := { s.bridges with badCrc := recent } }
  s.when (8 ≤ (recent.filter fun e => e.1 = lane).length) fun s => s.dropLane lane true

/-- LINK_FRAME_RX. -/
def execLinkFrameRx (lane : BitVec 1) (f : LinkFrame) (s : State) : Host.Outcome State Fault Refusal :=
  .next (
    let n := lane.toNat
    if !s.linkOn || !s.laneUp n then s
    else if !f.crcGood then s.badFrame n
    else if !f.repl then s.stripedRx n f
    else
      let again := s.frameSeen f.payload.cls n f.seq
      let s := s.noteSeq f.payload.cls n f.seq
      if again then s else s.deliverFrame f)

/-! The crossbar's error response (R34). -/

/-- A request that a bridge carries for a host. -/
def Requester.isHost (b : Requester) : Bool := b = .pcie || b = .qspi

/-- A timeout's error response reaches the initiator (R34): a host read ends in error (R360, R365), a posted write fails with cause 1 (R367), a
request of the peer is answered with an error (R376), an engine takes an access fault (R228) and a DMA descriptor ends with ERR (R247). -/
def State.answerTimeout (s : State) (init : Initiator) : State :=
  match init with
  | .hostRead b tag => s.when b.isHost fun s => s.endRead ⟨b, tag.toNat, false, 0, 0, [], none, false, false, false⟩ none
  | .hostWrite b space addr tag => s.when b.isHost fun s => s.postedFail (bridgePage b) 0 1 space.toNat addr.toNat tag.toNat
  | .peer tag seq write =>
    let s := s.respond tag .error []
    match write with
    | some addr => s.postedFail .lzl 0 1 spBAR0 addr.toNat seq.toNat
    | none => s
  | .engine c r addr store => if s.engRuns c r.toNat then s.accessFault c r.toNat (if store then exSTORE else exLOAD) addr else s
  | .dma c r d => if s.engServes c r.toNat && (s.role c r.toNat).dmaRunning == some d.toNat then s.dmaFail c r.toNat d.toNat else s
  | .other => s

/-- CROSSBAR_TIMEOUT. -/
def execCrossbarTimeout (stall : XbarStall) (s : State) : Host.Outcome State Fault Refusal :=
  .next (if stall.target.toNat < 5 then (s.crossbarTimeout stall.target.toNat).answerTimeout stall.init else s)

end Sys2Proof.Machine
end

