-- ==== Sys2Proof/Machine/Rv32.lean ====
section
/-! DEFINITION. The engines' instruction set: RV32IMC with Zicsr in machine mode, with Xknd (spec/08_protocol_engines.md R226, R227, R232).
The manual names the base architecture by reference; its encodings and effects are those of the RISC-V specifications (PRESUMED, log
entry 40). -/

namespace Sys2Proof.Machine

/-- Register-register operations of RV32I and M. -/
inductive Alu
  | add | sub | sll | slt | sltu | xor | srl | sra | or | and
  | mul | mulh | mulhsu | mulhu | div | divu | rem | remu
deriving DecidableEq, Repr

/-- Branch conditions. -/
inductive Cond | eq | ne | lt | ge | ltu | geu
deriving DecidableEq, Repr

/-- Zicsr operations. -/
inductive CsrOp | write | set | clear
deriving DecidableEq, Repr

/-- An instruction. -/
inductive Rv
  | lui (rd : Nat) (imm : Word)
  | auipc (rd : Nat) (imm : Word)
  | jal (rd : Nat) (off : Word)
  | jalr (rd rs1 : Nat) (imm : Word)
  | branch (k : Cond) (rs1 rs2 : Nat) (off : Word)
  | load (rd rs1 size : Nat) (zext : Bool) (imm : Word)
  | store (rs1 rs2 size : Nat) (imm : Word)
  | aluImm (op : Alu) (rd rs1 : Nat) (imm : Word)
  | alu (op : Alu) (rd rs1 rs2 : Nat)
  | fence
  | ecall
  | ebreak
  | mret
  | wfi
  | csr (op : CsrOp) (rd addr : Nat) (src : Nat) (immediate : Bool)
  | bfx (rd rs1 off w1 : Nat) (sx : Bool)
  | bfi (rd rs1 off w1 : Nat)
  | sscl (rd rs1 rs2 sat sh : Nat)
  | bswap (rd rs1 mode : Nat)
  | ldp (rd rs1 : Nat) (imm : Int)
  | wft (rd rs1 : Nat)
deriving DecidableEq, Repr

/-! Fields of an encoding. -/

/-- Bits `hi` down to `lo`. -/
def fieldBits (w hi lo : Nat) : Nat := w / 2 ^ lo % 2 ^ (hi + 1 - lo)

/-- A signed immediate of `n` bits as a word. -/
def signedImm (n v : Nat) : Word := BitVec.ofInt 32 (signedOf n v)

def immI (w : Nat) : Word := signedImm 12 (fieldBits w 31 20)
def immS (w : Nat) : Word := signedImm 12 (fieldBits w 31 25 * 32 + fieldBits w 11 7)
def immB (w : Nat) : Word :=
  signedImm 13 (fieldBits w 31 31 * 4096 + fieldBits w 7 7 * 2048 + fieldBits w 30 25 * 32 + fieldBits w 11 8 * 2)
def immU (w : Nat) : Word := BitVec.ofNat 32 (w / 4096 * 4096)
def immJ (w : Nat) : Word :=
  signedImm 21 (fieldBits w 31 31 * 2 ^ 20 + fieldBits w 19 12 * 4096 + fieldBits w 20 20 * 2048 + fieldBits w 30 21 * 2)

/-! Decoding of 32-bit encodings. -/

def condOf : Nat → Option Cond
  | 0 => some .eq
  | 1 => some .ne
  | 4 => some .lt
  | 5 => some .ge
  | 6 => some .ltu
  | 7 => some .geu
  | _ => none

/-- Operations with funct7 0. -/
def aluOf (f3 : Nat) : Alu := [Alu.add, .sll, .slt, .sltu, .xor, .srl, .or, .and].getD f3 .add

/-- Operations of the M extension. -/
def mulOf (f3 : Nat) : Alu := [Alu.mul, .mulh, .mulhsu, .mulhu, .div, .divu, .rem, .remu].getD f3 .mul

def decodeOp (f3 f7 rd rs1 rs2 : Nat) : Option Rv :=
  if f7 = 0 then some (.alu (aluOf f3) rd rs1 rs2)
  else if f7 = 1 then some (.alu (mulOf f3) rd rs1 rs2)
  else if f7 = 0x20 && f3 = 0 then some (.alu .sub rd rs1 rs2)
  else if f7 = 0x20 && f3 = 5 then some (.alu .sra rd rs1 rs2)
  else none

def decodeOpImm (w f3 f7 rd rs1 : Nat) : Option Rv :=
  let shamt : Word := BitVec.ofNat 32 (fieldBits w 24 20)
  if f3 = 1 then if f7 = 0 then some (.aluImm .sll rd rs1 shamt) else none
  else if f3 = 5 then
    if f7 = 0 then some (.aluImm .srl rd rs1 shamt) else if f7 = 0x20 then some (.aluImm .sra rd rs1 shamt) else none
  else some (.aluImm (aluOf f3) rd rs1 (immI w))

def decodeSystem (w f3 rd rs1 : Nat) : Option Rv :=
  let addr := fieldBits w 31 20
  match f3 with
  | 0 => if rd ≠ 0 || rs1 ≠ 0 then none
    else match addr with
      | 0 => some .ecall
      | 1 => some .ebreak
      | 0x302 => some .mret
      | 0x105 => some .wfi
      | _ => none
  | 1 => some (.csr .write rd addr rs1 false)
  | 2 => some (.csr .set rd addr rs1 false)
  | 3 => some (.csr .clear rd addr rs1 false)
  | 5 => some (.csr .write rd addr rs1 true)
  | 6 => some (.csr .set rd addr rs1 true)
  | 7 => some (.csr .clear rd addr rs1 true)
  | _ => none

/-- The Xknd instructions (R232). -/
def decodeXknd (w f3 f7 rd rs1 rs2 : Nat) : Option Rv :=
  match f3 with
  | 0 => if bitOf w 31 then none else some (.bfx rd rs1 (fieldBits w 24 20) (fieldBits w 29 25) (bitOf w 30))
  | 1 => if fieldBits w 31 30 ≠ 0 then none else some (.bfi rd rs1 (fieldBits w 24 20) (fieldBits w 29 25))
  | 2 => if f7 / 32 = 3 then none else some (.sscl rd rs1 rs2 (f7 / 32) (f7 % 32))
  | 3 => if fieldBits w 31 22 ≠ 0 || fieldBits w 21 20 = 3 then none else some (.bswap rd rs1 (fieldBits w 21 20))
  | 4 => some (.ldp rd rs1 (signedOf 12 (fieldBits w 31 20)))
  | 5 => if fieldBits w 31 20 ≠ 0 then none else some (.wft rd rs1)
  | _ => none

/-- A 32-bit encoding. -/
def decode32 (w : Nat) : Option Rv :=
  let f3 := fieldBits w 14 12
  let f7 := fieldBits w 31 25
  let rd := fieldBits w 11 7
  let rs1 := fieldBits w 19 15
  let rs2 := fieldBits w 24 20
  match fieldBits w 6 0 with
  | 0x37 => some (.lui rd (immU w))
  | 0x17 => some (.auipc rd (immU w))
  | 0x6F => some (.jal rd (immJ w))
  | 0x67 => if f3 = 0 then some (.jalr rd rs1 (immI w)) else none
  | 0x63 => (condOf f3).map fun k => .branch k rs1 rs2 (immB w)
  | 0x03 =>
    if f3 < 3 then some (.load rd rs1 f3 false (immI w))
    else if f3 = 4 || f3 = 5 then some (.load rd rs1 (f3 - 4) true (immI w)) else none
  | 0x23 => if f3 < 3 then some (.store rs1 rs2 f3 (immS w)) else none
  | 0x13 => decodeOpImm w f3 f7 rd rs1
  | 0x33 => decodeOp f3 f7 rd rs1 rs2
  -- FENCE.I is no instruction of RV32IMC with Zicsr: DESIGN CHOICE (log entry 183), it is taken as FENCE is.
  | 0x0F => if f3 < 2 then some .fence else none
  | 0x73 => decodeSystem w f3 rd rs1
  | 0x0B => decodeXknd w f3 f7 rd rs1 rs2
  | _ => none

/-! Decoding of compressed encodings. -/

/-- Quadrant 0. -/
def decodeC0 (h f3 rd' rs1' : Nat) : Option Rv :=
  let off : Word := BitVec.ofNat 32 (fieldBits h 5 5 * 64 + fieldBits h 12 10 * 8 + fieldBits h 6 6 * 4)
  match f3 with
  | 0 =>
    let imm := fieldBits h 10 7 * 64 + fieldBits h 12 11 * 16 + fieldBits h 5 5 * 8 + fieldBits h 6 6 * 4
    if imm = 0 then none else some (.aluImm .add rd' 2 (BitVec.ofNat 32 imm))
  | 2 => some (.load rd' rs1' 2 false off)
  | 6 => some (.store rs1' rd' 2 off)
  | _ => none

/-- The jump offset of C.J and C.JAL. -/
def immCJ (h : Nat) : Word :=
  signedImm 12 (fieldBits h 12 12 * 2048 + fieldBits h 8 8 * 1024 + fieldBits h 10 9 * 256 + fieldBits h 6 6 * 128 + fieldBits h 7 7 * 64
    + fieldBits h 2 2 * 32 + fieldBits h 11 11 * 16 + fieldBits h 5 3 * 2)

/-- The branch offset of C.BEQZ and C.BNEZ. -/
def immCB (h : Nat) : Word :=
  signedImm 9 (fieldBits h 12 12 * 256 + fieldBits h 6 5 * 64 + fieldBits h 2 2 * 32 + fieldBits h 11 10 * 8 + fieldBits h 4 3 * 2)

/-- The arithmetic of quadrant 1. -/
def decodeC1Alu (h r' rs2' : Nat) : Option Rv :=
  let sh : Word := BitVec.ofNat 32 (fieldBits h 6 2)
  match fieldBits h 11 10 with
  | 0 => if bitOf h 12 then none else some (.aluImm .srl r' r' sh)
  | 1 => if bitOf h 12 then none else some (.aluImm .sra r' r' sh)
  | 2 => some (.aluImm .and r' r' (signedImm 6 (fieldBits h 12 12 * 32 + fieldBits h 6 2)))
  | _ => if bitOf h 12 then none else some (.alu ([Alu.sub, .xor, .or, .and].getD (fieldBits h 6 5) .sub) r' r' rs2')

/-- Quadrant 1. -/
def decodeC1 (h f3 : Nat) : Option Rv :=
  let rd := fieldBits h 11 7
  let r' := fieldBits h 9 7 + 8
  let imm := signedImm 6 (fieldBits h 12 12 * 32 + fieldBits h 6 2)
  match f3 with
  | 0 => some (.aluImm .add rd rd imm)
  | 1 => some (.jal 1 (immCJ h))
  | 2 => some (.aluImm .add rd 0 imm)
  | 3 =>
    if rd = 2 then
      let v := fieldBits h 12 12 * 512 + fieldBits h 4 3 * 128 + fieldBits h 5 5 * 64 + fieldBits h 2 2 * 32 + fieldBits h 6 6 * 16
      if v = 0 then none else some (.aluImm .add 2 2 (signedImm 10 v))
    else
      let v := fieldBits h 12 12 * 32 + fieldBits h 6 2
      if v = 0 then none else some (.lui rd (signedImm 18 (v * 4096)))
  | 4 => decodeC1Alu h r' (fieldBits h 4 2 + 8)
  | 5 => some (.jal 0 (immCJ h))
  | 6 => some (.branch .eq r' 0 (immCB h))
  | _ => some (.branch .ne r' 0 (immCB h))

/-- Quadrant 2. -/
def decodeC2 (h f3 : Nat) : Option Rv :=
  let rd := fieldBits h 11 7
  let rs2 := fieldBits h 6 2
  match f3 with
  | 0 => if bitOf h 12 then none else some (.aluImm .sll rd rd (BitVec.ofNat 32 rs2))
  | 2 =>
    if rd = 0 then none
    else some (.load rd 2 2 false (BitVec.ofNat 32 (fieldBits h 3 2 * 64 + fieldBits h 12 12 * 32 + fieldBits h 6 4 * 4)))
  | 4 =>
    if !bitOf h 12 then
      if rs2 = 0 then if rd = 0 then none else some (.jalr 0 rd 0) else some (.alu .add rd 0 rs2)
    else if rs2 = 0 then if rd = 0 then some .ebreak else some (.jalr 1 rd 0)
    else some (.alu .add rd rd rs2)
  | 6 => some (.store 2 rs2 2 (BitVec.ofNat 32 (fieldBits h 8 7 * 64 + fieldBits h 12 9 * 4)))
  | _ => none

/-- A 16-bit encoding. -/
def decode16 (h : Nat) : Option Rv :=
  let f3 := fieldBits h 15 13
  match h % 4 with
  | 0 => decodeC0 h f3 (fieldBits h 4 2 + 8) (fieldBits h 9 7 + 8)
  | 1 => decodeC1 h f3
  | _ => decodeC2 h f3

/-! Arithmetic. -/

def aluResult (op : Alu) (x y : Word) : Word :=
  match op with
  | .add => x + y
  | .sub => x - y
  | .sll => x <<< (y.toNat % 32)
  | .slt => if x.slt y then 1 else 0
  | .sltu => if x.ult y then 1 else 0
  | .xor => x ^^^ y
  | .srl => x >>> (y.toNat % 32)
  | .sra => x.sshiftRight (y.toNat % 32)
  | .or => x ||| y
  | .and => x &&& y
  | .mul => x * y
  | .mulh => BitVec.ofInt 32 ((x.toInt * y.toInt).fdiv (2 ^ 32))
  | .mulhsu => BitVec.ofInt 32 ((x.toInt * y.toNat).fdiv (2 ^ 32))
  | .mulhu => BitVec.ofNat 32 (x.toNat * y.toNat / 2 ^ 32)
  | .div => if y = 0 then BitVec.ofInt 32 (-1) else BitVec.ofInt 32 (x.toInt.tdiv y.toInt)
  | .divu => if y = 0 then BitVec.ofInt 32 (-1) else BitVec.ofNat 32 (x.toNat / y.toNat)
  | .rem => if y = 0 then x else BitVec.ofInt 32 (x.toInt.tmod y.toInt)
  | .remu => if y = 0 then x else BitVec.ofNat 32 (x.toNat % y.toNat)

def condHolds (k : Cond) (x y : Word) : Bool :=
  match k with
  | .eq => x = y
  | .ne => x ≠ y
  | .lt => x.slt y
  | .ge => !x.slt y
  | .ltu => x.ult y
  | .geu => !x.ult y

/-! CSRs (R227). -/

/-- The machine CSRs that hold what is written to them, with the bits they keep. -/
def csrMask (a : Nat) : Option Nat :=
  match a with
  | 0x300 => some 0x88
  | 0x304 => some 0x888
  | 0x305 => some 0xFFFFFFFD
  | 0x340 | 0x342 | 0x343 => some 0xFFFFFFFF
  | 0x341 => some 0xFFFFFFFE
  | 0xB02 | 0xB82 => some 0xFFFFFFFF
  | _ => none

/-- CSRs that exist and ignore writes: misa, mstatush, mip, mcountinhibit, the cycle counter, and the counters and events the engine lacks. -/
def csrIgnoring (a : Nat) : Bool :=
  [0x301, 0x310, 0x344, 0x320, 0xB00, 0xB80].contains a || (0x323 ≤ a && a < 0x340) || (0xB03 ≤ a && a < 0xB20) || (0xB83 ≤ a && a < 0xBA0)

/-- The read-only CSRs. -/
def csrReadOnly (a : Nat) : Bool := (0xF11 ≤ a && a ≤ 0xF15) || (0xFC0 ≤ a && a ≤ 0xFC4)

def csrExists (a : Nat) : Bool := (csrMask a).isSome || csrIgnoring a || csrReadOnly a

/-- misa: RV32 with I, M, C and a non-standard extension. -/
abbrev misaWord : Word := 0x40801104

/-- A CSR's value. mcycle counts engine clocks, which no step tells apart: a free value. -/
def State.csrRead (s : State) (c : Line) (r a : Nat) : Word × State :=
  let k := s.role c r
  match a with
  | 0x300 => (k.csr csrMSTATUS ||| 0x1800, s)
  | 0x301 => (misaWord, s)
  | 0x344 => (if k.evq.isEmpty then 0 else 0x800, s)
  | 0xB00 | 0xB80 => let (v, s) := s.draw; (BitVec.ofNat 32 v, s)
  | 0xF14 => (BitVec.ofNat 32 (16 * lineBit c + r), s)
  | 0xFC0 => (BitVec.ofNat 32 (k.kstat + if k.tainted then 8 else 0), s)
  | 0xFC1 => (BitVec.ofNat 32 ((s.engineOf c r).getD 0), s)
  | 0xFC2 => (BitVec.ofNat 32 s.cycle, s)
  | 0xFC3 =>
    let t := s.ttcNs.toNat
    (BitVec.ofNat 32 t, s.withRole c r fun k => { k with ttch := BitVec.ofNat 32 (t / 2 ^ 32) })
  | 0xFC4 => (k.ttch, s)
  | _ => (k.csr a, s)

/-- A Zicsr instruction. A read-only CSR takes no write; CSRRW without a destination does not read. -/
def State.csrInstr (s : State) (c : Line) (r : Nat) (op : CsrOp) (rd a src : Nat) (immediate : Bool) (word : Word) : State :=
  let writes := op = .write || src ≠ 0
  if !csrExists a || (writes && csrReadOnly a) then s.engTrap c r exILLEGAL word
  else
    let x : Word := if immediate then BitVec.ofNat 32 src else (s.role c r).reg src
    let (old, s) := if op = .write && rd = 0 then (0, s) else s.csrRead c r a
    let new := match op with
      | .write => x
      | .set => old ||| x
      | .clear => old &&& ~~~x
    s.withRole c r fun k =>
      let k := k.result rd old 4
      match csrMask a with
      | some m => if writes then k.setCsr a (new &&& BitVec.ofNat 32 m) else k
      | none => k

/-! Execution. -/

/-- Execute a decoded instruction of `len` bytes whose encoding is `word`. -/
def State.rvExec (s : State) (c : Line) (r len : Nat) (word : Word) (i : Rv) : State :=
  let k := s.role c r
  let next : Word := k.pc + BitVec.ofNat 32 len
  match i with
  | .lui rd imm => s.engResult c r rd imm len
  | .auipc rd imm => s.engResult c r rd (k.pc + imm) len
  | .jal rd off => s.withRole c r fun k => (k.setReg rd next).retire (k.pc + off)
  | .jalr rd rs1 imm => s.withRole c r fun k => (k.setReg rd next).retire ((k.reg rs1 + imm) &&& ~~~1)
  | .branch cond rs1 rs2 off => s.withRole c r fun k => k.retire (if condHolds cond (k.reg rs1) (k.reg rs2) then k.pc + off else next)
  | .load rd rs1 size zext imm => s.loadInstr c r rd (k.reg rs1 + imm) size zext len
  | .store rs1 rs2 size imm => s.storeInstr c r (k.reg rs1 + imm) size (k.reg rs2) len
  | .aluImm op rd rs1 imm => s.engResult c r rd (aluResult op (k.reg rs1) imm) len
  | .alu op rd rs1 rs2 => s.engResult c r rd (aluResult op (k.reg rs1) (k.reg rs2)) len
  | .fence | .wfi => s.withRole c r fun k => k.retire next
  | .ecall => s.engTrap c r exECALL 0
  | .ebreak => s.ebreak c r
  | .mret => s.withRole c r fun k => k.mret
  | .csr op rd a src immediate => s.csrInstr c r op rd a src immediate word
  | .bfx rd rs1 off w1 sx => s.bfx c r rd rs1 off w1 sx
  | .bfi rd rs1 off w1 => s.bfi c r rd rs1 off w1
  | .sscl rd rs1 rs2 sat sh => s.sscl c r rd rs1 rs2 sat sh word
  | .bswap rd rs1 mode => s.bswap c r rd rs1 mode word
  | .ldp rd rs1 imm => s.ldp c r rd rs1 imm
  | .wft rd rs1 => s.wft c r rd rs1

/-- Fetch at the pc from I-TCM, decode and execute; a fetch elsewhere is an access fault, an encoding without a meaning an illegal
instruction. -/
def State.rvStep (s : State) (c : Line) (r : Nat) : State :=
  let pc := (s.role c r).pc.toNat
  let h := s.leAt (tcmI c r + pc) 2
  if 0x10000 ≤ pc || (h % 4 = 3 && 0x10000 < pc + 4) then s.accessFault c r exFETCH (BitVec.ofNat 32 pc)
  else if h % 4 ≠ 3 then
    match decode16 h with
    | some i => s.rvExec c r 2 (BitVec.ofNat 32 h) i
    | none => s.engTrap c r exILLEGAL (BitVec.ofNat 32 h)
  else
    let w := s.leAt (tcmI c r + pc) 4
    match decode32 w with
    | some i => s.rvExec c r 4 (BitVec.ofNat 32 w) i
    | none => s.engTrap c r exILLEGAL (BitVec.ofNat 32 w)

/-- RV32IMC_INSTRUCTION: the engine of a role executes the instruction at its pc. -/
def execRv32imcInstruction (c : Line) (r : BitVec 4) (s : State) : Host.Outcome State Fault Refusal :=
  .next (if s.engRuns c r.toNat then s.rvStep c r.toNat else s)

end Sys2Proof.Machine
end

