-- ==== Sys2Proof/Machine/Tick.lean ====
section
/-! DEFINITION. The tick sequence (spec/06_the_loaf.md R170) with all that other chapters time from it, and the cycle marks (spec/03_train_time.md
R83 to R85). -/

namespace Sys2Proof.Machine

/-- The number of the cycle that a tick starts (R58). -/
def State.tickNumber (s : State) : Nat := if s.time.firstTick then 0 else s.nextTick

/-- A tick falls due: the chip holds a train time, and TTC has reached the next tick (R58, R170). -/
def State.tickDue (s : State) : Bool := s.valid && (s.time.firstTick || decide ((s.cycleLen : Int) ≤ s.sinceTick))

/-- A held tick: a step has abandoned the cycle that ends, or the pair is in a gap (R74, R185, R333, R343). -/
def State.heldTick (s : State) : Bool := s.time.afterStep || s.twinHolds s.tickNumber

/-- The device releases outputs at this tick: it is no held tick (R219), no cycle of an inauguration before its first data cycle starts with it (R106), and
the node does not fall back to forerunner mode (R117). -/
def State.releases (s : State) : Bool :=
  !s.heldTick && !(s.anyLine [lnINAUGURATE] && !(s.forming.firstData == some s.tickNumber && !s.repeatsKeyTray))
    && !s.forming.fallback && !(s.forming.relinkWait && s.served.any s.forerunner)

/-- The Loaf commits the cycle that ends: not the remainder of a cycle that a step abandoned (R169, R190). -/
def State.commitsNow (s : State) : Bool := s.loafCommits && !s.time.abandoned && !s.time.firstTick

/-! The guardian's check of the spacing (R157). -/

/-- LTC spacing of two ticks in whole GRD_CLK periods of 40 ns. -/
def grdSpacing (a b : BitVec 64) : Int := grdUp b.toNat - grdUp a.toNat

/-- A spacing is within CYCLE_LEN × 600 ppm + P + 80 ns of CYCLE_LEN. -/
def State.spacingFits (s : State) (d : Int) : Bool :=
  let bound : Int := s.cycleLen * 600 / 1000000 + s.precision + 80
  decide (-bound ≤ d - s.cycleLen) && decide (d - s.cycleLen ≤ bound)

/-- The guardian of a line at a tick; it does not check the spacing at the tick after a step. -/
def State.guardTick (s : State) (l : Line) : State :=
  let now := s.ltcNs
  let last := (s.lineOf l).grdTick
  let s := s.withLine l fun x => { x with grdTick := some now }
  match last with
  | none => s
  | some before =>
    if s.time.afterStep || s.time.firstTick then s
    else if !s.spacingFits (grdSpacing before now) then
      ((s.countRaise (GTB.GRD_TICK_CNT l) (.gtb l) 13).setFlag (GTB.TRAY_STAT_GRD_CLOSED l) true).withLine l fun x => { x with guardRun := 0 }
    else
      let run := (s.lineOf l).guardRun + 1
      (s.withLine l fun x => { x with guardRun := run }).when (2 ≤ run) fun s => s.setFlag (GTB.TRAY_STAT_GRD_CLOSED l) false

/-- Every guardian in service. -/
def State.guardTicks (s : State) : State := s.each (s.served.filter fun l => s.live (.gtb l)) fun l s => s.guardTick l

/-! The Loaf at a tick. -/

/-- Clock 32: rotation, and the views that leave PREVIOUS (R171, R177); a Loaf that has begun to commit since the last tick has had its forming
bank since then (R169). -/
def State.rotateBanks (s : State) : State :=
  s.each (s.channels.filter fun c => s.live (.loaf c)) fun c s =>
    let s := s.startForming c
    let gone := if s.flag (LOAF.BANK_STAT_PREV_VALID c) then some (s.get (LOAF.BANK_STAT_PREVIOUS c)) else none
    let s := s.rotate c
    match gone with
    | some b => s.moveViews c b
    | none => s

/-- The forming banks of the cycle that starts: the first one of a Loaf that begins to commit, one for each cycle that began without a
rotation, zero-filled where the epoch is new, and none while the Loaf does not commit (R169, R172, R190). -/
def State.prepareBanks (s : State) (rotated relaid : Bool) : State :=
  s.each (s.channels.filter fun c => s.live (.loaf c)) fun c s =>
    if !s.loafCommits then s.set (LOAF.BANK_STAT_FORM_VALID c) 0
    else if !s.flag (LOAF.BANK_STAT_FORM_VALID c) then s.startForming c
    else if rotated && !relaid then s.fillForming c
    else (s.initForming c (s.formingBank c)).fillForming c

/-! Moves. -/

/-- Roles, lanes and proofing targets move at the tick; a planned move whose copy has not ended is cancelled (R38, R253, R254, R406). -/
def State.tickMoves (s : State) : State :=
  let s := s.each (s.engMoves.filter fun m => m.planned) fun m s => s.leaveWait m.chan m.role
  let s := s.makeMoves
  (s.each s.channels fun c s => s.takeSpareLanes c).takeSpareCore.tickProof

/-! Release (clock 40). -/

/-- The blocks whose outputs a held tick holds (R454). -/
def heldPages : List Page :=
  ([Line.A, .B].flatMap fun c => [Page.loaf c, .knd c] ++ (List.range 16).map (Page.eng c)) ++ [Page.sw, .mvb 0, .mvb 1]
    ++ (List.range 8).map Page.can

/-- The hold of the cycle that starts (R185, R454). -/
def State.showHold (s : State) (held : Bool) : State :=
  (s.each heldPages fun p s => s.setFlag (HDR.PAGE_STAT_HOLD p) held).setHold held

/-- The marks that fall in the tick's own clock or in clock 40, 100 ns behind it, reach the engines at clock 40, right behind the tick and in ascending
index (R237, R240). -/
def State.tellMarks (s : State) : State :=
  let ms := (List.range 16).filter fun m => (s.time.marks[m]?).any fun k => s.markSelected k s.cycle && (k.offs == 0 || k.offs == 100)
  (s.each ms fun m s => s.engineMark m).withTime fun t => { t with marksTold := ms }

/-- Clock 40: engine events, released stores, flips and TICK triggers, the twin block (R170, R217, R219, R236, R243). -/
def State.clock40 (s : State) (release : Bool) (ended : Nat) : State :=
  let before := s
  let s : State := { s with thisClock := { s.thisClock with outs := none } }
  let (s, made) := (s.keepEarly s.cycle).earlyRequests
  let s := s.engineTick.tellMarks
  let s := s.when release State.applyQueues
  let s := (s.engineDiscards release ended).engineNewCycle release
  let first := !s.twinUnit.released
  let s := ((s.kneaderClock40 release).markEarly made).twinClock40 release
  let s : State := { s with thisClock := { s.thisClock with outs := none } }
  ((s.when s.twin State.dropSessions).when (s.twin && first && s.twinUnit.released) State.hatSessions).pinEdges before

/-- The state a cycle starts with: no verdicts, no capture, no crossbar timeouts (R36, R147, R184). -/
def State.freshCycle (s : State) : State :=
  let ended := (s.cycle + 2 ^ 32 - 1) % 2 ^ 32
  let s := { s with selection := { Selection.reset with copies := s.selection.copies.filter fun c => s.apart c.line ended }, capture := ⟨.none, [], false, false, 0, false, false⟩ }
  { s with health := { s.health with timeouts := Health.reset.timeouts } }

/-- A tick: the cycle that ends closes, banks rotate, the cycle number and what was set for it change, roles and lanes move, lines and
forming proceed, and outputs are released or held. -/
def State.tick (s : State) : State :=
  let before := s
  let release := s.releases
  let held := s.heldTick
  let commit := s.commitsNow
  let ended := s.cycle
  let s := s.kneaderClock0.guardTicks
  let s := s.when commit State.rotateBanks
  let s := s.engineClock33.when commit State.mergePending
  let s := s.changeLength.tickTime
  let s := (s.withTime fun t => { t with abandoned := false, afterStep := false }).freshCycle
  let s := (s.tickMoves.tickTwin before held).showHold held
  let s := s.tickSwitch.tickRequests.deriveRoll.ageDrafts.tickLines.tickForming.takeLateKey
  let epoch := s.epoch != before.epoch || (s.loafA.anew && !before.loafA.anew)
  let s := s.prepareBanks commit (epoch || s.forming.layout != before.forming.layout)
  let s := s.when epoch State.rebuildMaps
  let s := s.clock40 release ended
  let s := s.when epoch fun s => s.engineEpoch s.epoch.toNat
  (s.recheckLines before).settleHat

/-- TICK. -/
def execTick (s : State) : Host.Outcome State Fault Refusal := .next (if s.tickDue then s.tick else s)

/-- JOB_OVERRUN: the oldest run of a job that is still in flight at its deadline, a tick or a CUT that has fallen due (R212). -/
def execJobOverrun (c : Line) (job : BitVec 15) (s : State) : Host.Outcome State Fault Refusal :=
  .next (
    let late (r : JobRun) : Bool :=
      r.job = job.toNat && ((s.tickDue && s.dueAtTick c r) || (s.time.running && !s.capture.taken && s.cutDue && s.dueAtCut c r))
    match (s.kneader c).runs.find? late with
    | some r => s.overrunJob c r
    | none => s)

/-! Marks. -/

/-- Mark `m` falls due: enabled and selected in this cycle, its instant reached, not fired before (R83). -/
def State.markDue (s : State) (m : Nat) : Bool :=
  s.valid && s.time.running && !s.time.marksFired.contains m
    && (s.time.marks[m]?).any fun k => s.markSelected k s.cycle && decide ((k.offs : Int) ≤ s.sinceTick)

/-- A mark fires: its interrupt, its pins, the engines and the MARK triggers (R83 to R85, R209, R240). -/
def State.fireMark (s : State) (m : Nat) : State :=
  let s := s.withTime fun t => { t with marksFired := t.marksFired ++ [m] }
  let told := s.time.marksTold.contains m
  ((((s.raise .cyc (16 + m)).pulseMark m).when (!told) fun s => s.engineMark m).markTriggers m)

/-- CYCLE_MARK: marks that fall due in one fabric clock fire in ascending index (R85). -/
def execCycleMark (m : BitVec 4) (s : State) : Host.Outcome State Fault Refusal :=
  .next (
    if s.markDue m.toNat then s.each (List.range 16) fun i s => s.when (s.markDue i) fun s => s.fireMark i
    else s)

end Sys2Proof.Machine
end

