-- ==== Sys2Proof/Machine/TrayRx.lean ====
section
/-! DEFINITION. What a backbone port makes of a received tray frame (spec/05_the_tray.md R121, R155): a tray frame by its EtherType, which the line
handles under the guardian, or best-effort traffic. -/

namespace Sys2Proof.Machine

/-- A change outside the mask is blocked, so that the frame leaves with the byte received; it is an uncorrectable error of the tray writer
(R155). `before` is the state in which the frame arrived. -/
def State.guardStray (s before : State) (info : FrameInfo) (h : TrayHeader) (body : MaskBody) : State :=
  let l := info.port.line
  match info.stray with
  | some (k, bit) =>
    if before.mayTransmit (.gtb l) && before.lineState l != lnOFF && !before.maskAllows info h body k bit then
      ((s.count (GTB.GRD_BLOCK_CNT l)).raise (.gtb l) 12).guardianFault l
    else s
  | none => s

/-- A frame that arrives at a backbone port (R121): the line handles a tray frame, the guardian behind it (R155); any other is best-effort
traffic, and so is every frame on a line in OFF. `bytes` is the frame without its FCS, `ended` says that it has come whole. -/
def State.recognise (s : State) (info : FrameInfo) (h : TrayHeader) (bytes : List Byte) (ended : Bool) (mask : MaskBody) (read : State → State) :
    State :=
  let l := info.port.line
  let q := 8 + portIndex info.port
  if s.lineState l = lnOFF || h.etype.toNat ≠ s.get (GTB.TRAY_CFG_ETYPE l) then
    if ended && s.portOn q then s.receive q (bytes ++ List.replicate 4 0) info.fcsOk (info.arrived >>> 2) else s
  else if ended then (read s).guardStray s info h mask
  else read s

/-- COLD_START_TRAY_RX (R96, R97). -/
def execColdStartTrayRx (info : FrameInfo) (hdr : TrayHeader) (b : FormingBlock) (s : State) :
    Host.Outcome State Fault Refusal :=
  .next (s.recognise info hdr (coldStartBytes info.addressed hdr b) true .coldStart fun s => s.coldStartRx info hdr b)

/-- SEEK_TRAY_RX (R101). -/
def execSeekTrayRx (info : FrameInfo) (hdr : TrayHeader) (b : FormingBlock) (body : DiscBody) (s : State) :
    Host.Outcome State Fault Refusal :=
  .next (s.recognise info hdr (discoveryBytes info.addressed hdr b body true) true .seek fun s => s.seekRx info hdr b body)

/-- COUNT_TRAY_RX (R102). -/
def execCountTrayRx (info : FrameInfo) (hdr : TrayHeader) (b : FormingBlock) (body : DiscBody) (s : State) :
    Host.Outcome State Fault Refusal :=
  .next (s.recognise info hdr (discoveryBytes info.addressed hdr b body false) true (.records body.carried.length) fun s => s.discoveryRx 2 info hdr b body)

/-- CONFIRM_TRAY_RX (R104); FINAL marks the tray that closes a forerunner inauguration (R105). -/
def execConfirmTrayRx (info : FrameInfo) (hdr : TrayHeader) (b : FormingBlock) (body : DiscBody) (s : State) :
    Host.Outcome State Fault Refusal :=
  .next (s.recognise info hdr (discoveryBytes info.addressed hdr b body false) true (.records body.carried.length) fun s => s.discoveryRx 3 info hdr b body)

/-- KEY_DIST_TRAY_RX: a frame of a key-distribution tray (R105, R390). -/
def execKeyDistTrayRx (info : FrameInfo) (hdr : TrayHeader) (b : FormingBlock) (plan : KeyPlan) (entries : List KeyEntry) (s : State) :
    Host.Outcome State Fault Refusal :=
  .next (s.recognise info hdr (keyDistBytes info.addressed hdr b ⟨plan, entries⟩) true .keys fun s => s.keyDistRx info hdr b ⟨plan, entries⟩)

/-- TRAY_FRAME_RX: a frame of a data tray on its outward pass, REVERSE clear (R121). -/
def execTrayFrameRx (info : FrameInfo) (hdr : TrayHeader) (presence : BitVec 64) (slices : List Slice) (s : State) :
    Host.Outcome State Fault Refusal :=
  .next (s.recognise info hdr (DataFrame.toBytes info.addressed ⟨hdr, presence, slices⟩) true (.data ⟨hdr, presence, slices⟩) fun s =>
    s.trayFrameRx info ⟨hdr, presence, slices⟩)

/-- RETURN_FRAME_RX: a frame of a data tray with RETURN set and REVERSE clear (R144). `fcs = none` brings its slices before its end. -/
def execReturnFrameRx (info : FrameInfo) (frame : DataFrame) (fcs : Option Bool) (s : State) :
    Host.Outcome State Fault Refusal :=
  .next (s.recognise info frame.hdr (frame.toBytes info.addressed) fcs.isSome (.data frame) fun s => s.returnFrameRx info frame fcs)

/-- REVERSE_COPY_RX (R487). -/
def execReverseCopyRx (info : FrameInfo) (frame : DataFrame) (s : State) :
    Host.Outcome State Fault Refusal :=
  .next (s.recognise info frame.hdr (frame.toBytes info.addressed) true (.data frame) fun s => s.reverseCopyRx info frame)

/-- SLOT_FRAME_RX (R164); `fcs = none` brings the frame before its end (R191). -/
def execSlotFrameRx (info : FrameInfo) (hdr : TrayHeader) (timing : TimingBlock) (slice : Slice) (fcs : Option Bool) (s : State) :
    Host.Outcome State Fault Refusal :=
  .next (s.recognise info hdr (slotFrameBytes info.addressed hdr timing slice) fcs.isSome .slot fun s => s.slotFrameRx info hdr timing slice fcs)

end Sys2Proof.Machine
end

