-- ==== Sys2Proof/Machine/Dispatch.lean ====
section
/-! DEFINITION. One arm per command: its meaning, or its rejection by name. -/

namespace Sys2Proof.Machine

/-- The effect of a command on everything but the queue. -/
def exec (i : Instr) (s : State) : Host.Outcome State Fault Refusal :=
  match i with
  | .tick => Sys2Proof.Machine.execTick s
  | .cycleMark m => Sys2Proof.Machine.execCycleMark m s
  | .cut => Sys2Proof.Machine.execCut s
  | .returnEnd => Sys2Proof.Machine.execReturnEnd s
  | .returnClose => Sys2Proof.Machine.execReturnClose s
  | .rateCorrection => Sys2Proof.Machine.execRateCorrection s
  | .holdMaxExpiry => Sys2Proof.Machine.execHoldMaxExpiry s
  | .snap => Sys2Proof.Machine.execSnap s
  | .ppsEdge at_ rising => Sys2Proof.Machine.execPpsEdge at_ rising s
  | .ppsLost => Sys2Proof.Machine.execPpsLost s
  | .asOffsWrite v => Sys2Proof.Machine.execAsOffsWrite v s
  | .cycLenWrite k => Sys2Proof.Machine.execCycLenWrite k s
  | .asSyncTx m sfd => Sys2Proof.Machine.execAsSyncTx m sfd s
  | .asAnnounceTx m => Sys2Proof.Machine.execAsAnnounceTx m s
  | .asPdelayReqTx m sfd => Sys2Proof.Machine.execAsPdelayReqTx m sfd s
  | .lineEnable l => Sys2Proof.Machine.execLineEnable l s
  | .lineDisable l => Sys2Proof.Machine.execLineDisable l s
  | .listenTimerExpiry l => Sys2Proof.Machine.execListenTimerExpiry l s
  | .coldStartTrayTx l a => Sys2Proof.Machine.execColdStartTrayTx l a s
  | .coldStartTrayRx info hdr block => Sys2Proof.Machine.execColdStartTrayRx info hdr block s
  | .loneProbeExpiry l a => Sys2Proof.Machine.execLoneProbeExpiry l a s
  | .portLinkChange p up => Sys2Proof.Machine.execPortLinkChange p up s
  | .couplingWindowExpiry p => Sys2Proof.Machine.execCouplingWindowExpiry p s
  | .cplClosedChange p closed => Sys2Proof.Machine.execCplClosedChange p closed s
  | .linkSettleExpiry p => Sys2Proof.Machine.execLinkSettleExpiry p s
  | .seekTrayTx l a => Sys2Proof.Machine.execSeekTrayTx l a s
  | .seekTrayRx info hdr block body => Sys2Proof.Machine.execSeekTrayRx info hdr block body s
  | .countTrayTx l a => Sys2Proof.Machine.execCountTrayTx l a s
  | .countTrayRx info hdr block body => Sys2Proof.Machine.execCountTrayRx info hdr block body s
  | .confirmTrayTx l a => Sys2Proof.Machine.execConfirmTrayTx l a s
  | .confirmTrayRx info hdr block body => Sys2Proof.Machine.execConfirmTrayRx info hdr block body s
  | .keyDistTrayTx l a => Sys2Proof.Machine.execKeyDistTrayTx l a s
  | .keyDistTrayRx info hdr block plan entries => Sys2Proof.Machine.execKeyDistTrayRx info hdr block plan entries s
  | .relinkExpiry => Sys2Proof.Machine.execRelinkExpiry s
  | .inaugTrayTimeout l => Sys2Proof.Machine.execInaugTrayTimeout l s
  | .integrateTimeout l => Sys2Proof.Machine.execIntegrateTimeout l s
  | .passiveTmoExpiry l => Sys2Proof.Machine.execPassiveTmoExpiry l s
  | .dataTrayTx l a => Sys2Proof.Machine.execDataTrayTx l a s
  | .reverseCopyRx info frame => Sys2Proof.Machine.execReverseCopyRx info frame s
  | .trayFrameRx info hdr presence slices => Sys2Proof.Machine.execTrayFrameRx info hdr presence slices s
  | .v1FrameRx p => Sys2Proof.Machine.execV1FrameRx p s
  | .returnFrameRx info frame fcs => Sys2Proof.Machine.execReturnFrameRx info frame fcs s
  | .positionAbsent l p => Sys2Proof.Machine.execPositionAbsent l p s
  | .claimWordExpiry c => Sys2Proof.Machine.execClaimWordExpiry c s
  | .windowMiss l => Sys2Proof.Machine.execWindowMiss l s
  | .enterPassive l => Sys2Proof.Machine.execEnterPassive l s
  | .forerunnerSlotTx l a => Sys2Proof.Machine.execForerunnerSlotTx l a s
  | .slotFrameRx info hdr timing slice fcs => Sys2Proof.Machine.execSlotFrameRx info hdr timing slice fcs s
  | .keyReqTx => Sys2Proof.Machine.execKeyReqTx s
  | .keyReqRx p f => Sys2Proof.Machine.execKeyReqRx p f s
  | .keyGrantTx => Sys2Proof.Machine.execKeyGrantTx s
  | .keyGrantRx p f => Sys2Proof.Machine.execKeyGrantRx p f s
  | .keyRoll => Sys2Proof.Machine.execKeyRoll s
  | .pinLatest c => Sys2Proof.Machine.execPinLatest c s
  | .pinPrevious c => Sys2Proof.Machine.execPinPrevious c s
  | .unpin c => Sys2Proof.Machine.execUnpin c s
  | .draftOpen who c d => Sys2Proof.Machine.execDraftOpen who c d s
  | .draftCommit who c d ready doubtful => Sys2Proof.Machine.execDraftCommit who c d ready doubtful s
  | .draftAbort who c d => Sys2Proof.Machine.execDraftAbort who c d s
  | .draftDataWrite who c d data => Sys2Proof.Machine.execDraftDataWrite who c d data s
  | .draftExpired c d => Sys2Proof.Machine.execDraftExpired c d s
  | .kick c job => Sys2Proof.Machine.execKick c job s
  | .jobStart c => Sys2Proof.Machine.execJobStart c s
  | .jobComplete c lane => Sys2Proof.Machine.execJobComplete c lane s
  | .jobOverrun c job => Sys2Proof.Machine.execJobOverrun c job s
  | .jobReplay c => Sys2Proof.Machine.execJobReplay c s
  | .bfx c r rd rs1 off w1 sx => Sys2Proof.Machine.execBfx c r rd rs1 off w1 sx s
  | .bfi c r rd rs1 off w1 => Sys2Proof.Machine.execBfi c r rd rs1 off w1 s
  | .sscl c r rd rs1 rs2 sat sh => Sys2Proof.Machine.execSscl c r rd rs1 rs2 sat sh s
  | .bswap c r rd rs1 mode => Sys2Proof.Machine.execBswap c r rd rs1 mode s
  | .ldp c r rd rs1 imm => Sys2Proof.Machine.execLdp c r rd rs1 imm s
  | .wft c r rd rs1 => Sys2Proof.Machine.execWft c r rd rs1 s
  | .wftReturn c r => Sys2Proof.Machine.execWftReturn c r s
  | .ebreak c r => Sys2Proof.Machine.execEbreak c r s
  | .engineLoad c r rd addr size zext => Sys2Proof.Machine.execEngineLoad c r rd addr size zext s
  | .engineStore c r addr size v => Sys2Proof.Machine.execEngineStore c r addr size v s
  | .evqPop c r rd => Sys2Proof.Machine.execEvqPop c r rd s
  | .mboxOutDb c r => Sys2Proof.Machine.execMboxOutDb c r s
  | .mboxInAck c r => Sys2Proof.Machine.execMboxInAck c r s
  | .inDb c e => Sys2Proof.Machine.execInDb c e s
  | .outAck c e => Sys2Proof.Machine.execOutAck c e s
  | .semaphoreLoad c r rd k => Sys2Proof.Machine.execSemaphoreLoad c r rd k s
  | .semaphoreStore c r k v => Sys2Proof.Machine.execSemaphoreStore c r k v s
  | .dmaGo c r d => Sys2Proof.Machine.execDmaGo c r d s
  | .dmaDone c r d => Sys2Proof.Machine.execDmaDone c r d s
  | .plannedMove c => Sys2Proof.Machine.execPlannedMove c s
  | .engWdt c r => Sys2Proof.Machine.execEngWdt c r s
  | .engRun c e on => Sys2Proof.Machine.execEngRun c e on s
  | .engWarm c e => Sys2Proof.Machine.execEngWarm c e s
  | .frameRx q bytes fcsOk sof => Sys2Proof.Machine.execFrameRx q bytes fcsOk sof s
  | .frameTxStart q sfd => Sys2Proof.Machine.execFrameTxStart q sfd s
  | .gateDrop q g => Sys2Proof.Machine.execGateDrop q g s
  | .gclEntryExpiry q => Sys2Proof.Machine.execGclEntryExpiry q s
  | .gclSwap mask => Sys2Proof.Machine.execGclSwap mask s
  | .fdbAgeOut e => Sys2Proof.Machine.execFdbAgeOut e s
  | .ringTailWrite g tail => Sys2Proof.Machine.execRingTailWrite g tail s
  | .txDescDone g => Sys2Proof.Machine.execTxDescDone g s
  | .trdpTxFetch e => Sys2Proof.Machine.execTrdpTxFetch e s
  | .pauseFrameRx q quanta => Sys2Proof.Machine.execPauseFrameRx q quanta s
  | .pauseExpiry q => Sys2Proof.Machine.execPauseExpiry q s
  | .pauseStorm q => Sys2Proof.Machine.execPauseStorm q s
  | .pauseStormEnd q => Sys2Proof.Machine.execPauseStormEnd q s
  | .pauseTxRepeat q => Sys2Proof.Machine.execPauseTxRepeat q s
  | .cbReset fn => Sys2Proof.Machine.execCbReset fn s
  | .etbEnWrite on => Sys2Proof.Machine.execEtbEnWrite on s
  | .canEnable c => Sys2Proof.Machine.execCanEnable c s
  | .canDisable c => Sys2Proof.Machine.execCanDisable c s
  | .canIntegrated c => Sys2Proof.Machine.execCanIntegrated c s
  | .canFrameRx c frame ts => Sys2Proof.Machine.execCanFrameRx c frame ts s
  | .canError c code dataPhase transmitter fault => Sys2Proof.Machine.execCanError c code dataPhase transmitter fault s
  | .restart c => Sys2Proof.Machine.execRestart c s
  | .busOn c => Sys2Proof.Machine.execBusOn c s
  | .canRxLock c b r => Sys2Proof.Machine.execCanRxLock c b r s
  | .canRxUnlock c b r => Sys2Proof.Machine.execCanRxUnlock c b r s
  | .lockTmo c b => Sys2Proof.Machine.execLockTmo c b s
  | .fifoAck c f n => Sys2Proof.Machine.execFifoAck c f n s
  | .txReq c mask => Sys2Proof.Machine.execTxReq c mask s
  | .canPeriodicReq c b => Sys2Proof.Machine.execCanPeriodicReq c b s
  | .txCancel c mask started late => Sys2Proof.Machine.execTxCancel c mask started late s
  | .txFlip c mask => Sys2Proof.Machine.execTxFlip c mask s
  | .canTxAttemptEnd c late ended => Sys2Proof.Machine.execCanTxAttemptEnd c late ended s
  | .canBufCfgWrite c b w v started late => Sys2Proof.Machine.execCanBufCfgWrite c b w v started late s
  | .listenOnlyStart c => Sys2Proof.Machine.execListenOnlyStart c s
  | .listenOnlyEnd c => Sys2Proof.Machine.execListenOnlyEnd c s
  | .mvbMasterFrameRx j fcode addr seen => Sys2Proof.Machine.execMvbMasterFrameRx j fcode addr seen s
  | .mvbSlaveFrameRx j a b inWindow => Sys2Proof.Machine.execMvbSlaveFrameRx j a b inWindow s
  | .portStale j e => Sys2Proof.Machine.execPortStale j e s
  | .portFlip j e => Sys2Proof.Machine.execPortFlip j e s
  | .renewRx hdr cycle lease => Sys2Proof.Machine.execRenewRx hdr cycle lease s
  | .grantRx hdr cycle epochNum unable unsure => Sys2Proof.Machine.execGrantRx hdr cycle epochNum unable unsure s
  | .leaseEnd => Sys2Proof.Machine.execLeaseEnd s
  | .claim => Sys2Proof.Machine.execClaim s
  | .claimRx hdr tick => Sys2Proof.Machine.execClaimRx hdr tick s
  | .startupCountReached => Sys2Proof.Machine.execStartupCountReached s
  | .handover on => Sys2Proof.Machine.execHandover on s
  | .handoverRx hdr tick cause => Sys2Proof.Machine.execHandoverRx hdr tick cause s
  | .handoverAckRx hdr tick => Sys2Proof.Machine.execHandoverAckRx hdr tick s
  | .handoverTick => Sys2Proof.Machine.execHandoverTick s
  | .hatOutRelease => Sys2Proof.Machine.execHatOutRelease s
  | .hostGrant v => Sys2Proof.Machine.execHostGrant v s
  | .mergeRx hdr mseq offs refresh ready doubtful dough => Sys2Proof.Machine.execMergeRx hdr mseq offs refresh ready doubtful dough s
  | .cutRecordRx hdr cycle seq flags write len mseq => Sys2Proof.Machine.execCutRecordRx hdr cycle seq flags write len mseq s
  | .epochHeadRx hdr num len crc => Sys2Proof.Machine.execEpochHeadRx hdr num len crc s
  | .epochCommitRx hdr num crc data => Sys2Proof.Machine.execEpochCommitRx hdr num crc data s
  | .hbtPulseRx widthNs start => Sys2Proof.Machine.execHbtPulseRx widthNs start s
  | .hbtLost => Sys2Proof.Machine.execHbtLost s
  | .pcieInboundWrite bar2 addr data poisoned tag => Sys2Proof.Machine.execPcieInboundWrite bar2 addr data poisoned tag s
  | .pcieInboundRead bar2 addr len tag spoiled => Sys2Proof.Machine.execPcieInboundRead bar2 addr len tag spoiled s
  | .pcieCompletionRx tag data => Sys2Proof.Machine.execPcieCompletionRx tag data s
  | .cplTmo tag => Sys2Proof.Machine.execCplTmo tag s
  | .linkDown d3 => Sys2Proof.Machine.execLinkDown d3 s
  | .msixMessage v => Sys2Proof.Machine.execMsixMessage v s
  | .vecRearm mask => Sys2Proof.Machine.execVecRearm mask s
  | .qspiWrite addr len data room => Sys2Proof.Machine.execQspiWrite addr len data room s
  | .qspiRead addr len => Sys2Proof.Machine.execQspiRead addr len s
  | .drClear => Sys2Proof.Machine.execDrClear s
  | .drFetchDone => Sys2Proof.Machine.execDrFetchDone s
  | .drTmo => Sys2Proof.Machine.execDrTmo s
  | .fence b => Sys2Proof.Machine.execFence b s
  | .postedFail b source cause space addr tag => Sys2Proof.Machine.execPostedFail b source cause space addr tag s
  | .plogClr b => Sys2Proof.Machine.execPlogClr b s
  | .laneUp lane => Sys2Proof.Machine.execLaneUp lane s
  | .laneDown lane => Sys2Proof.Machine.execLaneDown lane s
  | .linkFrameRx lane f => Sys2Proof.Machine.execLinkFrameRx lane f s
  | .lineCopyRx copy => Sys2Proof.Machine.execLineCopyRx copy s
  | .formingDataRx seg => Sys2Proof.Machine.execFormingDataRx seg s
  | .remoteRequestRx req seq => Sys2Proof.Machine.execRemoteRequestRx req seq s
  | .remoteResponseRx tag status data => Sys2Proof.Machine.execRemoteResponseRx tag status data s
  | .rmtTmo => Sys2Proof.Machine.execRmtTmo s
  | .lcManufacture => Sys2Proof.Machine.execLcManufacture s
  | .lcProvision => Sys2Proof.Machine.execLcProvision s
  | .lcDeploy => Sys2Proof.Machine.execLcDeploy s
  | .lcReturn => Sys2Proof.Machine.execLcReturn s
  | .lcScrap => Sys2Proof.Machine.execLcScrap s
  | .operatorRootInstall => Sys2Proof.Machine.execOperatorRootInstall s
  | .rootRevoke => Sys2Proof.Machine.execRootRevoke s
  | .fleetKeyInstall => Sys2Proof.Machine.execFleetKeyInstall s
  | .debugToken => Sys2Proof.Machine.execDebugToken s
  | .headKeyInstall => Sys2Proof.Machine.execHeadKeyInstall s
  | .dbgChalRead who => Sys2Proof.Machine.execDbgChalRead who s
  | .zeroise v => Sys2Proof.Machine.execZeroise v s
  | .trngFail => Sys2Proof.Machine.execTrngFail s
  | .bootStageDone r => Sys2Proof.Machine.execBootStageDone r s
  | .pushChunk who len last => Sys2Proof.Machine.execPushChunk who len last s
  | .pushChunkTaken => Sys2Proof.Machine.execPushChunkTaken s
  | .proofIntervalExpiry t => Sys2Proof.Machine.execProofIntervalExpiry t s
  | .proofRunStart t => Sys2Proof.Machine.execProofRunStart t s
  | .proofPatternsDone t sig => Sys2Proof.Machine.execProofPatternsDone t sig s
  | .proofRestore t => Sys2Proof.Machine.execProofRestore t s
  | .prfStop => Sys2Proof.Machine.execPrfStop s
  | .maintCmd v => Sys2Proof.Machine.execMaintCmd v s
  | .tagSession m => Sys2Proof.Machine.execTagSession m s
  | .tagResponseRx m request response => Sys2Proof.Machine.execTagResponseRx m request response s
  | .tagTimeout m => Sys2Proof.Machine.execTagTimeout m s
  | .marginSample m linked reads => Sys2Proof.Machine.execMarginSample m linked reads s
  | .pdCtrlWrite v => Sys2Proof.Machine.execPdCtrlWrite v s
  | .pdDone => Sys2Proof.Machine.execPdDone s
  | .brownoutWarn mv => Sys2Proof.Machine.execBrownoutWarn mv s
  | .brownoutLong => Sys2Proof.Machine.execBrownoutLong s
  | .boRecover => Sys2Proof.Machine.execBoRecover s
  | .brownoutEnd => Sys2Proof.Machine.execBrownoutEnd s
  | .vddWindowExcursion mv => Sys2Proof.Machine.execVddWindowExcursion mv s
  | .tjRange t => Sys2Proof.Machine.execTjRange t s
  | .gocWindow ref fab eng early => Sys2Proof.Machine.execGocWindow ref fab eng early s
  | .powerOnReset bootSrc twinId => Sys2Proof.Machine.execPowerOnReset bootSrc twinId s
  | .resetN bootSrc twinId => Sys2Proof.Machine.execResetN bootSrc twinId s
  | .coreReset => Sys2Proof.Machine.execCoreReset s
  | .chipRst v => Sys2Proof.Machine.execChipRst v s
  | .softReset p => Sys2Proof.Machine.execSoftReset p s
  | .faultLatchClear => Sys2Proof.Machine.execFaultLatchClear s
  | .memoryError site kind word => Sys2Proof.Machine.execMemoryError site kind word s
  | .crossbarTimeout stall => Sys2Proof.Machine.execCrossbarTimeout stall s
  | .lockstepMiscompare => Sys2Proof.Machine.execLockstepMiscompare s
  | .scrubRead site found word => Sys2Proof.Machine.execScrubRead site found word s
  | .chModeWrite v => Sys2Proof.Machine.execChModeWrite v s
  | .twinCtrlWrite v => Sys2Proof.Machine.execTwinCtrlWrite v s
  | .lockKey p v => Sys2Proof.Machine.execLockKey p v s
  | .cfgLock p => Sys2Proof.Machine.execCfgLock p s
  | .lockAll => Sys2Proof.Machine.execLockAll s
  | .sticky => Sys2Proof.Machine.execSticky s
  | .intRawClear p v => Sys2Proof.Machine.execIntRawClear p v s
  | .intSet p v => Sys2Proof.Machine.execIntSet p v s
  | .readClear who addr => Sys2Proof.Machine.execReadClear who addr s
  | .gpioEdge p level => Sys2Proof.Machine.execGpioEdge p level s
  | .outSet v => Sys2Proof.Machine.execOutSet v s
  | .outClr v => Sys2Proof.Machine.execOutClr v s
  | .registerWrite who addr v => Sys2Proof.Machine.execRegisterWrite who addr v s
  | .rv32imcInstruction c r => Sys2Proof.Machine.execRv32imcInstruction c r s
  | .machineExternalInterrupt c r => Sys2Proof.Machine.execMachineExternalInterrupt c r s
  | .consistLinkChange m up => Sys2Proof.Machine.execConsistLinkChange m up s
  | .pcieConfigRequest item write tag => Sys2Proof.Machine.execPcieConfigRequest item write tag s
  | .pcieLinkUp speed width => Sys2Proof.Machine.execPcieLinkUp speed width s
  | .coreResetEnd bootSrc twinId => Sys2Proof.Machine.execCoreResetEnd bootSrc twinId s

end Sys2Proof.Machine
end

