-- ==== Sys2Proof/Safety.lean ====
section
/-! DEFINITION. What the claims about every step speak of: the canonical form of the stores a state holds, and how a state may follow another. -/

namespace Sys2Proof.Machine

/-- The two sparse stores are in canonical form: registers with strictly ascending keys, memory with strictly ascending addresses and no entry
equal to what an unlisted address reads as. Equal registers and equal memories are then equal data. -/
def State.Inv (s : State) : Prop := ascending s.regs = true ∧ Memory.wf s.mem = true

/-- What has been handed to the outside stays handed over: `t` has sent all that `s` has, and then perhaps more. -/
def State.SentBefore (s t : State) : Prop := ∃ more, t.sent = s.sent ++ more

/-- The commands that may reset the device, and with it the clock of R55: the resets of R444, the life-cycle commands that end in one, and every
command that may write a register word (a write of CHIP_RST resets the device), directly or as an engine's released store. -/
def mayReset : Instr → Bool
  | .powerOnReset _ _ | .resetN _ _ | .coreReset | .chipRst _ | .brownoutEnd => true
  | .lcManufacture | .lcProvision | .lcDeploy | .lcReturn | .lcScrap | .operatorRootInstall | .rootRevoke | .fleetKeyInstall
  | .debugToken | .headKeyInstall => true
  | .registerWrite _ _ _ | .pushChunk _ _ _ | .pcieInboundWrite _ _ _ _ _ | .qspiWrite _ _ _ _ | .remoteRequestRx _ _ | .linkFrameRx _ _ | .laneDown _ => true
  | .engineStore _ _ _ _ _ | .dmaDone _ _ _ | .rv32imcInstruction _ _ | .tick => true
  | _ => false

/-- A forming or data tray frame that the line reads (R121): the line runs and is not OFF, the frame carries the EtherType of trays, is for this line and of the version in use,
its port has a working link, its FCS is good, no parity error or stray write was met in it, and its kind is one of the four. -/
def State.readsTray (s : State) (info : FrameInfo) (hdr : TrayHeader) : Bool :=
  s.live (.gtb info.port.line) && s.lineState info.port.line != lnOFF && decide (hdr.etype.toNat = s.get (GTB.TRAY_CFG_ETYPE info.port.line))
    && !info.otherLine && s.working info.port && info.fcsOk && !info.parity && info.stray.isNone
    && hdr.version == (if s.forerunner info.port.line then 1 else 2) && hdr.kind != 0 && decide (hdr.kind.toNat ≤ 4)

end Sys2Proof.Machine
end

