-- ==== Sys2Proof/Certificates/Slice0/Obligations.lean ====
section
/-! DEFINITION. The statements for the provers, one proposition each. -/

open Sys2Proof Sys2Proof.Machine

/-! The queue, the clock and reset. -/

/-- A step takes the command at the front of the queue and runs it with the rest of the queue. -/
def Obligations.StepRunsTheFrontCommand : Prop :=
  ∀ (c : Instr) (rest : List Instr) (s : State), step { s with pending := c :: rest } = exec c { s with pending := rest }

/-- On an empty queue one fabric clock of 2.5 ns passes (R55, R56): LTC advances by it, TTC by it, RATE_ADJ and the share of a correction that is under
way; both counters stand while a core reset is held (R444). What belonged to the clock that ends goes with it: the notes of its hardware updates,
locks, unlocks and output writes, of its engines' stores and of the aborts of its tests; a soft reset that reads 1 comes one clock nearer to its end
(R443). Nothing else changes. That a step on an empty queue is one clock is the model's choice (log entry 2). -/
def Obligations.IdleStepIsOneFabricClock : Prop :=
  ∀ s : State, s.pending = [] →
    (s.power.held = false → ∃ t, step s = .next t
      ∧ t.time.ltc = s.time.ltc + BitVec.ofInt 96 (5 * 2 ^ 31)
      ∧ t.time.ttc = s.time.ttc + BitVec.ofInt 96 (5 * 2 ^ 31 + s.getInt TIME.RATE_ADJ + (if s.time.slewLeft = 0 then 0 else s.time.slewPerClock))
      ∧ t.time.slewLeft = s.time.slewLeft - 1
      ∧ t = { s with
          updates := [], sharedStores := [], thisClock := ⟨[], [], none⟩, proof := { s.proof with aborted := [] }
          softResets := s.softResets.filterMap fun x => if x.2 ≤ 1 then none else some (x.1, x.2 - 1)
          time := { s.time with ltc := t.time.ltc, ttc := t.time.ttc, slewLeft := t.time.slewLeft } })
    ∧ (s.power.held = true → step s = .next { s with
        updates := [], sharedStores := [], thisClock := ⟨[], [], none⟩, proof := { s.proof with aborted := [] }
        softResets := s.softResets.filterMap fun x => if x.2 ≤ 1 then none else some (x.1, x.2 - 1) })

/-- After reset both stores are canonical and empty, nothing waits, nothing has been sent, LTC is 0 and no train time is held (R54, R55, R69). -/
def Obligations.ResetStateIsCanonicalAndEmpty : Prop :=
  State.reset.Inv ∧ State.reset.regs = [] ∧ State.reset.mem = [] ∧ State.reset.pending = [] ∧ State.reset.sent = []
    ∧ State.reset.time.ltc = 0 ∧ State.reset.valid = false ∧ State.reset.lineState .A = lnOFF ∧ State.reset.lineState .B = lnOFF

/-- Every step from a state with canonical stores ends in a state with canonical stores, whatever command is in front. -/
def Obligations.StepKeepsCanonicalStores : Prop :=
  ∀ s t : State, s.Inv → step s = .next t → t.Inv

/-- No command looks at or changes the queue of waiting commands, and what has been sent stays sent, in its order: a command only appends to it. The
record of what is sent is the model's own (log entry 3). -/
def Obligations.CommandsKeepTheQueueAndWhatWasSent : Prop :=
  ∀ (c : Instr) (s t : State), exec c s = .next t → t.pending = s.pending ∧ s.SentBefore t

/-- R55: no correction, step or configuration changes LTC. Only a command that may reset the device does. -/
def Obligations.LtcChangesOnlyByReset : Prop :=
  ∀ (c : Instr) (s t : State), mayReset c = false → exec c s = .next t → t.time.ltc = s.time.ltc

/-- Every command answers a next state, from every state: none faults and none is refused. -/
def Obligations.EveryCommandAnswersANextState : Prop :=
  ∀ (c : Instr) (s : State), ∃ t, exec c s = .next t

/-! Registers, memories, counters, interrupts and error records. -/

/-- A register field reads back what was set, cut to its width, and every field with another key reads as before, as does every byte of memory.
Consecutive bytes read back as written, and every byte outside them reads as before, as does every register field. -/
def Obligations.StoresReadBackWhatWasWritten : Prop :=
  ∀ (s : State) (r q : Reg) (v a : Nat) (bs : List Byte),
    (s.set r v).get r = v % 2 ^ r.width ∧ (q.key ≠ r.key → (s.set r v).get q = s.get q) ∧ (s.set r v).byte a = s.byte a
    ∧ (s.setBytes a bs).bytes a bs.length = bs ∧ (∀ b, (b < a ∨ a + bs.length ≤ b) → (s.setBytes a bs).byte b = s.byte b) ∧ (s.setBytes a bs).get q = s.get q

/-- R42: a counter stops at its maximum; another count leaves it there. R454: raising an interrupt sets its bit of INT_RAW and no other; clearing by
writing 1 clears the bits written and no other, but that a bit which the hardware has set in the same fabric clock stays 1 (R7). -/
def Obligations.CountersSaturateAndInterruptBitsMoveAlone : Prop :=
  (∀ (s : State) (r : Reg) (n : Nat), (s.countBy r n).get r = min (s.get r + n) (2 ^ r.width - 1)
    ∧ (s.get r = 2 ^ r.width - 1 → (s.countBy r n).get r = 2 ^ r.width - 1))
  ∧ (∀ (s : State) (p : Page) (b i v : Nat), i < 32 →
    bitOf ((s.raise p b).get (HDR.INT_RAW p)) i = (decide (i = b) || bitOf (s.get (HDR.INT_RAW p)) i)
      ∧ (s.updates = [] → bitOf ((s.clearInt p v).get (HDR.INT_RAW p)) i = (bitOf (s.get (HDR.INT_RAW p)) i && !bitOf v i))
      ∧ bitOf (((s.raise p b).clearInt p v).get (HDR.INT_RAW p)) b = bitOf ((s.raise p b).get (HDR.INT_RAW p)) b)

/-- R44: ERR_INFO holds the most severe error and, among errors of one class, the first; WORD is 0 but for causes 1 and 2. No other register changes. -/
def Obligations.ErrInfoHoldsTheFirstOfTheMostSevere : Prop :=
  ∀ (s : State) (p : Page) (cls cell cause word : Nat), cls ≤ 3 →
    (cls ≤ s.get (HDR.ERR_INFO_CLASS p) → ∀ q ∈ errInfo p, s.get q < 2 ^ q.width → (s.recordError p cls cell cause word).get q = s.get q)
      ∧ (∀ q : Reg, q.key ∉ (errInfo p).map Reg.key → (s.recordError p cls cell cause word).get q = s.get q)
      ∧ (s.get (HDR.ERR_INFO_CLASS p) < cls →
          (s.recordError p cls cell cause word).get (HDR.ERR_INFO_CLASS p) = cls
            ∧ (s.recordError p cls cell cause word).get (HDR.ERR_INFO_CELL p) = cell % 2 ^ (HDR.ERR_INFO_CELL p).width
            ∧ (s.recordError p cls cell cause word).get (HDR.ERR_INFO_CAUSE p) = cause % 2 ^ (HDR.ERR_INFO_CAUSE p).width
            ∧ (s.recordError p cls cell cause word).get (HDR.ERR_INFO_WORD p) = (if cause = 1 ∨ cause = 2 then word else 0) % 2 ^ (HDR.ERR_INFO_WORD p).width)

/-! The averaging of train time, and frames. -/

/-- R65: of n sorted values, as many fall away at either end (none of up to 2, one of 3 to 7, two of 8 and more) and the rest stay; the mean lies between
any bounds of the values. The correction taken for the next tick stays within plus or minus P; P is in ns and the correction in units of 0.25 ns. -/
def Obligations.OffsetCorrectionAveragesAndClamps : Prop :=
  (∀ (s : State) (o : Int), ∃ c, (s.takeCorrection o).time.correction = some c
    ∧ -(4 * (s.precision : Int)) ≤ c ∧ c ≤ 4 * (s.precision : Int)
    ∧ (-(4 * (s.precision : Int)) ≤ o → o ≤ 4 * (s.precision : Int) → c = o))
  ∧ (∀ l : List (Nat × Int), (keptOf (sortDev l)).length = l.length - 2 * discarded l.length
    ∧ (l ≠ [] → keptOf (sortDev l) ≠ [])
    ∧ (∀ v ∈ keptOf (sortDev l), v ∈ l)
    ∧ (∀ lo hi : Int, l ≠ [] → (∀ v ∈ l, lo ≤ v.2 ∧ v.2 ≤ hi) → lo ≤ meanOf l ∧ meanOf l ≤ hi))

/-- The frame of the commands that act on registers alone: what they change besides registers, and the notes of which of them the hardware has updated in
this fabric clock (R7) and of its locks, unlocks and output writes (R456, R461), is nothing: no byte of memory, no line, clock, table, queue or
record, and nothing is sent. DR_FETCH_DONE changes nothing more than that and the instant the data have been held since; BO_RECOVER nothing more than
that and the brown-out monitor's times. -/
def Obligations.RegisterCommandsLeaveTheRestAlone : Prop :=
  ∀ (s t : State) (p : Page) (v : Word) (key : BitVec 16) (n : BitVec 5) (level : Bool) (b : Requester) (lane : BitVec 1) (c : BitVec 3) (k : Line) (f : BitVec 1)
    (m : BitVec 6) (g : BitVec 12) (q : BitVec 4) (tail : BitVec 3),
    ∀ i ∈ [Instr.cfgLock p, .lockKey p key, .intRawClear p v, .intSet p v, .sticky, .lockAll, .outSet v, .outClr v, .gpioEdge n level, .faultLatchClear, .trngFail,
      .chModeWrite level, .pushChunkTaken, .plogClr b, .laneUp lane, .canIntegrated c, .restart c, .busOn c, .fifoAck c f m, .gclSwap g, .pauseExpiry q,
      .pauseStormEnd q, .consistLinkChange tail level, .pinLatest k, .pinPrevious k, .unpin k, .hbtLost, .drFetchDone, .boRecover],
      exec i s = .next t → t = { s with
        regs := t.regs, updates := t.updates, thisClock := t.thisClock
        bridges := if i = .drFetchDone then { s.bridges with slotSince := t.bridges.slotSince } else s.bridges
        power := if i = .boRecover then { s.power with boSince := t.power.boSince, boSpent := t.power.boSpent } else s.power }

/-- The frame of the instructions of an engine that work on its own registers: memory, what was sent, both lines, time, forming, the Loaf, the kneaders,
the buses, the switch, security, the pair and every semaphore stay as they were; what changes is the role, and registers of the pages that show it,
with the note of which were updated in this clock. -/
def Obligations.EngineInstructionsLeaveTheRestAlone : Prop :=
  ∀ (s t : State) (c : Line) (r i : BitVec 4) (rd rs1 rs2 off w1 sh : BitVec 5) (sx : Bool) (sat mode d : BitVec 2) (imm : BitVec 12),
    ∀ x ∈ [Instr.bfx c r rd rs1 off w1 sx, .bfi c r rd rs1 off w1, .sscl c r rd rs1 rs2 sat sh, .bswap c r rd rs1 mode, .ldp c r rd rs1 imm, .wft c r rd rs1, .ebreak c r,
      .evqPop c r rd, .mboxOutDb c r, .mboxInAck c r, .inDb c i, .outAck c i, .dmaGo c r d],
      exec x s = .next t → t = { s with regs := t.regs, updates := t.updates, rolesA := t.rolesA, rolesB := t.rolesB }

/-! Train time and the cycle (spec/03_train_time.md). -/

/-- What the time unit's commands do. SNAP stores both counters (R57). An edge of PPS_IN of the polarity set gives the error to the nearest second; one
beyond EXT_MAX starts the count of good edges anew, and from the third good edge in a row on the reference is valid (R75); any other edge does
nothing. PPS_LOST takes the reference away on the Starter (R76). In HOLDOVER HOLD_MAX cycles without a value lead the Starter to LEAD (R69). At the
end of an interval the sum and the counts start anew; with too few values RATE_ADJ stays; with enough it moves by the deviation's rate, divided by 2
to the GAIN and rounded down, within plus or minus 5,368,709, at once or, after RETURN_END or the return close, from the next tick on; a value beyond
that limit raises its interrupt (R68). Before the interval's end nothing changes. -/
def Obligations.TimeUnitCommands : Prop :=
  ∀ s : State,
    exec .snap s = .next (((s.set64 TIME.SNAP_LTC_LO TIME.SNAP_LTC_HI s.ltcNs.toNat).set TIME.SNAP_LTC_FRAC (s.time.ltc.toNat % 2 ^ 32)).set64
      TIME.SNAP_TTC_LO TIME.SNAP_TTC_HI s.ttcNs.toNat)
    ∧ (∀ (at_ : BitVec 64) (rising : Bool), s.usesPps = true → rising ≠ s.flag TIME.TIME_CTRL_PPS_POL →
        (s.get TIME.EXT_MAX < 4 * (secondError at_).natAbs →
          exec (.ppsEdge at_ rising) s = .next ((s.setInt TIME.PPS_ERR (secondError at_)).withTime fun t =>
            { t with ppsOutstanding := 4 * secondError at_, ppsGoodRun := 0 }))
        ∧ (4 * (secondError at_).natAbs ≤ s.get TIME.EXT_MAX → s.time.ppsGoodRun < 2 →
          exec (.ppsEdge at_ rising) s = .next ((s.setInt TIME.PPS_ERR (secondError at_)).withTime fun t =>
            { t with ppsOutstanding := 4 * secondError at_, ppsGoodRun := s.time.ppsGoodRun + 1 }))
        ∧ (4 * (secondError at_).natAbs ≤ s.get TIME.EXT_MAX → 2 ≤ s.time.ppsGoodRun →
          exec (.ppsEdge at_ rising) s = .next (((s.setInt TIME.PPS_ERR (secondError at_)).withTime fun t =>
            { t with ppsOutstanding := 4 * secondError at_, ppsGoodRun := s.time.ppsGoodRun + 1 }).setFlag TIME.TIME_STAT_EXT_VALID true)))
    ∧ (∀ (at_ : BitVec 64) (rising : Bool), s.usesPps = false ∨ rising = s.flag TIME.TIME_CTRL_PPS_POL → exec (.ppsEdge at_ rising) s = .next s)
    ∧ (s.flag TIME.TIME_STAT_STARTER = true →
        exec .ppsLost s = .next (((s.setFlag TIME.TIME_STAT_EXT_VALID false).raise .time 13).withTime fun t =>
          { t with ppsOutstanding := 0, ppsGoodRun := 0, extPublished := 0 }))
    ∧ (s.timeState = tmHOLDOVER → s.get TIME.HOLD_MAX ≤ s.time.holdoverRun → s.flag TIME.TIME_STAT_STARTER = true →
        exec .holdMaxExpiry s = .next (s.set TIME.TIME_STAT_STATE tmLEAD))
    ∧ (s.get TIME.RATE_CTRL_INTERVAL ≤ s.time.intervalCycles → 2 * s.time.accCount < s.get TIME.RATE_CTRL_INTERVAL →
        exec .rateCorrection s = .next (s.withTime fun t => { t with accSum := 0, accCount := 0, intervalCycles := 0 }))
    ∧ (∀ raw new : Int, s.get TIME.RATE_CTRL_INTERVAL ≤ s.time.intervalCycles → s.get TIME.RATE_CTRL_INTERVAL ≤ 2 * s.time.accCount →
        raw = s.getInt TIME.RATE_ADJ + Int.fdiv s.rateDelta (2 ^ s.get TIME.RATE_CTRL_GAIN) → new = max (-5368709) (min 5368709 raw) →
        (s.time.returnEndSeen = false → s.time.returnClosed = false →
          exec .rateCorrection s = .next (((if raw = new then s else s.raise .time 12).setInt TIME.RATE_ADJ new).withTime fun t =>
            { t with accSum := 0, accCount := 0, intervalCycles := 0 }))
        ∧ (s.time.returnEndSeen = true ∨ s.time.returnClosed = true →
          exec .rateCorrection s = .next ((if raw = new then s else s.raise .time 12).withTime fun t =>
            { t with rateNext := some new, accSum := 0, accCount := 0, intervalCycles := 0 })))
    ∧ (s.time.intervalCycles < s.get TIME.RATE_CTRL_INTERVAL → exec .rateCorrection s = .next s)

/-- TICK falls due when the chip holds a train time and either no tick has come yet or a cycle length has passed since the last one; then the tick
sequence State.tick runs, in which State.advanceCycle starts cycle 0 at the first tick and raises the cycle number by 1 modulo 2^32 at every later
one; from then on the cycle runs, P and the marks' settings are those of the registers, and no mark has fired (R58, R79, R83). Before that TICK
changes nothing. A mark that has fired in a cycle is not due in it again. When one is due, all marks due in that clock fire, in ascending index; each
counts as fired, sets its bit of CYC's INT_RAW, gives its pulses, tells the engines, where the tick of this clock has not yet told them, and triggers
its jobs (R83 to R85); a mark that is not due does nothing. CYC_LEN.K is taken while both lines are OFF, its page is not locked and the value lies in
1 to 1024: without a train time at once, with one for the next tick (R79). A line that is not OFF, a value of 0 or above 1024, and a locked page with
another value each have the write refused. -/
def Obligations.CycleCommands : Prop :=
  ∀ s : State,
    (s.tickDue = true ↔ s.valid = true ∧ (s.time.firstTick = true ∨ (s.cycleLen : Int) ≤ s.sinceTick))
    ∧ (s.tickDue = true → exec .tick s = .next s.tick)
    ∧ (s.tickDue = false → exec .tick s = .next s)
    ∧ (s.time.firstTick = true → s.advanceCycle.cycle = 0)
    ∧ (s.time.firstTick = false → s.advanceCycle.cycle = (s.cycle + 1) % 2 ^ 32)
    ∧ s.advanceCycle.time.firstTick = false ∧ s.advanceCycle.time.running = true ∧ s.advanceCycle.time.marksFired = []
    ∧ s.advanceCycle.time.precision = s.get TIME.PREC_ASSUMED
    ∧ s.advanceCycle.time.marks = s.markSettings
    ∧ (∀ m : BitVec 4, s.time.marksFired.contains m.toNat = true → s.markDue m.toNat = false)
    ∧ (∀ m : BitVec 4, s.markDue m.toNat = true →
        exec (.cycleMark m) s = .next ((List.range 16).foldl (fun u i => if u.markDue i then u.fireMark i else u) s))
    ∧ (∀ i : Nat, s.fireMark i = ((((s.withTime fun t => { t with marksFired := t.marksFired ++ [i] }).raise .cyc (16 + i)).pulseMark i).when
        (!s.time.marksTold.contains i) fun u => u.engineMark i).markTriggers i)
    ∧ (∀ m : BitVec 4, s.markDue m.toNat = false → exec (.cycleMark m) s = .next s)
    ∧ (∀ k : BitVec 11, s.bothOff = true → k ≠ 0 → k.toNat ≤ 1024 → s.locked .cyc = false →
        (s.valid = false →
          exec (.cycLenWrite k) s = .next (((if k.toNat = s.get CYC.CYC_LEN_K then s else s.stampConfig .cyc).set CYC.CYC_LEN_K k.toNat).withTime fun t =>
            { t with cycleLenK := k.toNat, cycleLenNext := none }))
        ∧ (s.valid = true →
          exec (.cycLenWrite k) s = .next (((if k.toNat = s.get CYC.CYC_LEN_K then s else s.stampConfig .cyc).set CYC.CYC_LEN_K k.toNat).withTime fun t =>
            { t with cycleLenNext := some k.toNat })))
    ∧ (∀ k : BitVec 11, s.bothOff = false ∨ k = 0 ∨ 1024 < k.toNat ∨ (s.locked .cyc = true ∧ k.toNat ≠ s.get CYC.CYC_LEN_K) →
        exec (.cycLenWrite k) s = .next (s.refuse .cyc))

/-- CUT, RETURN_END and RETURN_CLOSE act once a cycle. CUT acts from the earliest cut point of the lines on: a chip that is not of a pair first drops the
jobs that miss this deadline, notes when CUT came, and captures its slice; a READY dough outside HOLD is captured FRESH with the next SEQ (R81, R184,
R212). RETURN_END runs when every line that takes part has returned (R81). RETURN_CLOSE, from 2,560 ns before the next tick on, closes a cycle whose
return has not come: where a line takes part, past TRAY_LEN, it counts a late tray; it makes the statuses final, commits a draft 7 that no job holds
open and then runs the jobs that waited for RETURN_END (R82, R218). After RETURN_CLOSE, RETURN_END does nothing. -/
def Obligations.CutAndReturnCommands : Prop :=
  ∀ s : State,
    (s.time.running = true → s.capture.taken = false → s.twin = false → s.cutDue = true →
      (s.served.filterMap s.cutPoint).any (fun p => p < 100) = false → (s.channels.any fun c => s.live (.loaf c)) = true →
      exec .cut s = .next ((s.kneaderCut.set CYC.CUT_AT s.sinceTick.toNat).cut.endCut.when (s.served.any fun l => s.lineState l == lnLONE) State.writeLone)
      ∧ (s.kneaderA.runs = [] → s.kneaderB.runs = [] → s.inHold = false → s.flag (LOAF.DOUGH_STAT_READY .A) = true →
          (s.served.any fun l => s.lineState l == lnLONE) = false →
          ∃ t, exec .cut s = .next t ∧ t.capture.kind = .fresh ∧ t.capture.taken = true ∧ t.capture.seq = s.nextSeq
            ∧ t.capture.payload = s.bytes (doughAddr s.doughChannel) s.captureLen ∧ t.sent = s.sent ∧ t.mem = s.mem ∧ t.time = s.time ∧ t.flag (LOAF.DOUGH_STAT_READY .A) = false))
    ∧ (s.capture.taken = true → exec .cut s = .next s)
    ∧ (s.cutDue = false → exec .cut s = .next s)
    ∧ (s.time.returnEndSeen = false → s.time.returnClosed = false → s.anyLine [lnINAUGURATE] = false → s.returnReached = true →
        exec .returnEnd s = .next s.returnEnd)
    ∧ (s.time.returnEndSeen = false → s.time.returnClosed = false → s.closeDue = true →
        exec .returnClose s = .next ((((s.when (s.anyPartakes && decide ((s.trayLen : Int) < s.sinceTick)) State.lateTray).finalise.withTime fun t =>
          { t with returnClosed := true }).each [Line.A, Line.B] fun c s => s.commitDraft7 c false).returnTriggers))
    ∧ (s.closeDue = false → exec .returnClose s = .next s)
    ∧ (s.time.returnClosed = true → exec .returnEnd s = .next s ∧ exec .returnClose s = .next s)

/-- The grandmaster on a consist port (R78): Sync with Follow_Up sends the next number, takes AS_OFFS into use on that port and gives the time of the
departure; Announce and Pdelay_Req send theirs; each bears the node's UID as its source (R122). On a port that is no grandmaster's they send nothing.
A write of AS_OFFS, from any state, stores the value, counts up the time base indicator and notes the phase change. -/
def Obligations.GrandmasterCommands : Prop :=
  ∀ (s : State) (m : BitVec 3),
    (s.grandmaster m.toNat = true →
      (∀ sfd : BitVec 64, ∃ t, exec (.asSyncTx m sfd) s = .next t ∧ t.regs = s.regs ∧ t.mem = s.mem
        ∧ t.time.asOffsets = setAt s.time.asOffsets m.toNat (BitVec.ofNat 64 (s.get64 TIME.AS_OFFS_LO TIME.AS_OFFS_HI))
        ∧ t.sent = s.sent ++ [.asMessage m.toNat s.nodeUid (.sync (s.asPort m.toNat).syncSeq),
            .asMessage m.toNat s.nodeUid (.followUp (s.asPort m.toNat).syncSeq (t.asTime m.toNat sfd) (BitVec.ofNat 16 (s.get TIME.AS_CTRL_TBI)) s.time.asPhaseChange)])
      ∧ (∃ t msg, exec (.asAnnounceTx m) s = .next t ∧ t.regs = s.regs ∧ t.mem = s.mem ∧ t.time = s.time ∧ t.sent = s.sent ++ [.asMessage m.toNat s.nodeUid msg]
          ∧ ∃ p1 p2 cls acc src, msg = .announce (s.asPort m.toNat).announceSeq s.eui64 p1 p2 cls acc src
            ∧ p1 = BitVec.ofNat 8 (s.get TIME.AS_CTRL_PRIO1) ∧ p2 = BitVec.ofNat 8 (s.get TIME.AS_CTRL_PRIO2))
      ∧ (∀ sfd : BitVec 64, exec (.asPdelayReqTx m sfd) s = .next ((s.withAs m.toNat fun p =>
          { p with reqSeq := (s.asPort m.toNat).reqSeq + 1, reqSent := sfd }).emit (.asMessage m.toNat s.nodeUid (.pdelayReq ((s.asPort m.toNat).reqSeq + 1))))))
    ∧ (s.grandmaster m.toNat = false → exec (.asAnnounceTx m) s = .next s ∧ ∀ sfd : BitVec 64, exec (.asSyncTx m sfd) s = .next s ∧ exec (.asPdelayReqTx m sfd) s = .next s)
    ∧ (∀ v : BitVec 64, ∃ t, exec (.asOffsWrite v) s = .next t ∧ t.get64 TIME.AS_OFFS_LO TIME.AS_OFFS_HI = v.toNat
        ∧ t.get TIME.AS_CTRL_TBI = (s.get TIME.AS_CTRL_TBI + 1) % 2 ^ TIME.AS_CTRL_TBI.width
        ∧ t.time = { s.time with asPhaseChange := (v - BitVec.ofNat 64 (s.get64 TIME.AS_OFFS_LO TIME.AS_OFFS_HI)).toInt }
        ∧ t = { s with regs := t.regs, time := t.time })

/-! Lines, ports and forming (spec/04_forming_the_train.md). -/

/-- The line commands. LINE_CTRL.EN is written only on a powered page; setting it while the conditions of its settings are not met raises CFG_BAD; the
conditions for leaving OFF are then applied (R88, R485). Each timer acts in the state it belongs to and none of them acts in RUN: the listen timer
leads to COLDSTART, where START_ELIG is 1 and no relink wait runs (R90) and the line follows no Starter on the other line (log entry 169);
INTEGRATE_TIMEOUT, INAUG_TRAY_TIMEOUT without a final list and PASSIVE_TMO_EXPIRY lead to LISTEN (R90), but a line held for crossed cables stays
(R10); after a relink wait the LISTEN lines of the former Starter go to COLDSTART and those of another node stay (R117, R119). LISTEN clears what the
line knew: it has no crumb, is not the origin, has missed nothing and claims no place; that POS keeps the position held until a tray gives another is
the model's choice (log entry 132). -/
def Obligations.LineCommands : Prop :=
  ∀ (s : State) (l : Line),
    (∀ u, u = (s.stampConfig (.gtb l)).setFlag (GTB.LINE_CTRL_EN l) true → s.powered (.gtb l) = true → s.flag (GTB.LINE_CTRL_EN l) = false →
        exec (.lineEnable l) s = .next ((if u.checkedConditions then u else u.raiseCfgBad).applyLineConditions l))
    ∧ (s.powered (.gtb l) = false → exec (.lineEnable l) s = .next s ∧ exec (.lineDisable l) s = .next s)
    ∧ (s.powered (.gtb l) = true → s.flag (GTB.LINE_CTRL_EN l) = true →
        exec (.lineDisable l) s = .next (((s.stampConfig (.gtb l)).setFlag (GTB.LINE_CTRL_EN l) false).applyLineConditions l))
    ∧ (s.lineState l = lnLISTEN → s.forming.relinkWait = false → s.setting GTB.FORM_CFG_START_ELIG = 1 → s.followsElsewhere l = false →
        exec (.listenTimerExpiry l) s = .next (s.enterColdStart l))
    ∧ (s.lineState l = lnINTEGRATE → exec (.integrateTimeout l) s = .next (s.enterListen l))
    ∧ (s.lineState l = lnPASSIVE → (s.lineOf l).holdCrossed = false → exec (.passiveTmoExpiry l) s = .next (s.enterListen l))
    ∧ (s.lineState l = lnPASSIVE → (s.lineOf l).holdCrossed = true → exec (.passiveTmoExpiry l) s = .next s)
    ∧ (s.lineState l = lnINAUGURATE → s.forming.finalList = none → exec (.inaugTrayTimeout l) s = .next (s.enterListen l))
    ∧ (s.forming.relinkWait = true → s.forming.wasStarter = false →
        exec .relinkExpiry s = .next (s.withForming fun f => { f with relinkWait := false }))
    ∧ (s.forming.relinkWait = true → s.forming.wasStarter = true →
        exec .relinkExpiry s = .next (s.served.foldl (fun u k => if u.lineState k = lnLISTEN then u.enterColdStart k else u)
          (s.withForming fun f => { f with relinkWait := false })))
    ∧ (s.lineState l = lnRUN → exec (.listenTimerExpiry l) s = .next s ∧ exec (.integrateTimeout l) s = .next s
        ∧ exec (.passiveTmoExpiry l) s = .next s ∧ exec (.inaugTrayTimeout l) s = .next s)
    ∧ ((s.enterListen l).lineState l = lnLISTEN ∧ (s.enterListen l).posOn l = s.posOn l
        ∧ (s.enterListen l).get (GTB.FORM_STAT_CRUMB l) = 0 ∧ (s.enterListen l).flag (GTB.TRAY_STAT_ORIGIN l) = false
        ∧ (s.enterListen l).get (GTB.TRAY_STAT_MISS_RUN l) = 0 ∧ ((s.enterListen l).lineOf l).claiming = none
        ∧ ((s.enterListen l).lineOf l).writing = false ∧ (s.enterListen l).lineState l.other = s.lineState l.other)

/-- Events at a port (R22, R23, R100, R115, R416). A link change is taken once: it raises LINK_CHANGE, restarts settling and is an event of the coupling
window; after settling the port works, while no version-1 frame came in this cycle or the last; a coupler contact without a link change is counted
when the window ends; the first state of a coupler is only noted; a version-1 frame on a line in GTB mode that is not in RUN is counted and FR_SEEN is
kept, and a port with such a frame in this cycle or the last does not work. -/
def Obligations.PortCommands : Prop :=
  ∀ (s : State) (p : BackbonePort),
    (∀ up : Bool, s.powered (.gtb p.line) = true → s.linkUp p ≠ up →
        ∀ u, u = ((s.setLink p up).setFlag (MAC.MAC_STAT_LINK (8 + portIndex p)) up).raiseMac (8 + portIndex p) 0 →
        exec (.portLinkChange p up) s = .next (((u.withLine p.line fun y =>
          y.withPort p.side fun q => { q with
            settled := false, rxOwn := none, delays := []
            linkUpCycle := if up then u.cycle else q.linkUpCycle
            linkUpAt := if up then u.ltcNs else q.linkUpAt }).topologyEvent p true).refreshLineEnd p.line))
    ∧ exec (.portLinkChange p (s.linkUp p)) s = .next s
    ∧ (s.linkUp p = true → exec (.linkSettleExpiry p) s = .next ((s.withLine p.line fun y =>
        y.withPort p.side fun q => { q with settled := true }).refreshLineEnd p.line))
    ∧ (s.linkUp p = false → exec (.linkSettleExpiry p) s = .next s)
    ∧ (((s.lineOf p.line).portOf p.side).couplerSeen = true → ((s.lineOf p.line).portOf p.side).linkSeen = false →
        exec (.couplingWindowExpiry p) s = .next (((s.count (GTB.CPL_ONLY_CNT p.line)).raise (.gtb p.line) 28).withLine p.line fun y =>
          y.withPort p.side fun q => { q with linkSeen := false, couplerSeen := false }))
    ∧ (∀ closed : Bool, s.powered .cpl = true → (s.tag (portIndex p)).started = false →
        exec (.cplClosedChange p closed) s = .next ((s.setFlag (CPL.HEAD_STAT_CLOSED (portIndex p)) closed).withTag (portIndex p) fun x =>
          { x with started := true }))
    ∧ (s.live (.gtb p.line) = true → s.lineState p.line ≠ lnOFF → s.forerunner p.line = false → s.lineState p.line ≠ lnRUN →
        exec (.v1FrameRx p) s = .next ((((s.count (GTB.V1_FRAME_CNT p.line)).withLine p.line fun y =>
          y.withPort p.side fun q => { q with v1This := true }).withForming fun f => { f with frSeen := true }).refreshLineEnd p.line))
    ∧ (s.linkUp p = true → ((s.lineOf p.line).portOf p.side).v1This = false → ((s.lineOf p.line).portOf p.side).v1Last = false → s.forerunner p.line = false →
        (s.withLine p.line fun y => y.withPort p.side fun q => { q with settled := true }).working p = true)
    ∧ (((s.lineOf p.line).portOf p.side).v1This = true ∨ ((s.lineOf p.line).portOf p.side).v1Last = true → s.forerunner p.line = false → s.working p = false)

/-- Cold start (R95 to R98). A line in COLDSTART sends its next tray with a number that rises to 8; LONE probes with number 1; the forming block of a
Starter names it and its number. An outward cold-start tray of another Starter whose contention key is worse than the best one seen is counted and
goes no further; and the node's own tray, coming back to a line in COLDSTART, adds the followers it has gathered. -/
def Obligations.ColdStartCommands : Prop :=
  ∀ (s : State) (l : Line) (a : Instant),
    (s.lineState l = lnCOLDSTART → s.live (.gtb l) = true →
        exec (.coldStartTrayTx l a) s = .next ((s.withLine l fun x => { x with
          coldNumber := min 8 ((s.lineOf l).coldNumber + 1), followersSum := 0 }).sendColdStart l a (min 8 ((s.lineOf l).coldNumber + 1))))
    ∧ (s.lineState l ≠ lnCOLDSTART → exec (.coldStartTrayTx l a) s = .next s)
    ∧ (s.lineState l = lnLONE → s.live (.gtb l) = true →
        exec (.loneProbeExpiry l a) s = .next (s.sendColdStart l a 1))
    ∧ (s.lineState l ≠ lnLONE → exec (.loneProbeExpiry l a) s = .next s)
    ∧ (∀ (info : FrameInfo) (hdr : TrayHeader) (b : FormingBlock), s.readsTray info hdr = true → hdr.ret = false → b.suid ≠ s.nodeUid →
        s.worseThanBest info.port.line b = true → s.lineState info.port.line ≠ lnLONE →
        exec (.coldStartTrayRx info hdr b) s = .next ((s.noteKey (contentionKey b)).count (GTB.COLD_DROP_CNT info.port.line)))
    ∧ (∀ (info : FrameInfo) (hdr : TrayHeader) (b : FormingBlock), s.readsTray info hdr = true → hdr.ret = true → b.suid = s.nodeUid →
        s.lineState info.port.line = lnCOLDSTART →
        exec (.coldStartTrayRx info hdr b) s = .next (((s.takeReturn info).takePortReturn info).withLine info.port.line fun x =>
          { x with followersSum := x.followersSum + b.followers.toNat, coldAny := x.coldAny || b.followers != 0 }))
    ∧ (s.flag TIME.TIME_STAT_STARTER = true → ∀ (d : Side) (n k : Nat), (s.formingBlock l d a n k).suid = s.nodeUid
        ∧ (s.formingBlock l d a n k).round = BitVec.ofNat 8 n ∧ (s.formingBlock l d a n k).followers = BitVec.ofNat 8 k)

/-- The seek round (R101, R95). Only the Starter sends the seek tray, and only when one is due: it leaves by the front port with this node as Starter;
without a link there the node itself is end 1 and its front ports face end 1. A seek tray worse than the best key seen is counted and dropped; the
Starter's own, coming back, tells it end 1. -/
def Obligations.SeekCommands : Prop :=
  ∀ (s : State) (l : Line) (a : Instant),
    (s.flag TIME.TIME_STAT_STARTER = false ∨ (s.forming.seekCycle.any fun c => decide (c ≤ s.cycle)) = false → exec (.seekTrayTx l a) s = .next s)
    ∧ (s.flag TIME.TIME_STAT_STARTER = true → (s.forming.seekCycle.any fun c => decide (c ≤ s.cycle)) = true → s.live (.gtb l) = true →
        s.failSilent = false → s.lineState l = lnINAUGURATE → s.working ⟨l, .front⟩ = true →
        ∃ t hdr b good, exec (.seekTrayTx l a) s = .next t ∧ t.sent = s.sent ++ [.discovery ⟨l, .front⟩ hdr b ⟨0, [], []⟩ good] ∧ t.mem = s.mem
          ∧ b.suid = s.nodeUid ∧ b.round = 1 ∧ hdr.kind = 3 ∧ hdr.hop = 1 ∧ t.forming.round = 1)
    ∧ (s.flag TIME.TIME_STAT_STARTER = true → (s.forming.seekCycle.any fun c => decide (c ≤ s.cycle)) = true → s.live (.gtb l) = true →
        s.lineState l = lnINAUGURATE → s.linkUp ⟨l, .front⟩ = false → l = .A ∨ s.forming.end1FromA = false →
        ∃ t, exec (.seekTrayTx l a) s = .next t ∧ t.sent = s.sent ∧ t.regs = s.regs ∧ t.mem = s.mem
          ∧ t.forming.end1Port = some .front ∧ t.forming.round = 1 ∧ t.forming.end1 = some s.nodeUid)
    ∧ (∀ (info : FrameInfo) (hdr : TrayHeader) (b : FormingBlock) (body : DiscBody), s.readsTray info hdr = true → hdr.ret = false →
        hdr.inaug = false → s.worseThanBest info.port.line b = true →
        exec (.seekTrayRx info hdr b body) s = .next ((s.noteKey (contentionKey b)).count (GTB.COLD_DROP_CNT info.port.line)))
    ∧ (∀ (info : FrameInfo) (hdr : TrayHeader) (b : FormingBlock) (body : DiscBody), s.readsTray info hdr = true → hdr.ret = true →
        hdr.inaug = false → b.suid = s.nodeUid →
        exec (.seekTrayRx info hdr b body) s = .next (((s.takeReturn info).noteEnd1 info.port.line body.end1).takePortReturn info))

/-- Discovery (R95, R102 to R104): only end 1 in INAUGURATE sends a count or confirm tray, and only until the list is final: the count tray leaves by a
working port facing away from end 1 with the origin's own record; a received one that is worse than the best key seen is counted and dropped; on its
return pass end 1 reads the round and adopts from it as it may. Key distribution (R105). Forerunner trains close with a final discovery tray in its
place; a node without a final list sends none. What a node outside INAUGURATE takes from a frame of a key-distribution tray on its return pass is the
frame, and that the round is the key round. -/
def Obligations.DiscoveryCommands : Prop :=
  ∀ (s : State) (l : Line) (a : Instant),
    (s.isEnd1 = true → s.lineState l = lnINAUGURATE → s.live (.gtb l) = true → s.forming.finalList = none →
        exec (.countTrayTx l a) s = .next (s.sendRound l a 2 false)
        ∧ (s.failSilent = false → s.working (s.downstream l) = true → ∃ t hdr b good, exec (.countTrayTx l a) s = .next t
            ∧ t.sent = s.sent ++ [.discovery (s.downstream l) hdr b ⟨0, [], [s.ownRecord l 0 false]⟩ good] ∧ b.round = 2 ∧ hdr.kind = 3 ∧ t.mem = s.mem))
    ∧ (s.isEnd1 = true → s.lineState l = lnINAUGURATE → s.live (.gtb l) = true → s.forming.finalList = none → s.forming.merged ≠ [] →
        s.forming.round ≠ 3 →
        exec (.confirmTrayTx l a) s = .next ((s.withForming fun f => { f.setCarried s.cycle (f.merged.take 63) with confirmRound := f.confirmRound + 1 }).sendRound l a 3 false))
    ∧ (s.isEnd1 = false → exec (.countTrayTx l a) s = .next s ∧ exec (.confirmTrayTx l a) s = .next s)
    ∧ (∀ (info : FrameInfo) (hdr : TrayHeader) (b : FormingBlock) (body : DiscBody), s.readsTray info hdr = true → hdr.ret = false →
        hdr.inaug = false → hdr.final = false → s.worseThanBest info.port.line b = true →
        exec (.countTrayRx info hdr b body) s = .next ((s.noteKey (contentionKey b)).count (GTB.COLD_DROP_CNT info.port.line))
          ∧ exec (.confirmTrayRx info hdr b body) s = .next ((s.noteKey (contentionKey b)).count (GTB.COLD_DROP_CNT info.port.line)))
    ∧ (∀ (info : FrameInfo) (hdr : TrayHeader) (b : FormingBlock) (body : DiscBody), s.readsTray info hdr = true → hdr.ret = true →
        hdr.inaug = false → hdr.final = false → s.isEnd1 = true → s.lineState info.port.line = lnINAUGURATE → s.follows info.port.line b = true →
        ∀ v, v = (s.takeReturn info).readRound info.port.line hdr.cycle.toNat b body →
        exec (.countTrayRx info hdr b body) s = .next (v.adoptFrom info.port.line hdr b (v.lineOf info.port.line).starterUp)
          ∧ exec (.confirmTrayRx info hdr b body) s = .next (v.adoptFrom info.port.line hdr b (v.lineOf info.port.line).starterUp))
    ∧ (∀ final, s.forming.finalList = some final → s.isEnd1 = true → s.lineState l = lnINAUGURATE → s.live (.gtb l) = true →
        s.forming.fallback = false → s.forming.keyRepeats = 0 → s.forming.round ≠ 4 → s.forerunner l = true →
        exec (.keyDistTrayTx l a) s = .next ((s.withForming fun f => { f with
          carried := final, keyRepeats := f.keyRepeats + (if f.round = 4 then 0 else 1), keyTrayWhole := true
          firstData := some (s.cycle + 1), keyLines := if f.round = 4 then f.keyLines else [] }).sendRound l a 3 true))
    ∧ (s.forming.finalList = none → exec (.keyDistTrayTx l a) s = .next s)
    ∧ (∀ (info : FrameInfo) (hdr : TrayHeader) (b : FormingBlock) (body : KeyBody), s.readsTray info hdr = true → hdr.ret = true → hdr.index = 0 → hdr.count = 1 →
        hdr.inaug = false → s.isEnd1 = true → s.follows info.port.line b = false → s.lineState info.port.line ≠ lnINAUGURATE → body.newEpoch ≠ s.forming.newEpoch →
        ∃ t, exec (.keyDistTrayRx info hdr b body.toKeyPlan body.entries) s = .next t ∧ t.regs = s.regs ∧ t.mem = s.mem ∧ t.sent = s.sent ∧ t.sec = s.sec ∧ t.forming.round = 4
          ∧ (t.forming.keyTray.any fun k => k.cycle == hdr.cycle && k.head == some (b, body) && k.got.contains (info.port.line, 0)) = true
          ∧ (t.lineOf info.port.line).ownB = some (s.rxInstant info.port info.arrived))

/-! The trays (spec/05_the_tray.md). -/

/-- Data trays. Only the origin, or a node acting as origin, sends one, in RUN: at position 1 it goes out of a working downstream port as the frames of
the layout, and the origin's own outward instant is that of the departure (R14, R59, R121); a node acting as origin whose upstream port works first
lets one cycle pass in which it sends nothing on the line, and sends its reverse copy besides the tray from the next one on (R486). INAUG that waits
goes into the tray that starts (R99). A node that is no origin sends none. -/
def Obligations.DataTrayTransmission : Prop :=
  ∀ (s : State) (l : Line) (a : Instant) (y : Layout), s.forming.layout = some y →
    (s.flag (GTB.TRAY_STAT_ORIGIN l) = false → exec (.dataTrayTx l a) s = .next s)
    ∧ (s.flag (GTB.TRAY_STAT_ORIGIN l) = true → s.lineState l = lnRUN → s.live (.gtb l) = true →
      (s.posOn l = 1 → s.working (s.downstream l) = true → s.capture.taken = false →
        ∃ u s', u = (s.withLine l fun x => { x with
            ownA := some (s.txInstant (s.downstream l) a), ownB := none, partakes := true, windowOk := true
            revIdle := none, revOwnA := none, revOwnB := none })
          ∧ s' = u.openMark l (u.dataHeader l y (s.txInstant (s.downstream l) a) 0 false)
          ∧ exec (.dataTrayTx l a) s = .next (s'.sendFrames l (s.downstream l) y (s.txInstant (s.downstream l) a) false)
          ∧ (s.failSilent = false → ∃ t out, exec (.dataTrayTx l a) s = .next t ∧ t.sent = s.sent ++ out ∧ out.length = y.frames ∧ t.mem = s.mem))
      ∧ (s.posOn l ≠ 1 → s.working (s.upstream l) = true → (s.lineOf l).revIdle = none →
        exec (.dataTrayTx l a) s = .next (s.withLine l fun x => { x with revIdle := some s.cycle }))
      ∧ (∀ n, s.posOn l ≠ 1 → s.working (s.upstream l) = true → (s.lineOf l).revIdle = some n → n ≠ s.cycle → s.working (s.downstream l) = true → s.capture.taken = false →
        s.failSilent = false → ∃ t out, exec (.dataTrayTx l a) s = .next t ∧ t.sent = s.sent ++ out ∧ out.length = 2 * y.frames ∧ t.mem = s.mem))

/-- A tray leaves as the frames of its layout (R123): where the line may send, each is handed to the port, in order after what was sent before; where it
may not, nothing is. Registers change in no other way than the guardian's count of blocked frames, and memory not at all (R156). -/
def Obligations.TraysLeaveAsTheFramesOfTheLayout : Prop :=
  ∀ (s : State) (l : Line) (p : BackbonePort) (y : Layout) (a : Instant) (reverse : Bool),
    (s.mayTransmit (.gtb l) = true → ∃ out, (s.sendFrames l p y a reverse).sent = s.sent ++ out ∧ out.length = y.frames)
    ∧ (s.mayTransmit (.gtb l) = false → (s.sendFrames l p y a reverse).sent = s.sent)
    ∧ (s.sendFrames l p y a reverse).mem = s.mem
    ∧ (∀ r : Reg, r.key ≠ (GTB.GRD_BLOCK_CNT l).key → (s.sendFrames l p y a reverse).get r = s.get r)

/-- Trays that arrive. A reverse copy's first return frame gives the sender its return instant (R486). A return frame on its way is read in RUN before its
end is known (R147, R151), and one that does not match changes nothing. An outward frame that fits goes on, where the line may send, with the node's
own slice in it (R142, R145); one of another line is counted, reported and, without a way on, goes no further (R121); a node acting as origin, not in
its idle cycle, forwards none of a lower node's tray and stops at the next tick (R14). -/
def Obligations.TrayReception : Prop :=
  ∀ (s : State) (info : FrameInfo) (f : DataFrame),
    (s.readsTray info f.hdr = true → s.flag (GTB.TRAY_STAT_ORIGIN info.port.line) = true → f.hdr.ret = true → f.hdr.index = 0 →
        exec (.reverseCopyRx info f) s = .next (s.withLine info.port.line fun x => { x with
          revOwnB := some (s.rxInstant info.port info.arrived) }))
    ∧ (s.readsTray info f.hdr = true → s.lineState info.port.line = lnRUN → s.headerMatches info.port.line f.hdr = true →
        s.frameFits info f (s.lineOf info.port.line).nextReturn false = true → (s.lineOf info.port.line).windowOk = true →
        exec (.returnFrameRx info f none) s = .next (s.readReturn info.port.line f none))
    ∧ (s.readsTray info f.hdr = true → s.lineState info.port.line = lnRUN → s.headerMatches info.port.line f.hdr = false →
        exec (.returnFrameRx info f none) s = .next s)
    ∧ (s.live (.gtb info.port.line) = true → s.lineState info.port.line ≠ lnOFF → f.hdr.etype.toNat = s.get (GTB.TRAY_CFG_ETYPE info.port.line) →
        info.otherLine = true → info.fcsOk = true → info.stray = none → s.working info.port = true → s.linkUp info.port.across = false →
        exec (.trayFrameRx info f.hdr f.presence f.slices) s = .next ((s.count (GTB.WRONG_LINE_CNT info.port.line)).raise (.gtb info.port.line) 15))
    ∧ (s.readsTray info f.hdr = true → s.flag (GTB.TRAY_STAT_ORIGIN info.port.line) = true →
        f.hdr.origin.toNat < s.posOn info.port.line → s.idleOrigin info.port.line = false →
        s.lineState info.port.line = lnRUN → f.hdr.index ≠ 0 → f.hdr.inaug = false →
        exec (.trayFrameRx info f.hdr f.presence f.slices) s = .next (s.withLine info.port.line fun x => { x with sawOutward := true, stopNext := true, expected := none }))
    ∧ (∀ (v w x : State) (g : DataFrame), s.readsTray info f.hdr = true → s.flag (GTB.TRAY_STAT_ORIGIN info.port.line) = false → s.lineState info.port.line = lnRUN →
        64 ≤ info.size → info.size ≤ 2000 → f.hdr.index ≠ 0 → f.hdr.inaug = false → s.working info.port.across = true →
        s.headerMatches info.port.line f.hdr = true → s.frameFits info f (s.lineOf info.port.line).nextIndex true = true → (s.lineOf info.port.line).broken = false →
        v = (s.withLine info.port.line fun x => { x with sawOutward := true, nextIndex := f.hdr.index.toNat + 1, end1Side := some info.port.side }).openMark info.port.line f.hdr →
        w = v.checkUpstream info.port.line f → w.writeFrame info.port.line f = (x, g) →
        exec (.trayFrameRx info f.hdr f.presence f.slices) s = .next (x.when (x.mayTransmit (.gtb info.port.line)) fun x =>
          x.emit (.dataFrame info.port.across { g with hdr := { x.outwardHeader info.port.line g.hdr with ret := false } } true)))

/-- Forerunner mode (R161 to R163). A node with a slot sends one frame out of every working port of the line; with no captured slice it is a null frame,
which is counted. A line in RUN takes nothing from a slot frame; a line in FORERUNNER takes the copy of one that departed within P of its place,
pending its end (R191). -/
def Obligations.ForerunnerCommands : Prop :=
  ∀ (s : State) (l : Line) (a : Instant),
    (s.lineState l = lnFORERUNNER → s.live (.gtb l) = true → s.posOn l ≠ 0 → (∃ x, s.ownLayoutSlot = some x) → s.failSilent = false →
        ∃ t out, exec (.forerunnerSlotTx l a) s = .next t ∧ t.sent = s.sent ++ out ∧ out.length = ((portsOf l).filter s.working).length
          ∧ (∀ e ∈ out, ∃ p hdr timing slice good, p ∈ portsOf l ∧ e = .slotFrame p hdr timing slice good)
          ∧ (t.lineOf l).ownA = some (s.txInstant (s.downstream l) a) ∧ (t.lineOf l).partakes = true
          ∧ (s.capture.taken = false → t.mem = s.mem
              ∧ t.get (GTB.NULL_FRAME_CNT l) = min (s.get (GTB.NULL_FRAME_CNT l) + 1) (2 ^ (GTB.NULL_FRAME_CNT l).width - 1)))
    ∧ (s.lineState l ≠ lnFORERUNNER → exec (.forerunnerSlotTx l a) s = .next s)
    ∧ (∀ (info : FrameInfo) (hdr : TrayHeader) (timing : TimingBlock) (slice : Slice), s.readsTray info hdr = true →
        s.lineState info.port.line = lnRUN →
        exec (.slotFrameRx info hdr timing slice none) s = .next s)
    ∧ (∀ (info : FrameInfo) (hdr : TrayHeader) (timing : TimingBlock) (slice : Slice) (u : State), s.readsTray info hdr = true →
        s.lineState info.port.line = lnFORERUNNER → s.headerMatches info.port.line hdr = true →
        (instantDiff (s.rxInstant info.port info.arrived - BitVec.ofInt 64 (timing.corr.toNat + ((s.lineOf info.port.line).portOf info.port.side).delay))
          (s.tickInstant + BitVec.ofNat 64 (4 * (s.get CYC.TX_OFFS + hdr.index.toNat * s.forming.slotPlan + s.precision)))).natAbs ≤ 4 * s.precision →
        u = (s.withLine info.port.line fun x => { x with
          partakes := true, lastTray := some hdr, goodRun := if x.missThis then x.goodRun else x.goodRun + 1, missThis := true }) →
        exec (.slotFrameRx info hdr timing slice none) s = .next ((u.takeCopy false ⟨slice.slot.toNat, info.port.line, slice, .pending⟩).slotsMoved u [slice.slot.toNat]))

/-- What a line notes of its trays. A position is absent after two return passes without it (R111); a claim is dropped after 16 passes without a write
(R114); a miss counts once a cycle, in RUN, at a node that does not itself send (R150); three misses lead to PASSIVE unless the node takes over as
origin (R14, R90). -/
def Obligations.TrayWatchCommands : Prop :=
  ∀ (s : State) (l : Line),
    (∀ p : BitVec 6, ((s.lineOf l).absentRun.any fun e => e.1 = p.toNat && 2 ≤ e.2) = true →
        exec (.positionAbsent l p) s = .next (s.set64 (GTB.PRES_LO l) (GTB.PRES_HI l) (withBit (s.get64 (GTB.PRES_LO l) (GTB.PRES_HI l)) p.toNat false)))
    ∧ (∀ p : BitVec 6, ((s.lineOf l).absentRun.any fun e => e.1 = p.toNat && 2 ≤ e.2) = false → exec (.positionAbsent l p) s = .next s)
    ∧ (∀ c : BitVec 4, (s.forming.claims.any fun x => x.1 = c.toNat && 16 ≤ x.2.2) = true →
        exec (.claimWordExpiry c) s = .next (s.withForming fun f => { f.setCrumb c.toNat 0 with claims := f.claims.filter fun x => x.1 != c.toNat }))
    ∧ (∀ c : BitVec 4, (s.forming.claims.any fun x => x.1 = c.toNat && 16 ≤ x.2.2) = false → exec (.claimWordExpiry c) s = .next s)
    ∧ (s.live (.gtb l) = true → s.lineState l = lnRUN → s.flag (GTB.TRAY_STAT_ORIGIN l) = false → (s.lineOf l).windowOk = false →
        (s.lineOf l).missThis = true → exec (.windowMiss l) s = .next s)
    ∧ (s.live (.gtb l) = true → s.lineState l = lnRUN → s.flag (GTB.TRAY_STAT_ORIGIN l) = false → (s.lineOf l).windowOk = false →
        exec (.windowMiss l) s = .next (s.missTray l true)
        ∧ ((s.lineOf l).missThis = false → s.inaugHold = false → ∃ t, exec (.windowMiss l) s = .next t ∧ (t.lineOf l).missThis = true
            ∧ t.get (GTB.WINDOW_MISS_CNT l) = min (s.get (GTB.WINDOW_MISS_CNT l) + 1) (2 ^ (GTB.WINDOW_MISS_CNT l).width - 1)
            ∧ t.get (GTB.TRAY_STAT_MISS_RUN l) = min 3 (s.get (GTB.TRAY_STAT_MISS_RUN l) + 1) ∧ t.mem = s.mem ∧ t.sent = s.sent))
    ∧ (s.lineState l = lnRUN → s.get (GTB.TRAY_STAT_MISS_RUN l) = 3 → (s.lineOf l).actNext = false → s.flag (GTB.TRAY_STAT_ORIGIN l) = false →
        exec (.enterPassive l) s = .next (((s.set (GTB.FORM_STAT_STATE l) lnPASSIVE).raise (.gtb l) 14).withLine l fun x =>
          { x with goodRun := 0, writing := false, actNext := false }))
    ∧ (s.lineState l = lnRUN → (s.lineOf l).actNext = true → exec (.enterPassive l) s = .next s)
    ∧ (∀ a b : Bool, (s.missTray l a).missTray l b = s.missTray l a)

/-- Key requests, grants and the key roll (R390 to R395). A node that needs a key, holds its node key and has a DRBG that serves sends a KEY_REQ with a
fresh nonce and its CMAC on every port of its open lines whose link is up, that may originate and, while the cycle runs, whose FREE has room; each is
counted. One that needs no key or has asked in this cycle sends none. A node in RUN that holds the key takes a KEY_REQ of its epoch with a right CMAC,
as long as fewer than four are waiting at that port; one with a wrong CMAC is counted; one of another epoch, and a fifth, change nothing. KEY_GRANT_TX
answers a waiting request with a KEY_GRANT for its node that bears the sealed TGK, where FREE has room and the link is up, and the request waits no
longer; without waiting requests it sends nothing. A KEY_GRANT for this node, its nonce and its epoch, whose tag fits, gives the node the TGK and the
slice key of its generation; one whose tag does not fit, and one for another node, nonce or epoch, change nothing. KEY_ROLL, at a tick whose cycle
number is a multiple of 2^30, raises KEY_GEN by 1 and makes the next key, or where none was derived for this epoch a freshly derived one, current,
once in that cycle; at no other time does it do anything. Without power none of the first four does anything. -/
def Obligations.KeyCommands : Prop :=
  ∀ s : State,
    (∀ (k : BitVec 256) (ps : List BackbonePort), s.powered .sec = true → s.needsKey = true → s.failSilent = false → (s.time.running && s.sec.asked) = false →
        s.ownNodeKey = some k → s.drbgServes false = true →
        ps = (s.keyPorts.filter fun p => (s.fitsFree p 64 || !s.time.running) && s.live (.gtb p.line) && s.mayOriginate p) → ps ≠ [] →
        ∃ (t : State) (f : KeyReqFrame), exec .keyReqTx s = .next t
          ∧ f.sa = s.nodeUid ∧ f.uid = s.nodeUid ∧ f.epoch = s.epoch ∧ f.mac = Config.cmac k { f with mac := 0 }.head
          ∧ f.nonce = BitVec.ofNat 64 (Config.drbg s.sec.drbgDraws)
          ∧ t.sent = s.sent ++ ps.map (fun p => .keyReq p f)
          ∧ t.sec = { s.sec with nonce := some f.nonce, asked := true, drbgDraws := s.sec.drbgDraws + 1 }
          ∧ t.get SEC.KEY_REQ_TX_CNT = min (s.get SEC.KEY_REQ_TX_CNT + ps.length) (2 ^ SEC.KEY_REQ_TX_CNT.width - 1) ∧ t.mem = s.mem)
    ∧ (s.needsKey = false ∨ (s.time.running = true ∧ s.sec.asked = true) ∨ s.powered .sec = false → exec .keyReqTx s = .next s)
    ∧ (∀ (p : BackbonePort) (f : KeyReqFrame) (fleet : BitVec 256), s.powered .sec = true → s.lineState p.line = lnRUN → s.sec.fleet = some fleet →
        s.sliceKeyNow.isSome = true → s.sec.tgk.isSome = true → s.sec.takenCount.getD (portIndex p) 0 < 4 →
        (f.mac ≠ Config.cmac (nodeKey fleet f.uid) f.head → exec (.keyReqRx p f) s = .next (s.count SEC.KEY_REQ_BAD_CNT))
        ∧ (f.mac = Config.cmac (nodeKey fleet f.uid) f.head → f.epoch ≠ s.epoch → exec (.keyReqRx p f) s = .next s)
        ∧ (f.mac = Config.cmac (nodeKey fleet f.uid) f.head → f.epoch = s.epoch →
            exec (.keyReqRx p f) s = .next (s.withSec fun k => { k with
              taken := k.taken ++ [⟨p, f.uid, f.nonce⟩]
              takenCount := setAt k.takenCount (portIndex p) (s.sec.takenCount.getD (portIndex p) 0 + 1) })))
    ∧ (∀ (p : BackbonePort) (f : KeyReqFrame), 4 ≤ s.sec.takenCount.getD (portIndex p) 0 ∨ s.powered .sec = false → exec (.keyReqRx p f) s = .next s)
    ∧ (s.sec.taken = [] ∨ s.powered .sec = false → exec .keyGrantTx s = .next s)
    ∧ (∀ (q : TakenRequest) (fleet tgk : BitVec 256), s.powered .sec = true → s.failSilent = false → s.sliceKeyNow.isSome = true → s.sec.taken = [q] → s.fitsFree q.port 114 = true →
        s.linkUp q.port = true → s.mayOriginate q.port = true → s.sec.fleet = some fleet → s.sec.tgk = some tgk → s.drbgServes false = true →
        ∃ (t : State) (f : KeyGrantFrame), exec .keyGrantTx s = .next t ∧ f.sa = s.nodeUid ∧ f.responder = s.nodeUid ∧ f.uid = q.uid ∧ f.nonce = q.nonce ∧ f.epoch = s.epoch
          ∧ f.gen = BitVec.ofNat 32 (s.get SEC.KEY_GEN) ∧ f.iv = BitVec.ofNat 96 (Config.drbg s.sec.drbgDraws)
          ∧ (f.ct, f.tag) = Config.gcmSeal (nodeKey fleet q.uid) f.iv { f with ct := 0, tag := 0 }.head tgk
          ∧ t.sent = s.sent ++ [.keyGrant q.port f] ∧ t.sec = { s.sec with taken := [], drbgDraws := s.sec.drbgDraws + 1 }
          ∧ t.get SEC.KEY_GRANT_TX_CNT = min (s.get SEC.KEY_GRANT_TX_CNT + 1) (2 ^ SEC.KEY_GRANT_TX_CNT.width - 1) ∧ t.mem = s.mem)
    ∧ (∀ (p : BackbonePort) (f : KeyGrantFrame) (key : BitVec 256), s.powered .sec = true → s.lineState p.line ≠ lnOFF → s.ownNodeKey = some key →
        f.uid = s.nodeUid → s.sec.nonce = some f.nonce → f.epoch = s.epoch → s.sliceKeyNow = none →
        (Config.gcmOpen key f.iv f.head f.ct f.tag = none → exec (.keyGrantRx p f) s = .next s)
        ∧ (∀ tgk, Config.gcmOpen key f.iv f.head f.ct f.tag = some tgk → exec (.keyGrantRx p f) s = .next (((((s.withSec fun k => { k with
              tgk := some tgk, current := some (sliceKey tgk f.epoch f.gen.toNat), nonce := none }).set SEC.KEY_GEN f.gen.toNat).set
                SEC.KEY_EPOCH f.epoch.toNat).raise .sec 10).showKeys)))
    ∧ (∀ (p : BackbonePort) (f : KeyGrantFrame), f.uid ≠ s.nodeUid ∨ s.sec.nonce ≠ some f.nonce ∨ f.epoch ≠ s.epoch ∨ s.powered .sec = false → exec (.keyGrantRx p f) s = .next s)
    ∧ (∀ (tgk : BitVec 256) (e : BitVec 16), s.sec.tgk = some tgk → e = BitVec.ofNat 16 (s.get SEC.KEY_EPOCH) → s.time.running = true → s.cycle % 2 ^ 30 = 0 → s.sec.rolled = false →
        (∀ k, s.sec.next = some k → s.sec.nextEpoch = e →
          exec .keyRoll s = .next ((((s.withSec fun x => { x with current := some k, next := none, rolled := true }).set SEC.KEY_GEN (s.get SEC.KEY_GEN + 1)).raise .sec 11).showKeys))
        ∧ (s.sec.next = none ∨ s.sec.nextEpoch ≠ e →
          exec .keyRoll s = .next ((((s.withSec fun x => { x with current := some (sliceKey tgk e (s.get SEC.KEY_GEN + 1)), rolled := true }).set SEC.KEY_GEN
            (s.get SEC.KEY_GEN + 1)).raise .sec 11).showKeys)))
    ∧ (s.cycle % 2 ^ 30 ≠ 0 ∨ s.time.running = false ∨ s.sec.rolled = true ∨ s.sec.tgk = none → exec .keyRoll s = .next s)

/-! The Loaf (spec/06_the_loaf.md). -/

/-- Pins (R174 to R176): a pin holds the bank that is LATEST or PREVIOUS at the time, and shows its cycle; where there is no such bank the pin is
released, as UNPIN does. The bank that a rotation hands to forming is none of those in use (R171). -/
def Obligations.PinCommands : Prop :=
  ∀ (s : State) (c : Line), s.powered (.loaf c) = true →
    (s.flag (LOAF.BANK_STAT_LATEST_VALID c) = true →
        exec (.pinLatest c) s = .next (((s.setFlag (LOAF.BANK_STAT_PIN_VALID c) true).set (LOAF.BANK_STAT_PINNED c) (s.get (LOAF.BANK_STAT_LATEST c))).showPin c))
    ∧ (s.flag (LOAF.BANK_STAT_PREV_VALID c) = true →
        exec (.pinPrevious c) s = .next (((s.setFlag (LOAF.BANK_STAT_PIN_VALID c) true).set (LOAF.BANK_STAT_PINNED c) (s.get (LOAF.BANK_STAT_PREVIOUS c))).showPin c))
    ∧ exec (.unpin c) s = .next (((s.set (LOAF.BANK_STAT_PIN_VALID c) 0).set (LOAF.BANK_STAT_PINNED c) 0).showPin c)
    ∧ (s.flag (LOAF.BANK_STAT_LATEST_VALID c) = false → exec (.pinLatest c) s = exec (.unpin c) s)
    ∧ (∀ (latest : Nat) (previous pinned : Option Nat), latest < 4 → (∀ p, previous = some p → p < 4) → (∀ p, pinned = some p → p < 4) →
        freeBank latest previous pinned < 4 ∧ freeBank latest previous pinned ≠ latest ∧ previous ≠ some (freeBank latest previous pinned)
          ∧ pinned ≠ some (freeBank latest previous pinned))

/-- Drafts, by a requester that reaches the draft (R180, R181, R245): OPEN empties the draft, opens it and notes an engine's role; data and ABORT need it
open, and are otherwise a counted error; a COMMIT without provisional sources merges it at once and closes it; DRAFT_TMO cycles later an open draft is
discarded, counted and reported. -/
def Obligations.DraftCommands : Prop :=
  ∀ (s : State) (who : Requester) (c : Line) (d : BitVec 3), s.loafOn c = true → s.draftAccess who c d.toNat = .applies →
    ((s.draft c d.toNat).state ≠ .pending →
        exec (.draftOpen who c d) s = .next ((s.openDraft c d.toNat).each (draftChannels c d.toNat) fun j s => s.withDraft j d.toNat fun x => { x with role := who.roleOf }))
    ∧ ((s.draft c d.toNat).state = .opened → s.sourcesOf who = [] → ∀ ready doubtful : Bool,
        exec (.draftCommit who c d ready doubtful) s = .next ((s.each (draftChannels c d.toNat) fun k s => s.withDraft k d.toNat fun x =>
          { x with ready := ready, doubtful := doubtful, role := who.roleOf }).mergeDraft c d.toNat |>.closeDraft c d.toNat))
    ∧ ((s.draft c d.toNat).state = .opened → exec (.draftAbort who c d) s = .next (s.closeDraft c d.toNat))
    ∧ ((s.draft c d.toNat).state = .closed → exec (.draftAbort who c d) s = .next (s.draftError (draftPage c d.toNat)))
    ∧ ((s.draft c d.toNat).state = .closed → ∀ data, exec (.draftDataWrite who c d data) s = .next (s.draftError (draftPage c d.toNat)))
    ∧ (∀ data, exec (.draftDataWrite who c d data) s = .next (s.writeDraft c d.toNat (data.map fun b => (b.1.toNat, b.2))))
    ∧ ((s.draft c d.toNat).state = .opened → s.get (LOAF.LOAF_CTRL_DRAFT_TMO (draftPage c d.toNat)) ≤ (s.draft c d.toNat).age →
        exec (.draftExpired c d) s = .next (((s.closeDraft c d.toNat).count (LOAF.DRAFT_EXPIRED_CNT (draftPage c d.toNat))).raise (.loaf (draftPage c d.toNat)) 11))
    ∧ ((s.draft c d.toNat).state ≠ .opened → exec (.draftExpired c d) s = .next s)

/-- A data byte written to an open draft stands at its place in every channel that holds the draft, and no other byte of memory changes; the draft's
enable mask gains it. A byte beyond the slice's 1,928 changes nothing (R180, R181). -/
def Obligations.DraftDataIsStoredWhereItBelongs : Prop :=
  ∀ (s : State) (c : Line) (d a : Nat) (v : Byte), (s.draft c d).state = .opened → d < 8 →
    (a < 1928 → (∀ k ∈ draftChannels c d, (s.writeDraft c d [(a, v)]).byte (draftAddr k d + a) = v)
        ∧ ∀ x, (∀ k ∈ draftChannels c d, x ≠ draftAddr k d + a) → (s.writeDraft c d [(a, v)]).byte x = s.byte x)
    ∧ (1928 ≤ a → (s.writeDraft c d [(a, v)]).mem = s.mem)
    ∧ (s.writeDraft c d [(a, v)]).regs = s.regs

/-! The kneaders (spec/07_kneaders.md). -/

/-- Jobs (R200, R210 to R213, R220, R223). KICK on a kneader that takes triggers and is not locked to the other: a trigger whose job head cannot be
reached is lost and counted; one whose entries pass the checks is put in flight, and the first check that fails is counted and recorded with its job;
a kneader that takes none does nothing; in LOCKED mode KICK reaches both kneaders alike (R47). JOB_START puts the waiting run that the grants choose
on a free lane with the head it has read; without a free lane or a waiting run it does nothing. JOB_COMPLETE converts the signals of the lane's run,
delivers what they write unless the job is skipped, counts the job and ends the run; on a lane without a run it does nothing. A job in flight at its
deadline, a tick or a CUT that has fallen due, is counted as overrun and dropped. After RETURN_END or the return close a job that is to run again goes
in flight with the trigger of its run, once; before them none does. At most 512 are in flight; a new one stands behind those triggered before it and,
among waiting ones of its own instant, before those of higher index (R211). -/
def Obligations.KneaderCommands : Prop :=
  ∀ (s : State) (c : Line),
    (∀ job : BitVec 15, s.lockedMode = false → s.takesTriggers c = false → exec (.kick c job) s = .next s)
    ∧ (∀ job : BitVec 15, s.lockedMode = false → s.takesTriggers c = true → s.fetchEntry c job.toNat = .unreachable →
        exec (.kick c job) s = .next ((s.countRaise (KND.FAR_LOST_CNT c) (.knd c) 15).setFlag (KND.KND_STAT_FAR_LOST c) true))
    ∧ (∀ (job : BitVec 15) (b : List Byte) (h : JobHead) (es : List (List Byte)), s.lockedMode = false → s.takesTriggers c = true → s.fetchEntry c job.toNat = .entry b → h = JobHead.ofBytes b →
        h.en = true → h.trig = trKICK → s.cycle % h.div = h.phase → (s.kneader c).runs.length < 512 → 1 ≤ h.count → h.first + h.count ≤ 32768 →
        s.signalsOf c h = es.map TableRead.entry →
        (s.checkJob h (es.map SignalEntry.ofBytes) = 0 → exec (.kick c job) s = .next (s.enqueueJob c job.toNat h none))
        ∧ (∀ cause, cause = s.checkJob h (es.map SignalEntry.ofBytes) → cause ≠ 0 → exec (.kick c job) s
            = .next (((s.countRaise (KND.CFG_ERR_CNT c) (.knd c) 10).set (KND.LAST_ERR_JOB c) job.toNat).set (KND.LAST_ERR_CAUSE c) cause)))
    ∧ (∀ (lane cls place : Nat) (r : JobRun) (b : List Byte), s.powered (.knd c) = true → s.quarantined c = false → s.freeLane c = some lane →
        (s.kneader c).nextGrant 11 (s.kneader c).grants = some (cls, place) → ((s.kneader c).runs.find? fun r => r.lane.isNone && r.cls = cls) = some r →
        (s.withKneader c fun k => { k with grants := place }).fetchEntry c r.job = .entry b →
        ∃ (t : State) (r' : JobRun), exec (.jobStart c) s = .next t ∧ r' ∈ (t.kneader c).runs ∧ r'.job = r.job ∧ r'.cls = cls ∧ r'.lane = some lane ∧ r'.head = b
          ∧ r'.triggered = r.triggered ∧ r'.started = s.ltcNs ∧ (t.kneader c).grants = place ∧ (t.kneader c).runs.length = (s.kneader c).runs.length ∧ t.mem = s.mem ∧ t.sent = s.sent)
    ∧ (s.freeLane c = none ∨ (s.kneader c).nextGrant 11 (s.kneader c).grants = none ∨ s.powered (.knd c) = false ∨ s.quarantined c = true → exec (.jobStart c) s = .next s)
    ∧ (∀ lane : BitVec 3, ((s.kneader c).runs.find? fun r => r.lane = some lane.toNat) = none → exec (.jobComplete c lane) s = .next s)
    ∧ (∀ (lane : BitVec 3) (r : JobRun) (h : JobHead) (es : List (List Byte)) (u : State) (writes : List SignalWrite) (skip : Bool),
        ((s.kneader c).runs.find? fun r => r.lane = some lane.toNat) = some r → s.powered (.knd c) = true → s.quarantined c = false → h = JobHead.ofBytes r.head →
        s.signalsOfRun c r h = es.map TableRead.entry →
        s.convertAll c r.usable r.source (if h.dstSp = 7 then 1928 else s.objLen (h.dest c)) (es.map SignalEntry.ofBytes) = (u, writes, skip) →
        exec (.jobComplete c lane) s = .next (((((if skip then u else u.deliver c r h writes).count (KND.JOB_DONE_CNT c)).endRun c r).commitDraft7 c false)))
    ∧ (∀ job : BitVec 15, s.lockedMode = true → exec (.kick .A job) s = exec (.kick .B job) s)
    ∧ (∀ (job : BitVec 15) (r : JobRun), ((s.kneader c).runs.find? fun r =>
          r.job = job.toNat && ((s.tickDue && s.dueAtTick c r) || (s.time.running && !s.capture.taken && s.cutDue && s.dueAtCut c r))) = some r →
        exec (.jobOverrun c job) s = .next ((s.countRaise (KND.OVERRUN_CNT c) (.knd c) 8).dropRun c r 1))
    ∧ (s.time.returnEndSeen = true ∨ s.time.returnClosed = true → (s.kneader c).replays = [] → exec (.jobReplay c) s = .next (s.withKneader c fun k => { k with replays := [] }))
    ∧ (∀ (j : Nat) (i : BitVec 64) (b : List Byte) (u : State), s.time.returnEndSeen = true ∨ s.time.returnClosed = true → (s.kneader c).replays = [(j, i)] →
        u = s.withKneader c (fun k => { k with replays := [] }) → u.fetchEntry c j = .entry b → exec (.jobReplay c) s = .next (u.enqueueJob c j (JobHead.ofBytes b) (some i)))
    ∧ (s.time.returnEndSeen = false → s.time.returnClosed = false → exec (.jobReplay c) s = .next s)
    ∧ (∀ (job : Nat) (h : JobHead) (again : Option (BitVec 64)), (s.kneader c).runs.length ≤ 512 →
        ((s.enqueueJob c job h again).kneader c).runs.length ≤ 512
          ∧ ((s.kneader c).runs.length < 512 → ∃ r : JobRun, r.job = job ∧ r.lane = none ∧ r.cls = h.cls
              ∧ ((s.enqueueJob c job h again).kneader c).runs = if again.isSome then (s.kneader c).runs ++ [r] else insertRun r (s.kneader c).runs))
    ∧ (∀ (r : JobRun) (l : List JobRun), ∃ front back, l = front ++ back ∧ insertRun r l = front ++ r :: back ∧ (∀ x, back.head? = some x → x.triggered = r.triggered ∧ r.job < x.job))

/-! The protocol engines (spec/08_protocol_engines.md). -/

/-- The Xknd instructions of an engine that runs (R232, R233): BFX, BFI, SSCL and BSWAP write rd and move past their 4 bytes; SSCL and BSWAP with the
reserved code 0b11 raise an illegal-instruction exception; LDP raises a misaligned-load exception off a word boundary, is refused outside the forming
windows, and writes data and status, and a read of a provisional slot taints the role and is counted. An engine that does not run executes nothing. -/
def Obligations.XkndCommands : Prop :=
  ∀ (s : State) (c : Line) (r : BitVec 4) (rd rs1 rs2 off w1 sh : BitVec 5),
    (s.engRuns c r.toNat = true →
      (∀ sx, exec (.bfx c r rd rs1 off w1 sx) s
          = .next (s.engResult c r.toNat rd.toNat (bfxOf ((s.role c r.toNat).reg rs1.toNat) off.toNat (w1.toNat + 1) sx) 4))
      ∧ exec (.bfi c r rd rs1 off w1) s = .next (s.engResult c r.toNat rd.toNat
          (bfiOf ((s.role c r.toNat).reg rd.toNat) ((s.role c r.toNat).reg rs1.toNat) off.toNat (w1.toNat + 1)) 4)
      ∧ (∀ sat : BitVec 2, sat ≠ 3 → exec (.sscl c r rd rs1 rs2 sat sh) s = .next (s.engResult c r.toNat rd.toNat
          (ssclOf ((s.role c r.toNat).reg rs1.toNat) ((s.role c r.toNat).reg rs2.toNat) sat.toNat sh.toNat) 4))
      ∧ (∀ mode : BitVec 2, mode ≠ 3 → exec (.bswap c r rd rs1 mode) s
          = .next (s.engResult c r.toNat rd.toNat (bswapOf ((s.role c r.toNat).reg rs1.toNat) mode.toNat) 4))
      ∧ (∃ word, exec (.sscl c r rd rs1 rs2 3 sh) s = .next (s.engTrap c r.toNat exILLEGAL word))
      ∧ (∃ word, exec (.bswap c r rd rs1 3) s = .next (s.engTrap c r.toNat exILLEGAL word))
      ∧ (∀ (imm : BitVec 12) (a : Word), a = (s.role c r.toNat).reg rs1.toNat + BitVec.ofInt 32 imm.toInt →
          (a.toNat % 4 ≠ 0 → exec (.ldp c r rd rs1 imm) s = .next (s.engTrap c r.toNat exLOADALIGN a))
          ∧ (a.toNat % 4 = 0 → a.toNat < 0x40000 ∨ 0x51000 ≤ a.toNat → exec (.ldp c r rd rs1 imm) s = .next (s.accessFault c r.toNat exLOAD a))
          ∧ (∀ v st, a.toNat % 4 = 0 → a.toNat / 0x10000 = 4 → s.ldpPayload c (a.toNat % 0x10000) = (v, st, none) → st = stNONE →
              exec (.ldp c r rd rs1 imm) s = .next (s.withRole c r.toNat fun k => ({ k with kstat := st } : Role).result rd.toNat v 4))
          ∧ (∀ v p, a.toNat % 4 = 0 → a.toNat / 0x10000 = 4 → s.ldpPayload c (a.toNat % 0x10000) = (v, stPROVISIONAL, some p) →
              exec (.ldp c r rd rs1 imm) s = .next (((s.withRole c r.toNat fun k => ({ k with kstat := stPROVISIONAL } : Role).result rd.toNat v 4).each (s.pairOf c)
                fun k s => s.count (LOAF.PROV_READ_CNT k)).withRole c r.toNat fun k => { k with tainted := true, readMap := insertNat p k.readMap }))))
    ∧ (s.engRuns c r.toNat = false → ∀ sx sat mode imm, exec (.bfx c r rd rs1 off w1 sx) s = .next s ∧ exec (.bfi c r rd rs1 off w1) s = .next s
        ∧ exec (.sscl c r rd rs1 rs2 sat sh) s = .next s ∧ exec (.bswap c r rd rs1 mode) s = .next s ∧ exec (.ldp c r rd rs1 imm) s = .next s)

/-- What the Xknd instructions compute (R232): BFX moves the field at `off` down and fills the bits above with 0 or with the field's top bit; BFI replaces
exactly that field; SSCL stays in the range of its code; BSWAP mode 0 reverses the bytes. -/
def Obligations.XkndArithmetic : Prop :=
  (∀ (x : Word) (off w i : Nat), i < 32 → off < 32 → 1 ≤ w → off + w ≤ 32 →
      (bfxOf x off w false).getLsbD i = (decide (i < w) && x.getLsbD (off + i))
      ∧ (bfxOf x off w true).getLsbD i = if i < w then x.getLsbD (off + i) else x.getLsbD (off + w - 1))
  ∧ (∀ (old x : Word) (off w i : Nat), i < 32 →
      (bfiOf old x off w).getLsbD i = if off ≤ i ∧ i < off + w then x.getLsbD (i - off) else old.getLsbD i)
  ∧ (∀ (x y : Word) (sh : Nat), -32768 ≤ (ssclOf x y 1 sh).toInt ∧ (ssclOf x y 1 sh).toInt ≤ 32767 ∧ (ssclOf x y 2 sh).toNat ≤ 65535)
  ∧ (∀ (x : Word) (i : Nat), i < 4 → byteOf (bswapOf x 0) i = byteOf x (3 - i))

/-- Instructions of the engine's own (R226, R228, R240, R241, R246, R251): WFT returns at once with bits already pending and waits otherwise, and a WFT
for the tick seals the release queue; WFT_RETURN answers a wait; EBREAK halts and reports the pc; loads and stores give a value of the role's own
DTCM, trap off their alignment, and are refused where nothing lies; a 32-bit or 16-bit RV32IMC instruction is fetched from the ITCM and executed, or
traps as illegal; the machine external interrupt, where enabled, saves the pc in mepc, the cause 11 in mcause and traps to mtvec, out of a wait as
well, and changes nothing otherwise. An engine that does not run executes none of these instructions. -/
def Obligations.EngineInstructions : Prop :=
  ∀ (s : State) (c : Line) (r : BitVec 4) (rd rs1 : BitVec 5),
    (s.engRuns c r.toNat = true → ∀ mask, mask = ((s.role c r.toNat).reg rs1.toNat).toNat →
        (bitOf mask 16 = false → (s.role c r.toNat).pending &&& mask ≠ 0 → exec (.wft c r rd rs1) s = .next (s.wftReturns c r.toNat mask rd.toNat))
        ∧ (bitOf mask 16 = false → (s.role c r.toNat).pending &&& mask = 0 →
            exec (.wft c r rd rs1) s = .next (s.withRole c r.toNat fun k => { k with st := .waiting, waitFor := some (mask, rd.toNat) }))
        ∧ (∀ u, bitOf mask 16 = true → u = s.withRole c r.toNat (fun k => { k with sealed_ := true, idleTicks := 0 }) →
            ((u.role c r.toNat).pending &&& mask ≠ 0 → exec (.wft c r rd rs1) s = .next (u.wftReturns c r.toNat mask rd.toNat))
            ∧ ((u.role c r.toNat).pending &&& mask = 0 →
                exec (.wft c r rd rs1) s = .next (u.withRole c r.toNat fun k => { k with st := .waiting, waitFor := some (mask, rd.toNat) }))))
    ∧ (∀ mask reg, s.engServes c r.toNat = true → (s.role c r.toNat).st = .waiting → (s.role c r.toNat).waitFor = some (mask, reg) →
        ((s.role c r.toNat).pending &&& mask = 0 → exec (.wftReturn c r) s = .next s)
        ∧ ((s.role c r.toNat).pending &&& mask ≠ 0 → exec (.wftReturn c r) s = .next ((s.leaveWait c r.toNat).wftReturns c r.toNat mask reg)))
    ∧ (s.engRuns c r.toNat = true → exec (.ebreak c r) s = .next ((s.atEngine c r.toNat fun k i t =>
        (t.set (ENG.HALT_PC k i) (s.role c r.toNat).pc.toNat).raise (.eng k i) 16).withRole c r.toNat fun k => { k with st := .halted }))
    ∧ (∀ (addr : Word) (size : BitVec 2) (zext : Bool), s.engRuns c r.toNat = true →
        (addr.toNat % accessBytes size.toNat ≠ 0 → exec (.engineLoad c r rd addr size zext) s = .next (s.engTrap c r.toNat exLOADALIGN addr)
          ∧ ∀ v, exec (.engineStore c r addr size v) s = .next (s.engTrap c r.toNat exSTOREALIGN addr))
        ∧ (∀ off, addr.toNat % accessBytes size.toNat = 0 → engPlace addr.toNat = .dtcm off →
            exec (.engineLoad c r rd addr size zext) s = .next (s.engResult c r.toNat rd.toNat
              (extendTo (accessBytes size.toNat) (s.leAt (tcmD c r.toNat + off) (accessBytes size.toNat)) zext) 4)
            ∧ ∀ v : Word, exec (.engineStore c r addr size v) s = .next ((s.each (s.pairOf c) fun k s => s.setBytes (tcmD k r.toNat + off)
                (leBytes (accessBytes size.toNat) (v.toNat % 256 ^ accessBytes size.toNat))).withRole c r.toNat fun k => k.retire (k.pc + 4)))
        ∧ (addr.toNat % accessBytes size.toNat = 0 → engPlace addr.toNat = .nothing →
            exec (.engineLoad c r rd addr size zext) s = .next (s.accessFault c r.toNat exLOAD addr)
            ∧ ∀ v, exec (.engineStore c r addr size v) s = .next (s.accessFault c r.toNat exSTORE addr)))
    ∧ (∀ pc h, pc = (s.role c r.toNat).pc.toNat → h = s.leAt (tcmI c r.toNat + pc) 2 → s.engRuns c r.toNat = true →
        (0x10000 ≤ pc ∨ (h % 4 = 3 ∧ 0x10000 < pc + 4) → exec (.rv32imcInstruction c r) s = .next (s.accessFault c r.toNat exFETCH (BitVec.ofNat 32 pc)))
        ∧ (∀ i, pc + 4 ≤ 0x10000 → h % 4 = 3 → decode32 (s.leAt (tcmI c r.toNat + pc) 4) = some i →
            exec (.rv32imcInstruction c r) s = .next (s.rvExec c r.toNat 4 (BitVec.ofNat 32 (s.leAt (tcmI c r.toNat + pc) 4)) i))
        ∧ (∀ i, pc < 0x10000 → h % 4 ≠ 3 → decode16 h = some i →
            exec (.rv32imcInstruction c r) s = .next (s.rvExec c r.toNat 2 (BitVec.ofNat 32 h) i))
        ∧ (pc < 0x10000 → h % 4 ≠ 3 → decode16 h = none →
            exec (.rv32imcInstruction c r) s = .next (s.engTrap c r.toNat exILLEGAL (BitVec.ofNat 32 h)))
        ∧ (pc + 4 ≤ 0x10000 → h % 4 = 3 → decode32 (s.leAt (tcmI c r.toNat + pc) 4) = none →
            exec (.rv32imcInstruction c r) s = .next (s.engTrap c r.toNat exILLEGAL (BitVec.ofNat 32 (s.leAt (tcmI c r.toNat + pc) 4)))))
    ∧ (s.engServes c r.toNat = true → (s.role c r.toNat).st = .running → (s.role c r.toNat).interrupted = true →
        exec (.machineExternalInterrupt c r) s = .next (s.withRole c r.toNat fun k => k.trap true 11 0))
    ∧ (s.engServes c r.toNat = true → (s.role c r.toNat).st = .waiting → (s.role c r.toNat).interrupted = true →
        exec (.machineExternalInterrupt c r) s = .next ((s.leaveWait c r.toNat).withRole c r.toNat fun k => k.trap true 11 0))
    ∧ (∀ (k : Role) (tv : Nat), tv = (k.csr csrMTVEC).toNat → (k.trap true 11 0).pc = BitVec.ofNat 32 (if tv % 4 = 1 then tv / 4 * 4 + 44 else tv / 4 * 4)
        ∧ (k.trap true 11 0).csr csrMEPC = k.pc ∧ (k.trap true 11 0).csr csrMCAUSE = 0x8000000B ∧ (k.trap true 11 0).st = .running)
    ∧ ((s.role c r.toNat).interrupted = false → exec (.machineExternalInterrupt c r) s = .next s)
    ∧ (s.engRuns c r.toNat = false → ∀ addr size zext v, exec (.wft c r rd rs1) s = .next s ∧ exec (.ebreak c r) s = .next s
        ∧ exec (.engineLoad c r rd addr size zext) s = .next s ∧ exec (.engineStore c r addr size v) s = .next s ∧ exec (.rv32imcInstruction c r) s = .next s)

/-- Events, mailbox and semaphores (R236, R238, R242, R249, R250): EVQ_POP gives the oldest event, 0 when empty; the outbound doorbell (State.ringOut) and
the inbound acknowledge (State.ackIn) act at once, or are queued as stores while the engine is tainted; IN_DB sets IN_FULL, OUT_ACK clears OUT_FULL,
each with an event, and on a page without a role both are only counted; a load takes a free semaphore and reads its holder plus 1 otherwise, and only
the holder's store of 0 frees it. -/
def Obligations.EngineMessages : Prop :=
  ∀ (s : State) (c : Line) (r : BitVec 4) (rd : BitVec 5) (k : BitVec 6) (i : BitVec 4),
    (s.engRuns c r.toNat = true →
      ((s.role c r.toNat).evq = [] → exec (.evqPop c r rd) s = .next (s.engResult c r.toNat rd.toNat 0 4))
      ∧ (∀ w t, (s.role c r.toNat).evq = w :: t → exec (.evqPop c r rd) s = .next ((s.withRole c r.toNat fun k =>
          ({ k with evq := t } : Role).refill).engResult c r.toNat rd.toNat w 4))
      ∧ ((s.role c r.toNat).tainted = false →
          exec (.mboxOutDb c r) s = .next ((s.ringOut c r.toNat).withRole c r.toNat fun k => k.retire (k.pc + 4))
          ∧ exec (.mboxInAck c r) s = .next ((s.ackIn c r.toNat).withRole c r.toNat fun k => k.retire (k.pc + 4)))
      ∧ ((s.role c r.toNat).tainted = true →
          exec (.mboxOutDb c r) s = .next ((s.queueStore c r.toNat 0x000F0040 [1, 0, 0, 0]).withRole c r.toNat fun k => k.retire (k.pc + 4))
          ∧ exec (.mboxInAck c r) s = .next ((s.queueStore c r.toNat 0x000F0080 [1, 0, 0, 0]).withRole c r.toNat fun k => k.retire (k.pc + 4)))
      ∧ ((s.sems c).getD k.toNat 0 = 0 →
          exec (.semaphoreLoad c r rd k) s = .next ((s.setSem c k.toNat (r.toNat + 1)).engResult c r.toNat rd.toNat 0 4))
      ∧ ((s.sems c).getD k.toNat 0 ≠ 0 →
          exec (.semaphoreLoad c r rd k) s = .next (s.engResult c r.toNat rd.toNat (BitVec.ofNat 32 ((s.sems c).getD k.toNat 0)) 4))
      ∧ ((s.sems c).getD k.toNat 0 = r.toNat + 1 →
          exec (.semaphoreStore c r k 0) s = .next ((s.setSem c k.toNat 0).withRole c r.toNat fun k => k.retire (k.pc + 4)))
      ∧ (∀ v : Word, (s.sems c).getD k.toNat 0 ≠ r.toNat + 1 ∨ v ≠ 0 →
          exec (.semaphoreStore c r k v) s = .next (s.withRole c r.toNat fun k => k.retire (k.pc + 4))))
    ∧ (∀ q, s.powered (.eng c i.toNat) = true → s.leads c = true → s.roleAt c i.toNat = some q →
        exec (.inDb c i) s = .next ((s.atEngine c q fun k j s => s.updateFlag (ENG.MBOX_CTRL_IN_FULL k j)).pushEvent c q evMBOX_IN 0)
        ∧ exec (.outAck c i) s = .next ((s.atEngine c q fun k j s => s.clearField (ENG.MBOX_CTRL_OUT_FULL k j)).pushEvent c q evMBOX_ACK 0))
    ∧ (s.powered (.eng c i.toNat) = true → s.leads c = true → s.roleAt c i.toNat = none →
        exec (.inDb c i) s = .next (s.count (ENG.MBOX_NOROLE_CNT c i.toNat)) ∧ exec (.outAck c i) s = .next (s.count (ENG.MBOX_NOROLE_CNT c i.toNat)))

/-- R250: the semaphores lie at 0x000F_0100 and on; a load returns 0 and takes a free one for its role, or returns the holder's role plus 1 and changes
nothing; a store of 0 by the holder frees it and any other store is ignored; a role that moves keeps its semaphores; one that is lost frees them and
no others. -/
def Obligations.SemaphoreHasOneHolder : Prop :=
  ∀ (s : State) (c : Line) (r q k : Nat), (s.sems c).length = 64 → c ∈ s.pairOf c → k < 64 → r < 15 → q < 15 →
    engPlace (0x000F0100 + 4 * k) = .sem k
    ∧ ((s.sems c).getD k 0 = 0 → ∃ t, s.semLoad c r k = (0, t) ∧ (t.sems c).getD k 0 = r + 1 ∧ (∀ j, j ≠ k → (t.sems c).getD j 0 = (s.sems c).getD j 0)
        ∧ t.semLoad c q k = (BitVec.ofNat 32 (r + 1), t) ∧ t.regs = s.regs ∧ t.mem = s.mem)
    ∧ ((s.sems c).getD k 0 ≠ 0 → s.semLoad c r k = (BitVec.ofNat 32 ((s.sems c).getD k 0), s))
    ∧ ((s.sems c).getD k 0 = r + 1 → ((s.semStore c r k 0).sems c).getD k 0 = 0 ∧ ∀ j, j ≠ k → ((s.semStore c r k 0).sems c).getD j 0 = (s.sems c).getD j 0)
    ∧ (∀ v : Word, v ≠ 0 ∨ (s.sems c).getD k 0 ≠ r + 1 → s.semStore c r k v = s)
    ∧ (∀ planned, (s.spareTakes c r planned).sems c = s.sems c)
    ∧ (∀ e, s.engineOf c r = some e → ((s.loseRole c r).sems c).getD k 0 = if (s.sems c).getD k 0 = r + 1 then 0 else (s.sems c).getD k 0)

/-- DMA, planned moves and the control of engines (R247, R248, R253, R255, R258): GO marks a descriptor that is not busy as busy and clears its error,
held where a tainted engine writes outside its channel; DMA_DONE ends the running one with its copy and its event, with an error where its length or
addresses are wrong or the copy is refused, and leaves it running while the copy must wait; a planned move starts only in the idle phase; the watchdog
restarts a role after WDT ticks without a sign of life, counted, and WARM does so without counting, either at WARM_ENTRY with an empty release queue;
RUN starts a role with an image at COLD_ENTRY with an empty event queue, and its clearing halts it. -/
def Obligations.DmaAndRunCommands : Prop :=
  ∀ (s : State) (c : Line) (r : BitVec 4) (i : BitVec 4) (d : BitVec 2),
    (s.engRuns c r.toNat = true → ((s.role c r.toNat).dmaAt d.toNat).busy = false →
        exec (.dmaGo c r d) s = .next ((s.withRole c r.toNat fun k => k.setDma d.toNat fun x =>
          { x with busy := true, err := false, held := k.tainted && leavesChannel x.dst, bank := s.viewBank c r.toNat }).withRole c r.toNat fun k => k.retire (k.pc + 4)))
    ∧ (s.engServes c r.toNat = true → (s.role c r.toNat).dmaRunning = some d.toNat → ((s.role c r.toNat).dmaAt d.toNat).len = 0 →
        exec (.dmaDone c r d) s = .next ((s.withRole c r.toNat fun k => k.setDma d.toNat fun x =>
          { x with busy := false, err := true }).pushEvent c r.toNat evDMA (d.toNat + 16)))
    ∧ (∀ (x : Dma) (e : CopyEnd) (t : State), x = (s.role c r.toNat).dmaAt d.toNat → s.engServes c r.toNat = true → (s.role c r.toNat).dmaRunning = some d.toNat →
        x.len % 4 = 0 → 4 ≤ x.len → x.len ≤ 65536 → x.src.toNat % 4 = 0 → x.dst.toNat % 4 = 0 →
        s.dmaCopy c r.toNat x.bank (x.len / 4) x.src.toNat x.dst.toNat = (e, t) →
        (e = .whole → exec (.dmaDone c r d) s = .next ((t.withRole c r.toNat fun k => k.setDma d.toNat fun x =>
          { x with busy := false, err := false }).pushEvent c r.toNat evDMA d.toNat))
        ∧ (e = .refused → exec (.dmaDone c r d) s = .next ((t.withRole c r.toNat fun k => k.setDma d.toNat fun x =>
          { x with busy := false, err := true }).pushEvent c r.toNat evDMA (d.toNat + 16)))
        ∧ (e = .waits → exec (.dmaDone c r d) s = .next s))
    ∧ ((s.role c r.toNat).dmaRunning ≠ some d.toNat → exec (.dmaDone c r d) s = .next s)
    ∧ (∀ q e, (s.rotation (lineBit c)).target.bind (s.roleAt c) = some q → s.spareEngine c = some e → s.pairOf c = [c] → s.leads c = true →
        s.engServes c q = true → s.live (.eng c e) = true → s.get (ENG.ENG_STAT_STATE c e) = 3 → (∀ m ∈ s.engMoves, m.chan ≠ c) → s.phase = 2 →
        8000 ≤ s.get CYC.IDLE_LEN → (s.role c q).movable = true →
        exec (.plannedMove c) s = .next { s.set (ENG.ENG_STAT_STATE c e) 6 with engMoves := s.engMoves ++ [⟨c, q, true, s.ltcNs, 0, false⟩] })
    ∧ (s.phase ≠ 2 → exec (.plannedMove c) s = .next s)
    ∧ (∀ e, s.roleOn c r.toNat = true → s.engineOf c r.toNat = some e → s.get (ENG.WDT c e) ≠ 0 → s.get (ENG.WDT c e) ≤ (s.role c r.toNat).idleTicks →
        exec (.engWdt c r) s = .next ((s.countRole c r.toNat ENG.WDT_CNT 12).restartWarm c r.toNat))
    ∧ (∀ (u : State) (q : Nat) (cold warm : Word), (u.role c q).image = some (cold, warm) →
        u.restartWarm c q = (((u.leaveWait c q).withRole c q fun k => { k with relq := [] }).withRole c q fun k =>
          { k with st := .running, waitFor := none, pc := warm, idleTicks := 0 }).pushEvent c q evSTART 2)
    ∧ (∀ e, s.engineOf c r.toNat = some e → s.get (ENG.WDT c e) = 0 ∨ (s.role c r.toNat).idleTicks < s.get (ENG.WDT c e) → exec (.engWdt c r) s = .next s)
    ∧ (∀ q, s.powered (.eng c i.toNat) = true → s.roleAt c i.toNat = some q → s.roleOn c q = true →
        exec (.engWarm c i) s = .next (s.restartWarm c q))
    ∧ (s.roleAt c i.toNat = none → exec (.engWarm c i) s = .next s)
    ∧ (∀ (on : Bool) (t : State), s.powered (.eng c i.toNat) = true → t = s.each (s.pairOf c) (fun k s => s.setFlag (ENG.ENG_CTRL_RUN k i.toNat) on) →
        (t.roleAt c i.toNat = none → exec (.engRun c i on) s = .next t)
        ∧ (∀ q, t.roleAt c i.toNat = some q → on = false →
            exec (.engRun c i on) s = .next ((t.leaveWait c q).withRole c q fun k => { k with st := .halted, waitFor := none }))
        ∧ (∀ q cold warm, t.roleAt c i.toNat = some q → on = true → s.flag (ENG.ENG_CTRL_RUN c i.toNat) = false → (t.role c q).image = some (cold, warm) →
            t.live (.eng c i.toNat) = true → exec (.engRun c i on) s = .next (((t.withRole c q fun k => { k with evq := [], held := [] }).withRole c q fun k =>
              { k with st := .running, waitFor := none, pc := cold, idleTicks := 0 }).pushEvent c q evSTART 0)))

/-! The Ethernet and the switch (spec/09_ethernet_ports_and_switch.md). -/

/-- Ports of the switch (R263, R270 to R272, R279 to R281, R290): a frame too short, too long or with a wrong FCS is counted and dropped, another reaches
the switch; a port that does not run takes and sends nothing; a frame that waits at the head of its queue for a whole cycle is discarded and counted;
the gate list steps on, each entry at the end of its interval, until it ends; a swap is asked for per port. A PAUSE frame pauses the port, quanta 0
releases it; the pause ends at its time or by the watchdog, which starts a hold-off; a link change is taken once. -/
def Obligations.EthernetPortCommands : Prop :=
  ∀ (s : State) (q : BitVec 4) (m : BitVec 3) (g : BitVec 3) (bytes : List Byte) (sof : BitVec 64),
    (q.toNat < 12 → s.portOn q.toNat = true → bytes ≠ [] →
      (∀ ok, bytes.length < 64 → exec (.frameRx q bytes ok sof) s = .next (s.frameError q.toNat MAC.RUNT_CNT))
      ∧ (∀ ok, 64 ≤ bytes.length → s.maxFrame q.toNat < bytes.length → exec (.frameRx q bytes ok sof) s = .next (s.frameError q.toNat MAC.OVERSIZE_CNT))
      ∧ (64 ≤ bytes.length → bytes.length ≤ s.maxFrame q.toNat → exec (.frameRx q bytes false sof) s = .next (s.frameError q.toNat MAC.CRC_ERR_CNT))
      ∧ (∀ (e : Eth) (t : State), e = Eth.ofBytes (bytes.take (bytes.length - 4)) → t = s.count (MAC.RX_FRAMES q.toNat) → 64 ≤ bytes.length →
          bytes.length ≤ s.maxFrame q.toNat → isBackbone q.toNat = false → beAt e.body 0 2 ≠ 0x8808 → e.etype ≠ 0x88F7 → t.switchOn = true →
          exec (.frameRx q bytes true sof) s = .next (t.ingress q.toNat e bytes.length sof none none).1))
    ∧ (s.portOn q.toNat = false → ∀ ok sfd quanta, exec (.frameRx q bytes ok sof) s = .next s ∧ exec (.frameTxStart q sfd) s = .next s
        ∧ exec (.pauseFrameRx q quanta) s = .next s ∧ exec (.pauseExpiry q) s = .next s ∧ exec (.pauseStorm q) s = .next s
        ∧ exec (.pauseStormEnd q) s = .next s)
    ∧ (∀ sfd, q.toNat < 12 → s.live .sw = true → s.portOn q.toNat = true → s.flag (MAC.MAC_STAT_LINK q.toNat) = true →
        s.flag (MAC.MAC_STAT_PAUSED q.toNat) = false → s.failSilent = false → (s.swPort q.toNat).busyUntil.toNat ≤ s.ltcNs.toNat →
        exec (.frameTxStart q sfd) s = .next (s.startFrame q.toNat sfd))
    ∧ (∀ x, (s.queueOf q.toNat g.toNat).head? = some x → s.live .sw = true → s.cycleLen ≤ (s.ltcNs - x.headAt).toNat →
        exec (.gateDrop q g) s = .next ((s.discard x).count SW.GATE_DROP_CNT))
    ∧ (∀ x, (s.queueOf q.toNat g.toNat).head? = some x → (s.ltcNs - x.headAt).toNat < s.cycleLen → exec (.gateDrop q g) s = .next s)
    ∧ (q.toNat < 12 → s.live .sw = true → (s.swPort q.toNat).entry + 1 < (s.gclList q.toNat (s.gclBank q.toNat)).length → s.entryOver q.toNat = true →
        exec (.gclEntryExpiry q) s = .next (s.withPort q.toNat fun p => { p with entry := p.entry + 1 }))
    ∧ ((s.gclList q.toNat (s.gclBank q.toNat)).length ≤ (s.swPort q.toNat).entry + 1 ∨ s.entryOver q.toNat = false → exec (.gclEntryExpiry q) s = .next s)
    ∧ (s.powered .sw = true → ∀ mask, exec (.gclSwap mask) s = .next (s.update SW.GCL_CTRL fun v => v ||| mask.toNat))
    ∧ (q.toNat < 12 → s.portOn q.toNat = true → isBackbone q.toNat = false → s.flag (MAC.MAC_CTRL_PAUSE_RX_EN q.toNat) = true → ∀ (t : State) (quanta : BitVec 16),
        t = s.count (MAC.PAUSE_RX_CNT q.toNat) → t.flag (MAC.MAC_CTRL_PAUSE_RX_EN q.toNat) = true → t.flag (MAC.MAC_STAT_HOLDOFF q.toNat) = false →
        (quanta = 0 → exec (.pauseFrameRx q quanta) s = .next (t.set (MAC.MAC_STAT_PAUSED q.toNat) 0))
        ∧ (quanta ≠ 0 → t.flag (MAC.MAC_STAT_PAUSED q.toNat) = false → exec (.pauseFrameRx q quanta) s = .next ((t.withPort q.toNat fun p => { p with
            pauseUntil := s.ltcNs + BitVec.ofNat 64 (wireNs (t.ifCode q.toNat) (64 * quanta.toNat)), pauseSince := s.ltcNs }).set (MAC.MAC_STAT_PAUSED q.toNat) 1)))
    ∧ (q.toNat < 12 → s.portOn q.toNat = true →
        ((s.swPort q.toNat).pauseUntil.toNat ≤ s.ltcNs.toNat → exec (.pauseExpiry q) s = .next (s.set (MAC.MAC_STAT_PAUSED q.toNat) 0))
        ∧ (s.flag (MAC.MAC_STAT_PAUSED q.toNat) = true → s.get (MAC.PAUSE_WD_WD q.toNat) * 1000000 ≤ (s.ltcNs - (s.swPort q.toNat).pauseSince).toNat →
            ∃ t, exec (.pauseStorm q) s = .next t ∧ (t.swPort q.toNat).pauseUntil = (s.swPort q.toNat).pauseUntil ∧ t.mem = s.mem ∧ t.sent = s.sent
              ∧ t.get (MAC.MAC_STAT_PAUSED q.toNat) = 0 ∧ t.get (MAC.MAC_STAT_HOLDOFF q.toNat) = 1
              ∧ t.get (MAC.PAUSE_STORM_CNT q.toNat) = min (s.get (MAC.PAUSE_STORM_CNT q.toNat) + 1) (2 ^ (MAC.PAUSE_STORM_CNT q.toNat).width - 1))
        ∧ (s.flag (MAC.MAC_STAT_HOLDOFF q.toNat) = true → (s.swPort q.toNat).holdoffUntil.toNat ≤ s.ltcNs.toNat →
            exec (.pauseStormEnd q) s = .next ((s.set (MAC.MAC_STAT_HOLDOFF q.toNat) 0).raiseMac q.toNat 2))
        ∧ (∀ at_, (s.swPort q.toNat).pausing = some at_ → s.flag (MAC.MAC_CTRL_PAUSE_TX_EN q.toNat) = true →
            s.get (MAC.PAUSE_THR_XON q.toNat) < s.cellsFrom q.toNat →
            wireNs (s.ifCode q.toNat) (32 * s.get (MAC.PAUSE_TX_QUANTA q.toNat)) ≤ (s.ltcNs - at_).toNat →
            exec (.pauseTxRepeat q) s = .next ((s.sendPause q.toNat (s.get (MAC.PAUSE_TX_QUANTA q.toNat))).withPort q.toNat fun p =>
              { p with pausing := some s.ltcNs })))
    ∧ ((s.swPort q.toNat).pausing = none → exec (.pauseTxRepeat q) s = .next s)
    ∧ (∀ up, s.powered (.mac m.toNat) = true → s.flag (MAC.MAC_STAT_LINK m.toNat) ≠ up → ∀ t, t = (s.setFlag (MAC.MAC_STAT_LINK m.toNat) up).raiseMac m.toNat 0 →
        exec (.consistLinkChange m up) s = .next (t.set (MAC.MAC_STAT_IF_ACT m.toNat) (if up then t.get (MAC.MAC_CTRL_IF m.toNat) else 0)))
    ∧ exec (.consistLinkChange m (s.flag (MAC.MAC_STAT_LINK m.toNat))) s = .next s

/-- Tables and rings of the switch (R265, R266, R273 to R276, R283, R285, R288): an address not refreshed for AGE seconds leaves the table; a tail write
moves the tail of a ring; a descriptor and a telegram are sent only while the switch is enabled, the telegram once in each cycle that its entry
selects, from its offset on; ETB_EN is refused, counted as such, unless both lines are OFF; an idle sequence recovery takes any number again. -/
def Obligations.SwitchCommands : Prop :=
  ∀ s : State,
    (∀ (e : BitVec 13) (x : FdbEntry), (s.switch.fdb.find? fun y => y.index = e.toNat) = some x → s.live .sw = true →
        (s.get SW.SW_CTRL_AGE ≤ s.fdbAge x → exec (.fdbAgeOut e) s = .next ((s.withSwitch fun y => { y with
          fdb := y.fdb.filter fun z => z != x }).set SW.FDB_CNT (s.switch.fdb.length - 1)))
        ∧ (s.fdbAge x < s.get SW.SW_CTRL_AGE → exec (.fdbAgeOut e) s = .next s))
    ∧ (∀ (g : BitVec 6) (tail : BitVec 16), s.powered .sw = true → g.toNat < 48 →
        exec (.ringTailWrite g tail) s = .next ((s.set (SW.RING_PTR_TAIL g.toNat) tail.toNat).fetchDescs g.toNat))
    ∧ (∀ (g : BitVec 6) (d : HeadDesc), s.switchOn = true → g.toNat < 48 → g.toNat % 16 < 8 → (∀ a ∈ s.switch.awaiting, a.ring ≠ g.toNat) →
        (s.headDesc g.toNat = none → exec (.txDescDone g) s = .next s)
        ∧ (s.headDesc g.toNat = some none → exec (.txDescDone g) s = .next (s.finishTx g.toNat ⟨0, 0, none⟩ none (2 ^ 28)))
        ∧ (∀ data, s.headDesc g.toNat = some (some d) → d.data = some (some data) → d.word2 % 2 ^ 14 = 0 →
            exec (.txDescDone g) s = .next ((s.finishTx g.toNat d none (2 ^ 29)).countRaise SW.TX_LEN_CNT .sw 16))
        ∧ (∀ data e skip t, s.headDesc g.toNat = some (some d) → d.data = some (some data) → d.word2 % 2 ^ 14 ≠ 0 → d.word2 % 2 ^ 14 ≤ s.maxFrame 12 - 4 →
            bitOf d.word2 27 = false → (Eth.ofBytes data).insertSums (bitOf d.word2 30) (bitOf d.word2 29) (bitOf d.word2 28) (s.get SW.TRDP_CFG_PORT) = (e, skip) →
            s.ingress (12 + g.toNat / 16) e (d.word2 % 2 ^ 14 + 4) s.ttcNs (some (g.toNat % 16)) (some g.toNat) = (t, true) →
            exec (.txDescDone g) s = .next (t.finishTx g.toNat d none (2 ^ 30 + if skip then 2 ^ 26 else 0))))
    ∧ (∀ e : BitVec 9, s.switchOn = true → s.trdpSelected e.toNat s.cycle = true → (s.beNat (trdpTx e.toNat + 28) 4 : Int) ≤ s.sinceTick → s.switch.fired.contains e.toNat = false →
        exec (.trdpTxFetch e) s = .next (s.sendTelegram e.toNat))
    ∧ (∀ e : BitVec 9, s.trdpSelected e.toNat s.cycle = false ∨ s.sinceTick < (s.beNat (trdpTx e.toNat + 28) 4 : Int) ∨ s.switch.fired.contains e.toNat = true → exec (.trdpTxFetch e) s = .next s)
    ∧ (s.switchOn = false → ∀ e g, exec (.trdpTxFetch e) s = .next s ∧ exec (.txDescDone g) s = .next s)
    ∧ (∀ on, s.powered .sw = true → s.flag SW.ETB_CTRL_ETB_EN ≠ on → s.bothOff = false → exec (.etbEnWrite on) s = .next (s.refuse .sw))
    ∧ (s.powered .sw = true → s.flag SW.ETB_CTRL_ETB_EN = false → s.bothOff = true → s.locked .sw = false →
        exec (.etbEnWrite true) s = .next (((((s.stampConfig .sw).setFlag SW.ETB_CTRL_ETB_EN true).enterLead.withTime fun t => { t with running := true })).recheckLines s))
    ∧ (∀ (fn : Byte) (w : Nat), w = s.beWord (recWord fn.toNat 1) % 2 ^ 16 → s.live .sw = true → bitOf (s.beWord (recWord fn.toNat 0)) 31 = true →
        (s.recoveryOf fn.toNat).takeAny = false → w * 1000000 ≤ (s.ltcNs - (s.recoveryOf fn.toNat).lastPass).toNat →
        exec (.cbReset fn) s = .next (((s.setRecovery ⟨fn.toNat, true, [], (s.recoveryOf fn.toNat).lastPass⟩).countWord
          (recWord fn.toNat 4)).countRaise SW.CB_RESET_CNT .sw 11))
    ∧ (∀ fn : Byte, (s.recoveryOf fn.toNat).takeAny = true → exec (.cbReset fn) s = .next s)

/-! CAN and MVB (spec/10_can_fd_and_mvb.md). -/

/-- The states of a CAN controller (R294, R295, R310; TEC and REC move as ISO 11898-1 counts them, log entry 35): enabled in OFF it integrates with both
counters cleared; 11 recessive bits take it on the bus; a restart is obeyed in BUS_OFF and ends in ERR_ACTIVE with BUS_ON raised; an error on the bus
is noted with its kind and phase, counted, and moves the transmitter's or the receiver's error count, but not while the controller only listens;
disabling ends the open requests and turns the controller OFF; listen-only ends the open requests, and its end integrates before the controller sends
again. In OFF none of this happens. -/
def Obligations.CanBusCommands : Prop :=
  ∀ (s : State) (c : BitVec 3),
    (s.powered (.can c.toNat) = true → s.canState c.toNat = cnOFF →
        exec (.canEnable c) s = .next (((s.setFlag (CAN.CAN_CTRL_EN c.toNat) true).setErrorCounts c.toNat 0 0).setCanState c.toNat cnINTEGRATING))
    ∧ (s.powered (.can c.toNat) = true →
        exec (.canDisable c) s = .next (((s.setFlag (CAN.CAN_CTRL_EN c.toNat) false).cancelAll c.toNat).setCanState c.toNat cnOFF))
    ∧ (s.canState c.toNat = cnINTEGRATING → exec (.canIntegrated c) s = .next ((s.setCanState c.toNat cnACTIVE).setErrorCounts c.toNat
        ((s.setCanState c.toNat cnACTIVE).get (CAN.CAN_STAT_TEC c.toNat)) ((s.setCanState c.toNat cnACTIVE).get (CAN.CAN_STAT_REC c.toNat))))
    ∧ (s.canState c.toNat = cnBUSOFF → exec (.restart c) s = .next (s.setCanState c.toNat cnRECOVERING))
    ∧ (s.canState c.toNat = cnRECOVERING →
        exec (.busOn c) s = .next (((s.setCanState c.toNat cnACTIVE).setErrorCounts c.toNat 0 0).raise (.can c.toNat) 15))
    ∧ (∀ (code : BitVec 3) (data : Bool) (f : CanFault) (u : State), s.canOnBus c.toNat = true →
        u = ((s.update (CAN.LAST_ERR_CODE c.toNat) fun _ => code.toNat).update (CAN.LAST_ERR_DATA c.toNat) fun _ => if data then 1 else 0).countRaise
          (CAN.PROTO_ERR_CNT c.toNat) (.can c.toNat) 19 →
        (u.flag (CAN.CAN_STAT_LISTEN_ACT c.toNat) = false →
          exec (.canError c code data true f) s = .next (u.setErrorCounts c.toNat (u.get (CAN.CAN_STAT_TEC c.toNat) + u.faultCount c.toNat code.toNat true f) (u.get (CAN.CAN_STAT_REC c.toNat)))
          ∧ exec (.canError c code data false f) s = .next (((u.setErrorCounts c.toNat (u.get (CAN.CAN_STAT_TEC c.toNat))
              (u.get (CAN.CAN_STAT_REC c.toNat) + u.faultCount c.toNat code.toNat false f)).settleCancels c.toNat fun _ => true).frameEnds c.toNat))
        ∧ (u.flag (CAN.CAN_STAT_LISTEN_ACT c.toNat) = true →
          exec (.canError c code data true f) s = .next u ∧ exec (.canError c code data false f) s = .next ((u.settleCancels c.toNat fun _ => true).frameEnds c.toNat)))
    ∧ (s.canListens c.toNat = true → s.flag (CAN.CAN_STAT_LISTEN_ACT c.toNat) = false →
        exec (.listenOnlyStart c) s = .next ((s.setFlag (CAN.CAN_STAT_LISTEN_ACT c.toNat) true).cancelAll c.toNat))
    ∧ (s.canListens c.toNat = false → s.flag (CAN.CAN_STAT_LISTEN_ACT c.toNat) = true →
        (s.setFlag (CAN.CAN_STAT_LISTEN_ACT c.toNat) false).canState c.toNat = cnACTIVE ∨ (s.setFlag (CAN.CAN_STAT_LISTEN_ACT c.toNat) false).canState c.toNat = cnPASSIVE →
        exec (.listenOnlyEnd c) s = .next ((s.setFlag (CAN.CAN_STAT_LISTEN_ACT c.toNat) false).setCanState c.toNat cnINTEGRATING))
    ∧ (s.canState c.toNat = cnOFF → exec (.canIntegrated c) s = .next s ∧ exec (.restart c) s = .next s ∧ exec (.busOn c) s = .next s
        ∧ ∀ code d t f, exec (.canError c code d t f) s = .next s)

/-- Reception by a CAN controller (R298 to R304): a frame goes to the lowest buffer whose filter takes it, else to a FIFO, else it is counted; an FD frame
with FD_EN 0 is ignored with PXE and a form error without; reading word 0 locks a receive buffer for the reader and reading the last data word frees
it; a lock that lasts LOCK_TMO µs is released, counted and reported; acknowledging takes at most what the FIFO holds. -/
def Obligations.CanReceptionCommands : Prop :=
  ∀ (s : State) (c : BitVec 3) (b : BitVec 6) (who : Requester),
    (∀ (f : CanFrame) (ts : BitVec 64), s.canOnBus c.toNat = true → f.fdf = false ∨ s.flag (CAN.CAN_CTRL_FD_EN c.toNat) = true →
        ∀ t, t = (s.countGoodRx c.toNat).settleCancels c.toNat (fun _ => true) →
        (∀ x, t.bufferFor c.toNat f = some x → exec (.canFrameRx c f ts) s = .next ((t.storeInBuffer c.toNat x f (ts - 25)).frameEnds c.toNat))
        ∧ (∀ x, t.bufferFor c.toNat f = none → t.fifoFor c.toNat f = some x → exec (.canFrameRx c f ts) s = .next ((t.storeInFifo c.toNat x.1 x.2 f (ts - 25)).frameEnds c.toNat))
        ∧ (t.bufferFor c.toNat f = none → t.fifoFor c.toNat f = none → exec (.canFrameRx c f ts) s = .next ((t.count (CAN.NOMATCH_CNT c.toNat)).frameEnds c.toNat)))
    ∧ (∀ (f : CanFrame) (ts : BitVec 64), s.canOnBus c.toNat = true → f.fdf = true → s.flag (CAN.CAN_CTRL_FD_EN c.toNat) = false →
        (s.flag (CAN.CAN_CTRL_PXE c.toNat) = true → exec (.canFrameRx c f ts) s = .next s)
        ∧ (s.flag (CAN.CAN_CTRL_PXE c.toNat) = false → exec (.canFrameRx c f ts) s = exec (.canError c 2 false false ⟨false, false, 0, false⟩) s))
    ∧ (∀ f ts, s.canOnBus c.toNat = false → exec (.canFrameRx c f ts) s = .next s)
    ∧ (s.live (.can c.toNat) = true → s.canRx c.toNat b.toNat = true → s.canLocked c.toNat b.toNat = false →
        ∃ t, exec (.canRxLock c b who) s = .next t ∧ t.canLocked c.toNat b.toNat = true ∧ t.mem = s.mem ∧ t.regs = s.regs
          ∧ t.sent = s.sent ++ [.regData who (canBuf c.toNat b.toNat) (BitVec.ofNat 32 (s.beWord (canBuf c.toNat b.toNat)))])
    ∧ (s.live (.can c.toNat) = true → ((s.can c.toNat).locks.any fun x => x.1 = b.toNat && x.2.1 = readerOf who) = true → ∀ a, a = canBuf c.toNat b.toNat + 12 + s.canDataLen c.toNat b.toNat →
        exec (.canRxUnlock c b who) s = .next ((s.emit (.regData who a (BitVec.ofNat 32 (s.beWord a)))).releaseLock c.toNat b.toNat))
    ∧ (∀ x ∈ (s.can c.toNat).locks, x.1 = b.toNat → s.get (CAN.CAN_CTRL_LOCK_TMO c.toNat) ≠ 0 →
        s.get (CAN.CAN_CTRL_LOCK_TMO c.toNat) * 1000 ≤ (s.ltcNs - x.2.2).toNat →
        exec (.lockTmo c b) s = .next ((s.releaseLock c.toNat b.toNat).countRaise (CAN.LOCK_TMO_CNT c.toNat) (.can c.toNat) 18))
    ∧ (s.canLocked c.toNat b.toNat = false ∨ s.get (CAN.CAN_CTRL_LOCK_TMO c.toNat) = 0 → exec (.lockTmo c b) s = .next s)
    ∧ (∀ (f : BitVec 1) (n : BitVec 6) (fill : Nat), s.powered (.can c.toNat) = true → fill = s.get (CAN.FIFO_STAT_FILL c.toNat f.toNat) →
        exec (.fifoAck c f n) s = .next ((s.set (CAN.FIFO_STAT_GET c.toNat f.toNat) ((s.get (CAN.FIFO_STAT_GET c.toNat f.toNat) + min n.toNat fill) % 32)).set
          (CAN.FIFO_STAT_FILL c.toNat f.toNat) (fill - min n.toNat fill)))

/-- Transmission by a CAN controller (R297, R305 to R309): a request sets a transmit buffer's pending bit and clears its status, but is only counted while
the controller listens; a flip and a cancel act on every buffer of the mask; a cancel ends the requests that have not started with CANCELLED and marks
the one that has; a periodic request is made once, in a cycle its entry selects, from its offset on; the end of an attempt acts on the frame that
arbitration took, at its start, and drops what could not be sent; a configuration write to an enabled buffer is ignored and counted unless it disables
the buffer, and disabling a transmit buffer ends its request. -/
def Obligations.CanTransmissionCommands : Prop :=
  ∀ (s : State) (c : BitVec 3) (b : BitVec 6) (late start : BitVec 64) (edges : List (BitVec 16)),
    (s.powered (.can c.toNat) = true → ∀ mask : BitVec 64,
        exec (.txReq c mask) s = .next (s.each (List.range 64) fun x t => if bitOf mask.toNat x then t.canRequest c.toNat x false else t)
        ∧ exec (.txFlip c mask) s = .next (s.each (List.range 64) fun x t => if bitOf mask.toNat x then t.flipNow (canObj c.toNat x) else t)
        ∧ exec (.txCancel c mask none late) s = .next (s.each (List.range 64) fun x t =>
            if mask.getLsbD x && bitOf (t.txPending c.toNat) x then t.endRequest c.toNat x (2 ^ 30) else t))
    ∧ (s.powered (.can c.toNat) = true → s.txChoice c.toNat late.toNat start = some b.toNat → bitOf (s.txPending c.toNat) b.toNat = true →
        exec (.txCancel c (BitVec.ofNat 64 (2 ^ b.toNat)) (some start) late) s = .next (s.set64 (CAN.TX_CANCEL_LO c.toNat) (CAN.TX_CANCEL_HI c.toNat)
          (withBit (s.get64 (CAN.TX_CANCEL_LO c.toNat) (CAN.TX_CANCEL_HI c.toNat)) b.toNat true)))
    ∧ (s.canTx c.toNat b.toNat = true →
        (s.flag (CAN.CAN_STAT_LISTEN_ACT c.toNat) = false → s.canRequest c.toNat b.toNat false
          = (s.setTxPending c.toNat (withBit (s.txPending c.toNat) b.toNat true)).setBeWord (canCfg c.toNat b.toNat + 12) 0)
        ∧ (s.flag (CAN.CAN_STAT_LISTEN_ACT c.toNat) = true → s.canRequest c.toNat b.toNat false = s.count (CAN.LISTEN_TX_CNT c.toNat)))
    ∧ (∀ (w div : Nat), w = s.canWord c.toNat b.toNat 1 → div = (if w / 2 ^ 16 % 1024 = 0 then 1024 else w / 2 ^ 16 % 1024) →
        s.live (.can c.toNat) = true → s.canTx c.toNat b.toNat = true → bitOf (s.canWord c.toNat b.toNat 0) 24 = true → s.valid = true →
        (s.canWord c.toNat b.toNat 2 : Int) ≤ s.sinceTick → s.cycle % div = w % 1024 → (s.can c.toNat).fired.contains b.toNat = false →
        exec (.canPeriodicReq c b) s = .next ((s.canRequest c.toNat b.toNat true).withCan c.toNat fun k => { k with fired := k.fired ++ [b.toNat] }))
    ∧ (s.canTx c.toNat b.toNat = false ∨ (s.can c.toNat).fired.contains b.toNat = true → exec (.canPeriodicReq c b) s = .next s)
    ∧ (∀ (out : TxOutcome) (u : State), s.canOnBus c.toNat = true → s.flag (CAN.CAN_STAT_LISTEN_ACT c.toNat) = false → s.failSilent = false →
        u = (s.settleCancels c.toNat fun t => decide (t.toNat < start.toNat)).dropUnsendable c.toNat late.toNat start →
        (∀ x, u.txChoice c.toNat late.toNat start = some x → exec (.canTxAttemptEnd c late ⟨start, edges, out⟩) s
            = .next (((((u.measureTdcv c.toNat x start edges).endAttempt c.toNat x start out).settleCancels c.toNat fun _ => true).withCan c.toNat fun k =>
              { k with settings := [] }).frameEnds c.toNat))
        ∧ (u.txChoice c.toNat late.toNat start = none → exec (.canTxAttemptEnd c late ⟨start, edges, out⟩) s
            = .next (((u.settleCancels c.toNat fun _ => true).withCan c.toNat fun k => { k with settings := [] }).frameEnds c.toNat)))
    ∧ (∀ out, s.flag (CAN.CAN_STAT_LISTEN_ACT c.toNat) = true ∨ s.failSilent = true → exec (.canTxAttemptEnd c late ⟨start, edges, out⟩) s = .next s)
    ∧ (s.powered (.can c.toNat) = true → s.canEn c.toNat b.toNat = false → ∀ (v : Word) (started : Option (BitVec 64)),
        exec (.canBufCfgWrite c b 0 v started late) s = .next ((if bitOf v.toNat 30 then s else s.clearWritten (canObj c.toNat b.toNat)).setBeWord (canCfg c.toNat b.toNat)
          (v.toNat / 2 ^ 22 * 2 ^ 22))
        ∧ exec (.canBufCfgWrite c b 1 v started late) s = .next (s.setBeWord (canCfg c.toNat b.toNat + 4) (v.toNat % 2 ^ 29))
        ∧ exec (.canBufCfgWrite c b 2 v started late) s = .next (s.setBeWord (canCfg c.toNat b.toNat + 8) v.toNat)
        ∧ exec (.canBufCfgWrite c b 3 v started late) s = .next s)
    ∧ (∀ (v : Word) (u : State), s.powered (.can c.toNat) = true → s.canEn c.toNat b.toNat = true → s.canTx c.toNat b.toNat = true → bitOf v.toNat 31 = false →
        u = (if bitOf (s.txPending c.toNat) b.toNat then s.endRequest c.toNat b.toNat (2 ^ 30) else s) →
        exec (.canBufCfgWrite c b 0 v none late) s = .next ((if bitOf v.toNat 30 then u else u.clearWritten (canObj c.toNat b.toNat)).setBeWord (canCfg c.toNat b.toNat)
          (v.toNat / 2 ^ 22 * 2 ^ 22)))
    ∧ (s.powered (.can c.toNat) = true → s.canEn c.toNat b.toNat = true → ∀ (w : BitVec 2) (v : Word) (started : Option (BitVec 64)), w ≠ 3 → (w = 0 → bitOf v.toNat 31 = true) →
        exec (.canBufCfgWrite c b w v started late) s = .next (s.count (CAN.CFG_IGN_CNT c.toNat)))

/-- The MVB (R312 to R318). A master frame judges the lines and ends the wait for a slave frame, and does nothing more where it is not valid on the
trusted line (R317). A valid one for a source port is answered with its live data and stamps the cycle, one with another function code is counted, a
listening controller counts what it does not send, the device status word answers F-code 15 for the own address, and one for a sink port makes the
controller wait; what a fail-silent device would send is not sent. The slave frame that follows is stored when it is good, of the port's size and in
its window, and triggers the jobs of the port; a bad one and one that does not fit are counted. A sink port that hears nothing for SINK_TMO goes stale
once. A flip puts staged data on the port, unless it holds provisional data or is held. -/
def Obligations.MvbCommands : Prop :=
  ∀ (s : State) (j : BitVec 1),
    (∀ (f : BitVec 4) (addr : BitVec 12) (seen : MvbMaster) (listens : Bool) (u t : State), s.live (.mvb j.toNat) = true → s.flag (MVB.MVB_CTRL_EN j.toNat) = true →
        u = (s.judgeLines j.toNat seen.validA seen.validB).withMvb j.toNat (fun k => { k with awaiting := none }) →
        listens = (u.count (MVB.MF_CNT j.toNat)).mvbListens j.toNat → t = (u.count (MVB.MF_CNT j.toNat)).setFlag (MVB.MVB_STAT_LISTEN_ACT j.toNat) listens →
        ((if s.flag (MVB.MVB_STAT_TRUSTED j.toNat) then seen.validB && s.mvbLine j.toNat 1 else seen.validA && s.mvbLine j.toNat 0) = false →
          exec (.mvbMasterFrameRx j f addr seen) s = .next u)
        ∧ ((if s.flag (MVB.MVB_STAT_TRUSTED j.toNat) then seen.validB && s.mvbLine j.toNat 1 else seen.validA && s.mvbLine j.toNat 0) = true →
          (4 < f.toNat → f.toNat ≠ 15 → exec (.mvbMasterFrameRx j f addr seen) s = .next t)
          ∧ (f = 15 → addr.toNat ≠ t.get (MVB.DEV_ADDR j.toNat) → exec (.mvbMasterFrameRx j f addr seen) s = .next t)
          ∧ (f = 15 → addr.toNat = t.get (MVB.DEV_ADDR j.toNat) → listens = false → t.failSilent = false →
              exec (.mvbMasterFrameRx j f addr seen) s = .next (t.emit (.mvbSlave j.toNat (t.get (MVB.MVB_CTRL_LINES j.toNat)) (bytesBE 2 (t.get (MVB.DSW j.toNat))))))
          ∧ (f = 15 → addr.toNat = t.get (MVB.DEV_ADDR j.toNat) → listens = true →
              exec (.mvbMasterFrameRx j f addr seen) s = .next (t.count (MVB.LISTEN_SKIP_CNT j.toNat)))
          ∧ (f.toNat ≤ 4 → t.mvbEntry j.toNat addr.toNat = none → exec (.mvbMasterFrameRx j f addr seen) s = .next t)
          ∧ (∀ e, f.toNat ≤ 4 → t.mvbEntry j.toNat addr.toNat = some e → t.mvbDir j.toNat e = 2 →
              exec (.mvbMasterFrameRx j f addr seen) s = .next (t.withMvb j.toNat fun k => { k with awaiting := some e }))
          ∧ (∀ e, f.toNat ≤ 4 → t.mvbEntry j.toNat addr.toNat = some e → t.mvbDir j.toNat e ≠ 2 → f.toNat ≠ t.mvbFcode j.toNat e →
              exec (.mvbMasterFrameRx j f addr seen) s = .next (t.count (MVB.FCODE_ERR_CNT j.toNat)))
          ∧ (∀ e, f.toNat ≤ 4 → t.mvbEntry j.toNat addr.toNat = some e → t.mvbDir j.toNat e ≠ 2 → f.toNat = t.mvbFcode j.toNat e →
              (listens = true → exec (.mvbMasterFrameRx j f addr seen) s = .next (t.count (MVB.LISTEN_SKIP_CNT j.toNat)))
              ∧ (listens = false → t.failSilent = true → exec (.mvbMasterFrameRx j f addr seen) s = .next t)
              ∧ (∀ v w, listens = false → t.failSilent = false → v = ((t.count (MVB.SF_TX_CNT j.toNat)).setBeWord (mvbCfg j.toNat e + 8) t.cycle).countEntry j.toNat e →
                  w = (t.count (MVB.SF_TX_CNT j.toNat)).setBeWord (mvbCfg j.toNat e + 8) t.cycle → v.failSilent = false →
                  exec (.mvbMasterFrameRx j f addr seen) s = .next (if seen.conflict
                    then (v.emit (.mvbSlave j.toNat (v.get (MVB.MVB_CTRL_LINES j.toNat)) (w.bytes (mvbData j.toNat e + 32) (mvbSize f.toNat)))).countRaise (MVB.CONFLICT_CNT j.toNat) (.mvb j.toNat) 12
                    else v.emit (.mvbSlave j.toNat (v.get (MVB.MVB_CTRL_LINES j.toNat)) (w.bytes (mvbData j.toNat e + 32) (mvbSize f.toNat))))))))
    ∧ (∀ (a b x : MvbRx) (inWindow : Bool) (t : State), s.live (.mvb j.toNat) = true → s.flag (MVB.MVB_CTRL_EN j.toNat) = true →
        x = (if s.flag (MVB.MVB_STAT_TRUSTED j.toNat) then (if s.mvbLine j.toNat 1 then b else .silent) else if s.mvbLine j.toNat 0 then a else .silent) →
        t = (s.judgeLines j.toNat (s.validSlave j.toNat inWindow a) (s.validSlave j.toNat inWindow b)).withMvb j.toNat (fun k => { k with awaiting := none }) →
        ((s.mvb j.toNat).awaiting = none ∨ x = .silent → exec (.mvbSlaveFrameRx j a b inWindow) s = .next t)
        ∧ (∀ e, (s.mvb j.toNat).awaiting = some e →
            (x = .bad → exec (.mvbSlaveFrameRx j a b inWindow) s = .next (t.countRaise (MVB.FRAME_ERR_CNT j.toNat) (.mvb j.toNat) 11))
            ∧ (∀ data, x = .good data → inWindow = false ∨ data.length ≠ mvbSize (s.mvbFcode j.toNat e) →
                exec (.mvbSlaveFrameRx j a b inWindow) s = .next (t.countRaise (MVB.FRAME_ERR_CNT j.toNat) (.mvb j.toNat) 11))
            ∧ (∀ data v, x = .good data → inWindow = true → data.length = mvbSize (s.mvbFcode j.toNat e) →
                v = ((((t.setBytes (mvbData j.toNat e) data).setBeWord (mvbCfg j.toNat e + 8) t.cycle).countEntry j.toNat e).count (MVB.SF_RX_CNT j.toNat)).withMvb j.toNat
                  (fun k => { k with seen := insertNat e k.seen, stale := k.stale.filter (fun x => x != e), since := k.since.filter (fun x => x.1 != e) ++ [(e, t.ltcNs)] }) →
                exec (.mvbSlaveFrameRx j a b inWindow) s = .next ((if bitOf (v.mvbWord j.toNat e 0) 25 then v.raise (.mvb j.toNat) 8 else v).rxTriggers 4 (j.toNat * 256 + e)))))
    ∧ (s.flag (MVB.MVB_CTRL_EN j.toNat) = false → ∀ f addr seen a b w, exec (.mvbMasterFrameRx j f addr seen) s = .next s ∧ exec (.mvbSlaveFrameRx j a b w) s = .next s)
    ∧ (∀ e : Byte, s.live (.mvb j.toNat) = true → s.mvbEn j.toNat e.toNat = true → s.mvbDir j.toNat e.toNat = 2 → s.mvbSilent j.toNat e.toNat = true →
        ((s.mvb j.toNat).stale.contains e.toNat = false → exec (.portStale j e) s
          = .next ((s.withMvb j.toNat fun k => { k with stale := insertNat e.toNat k.stale }).countRaise (MVB.STALE_CNT j.toNat) (.mvb j.toNat) 9))
        ∧ ((s.mvb j.toNat).stale.contains e.toNat = true → exec (.portStale j e) s = .next s))
    ∧ (∀ e : Byte, s.mvbWord j.toNat e.toNat 1 % 2 ^ 16 = 0 → exec (.portStale j e) s = .next s)
    ∧ (∀ (e : Byte) (x : Staged) (o : Obj), o = mvbObj j.toNat e.toNat → s.powered (.mvb j.toNat) = true → s.stagedOf o = some x → s.holdsProv o = false → s.held.contains o = false →
        exec (.portFlip j e) s = .next ((s.each (s.objParts o) fun p s => s.copyRange p.1 p.2.1 p.2.2).clearWritten o))
    ∧ (∀ (e : Byte) (o : Obj), o = mvbObj j.toNat e.toNat → s.powered (.mvb j.toNat) = true → s.stagedOf o = none ∨ s.holdsProv o = true ∨ s.held.contains o = true →
        exec (.portFlip j e) s = .next s)

/-! Twin pairs (spec/11_twin_pairs.md). -/

/-- The hat (R326 to R335). A message that comes late is counted. RENEW leaves a wearer as it is, is granted by a standby and brings any other chip that
is not OFF to STANDBY first; a wearer notes the peer's grant. A wearer whose lease ends unrenewed has lost the peer when the heartbeat is silent and
is partitioned when it is not; a standby claims after the lease and its guard, but defers while the peer's heartbeat says WEARING; a start-up count
makes a chip that is able claim, and partitions a junior whose link is down beside a beating peer. A chip without a hat that hears a claim becomes
STANDBY and grants; a senior wearer that took the hat at the same tick defers. A standby that is able acknowledges a handover to come, and the wearer
notes the acknowledgement; at the handover's tick the standby takes the hat and counts it, a wearer whose peer has acknowledged becomes STANDBY, and
one whose peer has not tries again, counted when it is sent again. HAT_OUT ends when the peer has the hat. A HOST_GRANT with its key makes a
partitioned chip whose peer has been silent for the lease and the guard claim, and another value does nothing. A message with the receiver's own
identity shows a bad configuration. -/
def Obligations.HatCommands : Prop :=
  ∀ (s : State) (hdr : TwinHeader) (cycle tick : BitVec 32) (lease : BitVec 8),
    (s.twinRuns = true → hdr.twinId ≠ s.junior → ∀ u, u = s.noteHeader hdr →
      (u.lateFor cycle = true → exec (.renewRx hdr cycle lease) s = .next (u.count TWIN.LATE_MSG_CNT).refreshTwin
        ∧ ∀ num unable unsure, exec (.grantRx hdr cycle num unable unsure) s = .next (u.count TWIN.LATE_MSG_CNT).refreshTwin)
      ∧ (u.lateFor cycle = false → u.hat = hatWEARING → exec (.renewRx hdr cycle lease) s = .next u.refreshTwin)
      ∧ (∀ v, u.lateFor cycle = false → u.hat = hatSTANDBY → v = ((u.withTwin fun t => { t with renewed := some cycle, peerLease := lease.toNat }).recheckLines u).settleHat →
          v.hat = hatSTANDBY → exec (.renewRx hdr cycle lease) s = .next (v.grant cycle).refreshTwin)
      ∧ (∀ v, u.lateFor cycle = false → u.hat ≠ hatSTANDBY → u.hat ≠ hatOFF → u.hat ≠ hatWEARING →
          v = (((u.setHat hatSTANDBY u.cycle).withTwin fun t => { t with renewed := some cycle, peerLease := lease.toNat }).recheckLines u).settleHat →
          v.hat = hatSTANDBY → exec (.renewRx hdr cycle lease) s = .next (v.grant cycle).refreshTwin)
      ∧ (∀ num unable, u.lateFor cycle = false → u.hat = hatSTANDBY → exec (.grantRx hdr cycle num unable true) s = .next u.refreshTwin)
      ∧ (∀ num unable v, u.lateFor cycle = false → u.hat = hatWEARING → v = (u.set TWIN.LAST_GRANT cycle.toNat).withTwin (fun t => { t with unready := !hdr.ready }) →
          v.flag TWIN.TWIN_STAT_PEER_LOST = false → v.twinUnit.blocked = false → exec (.grantRx hdr cycle num unable false) s = .next v.refreshTwin)
      ∧ (∀ v, v = (if u.hat ≠ hatOFF ∧ cyclesAfter u.cycle tick < 0 then u.withTwin fun t => { t with heldAt := some tick } else u) →
          (v.hat = hatNONE → exec (.claimRx hdr tick) s = .next ((v.setHat hatSTANDBY v.cycle).grant tick).refreshTwin)
          ∧ (v.hat = hatWEARING → v.twinUnit.tookAt = some tick → v.junior = false → exec (.claimRx hdr tick) s = .next (v.count TWIN.CLAIM_DEFER_CNT).refreshTwin))
      ∧ (∀ cause, u.hat = hatSTANDBY → u.unable u.cycle = 0 → cyclesAfter u.cycle tick < 0 →
          exec (.handoverRx hdr tick cause) s = .next ((u.sendTwin (.handoverAck tick)).withTwin fun t => { t with handoverAt := some tick }).refreshTwin)
      ∧ (u.hat = hatWEARING → u.twinUnit.handoverAt = some tick → cyclesAfter u.cycle tick < 0 →
          exec (.handoverAckRx hdr tick) s = .next (u.withTwin fun t => { t with acked := true }).refreshTwin))
    ∧ (s.twinRuns = true → hdr.twinId = s.junior → ∀ cause num unable unsure, exec (.renewRx hdr cycle lease) s = .next s.twinCfgBad
        ∧ exec (.grantRx hdr cycle num unable unsure) s = .next s.twinCfgBad ∧ exec (.claimRx hdr tick) s = .next s.twinCfgBad
        ∧ exec (.handoverRx hdr tick cause) s = .next s.twinCfgBad ∧ exec (.handoverAckRx hdr tick) s = .next s.twinCfgBad)
    ∧ (s.twinRuns = true → s.hat = hatWEARING → s.flag TWIN.TWIN_STAT_PEER_LOST = false →
        (s.get TWIN.LEASE_CFG_LEASE : Int) ≤ cyclesAfter s.nextTick (BitVec.ofNat 32 (s.get TWIN.LAST_GRANT)) →
        (s.get TWIN.TWIN_STAT_HBT_IN = 0 →
            exec .leaseEnd s = .next (((s.setFlag TWIN.TWIN_STAT_PEER_LOST true).count TWIN.PEER_LOST_CNT).raise .twin 10))
        ∧ (s.get TWIN.TWIN_STAT_HBT_IN ≠ 0 → exec .leaseEnd s = .next (s.partition.count TWIN.PARTITION_CNT)))
    ∧ (∀ u, u = s.refreshTwinAt s.nextTick → u.twinRuns = true → u.hat = hatSTANDBY → u.twinUnit.granted = true →
        ((u.leaseSpan + u.guardSpan : Nat) : Int) ≤ cyclesAfter u.nextTick (BitVec.ofNat 32 (u.get TWIN.LAST_GRANT)) → u.unable u.nextTick = 0 →
        (u.get TWIN.TWIN_STAT_HBT_IN = 2 → exec .claim s = .next (u.count TWIN.CLAIM_DEFER_CNT))
        ∧ (u.get TWIN.TWIN_STAT_HBT_IN ≠ 2 → exec .claim s = .next ((u.claimHat u.nextTick true).refreshTwinAt u.nextTick)))
    ∧ (s.twinRuns = true → s.hat = hatNONE → s.junior = false → s.get TWIN.LEASE_CFG_START_SENIOR ≤ s.startCount →
        (s.chipUnable = 0 → exec .startupCountReached s = .next (s.claimHat s.nextTick false))
        ∧ (s.chipUnable ≠ 0 → exec .startupCountReached s = .next s))
    ∧ (s.twinRuns = true → s.hat = hatNONE → s.junior = true → s.get TWIN.LEASE_CFG_START_JUNIOR ≤ s.startCount → s.lorzelUp = false → s.get TWIN.TWIN_STAT_HBT_IN ≠ 0 →
        exec .startupCountReached s = .next s.partition)
    ∧ (s.hat ≠ hatNONE → exec .startupCountReached s = .next s)
    ∧ (∀ (on : Bool) (u : State), s.powered .twin = true →
        u = (if s.flag TWIN.TWIN_CTRL_HANDOVER = on then s else s.stampConfig .twin).setFlag TWIN.TWIN_CTRL_HANDOVER on →
        (u.handoverCause.isSome = true → exec (.handover on) s = .next (u.tryHandover u.handoverTick))
        ∧ (u.handoverCause = none → exec (.handover on) s = .next (u.withTwin fun t => { t with blocked := false })))
    ∧ (s.twinUnit.handoverAt ≠ some (BitVec.ofNat 32 s.nextTick) → exec .handoverTick s = .next s)
    ∧ (s.twinRuns = true → s.twinUnit.handoverAt = some (BitVec.ofNat 32 s.nextTick) → s.hat = hatSTANDBY →
        exec .handoverTick s = .next (((s.takeHat s.nextTick true).count TWIN.HANDOVER_CNT).withTwin fun x => { x with handoverAt := none }))
    ∧ (s.twinRuns = true → s.twinUnit.handoverAt = some (BitVec.ofNat 32 s.nextTick) → s.hat = hatWEARING →
        (s.twinUnit.acked = true → ∀ u, u = ((s.setHat hatSTANDBY s.nextTick).count TWIN.HANDOVER_CNT).setFlag TWIN.TWIN_CTRL_HANDOVER false →
            exec .handoverTick s = .next (((u.set TWIN.LAST_GRANT s.nextTick).withTwin fun x => { x with
              granted := true, heldAt := some (BitVec.ofNat 32 s.nextTick), outgoing := some (BitVec.ofNat 32 s.nextTick)
              keptOut := BitVec.ofNat 32 (u.get GPIO.OUT) }).settleHat))
        ∧ (∀ u, u = (s.withTwin fun x => { x with handoverAt := none }).tryHandover ((s.nextTick + 1) % 2 ^ 32) → s.twinUnit.acked = false →
            (u.twinUnit.handoverAt.isSome = true → exec .handoverTick s = .next (u.count TWIN.HANDOVER_RETRY_CNT))
            ∧ (u.twinUnit.handoverAt = none → exec .handoverTick s = .next u)))
    ∧ (∀ h, s.twinUnit.outgoing = some h → s.twinUnit.peerHat = hatWEARING → s.twinUnit.peerReleased = true → exec .hatOutRelease s = .next s.dropHatOut)
    ∧ (s.twinUnit.outgoing = none → exec .hatOutRelease s = .next s)
    ∧ (∀ v : BitVec 16, v ≠ 0xB4A7 → exec (.hostGrant v) s = .next s)
    ∧ (s.twinRuns = true → s.hat = hatPARTITIONED → s.get TWIN.TWIN_STAT_HBT_IN = 0 → s.leaseSpan + s.guardSpan ≤ s.twinUnit.hbtSilentTicks →
        exec (.hostGrant 0xB4A7) s = .next (((s.claimHat s.nextTick false).recheckLines s).settleHat))

/-- What a pair exchanges besides the lease (R325, R326, R335, R336, R340): a wearer takes no merge; a standby takes its number, its readiness and its
dough bytes at their place; a cut record of this cycle is noted by a standby until its own CUT; an epoch head whose mirror CRC differs is counted and
raised, and with the right one the epoch is expected; an epoch is committed only whole, in time and with the CRC of its head and data, and is
discarded and counted otherwise; a pulse within 250 ns of 1, 2 or 3 µs shows the peer's state, another shows nothing; the heartbeat is lost at the
second tick in a row without one, and without the twin unit none of this happens. -/
def Obligations.PairCommands : Prop :=
  ∀ (s : State) (hdr : TwinHeader) (num len crc : BitVec 32),
    (s.twinRuns = true → hdr.twinId ≠ s.junior → ∀ u, u = s.noteHeader hdr →
      (∀ mseq offs refresh ready doubtful dough, u.hat = hatWEARING → exec (.mergeRx hdr mseq offs refresh ready doubtful dough) s = .next u.refreshTwin)
      ∧ (∀ mseq ready doubtful, u.hat = hatSTANDBY → mseq = u.twinUnit.mseqIn + 1 → exec (.mergeRx hdr mseq 0 false ready doubtful []) s
          = .next (((u.withTwin fun t => { t with
            mseqIn := mseq, unsure := t.unsure && decide (u.twinUnit.refreshRun ≠ 4)
            refreshRun := if u.twinUnit.refreshRun = 4 then 0 else u.twinUnit.refreshRun }).setReady ready).setDoubtfulReq doubtful).refreshTwin)
      ∧ (∀ (mseq offs : BitVec 16) (refresh ready doubtful : Bool) (dough : List Byte), u.hat = hatSTANDBY → ∃ t, exec (.mergeRx hdr mseq offs refresh ready doubtful dough) s = .next t
          ∧ (∀ (k : Line) (x : Nat) (h : x < dough.length), offs.toNat + x < 1928 → t.byte (doughAddr k + offs.toNat + x) = dough[x]) ∧ t.twinUnit.mseqIn = mseq ∧ t.flag (LOAF.DOUGH_STAT_READY .A) = ready)
      ∧ (∀ (cycle : BitVec 32) seq flags write len mseq, u.hat = hatSTANDBY → cycle.toNat = u.cycle → u.capture.taken = false →
          exec (.cutRecordRx hdr cycle seq flags write len mseq) s = .next (u.withTwin fun t => { t with
            unsure := t.unsure || mseq != t.mseqIn
            cutRecord := some ⟨cycle, seq, flags, write, len, u.bytes (doughAddr u.doughChannel) 1928, u.ttcNs⟩ }).refreshTwin)
      ∧ (∀ cycle seq flags write len mseq, u.capture.taken = true → exec (.cutRecordRx hdr cycle seq flags write len mseq) s = .next u.refreshTwin)
      ∧ (u.hat = hatSTANDBY → u.twinUnit.incoming = none → crc ≠ u.mirrorCrc →
          exec (.epochHeadRx hdr num len crc) s = .next (((u.withTwin fun t => { t with headOk := false }).count TWIN.MIRROR_MISMATCH_CNT).raise .twin 17).refreshTwin)
      ∧ (u.hat = hatSTANDBY → u.twinUnit.incoming = none → crc = u.mirrorCrc →
          exec (.epochHeadRx hdr num len crc) s = .next (((u.withTwin fun t => { t with headOk := true }).set TWIN.EPOCH_LEN len.toNat).withTwin fun t =>
            { t with incoming := some (num, hdr.epoch, epochHeadBytes hdr num len crc) }).refreshTwin)
      ∧ (∀ n topo head data, u.twinUnit.incoming = some (n, topo, head) →
          (n = num → crc32 (head ++ data) = crc → data.length = natOfBE ((head.drop 8).take 4) → u.lateFor (n + 1) = false →
            exec (.epochCommitRx hdr num crc data) s = .next ((u.set TWIN.EPOCH_NUM n.toNat).withTwin fun t =>
              { t with incoming := none, committed := some ⟨n, topo, data⟩ }).refreshTwin)
          ∧ (crc32 (head ++ data) ≠ crc ∨ n ≠ num ∨ data.length ≠ natOfBE ((head.drop 8).take 4) ∨ u.lateFor (n + 1) = true → exec (.epochCommitRx hdr num crc data) s = .next u.epochFail.refreshTwin)))
    ∧ (∀ (w : BitVec 16) (start : BitVec 64), s.twinRuns = true →
        ((∀ c, 1 ≤ c → c ≤ 3 → w.toNat + 250 < 1000 * c ∨ 1000 * c + 250 < w.toNat) → exec (.hbtPulseRx w start) s = .next s)
        ∧ (∀ c, 1 ≤ c → c ≤ 3 → 1000 * c ≤ w.toNat + 250 → w.toNat ≤ 1000 * c + 250 →
            ∃ t, exec (.hbtPulseRx w start) s = .next t ∧ t.get TWIN.TWIN_STAT_HBT_IN = c ∧ t.mem = s.mem ∧ t.sent = s.sent))
    ∧ (s.twinRuns = true → s.get TWIN.TWIN_STAT_HBT_IN ≠ 0 → 1 ≤ s.twinUnit.hbtMiss → s.twinUnit.hbtSeen = false → (100 + s.precision + 500 : Int) < s.sinceTick →
        exec .hbtLost s = .next (((s.set TWIN.TWIN_STAT_HBT_IN 0).count TWIN.HBT_LOST_CNT).raise .twin 16))
    ∧ (s.get TWIN.TWIN_STAT_HBT_IN = 0 → exec .hbtLost s = .next s)
    ∧ (s.twinRuns = false → exec .hbtLost s = .next s ∧ (∀ w start, exec (.hbtPulseRx w start) s = .next s) ∧ exec (.epochHeadRx hdr num len crc) s = .next s
        ∧ exec .leaseEnd s = .next s)

/-! Bridges and the link (spec/12_bridges.md). -/

/-- The PCIe and SPI bridges (R357 to R366, R447, R448): while `pcieServes` holds a PCIe write is carried out and a read accepted, a poisoned write
failing as posted with cause 2; an outbound read ends by its completion, or by its timeout once its tag has been outstanding for the completion
timeout, and a completion without a read is counted; going down is taken while the link is up; a configuration request is retried below boot stage 0x6
and answered from then on; a link training gives speed and width. On SPI a bad frame is a command error, a write without room is retried, a full write
is answered READY and carried out, and the read slot serves one request: empty it fetches, fetching it answers RETRY, holding the same request it
answers READY and empties, DR_CLEAR empties it, and DR_TMO µs after the fetch it is emptied and counted. -/
def Obligations.HostBridgeCommands : Prop :=
  ∀ s : State,
    (∀ bar2 addr data tag, s.pcieServes = true →
        exec (.pcieInboundWrite bar2 addr data false tag) s = .next (s.inboundWrite .pcie bar2 addr.toNat tag.toNat (data.take 4096))
        ∧ exec (.pcieInboundWrite bar2 addr data true tag) s = .next (s.postedFail .pcie 0 2 (if bar2 then spBAR2 else spBAR0) addr.toNat tag.toNat))
    ∧ (∀ bar2 addr len tag spoiled, s.pcieServes = true → exec (.pcieInboundRead bar2 addr len tag spoiled) s
          = .next (s.acceptRead ⟨.pcie, tag.toNat, bar2, addr.toNat, min 4096 len.toNat, [], none, false, spoiled, false⟩))
    ∧ (∀ bar2 addr data p len tag spoiled, s.pcieServes = false → exec (.pcieInboundWrite bar2 addr data p tag) s = .next s
        ∧ exec (.pcieInboundRead bar2 addr len tag spoiled) s = .next s)
    ∧ (∀ (tag : BitVec 8) (o : OutTag), (s.bridges.reads.find? fun x => x.tag = tag.toNat) = some o →
        (s.powered .pcie = true → (∀ data, exec (.pcieCompletionRx tag (some data)) s = .next (s.finishRead o (some data)))
          ∧ exec (.pcieCompletionRx tag none) s = .next ((s.count PCIE.CPL_ERR_CNT).finishRead o none))
        ∧ (s.cplTimeout ≤ (s.ltcNs - o.since).toNat →
            exec (.cplTmo tag) s = .next (((s.count PCIE.CPL_TMO_CNT).raise .pcie 9).finishRead o none))
        ∧ ((s.ltcNs - o.since).toNat < s.cplTimeout → exec (.cplTmo tag) s = .next s))
    ∧ (∀ tag : BitVec 8, (s.bridges.reads.find? fun x => x.tag = tag.toNat) = none →
        (s.powered .pcie = true → ∀ data, exec (.pcieCompletionRx tag data) s = .next (s.count PCIE.CPL_ERR_CNT)) ∧ exec (.cplTmo tag) s = .next s)
    ∧ (s.powered .pcie = true → s.flag PCIE.PCIE_STAT_DL_UP = true → ∀ d3, exec (.linkDown d3) s = .next (s.linkDown d3))
    ∧ (s.flag PCIE.PCIE_STAT_DL_UP = false → ∀ d3 item write tag, exec (.linkDown d3) s = .next s ∧ exec (.pcieConfigRequest item write tag) s = .next s)
    ∧ (s.powered .pcie = true → s.flag PCIE.PCIE_STAT_DL_UP = true → ∀ item tag,
        (s.get SEC.BOOT_STAT_STAGE < 6 → ∀ write, exec (.pcieConfigRequest item write tag) s = .next (s.emit (.pcieRetry tag.toNat)))
        ∧ (6 ≤ s.get SEC.BOOT_STAT_STAGE → ∀ v, exec (.pcieConfigRequest item (some v) tag) s = .next ((s.writeConfig item v).emit (.pcieCompletion tag.toNat true [])))
        ∧ (6 ≤ s.get SEC.BOOT_STAT_STAGE → exec (.pcieConfigRequest item none tag) s
            = .next ((s.configWord item).2.emit (.pcieCompletion tag.toNat true (bytesFrom .pcie (s.configWord item).1)))))
    ∧ (∀ (speed : BitVec 3) (width : BitVec 4), s.powered .pcie = true → 1 ≤ speed.toNat → speed.toNat ≤ 3 →
        (width = 1 ∨ width = 2 ∨ width = 4 → exec (.pcieLinkUp speed width) s
          = .next (((s.setFlag PCIE.PCIE_STAT_DL_UP true).set PCIE.PCIE_STAT_SPEED speed.toNat).set PCIE.PCIE_STAT_WIDTH width.toNat))
        ∧ (width = 3 → exec (.pcieLinkUp speed width) s = .next s))
    ∧ (s.spiServes = true → ∀ (addr : Word) (len : BitVec 16) (data : List Byte) (room : Bool),
        (frameGood addr.toNat len.toNat = false → exec (.qspiWrite addr len data room) s = .next s.commandError ∧ exec (.qspiRead addr len) s = .next s.commandError)
        ∧ (frameGood addr.toNat len.toNat = true → exec (.qspiWrite addr len data false) s
            = .next (((s.setFlag QSPI.QSPI_STAT_WQ_FULL true).count QSPI.RETRY_CNT).emit (.qspiReply spiRETRY [])))
        ∧ (∀ u, frameGood addr.toNat len.toNat = true → len.toNat ≤ data.length →
            u = (s.setFlag QSPI.QSPI_STAT_WQ_FULL false).emit (.qspiReply spiREADY []) →
            exec (.qspiWrite addr len data true) s = .next (({ u with bridges := { u.bridges with frames := s.bridges.frames + 1 } } : State).inboundWrite .qspi
              (addr.toNat / 2 ^ 30 = 1) (frameOffset addr.toNat) ((s.bridges.frames + 1) % 2 ^ 16) ((data.take len.toNat).map some)))
        ∧ (frameGood addr.toNat len.toNat = true → s.get QSPI.QSPI_STAT_SLOT = 0 → exec (.qspiRead addr len) s = .next (s.startFetch addr.toNat len.toNat))
        ∧ (frameGood addr.toNat len.toNat = true → s.get QSPI.QSPI_STAT_SLOT = 1 →
            exec (.qspiRead addr len) s = .next ((s.count QSPI.RETRY_CNT).emit (.qspiReply spiRETRY [])))
        ∧ (∀ bs, frameGood addr.toNat len.toNat = true → s.get QSPI.QSPI_STAT_SLOT = 2 → s.get QSPI.DR_ADDR = addr.toNat → s.get QSPI.DR_LEN = len.toNat →
            s.bridges.slot = some (some bs) → exec (.qspiRead addr len) s = .next (s.emptySlot.emit (.qspiReply spiREADY bs)))
        ∧ exec .drClear s = .next (({ s with bridges := { s.bridges with hostReads := s.bridges.hostReads.map fun (r : HostRead) =>
            if r.bridge == Requester.qspi then { r with drop := true } else r } }).emptySlot.emit (.qspiReply spiREADY [])))
    ∧ (s.spiServes = false → ∀ addr len data room, exec (.qspiWrite addr len data room) s = .next s ∧ exec (.qspiRead addr len) s = .next s
        ∧ exec .drClear s = .next s)
    ∧ (s.get QSPI.QSPI_STAT_SLOT = drFETCHING → s.bridges.slot.isSome = true → exec .drFetchDone s
        = .next { s.set QSPI.QSPI_STAT_SLOT drHELD with bridges := { s.bridges with slotSince := s.ltcNs } })
    ∧ (s.get QSPI.QSPI_STAT_SLOT = drHELD →
        (s.get QSPI.QSPI_CTRL_DR_TMO * 1000 ≤ (s.ltcNs - s.bridges.slotSince).toNat → exec .drTmo s = .next ((s.emptySlot.count QSPI.DR_TMO_CNT).raise .qspi 9))
        ∧ ((s.ltcNs - s.bridges.slotSince).toNat < s.get QSPI.QSPI_CTRL_DR_TMO * 1000 → exec .drTmo s = .next s))
    ∧ (s.get QSPI.QSPI_STAT_SLOT = drEMPTY → exec .drFetchDone s = .next s ∧ exec .drTmo s = .next s)

/-- Posted writes, messages and the peer's link (R367 to R377, R460): a failed posted write is logged under its cause 1 to 6; FENCE answers with the epoch
and forgets the remote writes of its bridge where no held read waits for them, and serves the held reads where one does; clearing the log empties it;
a message leaves for an armed vector whose level is 1, and disarms it; a re-arm write sets its vectors' arms and sends for each whose level is 1. A
lane goes up only where enabled, and going down is taken while it is up; a frame with a bad CRC is counted and a second copy dropped; a striped frame
is delivered in its turn, or waits for those before it while a lane can still bring them; a line copy and a verdict from the peer are taken for the
other line, one for the own line is a configuration error; a forming item in one segment is taken; a remote read is served while remote access is on
and counted refused while it is off; its response ends, repeats or fails the read it answers; a remote read times out counted after RMT_TMO µs. -/
def Obligations.LinkAndMessageCommands : Prop :=
  ∀ (s : State) (b : Requester) (lane : BitVec 1) (v : BitVec 6),
    (s.powered (bridgePage b) = true →
        (∀ u, u = ({ s with bridges := { s.bridges with remoteWrites := s.bridges.remoteWrites.filter fun (w : RemoteWrite) => w.bridge != b } } : State) →
          (s.bridges.hostReads.any s.fenceWaits = true → exec (.fence b) s = .next u.serveReads)
          ∧ (s.bridges.hostReads.any s.fenceWaits = false →
              exec (.fence b) s = .next (u.emit (.regData b ((bridgePage b).base + 0x090) (BitVec.ofNat 32 (s.get (BR.EPOCH (bridgePage b) 0)))))))
        ∧ exec (.plogClr b) s = .next (s.clearLog (bridgePage b))
        ∧ (∀ (cause : BitVec 4) space addr tag, 1 ≤ cause.toNat → cause.toNat ≤ 6 →
            exec (.postedFail b 0 cause space addr tag) s = .next (s.postedFail (bridgePage b) 0 cause.toNat space.toNat addr.toNat tag.toNat))
        ∧ (∀ source space addr tag, exec (.postedFail b source 0 space addr tag) s = .next s))
    ∧ (s.power.held = false → s.flag INTC.INTC_CTRL_MSIX_EN = true → bitOf s.vecArm v.toNat = true → s.vecPending v.toNat = true →
        exec (.msixMessage v) s = .next (((s.set64 INTC.VEC_ARM_LO INTC.VEC_ARM_HI (withBit s.vecArm v.toNat false)).count INTC.MSIX_CNT).passMsix v.toNat))
    ∧ (bitOf s.vecArm v.toNat = false → exec (.msixMessage v) s = .next s)
    ∧ (∀ mask : BitVec 64, exec (.vecRearm mask) s = .next ((s.set64 INTC.VEC_ARM_LO INTC.VEC_ARM_HI (s.vecArm ||| mask.toNat)).each
        ((List.range 64).filter fun v => bitOf mask.toNat v) fun v s => s.msixMessage v))
    ∧ (s.linkOn = true → s.flag (laneEnable lane.toNat) = true → s.laneUp lane.toNat = false → exec (.laneUp lane) s = .next (s.setLane lane.toNat true true))
    ∧ (s.linkOn = true → s.flag (laneEnable lane.toNat) = false → exec (.laneUp lane) s = .next s)
    ∧ (∀ u, s.laneUp lane.toNat = true → u = (({ s with bridges := { s.bridges with badCrc := s.bridges.badCrc.filter fun e => e.1 != lane.toNat } } : State).setLane lane.toNat false false).drainAll →
        (u.twin = false → exec (.laneDown lane) s = .next u)
        ∧ (u.twin = true → exec (.laneDown lane) s = .next (u.countRaise TWIN.LANE_DOWN_CNT .twin 18)))
    ∧ (s.laneUp lane.toNat = false → exec (.laneDown lane) s = .next s)
    ∧ (∀ f : LinkFrame, s.linkOn = true → s.laneUp lane.toNat = true →
        (f.crcGood = false → exec (.linkFrameRx lane f) s = .next (s.badFrame lane.toNat))
        ∧ (f.crcGood = true → f.repl = true → s.frameSeen f.payload.cls lane.toNat f.seq = true →
            exec (.linkFrameRx lane f) s = .next (s.noteSeq f.payload.cls lane.toNat f.seq))
        ∧ (f.crcGood = true → f.repl = true → s.frameSeen f.payload.cls lane.toNat f.seq = false →
            exec (.linkFrameRx lane f) s = .next ((s.noteSeq f.payload.cls lane.toNat f.seq).deliverFrame f))
        ∧ (∀ u, f.crcGood = true → f.repl = false →
            u = ({ s with bridges := { s.bridges with
              laneSeq := s.bridges.laneSeq.filter (fun (e : Nat × Nat × BitVec 16) => !(e.1 = f.payload.cls && e.2.1 = lane.toNat)) ++ [(f.payload.cls, lane.toNat, f.seq)] } } : State) →
            (∀ due, u.seqDue f.payload.cls = some due → (f.seq - due).toInt < 0 → exec (.linkFrameRx lane f) s = .next (u.deliverFrame f))
            ∧ (s.bridges.early = [] → u.seqDue f.payload.cls = none ∨ u.seqDue f.payload.cls = some f.seq →
                exec (.linkFrameRx lane f) s = .next (State.drainClass f.payload.cls 1 ((u.setSeqDue f.payload.cls (f.seq + 1)).deliverFrame f)))
            ∧ (∀ due v, s.bridges.early = [] → u.seqDue f.payload.cls = some due → 0 < (f.seq - due).toInt → v = u.setSeqDue f.payload.cls due →
                ({ v with bridges := { v.bridges with early := [f] } } : State).seqLost f.payload.cls due = false →
                exec (.linkFrameRx lane f) s = .next { v with bridges := { v.bridges with early := [f] } })))
    ∧ (∀ (cycle : BitVec 32) (l : Line) slot (offs : BitVec 16) bs index good broken, s.linkOn = true → s.twinRuns = true →
        (l ≠ s.twinLine → exec (.lineCopyRx (.piece cycle l slot offs bs)) s = .next (s.takePiece cycle l slot offs.toNat bs)
          ∧ (s.time.returnEndSeen = false → cycle.toNat = s.cycle → exec (.lineCopyRx (.verdict cycle l index good broken)) s
              = .next (s.takeVerdict l index.toNat (good && !broken)))
          ∧ (s.time.returnEndSeen = true ∨ cycle.toNat ≠ s.cycle → exec (.lineCopyRx (.verdict cycle l index good broken)) s = .next s))
        ∧ (l = s.twinLine → exec (.lineCopyRx (.piece cycle l slot offs bs)) s = .next s.twinCfgBad
          ∧ exec (.lineCopyRx (.verdict cycle l index good broken)) s = .next s.twinCfgBad))
    ∧ (∀ g : FormingSegment, s.linkOn = true → s.twinRuns = true → g.segCnt = 1 → g.seg = 0 → (∀ h ∈ s.forming.heldSegments, h.kind ≠ g.kind) → exec (.formingDataRx g) s
          = .next ((s.withForming fun f => { f with heldSegments := s.forming.heldSegments.filter fun h => h.kind != g.kind }).takeItem g.kind.toNat g.round.toNat g.body))
    ∧ (∀ (q : RemoteRequest) (seq : BitVec 16), s.linkOn = true → q.write = false →
        (s.flag LZL.LZL_CTRL_RMT_EN = false → exec (.remoteRequestRx q seq) s = .next ((s.count LZL.RMT_REFUSED_CNT).respond q.tag .error []))
        ∧ (∀ bs t, s.flag LZL.LZL_CTRL_RMT_EN = true → q.fits = true → (∀ r ∈ s.bridges.hostReads, r.link = none) → s.remoteWords q.addr (q.len / 4) = (some bs, t) →
            exec (.remoteRequestRx q seq) s = .next (t.respond q.tag .done bs)))
    ∧ (∀ r tag data, s.linkOn = true → s.remoteRead = some r → r.link = some tag → exec (.remoteResponseRx tag .error data) s = .next (s.failRemote r)
        ∧ exec (.remoteResponseRx tag .retry data) s = .next (s.setRead r { r with link := none }).serveReads
        ∧ exec (.remoteResponseRx tag .done data) s = .next (s.setRead r { r with
            link := none, addr := r.addr + (remoteBytes r data).length, left := r.left - (remoteBytes r data).length, got := r.got ++ remoteBytes r data }).serveReads)
    ∧ (∀ r, s.remoteRead = some r →
        (s.get LZL.LZL_CTRL_RMT_TMO * 1000 ≤ (s.ltcNs - s.bridges.askedAt).toNat → exec .rmtTmo s = .next (((s.count LZL.RMT_TMO_CNT).raise .lzl 10).failRemote r))
        ∧ ((s.ltcNs - s.bridges.askedAt).toNat < s.get LZL.LZL_CTRL_RMT_TMO * 1000 → exec .rmtTmo s = .next s))
    ∧ (s.remoteRead = none → exec .rmtTmo s = .next s)

/-! Security, boot, proofing and coupler heads (spec/13_security.md to spec/15_coupler_heads.md). -/

/-- Life-cycle commands (R384, R400, R438): without power, in SCRAPPED, or while one waits, a command is ignored; during a brown-out it waits with result
1; otherwise it ends with result 3 where its state does not list it, with result 2 where its token does not verify, and is carried out where it is
listed and verifies. -/
def Obligations.LifeCycleCommands : Prop :=
  ∀ (s : State) (p : Instr × Nat), p ∈ [(Instr.lcManufacture, 1), (.lcProvision, 2), (.lcDeploy, 3), (.lcReturn, 4), (.lcScrap, 5), (.operatorRootInstall, 6), (.rootRevoke, 7),
      (.fleetKeyInstall, 8), (.debugToken, 9), (.headKeyInstall, 10)] →
    (s.lifeCycle = lcSCRAPPED ∨ s.powered .sec = false ∨ s.sec.waiting.isSome = true → exec p.1 s = .next s)
    ∧ (s.powered .sec = true → s.lifeCycle ≠ lcSCRAPPED → s.sec.waiting = none →
        (s.flag PWR.SUP_STAT_BO_ACTIVE = true → exec p.1 s = .next (((s.set SEC.CMD_STAT_CMD p.2).set SEC.CMD_STAT_RESULT 1).withSec fun k => { k with waiting := some p.2 }))
        ∧ (s.flag PWR.SUP_STAT_BO_ACTIVE = false → s.commandAllowed p.2 = false → exec p.1 s = .next (s.endCommand p.2 3))
        ∧ (s.flag PWR.SUP_STAT_BO_ACTIVE = false → s.commandAllowed p.2 = true → s.commandSigned p.2 = false → exec p.1 s = .next (s.endCommand p.2 2))
        ∧ (s.flag PWR.SUP_STAT_BO_ACTIVE = false → s.commandAllowed p.2 = true → s.commandSigned p.2 = true → exec p.1 s = .next (s.doCommand p.2)))

/-- What the life-cycle commands do where accepted (R384 to R386): MANUFACTURE, DEPLOY, RETURN and SCRAP reach their state, the last two without the
device keys and the flash's keys; PROVISION without entropy ends with result 4; an operator root is added while fewer than four stand and refused with
result 4 at four; revocation sets the token's bits of 0x0F0F, clears none, and leaves memory, keys and the life-cycle state; a fleet or head key whose
body opens is stored, another ends with result 2; a debug token opens the permissions it gives. -/
def Obligations.AcceptedLifeCycleCommands : Prop :=
  ∀ s : State,
    (s.doCommand 1).lifeCycle = lcMANUFACTURE ∧ (s.doCommand 3).lifeCycle = lcDEPLOYED
    ∧ ((s.doCommand 4).lifeCycle = lcRETURN ∧ (s.doCommand 4).otp.deviceKey = none ∧ (s.doCommand 4).otp.kek = none
      ∧ (s.doCommand 4).otp.flashFleet = none ∧ (s.doCommand 4).otp.flashHead = none)
    ∧ ((s.doCommand 5).lifeCycle = lcSCRAPPED ∧ (s.doCommand 5).otp.deviceKey = none ∧ (s.doCommand 5).otp.kek = none
      ∧ (s.doCommand 5).otp.flashFleet = none ∧ (s.doCommand 5).otp.flashHead = none)
    ∧ (s.random true = none → s.doCommand 2 = s.endCommand 2 4)
    ∧ (s.otp.operatorRoots.length < 4 → (s.doCommand 6).otp.operatorRoots = s.otp.operatorRoots ++ [Config.sha384 s.tokenBody])
    ∧ (4 ≤ s.otp.operatorRoots.length → (s.doCommand 6).otp = s.otp ∧ (s.doCommand 6).get SEC.CMD_STAT_RESULT = 4)
    ∧ (s.doCommand 7).otp.revoked = s.otp.revoked ||| (BitVec.ofNat 16 (natOfBE (tokenArg (s.tokenAt 0))) &&& 0x0F0F)
    ∧ (∀ k key, s.otp.deviceKey = some k → Config.openBody k s.tokenBody = some key → (s.doCommand 8).otp = { s.otp with flashFleet := some key }
        ∧ (s.doCommand 10).otp = { s.otp with flashHead := some key })
    ∧ (∀ k, s.otp.deviceKey = some k → Config.openBody k s.tokenBody = none → s.doCommand 8 = s.endCommand 8 2 ∧ s.doCommand 10 = s.endCommand 10 2)
    ∧ (s.otp.deviceKey = none → s.doCommand 8 = s.endCommand 8 2 ∧ s.doCommand 10 = s.endCommand 10 2)
    ∧ (s.doCommand 9).get SEC.DBG_STAT_PERM = natOfBE (tokenArg (s.tokenAt 0)) % 4
    ∧ (s.doCommand 7).mem = s.mem ∧ (s.doCommand 7).sec = s.sec ∧ (s.doCommand 7).lifeCycle = s.lifeCycle
    ∧ (s.doCommand 6).lifeCycle = s.lifeCycle ∧ (s.doCommand 9).lifeCycle = s.lifeCycle

/-- Keys and boot (R382, R387, R396 to R399, R448): a challenge read in SCRAPPED gives nothing; zeroising needs its word; an entropy failure is counted
and ends healthy service; no boot stage passes while the chip is held or the security block unpowered, and one out of its turn changes nothing; stage
1 fails on bad OTP or a bad generator and otherwise starts the generator, takes the power-on proofing's result and goes on, stage 6 takes the
subsystem and raises the counters where asked, and stage 7 ends the boot; a pushed chunk is a write of PUSH_CTRL, and READY sets again except after
the last. -/
def Obligations.KeyAndBootCommands : Prop :=
  ∀ (s : State) (who : Requester),
    (s.powered .sec = true → s.lifeCycle ≠ lcSCRAPPED →
        exec (.dbgChalRead who) s = .next (s.drawChallenge.emit (.regData who 0x100060 (BitVec.ofNat 32 (s.drawChallenge.get (SEC.DBG_CHAL 0))))))
    ∧ (s.lifeCycle = lcSCRAPPED → exec (.dbgChalRead who) s = .next s)
    ∧ (s.powered .sec = true → exec (.zeroise 0xB4A7) s = .next s.zeroise ∧ ∀ v, v ≠ 0xB4A7 → exec (.zeroise v) s = .next s)
    ∧ (s.powered .sec = true → exec .trngFail s = .next ((s.setFlag SEC.TRNG_STAT_HEALTHY false).countRaise SEC.TRNG_FAIL_CNT .sec 12))
    ∧ (s.power.held = true ∨ s.powered .sec = false → ∀ r, exec (.bootStageDone r) s = .next s)
    ∧ (s.power.held = false → s.powered .sec = true →
        (s.power.bootNext = 1 →
          (∀ b p, exec (.bootStageDone (.rom false b p)) s = .next (s.bootFail 1 1)) ∧ (∀ p, exec (.bootStageDone (.rom true false p)) s = .next (s.bootFail 1 2))
          ∧ (∀ p u, u = (((s.setFlag SEC.TRNG_STAT_HEALTHY true).setFlag SEC.TRNG_STAT_SERVING true).bootOn 1).powerOnProofing p →
              exec (.bootStageDone (.rom true true p)) s = .next ((u.setFlag PWR.PUSH_STAT_PUSH u.pushes).setFlag PWR.PUSH_STAT_READY u.pushes)))
        ∧ (s.power.bootNext = 6 → ∀ u, u = ({ s with power := { s.power with subsystem := s.power.subsystemNext } } : State) →
            (s.power.advance = false ∨ s.lifeCycle ≠ lcDEPLOYED → exec (.bootStageDone .subsystem) s = .next (u.bootOn 6))
            ∧ (s.power.advance = true → s.lifeCycle = lcDEPLOYED → exec (.bootStageDone .subsystem) s = .next (u.advanceCounters.bootOn 6)))
        ∧ (s.power.bootNext = 7 → ∀ u, u = (((({ (s.set SEC.BOOT_STAT_STAGE 7).setFlag CHIP.CHIP_STAT_BOOT_DONE true with
              power := { s.power with bootNext := 0 } } : State).setFlag PWR.PUSH_STAT_PUSH false).setFlag PWR.PUSH_STAT_READY false).raise .chip 11) →
            u.flag (GTB.LINE_CTRL_EN .A) = false → u.flag (GTB.LINE_CTRL_EN .B) = false → exec (.bootStageDone .complete) s = .next (u.recheckLines s))
        ∧ (s.power.bootNext ≠ 1 → ∀ a b p, exec (.bootStageDone (.rom a b p)) s = .next s)
        ∧ (s.power.bootNext ≠ 2 → ∀ a b, exec (.bootStageDone (.manifest a b)) s = .next s)
        ∧ (s.power.bootNext ≠ 3 → ∀ b, exec (.bootStageDone (.firmware b)) s = .next s)
        ∧ (s.power.bootNext ≠ 4 → ∀ b, exec (.bootStageDone (.fleetKey b)) s = .next s)
        ∧ (s.power.bootNext ≠ 5 → ∀ b, exec (.bootStageDone (.images b)) s = .next s)
        ∧ (s.power.bootNext ≠ 6 → exec (.bootStageDone .subsystem) s = .next s)
        ∧ (s.power.bootNext ≠ 7 → exec (.bootStageDone .complete) s = .next s))
    ∧ (∀ (len : BitVec 18) (last : Bool), exec (.pushChunk who len last) s
          = .next (s.writeWord who 0x030068 (BitVec.ofNat 32 (2 ^ 31 + (if last then 2 ^ 30 else 0) + len.toNat))).1)
    ∧ (s.flag PWR.PUSH_STAT_PUSH = true → s.power.pushLast = false → exec .pushChunkTaken s = .next (s.setFlag PWR.PUSH_STAT_READY true))
    ∧ (s.flag PWR.PUSH_STAT_PUSH = false ∨ s.power.pushLast = true → exec .pushChunkTaken s = .next s)

/-- Proofing (R402 to R413): when its interval is over the rotation of a target, and in LOCKED mode that of its twin channel, chooses its next cell, the
crypto cores changing their service at once; a run starts only in the idle phase, outside a brown-out, with every cell of the pair ready, and within
the limits, outside them it is counted as deferred; a run ends when its patterns have taken their time: a signature that matches ends it as passed,
another is tried once more where RETEST says so, and otherwise isolates the cell; the restore waits for the idle phase; PRF_STOP aborts what runs with
cause 8. A maintenance command is refused unless both lines are OFF, the cell idle, no other maintenance run held and the block in service; accepted,
it aborts what runs, holds its run (deferred outside the limits or in a brown-out) and shows the block busy; the commands of target 5 act on that run. -/
def Obligations.ProofingCommands : Prop :=
  ∀ (s : State) (t : BitVec 3) (sig : BitVec 128),
    exec (.proofIntervalExpiry t) s = .next (s.each (s.proofPair t.toNat) fun n u => u.proofExpiry n)
    ∧ (s.lockedMode = false ∨ 4 ≤ t.toNat → s.proofPair t.toNat = [t.toNat])
    ∧ (∀ n, (s.rotation n).wait ≠ some 0 ∨ s.proofOn n = false ∨ s.get (PRF.RESULT_RESULT n) ≠ 1 → s.proofExpiry n = s)
    ∧ (∀ n i j u, (s.rotation n).wait = some 0 → s.proofOn n = true → s.get (PRF.RESULT_RESULT n) = 1 → s.proofSpare n = some i → s.nextCell n i = some j →
        u = (s.showTarget n j).withRotation n (fun x => { x with wait := none, target := some j }) →
        s.proofExpiry n = if n = 4 then (u.withSec fun k => { k with cryptoServing := i }).rotated 4 else u)
    ∧ (t ≠ 5 → s.phase ≠ 2 → exec (.proofRunStart t) s = .next s ∧ exec (.proofRestore t) s = .next s)
    ∧ (t ≠ 5 → s.flag PWR.SUP_STAT_BO_ACTIVE = true ∨ (s.proofPair t.toNat).all s.runReady = false → exec (.proofRunStart t) s = .next s)
    ∧ (t ≠ 5 → s.phase = 2 → s.flag PWR.SUP_STAT_BO_ACTIVE = false → (s.proofPair t.toNat).all s.runReady = true →
        (s.withinLimits = false → exec (.proofRunStart t) s = .next (s.count PRF.LIMIT_DEFER_CNT))
        ∧ (s.withinLimits = true → exec (.proofRunStart t) s = .next (s.each (s.proofPair t.toNat) fun n u => match u.proofSpare n with
            | some i => u.startRun n i
            | none => u)))
    ∧ (∀ r, t ≠ 5 → (s.rotation t.toNat).run = some r → r.ended = none → s.patternsAll r = true → ∀ u, u = s.showSignature sig →
        (sig = Config.fixedSignature (proofKind t.toNat) → exec (.proofPatternsDone t sig) s
          = .next (u.withRotation t.toNat fun x => { x with run := some { r with ended := some 1 } }))
        ∧ (sig ≠ Config.fixedSignature (proofKind t.toNat) → u.flag PRF.PRF_CFG_RETEST = true → (u.rotation t.toNat).retest = false →
            exec (.proofPatternsDone t sig) s = .next (u.withRotation t.toNat fun x => { x with retest := true, run := some { r with start := u.ltcNs } }))
        ∧ (sig ≠ Config.fixedSignature (proofKind t.toNat) → u.flag PRF.PRF_CFG_RETEST = false ∨ (u.rotation t.toNat).retest = true →
            exec (.proofPatternsDone t sig) s = .next ((u.isolateSpare t.toNat r.cell).withRotation t.toNat fun x => { x with run := some { r with ended := some 2 } })))
    ∧ (∀ r, t ≠ 5 → (s.rotation t.toNat).run = some r → r.ended ≠ none ∨ s.patternsAll r = false → exec (.proofPatternsDone t sig) s = .next s)
    ∧ ((s.rotation t.toNat).run = none → t ≠ 5 → exec (.proofPatternsDone t sig) s = .next s)
    ∧ (t ≠ 5 → s.phase = 2 → exec (.proofRestore t) s = .next (s.restoreRun t.toNat))
    ∧ (s.powered .prf = true → exec .prfStop s = .next (s.abortInService 8))
    ∧ (s.powered .prf = false → ∀ v, exec .prfStop s = .next s ∧ exec (.maintCmd v) s = .next s)
    ∧ (s.powered .prf = true → ∀ v : Word, (bitOf v.toNat 31 = false → exec (.maintCmd v) s = .next s)
        ∧ (∀ m : Maintenance, bitOf v.toNat 31 = true → m = ⟨v.toNat % 2 ^ 8, if bitOf v.toNat 13 then .B else .A, v.toNat / 2 ^ 8 % 2 ^ 5, false,
              ⟨v.toNat / 2 ^ 8 % 2 ^ 5, s.ltcNs, s.maintPatterns (v.toNat % 2 ^ 8), [], none⟩⟩ →
            (s.bothOff = false ∨ s.maintIdle m = false ∨ s.proof.maint.isSome = true ∨ s.proofingState = false ∨ s.live .prf = false →
              exec (.maintCmd v) s = .next (s.refuse .prf))
            ∧ (s.bothOff = true → s.maintIdle m = true → s.proof.maint = none → s.proofingState = true → s.live .prf = true →
              ∀ u held, u = s.abortInService 8 → held = (if u.withinLimits = true ∧ u.flag PWR.SUP_STAT_BO_ACTIVE = false then none else some 0) →
                exec (.maintCmd v) s = .next ((((({ u.when (!u.withinLimits) (fun u => u.count PRF.LIMIT_DEFER_CNT) with
                  proof := { u.proof with maint := some { m with run := { m.run with ended := held } } } } : State).setFlag
                  PRF.PRF_STAT_MAINT_BUSY true).each m.pages fun p s => s.setFlag (HDR.PAGE_STAT_PROOF_BUSY p) true)).when
                    (m.target = 4) fun s => s.set (ENG.ENG_STAT_STATE m.chan m.index) 4))))
    ∧ (∀ m : Maintenance, s.proof.maint = some m →
        (m.run.ended = some 0 → s.flag PWR.SUP_STAT_BO_ACTIVE = false →
          (s.withinLimits = true → exec (.proofRunStart 5) s
            = .next { s with proof := { s.proof with maint := some { m with run := { m.run with start := s.ltcNs, ended := none } } } })
          ∧ (s.withinLimits = false → exec (.proofRunStart 5) s = .next (s.count PRF.LIMIT_DEFER_CNT)))
        ∧ (∀ u, u = s.showSignature sig → m.run.ended = none → s.patternsAll m.run = true → sig = s.maintSignature m →
            exec (.proofPatternsDone 5 sig) s = .next { u with proof := { u.proof with maint := some { m with run := { m.run with ended := some 1 } } } })
        ∧ (m.run.ended = some 1 → exec (.proofRestore 5) s = .next ((s.endMaint 1 0).count PRF.PASS_CNT))
        ∧ (m.run.ended = some 2 → exec (.proofRestore 5) s = .next (s.endMaint 2 0)))
    ∧ (s.proof.maint = none → exec (.proofRunStart 5) s = .next s ∧ exec (.proofPatternsDone 5 sig) s = .next s ∧ exec (.proofRestore 5) s = .next s)

/-- The tag links of the couplers (R415 to R425): on an active link a closing counts a local mate and, where this chip drives the tags, starts a session
or one again after the session in progress; a response that is no tag frame is counted as a CRC error; one to the request of this session answers it,
and a chip that does not drive hears the pair of request and response; a request without an answer is sent again up to three times in all and then
given up; a margin sample without a link-up counts the run of low ones, one on a link that is up takes the least margin of its 16 reads once the
sample is due and sets or clears the run of low ones by the floor; the sample ends the session or, where the tag is authentic, writes the log; a
session cut short ends instead. A link that is not active does nothing. -/
def Obligations.TagCommands : Prop :=
  ∀ (s : State) (m : BitVec 2),
    (s.tagActive m.toNat = true →
        (∀ u, u = (s.count (CPL.LOCAL_MATES m.toNat)).countBy (CPL.HEAD_STAT_PENDING m.toNat) 1 →
          (s.tagDrives = false → exec (.tagSession m) s = .next u)
          ∧ (s.tagDrives = true → (s.tag m.toNat).step = .idle → exec (.tagSession m) s = .next (u.startSession m.toNat))
          ∧ (s.tagDrives = true → (s.tag m.toNat).step = .margin → exec (.tagSession m) s
              = .next ((u.withTag m.toNat fun x => { x with restart := true }).endSession m.toNat))
          ∧ (s.tagDrives = true → (s.tag m.toNat).step ≠ .idle → (s.tag m.toNat).step ≠ .margin → exec (.tagSession m) s
              = .next (u.withTag m.toNat fun x => { x with restart := true })))
        ∧ (∀ request response, readTagFrame 0x5C response = none → exec (.tagResponseRx m request response) s = .next (s.count (CPL.TAG_CRC_ERR_CNT m.toNat)))
        ∧ (∀ request response status seq d, readTagFrame 0x5C response = some (status, seq, d) → (s.tag m.toNat).request ≠ [] →
            (seq = (s.tag m.toNat).seq → exec (.tagResponseRx m request response) s = .next (s.tagAnswered m.toNat status seq d))
            ∧ (seq ≠ (s.tag m.toNat).seq → exec (.tagResponseRx m request response) s = .next s))
        ∧ (∀ request response status seq d cmd qseq q, readTagFrame 0x5C response = some (status, seq, d) → (s.tag m.toNat).request = [] → s.tagDrives = false →
            readTagFrame 0xC5 request = some (cmd, qseq, q) → qseq = seq → exec (.tagResponseRx m request response) s = .next (s.tagOverheard m.toNat cmd seq q status d))
        ∧ ((s.tag m.toNat).request = [] → exec (.tagTimeout m) s = .next s)
        ∧ (∀ u, u = s.count (CPL.TAG_TMO_CNT m.toNat) → (s.tag m.toNat).request ≠ [] →
            ((s.tag m.toNat).tries < 3 → exec (.tagTimeout m) s = .next (u.goOn m.toNat fun s => (s.withTag m.toNat fun x => { x with tries := x.tries + 1 }).sendTag m.toNat))
            ∧ (3 ≤ (s.tag m.toNat).tries → exec (.tagTimeout m) s = .next (u.goOn m.toNat fun s => s.tagGiveUp m.toNat)))
        ∧ (∀ reads, (s.tag m.toNat).step ≠ .margin ∨ s.sampleDue m.toNat = false → exec (.marginSample m true reads) s = .next s)
        ∧ (∀ reads, (s.tag m.toNat).step ≠ .margin → exec (.marginSample m false reads) s = .next s)
        ∧ (∀ reads, (s.tag m.toNat).step = .margin → s.sampleDue m.toNat = true → s.tagCutShort m.toNat = true →
            exec (.marginSample m true reads) s = .next (s.endSession m.toNat))
        ∧ (∀ reads, (s.tag m.toNat).step = .margin → s.tagCutShort m.toNat = true → exec (.marginSample m false reads) s = .next (s.endSession m.toNat))
        ∧ (∀ (u : State) (reads : List (Option (BitVec 16))), (s.tag m.toNat).step = .margin → s.tagCutShort m.toNat = false →
            u = ((s.countBy (CPL.MDIO_ERR_CNT m.toNat) 0).withTag m.toNat fun x => { x with sampled := none, lowRun := min 255 (x.lowRun + 1) }).evalWear m.toNat →
            ((u.tag m.toNat).auth ≠ 1 → exec (.marginSample m false reads) s = .next (u.endSession m.toNat))
            ∧ ((u.tag m.toNat).auth = 1 → exec (.marginSample m false reads) s = .next ((u.withTag m.toNat fun x => { x with events := 1 :: x.events }).stepLog m.toNat)))
        ∧ (∀ (u w : State) (reads : List (Option (BitVec 16))) v, (s.tag m.toNat).step = .margin → s.sampleDue m.toNat = true → s.tagCutShort m.toNat = false →
            s.flag (CPL.PORT_CFG_MDIO_EN m.toNat) = true → u = s.countBy (CPL.MDIO_ERR_CNT m.toNat) ((reads.take 16).filter Option.isNone).length →
            u.sampleOf m.toNat (reads.take 16) = some v →
            w = (u.withTag m.toNat fun x => { x with sampled := some v, lowRun := if v < (u.tag m.toNat).floor then min 255 (x.lowRun + 1) else 0 }).evalWear m.toNat →
            drifts (w.tag m.toNat).margins v (w.get CPL.TREND_DROP) = false →
            ((w.tag m.toNat).auth ≠ 1 → exec (.marginSample m true reads) s = .next (w.endSession m.toNat))
            ∧ ((w.tag m.toNat).auth = 1 → exec (.marginSample m true reads) s = .next ((w.withTag m.toNat fun x => { x with events := 1 :: x.events }).stepLog m.toNat))))
    ∧ (s.tagActive m.toNat = false → ∀ request response linked reads, exec (.tagSession m) s = .next s ∧ exec (.tagResponseRx m request response) s = .next s
        ∧ exec (.tagTimeout m) s = .next s ∧ exec (.marginSample m linked reads) s = .next s)

/-! Power, resets, errors and register pages (spec/16_power_clocks_reset.md, spec/02_inside_the_device.md, spec/17_register_pages.md). -/

/-- Supplies and clocks (R432 to R443): outside LOCKED pairs, a PD_CTRL write that moves one domain which may switch queues it, and one that may not is
counted as refused; the sequencer completes one switch at a time, and none while the chip is held or nothing is queued; a warning is entered once,
long after 50 µs of warning time, and left through 1 ms of recovery; a core voltage reading moves VDD_MIN and the window, and leaving the window
aborts what runs; a temperature shows whether it lies in the proofing range, and outside it aborts what runs; clock readings inside their windows show
all four clocks as good and count no deviation. -/
def Obligations.PowerCommands : Prop :=
  ∀ s : State,
    (∀ (v : Word) (d : Nat) (on : Bool), s.lockedMode = false ∨ (d < 4 ∨ 7 < d) ∧ bitOf (s.get PWR.PD_CTRL) 4 = bitOf (s.get PWR.PD_CTRL) 6
          ∧ bitOf (s.get PWR.PD_CTRL) 5 = bitOf (s.get PWR.PD_CTRL) 7 → d < 16 → (∀ e, e < 16 → e ≠ d → bitOf v.toNat e = bitOf (s.get PWR.PD_CTRL) e) →
        bitOf v.toNat d = on → bitOf (s.get PWR.PD_CTRL) d = !on → ∃ t, exec (.pdCtrlWrite v) s = .next t ∧ t.mem = s.mem ∧ t.sent = s.sent
          ∧ (s.mayPower d on = true → t.power.queue = s.power.queue ++ [(d, on)] ∧ bitOf (t.get PWR.PD_CTRL) d = on)
          ∧ (s.mayPower d on = false → t.power.queue = s.power.queue ∧ t.get PWR.PD_CTRL = s.get PWR.PD_CTRL
            ∧ t.get PWR.PD_REFUSED_CNT = min (s.get PWR.PD_REFUSED_CNT + 1) (2 ^ PWR.PD_REFUSED_CNT.width - 1)))
    ∧ (∀ (d : Nat) (on : Bool) (u : State), s.power.held = false → s.power.queue = [(d, on)] → (on = true → s.flag PWR.SUP_STAT_BO_ACTIVE = false) →
        u = ({ s.resetDomain d with power := { s.power with queue := [] } } : State).set PWR.PD_STAT_ON (withBit ((s.resetDomain d).get PWR.PD_STAT_ON) d on) →
        (on = false → exec .pdDone s = .next (((u.setFlag PWR.PD_STAT_SEQ_BUSY false).raise .pwr 11).recheckLines s))
        ∧ (on = true → d ≠ 1 → d ≠ 14 → exec .pdDone s = .next ((((u.showLocks d).setFlag PWR.PD_STAT_SEQ_BUSY false).raise .pwr 11).recheckLines s))
        ∧ (on = true → d = 1 → exec .pdDone s = .next (((((u.showLocks 1).loadOtp).setFlag PWR.PD_STAT_SEQ_BUSY false).raise .pwr 11).recheckLines s))
        ∧ (on = true → d = 14 → exec .pdDone s = .next (((((u.showLocks 14).setFlag TWIN.TWIN_STAT_SENIOR
            (!(u.showLocks 14).flag PWR.STRAP_TWIN_ID)).setFlag PWR.PD_STAT_SEQ_BUSY false).raise .pwr 11).recheckLines s)))
    ∧ (s.power.held = true ∨ s.power.queue = [] → exec .pdDone s = .next s)
    ∧ (s.get PWR.SUP_STAT_BO_STATE = boWARN → ∀ mv, exec (.brownoutWarn mv) s = .next (s.readVdd mv.toNat))
    ∧ (s.get PWR.SUP_STAT_BO_STATE ≠ boWARN → ∀ (mv : BitVec 12) (u : State),
        u = (((((s.monitor (if s.get PWR.SUP_STAT_BO_STATE = boNORMAL then 0 else s.power.boSpent)).readVdd mv.toNat).set PWR.SUP_STAT_BO_STATE boWARN).setFlag
          PWR.SUP_STAT_BO_ACTIVE true).updateFlag PWR.RST_CAUSE_BO_SEEN) →
        exec (.brownoutWarn mv) s = .next { ((u.countRaise PWR.BO_WARN_CNT .pwr 8).renameAborts.excursion 6) with brownoutMark := true })
    ∧ (s.get PWR.SUP_STAT_BO_STATE = boWARN → exec .boRecover s = .next ((s.monitor (s.power.boSpent + s.monitored)).set PWR.SUP_STAT_BO_STATE boRECOVER))
    ∧ (s.get PWR.SUP_STAT_BO_STATE = boWARN → s.flag PWR.SUP_STAT_BO_LONG = false → 50000 ≤ s.power.boSpent + s.monitored →
        exec .brownoutLong s = .next (((s.setFlag PWR.SUP_STAT_BO_LONG true).countRaise PWR.BO_LONG_CNT .pwr 9).tryHandover s.handoverTick))
    ∧ (s.get PWR.SUP_STAT_BO_STATE = boRECOVER → 1000000 ≤ s.monitored → s.sec.waiting = none → exec .brownoutEnd s = .next ((((s.set PWR.SUP_STAT_BO_STATE boNORMAL).setFlag
        PWR.SUP_STAT_BO_ACTIVE false).setFlag PWR.SUP_STAT_BO_LONG false).raise .pwr 10))
    ∧ (s.power.boSpent + s.monitored < 50000 → exec .brownoutLong s = .next s) ∧ (s.monitored < 1000000 → exec .brownoutEnd s = .next s)
    ∧ (s.get PWR.SUP_STAT_BO_STATE = boNORMAL → exec .boRecover s = .next s ∧ exec .brownoutLong s = .next s ∧ exec .brownoutEnd s = .next s)
    ∧ (∀ mv : BitVec 12, s.flag PWR.SUP_STAT_VDD_WIN = false ∨ (s.readVdd mv.toNat).flag PWR.SUP_STAT_VDD_WIN = true → exec (.vddWindowExcursion mv) s = .next (s.readVdd mv.toNat))
    ∧ (∀ (mv : BitVec 12) (u : State), u = s.readVdd mv.toNat → s.flag PWR.SUP_STAT_VDD_WIN = true → u.flag PWR.SUP_STAT_VDD_WIN = false →
        exec (.vddWindowExcursion mv) s = .next { u.excursion 3 with proof := { (u.excursion 3).proof with vddAborted := some ((u.excursion 3).ltcNs, u.runningTargets) } })
    ∧ (∀ t : BitVec 12, -160 ≤ t.toInt → t.toInt ≤ 500 → exec (.tjRange t) s = .next ((s.set PWR.TJ t.toNat).setFlag PWR.SUP_STAT_TJ_WIN true))
    ∧ (∀ t : BitVec 12, t.toInt < -160 ∨ 500 < t.toInt → exec (.tjRange t) s = .next ((((s.set PWR.TJ t.toNat).setFlag PWR.SUP_STAT_TJ_WIN false).raise .pwr 13).excursion 5))
    ∧ (∀ ref fab eng : BitVec 16, 248 ≤ ref.toNat → ref.toNat ≤ 252 → 3980 ≤ fab.toNat → fab.toNat ≤ 4020 → 7960 ≤ eng.toNat → eng.toNat ≤ 8040 →
        ∃ t, exec (.gocWindow ref fab eng false) s = .next t ∧ t.flag CLK.CLK_STAT_GRD_OK = true ∧ t.flag CLK.CLK_STAT_REF_OK = true ∧ t.flag CLK.CLK_STAT_FAB_OK = true
          ∧ t.flag CLK.CLK_STAT_ENG_OK = true ∧ t.get CLK.GOC_DEV_CNT = s.get CLK.GOC_DEV_CNT ∧ t.power.deviating = false ∧ t.mem = s.mem)

/-- Resets (R444 to R446, R455): a power-on reset and each of the other chip resets leave the OTP and what was sent as they were, and memory, the lines,
the time unit, the twin unit and the switch as after reset, the straps sampled where pins are read and the cause recorded; a core reset holds the chip
until it ends; CHIP_RST needs its word; a page's soft reset is refused while the page is locked and nothing while it has no power; a clear of the
fault latch in a clock without a new fault empties it. -/
def Obligations.ResetCommands : Prop :=
  ∀ (s : State) (src : BitVec 2) (twinId : Bool),
    exec (.powerOnReset src twinId) s = .next (s.fullReset.sampleStraps src.toNat twinId)
    ∧ exec (.resetN src twinId) s = .next ((s.chipReset PWR.RST_CAUSE_PIN).sampleStraps src.toNat twinId)
    ∧ exec .coreReset s = .next { (s.chipReset PWR.RST_CAUSE_VDD) with power := { Power.reset with held := true } }
    ∧ (s.power.held = true → exec (.coreResetEnd src twinId) s = .next ({ s with power := { s.power with held := false } }.sampleStraps src.toNat twinId))
    ∧ (s.power.held = false → exec (.coreResetEnd src twinId) s = .next s)
    ∧ exec (.chipRst 0xB4A7) s = .next (s.chipReset PWR.RST_CAUSE_SOFT)
    ∧ (∀ v, v ≠ 0xB4A7 → exec (.chipRst v) s = .next s)
    ∧ (∀ p : Page, s.powered p = true → (s.locked p = true → exec (.softReset p) s = .next (s.refuse p)) ∧ (s.locked p = false → exec (.softReset p) s = .next (s.softReset p)))
    ∧ (∀ p : Page, s.powered p = false → exec (.softReset p) s = .next s)
    ∧ (s.updates = [] → ∃ t, exec .faultLatchClear s = .next t ∧ t.get PWR.FAULT_LATCH_VALID = 0 ∧ t.get PWR.FAULT_LATCH_REGION = 0 ∧ t.get PWR.FAULT_LATCH_CAUSE = 0
        ∧ t.get PWR.FAULT_LATCH_CELL = 0 ∧ t.get PWR.FAULT_CYCLE = 0 ∧ t.mem = s.mem)
    ∧ (∀ r : Reg, s.fullReset.otp = s.otp ∧ (s.chipReset r).otp = s.otp ∧ s.fullReset.mem = State.reset.mem ∧ (s.chipReset r).mem = State.reset.mem
        ∧ s.fullReset.lineA = State.reset.lineA ∧ s.fullReset.lineB = State.reset.lineB ∧ s.fullReset.time = State.reset.time ∧ s.fullReset.twinUnit = State.reset.twinUnit
        ∧ s.fullReset.switch = State.reset.switch ∧ s.fullReset.sent = s.sent
        ∧ (s.chipReset r).lineA = State.reset.lineA ∧ (s.chipReset r).lineB = State.reset.lineB ∧ (s.chipReset r).time = State.reset.time ∧ (s.chipReset r).twinUnit = State.reset.twinUnit
        ∧ (s.chipReset r).switch = State.reset.switch ∧ (s.chipReset r).sent = s.sent)

/-- Errors and modes (R34, R36, R45, R48 to R53, R321): an error at a site that has no power or is under test is nothing, a single-bit one is corrected
and another is uncorrectable; a crossbar timeout is counted, the first two of a target in a cycle stay deferred errors and from the third on the
target's region is lost: a channel is quarantined, the others silence the chip; the initiator takes the error response; a miscompare silences the chip
and stops both channels only where both channels are compared; the channel mode changes only while both lines are OFF and the page is not locked, and
is refused otherwise; so do the pair's enable and line. -/
def Obligations.ErrorAndModeCommands : Prop :=
  ∀ (s : State) (site : ErrSite) (word : BitVec 20),
    (s.powered site.place.1 = true → s.siteUnderTest site = false →
        (exec (.memoryError site .single word) s = .next (s.correctedError site.place.1 site.place.2 word.toNat)
          ∧ exec (.scrubRead site (some .single) word) s = .next (s.correctedError site.place.1 site.place.2 word.toNat))
        ∧ ∀ k, k ≠ .single → exec (.memoryError site k word) s = .next (s.uncorrectable site k word.toNat)
          ∧ exec (.scrubRead site (some k) word) s = .next (s.uncorrectable site k word.toNat))
    ∧ (s.powered site.place.1 = false ∨ s.siteUnderTest site = true → ∀ k, exec (.memoryError site k word) s = .next s ∧ exec (.scrubRead site (some k) word) s = .next s)
    ∧ exec (.scrubRead site none word) s = .next s
    ∧ (∀ (t : BitVec 3) (init : Initiator) (u : State), t.toNat < 5 →
        u = ({ s with health := { s.health with timeouts := setAt s.health.timeouts t.toNat (s.health.timeouts.getD t.toNat 0 + 1) } }).countRaise CHIP.XBAR_TMO_CNT .chip 8 →
        (s.health.timeouts.getD t.toNat 0 < 2 → exec (.crossbarTimeout ⟨t, init⟩) s = .next ((u.classDE .chip t.toNat 4 0).answerTimeout init))
        ∧ (2 ≤ s.health.timeouts.getD t.toNat 0 →
            (t = 0 → exec (.crossbarTimeout ⟨t, init⟩) s = .next ((u.regionUE .chip .A 0 4 0).answerTimeout init))
            ∧ (t = 1 → exec (.crossbarTimeout ⟨t, init⟩) s = .next ((u.regionUE .chip .B 1 4 0).answerTimeout init))
            ∧ (t ≠ 0 → t ≠ 1 → exec (.crossbarTimeout ⟨t, init⟩) s = .next ((u.chipUE .chip t.toNat t.toNat 4 0).answerTimeout init))))
    ∧ (∀ (t : BitVec 3) (init : Initiator), 5 ≤ t.toNat → exec (.crossbarTimeout ⟨t, init⟩) s = .next s)
    ∧ (∀ (b : Requester) (tag : BitVec 16), b.isHost = true →
        s.answerTimeout (.hostRead b tag) = s.endRead ⟨b, tag.toNat, false, 0, 0, [], none, false, false, false⟩ none)
    ∧ (∀ (b : Requester) space addr tag, b.isHost = true → s.answerTimeout (.hostWrite b space addr tag) = s.postedFail (bridgePage b) 0 1 space.toNat addr.toNat tag.toNat)
    ∧ (∀ (c : Line) (r : BitVec 4) addr store, s.engRuns c r.toNat = true →
        s.answerTimeout (.engine c r addr store) = s.accessFault c r.toNat (if store then exSTORE else exLOAD) addr)
    ∧ (s.lockedMode = true → s.flag CHIP.CH_MODE_LOCK_LOST = false → exec .lockstepMiscompare s
        = .next (((s.chipUE .chip 4 0 5 0).quarantineMark .A).quarantineMark .B))
    ∧ (s.lockedMode = false ∨ s.flag CHIP.CH_MODE_LOCK_LOST = true → exec .lockstepMiscompare s = .next s)
    ∧ (∀ on, s.bothOff = false → exec (.chModeWrite on) s = .next (s.refuse .chip))
    ∧ (s.bothOff = true → exec (.chModeWrite s.lockedMode) s = .next s)
    ∧ (∀ on, on ≠ s.lockedMode → (s.locked .chip = true → exec (.chModeWrite on) s = .next (s.refuse .chip))
        ∧ (s.locked .chip = false → s.bothOff = true → exec (.chModeWrite on) s = .next ((s.stampConfig .chip).setFlag CHIP.CH_MODE_MODE on)))
    ∧ (∀ v : Word, s.powered .twin = true → bitOf v.toNat 0 ≠ s.twin ∨ bitOf v.toNat 1 ≠ s.flag TWIN.TWIN_CTRL_LINE →
        bitOf v.toNat 2 = s.flag TWIN.TWIN_CTRL_ENG_TX_FOLLOW → bitOf v.toNat 8 = s.flag TWIN.TWIN_CTRL_HANDOVER →
        (s.bothOff = false ∨ s.locked .twin = true → exec (.twinCtrlWrite v) s = .next ((((s.refuse .twin).recheckLines s).settleHat).writeHostGrant (v.toNat / 2 ^ 16)))
        ∧ (∀ u, s.bothOff = true → s.locked .twin = false →
            u = ((s.stampConfig .twin).setFlag TWIN.TWIN_CTRL_EN (bitOf v.toNat 0)).setFlag TWIN.TWIN_CTRL_LINE (bitOf v.toNat 1) →
            exec (.twinCtrlWrite v) s = .next (((((u.when (!bitOf v.toNat 0 && u.hat != hatOFF) fun s => (s.setHat hatOFF s.cycle).dropHatOut).recheckLines s).settleHat)).writeHostGrant
              (v.toNat / 2 ^ 16))))
    ∧ (s.powered .twin = false → ∀ v, exec (.twinCtrlWrite v) s = .next s)

/-- Register pages (R6, R7, R454 to R463): the lock is set by its bit, cleared by its key unless sticky, and a wrong key is refused; a write of 1 clears
interrupt bits, but for those set in the same clock, and INT_SET sets those the page has; a page without power takes no such command; LOCK_ALL locks
every powered page and STICKY holds the key off; a read answers with the word, and a write does what its word's rules say; a pin's level is taken and
its edge captured where its direction is enabled; output writes set and clear bit by bit. -/
def Obligations.PageCommands : Prop :=
  ∀ (s : State) (p : Page) (v : Word),
    (p.known = true → s.powered p = true →
        exec (.cfgLock p) s = .next (s.setLock p)
        ∧ (s.setLock p).flag (HDR.PAGE_CTRL_CFG_LOCK p) = true
        ∧ (s.thisClock.written = [] → s.setLock p = s.setFlag (HDR.PAGE_CTRL_CFG_LOCK p) true)
        ∧ (s.flag CHIP.LOCK_CTRL_STICKY = false → s.flag (HDR.PAGE_CTRL_CFG_LOCK p) = true → exec (.lockKey p 0xB4A7) s
            = .next ({ s with thisClock := { s.thisClock with unlocked := p :: s.thisClock.unlocked } }.setFlag (HDR.PAGE_CTRL_CFG_LOCK p) false))
        ∧ (s.flag CHIP.LOCK_CTRL_STICKY = false → s.flag (HDR.PAGE_CTRL_CFG_LOCK p) = false → exec (.lockKey p 0xB4A7) s = .next (s.setFlag (HDR.PAGE_CTRL_CFG_LOCK p) false))
        ∧ (∀ key, s.flag CHIP.LOCK_CTRL_STICKY = false → key ≠ 0xB4A7 → exec (.lockKey p key) s = .next (s.refuse p))
        ∧ (∀ key, s.flag CHIP.LOCK_CTRL_STICKY = true → exec (.lockKey p key) s = .next s)
        ∧ exec (.intRawClear p v) s = .next (s.clearBits (HDR.INT_RAW p) v.toNat)
        ∧ (s.updates = [] → s.clearBits (HDR.INT_RAW p) v.toNat = s.set (HDR.INT_RAW p) (s.get (HDR.INT_RAW p) - (s.get (HDR.INT_RAW p) &&& v.toNat)))
        ∧ (∀ b, b < 32 → bitOf ((s.raise p b).get (HDR.INT_RAW p)) b = true ∧ bitOf (((s.raise p b).clearBits (HDR.INT_RAW p) v.toNat).get (HDR.INT_RAW p)) b = true)
        ∧ exec (.intSet p v) s = .next (s.set (HDR.INT_RAW p) (s.get (HDR.INT_RAW p) ||| (v.toNat &&& p.intMask))))
    ∧ (s.powered p = false → ∀ key, exec (.cfgLock p) s = .next s ∧ exec (.lockKey p key) s = .next s ∧ exec (.intRawClear p v) s = .next s ∧ exec (.intSet p v) s = .next s)
    ∧ exec .lockAll s = .next (s.each (allPages.filter s.powered) fun q t => t.setLock q)
    ∧ exec .sticky s = .next (s.setFlag CHIP.LOCK_CTRL_STICKY true)
    ∧ (∀ (who : Requester) (addr : BitVec 24),
        (∀ w t, s.readWord who addr.toNat = (some w, t) → exec (.readClear who addr) s = .next (t.emit (.regData who addr.toNat w)))
        ∧ (∀ t, s.readWord who addr.toNat = (none, t) → exec (.readClear who addr) s = .next t)
        ∧ exec (.registerWrite who addr v) s = .next (s.writeWord who addr.toNat v).1)
    ∧ (∀ (n : BitVec 5) (level : Bool),
        (s.powered .gpio = false → exec (.gpioEdge n level) s = .next s)
        ∧ (s.powered .gpio = true → ∀ u, u = s.set GPIO.IN (withBit (s.get GPIO.IN) n.toNat level) → u.get GPIO.IN = withBit (s.get GPIO.IN) n.toNat level
            ∧ exec (.gpioEdge n level) s = .next (u.pinEdges s)
            ∧ (bitOf s.gpioIn n.toNat = !level → bitOf u.gpioIn n.toNat = level → bitOf (s.get (if level then GPIO.RISE_EN else GPIO.FALL_EN)) n.toNat = true → s.cellDead .gpio n.toNat = false →
                s.live .gpio = true → bitOf ((u.pinEdges s).get GPIO.EDGE) n.toNat = true
                  ∧ (bitOf (s.get GPIO.EDGE) n.toNat = false → bitOf ((u.pinEdges s).get (HDR.INT_RAW .gpio)) 8 = true))))
    ∧ (s.powered .gpio = true → exec (.outSet v) s = .next (s.setOutputs v.toNat) ∧ exec (.outClr v) s = .next (s.clearOutputs v.toNat))
    ∧ (s.thisClock.outs = none → (s.setOutputs v.toNat).get GPIO.OUT = s.get GPIO.OUT ||| v.toNat
        ∧ (s.clearOutputs v.toNat).get GPIO.OUT = s.get GPIO.OUT - (s.get GPIO.OUT &&& v.toNat))
    ∧ (s.powered .gpio = false → exec (.outSet v) s = .next s ∧ exec (.outClr v) s = .next s)

/-! Rules stated whole. -/

/-- R159: in GTB and forerunner mode a backbone port ignores a PAUSE frame and counts it: the count is all that changes. -/
def Obligations.BackbonePortsIgnorePauseFrames : Prop :=
  ∀ (s : State) (q : BitVec 4) (quanta : BitVec 16), isBackbone q.toNat = true → s.portOn q.toNat = true → s.etbOn = false →
    exec (.pauseFrameRx q quanta) s = .next (s.count (GTB.PAUSE_IGN_CNT (backbonePort q.toNat).line))
    ∧ (s.count (GTB.PAUSE_IGN_CNT (backbonePort q.toNat).line)).get (GTB.PAUSE_IGN_CNT (backbonePort q.toNat).line)
        = min (s.get (GTB.PAUSE_IGN_CNT (backbonePort q.toNat).line) + 1) (2 ^ (GTB.PAUSE_IGN_CNT (backbonePort q.toNat).line).width - 1)

/-- R76: PPS_LOST is the command for 3 s without an edge. The Starter clears EXT_VALID, publishes EXT_STEP = 0 and raises the interrupt; no error of
PPS_IN is left to correct, so the averaging alone goes on. A node that is not the Starter ignores PPS_IN. -/
def Obligations.LosingThePulsePerSecond : Prop :=
  ∀ s : State,
    (s.flag TIME.TIME_STAT_STARTER = true → ∃ t, exec .ppsLost s = .next t
      ∧ t = ((s.setFlag TIME.TIME_STAT_EXT_VALID false).raise .time 13).withTime (fun x => { x with ppsOutstanding := 0, ppsGoodRun := 0, extPublished := 0 })
      ∧ t.flag TIME.TIME_STAT_EXT_VALID = false ∧ t.time.extPublished = 0 ∧ bitOf (t.get (HDR.INT_RAW .time)) 13 = true ∧ t.time.ppsOutstanding = 0
      ∧ ∀ l, (t.syncRecord l).extStep = 0 ∧ (t.syncRecord l).extValid = false)
    ∧ (s.flag TIME.TIME_STAT_STARTER = false → exec .ppsLost s = .next s ∧ ∀ at_ rising, exec (.ppsEdge at_ rising) s = .next s)

/-- R244: the 65th store of a cycle discards all of them, and the queue refuses every later one; the engine counts and raises it. Nothing is stored:
memory, what was sent and the registers stay but for those two and the fields that show the role's state. In LOCKED mode both channels' engines hold
the same; a quarantined channel of a LOCKED pair runs no engine. -/
def Obligations.SixtyFifthStoreDiscardsTheCycle : Prop :=
  ∀ (s : State) (c : Line) (r e : Nat) (addr : Word) (data : List Byte), c ∈ s.pairOf c → (∀ d ∈ s.pairOf c, r < (s.roles d).length ∧ s.engineOf d r = some e) →
    (s.role c r).refused = false →
    ((s.role c r).relq.length < 64 → ∀ d ∈ s.pairOf c, ((s.queueStore c r addr data).role d r).relq = (s.role d r).relq ++ [⟨addr, data⟩])
    ∧ ((s.role c r).relq.length = 64 → ∃ t, t = s.queueStore c r addr data
      ∧ (∀ d ∈ s.pairOf c, (t.role d r).relq = [] ∧ (t.role d r).refused = true
        ∧ t.get (ENG.RELQ_OVF_CNT d e) = min (s.get (ENG.RELQ_OVF_CNT d e) + 1) (2 ^ (ENG.RELQ_OVF_CNT d e).width - 1)
        ∧ bitOf (t.get (HDR.INT_RAW (.eng d e))) 10 = true)
      ∧ t.mem = s.mem ∧ t.sent = s.sent
      ∧ (∀ q : Reg, (∀ d ∈ s.pairOf c, q.key ∉ [(ENG.RELQ_OVF_CNT d e).key, (HDR.INT_RAW (.eng d e)).key, (ENG.ENG_STAT_TAINTED d e).key, (ENG.ENG_STAT_SEALED d e).key,
          (ENG.ENG_STAT_VIEW d e).key, (ENG.ENG_STAT_EVQ_DEPTH d e).key, (ENG.ENG_STAT_STATE d e).key]) → t.get q = s.get q)
      ∧ ∀ a bs, t.queueStore c r a bs = t)
end

