-- ==== Sys2Proof/Laws/Keeps.lean ====
section
/-! SUPPORT. What every operation of the model keeps: the queue, the canonical form of the two stores, all that has been sent, and the local
time. One lemma per operation says so, for the operation applied to any state that already follows the first. -/

namespace Sys2Proof.Machine

/-- `t` follows `s` with the queue as it was, nothing unsent, canonical stores where they were canonical, and, where `b` asks for it, the same
LTC. -/
structure Keeps (b : Bool) (s t : State) : Prop where
  queue : t.pending = s.pending
  sent : s.SentBefore t
  regs : ascending s.regs = true → ascending t.regs = true
  mem : Memory.wf s.mem = true → Memory.wf t.mem = true
  ltc : b = true → t.time.ltc = s.time.ltc

/-- The same of a state answered with something after it, before it, or perhaps. -/
def KeepsFst {α : Type} (b : Bool) (s : State) (p : State × α) : Prop := Keeps b s p.1
def KeepsSnd {α : Type} (b : Bool) (s : State) (p : α × State) : Prop := Keeps b s p.2
def KeepsOpt {α : Type} (b : Bool) (s : State) (o : Option (α × State)) : Prop := ∀ p, o = some p → Keeps b s p.2

/-- The same of a command's outcome, which is a next state. -/
def KeepsOut (b : Bool) (s : State) (o : Host.Outcome State Fault Refusal) : Prop := ∃ t, o = .next t ∧ Keeps b s t

/-! Rules of composition. -/

theorem Keeps.refl {b : Bool} {s : State} : Keeps b s s := ⟨rfl, ⟨[], by simp⟩, id, id, fun _ => rfl⟩

theorem Keeps.weak {b : Bool} {s t : State} (h : Keeps b s t) : Keeps false s t := ⟨h.queue, h.sent, h.regs, h.mem, by simp⟩

theorem Keeps.trans {b : Bool} {s t u : State} (h : Keeps b s t) (k : Keeps b t u) : Keeps b s u := by
  obtain ⟨l, hl⟩ := h.sent
  obtain ⟨m, hm⟩ := k.sent
  exact ⟨k.queue.trans h.queue, ⟨l ++ m, by rw [hm, hl, List.append_assoc]⟩, k.regs ∘ h.regs, k.mem ∘ h.mem,
    fun e => (k.ltc e).trans (h.ltc e)⟩

/-- An update of other fields. -/
theorem Keeps.congr {b : Bool} {s t u : State} (h : Keeps b s t) (h1 : u.pending = t.pending) (h2 : u.sent = t.sent)
    (h3 : u.regs = t.regs) (h4 : u.mem = t.mem) (h5 : b = true → u.time.ltc = t.time.ltc) : Keeps b s u := by
  obtain ⟨l, hl⟩ := h.sent
  exact ⟨h1.trans h.queue, ⟨l, h2.trans hl⟩, fun e => h3 ▸ h.regs e, fun e => h4 ▸ h.mem e, fun e => (h5 e).trans (h.ltc e)⟩

theorem Keeps.ite {b : Bool} {s x y : State} {c : Prop} [Decidable c] (hx : Keeps b s x) (hy : Keeps b s y) :
    Keeps b s (if c then x else y) := by split <;> assumption

theorem Keeps.ite_fst {α : Type} {b : Bool} {s : State} {x y : State × α} {c : Prop} [Decidable c] (hx : KeepsFst b s x)
    (hy : KeepsFst b s y) : KeepsFst b s (if c then x else y) := by split <;> assumption

theorem Keeps.ite_snd {α : Type} {b : Bool} {s : State} {x y : α × State} {c : Prop} [Decidable c] (hx : KeepsSnd b s x)
    (hy : KeepsSnd b s y) : KeepsSnd b s (if c then x else y) := by split <;> assumption

theorem Keeps.ite_opt {α : Type} {b : Bool} {s : State} {x y : Option (α × State)} {c : Prop} [Decidable c] (hx : KeepsOpt b s x)
    (hy : KeepsOpt b s y) : KeepsOpt b s (if c then x else y) := by split <;> assumption

theorem Keeps.mk_fst {α : Type} {b : Bool} {s t : State} {a : α} (h : Keeps b s t) : KeepsFst b s (t, a) := h
theorem Keeps.mk_snd {α : Type} {b : Bool} {s t : State} {a : α} (h : Keeps b s t) : KeepsSnd b s (a, t) := h

theorem Keeps.mk_opt {α : Type} {b : Bool} {s t : State} {a : α} (h : Keeps b s t) : KeepsOpt b s (some (a, t)) := by
  rintro p ⟨⟩; exact h

theorem Keeps.none_opt {α : Type} {b : Bool} {s : State} : KeepsOpt b s (none : Option (α × State)) := by rintro p ⟨⟩

theorem Keeps.mk_out {b : Bool} {s t : State} (h : Keeps b s t) : KeepsOut b s (.next t) := ⟨t, rfl, h⟩

theorem Keeps.ite_out {b : Bool} {s : State} {x y : Host.Outcome State Fault Refusal} {c : Prop} [Decidable c] (hx : KeepsOut b s x)
    (hy : KeepsOut b s y) : KeepsOut b s (if c then x else y) := by split <;> assumption

theorem Keeps.of_out {b : Bool} {s u : State} {o : Host.Outcome State Fault Refusal} (h : KeepsOut b s o) : Keeps b s (landed u o) := by
  obtain ⟨t, rfl, h⟩ := h
  exact h

theorem Keeps.of_fst {α : Type} {b : Bool} {s t : State} {p : State × α} {a : α} (e : p = (t, a)) (h : KeepsFst b s p) :
    Keeps b s t := by subst e; exact h

theorem Keeps.of_snd {α : Type} {b : Bool} {s t : State} {p : α × State} {a : α} (e : p = (a, t)) (h : KeepsSnd b s p) :
    Keeps b s t := by subst e; exact h

theorem Keeps.of_opt {α : Type} {b : Bool} {s t : State} {o : Option (α × State)} {a : α} (e : o = some (a, t)) (h : KeepsOpt b s o) :
    Keeps b s t := h _ e

theorem Keeps.foldl {α : Type} {b : Bool} {s t : State} {l : List α} {f : State → α → State} (h : Keeps b s t)
    (hf : ∀ u a, Keeps b s u → Keeps b s (f u a)) : Keeps b s (l.foldl f t) := by
  induction l generalizing t with
  | nil => exact h
  | cons a l ih => exact ih (hf t a h)

theorem Keeps.foldl_fst {α β : Type} {b : Bool} {s : State} {t : State × β} {l : List α} {f : State × β → α → State × β}
    (h : KeepsFst b s t) (hf : ∀ u a, KeepsFst b s u → KeepsFst b s (f u a)) : KeepsFst b s (l.foldl f t) := by
  induction l generalizing t with
  | nil => exact h
  | cons a l ih => exact ih (hf t a h)

theorem Keeps.foldl_snd {α β : Type} {b : Bool} {s : State} {t : β × State} {l : List α} {f : β × State → α → β × State}
    (h : KeepsSnd b s t) (hf : ∀ u a, KeepsSnd b s u → KeepsSnd b s (f u a)) : KeepsSnd b s (l.foldl f t) := by
  induction l generalizing t with
  | nil => exact h
  | cons a l ih => exact ih (hf t a h)

/-! The canonical form of a store (spec/00_scope.md R6; log entry 1). -/

theorem ascending_cons {β : Type} {a : Nat × β} {l : List (Nat × β)} :
    ascending (a :: l) = true ↔ (∀ e ∈ l, a.1 < e.1) ∧ ascending l = true := by
  induction l generalizing a with
  | nil => simp [ascending]
  | cons c l ih =>
    simp only [ascending, Bool.and_eq_true, decide_eq_true_eq, List.mem_cons, forall_eq_or_imp]
    constructor
    · rintro ⟨h, k⟩
      exact ⟨⟨h, fun e he => lt_trans h ((ih.mp k).1 e he)⟩, k⟩
    · rintro ⟨⟨h, _⟩, k⟩
      exact ⟨h, k⟩

theorem ascending_filter {β : Type} {l : List (Nat × β)} (p : Nat × β → Bool) (h : ascending l = true) :
    ascending (l.filter p) = true := by
  induction l with
  | nil => exact h
  | cons a l ih =>
    obtain ⟨h1, h2⟩ := ascending_cons.mp h
    simp only [List.filter_cons]
    split
    · exact ascending_cons.mpr ⟨fun e he => h1 e (List.mem_of_mem_filter he), ih h2⟩
    · exact ih h2

theorem mem_enlist {β : Type} {l : List (Nat × β)} {a : Nat} {v : β} {e : Nat × β} (h : e ∈ enlist l a v) : e = (a, v) ∨ e ∈ l := by
  induction l with
  | nil => simpa [enlist] using h
  | cons c l ih =>
    obtain ⟨k, w⟩ := c
    simp only [enlist] at h
    split at h
    · simpa using h
    · rcases List.mem_cons.mp h with h | h
      · exact .inr (by simp [h])
      · rcases ih h with h | h
        · exact .inl h
        · exact .inr (List.mem_cons_of_mem _ h)

theorem ascending_enlist {β : Type} {l : List (Nat × β)} {a : Nat} {v : β} (h : ascending l = true) (hn : ∀ e ∈ l, e.1 ≠ a) :
    ascending (enlist l a v) = true := by
  induction l with
  | nil => rfl
  | cons c l ih =>
    obtain ⟨k, w⟩ := c
    obtain ⟨h1, h2⟩ := ascending_cons.mp h
    simp only [enlist]
    split
    · rename_i hlt
      exact ascending_cons.mpr ⟨by
        intro e he
        rcases List.mem_cons.mp he with rfl | he
        · exact hlt
        · exact lt_trans hlt (h1 e he), h⟩
    · rename_i hlt
      refine ascending_cons.mpr ⟨?_, ih h2 fun e he => hn e (List.mem_cons_of_mem _ he)⟩
      intro e he
      rcases mem_enlist he with rfl | he
      · exact lt_of_le_of_ne (not_lt.mp hlt) (by simpa using hn (k, w) (by simp))
      · exact h1 e he

theorem ascending_store {β : Type} [DecidableEq β] {d : β} {l : List (Nat × β)} {a : Nat} {v : β} (h : ascending l = true) :
    ascending (store d l a v) = true := by
  unfold store
  split
  · exact ascending_filter _ h
  · refine ascending_enlist (ascending_filter _ h) ?_
    intro e he
    simpa using (List.mem_filter.mp he).2

theorem mem_store {β : Type} [DecidableEq β] {d : β} {l : List (Nat × β)} {a : Nat} {v : β} {e : Nat × β} (h : e ∈ store d l a v) :
    (e = (a, v) ∧ v ≠ d) ∨ e ∈ l := by
  unfold store at h
  split at h
  · exact .inr (List.mem_of_mem_filter h)
  · rename_i hv
    rcases mem_enlist h with h | h
    · exact .inl ⟨h, hv⟩
    · exact .inr (List.mem_of_mem_filter h)

/-- Writing a byte keeps the memory's canonical form. -/
theorem memory_wf_store {m : List Host.Cell} {a : Nat} {v : Byte} (h : Memory.wf m = true) : Memory.wf (store (memDefault a) m a v) = true := by
  simp only [Memory.wf, Bool.and_eq_true, List.all_eq_true, decide_eq_true_eq] at h ⊢
  refine ⟨ascending_store h.1, fun e he => ?_⟩
  rcases mem_store he with ⟨rfl, hv⟩ | he
  · exact hv
  · exact h.2 e he

/-- Removing entries keeps it. -/
theorem memory_wf_filter {m : List Host.Cell} (p : Host.Cell → Bool) (h : Memory.wf m = true) : Memory.wf (m.filter p) = true := by
  simp only [Memory.wf, Bool.and_eq_true, List.all_eq_true, decide_eq_true_eq] at h ⊢
  exact ⟨ascending_filter _ h.1, fun e he => h.2 e (List.mem_of_mem_filter he)⟩

/-! The operations on stores, and what is sent. -/

theorem State.setByte_keeps {b : Bool} {s0 a0 : State} {a1 : Nat} {a2 : Byte} (ha0 : Keeps b s0 a0) : Keeps b s0 (a0.setByte a1 a2) :=
  ⟨ha0.queue, ha0.sent, ha0.regs, fun e => memory_wf_store (ha0.mem e), ha0.ltc⟩

theorem State.setBytes_keeps {b : Bool} {s0 a0 : State} {a1 : Nat} {a2 : List Byte} (ha0 : Keeps b s0 a0) :
    Keeps b s0 (a0.setBytes a1 a2) := by
  induction a2 generalizing a0 a1 with
  | nil => exact ha0
  | cons x l ih => exact ih (State.setByte_keeps ha0)

theorem State.clearRange_keeps {b : Bool} {s0 a0 : State} {a1 a2 : Nat} (ha0 : Keeps b s0 a0) : Keeps b s0 (a0.clearRange a1 a2) :=
  ⟨ha0.queue, ha0.sent, ha0.regs, fun e => memory_wf_filter _ (ha0.mem e), ha0.ltc⟩

theorem State.set_keeps {b : Bool} {s0 a0 : State} {a1 : Reg} {a2 : Nat} (ha0 : Keeps b s0 a0) : Keeps b s0 (a0.set a1 a2) :=
  ⟨ha0.queue, ha0.sent, fun e => ascending_store (ha0.regs e), ha0.mem, ha0.ltc⟩

theorem State.clearPage_keeps {b : Bool} {s0 a0 : State} {a1 a2 a3 : Nat} (ha0 : Keeps b s0 a0) : Keeps b s0 (a0.clearPage a1 a2 a3) :=
  ⟨ha0.queue, ha0.sent, fun e => ascending_filter _ (ha0.regs e), ha0.mem, ha0.ltc⟩

theorem State.emit_keeps {b : Bool} {s0 a0 : State} {a1 : Sent} (ha0 : Keeps b s0 a0) : Keeps b s0 (a0.emit a1) := by
  obtain ⟨l, hl⟩ := ha0.sent
  exact ⟨ha0.queue, ⟨l ++ [a1], by simp [State.emit, hl]⟩, ha0.regs, ha0.mem, ha0.ltc⟩

theorem State.withTime_keeps {b : Bool} {s0 a0 : State} {a1 : TimeUnit → TimeUnit} (ha0 : Keeps b s0 a0)
    (h : b = true → ∀ t, (a1 t).ltc = t.ltc) : Keeps b s0 (a0.withTime a1) :=
  Keeps.congr ha0 rfl rfl rfl rfl fun e => h e _

variable {b : Bool} {s0 : State}

theorem State.clock_keeps {a0 : State} (ha0 : Keeps false s0 a0) : Keeps false s0 a0.clock := by
  unfold State.clock
  refine Keeps.ite (Keeps.congr ha0 rfl rfl rfl rfl (by simp)) ?_
  exact State.withTime_keeps (Keeps.congr ha0 rfl rfl rfl rfl (by simp)) (by simp)

end Sys2Proof.Machine
end

