-- ==== Sys2Proof/Laws/KeepsTime.lean ====
section
/-! SUPPORT. What each operation and meaning of the shared operations, the time unit, the cycle, the keys, the hats and the Loaf keeps: one lemma per definition. -/

namespace Sys2Proof.Machine

variable {b : Bool} {s0 : State}

/-! Machine/Ops.lean. -/

theorem State.copyRange_keeps {s : State} {src : ℕ} {dst : ℕ} {n : ℕ} (hs : Keeps b s0 s) :
    Keeps b s0 (State.copyRange s src dst n) := by
  unfold State.copyRange
  refine Keeps.foldl ?_ ?_
  · refine State.clearRange_keeps ?_
    exact hs
  · intro _ _ h0
    refine State.setByte_keeps ?_
    exact h0

theorem State.setFlag_keeps {s : State} {r : Reg} {a2 : Bool} (hs : Keeps b s0 s) :
    Keeps b s0 (State.setFlag s r a2) := by
  unfold State.setFlag
  refine State.set_keeps ?_
  exact hs

theorem State.setInt_keeps {s : State} {r : Reg} {i : ℤ} (hs : Keeps b s0 s) :
    Keeps b s0 (State.setInt s r i) := by
  unfold State.setInt
  refine State.set_keeps ?_
  exact hs

theorem State.set64_keeps {s : State} {lo : Reg} {hi : Reg} {v : ℕ} (hs : Keeps b s0 s) :
    Keeps b s0 (State.set64 s lo hi v) := by
  unfold State.set64
  refine State.set_keeps ?_
  refine State.set_keeps ?_
  exact hs

theorem State.noteUpdate_keeps {s : State} {r : Reg} {before : ℕ} {kept : ℕ} (hs : Keeps b s0 s) :
    Keeps b s0 (State.noteUpdate s r before kept) := by
  unfold State.noteUpdate
  exact Keeps.congr hs rfl rfl rfl rfl (fun _ => rfl)

theorem State.updateTo_keeps {s : State} {r : Reg} {v : ℕ} {kept : ℕ} (hs : Keeps b s0 s) :
    Keeps b s0 (State.updateTo s r v kept) := by
  unfold State.updateTo
  refine State.set_keeps ?_
  refine State.noteUpdate_keeps ?_
  exact hs

theorem State.update_keeps {s : State} {r : Reg} {f : ℕ → ℕ} (hs : Keeps b s0 s) :
    Keeps b s0 (State.update s r f) := by
  unfold State.update
  refine State.updateTo_keeps ?_
  exact hs

theorem State.updateFlag_keeps {s : State} {r : Reg} (hs : Keeps b s0 s) :
    Keeps b s0 (State.updateFlag s r) := by
  unfold State.updateFlag
  refine State.update_keeps ?_
  exact hs

theorem State.clearField_keeps {s : State} {r : Reg} (hs : Keeps b s0 s) :
    Keeps b s0 (State.clearField s r) := by
  unfold State.clearField
  split
  · refine State.set_keeps ?_
    exact hs
  · refine State.set_keeps ?_
    refine State.noteUpdate_keeps ?_
    exact hs

theorem State.clearBits_keeps {s : State} {r : Reg} {m : ℕ} (hs : Keeps b s0 s) :
    Keeps b s0 (State.clearBits s r m) := by
  unfold State.clearBits
  refine State.set_keeps ?_
  exact hs

theorem State.withForming_keeps {s : State} {f : Forming → Forming} (hs : Keeps b s0 s) :
    Keeps b s0 (State.withForming s f) := by
  unfold State.withForming
  exact Keeps.congr hs rfl rfl rfl rfl (fun _ => rfl)

theorem State.withSec_keeps {s : State} {f : Sec → Sec} (hs : Keeps b s0 s) :
    Keeps b s0 (State.withSec s f) := by
  unfold State.withSec
  exact Keeps.congr hs rfl rfl rfl rfl (fun _ => rfl)

theorem State.withTwin_keeps {s : State} {f : Twin → Twin} (hs : Keeps b s0 s) :
    Keeps b s0 (State.withTwin s f) := by
  unfold State.withTwin
  exact Keeps.congr hs rfl rfl rfl rfl (fun _ => rfl)

theorem State.withLine_keeps {s : State} {l : Line} {f : LineState → LineState} (hs : Keeps b s0 s) :
    Keeps b s0 (State.withLine s l f) := by
  unfold State.withLine
  split
  · exact Keeps.congr hs rfl rfl rfl rfl (fun _ => rfl)
  · exact Keeps.congr hs rfl rfl rfl rfl (fun _ => rfl)

theorem State.withLoaf_keeps {s : State} {c : Line} {f : Loaf → Loaf} (hs : Keeps b s0 s) :
    Keeps b s0 (State.withLoaf s c f) := by
  unfold State.withLoaf
  split
  · exact Keeps.congr hs rfl rfl rfl rfl (fun _ => rfl)
  · exact Keeps.congr hs rfl rfl rfl rfl (fun _ => rfl)

theorem State.draw_keeps {s : State} (hs : Keeps b s0 s) :
    KeepsSnd b s0 (State.draw s) := by
  unfold State.draw
  refine Keeps.mk_snd ?_
  exact Keeps.congr hs rfl rfl rfl rfl (fun _ => rfl)

theorem State.when_keeps {s : State} {c : Bool} {f : State → State} (hs : Keeps b s0 s) (hf : ∀ y0, Keeps b s0 y0 → Keeps b s0 (f y0)) :
    Keeps b s0 (State.when s c f) := by
  unfold State.when
  refine Keeps.ite ?_ ?_
  · refine hf _ ?_
    exact hs
  · exact hs

theorem State.each_keeps {a0 : Type} {s : State} {l : List a0} {f : a0 → State → State} (hs : Keeps b s0 s)
    (hf : ∀ y0 y1, Keeps b s0 y1 → Keeps b s0 (f y0 y1)) :
    Keeps b s0 (State.each s l f) := by
  unfold State.each
  refine Keeps.foldl ?_ ?_
  · exact hs
  · intro _ _ h0
    refine hf _ _ ?_
    exact h0

/-! Machine/Flags.lean. -/

theorem State.raise_keeps {s : State} {p : Page} {a2 : ℕ} (hs : Keeps b s0 s) :
    Keeps b s0 (State.raise s p a2) := by
  unfold State.raise
  refine State.update_keeps ?_
  exact hs

theorem State.raiseMac_keeps {s : State} {q : ℕ} {j : ℕ} (hs : Keeps b s0 s) :
    Keeps b s0 (State.raiseMac s q j) := by
  unfold State.raiseMac
  refine State.raise_keeps ?_
  exact hs

theorem State.countBy_keeps {s : State} {r : Reg} {n : ℕ} (hs : Keeps b s0 s) :
    Keeps b s0 (State.countBy s r n) := by
  unfold State.countBy
  refine State.update_keeps ?_
  exact hs

theorem State.count_keeps {s : State} {r : Reg} (hs : Keeps b s0 s) :
    Keeps b s0 (State.count s r) := by
  unfold State.count
  refine State.countBy_keeps ?_
  exact hs

theorem State.noteError_keeps {s : State} {p : Page} {gives : ℕ → ℕ → Bool} {entry : List ℕ} (hs : Keeps b s0 s) :
    Keeps b s0 (State.noteError s p gives entry) := by
  unfold State.noteError
  extract_lets -merge -underBinder x0 x1
  try clear_value x0
  try clear_value x1
  refine Keeps.ite ?_ ?_
  · refine Keeps.foldl ?_ ?_
    · exact hs
    · intro _ _ h2
      refine State.updateTo_keeps ?_
      exact h2
  · exact hs

theorem State.refuse_keeps {s : State} {p : Page} (hs : Keeps b s0 s) :
    Keeps b s0 (State.refuse s p) := by
  unfold State.refuse
  refine State.noteError_keeps ?_
  exact hs

theorem State.recordError_keeps {s : State} {p : Page} {cls : ℕ} {cell : ℕ} {cause : ℕ} {word : ℕ} (hs : Keeps b s0 s) :
    Keeps b s0 (State.recordError s p cls cell cause word) := by
  unfold State.recordError
  refine State.noteError_keeps ?_
  exact hs

theorem State.stampConfig_keeps {s : State} {p : Page} (hs : Keeps b s0 s) :
    Keeps b s0 (State.stampConfig s p) := by
  unfold State.stampConfig
  refine State.set_keeps ?_
  exact hs

/-! Machine/Time.lean. -/

theorem State.showDev_keeps {s : State} {m : ℕ} {v : ℤ} (hs : Keeps b s0 s) :
    Keeps b s0 (State.showDev s m v) := by
  unfold State.showDev
  refine Keeps.ite ?_ ?_
  · refine State.setInt_keeps ?_
    exact hs
  · split
    · have h0 := Keeps.of_snd (b := b) (s := s0) ‹_ = (_, _)› (by
          refine State.draw_keeps ?_
          exact hs
        )
      refine State.set_keeps ?_
      exact h0

theorem State.showAverage_keeps {s : State} {sorted : List (ℕ × ℤ)} (hs : Keeps b s0 s) :
    Keeps b s0 (State.showAverage s sorted) := by
  unfold State.showAverage
  extract_lets -merge -underBinder x0 x1
  try clear_value x0
  have h2 : Keeps b s0 x1 := by
    refine State.set_keeps ?_
    refine State.set_keeps ?_
    exact hs
  clear_value x1
  refine State.each_keeps ?_ ?_
  · exact h2
  · intro _ _ h3
    split
    · refine State.showDev_keeps ?_
      refine State.set_keeps ?_
      refine State.setFlag_keeps ?_
      refine State.setFlag_keeps ?_
      exact h3
    · refine State.set_keeps ?_
      refine State.set_keeps ?_
      refine State.set_keeps ?_
      refine State.set_keeps ?_
      exact h3

theorem State.takeCorrection_keeps {s : State} {o : ℤ} (hs : Keeps b s0 s) :
    Keeps b s0 (State.takeCorrection s o) := by
  unfold State.takeCorrection
  extract_lets -merge -underBinder x0 x1
  try clear_value x0
  have h2 : Keeps b s0 x1 := by
    refine State.when_keeps ?_ ?_
    · exact hs
    · intro _ h3
      refine State.raise_keeps ?_
      refine State.count_keeps ?_
      exact h3
  clear_value x1
  refine State.withTime_keeps ?_ ?_
  · exact h2
  · exact fun _ _ => rfl

theorem State.closeInterval_keeps {s : State} {o : Option ℤ} (hs : Keeps b s0 s) :
    Keeps b s0 (State.closeInterval s o) := by
  unfold State.closeInterval
  refine State.withTime_keeps ?_ ?_
  · exact hs
  · exact fun _ _ => rfl

theorem State.correctRate_keeps {s : State} (hs : Keeps b s0 s) :
    Keeps b s0 (State.correctRate s) := by
  unfold State.correctRate
  extract_lets -merge -underBinder x0 x1 x2 x3
  try clear_value x0
  try clear_value x1
  have h4 : Keeps b s0 x2 := by
    refine State.when_keeps ?_ ?_
    · exact hs
    · intro _ h5
      refine State.raise_keeps ?_
      exact h5
  clear_value x2
  have h6 : Keeps b s0 x3 := by
    refine Keeps.ite ?_ ?_
    · refine Keeps.ite ?_ ?_
      · refine State.withTime_keeps ?_ ?_
        · exact h4
        · exact fun _ _ => rfl
      · refine State.setInt_keeps ?_
        exact h4
    · exact hs
  clear_value x3
  refine State.withTime_keeps ?_ ?_
  · exact h6
  · exact fun _ _ => rfl

theorem execRateCorrection_keeps {s : State} (hs : Keeps b s0 s) :
    KeepsOut b s0 (execRateCorrection s) := by
  unfold execRateCorrection
  refine Keeps.mk_out ?_
  refine Keeps.ite ?_ ?_
  · refine State.correctRate_keeps ?_
    exact hs
  · exact hs

theorem State.enterPassive_keeps {s : State} {l : Line} (hs : Keeps b s0 s) :
    Keeps b s0 (State.enterPassive s l) := by
  unfold State.enterPassive
  refine State.withLine_keeps ?_
  refine State.raise_keeps ?_
  refine State.set_keeps ?_
  exact hs

theorem State.dropKeys_keeps {s : State} (hs : Keeps b s0 s) :
    Keeps b s0 (State.dropKeys s) := by
  unfold State.dropKeys
  refine State.withSec_keeps ?_
  refine State.set_keeps ?_
  refine State.set_keeps ?_
  refine State.set_keeps ?_
  exact hs

theorem State.loseTime_keeps {s : State} (hs : Keeps b s0 s) :
    Keeps b s0 (State.loseTime s) := by
  unfold State.loseTime
  extract_lets -merge -underBinder x0
  have h1 : Keeps b s0 x0 := by
    refine State.dropKeys_keeps ?_
    refine State.raise_keeps ?_
    refine State.set_keeps ?_
    exact hs
  clear_value x0
  refine State.each_keeps ?_ ?_
  · exact h1
  · intro _ _ h2
    refine Keeps.ite ?_ ?_
    · refine State.set_keeps ?_
      refine State.enterPassive_keeps ?_
      exact h2
    · exact h2

theorem State.enterSync_keeps {s : State} (hs : Keeps b s0 s) :
    Keeps b s0 (State.enterSync s) := by
  unfold State.enterSync
  refine Keeps.ite ?_ ?_
  · exact hs
  · refine State.raise_keeps ?_
    refine State.set_keeps ?_
    exact hs

theorem State.enterLead_keeps {s : State} (hs : Keeps b s0 s) :
    Keeps b s0 (State.enterLead s) := by
  unfold State.enterLead
  extract_lets -merge -underBinder x0
  have h1 : Keeps b s0 x0 := by
    refine State.set_keeps ?_
    exact hs
  clear_value x0
  refine Keeps.ite ?_ ?_
  · exact h1
  · refine State.withTime_keeps ?_ ?_
    · refine State.setFlag_keeps ?_
      exact h1
    · exact fun _ _ => rfl

theorem State.missValues_keeps {s : State} (hs : Keeps b s0 s) :
    Keeps b s0 (State.missValues s) := by
  unfold State.missValues
  refine Keeps.ite ?_ ?_
  · refine State.withTime_keeps ?_ ?_
    · refine State.count_keeps ?_
      refine State.raise_keeps ?_
      refine State.set_keeps ?_
      exact hs
    · exact fun _ _ => rfl
  · refine Keeps.ite ?_ ?_
    · refine State.withTime_keeps ?_ ?_
      · exact hs
      · exact fun _ _ => rfl
    · exact hs

theorem State.cycleWithoutCorrection_keeps {s : State} (hs : Keeps b s0 s) :
    Keeps b s0 (State.cycleWithoutCorrection s) := by
  unfold State.cycleWithoutCorrection
  refine State.closeInterval_keeps ?_
  refine Keeps.ite ?_ ?_
  · exact hs
  · refine Keeps.ite ?_ ?_
    · refine State.missValues_keeps ?_
      exact hs
    · refine State.withTime_keeps ?_ ?_
      · refine State.enterSync_keeps ?_
        exact hs
      · exact fun _ _ => rfl

theorem State.showExtValid_keeps {s : State} (hs : Keeps b s0 s) :
    Keeps b s0 (State.showExtValid s) := by
  unfold State.showExtValid
  refine Keeps.ite ?_ ?_
  · exact hs
  · refine State.setFlag_keeps ?_
    exact hs

theorem State.averageAtReturnEnd_keeps {s : State} (hs : Keeps b s0 s) :
    Keeps b s0 (State.averageAtReturnEnd s) := by
  unfold State.averageAtReturnEnd
  extract_lets -merge -underBinder x0 x1 x2 x3 x4
  try clear_value x0
  try clear_value x1
  try clear_value x3
  have h5 : Keeps b s0 x2 := by
    refine State.when_keeps ?_ ?_
    · exact hs
    · intro _ h6
      refine State.showAverage_keeps ?_
      exact h6
  clear_value x2
  have h7 : Keeps b s0 x4 := by
    refine State.closeInterval_keeps ?_
    refine State.takeCorrection_keeps ?_
    refine State.withTime_keeps ?_ ?_
    · refine State.enterSync_keeps ?_
      exact h5
    · exact fun _ _ => rfl
  clear_value x4
  refine Keeps.ite ?_ ?_
  · refine State.closeInterval_keeps ?_
    exact hs
  · refine Keeps.ite ?_ ?_
    · refine Keeps.ite ?_ ?_
      · refine State.closeInterval_keeps ?_
        refine State.takeCorrection_keeps ?_
        exact h5
      · refine State.closeInterval_keeps ?_
        refine State.missValues_keeps ?_
        exact h5
    · refine Keeps.ite ?_ ?_
      · refine State.loseTime_keeps ?_
        refine State.withTime_keeps ?_ ?_
        · exact h7
        · exact fun _ _ => rfl
      · exact h7

theorem execHoldMaxExpiry_keeps {s : State} (hs : Keeps b s0 s) :
    KeepsOut b s0 (execHoldMaxExpiry s) := by
  unfold execHoldMaxExpiry
  refine Keeps.mk_out ?_
  refine Keeps.ite ?_ ?_
  · refine Keeps.ite ?_ ?_
    · refine State.set_keeps ?_
      exact hs
    · refine State.loseTime_keeps ?_
      exact hs
  · exact hs

theorem State.snap_keeps {s : State} (hs : Keeps b s0 s) :
    Keeps b s0 (State.snap s) := by
  unfold State.snap
  refine State.set64_keeps ?_
  refine State.set_keeps ?_
  refine State.set64_keeps ?_
  exact hs

theorem execSnap_keeps {s : State} (hs : Keeps b s0 s) :
    KeepsOut b s0 (execSnap s) := by
  unfold execSnap
  refine Keeps.mk_out ?_
  refine State.snap_keeps ?_
  exact hs

theorem execPpsEdge_keeps {a0 : BitVec 64} {rising : Bool} {s : State} (hs : Keeps b s0 s) :
    KeepsOut b s0 (execPpsEdge a0 rising s) := by
  unfold execPpsEdge
  refine Keeps.mk_out ?_
  refine Keeps.ite ?_ ?_
  · extract_lets -merge -underBinder x0 x1 x2 x3
    try clear_value x0
    try clear_value x2
    have h4 : Keeps b s0 x1 := by
      refine State.setInt_keeps ?_
      exact hs
    clear_value x1
    have h5 : Keeps b s0 x3 := by
      refine State.withTime_keeps ?_ ?_
      · exact h4
      · exact fun _ _ => rfl
    clear_value x3
    refine State.when_keeps ?_ ?_
    · exact h5
    · intro _ h6
      refine State.setFlag_keeps ?_
      exact h6
  · exact hs

theorem execPpsLost_keeps {s : State} (hs : Keeps b s0 s) :
    KeepsOut b s0 (execPpsLost s) := by
  unfold execPpsLost
  refine Keeps.mk_out ?_
  refine Keeps.ite ?_ ?_
  · refine State.withTime_keeps ?_ ?_
    · refine State.raise_keeps ?_
      refine State.setFlag_keeps ?_
      exact hs
    · exact fun _ _ => rfl
  · exact hs

theorem State.publishExt_keeps {s : State} (hs : Keeps b s0 s) :
    Keeps b s0 (State.publishExt s) := by
  unfold State.publishExt
  refine Keeps.ite ?_ ?_
  · extract_lets -merge -underBinder x0
    try clear_value x0
    refine State.withTime_keeps ?_ ?_
    · exact hs
    · exact fun _ _ => rfl
  · refine State.withTime_keeps ?_ ?_
    · exact hs
    · exact fun _ _ => rfl

/-! Machine/Cycle.lean. -/

theorem State.pulseTick_keeps {s : State} (hs : Keeps b s0 s) :
    Keeps b s0 (State.pulseTick s) := by
  unfold State.pulseTick
  refine State.when_keeps ?_ ?_
  · exact hs
  · intro _ h0
    refine State.emit_keeps ?_
    exact h0

theorem State.pulseMark_keeps {s : State} {m : ℕ} (hs : Keeps b s0 s) :
    Keeps b s0 (State.pulseMark s m) := by
  unfold State.pulseMark
  refine State.each_keeps ?_ ?_
  · exact hs
  · intro _ _ h0
    refine State.when_keeps ?_ ?_
    · exact h0
    · intro _ h1
      refine State.emit_keeps ?_
      exact h1

theorem State.advanceCycle_keeps {s : State} (hs : Keeps b s0 s) :
    Keeps b s0 (State.advanceCycle s) := by
  unfold State.advanceCycle
  extract_lets -merge -underBinder x0 x1 x2 x3 x4
  try clear_value x1
  try clear_value x2
  have h5 : Keeps b s0 x0 := by
    refine State.set64_keeps ?_
    refine State.set_keeps ?_
    exact hs
  clear_value x0
  have h6 : Keeps b s0 x3 := by
    refine State.set_keeps ?_
    exact hs
  clear_value x3
  have h7 : Keeps b s0 x4 := by
    refine Keeps.ite ?_ ?_
    · refine State.withTime_keeps ?_ ?_
      · exact h5
      · exact fun _ _ => rfl
    · split
      · extract_lets -merge -underBinder x8
        have h9 : Keeps b s0 x8 := by
          refine State.withTime_keeps ?_ ?_
          · exact h6
          · exact fun _ _ => rfl
        clear_value x8
        refine State.set64_keeps ?_
        exact h9
      · refine State.set64_keeps ?_
        exact h6
  clear_value x4
  refine State.withTime_keeps ?_ ?_
  · exact h7
  · exact fun _ _ => rfl

theorem State.startCorrection_keeps {s : State} (hs : Keeps b s0 s) :
    Keeps b s0 (State.startCorrection s) := by
  unfold State.startCorrection
  extract_lets -merge -underBinder x0
  have h1 : Keeps b s0 x0 := by
    unfold x0
    split
    · refine State.withTime_keeps ?_ ?_
      · refine State.setInt_keeps ?_
        exact hs
      · exact fun _ _ => rfl
    · exact hs
  clear_value x0
  split
  · refine State.withTime_keeps ?_ ?_
    · refine State.setInt_keeps ?_
      exact h1
    · exact fun _ _ => rfl
  · exact h1

theorem State.tickTime_keeps {s : State} (hs : Keeps b s0 s) :
    Keeps b s0 (State.tickTime s) := by
  unfold State.tickTime
  extract_lets -merge -underBinder x0 x1 x2
  have h3 : Keeps b s0 x0 := by
    refine Keeps.ite ?_ ?_
    · exact hs
    · refine State.cycleWithoutCorrection_keeps ?_
      exact hs
  clear_value x0
  have h4 : Keeps b s0 x1 := by
    refine State.publishExt_keeps ?_
    refine State.startCorrection_keeps ?_
    refine State.advanceCycle_keeps ?_
    exact h3
  clear_value x1
  have h5 : Keeps b s0 x2 := by
    refine State.pulseTick_keeps ?_
    refine State.raise_keeps ?_
    exact h4
  clear_value x2
  refine State.withTime_keeps ?_ ?_
  · exact h5
  · exact fun _ _ => rfl

theorem State.writeCycLen_keeps {s : State} {k : ℕ} (hs : Keeps b s0 s) :
    Keeps b s0 (State.writeCycLen s k) := by
  unfold State.writeCycLen
  refine Keeps.ite ?_ ?_
  · refine State.refuse_keeps ?_
    exact hs
  · refine Keeps.ite ?_ ?_
    · refine State.refuse_keeps ?_
      exact hs
    · extract_lets -merge -underBinder x0 x1
      have h2 : Keeps b s0 x0 := by
        refine State.when_keeps ?_ ?_
        · exact hs
        · intro _ h3
          refine State.stampConfig_keeps ?_
          exact h3
      clear_value x0
      have h4 : Keeps b s0 x1 := by
        refine State.set_keeps ?_
        exact h2
      clear_value x1
      refine Keeps.ite ?_ ?_
      · refine State.withTime_keeps ?_ ?_
        · exact h4
        · exact fun _ _ => rfl
      · refine State.withTime_keeps ?_ ?_
        · exact h4
        · exact fun _ _ => rfl

theorem execCycLenWrite_keeps {k : BitVec 11} {s : State} (hs : Keeps b s0 s) :
    KeepsOut b s0 (execCycLenWrite k s) := by
  unfold execCycLenWrite
  refine Keeps.mk_out ?_
  refine State.writeCycLen_keeps ?_
  exact hs

/-! Machine/Keys.lean. -/

theorem State.random_keeps {s : State} {resist : Bool} (hs : Keeps b s0 s) :
    KeepsOpt b s0 (State.random s resist) := by
  unfold State.random
  refine Keeps.ite_opt ?_ ?_
  · extract_lets -merge -underBinder x0 x1 x2
    try clear_value x0
    have h3 : Keeps b s0 x1 := by
      refine Keeps.ite ?_ ?_
      · refine State.set_keeps ?_
        exact hs
      · exact hs
    clear_value x1
    have h4 : Keeps b s0 x2 := by
      refine State.withSec_keeps ?_
      refine State.count_keeps ?_
      exact h3
    clear_value x2
    refine Keeps.mk_opt ?_
    refine State.when_keeps ?_ ?_
    · exact h4
    · intro _ h5
      refine State.setFlag_keeps ?_
      exact h5
  · exact Keeps.none_opt

theorem State.showKeys_keeps {s : State} (hs : Keeps b s0 s) :
    Keeps b s0 (State.showKeys s) := by
  unfold State.showKeys
  refine State.setFlag_keeps ?_
  refine State.setFlag_keeps ?_
  refine State.setFlag_keeps ?_
  refine State.setFlag_keeps ?_
  exact hs

theorem State.clearSliceKeys_keeps {s : State} (hs : Keeps b s0 s) :
    Keeps b s0 (State.clearSliceKeys s) := by
  unfold State.clearSliceKeys
  refine State.showKeys_keeps ?_
  refine State.withSec_keeps ?_
  exact hs

theorem State.takeEpochKey_keeps {s : State} {epoch : BitVec 16} (hs : Keeps b s0 s) :
    Keeps b s0 (State.takeEpochKey s epoch) := by
  unfold State.takeEpochKey
  extract_lets -merge -underBinder x0
  have h1 : Keeps b s0 x0 := by
    refine State.withSec_keeps ?_
    refine State.set_keeps ?_
    exact hs
  clear_value x0
  split
  · refine State.showKeys_keeps ?_
    refine State.raise_keeps ?_
    refine State.set_keeps ?_
    refine State.withSec_keeps ?_
    exact h1
  · refine State.clearSliceKeys_keeps ?_
    exact h1

theorem State.takeLateKey_keeps {s : State} (hs : Keeps b s0 s) :
    Keeps b s0 (State.takeLateKey s) := by
  unfold State.takeLateKey
  split
  · refine State.showKeys_keeps ?_
    refine State.raise_keeps ?_
    refine State.set_keeps ?_
    refine State.withSec_keeps ?_
    exact hs
  · exact hs

theorem State.deriveRoll_keeps {s : State} (hs : Keeps b s0 s) :
    Keeps b s0 (State.deriveRoll s) := by
  unfold State.deriveRoll
  split
  · extract_lets -merge -underBinder x0
    try clear_value x0
    refine Keeps.ite ?_ ?_
    · refine State.showKeys_keeps ?_
      refine State.withSec_keeps ?_
      exact hs
    · exact hs
  · exact hs

theorem State.rollKey_keeps {s : State} (hs : Keeps b s0 s) :
    Keeps b s0 (State.rollKey s) := by
  unfold State.rollKey
  refine Keeps.ite ?_ ?_
  · extract_lets -merge -underBinder x0
    try clear_value x0
    refine State.showKeys_keeps ?_
    refine State.raise_keeps ?_
    refine State.set_keeps ?_
    refine State.withSec_keeps ?_
    exact hs
  · exact hs

theorem execKeyRoll_keeps {s : State} (hs : Keeps b s0 s) :
    KeepsOut b s0 (execKeyRoll s) := by
  unfold execKeyRoll
  refine Keeps.mk_out ?_
  refine State.rollKey_keeps ?_
  exact hs

/-! Machine/Layout.lean. -/

theorem State.showLayout_keeps {s : State} {l : Line} (hs : Keeps b s0 s) :
    Keeps b s0 (State.showLayout s l) := by
  unfold State.showLayout
  split
  · exact hs
  · extract_lets -merge -underBinder x0
    have h1 : Keeps b s0 x0 := by
      refine State.set_keeps ?_
      refine State.set_keeps ?_
      refine State.set_keeps ?_
      exact hs
    clear_value x0
    refine State.each_keeps ?_ ?_
    · exact h1
    · intro _ _ h2
      split
      · refine State.set_keeps ?_
        refine State.set_keeps ?_
        refine State.set_keeps ?_
        exact h2
      · refine State.set_keeps ?_
        refine State.set_keeps ?_
        refine State.set_keeps ?_
        exact h2

/-! Machine/Hat.lean. -/

theorem State.refreshTwinAt_keeps {s : State} {n : ℕ} (hs : Keeps b s0 s) :
    Keeps b s0 (State.refreshTwinAt s n) := by
  unfold State.refreshTwinAt
  refine Keeps.ite ?_ ?_
  · refine State.set_keeps ?_
    refine State.setFlag_keeps ?_
    refine State.set_keeps ?_
    exact hs
  · exact hs

theorem State.refreshTwin_keeps {s : State} (hs : Keeps b s0 s) :
    Keeps b s0 (State.refreshTwin s) := by
  unfold State.refreshTwin
  refine State.refreshTwinAt_keeps ?_
  exact hs

theorem State.sendLink_keeps {s : State} {p : LinkPayload} {tag : BitVec 16} (hs : Keeps b s0 s) :
    Keeps b s0 (State.sendLink s p tag) := by
  unfold State.sendLink
  refine State.when_keeps ?_ ?_
  · exact hs
  · intro _ h0
    extract_lets -merge -underBinder x1 x2
    try clear_value x1
    try clear_value x2
    refine State.emit_keeps ?_
    exact Keeps.congr h0 rfl rfl rfl rfl (fun _ => rfl)

theorem State.sendTwin_keeps {s : State} {m : TwinMsg} (hs : Keeps b s0 s) :
    Keeps b s0 (State.sendTwin s m) := by
  unfold State.sendTwin
  refine State.when_keeps ?_ ?_
  · exact hs
  · intro _ h0
    refine State.sendLink_keeps ?_
    exact h0

theorem State.setHat_keeps {s : State} {st : ℕ} {n : ℕ} (hs : Keeps b s0 s) :
    Keeps b s0 (State.setHat s st n) := by
  unfold State.setHat
  extract_lets -merge -underBinder x0 x1 x2 x3
  try clear_value x0
  have h4 : Keeps b s0 x1 := by
    refine State.set_keeps ?_
    exact hs
  clear_value x1
  have h5 : Keeps b s0 x2 := by
    refine State.when_keeps ?_ ?_
    · exact h4
    · intro _ h6
      refine State.withTwin_keeps ?_
      refine State.set_keeps ?_
      refine State.raise_keeps ?_
      refine State.set_keeps ?_
      refine State.count_keeps ?_
      exact h6
  clear_value x2
  have h7 : Keeps b s0 x3 := by
    refine State.when_keeps ?_ ?_
    · exact h5
    · intro _ h8
      refine State.withTwin_keeps ?_
      refine State.setFlag_keeps ?_
      refine State.set_keeps ?_
      refine State.raise_keeps ?_
      exact h8
  clear_value x3
  refine State.when_keeps ?_ ?_
  · exact h7
  · intro _ h9
    refine State.withTwin_keeps ?_
    exact h9

theorem State.dropHatOut_keeps {s : State} (hs : Keeps b s0 s) :
    Keeps b s0 (State.dropHatOut s) := by
  unfold State.dropHatOut
  refine State.withTwin_keeps ?_
  refine State.set_keeps ?_
  exact hs

theorem State.tryHandover_keeps {s : State} {h : ℕ} (hs : Keeps b s0 s) :
    Keeps b s0 (State.tryHandover s h) := by
  unfold State.tryHandover
  split
  · exact hs
  · refine Keeps.ite ?_ ?_
    · exact hs
    · refine Keeps.ite ?_ ?_
      · refine Keeps.ite ?_ ?_
        · exact hs
        · refine State.withTwin_keeps ?_
          refine State.raise_keeps ?_
          refine State.count_keeps ?_
          exact hs
      · refine State.withTwin_keeps ?_
        refine State.sendTwin_keeps ?_
        exact hs

theorem State.sendMerge_keeps {s : State} {offs : ℕ} {n : ℕ} {refresh : Bool} (hs : Keeps b s0 s) :
    Keeps b s0 (State.sendMerge s offs n refresh) := by
  unfold State.sendMerge
  extract_lets -merge -underBinder x0
  have h1 : Keeps b s0 x0 := by
    refine State.withTwin_keeps ?_
    exact hs
  clear_value x0
  refine State.sendTwin_keeps ?_
  exact h1

theorem State.sendRefresh_keeps {s : State} (hs : Keeps b s0 s) :
    Keeps b s0 (State.sendRefresh s) := by
  unfold State.sendRefresh
  refine Keeps.ite ?_ ?_
  · exact hs
  · refine State.withTwin_keeps ?_
    refine Keeps.foldl ?_ ?_
    · exact hs
    · intro _ _ h0
      refine State.sendMerge_keeps ?_
      exact h0

/-! Machine/Loaf.lean. -/

theorem State.withBank_keeps {s : State} {c : Line} {a2 : ℕ} {f : Bank → Bank} (hs : Keeps b s0 s) :
    Keeps b s0 (State.withBank s c a2 f) := by
  unfold State.withBank
  refine State.withLoaf_keeps ?_
  exact hs

theorem State.restoreCarried_keeps {s : State} {ch : Line} {x : LayoutSlot} (hs : Keeps b s0 s) :
    Keeps b s0 (State.restoreCarried s ch x) := by
  unfold State.restoreCarried
  extract_lets -merge -underBinder x0
  try clear_value x0
  refine Keeps.ite ?_ ?_
  · refine State.copyRange_keeps ?_
    exact hs
  · refine State.clearRange_keeps ?_
    exact hs

theorem State.refreshSlot_keeps {s : State} {slot : ℕ} {ch : Line} (hs : Keeps b s0 s) :
    Keeps b s0 (State.refreshSlot s slot ch) := by
  unfold State.refreshSlot
  split
  · exact hs
  · extract_lets -merge -underBinder x0 x1
    try clear_value x0
    split
    · extract_lets -merge -underBinder x2
      have h3 : Keeps b s0 x2 := by
        refine State.withBank_keeps ?_
        exact hs
      clear_value x2
      refine Keeps.ite ?_ ?_
      · refine State.setBytes_keeps ?_
        exact h3
      · refine State.restoreCarried_keeps ?_
        exact h3
    · refine State.restoreCarried_keeps ?_
      refine State.withBank_keeps ?_
      exact hs

theorem State.reselect_keeps {s : State} {slot : ℕ} (hs : Keeps b s0 s) :
    Keeps b s0 (State.reselect s slot) := by
  unfold State.reselect
  extract_lets -merge -underBinder x0
  have h1 : Keeps b s0 x0 := by
    refine State.each_keeps ?_ ?_
    · exact hs
    · intro _ _ h2
      refine State.refreshSlot_keeps ?_
      exact h2
  clear_value x0
  refine State.when_keeps ?_ ?_
  · exact h1
  · intro _ h3
    exact Keeps.congr h3 rfl rfl rfl rfl (fun _ => rfl)

theorem State.withDraft_keeps {s : State} {c : Line} {d : ℕ} {f : Draft → Draft} (hs : Keeps b s0 s) :
    Keeps b s0 (State.withDraft s c d f) := by
  unfold State.withDraft
  refine State.withLoaf_keeps ?_
  exact hs

theorem State.showDrafts_keeps {s : State} (hs : Keeps b s0 s) :
    Keeps b s0 (State.showDrafts s) := by
  unfold State.showDrafts
  extract_lets -merge -underBinder x0
  refine State.each_keeps ?_ ?_
  · exact hs
  · intro _ _ h1
    refine State.set_keeps ?_
    refine State.set_keeps ?_
    exact h1

theorem State.closeDraft_keeps {s : State} {c : Line} {d : ℕ} (hs : Keeps b s0 s) :
    Keeps b s0 (State.closeDraft s c d) := by
  unfold State.closeDraft
  refine State.showDrafts_keeps ?_
  refine State.each_keeps ?_ ?_
  · exact hs
  · intro _ _ h0
    refine State.withDraft_keeps ?_
    exact h0

theorem State.draftError_keeps {s : State} {p : Line} (hs : Keeps b s0 s) :
    Keeps b s0 (State.draftError s p) := by
  unfold State.draftError
  refine State.raise_keeps ?_
  refine State.count_keeps ?_
  exact hs

theorem State.setReady_keeps {s : State} {a1 : Bool} (hs : Keeps b s0 s) :
    Keeps b s0 (State.setReady s a1) := by
  unfold State.setReady
  refine State.setFlag_keeps ?_
  refine State.setFlag_keeps ?_
  exact hs

theorem State.setDoubtfulReq_keeps {s : State} {a1 : Bool} (hs : Keeps b s0 s) :
    Keeps b s0 (State.setDoubtfulReq s a1) := by
  unfold State.setDoubtfulReq
  refine State.setFlag_keeps ?_
  refine State.setFlag_keeps ?_
  exact hs

theorem State.mergeDraft_keeps {s : State} {c : Line} {d : ℕ} (hs : Keeps b s0 s) :
    Keeps b s0 (State.mergeDraft s c d) := by
  unfold State.mergeDraft
  refine Keeps.ite ?_ ?_
  · extract_lets -merge -underBinder x0 x1 x2 x3
    try clear_value x0
    have h4 : Keeps b s0 x1 := by
      refine State.each_keeps ?_ ?_
      · exact hs
      · intro _ _ h5
        refine State.each_keeps ?_ ?_
        · exact h5
        · intro _ _ h6
          refine State.setByte_keeps ?_
          exact h6
    clear_value x1
    have h7 : Keeps b s0 x2 := by
      refine State.when_keeps ?_ ?_
      · exact h4
      · intro _ h8
        refine State.setReady_keeps ?_
        exact h8
    clear_value x2
    have h9 : Keeps b s0 x3 := by
      refine State.when_keeps ?_ ?_
      · exact h7
      · intro _ h10
        refine State.setDoubtfulReq_keeps ?_
        exact h10
    clear_value x3
    refine State.when_keeps ?_ ?_
    · exact h9
    · intro _ h11
      refine State.each_keeps ?_ ?_
      · exact h11
      · intro _ _ h12
        refine State.sendMerge_keeps ?_
        exact h12
  · refine State.count_keeps ?_
    exact hs

theorem State.openDraft_keeps {s : State} {c : Line} {d : ℕ} (hs : Keeps b s0 s) :
    Keeps b s0 (State.openDraft s c d) := by
  unfold State.openDraft
  refine Keeps.ite ?_ ?_
  · refine State.count_keeps ?_
    exact hs
  · refine State.showDrafts_keeps ?_
    refine State.each_keeps ?_ ?_
    · exact hs
    · intro _ _ h0
      refine State.withDraft_keeps ?_
      exact h0

theorem State.commitDraft_keeps {s : State} {c : Line} {d : ℕ} {ready : Bool} {doubtful : Bool} {sources : List ℕ} {role : Option ℕ}
    (hs : Keeps b s0 s) :
    Keeps b s0 (State.commitDraft s c d ready doubtful sources role) := by
  unfold State.commitDraft
  split
  · refine State.draftError_keeps ?_
    exact hs
  · refine State.count_keeps ?_
    exact hs
  · extract_lets -merge -underBinder x0
    have h1 : Keeps b s0 x0 := by
      refine State.each_keeps ?_ ?_
      · exact hs
      · intro _ _ h2
        refine State.withDraft_keeps ?_
        exact h2
    clear_value x0
    refine Keeps.ite ?_ ?_
    · refine State.closeDraft_keeps ?_
      refine State.mergeDraft_keeps ?_
      exact h1
    · refine State.showDrafts_keeps ?_
      refine State.each_keeps ?_ ?_
      · exact h1
      · intro _ _ h3
        refine State.withDraft_keeps ?_
        exact h3

theorem State.abortDraft_keeps {s : State} {c : Line} {d : ℕ} (hs : Keeps b s0 s) :
    Keeps b s0 (State.abortDraft s c d) := by
  unfold State.abortDraft
  split
  · refine State.draftError_keeps ?_
    exact hs
  · refine State.count_keeps ?_
    exact hs
  · refine State.closeDraft_keeps ?_
    exact hs

theorem State.writeDraft_keeps {s : State} {c : Line} {d : ℕ} {bytes : List (ℕ × Byte)} (hs : Keeps b s0 s) :
    Keeps b s0 (State.writeDraft s c d bytes) := by
  unfold State.writeDraft
  split
  · refine State.draftError_keeps ?_
    exact hs
  · refine State.count_keeps ?_
    exact hs
  · extract_lets -merge -underBinder x0
    try clear_value x0
    refine State.each_keeps ?_ ?_
    · exact hs
    · intro _ _ h1
      refine State.withDraft_keeps ?_
      refine State.each_keeps ?_ ?_
      · exact h1
      · intro _ _ h2
        refine State.setByte_keeps ?_
        exact h2

theorem State.withdrawDrafts_keeps {s : State} {slot : ℕ} (hs : Keeps b s0 s) :
    Keeps b s0 (State.withdrawDrafts s slot) := by
  unfold State.withdrawDrafts
  refine State.each_keeps ?_ ?_
  · exact hs
  · intro _ _ h0
    refine State.each_keeps ?_ ?_
    · exact h0
    · intro _ _ h1
      extract_lets -merge -underBinder x2
      try clear_value x2
      refine Keeps.ite ?_ ?_
      · refine State.raise_keeps ?_
        refine State.count_keeps ?_
        refine State.closeDraft_keeps ?_
        exact h1
      · exact h1

theorem State.discardPending_keeps {s : State} (hs : Keeps b s0 s) :
    Keeps b s0 (State.discardPending s) := by
  unfold State.discardPending
  refine State.each_keeps ?_ ?_
  · exact hs
  · intro _ _ h0
    refine State.each_keeps ?_ ?_
    · exact h0
    · intro _ _ h1
      refine Keeps.ite ?_ ?_
      · refine State.raise_keeps ?_
        refine State.count_keeps ?_
        refine State.closeDraft_keeps ?_
        exact h1
      · exact h1

theorem State.mergePending_keeps {s : State} (hs : Keeps b s0 s) :
    Keeps b s0 (State.mergePending s) := by
  unfold State.mergePending
  refine State.each_keeps ?_ ?_
  · exact hs
  · intro _ _ h0
    refine State.each_keeps ?_ ?_
    · exact h0
    · intro _ _ h1
      refine Keeps.ite ?_ ?_
      · refine State.closeDraft_keeps ?_
        refine State.mergeDraft_keeps ?_
        exact h1
      · exact h1

theorem State.expireDraft_keeps {s : State} {c : Line} {d : ℕ} (hs : Keeps b s0 s) :
    Keeps b s0 (State.expireDraft s c d) := by
  unfold State.expireDraft
  refine Keeps.ite ?_ ?_
  · refine State.raise_keeps ?_
    refine State.count_keeps ?_
    refine State.closeDraft_keeps ?_
    exact hs
  · exact hs

theorem State.ageDrafts_keeps {s : State} (hs : Keeps b s0 s) :
    Keeps b s0 (State.ageDrafts s) := by
  unfold State.ageDrafts
  refine State.each_keeps ?_ ?_
  · exact hs
  · intro _ _ h0
    refine State.withLoaf_keeps ?_
    exact h0

theorem State.initForming_keeps {s : State} {c : Line} {a2 : ℕ} (hs : Keeps b s0 s) :
    Keeps b s0 (State.initForming s c a2) := by
  unfold State.initForming
  extract_lets -merge -underBinder x0 x1 x2 x3
  try clear_value x0
  try clear_value x1
  try clear_value x2
  have h4 : Keeps b s0 x3 := by
    refine State.withBank_keeps ?_
    exact hs
  clear_value x3
  refine Keeps.ite ?_ ?_
  · refine State.copyRange_keeps ?_
    exact h4
  · refine State.clearRange_keeps ?_
    exact h4

theorem State.closeBank_keeps {s : State} {c : Line} (hs : Keeps b s0 s) :
    Keeps b s0 (State.closeBank s c) := by
  unfold State.closeBank
  extract_lets -merge -underBinder x0 x1 x2 x3
  try clear_value x0
  try clear_value x1
  try clear_value x3
  have h4 : Keeps b s0 x2 := by
    refine State.each_keeps ?_ ?_
    · exact hs
    · intro _ _ h5
      extract_lets -merge -underBinder x6 x7 x8
      try clear_value x6
      try clear_value x7
      have h9 : Keeps b s0 x8 := by
        refine State.withBank_keeps ?_
        exact h5
      clear_value x8
      refine Keeps.ite ?_ ?_
      · refine State.clearRange_keeps ?_
        exact h9
      · refine Keeps.ite ?_ ?_
        · split
          · refine State.restoreCarried_keeps ?_
            exact h9
          · exact h9
        · exact h9
  clear_value x2
  refine State.withBank_keeps ?_
  exact h4

theorem State.rotate_keeps {s : State} {c : Line} (hs : Keeps b s0 s) :
    Keeps b s0 (State.rotate s c) := by
  unfold State.rotate
  extract_lets -merge -underBinder x0 x1 x2 x3 x4 x5 x6 x7 x8 x9 x10 x11 x12 x13
  try clear_value x1
  try clear_value x3
  try clear_value x4
  try clear_value x5
  try clear_value x9
  try clear_value x10
  have h14 : Keeps b s0 x0 := by
    refine State.closeBank_keeps ?_
    exact hs
  clear_value x0
  have h15 : Keeps b s0 x2 := by
    refine State.when_keeps ?_ ?_
    · exact h14
    · intro _ h16
      refine State.withLoaf_keeps ?_
      exact h16
  clear_value x2
  have h17 : Keeps b s0 x6 := by
    refine State.setFlag_keeps ?_
    refine State.set_keeps ?_
    exact h15
  clear_value x6
  have h18 : Keeps b s0 x7 := by
    refine State.setFlag_keeps ?_
    refine State.set_keeps ?_
    exact h17
  clear_value x7
  have h19 : Keeps b s0 x8 := by
    refine State.set_keeps ?_
    refine State.set_keeps ?_
    exact h18
  clear_value x8
  have h20 : Keeps b s0 x11 := by
    refine State.initForming_keeps ?_
    refine State.setFlag_keeps ?_
    refine State.set_keeps ?_
    exact h19
  clear_value x11
  have h21 : Keeps b s0 x12 := by
    refine State.raise_keeps ?_
    exact h20
  clear_value x12
  have h22 : Keeps b s0 x13 := by
    refine State.when_keeps ?_ ?_
    · exact h21
    · intro _ h23
      refine State.raise_keeps ?_
      exact h23
  clear_value x13
  refine State.when_keeps ?_ ?_
  · exact h22
  · intro _ h24
    refine State.raise_keeps ?_
    exact h24

theorem State.fillForming_keeps {s : State} {c : Line} (hs : Keeps b s0 s) :
    Keeps b s0 (State.fillForming s c) := by
  unfold State.fillForming
  refine State.each_keeps ?_ ?_
  · exact hs
  · intro _ _ h0
    refine State.refreshSlot_keeps ?_
    exact h0

theorem State.beginEpoch_keeps {s : State} (hs : Keeps b s0 s) :
    Keeps b s0 (State.beginEpoch s) := by
  unfold State.beginEpoch
  refine State.each_keeps ?_ ?_
  · exact hs
  · intro _ _ h0
    refine State.withLoaf_keeps ?_
    exact h0

theorem State.startForming_keeps {s : State} {c : Line} (hs : Keeps b s0 s) :
    Keeps b s0 (State.startForming s c) := by
  unfold State.startForming
  refine Keeps.ite ?_ ?_
  · exact hs
  · refine State.fillForming_keeps ?_
    refine State.initForming_keeps ?_
    refine State.setFlag_keeps ?_
    exact hs

theorem State.startLoafs_keeps {s : State} (hs : Keeps b s0 s) :
    Keeps b s0 (State.startLoafs s) := by
  unfold State.startLoafs
  refine State.when_keeps ?_ ?_
  · exact hs
  · intro _ h0
    refine State.each_keeps ?_ ?_
    · exact h0
    · intro _ _ h1
      refine State.startForming_keeps ?_
      exact h1

theorem State.stepLoaf_keeps {s : State} (hs : Keeps b s0 s) :
    Keeps b s0 (State.stepLoaf s) := by
  unfold State.stepLoaf
  extract_lets -merge -underBinder x0 x1
  have h2 : Keeps b s0 x0 := by
    refine State.discardPending_keeps ?_
    exact hs
  clear_value x0
  have h3 : Keeps b s0 x1 := by
    exact Keeps.congr h2 rfl rfl rfl rfl (fun _ => rfl)
  clear_value x1
  refine State.each_keeps ?_ ?_
  · exact h3
  · intro _ _ h4
    refine State.when_keeps ?_ ?_
    · refine State.raise_keeps ?_
      refine State.count_keeps ?_
      exact h4
    · intro _ h5
      refine State.initForming_keeps ?_
      exact h5

theorem State.showPin_keeps {s : State} {c : Line} (hs : Keeps b s0 s) :
    Keeps b s0 (State.showPin s c) := by
  unfold State.showPin
  extract_lets -merge -underBinder x0
  try clear_value x0
  refine Keeps.ite ?_ ?_
  · refine State.set_keeps ?_
    refine State.set_keeps ?_
    exact hs
  · refine State.set_keeps ?_
    refine State.set_keeps ?_
    exact hs

theorem State.unpin_keeps {s : State} {c : Line} (hs : Keeps b s0 s) :
    Keeps b s0 (State.unpin s c) := by
  unfold State.unpin
  refine State.showPin_keeps ?_
  refine State.set_keeps ?_
  refine State.set_keeps ?_
  exact hs

theorem State.pin_keeps {s : State} {c : Line} {valid : Reg} {bank : Reg} (hs : Keeps b s0 s) :
    Keeps b s0 (State.pin s c valid bank) := by
  unfold State.pin
  refine Keeps.ite ?_ ?_
  · refine State.showPin_keeps ?_
    refine State.set_keeps ?_
    refine State.setFlag_keeps ?_
    exact hs
  · refine State.unpin_keeps ?_
    exact hs

theorem execPinLatest_keeps {c : Line} {s : State} (hs : Keeps b s0 s) :
    KeepsOut b s0 (execPinLatest c s) := by
  unfold execPinLatest
  refine Keeps.mk_out ?_
  refine Keeps.ite ?_ ?_
  · refine State.pin_keeps ?_
    exact hs
  · exact hs

theorem execPinPrevious_keeps {c : Line} {s : State} (hs : Keeps b s0 s) :
    KeepsOut b s0 (execPinPrevious c s) := by
  unfold execPinPrevious
  refine Keeps.mk_out ?_
  refine Keeps.ite ?_ ?_
  · refine State.pin_keeps ?_
    exact hs
  · exact hs

theorem execUnpin_keeps {c : Line} {s : State} (hs : Keeps b s0 s) :
    KeepsOut b s0 (execUnpin c s) := by
  unfold execUnpin
  refine Keeps.mk_out ?_
  refine Keeps.ite ?_ ?_
  · refine State.unpin_keeps ?_
    exact hs
  · exact hs

theorem State.setHold_keeps {s : State} {a1 : Bool} (hs : Keeps b s0 s) :
    Keeps b s0 (State.setHold s a1) := by
  unfold State.setHold
  refine State.setFlag_keeps ?_
  refine State.setFlag_keeps ?_
  exact hs

theorem State.cut_keeps {s : State} (hs : Keeps b s0 s) :
    Keeps b s0 (State.cut s) := by
  unfold State.cut
  extract_lets -merge -underBinder x0 x1 x2 x3 x4 x5 x6
  try clear_value x0
  try clear_value x1
  try clear_value x2
  have h7 : Keeps b s0 x3 := by
    exact Keeps.congr hs rfl rfl rfl rfl (fun _ => rfl)
  clear_value x3
  have h8 : Keeps b s0 x4 := by
    exact Keeps.congr hs rfl rfl rfl rfl (fun _ => rfl)
  clear_value x4
  have h9 : Keeps b s0 x5 := by
    refine State.setDoubtfulReq_keeps ?_
    refine State.setReady_keeps ?_
    exact h8
  clear_value x5
  have h10 : Keeps b s0 x6 := by
    exact Keeps.congr hs rfl rfl rfl rfl (fun _ => rfl)
  clear_value x6
  refine Keeps.ite ?_ ?_
  · refine Keeps.ite ?_ ?_
    · refine State.each_keeps ?_ ?_
      · exact h7
      · intro _ _ h11
        refine State.set_keeps ?_
        exact h11
    · exact Keeps.congr hs rfl rfl rfl rfl (fun _ => rfl)
  · refine Keeps.ite ?_ ?_
    · refine State.each_keeps ?_ ?_
      · exact h9
      · intro _ _ h12
        refine State.set_keeps ?_
        exact h12
    · refine State.raise_keeps ?_
      refine State.count_keeps ?_
      refine State.setDoubtfulReq_keeps ?_
      refine State.setReady_keeps ?_
      exact h10

theorem State.endCut_keeps {s : State} (hs : Keeps b s0 s) :
    Keeps b s0 (State.endCut s) := by
  unfold State.endCut
  extract_lets -merge -underBinder x0
  have h1 : Keeps b s0 x0 := by
    exact Keeps.congr hs rfl rfl rfl rfl (fun _ => rfl)
  clear_value x0
  refine State.each_keeps ?_ ?_
  · exact h1
  · intro _ _ h2
    refine State.setFlag_keeps ?_
    exact h2

theorem State.noteWritten_keeps {s : State} (hs : Keeps b s0 s) :
    Keeps b s0 (State.noteWritten s) := by
  unfold State.noteWritten
  refine Keeps.ite ?_ ?_
  · extract_lets -merge -underBinder x0 x1
    try clear_value x0
    have h2 : Keeps b s0 x1 := by
      exact Keeps.congr hs rfl rfl rfl rfl (fun _ => rfl)
    clear_value x1
    refine State.each_keeps ?_ ?_
    · exact h2
    · intro _ _ h3
      refine State.set_keeps ?_
      refine State.setBytes_keeps ?_
      exact h3
  · exact hs

theorem State.writeLone_keeps {s : State} (hs : Keeps b s0 s) :
    Keeps b s0 (State.writeLone s) := by
  unfold State.writeLone
  split
  · exact hs
  · exact hs
  · extract_lets -merge -underBinder x0 x1 x2 x3 x4 x5
    try clear_value x0
    try clear_value x1
    try clear_value x2
    try clear_value x3
    try clear_value x4
    have h6 : Keeps b s0 x5 := by
      exact Keeps.congr hs rfl rfl rfl rfl (fun _ => rfl)
    clear_value x5
    refine State.noteWritten_keeps ?_
    refine State.reselect_keeps ?_
    exact h6

/-! Machine/Objects.lean. -/

theorem State.setBeWord_keeps {s : State} {a : ℕ} {v : ℕ} (hs : Keeps b s0 s) :
    Keeps b s0 (State.setBeWord s a v) := by
  unfold State.setBeWord
  refine State.setBytes_keeps ?_
  exact hs

theorem State.markWritten_keeps {s : State} {o : Obj} {prov : Bool} {writer : Option Writer} {engine : Option Line} (hs : Keeps b s0 s) :
    Keeps b s0 (State.markWritten s o prov writer engine) := by
  unfold State.markWritten
  split
  · exact Keeps.congr hs rfl rfl rfl rfl (fun _ => rfl)
  · exact Keeps.congr hs rfl rfl rfl rfl (fun _ => rfl)

theorem State.clearWritten_keeps {s : State} {o : Obj} (hs : Keeps b s0 s) :
    Keeps b s0 (State.clearWritten s o) := by
  unfold State.clearWritten
  exact Keeps.congr hs rfl rfl rfl rfl (fun _ => rfl)

theorem State.resync_keeps {s : State} {o : Obj} (hs : Keeps b s0 s) :
    Keeps b s0 (State.resync s o) := by
  unfold State.resync
  refine State.clearWritten_keeps ?_
  refine State.each_keeps ?_ ?_
  · exact hs
  · intro _ _ h0
    refine State.copyRange_keeps ?_
    exact h0

theorem State.withCan_keeps {s : State} {c : ℕ} {f : CanBus → CanBus} (hs : Keeps b s0 s) :
    Keeps b s0 (State.withCan s c f) := by
  unfold State.withCan
  exact Keeps.congr hs rfl rfl rfl rfl (fun _ => rfl)

theorem State.setTxPending_keeps {s : State} {c : ℕ} {v : ℕ} (hs : Keeps b s0 s) :
    Keeps b s0 (State.setTxPending s c v) := by
  unfold State.setTxPending
  refine State.set64_keeps ?_
  exact hs

theorem State.canRequest_keeps {s : State} {c : ℕ} {a2 : ℕ} {auto : Bool} (hs : Keeps b s0 s) :
    Keeps b s0 (State.canRequest s c a2 auto) := by
  unfold State.canRequest
  refine Keeps.ite ?_ ?_
  · exact hs
  · refine Keeps.ite ?_ ?_
    · refine Keeps.ite ?_ ?_
      · exact hs
      · refine State.count_keeps ?_
        exact hs
    · refine Keeps.ite ?_ ?_
      · refine State.count_keeps ?_
        exact hs
      · refine State.setBeWord_keeps ?_
        refine State.setTxPending_keeps ?_
        exact hs

theorem State.keepFormer_keeps {s : State} {o : Obj} {a2 : BitVec 64} (hs : Keeps b s0 s) :
    Keeps b s0 (State.keepFormer s o a2) := by
  unfold State.keepFormer
  split
  · refine Keeps.ite ?_ ?_
    · extract_lets -merge -underBinder x0
      try clear_value x0
      refine State.withCan_keeps ?_
      exact hs
    · exact hs

theorem State.flip_keeps {s : State} {o : Obj} {a2 : BitVec 64} (hs : Keeps b s0 s) :
    Keeps b s0 (State.flip s o a2) := by
  unfold State.flip
  split
  · exact hs
  · refine Keeps.ite ?_ ?_
    · extract_lets -merge -underBinder x0 x1
      try clear_value x0
      have h2 : Keeps b s0 x1 := by
        refine State.setByte_keeps ?_
        exact hs
      clear_value x1
      refine State.resync_keeps ?_
      exact h2
    · extract_lets -merge -underBinder x3 x4
      have h5 : Keeps b s0 x3 := by
        refine State.each_keeps ?_ ?_
        · refine State.keepFormer_keeps ?_
          exact hs
        · intro _ _ h6
          refine State.copyRange_keeps ?_
          exact h6
      clear_value x3
      have h7 : Keeps b s0 x4 := by
        refine State.clearWritten_keeps ?_
        exact h5
      clear_value x4
      refine Keeps.ite ?_ ?_
      · refine State.canRequest_keeps ?_
        exact h7
      · exact h7

theorem State.releaseObjects_keeps {s : State} {release : Bool} (hs : Keeps b s0 s) :
    Keeps b s0 (State.releaseObjects s release) := by
  unfold State.releaseObjects
  extract_lets -merge -underBinder x0
  have h1 : Keeps b s0 x0 := by
    refine State.each_keeps ?_ ?_
    · exact hs
    · intro _ _ h2
      refine Keeps.ite ?_ ?_
      · refine State.flip_keeps ?_
        exact h2
      · refine State.resync_keeps ?_
        exact h2
  clear_value x0
  exact Keeps.congr h1 rfl rfl rfl rfl (fun _ => rfl)

theorem State.stageWrite_keeps {s : State} {who : Requester} {o : Obj} {addr : ℕ} {bytes : List Byte} (hs : Keeps b s0 s) :
    Keeps b s0 (State.stageWrite s who o addr bytes) := by
  unfold State.stageWrite
  refine State.markWritten_keeps ?_
  refine State.setBytes_keeps ?_
  exact hs

theorem State.flipNow_keeps {s : State} {o : Obj} (hs : Keeps b s0 s) :
    Keeps b s0 (State.flipNow s o) := by
  unfold State.flipNow
  refine Keeps.ite ?_ ?_
  · exact hs
  · refine State.flip_keeps ?_
    exact hs

end Sys2Proof.Machine
end

