-- ==== Sys2Proof/Laws/KeepsBlocks.lean ====
section
/-! SUPPORT. What each operation and meaning of the kneader, the lines, the engines and the twin block keeps: one lemma per definition. -/

namespace Sys2Proof.Machine

variable {b : Bool} {s0 : State}

/-! Machine/Kneader.lean. -/

theorem State.withKneader_keeps {s : State} {c : Line} {f : Kneader → Kneader} (hs : Keeps b s0 s) :
    Keeps b s0 (State.withKneader s c f) := by
  unfold State.withKneader
  split
  · exact Keeps.congr hs rfl rfl rfl rfl (fun _ => rfl)
  · exact Keeps.congr hs rfl rfl rfl rfl (fun _ => rfl)

theorem State.countRaise_keeps {s : State} {r : Reg} {p : Page} {a3 : ℕ} (hs : Keeps b s0 s) :
    Keeps b s0 (State.countRaise s r p a3) := by
  unfold State.countRaise
  refine State.raise_keeps ?_
  refine State.count_keeps ?_
  exact hs

theorem State.lostFar_keeps {s : State} {c : Line} (hs : Keeps b s0 s) :
    Keeps b s0 (State.lostFar s c) := by
  unfold State.lostFar
  refine State.setFlag_keeps ?_
  refine State.countRaise_keeps ?_
  exact hs

theorem State.lostBad_keeps {s : State} {c : Line} (hs : Keeps b s0 s) :
    Keeps b s0 (State.lostBad s c) := by
  unfold State.lostBad
  refine State.countRaise_keeps ?_
  exact hs

theorem State.keepFetched_keeps {s : State} {m : Line} {e : ℕ} (hs : Keeps b s0 s) :
    Keeps b s0 (State.keepFetched s m e) := by
  unfold State.keepFetched
  extract_lets -merge -underBinder x0 x1
  try clear_value x0
  try clear_value x1
  refine State.each_keeps ?_ ?_
  · exact hs
  · intro _ _ h2
    refine State.withKneader_keeps ?_
    exact h2

theorem State.writeTable_keeps {s : State} {c : Line} {a : ℕ} {bytes : List Byte} (hs : Keeps b s0 s) :
    Keeps b s0 (State.writeTable s c a bytes) := by
  unfold State.writeTable
  extract_lets -merge -underBinder x0
  have h1 : ∀ (y0 : State) (y1 : Line), Keeps b s0 y0 → Keeps b s0 (x0 y0 y1) := by
    intro _ _ h2
    refine State.withKneader_keeps ?_
    refine State.setBytes_keeps ?_
    refine State.keepFetched_keeps ?_
    exact h2
  clear_value x0
  refine Keeps.ite ?_ ?_
  · refine h1 _ _ ?_
    exact hs
  · refine Keeps.ite ?_ ?_
    · refine State.count_keeps ?_
      exact hs
    · refine h1 _ _ ?_
      refine h1 _ _ ?_
      exact hs

theorem State.showFlight_keeps {s : State} {c : Line} (hs : Keeps b s0 s) :
    Keeps b s0 (State.showFlight s c) := by
  unfold State.showFlight
  extract_lets -merge -underBinder x0
  try clear_value x0
  refine State.update_keeps ?_
  refine State.set_keeps ?_
  exact hs

theorem State.noteDrop_keeps {s : State} {c : Line} {job : ℕ} {why : ℕ} (hs : Keeps b s0 s) :
    Keeps b s0 (State.noteDrop s c job why) := by
  unfold State.noteDrop
  refine State.set_keeps ?_
  refine State.set_keeps ?_
  exact hs

theorem State.enqueueJob_keeps {s : State} {c : Line} {job : ℕ} {h : JobHead} {again : Option (BitVec 64)} (hs : Keeps b s0 s) :
    Keeps b s0 (State.enqueueJob s c job h again) := by
  unfold State.enqueueJob
  refine Keeps.ite ?_ ?_
  · refine State.noteDrop_keeps ?_
    refine State.countRaise_keeps ?_
    exact hs
  · extract_lets -merge -underBinder x0 x1
    try clear_value x1
    have h2 : Keeps b s0 x0 := by
      refine State.when_keeps ?_ ?_
      · exact hs
      · intro _ h3
        refine State.count_keeps ?_
        exact h3
    clear_value x0
    refine State.showFlight_keeps ?_
    refine State.withKneader_keeps ?_
    exact h2

theorem State.triggerJob_keeps {s : State} {c : Line} {kind : ℕ} {job : ℕ} (hs : Keeps b s0 s) :
    Keeps b s0 (State.triggerJob s c kind job) := by
  unfold State.triggerJob
  refine Keeps.ite ?_ ?_
  · exact hs
  · split
    · refine State.lostFar_keeps ?_
      exact hs
    · refine State.lostBad_keeps ?_
      exact hs
    · extract_lets -merge -underBinder x0 x1 x2 x3 x4
      try clear_value x0
      try clear_value x1
      try clear_value x2
      try clear_value x3
      try clear_value x4
      refine Keeps.ite ?_ ?_
      · exact hs
      · refine Keeps.ite ?_ ?_
        · refine State.enqueueJob_keeps ?_
          exact hs
        · refine Keeps.ite ?_ ?_
          · refine State.lostFar_keeps ?_
            exact hs
          · refine Keeps.ite ?_ ?_
            · refine State.lostBad_keeps ?_
              exact hs
            · refine Keeps.ite ?_ ?_
              · refine State.enqueueJob_keeps ?_
                exact hs
              · refine State.set_keeps ?_
                refine State.set_keeps ?_
                refine State.countRaise_keeps ?_
                exact hs

theorem State.triggerAll_keeps {s : State} {c : Line} {kind : ℕ} {p : JobHead → Bool} (hs : Keeps b s0 s) :
    Keeps b s0 (State.triggerAll s c kind p) := by
  unfold State.triggerAll
  refine State.each_keeps ?_ ?_
  · exact hs
  · intro _ _ h0
    refine State.triggerJob_keeps ?_
    exact h0

theorem State.fireSlotJob_keeps {s : State} {c : Line} {job : ℕ} (hs : Keeps b s0 s) :
    Keeps b s0 (State.fireSlotJob s c job) := by
  unfold State.fireSlotJob
  refine Keeps.ite ?_ ?_
  · exact hs
  · refine State.triggerJob_keeps ?_
    refine State.withKneader_keeps ?_
    exact hs

theorem State.slotEvents_keeps {s : State} {slots : List ℕ} (hs : Keeps b s0 s) :
    Keeps b s0 (State.slotEvents s slots) := by
  unfold State.slotEvents
  refine Keeps.ite ?_ ?_
  · exact hs
  · refine State.each_keeps ?_ ?_
    · exact hs
    · intro _ _ h0
      refine State.each_keeps ?_ ?_
      · exact h0
      · intro _ _ h1
        split
        · refine Keeps.ite ?_ ?_
          · refine State.fireSlotJob_keeps ?_
            exact h1
          · exact h1
        · exact h1

theorem State.returnTriggers_keeps {s : State} (hs : Keeps b s0 s) :
    Keeps b s0 (State.returnTriggers s) := by
  unfold State.returnTriggers
  refine State.each_keeps ?_ ?_
  · exact hs
  · intro _ _ h0
    refine State.each_keeps ?_ ?_
    · exact h0
    · intro _ _ h1
      refine Keeps.ite ?_ ?_
      · refine State.triggerJob_keeps ?_
        exact h1
      · refine State.fireSlotJob_keeps ?_
        exact h1

theorem State.rxTriggers_keeps {s : State} {space : ℕ} {id : ℕ} (hs : Keeps b s0 s) :
    Keeps b s0 (State.rxTriggers s space id) := by
  unfold State.rxTriggers
  refine State.each_keeps ?_ ?_
  · exact hs
  · intro _ _ h0
    refine State.triggerAll_keeps ?_
    exact h0

theorem execKick_keeps {c : Line} {job : BitVec 15} {s : State} (hs : Keeps b s0 s) :
    KeepsOut b s0 (execKick c job s) := by
  unfold execKick
  refine Keeps.mk_out ?_
  refine State.each_keeps ?_ ?_
  · exact hs
  · intro _ _ h0
    refine State.triggerJob_keeps ?_
    exact h0

theorem State.endRun_keeps {s : State} {c : Line} {r : JobRun} (hs : Keeps b s0 s) :
    Keeps b s0 (State.endRun s c r) := by
  unfold State.endRun
  refine State.showFlight_keeps ?_
  refine State.withKneader_keeps ?_
  exact hs

theorem State.startJob_keeps {s : State} {c : Line} (hs : Keeps b s0 s) :
    Keeps b s0 (State.startJob s c) := by
  unfold State.startJob
  split
  · split
    · exact hs
    · extract_lets -merge -underBinder x0
      have h1 : Keeps b s0 x0 := by
        refine State.withKneader_keeps ?_
        exact hs
      clear_value x0
      split
      · refine State.endRun_keeps ?_
        refine State.lostFar_keeps ?_
        exact h1
      · refine State.endRun_keeps ?_
        refine State.lostBad_keeps ?_
        exact h1
      · extract_lets -merge -underBinder x2 x3 x4 x5 x6 x7
        try clear_value x2
        try clear_value x3
        try clear_value x4
        try clear_value x5
        have h8 : Keeps b s0 x6 := by
          refine State.when_keeps ?_ ?_
          · exact h1
          · intro _ h9
            refine State.count_keeps ?_
            exact h9
        clear_value x6
        have h10 : Keeps b s0 x7 := by
          refine State.when_keeps ?_ ?_
          · exact h8
          · intro _ h11
            refine State.count_keeps ?_
            exact h11
        clear_value x7
        refine State.withKneader_keeps ?_
        exact h10
  · exact hs

theorem execJobStart_keeps {c : Line} {s : State} (hs : Keeps b s0 s) :
    KeepsOut b s0 (execJobStart c s) := by
  unfold execJobStart
  refine Keeps.mk_out ?_
  refine Keeps.ite ?_ ?_
  · refine State.startJob_keeps ?_
    exact hs
  · exact hs

theorem State.substitute_keeps {s : State} {c : Line} {x : SignalEntry} (hs : Keeps b s0 s) :
    KeepsFst b s0 (State.substitute s c x) := by
  unfold State.substitute
  extract_lets -merge -underBinder x0
  have h1 : Keeps b s0 x0 := by
    refine State.count_keeps ?_
    exact hs
  clear_value x0
  split
  · refine Keeps.mk_fst ?_
    exact h1
  · refine Keeps.mk_fst ?_
    exact h1
  · refine Keeps.mk_fst ?_
    exact h1

theorem State.convertOne_keeps {s : State} {c : Line} {usable : Bool} {src : List Byte} {x : SignalEntry} (hs : Keeps b s0 s) :
    KeepsFst b s0 (State.convertOne s c usable src x) := by
  unfold State.convertOne
  extract_lets -merge -underBinder x0 x1
  have h2 : Keeps b s0 x1 := by
    refine State.when_keeps ?_ ?_
    · exact hs
    · intro _ h3
      refine State.countRaise_keeps ?_
      exact h3
  clear_value x1
  refine Keeps.ite_fst ?_ ?_
  · refine State.substitute_keeps ?_
    exact h2
  · split
    · refine Keeps.mk_fst ?_
      refine State.when_keeps ?_ ?_
      · exact h2
      · intro _ h4
        refine State.count_keeps ?_
        exact h4
    · refine State.substitute_keeps ?_
      refine State.count_keeps ?_
      exact h2
    · split
      · have h5 := Keeps.of_snd (b := b) (s := s0) ‹_ = (_, _)› (by
            refine State.draw_keeps ?_
            exact h2
          )
        refine Keeps.mk_fst ?_
        exact h5

theorem State.convertAll_keeps {s : State} {c : Line} {usable : Bool} {src : List Byte} {len : ℕ} {sigs : List SignalEntry}
    (hs : Keeps b s0 s) :
    KeepsFst b s0 (State.convertAll s c usable src len sigs) := by
  unfold State.convertAll
  refine Keeps.foldl_fst ?_ ?_
  · refine Keeps.mk_fst ?_
    exact hs
  · intro _ _ h0
    split
    · first
        | have h1 := Keeps.of_fst (b := b) (s := s0) rfl h0
        | have h1 := Keeps.of_fst (b := b) (s := s0) ‹_ = (_, _)› h0
      refine Keeps.ite_fst ?_ ?_
      · exact h0
      · split
        · have h2 := Keeps.of_fst (b := b) (s := s0) ‹_ = (_, _)› (by
              refine State.convertOne_keeps ?_
              exact h1
            )
          refine Keeps.ite_fst ?_ ?_
          · refine Keeps.mk_fst ?_
            exact h2
          · refine Keeps.ite_fst ?_ ?_
            · refine Keeps.mk_fst ?_
              refine State.countRaise_keeps ?_
              exact h2
            · split
              · refine Keeps.mk_fst ?_
                exact h2
              · refine Keeps.mk_fst ?_
                exact h2

theorem State.writeStage_keeps {s : State} {w : Writer} {prov : Bool} {o : Obj} {writes : List SignalWrite} (hs : Keeps b s0 s) :
    Keeps b s0 (State.writeStage s w prov o writes) := by
  unfold State.writeStage
  extract_lets -merge -underBinder x0
  try clear_value x0
  refine State.markWritten_keeps ?_
  refine State.each_keeps ?_ ?_
  · exact hs
  · intro _ _ h1
    refine State.each_keeps ?_ ?_
    · exact h1
    · intro _ _ h2
      refine State.setByte_keeps ?_
      exact h2

theorem State.writeKneaderDraft_keeps {s : State} {c : Line} {d : ℕ} {writes : List SignalWrite} (hs : Keeps b s0 s) :
    Keeps b s0 (State.writeKneaderDraft s c d writes) := by
  unfold State.writeKneaderDraft
  extract_lets -merge -underBinder x0
  have h1 : Keeps b s0 x0 := by
    refine State.when_keeps ?_ ?_
    · exact hs
    · intro _ h2
      refine State.openDraft_keeps ?_
      exact h2
  clear_value x0
  refine State.each_keeps ?_ ?_
  · exact h1
  · intro _ _ h3
    extract_lets -merge -underBinder x4
    refine State.writeDraft_keeps ?_
    exact h3

theorem State.abortOpen_keeps {s : State} {c : Line} {d : ℕ} (hs : Keeps b s0 s) :
    Keeps b s0 (State.abortOpen s c d) := by
  unfold State.abortOpen
  refine State.when_keeps ?_ ?_
  · exact hs
  · intro _ h0
    refine State.closeDraft_keeps ?_
    exact h0

theorem State.dropRun_keeps {s : State} {c : Line} {r : JobRun} {why : ℕ} (hs : Keeps b s0 s) :
    Keeps b s0 (State.dropRun s c r why) := by
  unfold State.dropRun
  extract_lets -merge -underBinder x0 x1 x2 x3 x4
  try clear_value x2
  try clear_value x3
  have h5 : Keeps b s0 x0 := by
    refine State.endRun_keeps ?_
    refine State.noteDrop_keeps ?_
    exact hs
  clear_value x0
  have h6 : Keeps b s0 x1 := by
    refine State.each_keeps ?_ ?_
    · exact h5
    · intro _ _ h7
      refine State.resync_keeps ?_
      exact h7
  clear_value x1
  have h8 : Keeps b s0 x4 := by
    refine State.when_keeps ?_ ?_
    · exact h6
    · intro _ h9
      extract_lets -merge -underBinder x10
      have h11 : Keeps b s0 x10 := by
        refine State.resync_keeps ?_
        exact h9
      clear_value x10
      exact Keeps.congr h11 rfl rfl rfl rfl (fun _ => rfl)
  clear_value x4
  refine State.when_keeps ?_ ?_
  · exact h8
  · intro _ h12
    refine State.abortOpen_keeps ?_
    exact h12

theorem State.overrunJob_keeps {s : State} {c : Line} {r : JobRun} (hs : Keeps b s0 s) :
    Keeps b s0 (State.overrunJob s c r) := by
  unfold State.overrunJob
  refine State.dropRun_keeps ?_
  refine State.countRaise_keeps ?_
  exact hs

theorem State.doughDeadline_keeps {s : State} {c : Line} (hs : Keeps b s0 s) :
    Keeps b s0 (State.doughDeadline s c) := by
  unfold State.doughDeadline
  refine State.each_keeps ?_ ?_
  · exact hs
  · intro _ _ h0
    refine State.overrunJob_keeps ?_
    exact h0

theorem State.commitDraft7_keeps {s : State} {c : Line} {force : Bool} (hs : Keeps b s0 s) :
    Keeps b s0 (State.commitDraft7 s c force) := by
  unfold State.commitDraft7
  extract_lets -merge -underBinder x0 x1 x2 x3
  try clear_value x0
  try clear_value x1
  try clear_value x2
  try clear_value x3
  refine Keeps.ite ?_ ?_
  · refine State.doughDeadline_keeps ?_
    refine State.commitDraft_keeps ?_
    exact hs
  · exact hs

theorem State.deliver_keeps {s : State} {c : Line} {r : JobRun} {h : JobHead} {writes : List SignalWrite} (hs : Keeps b s0 s) :
    Keeps b s0 (State.deliver s c r h writes) := by
  unfold State.deliver
  refine Keeps.ite ?_ ?_
  · exact hs
  · refine Keeps.ite ?_ ?_
    · extract_lets -merge -underBinder x0
      have h1 : Keeps b s0 x0 := by
        refine State.writeKneaderDraft_keeps ?_
        exact hs
      clear_value x0
      refine Keeps.ite ?_ ?_
      · refine State.commitDraft_keeps ?_
        exact h1
      · refine State.withKneader_keeps ?_
        exact h1
    · extract_lets -merge -underBinder x2 x3 x4
      try clear_value x2
      try clear_value x3
      have h5 : Keeps b s0 x4 := by
        refine State.writeStage_keeps ?_
        exact hs
      clear_value x4
      refine Keeps.ite ?_ ?_
      · exact hs
      · refine Keeps.ite ?_ ?_
        · refine State.countRaise_keeps ?_
          exact hs
        · refine Keeps.ite ?_ ?_
          · refine State.flipNow_keeps ?_
            exact h5
          · exact h5

theorem State.completeJob_keeps {s : State} {c : Line} {r : JobRun} (hs : Keeps b s0 s) :
    Keeps b s0 (State.completeJob s c r) := by
  unfold State.completeJob
  extract_lets -merge -underBinder x0 x1 x2 x3
  try clear_value x0
  try clear_value x1
  try clear_value x2
  try clear_value x3
  refine Keeps.ite ?_ ?_
  · refine State.endRun_keeps ?_
    refine State.lostFar_keeps ?_
    exact hs
  · refine Keeps.ite ?_ ?_
    · refine State.endRun_keeps ?_
      refine State.lostBad_keeps ?_
      exact hs
    · split
      · have h4 := Keeps.of_fst (b := b) (s := s0) ‹_ = (_, _)› (by
            refine State.convertAll_keeps ?_
            exact hs
          )
        extract_lets -merge -underBinder x5
        have h6 : Keeps b s0 x5 := by
          refine Keeps.ite ?_ ?_
          · exact h4
          · refine State.deliver_keeps ?_
            exact h4
        clear_value x5
        refine State.commitDraft7_keeps ?_
        refine State.endRun_keeps ?_
        refine State.count_keeps ?_
        exact h6

theorem execJobComplete_keeps {c : Line} {lane : BitVec 3} {s : State} (hs : Keeps b s0 s) :
    KeepsOut b s0 (execJobComplete c lane s) := by
  unfold execJobComplete
  refine Keeps.mk_out ?_
  split
  · refine Keeps.ite ?_ ?_
    · refine State.completeJob_keeps ?_
      exact hs
    · exact hs
  · exact hs

theorem State.kneaderCut_keeps {s : State} (hs : Keeps b s0 s) :
    Keeps b s0 (State.kneaderCut s) := by
  unfold State.kneaderCut
  refine State.each_keeps ?_ ?_
  · exact hs
  · intro _ _ h0
    refine State.each_keeps ?_ ?_
    · exact h0
    · intro _ _ h1
      refine State.overrunJob_keeps ?_
      exact h1

theorem State.loseLaneAt_keeps {s : State} {c : Line} {lane : ℕ} (hs : Keeps b s0 s) :
    Keeps b s0 (State.loseLaneAt s c lane) := by
  unfold State.loseLaneAt
  refine Keeps.ite ?_ ?_
  · exact hs
  · extract_lets -merge -underBinder x0 x1
    try clear_value x0
    have h2 : Keeps b s0 x1 := by
      refine State.each_keeps ?_ ?_
      · exact hs
      · intro _ _ h3
        refine State.dropRun_keeps ?_
        exact h3
    clear_value x1
    refine State.withKneader_keeps ?_
    exact h2

theorem State.loseLane_keeps {s : State} {c : Line} {lane : ℕ} (hs : Keeps b s0 s) :
    Keeps b s0 (State.loseLane s c lane) := by
  unfold State.loseLane
  refine State.each_keeps ?_ ?_
  · exact hs
  · intro _ _ h0
    refine State.loseLaneAt_keeps ?_
    exact h0

theorem State.takeSpareLanes_keeps {s : State} {c : Line} (hs : Keeps b s0 s) :
    Keeps b s0 (State.takeSpareLanes s c) := by
  unfold State.takeSpareLanes
  extract_lets -merge -underBinder x0 x1
  try clear_value x0
  have h2 : Keeps b s0 x1 := by
    refine State.withKneader_keeps ?_
    exact hs
  clear_value x1
  refine State.each_keeps ?_ ?_
  · exact h2
  · intro _ _ h3
    refine Keeps.ite ?_ ?_
    · refine State.setFlag_keeps ?_
      exact h3
    · refine State.set_keeps ?_
      exact h3

theorem State.withdrawAt_keeps {s : State} {c : Line} {slot : ℕ} (hs : Keeps b s0 s) :
    Keeps b s0 (State.withdrawAt s c slot) := by
  unfold State.withdrawAt
  extract_lets -merge -underBinder x0 x1 x2 x3 x4 x5 x6 x7 x8 x9 x10 x11
  try clear_value x0
  try clear_value x1
  try clear_value x2
  try clear_value x6
  try clear_value x7
  try clear_value x8
  have h12 : Keeps b s0 x3 := by
    refine State.raise_keeps ?_
    refine State.countBy_keeps ?_
    exact hs
  clear_value x3
  have h13 : Keeps b s0 x4 := by
    refine State.each_keeps ?_ ?_
    · exact h12
    · intro _ _ h14
      refine State.endRun_keeps ?_
      exact h14
  clear_value x4
  have h15 : Keeps b s0 x5 := by
    refine State.withKneader_keeps ?_
    exact h13
  clear_value x5
  have h16 : Keeps b s0 x9 := by
    refine State.each_keeps ?_ ?_
    · exact h15
    · intro _ _ h17
      refine State.count_keeps ?_
      refine State.resync_keeps ?_
      exact h17
  clear_value x9
  have h18 : Keeps b s0 x10 := by
    refine State.each_keeps ?_ ?_
    · exact h16
    · intro _ _ h19
      refine State.withKneader_keeps ?_
      exact h19
  clear_value x10
  have h20 : Keeps b s0 x11 := by
    refine State.withKneader_keeps ?_
    refine State.abortOpen_keeps ?_
    exact h18
  clear_value x11
  refine Keeps.ite ?_ ?_
  · exact hs
  · refine Keeps.ite ?_ ?_
    · refine State.each_keeps ?_ ?_
      · exact h20
      · intro _ _ h21
        refine State.withKneader_keeps ?_
        exact h21
    · exact h18

theorem State.withdrawSlot_keeps {s : State} {slot : ℕ} (hs : Keeps b s0 s) :
    Keeps b s0 (State.withdrawSlot s slot) := by
  unfold State.withdrawSlot
  refine State.each_keeps ?_ ?_
  · exact hs
  · intro _ _ h0
    refine State.withdrawAt_keeps ?_
    exact h0

theorem execJobReplay_keeps {c : Line} {s : State} (hs : Keeps b s0 s) :
    KeepsOut b s0 (execJobReplay c s) := by
  unfold execJobReplay
  refine Keeps.mk_out ?_
  refine Keeps.ite ?_ ?_
  · extract_lets -merge -underBinder x0 x1
    try clear_value x0
    have h2 : Keeps b s0 x1 := by
      refine State.withKneader_keeps ?_
      exact hs
    clear_value x1
    refine State.each_keeps ?_ ?_
    · exact h2
    · intro _ _ h3
      split
      · refine State.enqueueJob_keeps ?_
        exact h3
      · refine State.lostFar_keeps ?_
        exact h3
      · refine State.lostBad_keeps ?_
        exact h3
  · exact hs

theorem State.kneaderClock0_keeps {s : State} (hs : Keeps b s0 s) :
    Keeps b s0 (State.kneaderClock0 s) := by
  unfold State.kneaderClock0
  refine State.each_keeps ?_ ?_
  · exact hs
  · intro _ _ h0
    extract_lets -merge -underBinder x1 x2
    have h3 : Keeps b s0 x1 := by
      refine State.each_keeps ?_ ?_
      · exact h0
      · intro _ _ h4
        refine State.overrunJob_keeps ?_
        exact h4
    clear_value x1
    have h5 : Keeps b s0 x2 := by
      refine State.commitDraft7_keeps ?_
      exact h3
    clear_value x2
    refine State.withKneader_keeps ?_
    exact h5

theorem State.kneaderClock40_keeps {s : State} {release : Bool} (hs : Keeps b s0 s) :
    Keeps b s0 (State.kneaderClock40 s release) := by
  unfold State.kneaderClock40
  extract_lets -merge -underBinder x0
  have h1 : Keeps b s0 x0 := by
    refine State.releaseObjects_keeps ?_
    exact hs
  clear_value x0
  refine Keeps.ite ?_ ?_
  · refine State.each_keeps ?_ ?_
    · exact h1
    · intro _ _ h2
      refine State.triggerAll_keeps ?_
      exact h2
  · exact h1

theorem State.markTriggers_keeps {s : State} {m : ℕ} (hs : Keeps b s0 s) :
    Keeps b s0 (State.markTriggers s m) := by
  unfold State.markTriggers
  refine Keeps.ite ?_ ?_
  · refine State.each_keeps ?_ ?_
    · exact hs
    · intro _ _ h0
      refine State.triggerAll_keeps ?_
      exact h0
  · exact hs

theorem State.stepKneaders_keeps {s : State} (hs : Keeps b s0 s) :
    Keeps b s0 (State.stepKneaders s) := by
  unfold State.stepKneaders
  refine State.each_keeps ?_ ?_
  · exact hs
  · intro _ _ h0
    refine State.abortOpen_keeps ?_
    refine State.abortOpen_keeps ?_
    refine State.showFlight_keeps ?_
    refine State.withKneader_keeps ?_
    exact h0

theorem State.rebuildMaps_keeps {s : State} (hs : Keeps b s0 s) :
    Keeps b s0 (State.rebuildMaps s) := by
  unfold State.rebuildMaps
  extract_lets -merge -underBinder x0
  try clear_value x0
  refine State.each_keeps ?_ ?_
  · exact hs
  · intro _ _ h1
    refine State.withKneader_keeps ?_
    exact h1

/-! Machine/Lines.lean. -/

theorem State.setLink_keeps {s : State} {p : BackbonePort} {a2 : Bool} (hs : Keeps b s0 s) :
    Keeps b s0 (State.setLink s p a2) := by
  unfold State.setLink
  split
  · refine State.setFlag_keeps ?_
    exact hs
  · refine State.setFlag_keeps ?_
    exact hs

theorem State.raiseCfgBad_keeps {s : State} (hs : Keeps b s0 s) :
    Keeps b s0 (State.raiseCfgBad s) := by
  unfold State.raiseCfgBad
  refine State.raise_keeps ?_
  exact hs

theorem State.setLine_keeps {s : State} {l : Line} {st : ℕ} (hs : Keeps b s0 s) :
    Keeps b s0 (State.setLine s l st) := by
  unfold State.setLine
  refine State.set_keeps ?_
  exact hs

theorem State.enterListen_keeps {s : State} {l : Line} (hs : Keeps b s0 s) :
    Keeps b s0 (State.enterListen s l) := by
  unfold State.enterListen
  refine State.set_keeps ?_
  refine State.set_keeps ?_
  refine State.set_keeps ?_
  refine State.withLine_keeps ?_
  refine State.setLine_keeps ?_
  exact hs

theorem State.hatOff_keeps {s : State} (hs : Keeps b s0 s) :
    Keeps b s0 (State.hatOff s) := by
  unfold State.hatOff
  refine Keeps.ite ?_ ?_
  · exact hs
  · refine State.dropHatOut_keeps ?_
    refine State.setHat_keeps ?_
    exact hs

theorem State.settleHat_keeps {s : State} (hs : Keeps b s0 s) :
    Keeps b s0 (State.settleHat s) := by
  unfold State.settleHat
  refine Keeps.ite ?_ ?_
  · refine State.hatOff_keeps ?_
    exact hs
  · exact hs

theorem State.enterOff_keeps {s : State} {l : Line} (hs : Keeps b s0 s) :
    Keeps b s0 (State.enterOff s l) := by
  unfold State.enterOff
  extract_lets -merge -underBinder x0 x1 x2
  have h3 : Keeps b s0 x0 := by
    refine State.set_keeps ?_
    refine State.set64_keeps ?_
    refine State.setLine_keeps ?_
    refine State.enterListen_keeps ?_
    exact hs
  clear_value x0
  have h4 : Keeps b s0 x1 := by
    refine State.withLine_keeps ?_
    exact h3
  clear_value x1
  have h5 : Keeps b s0 x2 := by
    refine State.when_keeps ?_ ?_
    · exact h4
    · intro _ h6
      refine State.hatOff_keeps ?_
      exact h6
  clear_value x2
  refine Keeps.ite ?_ ?_
  · refine State.dropKeys_keeps ?_
    refine State.set_keeps ?_
    exact h5
  · exact h5

theorem State.leaveOff_keeps {s : State} {l : Line} (hs : Keeps b s0 s) :
    Keeps b s0 (State.leaveOff s l) := by
  unfold State.leaveOff
  extract_lets -merge -underBinder x0 x1
  have h2 : Keeps b s0 x0 := by
    refine State.enterListen_keeps ?_
    exact hs
  clear_value x0
  have h3 : Keeps b s0 x1 := by
    refine State.withForming_keeps ?_
    exact h2
  clear_value x1
  refine State.when_keeps ?_ ?_
  · exact h3
  · intro _ h4
    refine State.withTwin_keeps ?_
    refine State.setHat_keeps ?_
    exact h4

theorem State.applyLineConditions_keeps {s : State} {l : Line} (hs : Keeps b s0 s) :
    Keeps b s0 (State.applyLineConditions s l) := by
  unfold State.applyLineConditions
  refine Keeps.ite ?_ ?_
  · refine Keeps.ite ?_ ?_
    · refine State.leaveOff_keeps ?_
      exact hs
    · exact hs
  · refine Keeps.ite ?_ ?_
    · exact hs
    · refine State.enterOff_keeps ?_
      exact hs

theorem State.recheckLines_keeps {s : State} {before : State} (hs : Keeps b s0 s) (hbefore : Keeps b s0 before) :
    Keeps b s0 (State.recheckLines s before) := by
  unfold State.recheckLines
  extract_lets -merge -underBinder x0 x1
  try clear_value x0
  have h2 : Keeps b s0 x1 := by
    refine State.when_keeps ?_ ?_
    · exact hs
    · intro _ h3
      refine State.raiseCfgBad_keeps ?_
      exact h3
  clear_value x1
  refine State.each_keeps ?_ ?_
  · exact h2
  · intro _ _ h4
    refine State.applyLineConditions_keeps ?_
    exact h4

theorem State.writeLineEnable_keeps {s : State} {l : Line} {on : Bool} (hs : Keeps b s0 s) :
    Keeps b s0 (State.writeLineEnable s l on) := by
  unfold State.writeLineEnable
  extract_lets -merge -underBinder x0 x1 x2
  have h3 : Keeps b s0 x0 := by
    refine State.when_keeps ?_ ?_
    · exact hs
    · intro _ h4
      refine State.stampConfig_keeps ?_
      exact h4
  clear_value x0
  have h5 : Keeps b s0 x1 := by
    refine State.setFlag_keeps ?_
    exact h3
  clear_value x1
  have h6 : Keeps b s0 x2 := by
    refine State.when_keeps ?_ ?_
    · exact h5
    · intro _ h7
      refine State.raiseCfgBad_keeps ?_
      exact h7
  clear_value x2
  refine State.applyLineConditions_keeps ?_
  exact h6

theorem State.noteKey_keeps {s : State} {k : ℕ} (hs : Keeps b s0 s) :
    Keeps b s0 (State.noteKey s k) := by
  unfold State.noteKey
  refine State.withForming_keeps ?_
  exact hs

theorem State.setStarter_keeps {s : State} {on : Bool} (hs : Keeps b s0 s) :
    Keeps b s0 (State.setStarter s on) := by
  unfold State.setStarter
  extract_lets -merge -underBinder x0
  have h1 : Keeps b s0 x0 := by
    refine State.when_keeps ?_ ?_
    · exact hs
    · intro _ h2
      refine State.withTime_keeps ?_ ?_
      · refine State.setFlag_keeps ?_
        exact h2
      · exact fun _ _ => rfl
  clear_value x0
  refine State.setFlag_keeps ?_
  exact h1

theorem State.followStarter_keeps {s : State} {a1 : FormingBlock} (hs : Keeps b s0 s) :
    Keeps b s0 (State.followStarter s a1) := by
  unfold State.followStarter
  extract_lets -merge -underBinder x0
  have h1 : Keeps b s0 x0 := by
    refine State.each_keeps ?_ ?_
    · exact hs
    · intro _ _ h2
      refine State.set_keeps ?_
      refine State.set_keeps ?_
      refine State.set_keeps ?_
      exact h2
  clear_value x0
  refine State.withForming_keeps ?_
  refine State.setStarter_keeps ?_
  exact h1

theorem State.cycleMismatch_keeps {s : State} {l : Line} (hs : Keeps b s0 s) :
    Keeps b s0 (State.cycleMismatch s l) := by
  unfold State.cycleMismatch
  refine State.raise_keeps ?_
  refine State.count_keeps ?_
  exact hs

theorem State.noRoom_keeps {s : State} {l : Line} (hs : Keeps b s0 s) :
    Keeps b s0 (State.noRoom s l) := by
  unfold State.noRoom
  extract_lets -merge -underBinder x0
  have h1 : Keeps b s0 x0 := by
    refine State.count_keeps ?_
    exact hs
  clear_value x0
  refine Keeps.ite ?_ ?_
  · exact h1
  · refine State.withLine_keeps ?_
    refine State.raise_keeps ?_
    exact h1

theorem State.noPosition_keeps {s : State} {l : Line} (hs : Keeps b s0 s) :
    Keeps b s0 (State.noPosition s l) := by
  unfold State.noPosition
  refine State.raise_keeps ?_
  refine State.count_keeps ?_
  exact hs

theorem State.enterInaugurate_keeps {s : State} {l : Line} (hs : Keeps b s0 s) :
    Keeps b s0 (State.enterInaugurate s l) := by
  unfold State.enterInaugurate
  extract_lets -merge -underBinder x0 x1 x2
  try clear_value x0
  try clear_value x1
  have h3 : Keeps b s0 x2 := by
    refine State.when_keeps ?_ ?_
    · exact hs
    · intro _ h4
      refine State.raise_keeps ?_
      refine State.count_keeps ?_
      exact h4
  clear_value x2
  refine State.startLoafs_keeps ?_
  refine State.withForming_keeps ?_
  refine State.withLine_keeps ?_
  refine State.setLine_keeps ?_
  exact h3

theorem State.enterIntegrate_keeps {s : State} {l : Line} {p : Purpose} (hs : Keeps b s0 s) :
    Keeps b s0 (State.enterIntegrate s l p) := by
  unfold State.enterIntegrate
  refine State.withLine_keeps ?_
  refine State.setLine_keeps ?_
  exact hs

theorem State.stepTime_keeps {s : State} {o : ℤ} {n : ℕ} {tick : BitVec 64} (hs : Keeps b s0 s) :
    Keeps b s0 (State.stepTime s o n tick) := by
  unfold State.stepTime
  extract_lets -merge -underBinder x0 x1 x2 x3 x4 x5 x6 x7 x8 x9 x10
  try clear_value x0
  try clear_value x1
  try clear_value x2
  try clear_value x4
  try clear_value x5
  try clear_value x6
  have h11 : Keeps b s0 x7 := by
    refine State.when_keeps ?_ ?_
    · refine State.countBy_keeps ?_
      exact hs
    · intro _ h12
      refine State.raise_keeps ?_
      exact h12
  clear_value x7
  have h13 : Keeps b s0 x8 := by
    refine State.raise_keeps ?_
    refine State.updateFlag_keeps ?_
    refine State.count_keeps ?_
    refine State.setInt_keeps ?_
    exact h11
  clear_value x8
  have h14 : Keeps b s0 x9 := by
    refine State.set_keeps ?_
    exact h13
  clear_value x9
  have h15 : Keeps b s0 x10 := by
    refine State.withTime_keeps ?_ ?_
    · exact h14
    · exact fun _ _ => rfl
  clear_value x10
  refine State.stepKneaders_keeps ?_
  refine State.stepLoaf_keeps ?_
  refine State.dropKeys_keeps ?_
  exact h15

theorem State.takeCycle_keeps {s : State} {n : ℕ} {tick : BitVec 64} (hs : Keeps b s0 s) :
    Keeps b s0 (State.takeCycle s n tick) := by
  unfold State.takeCycle
  refine State.withTime_keeps ?_ ?_
  · refine State.set64_keeps ?_
    refine State.set_keeps ?_
    exact hs
  · exact fun _ _ => rfl

theorem State.adoptTime_keeps {s : State} {o : ℤ} {cycle : ℕ} {sent : BitVec 32} {starter : Uid} (hs : Keeps b s0 s) :
    Keeps b s0 (State.adoptTime s o cycle sent starter) := by
  unfold State.adoptTime
  extract_lets -merge -underBinder x0 x1 x2 x3 x4 x5 x6 x7
  try clear_value x0
  try clear_value x1
  try clear_value x2
  try clear_value x3
  have h8 : Keeps b s0 x4 := by
    refine State.withTime_keeps ?_ ?_
    · exact hs
    · exact fun _ _ => rfl
  clear_value x4
  have h9 : Keeps b s0 x5 := by
    refine Keeps.ite ?_ ?_
    · refine State.each_keeps ?_ ?_
      · refine State.withTime_keeps ?_ ?_
        · refine State.setInt_keeps ?_
          exact hs
        · exact fun _ _ => rfl
      · intro _ _ h10
        refine State.withLine_keeps ?_
        exact h10
    · refine Keeps.ite ?_ ?_
      · refine State.stepTime_keeps ?_
        refine State.setInt_keeps ?_
        exact hs
      · refine Keeps.ite ?_ ?_
        · exact h8
        · refine State.closeInterval_keeps ?_
          exact h8
  clear_value x5
  have h11 : Keeps b s0 x6 := by
    refine State.setFlag_keeps ?_
    refine State.takeCycle_keeps ?_
    exact h9
  clear_value x6
  have h12 : Keeps b s0 x7 := by
    refine State.withTime_keeps ?_ ?_
    · refine State.enterSync_keeps ?_
      exact h11
    · exact fun _ _ => rfl
  clear_value x7
  refine State.startLoafs_keeps ?_
  exact h12

/-! Machine/ProofOps.lean. -/

theorem State.withRotation_keeps {s : State} {t : ℕ} {f : Rotation → Rotation} (hs : Keeps b s0 s) :
    Keeps b s0 (State.withRotation s t f) := by
  unfold State.withRotation
  exact Keeps.congr hs rfl rfl rfl rfl (fun _ => rfl)

theorem State.writeResult_keeps {s : State} {t : ℕ} {result : ℕ} {cause : ℕ} {cell : ℕ} {patterns : ℕ} {retested : Bool}
    (hs : Keeps b s0 s) :
    Keeps b s0 (State.writeResult s t result cause cell patterns retested) := by
  unfold State.writeResult
  extract_lets -merge -underBinder x0
  have h1 : Keeps b s0 x0 := by
    refine State.set_keeps ?_
    refine State.setFlag_keeps ?_
    refine State.set_keeps ?_
    refine State.set_keeps ?_
    refine State.set_keeps ?_
    refine State.set_keeps ?_
    exact hs
  clear_value x0
  refine State.raise_keeps ?_
  exact h1

theorem State.leaveProof_keeps {s : State} {t : ℕ} {cell : ℕ} {failed : Bool} (hs : Keeps b s0 s) :
    Keeps b s0 (State.leaveProof s t cell failed) := by
  unfold State.leaveProof
  extract_lets -merge -underBinder x0 x1 x2
  try clear_value x0
  have h3 : Keeps b s0 x1 := by
    refine State.set_keeps ?_
    exact hs
  clear_value x1
  have h4 : Keeps b s0 x2 := by
    refine State.setFlag_keeps ?_
    refine State.setFlag_keeps ?_
    exact h3
  clear_value x2
  refine Keeps.ite ?_ ?_
  · refine State.set_keeps ?_
    exact h4
  · exact h4

theorem State.abortOne_keeps {s : State} {t : ℕ} {cause : ℕ} (hs : Keeps b s0 s) :
    Keeps b s0 (State.abortOne s t cause) := by
  unfold State.abortOne
  split
  · refine State.when_keeps ?_ ?_
    · exact hs
    · intro _ h0
      refine State.set_keeps ?_
      exact h0
  · extract_lets -merge -underBinder x1 x2 x3
    try clear_value x2
    have h4 : Keeps b s0 x1 := by
      refine State.withRotation_keeps ?_
      refine State.leaveProof_keeps ?_
      exact hs
    clear_value x1
    have h5 : Keeps b s0 x3 := by
      exact Keeps.congr h4 rfl rfl rfl rfl (fun _ => rfl)
    clear_value x3
    refine State.raise_keeps ?_
    refine State.count_keeps ?_
    refine State.writeResult_keeps ?_
    exact h5

theorem State.abortRun_keeps {s : State} {t : ℕ} {cause : ℕ} (hs : Keeps b s0 s) :
    Keeps b s0 (State.abortRun s t cause) := by
  unfold State.abortRun
  refine Keeps.ite ?_ ?_
  · refine State.each_keeps ?_ ?_
    · exact hs
    · intro _ _ h0
      refine State.abortOne_keeps ?_
      exact h0
  · exact hs

/-! Machine/Region.lean. -/

theorem State.zeroise_keeps {s : State} (hs : Keeps b s0 s) :
    Keeps b s0 (State.zeroise s) := by
  unfold State.zeroise
  extract_lets -merge -underBinder x0 x1 x2 x3
  have h4 : Keeps b s0 x0 := by
    exact hs
  clear_value x0
  have h5 : Keeps b s0 x1 := by
    refine State.abortRun_keeps ?_
    exact hs
  clear_value x1
  have h6 : Keeps b s0 x2 := by
    refine State.withSec_keeps ?_
    exact h5
  clear_value x2
  have h7 : Keeps b s0 x3 := by
    refine State.set_keeps ?_
    refine State.set_keeps ?_
    refine State.set_keeps ?_
    refine State.set_keeps ?_
    exact h6
  clear_value x3
  refine State.recheckLines_keeps ?_ ?_
  · refine State.raise_keeps ?_
    exact h7
  · exact h4

theorem State.cutOff_keeps {s : State} {q : ℕ} (hs : Keeps b s0 s) :
    Keeps b s0 (State.cutOff s q) := by
  unfold State.cutOff
  refine Keeps.ite ?_ ?_
  · refine State.emit_keeps ?_
    exact Keeps.congr hs rfl rfl rfl rfl (fun _ => rfl)
  · exact hs

theorem State.failSilence_keeps {s : State} {region : ℕ} {cause : ℕ} {cell : ℕ} (hs : Keeps b s0 s) :
    Keeps b s0 (State.failSilence s region cause cell) := by
  unfold State.failSilence
  refine Keeps.ite ?_ ?_
  · exact hs
  · extract_lets -merge -underBinder x0 x1 x2 x3 x4
    have h5 : Keeps b s0 x0 := by
      exact hs
    clear_value x0
    have h6 : Keeps b s0 x1 := by
      refine State.each_keeps ?_ ?_
      · refine State.emit_keeps ?_
        refine State.setFlag_keeps ?_
        exact hs
      · intro _ _ h7
        refine State.cutOff_keeps ?_
        exact h7
    clear_value x1
    have h8 : Keeps b s0 x2 := by
      refine Keeps.ite ?_ ?_
      · exact h6
      · refine State.set_keeps ?_
        refine State.set_keeps ?_
        refine State.set_keeps ?_
        refine State.set_keeps ?_
        refine State.updateFlag_keeps ?_
        exact h6
    clear_value x2
    have h9 : Keeps b s0 x3 := by
      refine State.recheckLines_keeps ?_ ?_
      · exact h8
      · exact h5
    clear_value x3
    have h10 : Keeps b s0 x4 := by
      refine State.when_keeps ?_ ?_
      · exact h9
      · intro _ h11
        refine State.dropHatOut_keeps ?_
        refine State.setHat_keeps ?_
        exact h11
    clear_value x4
    refine State.zeroise_keeps ?_
    exact h10

theorem State.stopChannel_keeps {s : State} {c : Line} (hs : Keeps b s0 s) :
    Keeps b s0 (State.stopChannel s c) := by
  unfold State.stopChannel
  extract_lets -merge -underBinder x0 x1
  have h2 : Keeps b s0 x0 := by
    refine Keeps.ite ?_ ?_
    · exact hs
    · refine State.each_keeps ?_ ?_
      · exact hs
      · intro _ _ h3
        refine State.resync_keeps ?_
        exact h3
  clear_value x0
  have h4 : Keeps b s0 x1 := by
    refine State.showFlight_keeps ?_
    refine State.withKneader_keeps ?_
    exact h2
  clear_value x1
  refine State.each_keeps ?_ ?_
  · exact h4
  · intro _ _ h5
    refine State.closeDraft_keeps ?_
    exact h5

theorem State.quarantineMark_keeps {s : State} {c : Line} (hs : Keeps b s0 s) :
    Keeps b s0 (State.quarantineMark s c) := by
  unfold State.quarantineMark
  refine State.setFlag_keeps ?_
  refine State.stopChannel_keeps ?_
  refine State.raise_keeps ?_
  split
  · refine State.setFlag_keeps ?_
    exact hs
  · refine State.setFlag_keeps ?_
    exact hs

theorem State.quarantineWith_keeps {s : State} {c : Line} {cause : ℕ} {cell : ℕ} (hs : Keeps b s0 s) :
    Keeps b s0 (State.quarantineWith s c cause cell) := by
  unfold State.quarantineWith
  refine Keeps.ite ?_ ?_
  · exact hs
  · extract_lets -merge -underBinder x0 x1 x2 x3
    have h4 : Keeps b s0 x0 := by
      exact hs
    clear_value x0
    have h5 : Keeps b s0 x1 := by
      refine State.quarantineMark_keeps ?_
      exact hs
    clear_value x1
    have h6 : Keeps b s0 x2 := by
      refine State.when_keeps ?_ ?_
      · exact h5
      · intro _ h7
        refine State.raise_keeps ?_
        refine State.setFlag_keeps ?_
        exact h7
    clear_value x2
    have h8 : Keeps b s0 x3 := by
      refine State.tryHandover_keeps ?_
      refine State.recheckLines_keeps ?_ ?_
      · exact h6
      · exact h4
    clear_value x3
    refine Keeps.ite ?_ ?_
    · refine State.failSilence_keeps ?_
      exact h8
    · exact h8

theorem State.reportUE_keeps {s : State} {p : Page} {cell : ℕ} {cause : ℕ} {word : ℕ} (hs : Keeps b s0 s) :
    Keeps b s0 (State.reportUE s p cell cause word) := by
  unfold State.reportUE
  refine State.recordError_keeps ?_
  refine State.raise_keeps ?_
  refine State.count_keeps ?_
  exact hs

theorem State.guardianFault_keeps {s : State} {l : Line} (hs : Keeps b s0 s) :
    Keeps b s0 (State.guardianFault s l) := by
  unfold State.guardianFault
  refine State.quarantineWith_keeps ?_
  refine State.reportUE_keeps ?_
  exact hs

/-! Machine/EngOps.lean. -/

theorem State.showRole_keeps {s : State} {c : Line} {r : ℕ} (hs : Keeps b s0 s) :
    Keeps b s0 (State.showRole s c r) := by
  unfold State.showRole
  split
  · exact hs
  · extract_lets -merge -underBinder x0 x1
    try clear_value x0
    try clear_value x1
    refine State.set_keeps ?_
    refine State.set_keeps ?_
    refine State.set_keeps ?_
    refine State.setFlag_keeps ?_
    refine State.setFlag_keeps ?_
    exact hs

theorem State.withRoleOf_keeps {s : State} {c : Line} {r : ℕ} {f : Role → Role} (hs : Keeps b s0 s) :
    Keeps b s0 (State.withRoleOf s c r f) := by
  unfold State.withRoleOf
  refine State.showRole_keeps ?_
  split
  · exact Keeps.congr hs rfl rfl rfl rfl (fun _ => rfl)
  · exact Keeps.congr hs rfl rfl rfl rfl (fun _ => rfl)

theorem State.withRole_keeps {s : State} {c : Line} {r : ℕ} {f : Role → Role} (hs : Keeps b s0 s) :
    Keeps b s0 (State.withRole s c r f) := by
  unfold State.withRole
  refine State.each_keeps ?_ ?_
  · exact hs
  · intro _ _ h0
    refine State.withRoleOf_keeps ?_
    exact h0

theorem State.atEngine_keeps {s : State} {c : Line} {r : ℕ} {f : Line → ℕ → State → State} (hs : Keeps b s0 s)
    (hf : ∀ y0 y1 y2, Keeps b s0 y2 → Keeps b s0 (f y0 y1 y2)) :
    Keeps b s0 (State.atEngine s c r f) := by
  unfold State.atEngine
  refine State.each_keeps ?_ ?_
  · exact hs
  · intro _ _ h0
    split
    · refine hf _ _ _ ?_
      exact h0
    · exact h0

theorem State.countRole_keeps {s : State} {c : Line} {r : ℕ} {reg : Line → ℕ → Reg} {bit : ℕ} (hs : Keeps b s0 s) :
    Keeps b s0 (State.countRole s c r reg bit) := by
  unfold State.countRole
  refine State.atEngine_keeps ?_ ?_
  · exact hs
  · intro _ _ _ h0
    refine State.countRaise_keeps ?_
    exact h0

theorem State.countRoleOnly_keeps {s : State} {c : Line} {r : ℕ} {reg : Line → ℕ → Reg} (hs : Keeps b s0 s) :
    Keeps b s0 (State.countRoleOnly s c r reg) := by
  unfold State.countRoleOnly
  refine State.atEngine_keeps ?_ ?_
  · exact hs
  · intro _ _ _ h0
    refine State.count_keeps ?_
    exact h0

theorem State.pushEvent_keeps {s : State} {c : Line} {r : ℕ} {type : ℕ} {arg : ℕ} (hs : Keeps b s0 s) :
    Keeps b s0 (State.pushEvent s c r type arg) := by
  unfold State.pushEvent
  extract_lets -merge -underBinder x0 x1 x2
  try clear_value x0
  try clear_value x1
  try clear_value x2
  refine Keeps.ite ?_ ?_
  · exact hs
  · refine Keeps.ite ?_ ?_
    · refine State.withRole_keeps ?_
      exact hs
    · refine Keeps.ite ?_ ?_
      · refine State.withRole_keeps ?_
        exact hs
      · refine State.countRole_keeps ?_
        exact hs

theorem State.eachRole_keeps {s : State} {f : Line → ℕ → State → State} (hs : Keeps b s0 s) (hf : ∀ y0 y1 y2, Keeps b s0 y2 → Keeps b s0
    (f y0 y1 y2)) :
    Keeps b s0 (State.eachRole s f) := by
  unfold State.eachRole
  refine State.each_keeps ?_ ?_
  · exact hs
  · intro _ _ h0
    refine State.each_keeps ?_ ?_
    · exact h0
    · intro _ _ h1
      refine Keeps.ite ?_ ?_
      · refine hf _ _ _ ?_
        exact h1
      · exact h1

theorem State.engineMark_keeps {s : State} {m : ℕ} (hs : Keeps b s0 s) :
    Keeps b s0 (State.engineMark s m) := by
  unfold State.engineMark
  refine State.eachRole_keeps ?_ ?_
  · exact hs
  · intro _ _ _ h0
    refine State.pushEvent_keeps ?_
    refine State.withRole_keeps ?_
    exact h0

theorem State.engineWithdraw_keeps {s : State} {slot : ℕ} (hs : Keeps b s0 s) :
    Keeps b s0 (State.engineWithdraw s slot) := by
  unfold State.engineWithdraw
  refine State.eachRole_keeps ?_ ?_
  · exact hs
  · intro _ _ _ h0
    refine Keeps.ite ?_ ?_
    · extract_lets -merge -underBinder x1 x2
      have h3 : Keeps b s0 x1 := by
        refine State.withRole_keeps ?_
        exact h0
      clear_value x1
      have h4 : Keeps b s0 x2 := by
        refine State.each_keeps ?_ ?_
        · exact h3
        · intro _ _ h5
          refine Keeps.ite ?_ ?_
          · refine State.raise_keeps ?_
            refine State.count_keeps ?_
            refine State.closeDraft_keeps ?_
            exact h5
          · exact h5
      clear_value x2
      refine State.pushEvent_keeps ?_
      refine State.countRoleOnly_keeps ?_
      exact h4
    · exact h0

theorem State.engineClock33_keeps {s : State} (hs : Keeps b s0 s) :
    Keeps b s0 (State.engineClock33 s) := by
  unfold State.engineClock33
  refine State.eachRole_keeps ?_ ?_
  · exact hs
  · intro _ _ _ h0
    refine State.withRole_keeps ?_
    exact h0

theorem State.engineDiscards_keeps {s : State} {release : Bool} {ended : ℕ} (hs : Keeps b s0 s) :
    Keeps b s0 (State.engineDiscards s release ended) := by
  unfold State.engineDiscards
  refine State.eachRole_keeps ?_ ?_
  · exact hs
  · intro _ _ _ h0
    extract_lets -merge -underBinder x1
    try clear_value x1
    refine Keeps.ite ?_ ?_
    · exact h0
    · refine Keeps.ite ?_ ?_
      · refine State.pushEvent_keeps ?_
        refine State.countRoleOnly_keeps ?_
        refine State.withRole_keeps ?_
        exact h0
      · refine Keeps.ite ?_ ?_
        · refine State.pushEvent_keeps ?_
          refine State.countRole_keeps ?_
          refine State.withRole_keeps ?_
          exact h0
        · exact h0

theorem State.moveViews_keeps {s : State} {c : Line} {gone : ℕ} (hs : Keeps b s0 s) :
    Keeps b s0 (State.moveViews s c gone) := by
  unfold State.moveViews
  refine State.each_keeps ?_ ?_
  · exact hs
  · intro _ _ h0
    refine Keeps.ite ?_ ?_
    · extract_lets -merge -underBinder x1 x2
      try clear_value x1
      have h3 : Keeps b s0 x2 := by
        refine State.withRole_keeps ?_
        exact h0
      clear_value x2
      refine Keeps.ite ?_ ?_
      · exact h3
      · refine State.pushEvent_keeps ?_
        refine State.each_keeps ?_ ?_
        · exact h3
        · intro _ _ h4
          refine State.count_keeps ?_
          exact h4
    · exact h0

theorem State.engineEpoch_keeps {s : State} {epoch : ℕ} (hs : Keeps b s0 s) :
    Keeps b s0 (State.engineEpoch s epoch) := by
  unfold State.engineEpoch
  refine State.eachRole_keeps ?_ ?_
  · exact hs
  · intro _ _ _ h0
    refine State.pushEvent_keeps ?_
    exact h0

/-! Machine/EngCore.lean. -/

theorem State.engTrap_keeps {s : State} {c : Line} {r : ℕ} {cause : ℕ} {tval : Word} (hs : Keeps b s0 s) :
    Keeps b s0 (State.engTrap s c r cause tval) := by
  unfold State.engTrap
  refine State.withRole_keeps ?_
  exact hs

theorem State.accessFault_keeps {s : State} {c : Line} {r : ℕ} {cause : ℕ} {addr : Word} (hs : Keeps b s0 s) :
    Keeps b s0 (State.accessFault s c r cause addr) := by
  unfold State.accessFault
  refine State.engTrap_keeps ?_
  refine State.countRole_keeps ?_
  exact hs

theorem State.engResult_keeps {s : State} {c : Line} {r : ℕ} {rd : ℕ} {v : Word} {len : ℕ} (hs : Keeps b s0 s) :
    Keeps b s0 (State.engResult s c r rd v len) := by
  unfold State.engResult
  refine State.withRole_keeps ?_
  exact hs

theorem State.bfx_keeps {s : State} {c : Line} {r : ℕ} {rd : ℕ} {rs1 : ℕ} {off : ℕ} {w1 : ℕ} {sx : Bool} (hs : Keeps b s0 s) :
    Keeps b s0 (State.bfx s c r rd rs1 off w1 sx) := by
  unfold State.bfx
  refine State.engResult_keeps ?_
  exact hs

theorem State.bfi_keeps {s : State} {c : Line} {r : ℕ} {rd : ℕ} {rs1 : ℕ} {off : ℕ} {w1 : ℕ} (hs : Keeps b s0 s) :
    Keeps b s0 (State.bfi s c r rd rs1 off w1) := by
  unfold State.bfi
  refine State.engResult_keeps ?_
  exact hs

theorem State.sscl_keeps {s : State} {c : Line} {r : ℕ} {rd : ℕ} {rs1 : ℕ} {rs2 : ℕ} {sat : ℕ} {sh : ℕ} {word : Word} (hs : Keeps b s0 s) :
    Keeps b s0 (State.sscl s c r rd rs1 rs2 sat sh word) := by
  unfold State.sscl
  refine Keeps.ite ?_ ?_
  · refine State.engTrap_keeps ?_
    exact hs
  · refine State.engResult_keeps ?_
    exact hs

theorem State.bswap_keeps {s : State} {c : Line} {r : ℕ} {rd : ℕ} {rs1 : ℕ} {mode : ℕ} {word : Word} (hs : Keeps b s0 s) :
    Keeps b s0 (State.bswap s c r rd rs1 mode word) := by
  unfold State.bswap
  refine Keeps.ite ?_ ?_
  · refine State.engTrap_keeps ?_
    exact hs
  · refine State.engResult_keeps ?_
    exact hs

theorem State.ldp_keeps {s : State} {c : Line} {r : ℕ} {rd : ℕ} {rs1 : ℕ} {imm : ℤ} (hs : Keeps b s0 s) :
    Keeps b s0 (State.ldp s c r rd rs1 imm) := by
  unfold State.ldp
  extract_lets -merge -underBinder x0 x1
  try clear_value x0
  try clear_value x1
  refine Keeps.ite ?_ ?_
  · refine State.engTrap_keeps ?_
    exact hs
  · refine Keeps.ite ?_ ?_
    · refine State.accessFault_keeps ?_
      exact hs
    · split
      · extract_lets -merge -underBinder x2 x3
        have h4 : Keeps b s0 x2 := by
          refine State.withRole_keeps ?_
          exact hs
        clear_value x2
        have h5 : Keeps b s0 x3 := by
          refine State.when_keeps ?_ ?_
          · exact h4
          · intro _ h6
            refine State.each_keeps ?_ ?_
            · exact h6
            · intro _ _ h7
              refine State.count_keeps ?_
              exact h7
        clear_value x3
        split
        · refine State.when_keeps ?_ ?_
          · exact h5
          · intro _ h8
            refine State.withRole_keeps ?_
            exact h8
        · exact h5

theorem State.leaveWait_keeps {s : State} {c : Line} {r : ℕ} (hs : Keeps b s0 s) :
    Keeps b s0 (State.leaveWait s c r) := by
  unfold State.leaveWait
  split
  · refine Keeps.ite ?_ ?_
    · extract_lets -merge -underBinder x0 x1
      have h2 : Keeps b s0 x0 := by
        exact Keeps.congr hs rfl rfl rfl rfl (fun _ => rfl)
      clear_value x0
      have h3 : Keeps b s0 x1 := by
        refine State.countRoleOnly_keeps ?_
        exact h2
      clear_value x1
      refine State.each_keeps ?_ ?_
      · exact h3
      · intro _ _ h4
        split
        · refine State.set_keeps ?_
          exact h4
        · exact h4
    · exact hs
  · exact hs

theorem State.wftReturns_keeps {s : State} {c : Line} {r : ℕ} {mask : ℕ} {rd : ℕ} (hs : Keeps b s0 s) :
    Keeps b s0 (State.wftReturns s c r mask rd) := by
  unfold State.wftReturns
  extract_lets -merge -underBinder x0 x1 x2
  try clear_value x0
  try clear_value x1
  have h3 : Keeps b s0 x2 := by
    refine State.withRole_keeps ?_
    exact hs
  clear_value x2
  refine State.when_keeps ?_ ?_
  · exact h3
  · intro _ h4
    refine State.withRole_keeps ?_
    exact h4

theorem State.wft_keeps {s : State} {c : Line} {r : ℕ} {rd : ℕ} {rs1 : ℕ} (hs : Keeps b s0 s) :
    Keeps b s0 (State.wft s c r rd rs1) := by
  unfold State.wft
  extract_lets -merge -underBinder x0 x1
  try clear_value x0
  have h2 : Keeps b s0 x1 := by
    refine State.when_keeps ?_ ?_
    · exact hs
    · intro _ h3
      refine State.withRole_keeps ?_
      exact h3
  clear_value x1
  refine Keeps.ite ?_ ?_
  · refine State.wftReturns_keeps ?_
    exact h2
  · refine State.withRole_keeps ?_
    exact h2

theorem State.wftReturn_keeps {s : State} {c : Line} {r : ℕ} (hs : Keeps b s0 s) :
    Keeps b s0 (State.wftReturn s c r) := by
  unfold State.wftReturn
  split
  · refine Keeps.ite ?_ ?_
    · refine State.wftReturns_keeps ?_
      refine State.leaveWait_keeps ?_
      exact hs
    · exact hs
  · exact hs

theorem State.ebreak_keeps {s : State} {c : Line} {r : ℕ} (hs : Keeps b s0 s) :
    Keeps b s0 (State.ebreak s c r) := by
  unfold State.ebreak
  extract_lets -merge -underBinder x0 x1
  try clear_value x0
  have h2 : Keeps b s0 x1 := by
    refine State.atEngine_keeps ?_ ?_
    · exact hs
    · intro _ _ _ h3
      refine State.raise_keeps ?_
      refine State.set_keeps ?_
      exact h3
  clear_value x1
  refine State.withRole_keeps ?_
  exact h2

theorem State.takeInterrupt_keeps {s : State} {c : Line} {r : ℕ} (hs : Keeps b s0 s) :
    Keeps b s0 (State.takeInterrupt s c r) := by
  unfold State.takeInterrupt
  refine Keeps.ite ?_ ?_
  · refine State.withRole_keeps ?_
    refine State.when_keeps ?_ ?_
    · exact hs
    · intro _ h0
      refine State.leaveWait_keeps ?_
      exact h0
  · exact hs

theorem State.popEvent_keeps {s : State} {c : Line} {r : ℕ} (hs : Keeps b s0 s) :
    KeepsSnd b s0 (State.popEvent s c r) := by
  unfold State.popEvent
  split
  · refine Keeps.mk_snd ?_
    exact hs
  · refine Keeps.mk_snd ?_
    refine State.withRole_keeps ?_
    exact hs

theorem State.queueStore_keeps {s : State} {c : Line} {r : ℕ} {addr : Word} {data : List Byte} (hs : Keeps b s0 s) :
    Keeps b s0 (State.queueStore s c r addr data) := by
  unfold State.queueStore
  extract_lets -merge -underBinder x0
  try clear_value x0
  refine Keeps.ite ?_ ?_
  · exact hs
  · refine Keeps.ite ?_ ?_
    · refine State.countRole_keeps ?_
      refine State.withRole_keeps ?_
      exact hs
    · refine State.withRole_keeps ?_
      exact hs

theorem State.ringOut_keeps {s : State} {c : Line} {r : ℕ} (hs : Keeps b s0 s) :
    Keeps b s0 (State.ringOut s c r) := by
  unfold State.ringOut
  refine State.atEngine_keeps ?_ ?_
  · exact hs
  · intro _ _ _ h0
    refine State.raise_keeps ?_
    refine State.updateFlag_keeps ?_
    exact h0

theorem State.writeMboxOut_keeps {s : State} {c : Line} {r : ℕ} {w : ℕ} {v : Word} (hs : Keeps b s0 s) :
    Keeps b s0 (State.writeMboxOut s c r w v) := by
  unfold State.writeMboxOut
  refine State.atEngine_keeps ?_ ?_
  · exact hs
  · intro _ _ _ h0
    refine Keeps.ite ?_ ?_
    · exact h0
    · refine State.set_keeps ?_
      exact h0

theorem State.mboxOutDb_keeps {s : State} {c : Line} {r : ℕ} (hs : Keeps b s0 s) :
    Keeps b s0 (State.mboxOutDb s c r) := by
  unfold State.mboxOutDb
  refine Keeps.ite ?_ ?_
  · refine State.queueStore_keeps ?_
    exact hs
  · refine State.ringOut_keeps ?_
    exact hs

theorem State.ackIn_keeps {s : State} {c : Line} {r : ℕ} (hs : Keeps b s0 s) :
    Keeps b s0 (State.ackIn s c r) := by
  unfold State.ackIn
  refine State.atEngine_keeps ?_ ?_
  · exact hs
  · intro _ _ _ h0
    refine State.clearField_keeps ?_
    exact h0

theorem State.mboxInAck_keeps {s : State} {c : Line} {r : ℕ} (hs : Keeps b s0 s) :
    Keeps b s0 (State.mboxInAck s c r) := by
  unfold State.mboxInAck
  refine Keeps.ite ?_ ?_
  · refine State.queueStore_keeps ?_
    exact hs
  · refine State.ackIn_keeps ?_
    exact hs

theorem State.hostMbox_keeps {s : State} {c : Line} {i : ℕ} {f : ℕ → State → State} (hs : Keeps b s0 s)
    (hf : ∀ y0 y1, Keeps b s0 y1 → Keeps b s0 (f y0 y1)) :
    Keeps b s0 (State.hostMbox s c i f) := by
  unfold State.hostMbox
  refine Keeps.ite ?_ ?_
  · exact hs
  · split
    · refine hf _ _ ?_
      exact hs
    · refine State.count_keeps ?_
      exact hs

theorem State.inDb_keeps {s : State} {c : Line} {i : ℕ} (hs : Keeps b s0 s) :
    Keeps b s0 (State.inDb s c i) := by
  unfold State.inDb
  refine State.hostMbox_keeps ?_ ?_
  · exact hs
  · intro _ _ h0
    refine State.pushEvent_keeps ?_
    refine State.atEngine_keeps ?_ ?_
    · exact h0
    · intro _ _ _ h1
      refine State.updateFlag_keeps ?_
      exact h1

theorem State.outAck_keeps {s : State} {c : Line} {i : ℕ} (hs : Keeps b s0 s) :
    Keeps b s0 (State.outAck s c i) := by
  unfold State.outAck
  refine State.hostMbox_keeps ?_ ?_
  · exact hs
  · intro _ _ h0
    refine State.pushEvent_keeps ?_
    refine State.atEngine_keeps ?_ ?_
    · exact h0
    · intro _ _ _ h1
      refine State.clearField_keeps ?_
      exact h1

theorem State.writeMboxIn_keeps {s : State} {c : Line} {i : ℕ} {w : ℕ} {v : ℕ} (hs : Keeps b s0 s) :
    Keeps b s0 (State.writeMboxIn s c i w v) := by
  unfold State.writeMboxIn
  refine State.hostMbox_keeps ?_ ?_
  · exact hs
  · intro _ _ h0
    refine State.atEngine_keeps ?_ ?_
    · exact h0
    · intro _ _ _ h1
      refine Keeps.ite ?_ ?_
      · exact h1
      · refine State.set_keeps ?_
        exact h1

theorem State.setSem_keeps {s : State} {c : Line} {k : ℕ} {v : ℕ} (hs : Keeps b s0 s) :
    Keeps b s0 (State.setSem s c k v) := by
  unfold State.setSem
  refine State.each_keeps ?_ ?_
  · exact hs
  · intro _ _ h0
    split
    · exact Keeps.congr h0 rfl rfl rfl rfl (fun _ => rfl)
    · exact Keeps.congr h0 rfl rfl rfl rfl (fun _ => rfl)

theorem State.semLoad_keeps {s : State} {c : Line} {r : ℕ} {k : ℕ} (hs : Keeps b s0 s) :
    KeepsSnd b s0 (State.semLoad s c r k) := by
  unfold State.semLoad
  split
  · refine Keeps.mk_snd ?_
    refine State.setSem_keeps ?_
    exact hs
  · refine Keeps.mk_snd ?_
    exact hs

theorem State.semStore_keeps {s : State} {c : Line} {r : ℕ} {k : ℕ} {v : Word} (hs : Keeps b s0 s) :
    Keeps b s0 (State.semStore s c r k v) := by
  unfold State.semStore
  refine Keeps.ite ?_ ?_
  · refine State.setSem_keeps ?_
    exact hs
  · exact hs

theorem State.startRole_keeps {s : State} {c : Line} {r : ℕ} {entry : Word} {cause : ℕ} {poisoned : ℕ} (hs : Keeps b s0 s) :
    Keeps b s0 (State.startRole s c r entry cause poisoned) := by
  unfold State.startRole
  refine State.pushEvent_keeps ?_
  refine State.withRole_keeps ?_
  exact hs

theorem State.startCold_keeps {s : State} {c : Line} {r : ℕ} {entry : Word} (hs : Keeps b s0 s) :
    Keeps b s0 (State.startCold s c r entry) := by
  unfold State.startCold
  refine State.startRole_keeps ?_
  refine State.withRole_keeps ?_
  exact hs

theorem State.restartWarm_keeps {s : State} {c : Line} {r : ℕ} (hs : Keeps b s0 s) :
    Keeps b s0 (State.restartWarm s c r) := by
  unfold State.restartWarm
  split
  · refine State.startRole_keeps ?_
    refine State.withRole_keeps ?_
    refine State.leaveWait_keeps ?_
    exact hs
  · exact hs

theorem State.writeRun_keeps {s : State} {c : Line} {i : ℕ} {on : Bool} (hs : Keeps b s0 s) :
    Keeps b s0 (State.writeRun s c i on) := by
  unfold State.writeRun
  extract_lets -merge -underBinder x0 x1
  try clear_value x0
  have h2 : Keeps b s0 x1 := by
    refine State.each_keeps ?_ ?_
    · exact hs
    · intro _ _ h3
      refine State.setFlag_keeps ?_
      exact h3
  clear_value x1
  split
  · exact h2
  · refine Keeps.ite ?_ ?_
    · split
      · refine Keeps.ite ?_ ?_
        · refine State.startCold_keeps ?_
          exact h2
        · exact h2
      · exact h2
    · refine Keeps.ite ?_ ?_
      · refine State.withRole_keeps ?_
        refine State.leaveWait_keeps ?_
        exact h2
      · exact h2

theorem State.writeWarm_keeps {s : State} {c : Line} {i : ℕ} (hs : Keeps b s0 s) :
    Keeps b s0 (State.writeWarm s c i) := by
  unfold State.writeWarm
  split
  · refine Keeps.ite ?_ ?_
    · refine State.restartWarm_keeps ?_
      exact hs
    · exact hs
  · exact hs

theorem State.watchdog_keeps {s : State} {c : Line} {r : ℕ} (hs : Keeps b s0 s) :
    Keeps b s0 (State.watchdog s c r) := by
  unfold State.watchdog
  split
  · extract_lets -merge -underBinder x0
    try clear_value x0
    refine Keeps.ite ?_ ?_
    · refine State.restartWarm_keeps ?_
      refine State.countRole_keeps ?_
      exact hs
    · exact hs
  · exact hs

theorem State.showMap_keeps {s : State} {c : Line} {lo : ℕ} {hi : ℕ} {valid : ℕ} (hs : Keeps b s0 s) :
    Keeps b s0 (State.showMap s c lo hi valid) := by
  unfold State.showMap
  refine State.each_keeps ?_ ?_
  · exact hs
  · intro _ _ h0
    refine State.set_keeps ?_
    refine State.set_keeps ?_
    refine State.set_keeps ?_
    exact h0

theorem State.assignRole_keeps {s : State} {c : Line} {r : ℕ} {i : Option ℕ} {spare : Option ℕ} (hs : Keeps b s0 s) :
    Keeps b s0 (State.assignRole s c r i spare) := by
  unfold State.assignRole
  extract_lets -merge -underBinder x0 x1 x2 x3 x4 x5 x6
  try clear_value x0
  try clear_value x1
  try clear_value x2
  try clear_value x3
  try clear_value x4
  try clear_value x5
  have h7 : Keeps b s0 x6 := by
    refine State.showMap_keeps ?_
    exact hs
  clear_value x6
  refine State.each_keeps ?_ ?_
  · exact h7
  · intro _ _ h8
    refine State.set_keeps ?_
    exact h8

theorem State.movePage_keeps {s : State} {c : Line} {i : ℕ} {j : ℕ} (hs : Keeps b s0 s) :
    Keeps b s0 (State.movePage s c i j) := by
  unfold State.movePage
  extract_lets -merge -underBinder x0
  refine State.each_keeps ?_ ?_
  · exact hs
  · intro _ _ h1
    refine State.set_keeps ?_
    refine State.set_keeps ?_
    exact h1

theorem State.clearShown_keeps {s : State} {c : Line} {i : ℕ} (hs : Keeps b s0 s) :
    Keeps b s0 (State.clearShown s c i) := by
  unfold State.clearShown
  refine State.set_keeps ?_
  refine State.set_keeps ?_
  refine State.setFlag_keeps ?_
  refine State.setFlag_keeps ?_
  exact hs

theorem State.spareTakes_keeps {s : State} {c : Line} {r : ℕ} {planned : Bool} (hs : Keeps b s0 s) :
    Keeps b s0 (State.spareTakes s c r planned) := by
  unfold State.spareTakes
  split
  · extract_lets -merge -underBinder x0 x1 x2
    have h3 : Keeps b s0 x0 := by
      refine State.movePage_keeps ?_
      exact hs
    clear_value x0
    have h4 : Keeps b s0 x1 := by
      refine State.clearShown_keeps ?_
      refine State.assignRole_keeps ?_
      exact h3
    clear_value x1
    have h5 : Keeps b s0 x2 := by
      refine State.raise_keeps ?_
      refine State.set_keeps ?_
      exact h4
    clear_value x2
    refine State.showRole_keeps ?_
    exact h5
  · exact hs

theorem State.loseRole_keeps {s : State} {c : Line} {r : ℕ} (hs : Keeps b s0 s) :
    Keeps b s0 (State.loseRole s c r) := by
  unfold State.loseRole
  split
  · extract_lets -merge -underBinder x0 x1
    have h2 : Keeps b s0 x0 := by
      refine State.raise_keeps ?_
      refine State.clearShown_keeps ?_
      refine State.assignRole_keeps ?_
      exact hs
    clear_value x0
    have h3 : Keeps b s0 x1 := by
      refine State.set_keeps ?_
      exact h2
    clear_value x1
    split
    · exact Keeps.congr h3 rfl rfl rfl rfl (fun _ => rfl)
    · exact Keeps.congr h3 rfl rfl rfl rfl (fun _ => rfl)
  · exact hs

theorem State.makeMove_keeps {s : State} {m : EngMove} (hs : Keeps b s0 s) :
    Keeps b s0 (State.makeMove s m) := by
  unfold State.makeMove
  extract_lets -merge -underBinder x0 x1 x2 x3 x4
  try clear_value x0
  have h5 : Keeps b s0 x1 := by
    refine State.each_keeps ?_ ?_
    · exact hs
    · intro _ _ h6
      split
      · refine State.set_keeps ?_
        exact h6
      · exact h6
  clear_value x1
  have h7 : Keeps b s0 x2 := by
    refine State.each_keeps ?_ ?_
    · exact hs
    · intro _ _ h8
      refine State.spareTakes_keeps ?_
      exact h8
  clear_value x2
  have h9 : Keeps b s0 x3 := by
    refine State.each_keeps ?_ ?_
    · exact h7
    · intro _ _ h10
      split
      · refine State.countBy_keeps ?_
        exact h10
      · exact h10
  clear_value x3
  have h11 : Keeps b s0 x4 := by
    refine State.withRole_keeps ?_
    exact h9
  clear_value x4
  refine Keeps.ite ?_ ?_
  · refine State.each_keeps ?_ ?_
    · exact hs
    · intro _ _ h12
      refine State.spareTakes_keeps ?_
      exact h12
  · refine Keeps.ite ?_ ?_
    · refine State.each_keeps ?_ ?_
      · exact h5
      · intro _ _ h13
        refine State.loseRole_keeps ?_
        exact h13
    · split
      · refine Keeps.ite ?_ ?_
        · refine State.startRole_keeps ?_
          exact h11
        · exact h11
      · exact h11

theorem State.makeMoves_keeps {s : State} (hs : Keeps b s0 s) :
    Keeps b s0 (State.makeMoves s) := by
  unfold State.makeMoves
  refine State.each_keeps ?_ ?_
  · exact hs
  · intro _ _ h0
    extract_lets -merge -underBinder x1
    have h2 : Keeps b s0 x1 := by
      refine State.makeMove_keeps ?_
      exact h0
    clear_value x1
    exact Keeps.congr h2 rfl rfl rfl rfl (fun _ => rfl)

theorem execBfx_keeps {c : Line} {r : BitVec 4} {rd : BitVec 5} {rs1 : BitVec 5} {off : BitVec 5} {w1 : BitVec 5} {sx : Bool} {s : State}
    (hs : Keeps b s0 s) :
    KeepsOut b s0 (execBfx c r rd rs1 off w1 sx s) := by
  unfold execBfx
  refine Keeps.mk_out ?_
  refine Keeps.ite ?_ ?_
  · refine State.bfx_keeps ?_
    exact hs
  · exact hs

theorem execBfi_keeps {c : Line} {r : BitVec 4} {rd : BitVec 5} {rs1 : BitVec 5} {off : BitVec 5} {w1 : BitVec 5} {s : State}
    (hs : Keeps b s0 s) :
    KeepsOut b s0 (execBfi c r rd rs1 off w1 s) := by
  unfold execBfi
  refine Keeps.mk_out ?_
  refine Keeps.ite ?_ ?_
  · refine State.bfi_keeps ?_
    exact hs
  · exact hs

theorem execSscl_keeps {c : Line} {r : BitVec 4} {rd : BitVec 5} {rs1 : BitVec 5} {rs2 : BitVec 5} {sat : BitVec 2} {sh : BitVec 5}
    {s : State} (hs : Keeps b s0 s) :
    KeepsOut b s0 (execSscl c r rd rs1 rs2 sat sh s) := by
  unfold execSscl
  refine Keeps.mk_out ?_
  refine Keeps.ite ?_ ?_
  · refine State.sscl_keeps ?_
    exact hs
  · exact hs

theorem execBswap_keeps {c : Line} {r : BitVec 4} {rd : BitVec 5} {rs1 : BitVec 5} {mode : BitVec 2} {s : State} (hs : Keeps b s0 s) :
    KeepsOut b s0 (execBswap c r rd rs1 mode s) := by
  unfold execBswap
  refine Keeps.mk_out ?_
  refine Keeps.ite ?_ ?_
  · refine State.bswap_keeps ?_
    exact hs
  · exact hs

theorem execLdp_keeps {c : Line} {r : BitVec 4} {rd : BitVec 5} {rs1 : BitVec 5} {imm : BitVec 12} {s : State} (hs : Keeps b s0 s) :
    KeepsOut b s0 (execLdp c r rd rs1 imm s) := by
  unfold execLdp
  refine Keeps.mk_out ?_
  refine Keeps.ite ?_ ?_
  · refine State.ldp_keeps ?_
    exact hs
  · exact hs

theorem execWft_keeps {c : Line} {r : BitVec 4} {rd : BitVec 5} {rs1 : BitVec 5} {s : State} (hs : Keeps b s0 s) :
    KeepsOut b s0 (execWft c r rd rs1 s) := by
  unfold execWft
  refine Keeps.mk_out ?_
  refine Keeps.ite ?_ ?_
  · refine State.wft_keeps ?_
    exact hs
  · exact hs

theorem execWftReturn_keeps {c : Line} {r : BitVec 4} {s : State} (hs : Keeps b s0 s) :
    KeepsOut b s0 (execWftReturn c r s) := by
  unfold execWftReturn
  refine Keeps.mk_out ?_
  refine Keeps.ite ?_ ?_
  · refine State.wftReturn_keeps ?_
    exact hs
  · exact hs

theorem execEbreak_keeps {c : Line} {r : BitVec 4} {s : State} (hs : Keeps b s0 s) :
    KeepsOut b s0 (execEbreak c r s) := by
  unfold execEbreak
  refine Keeps.mk_out ?_
  refine Keeps.ite ?_ ?_
  · refine State.ebreak_keeps ?_
    exact hs
  · exact hs

theorem execMachineExternalInterrupt_keeps {c : Line} {r : BitVec 4} {s : State} (hs : Keeps b s0 s) :
    KeepsOut b s0 (execMachineExternalInterrupt c r s) := by
  unfold execMachineExternalInterrupt
  refine Keeps.mk_out ?_
  refine State.takeInterrupt_keeps ?_
  exact hs

theorem execEvqPop_keeps {c : Line} {r : BitVec 4} {rd : BitVec 5} {s : State} (hs : Keeps b s0 s) :
    KeepsOut b s0 (execEvqPop c r rd s) := by
  unfold execEvqPop
  refine Keeps.mk_out ?_
  refine Keeps.ite ?_ ?_
  · split
    · have h0 := Keeps.of_snd (b := b) (s := s0) ‹_ = (_, _)› (by
          refine State.popEvent_keeps ?_
          exact hs
        )
      refine State.engResult_keeps ?_
      exact h0
  · exact hs

theorem execMboxOutDb_keeps {c : Line} {r : BitVec 4} {s : State} (hs : Keeps b s0 s) :
    KeepsOut b s0 (execMboxOutDb c r s) := by
  unfold execMboxOutDb
  refine Keeps.mk_out ?_
  refine Keeps.ite ?_ ?_
  · refine State.withRole_keeps ?_
    refine State.mboxOutDb_keeps ?_
    exact hs
  · exact hs

theorem execMboxInAck_keeps {c : Line} {r : BitVec 4} {s : State} (hs : Keeps b s0 s) :
    KeepsOut b s0 (execMboxInAck c r s) := by
  unfold execMboxInAck
  refine Keeps.mk_out ?_
  refine Keeps.ite ?_ ?_
  · refine State.withRole_keeps ?_
    refine State.mboxInAck_keeps ?_
    exact hs
  · exact hs

theorem execInDb_keeps {c : Line} {i : BitVec 4} {s : State} (hs : Keeps b s0 s) :
    KeepsOut b s0 (execInDb c i s) := by
  unfold execInDb
  refine Keeps.mk_out ?_
  refine Keeps.ite ?_ ?_
  · refine State.inDb_keeps ?_
    exact hs
  · exact hs

theorem execOutAck_keeps {c : Line} {i : BitVec 4} {s : State} (hs : Keeps b s0 s) :
    KeepsOut b s0 (execOutAck c i s) := by
  unfold execOutAck
  refine Keeps.mk_out ?_
  refine Keeps.ite ?_ ?_
  · refine State.outAck_keeps ?_
    exact hs
  · exact hs

theorem execSemaphoreLoad_keeps {c : Line} {r : BitVec 4} {rd : BitVec 5} {k : BitVec 6} {s : State} (hs : Keeps b s0 s) :
    KeepsOut b s0 (execSemaphoreLoad c r rd k s) := by
  unfold execSemaphoreLoad
  refine Keeps.mk_out ?_
  refine Keeps.ite ?_ ?_
  · split
    · have h0 := Keeps.of_snd (b := b) (s := s0) ‹_ = (_, _)› (by
          refine State.semLoad_keeps ?_
          exact hs
        )
      refine State.engResult_keeps ?_
      exact h0
  · exact hs

theorem execSemaphoreStore_keeps {c : Line} {r : BitVec 4} {k : BitVec 6} {v : Word} {s : State} (hs : Keeps b s0 s) :
    KeepsOut b s0 (execSemaphoreStore c r k v s) := by
  unfold execSemaphoreStore
  refine Keeps.mk_out ?_
  refine Keeps.ite ?_ ?_
  · refine State.withRole_keeps ?_
    refine State.semStore_keeps ?_
    exact hs
  · exact hs

theorem execEngWdt_keeps {c : Line} {r : BitVec 4} {s : State} (hs : Keeps b s0 s) :
    KeepsOut b s0 (execEngWdt c r s) := by
  unfold execEngWdt
  refine Keeps.mk_out ?_
  refine Keeps.ite ?_ ?_
  · refine State.watchdog_keeps ?_
    exact hs
  · exact hs

theorem execEngRun_keeps {c : Line} {i : BitVec 4} {on : Bool} {s : State} (hs : Keeps b s0 s) :
    KeepsOut b s0 (execEngRun c i on s) := by
  unfold execEngRun
  refine Keeps.mk_out ?_
  refine Keeps.ite ?_ ?_
  · refine State.writeRun_keeps ?_
    exact hs
  · exact hs

theorem execEngWarm_keeps {c : Line} {i : BitVec 4} {s : State} (hs : Keeps b s0 s) :
    KeepsOut b s0 (execEngWarm c i s) := by
  unfold execEngWarm
  refine Keeps.mk_out ?_
  refine Keeps.ite ?_ ?_
  · refine State.writeWarm_keeps ?_
    exact hs
  · exact hs

/-! Machine/Twin.lean. -/

theorem State.twinCfgBad_keeps {s : State} (hs : Keeps b s0 s) :
    Keeps b s0 (State.twinCfgBad s) := by
  unfold State.twinCfgBad
  extract_lets -merge -underBinder x0 x1
  have h2 : Keeps b s0 x0 := by
    exact hs
  clear_value x0
  have h3 : Keeps b s0 x1 := by
    refine State.raise_keeps ?_
    refine State.setFlag_keeps ?_
    exact hs
  clear_value x1
  refine State.recheckLines_keeps ?_ ?_
  · refine State.dropHatOut_keeps ?_
    refine State.setHat_keeps ?_
    exact h3
  · exact h2

theorem State.noteHeader_keeps {s : State} {h : TwinHeader} (hs : Keeps b s0 s) :
    Keeps b s0 (State.noteHeader s h) := by
  unfold State.noteHeader
  extract_lets -merge -underBinder x0
  have h1 : Keeps b s0 x0 := by
    refine State.withTwin_keeps ?_
    refine State.setFlag_keeps ?_
    exact hs
  clear_value x0
  refine State.when_keeps ?_ ?_
  · exact h1
  · intro _ h2
    refine State.dropHatOut_keeps ?_
    exact h2

theorem State.onTwin_keeps {s : State} {h : TwinHeader} {f : State → State} (hs : Keeps b s0 s) (hf : ∀ y0, Keeps b s0 y0 → Keeps b s0
    (f y0)) :
    Keeps b s0 (State.onTwin s h f) := by
  unfold State.onTwin
  refine Keeps.ite ?_ ?_
  · exact hs
  · refine Keeps.ite ?_ ?_
    · refine State.twinCfgBad_keeps ?_
      exact hs
    · refine State.refreshTwin_keeps ?_
      refine hf _ ?_
      refine State.noteHeader_keeps ?_
      exact hs

theorem State.grant_keeps {s : State} {n : BitVec 32} (hs : Keeps b s0 s) :
    Keeps b s0 (State.grant s n) := by
  unfold State.grant
  extract_lets -merge -underBinder x0
  have h1 : Keeps b s0 x0 := by
    refine State.withTwin_keeps ?_
    refine State.set_keeps ?_
    exact hs
  clear_value x0
  refine State.sendTwin_keeps ?_
  exact h1

theorem execRenewRx_keeps {hdr : TwinHeader} {cycle : BitVec 32} {lease : BitVec 8} {s : State} (hs : Keeps b s0 s) :
    KeepsOut b s0 (execRenewRx hdr cycle lease s) := by
  unfold execRenewRx
  refine Keeps.mk_out ?_
  refine State.onTwin_keeps ?_ ?_
  · exact hs
  · intro _ h0
    refine Keeps.ite ?_ ?_
    · refine State.count_keeps ?_
      exact h0
    · refine Keeps.ite ?_ ?_
      · exact h0
      · extract_lets -merge -underBinder x1 x2 x3 x4
        have h5 : Keeps b s0 x1 := by
          exact h0
        clear_value x1
        have h6 : Keeps b s0 x2 := by
          refine State.when_keeps ?_ ?_
          · exact h0
          · intro _ h7
            refine State.setHat_keeps ?_
            exact h7
        clear_value x2
        have h8 : Keeps b s0 x3 := by
          refine State.withTwin_keeps ?_
          exact h6
        clear_value x3
        have h9 : Keeps b s0 x4 := by
          refine State.settleHat_keeps ?_
          refine State.recheckLines_keeps ?_ ?_
          · exact h8
          · exact h5
        clear_value x4
        refine State.when_keeps ?_ ?_
        · exact h9
        · intro _ h10
          refine State.grant_keeps ?_
          exact h10

theorem execGrantRx_keeps {hdr : TwinHeader} {cycle : BitVec 32} {a2 : BitVec 32} {a3 : BitVec 8} {unsure : Bool} {s : State}
    (hs : Keeps b s0 s) :
    KeepsOut b s0 (execGrantRx hdr cycle a2 a3 unsure s) := by
  unfold execGrantRx
  refine Keeps.mk_out ?_
  refine State.onTwin_keeps ?_ ?_
  · exact hs
  · intro _ h0
    refine Keeps.ite ?_ ?_
    · refine State.count_keeps ?_
      exact h0
    · refine Keeps.ite ?_ ?_
      · exact h0
      · extract_lets -merge -underBinder x1 x2 x3
        have h4 : Keeps b s0 x1 := by
          refine State.withTwin_keeps ?_
          refine State.set_keeps ?_
          exact h0
        clear_value x1
        have h5 : Keeps b s0 x2 := by
          refine State.when_keeps ?_ ?_
          · exact h4
          · intro _ h6
            refine State.raise_keeps ?_
            refine State.setFlag_keeps ?_
            exact h6
        clear_value x2
        have h7 : Keeps b s0 x3 := by
          refine State.when_keeps ?_ ?_
          · exact h5
          · intro _ h8
            refine State.tryHandover_keeps ?_
            exact h8
        clear_value x3
        refine State.when_keeps ?_ ?_
        · exact h7
        · intro _ h9
          refine State.sendRefresh_keeps ?_
          exact h9

theorem State.partition_keeps {s : State} (hs : Keeps b s0 s) :
    Keeps b s0 (State.partition s) := by
  unfold State.partition
  extract_lets -merge -underBinder x0 x1
  have h2 : Keeps b s0 x0 := by
    exact hs
  clear_value x0
  have h3 : Keeps b s0 x1 := by
    refine State.dropHatOut_keeps ?_
    refine State.raise_keeps ?_
    refine State.setHat_keeps ?_
    exact hs
  clear_value x1
  refine State.recheckLines_keeps ?_ ?_
  · exact h3
  · exact h2

theorem execLeaseEnd_keeps {s : State} (hs : Keeps b s0 s) :
    KeepsOut b s0 (execLeaseEnd s) := by
  unfold execLeaseEnd
  refine Keeps.mk_out ?_
  refine Keeps.ite ?_ ?_
  · refine Keeps.ite ?_ ?_
    · refine State.raise_keeps ?_
      refine State.count_keeps ?_
      refine State.setFlag_keeps ?_
      exact hs
    · refine State.count_keeps ?_
      refine State.partition_keeps ?_
      exact hs
  · exact hs

theorem State.writeWindows_keeps {a0 : State} {a1 : List Nat} {a2 : List Byte} (ha0 : Keeps b s0 a0) :
    Keeps b s0 (State.writeWindows a0 a1 a2) := by
  induction a1 generalizing a0 a2 with
  | nil => exact ha0
  | cons w t ih =>
    refine ih (Keeps.foldl ha0 ?_)
    intro _ _ h
    exact State.setBytes_keeps h

theorem State.restoreEpoch_keeps {s : State} (hs : Keeps b s0 s) :
    Keeps b s0 (State.restoreEpoch s) := by
  unfold State.restoreEpoch
  split
  · refine Keeps.ite ?_ ?_
    · refine State.writeWindows_keeps ?_
      exact hs
    · exact hs
  · exact hs

theorem State.takeHat_keeps {s : State} {t : ℕ} {restore : Bool} (hs : Keeps b s0 s) :
    Keeps b s0 (State.takeHat s t restore) := by
  unfold State.takeHat
  extract_lets -merge -underBinder x0
  have h1 : Keeps b s0 x0 := by
    refine State.withTwin_keeps ?_
    refine State.set_keeps ?_
    refine State.setHat_keeps ?_
    exact hs
  clear_value x0
  refine State.when_keeps ?_ ?_
  · exact h1
  · intro _ h2
    refine State.restoreEpoch_keeps ?_
    exact h2

theorem State.claimHat_keeps {s : State} {t : ℕ} {restore : Bool} (hs : Keeps b s0 s) :
    Keeps b s0 (State.claimHat s t restore) := by
  unfold State.claimHat
  refine State.sendTwin_keeps ?_
  refine State.takeHat_keeps ?_
  exact hs

theorem execClaim_keeps {s : State} (hs : Keeps b s0 s) :
    KeepsOut b s0 (execClaim s) := by
  unfold execClaim
  refine Keeps.mk_out ?_
  extract_lets -merge -underBinder x0
  have h1 : Keeps b s0 x0 := by
    refine State.refreshTwinAt_keeps ?_
    exact hs
  clear_value x0
  refine Keeps.ite ?_ ?_
  · refine Keeps.ite ?_ ?_
    · refine State.count_keeps ?_
      exact h1
    · refine State.refreshTwinAt_keeps ?_
      refine State.claimHat_keeps ?_
      exact h1
  · exact h1

theorem execStartupCountReached_keeps {s : State} (hs : Keeps b s0 s) :
    KeepsOut b s0 (execStartupCountReached s) := by
  unfold execStartupCountReached
  refine Keeps.mk_out ?_
  refine Keeps.ite ?_ ?_
  · refine Keeps.ite ?_ ?_
    · refine Keeps.ite ?_ ?_
      · refine State.claimHat_keeps ?_
        exact hs
      · exact hs
    · refine State.partition_keeps ?_
      exact hs
  · exact hs

theorem execClaimRx_keeps {hdr : TwinHeader} {tick : BitVec 32} {s : State} (hs : Keeps b s0 s) :
    KeepsOut b s0 (execClaimRx hdr tick s) := by
  unfold execClaimRx
  refine Keeps.mk_out ?_
  refine State.onTwin_keeps ?_ ?_
  · exact hs
  · intro _ h0
    extract_lets -merge -underBinder x1
    have h2 : Keeps b s0 x1 := by
      refine State.when_keeps ?_ ?_
      · exact h0
      · intro _ h3
        refine State.withTwin_keeps ?_
        exact h3
    clear_value x1
    refine Keeps.ite ?_ ?_
    · refine State.grant_keeps ?_
      refine State.setHat_keeps ?_
      exact h2
    · refine Keeps.ite ?_ ?_
      · refine Keeps.ite ?_ ?_
        · refine Keeps.ite ?_ ?_
          · exact h2
          · refine State.grant_keeps ?_
            refine State.dropHatOut_keeps ?_
            refine State.setHat_keeps ?_
            exact h2
        · refine State.count_keeps ?_
          exact h2
      · exact h2

theorem State.writeHandover_keeps {s : State} {on : Bool} (hs : Keeps b s0 s) :
    Keeps b s0 (State.writeHandover s on) := by
  unfold State.writeHandover
  extract_lets -merge -underBinder x0
  have h1 : Keeps b s0 x0 := by
    refine State.setFlag_keeps ?_
    refine State.when_keeps ?_ ?_
    · exact hs
    · intro _ h2
      refine State.stampConfig_keeps ?_
      exact h2
  clear_value x0
  refine Keeps.ite ?_ ?_
  · refine State.tryHandover_keeps ?_
    exact h1
  · refine State.withTwin_keeps ?_
    exact h1

theorem execHandover_keeps {on : Bool} {s : State} (hs : Keeps b s0 s) :
    KeepsOut b s0 (execHandover on s) := by
  unfold execHandover
  refine Keeps.mk_out ?_
  refine Keeps.ite ?_ ?_
  · refine State.writeHandover_keeps ?_
    exact hs
  · exact hs

theorem execHandoverRx_keeps {hdr : TwinHeader} {tick : BitVec 32} {a2 : BitVec 8} {s : State} (hs : Keeps b s0 s) :
    KeepsOut b s0 (execHandoverRx hdr tick a2 s) := by
  unfold execHandoverRx
  refine Keeps.mk_out ?_
  refine State.onTwin_keeps ?_ ?_
  · exact hs
  · intro _ h0
    refine Keeps.ite ?_ ?_
    · refine State.withTwin_keeps ?_
      refine State.sendTwin_keeps ?_
      exact h0
    · exact h0

theorem execHandoverAckRx_keeps {hdr : TwinHeader} {tick : BitVec 32} {s : State} (hs : Keeps b s0 s) :
    KeepsOut b s0 (execHandoverAckRx hdr tick s) := by
  unfold execHandoverAckRx
  refine Keeps.mk_out ?_
  refine State.onTwin_keeps ?_ ?_
  · exact hs
  · intro _ h0
    refine Keeps.ite ?_ ?_
    · refine State.withTwin_keeps ?_
      exact h0
    · exact h0

theorem execHandoverTick_keeps {s : State} (hs : Keeps b s0 s) :
    KeepsOut b s0 (execHandoverTick s) := by
  unfold execHandoverTick
  refine Keeps.mk_out ?_
  extract_lets -merge -underBinder x0 x1 x2 x3
  try clear_value x0
  have h4 : Keeps b s0 x1 := by
    refine State.setFlag_keeps ?_
    refine State.count_keeps ?_
    refine State.setHat_keeps ?_
    exact hs
  clear_value x1
  have h5 : Keeps b s0 x2 := by
    refine State.withTwin_keeps ?_
    exact hs
  clear_value x2
  have h6 : Keeps b s0 x3 := by
    refine State.tryHandover_keeps ?_
    exact h5
  clear_value x3
  refine Keeps.ite ?_ ?_
  · refine Keeps.ite ?_ ?_
    · refine Keeps.ite ?_ ?_
      · refine State.settleHat_keeps ?_
        refine State.withTwin_keeps ?_
        refine State.set_keeps ?_
        exact h4
      · refine State.when_keeps ?_ ?_
        · exact h6
        · intro _ h7
          refine State.count_keeps ?_
          exact h7
    · refine Keeps.ite ?_ ?_
      · refine State.withTwin_keeps ?_
        refine State.count_keeps ?_
        refine State.takeHat_keeps ?_
        exact hs
      · refine State.withTwin_keeps ?_
        exact hs
  · exact hs

theorem execHatOutRelease_keeps {s : State} (hs : Keeps b s0 s) :
    KeepsOut b s0 (execHatOutRelease s) := by
  unfold execHatOutRelease
  refine Keeps.mk_out ?_
  split
  · refine Keeps.ite ?_ ?_
    · refine State.dropHatOut_keeps ?_
      exact hs
    · exact hs
  · exact hs

theorem State.writeHostGrant_keeps {s : State} {v : ℕ} (hs : Keeps b s0 s) :
    Keeps b s0 (State.writeHostGrant s v) := by
  unfold State.writeHostGrant
  refine Keeps.ite ?_ ?_
  · extract_lets -merge -underBinder x0
    have h1 : Keeps b s0 x0 := by
      exact hs
    clear_value x0
    refine State.settleHat_keeps ?_
    refine State.recheckLines_keeps ?_ ?_
    · refine State.claimHat_keeps ?_
      exact hs
    · exact h1
  · exact hs

theorem execHostGrant_keeps {v : BitVec 16} {s : State} (hs : Keeps b s0 s) :
    KeepsOut b s0 (execHostGrant v s) := by
  unfold execHostGrant
  refine Keeps.mk_out ?_
  refine State.writeHostGrant_keeps ?_
  exact hs

theorem execMergeRx_keeps {hdr : TwinHeader} {mseq : BitVec 16} {offs : BitVec 16} {refresh : Bool} {ready : Bool} {doubtful : Bool}
    {dough : List Byte} {s : State} (hs : Keeps b s0 s) :
    KeepsOut b s0 (execMergeRx hdr mseq offs refresh ready doubtful dough s) := by
  unfold execMergeRx
  refine Keeps.mk_out ?_
  refine State.onTwin_keeps ?_ ?_
  · exact hs
  · intro _ h0
    refine Keeps.ite ?_ ?_
    · exact h0
    · extract_lets -merge -underBinder x1 x2 x3 x4 x5 x6
      try clear_value x1
      try clear_value x2
      try clear_value x3
      try clear_value x4
      have h7 : Keeps b s0 x5 := by
        refine State.withTwin_keeps ?_
        exact h0
      clear_value x5
      have h8 : Keeps b s0 x6 := by
        refine State.each_keeps ?_ ?_
        · exact h7
        · intro _ _ h9
          refine Keeps.ite ?_ ?_
          · refine State.each_keeps ?_ ?_
            · exact h9
            · intro _ _ h10
              refine State.setByte_keeps ?_
              exact h10
          · exact h9
      clear_value x6
      refine State.setDoubtfulReq_keeps ?_
      refine State.setReady_keeps ?_
      exact h8

theorem execCutRecordRx_keeps {hdr : TwinHeader} {cycle : BitVec 32} {seq : BitVec 16} {flags : SliceFlags} {write : Bool}
    {len : BitVec 16} {mseq : BitVec 16} {s : State} (hs : Keeps b s0 s) :
    KeepsOut b s0 (execCutRecordRx hdr cycle seq flags write len mseq s) := by
  unfold execCutRecordRx
  refine Keeps.mk_out ?_
  refine State.onTwin_keeps ?_ ?_
  · exact hs
  · intro _ h0
    refine Keeps.ite ?_ ?_
    · refine State.withTwin_keeps ?_
      exact h0
    · exact h0

theorem State.cutLate_keeps {s : State} (hs : Keeps b s0 s) :
    Keeps b s0 (State.cutLate s) := by
  unfold State.cutLate
  extract_lets -merge -underBinder x0
  have h1 : Keeps b s0 x0 := by
    refine State.count_keeps ?_
    exact hs
  clear_value x0
  exact Keeps.congr h1 rfl rfl rfl rfl (fun _ => rfl)

theorem State.standbyCut_keeps {s : State} (hs : Keeps b s0 s) :
    Keeps b s0 (State.standbyCut s) := by
  unfold State.standbyCut
  extract_lets -merge -underBinder x0
  try clear_value x0
  refine Keeps.ite ?_ ?_
  · refine State.cutLate_keeps ?_
    exact hs
  · split
    · extract_lets -merge -underBinder x1 x2
      have h3 : Keeps b s0 x1 := by
        refine State.setHold_keeps ?_
        refine State.update_keeps ?_
        exact hs
      clear_value x1
      have h4 : Keeps b s0 x2 := by
        exact Keeps.congr h3 rfl rfl rfl rfl (fun _ => rfl)
      clear_value x2
      refine Keeps.ite ?_ ?_
      · exact Keeps.congr h3 rfl rfl rfl rfl (fun _ => rfl)
      · refine Keeps.ite ?_ ?_
        · exact Keeps.congr h3 rfl rfl rfl rfl (fun _ => rfl)
        · refine State.each_keeps ?_ ?_
          · exact h4
          · intro _ _ h5
            refine State.set_keeps ?_
            exact h5
    · refine Keeps.ite ?_ ?_
      · refine State.update_keeps ?_
        refine State.raise_keeps ?_
        refine State.cutLate_keeps ?_
        refine State.setHold_keeps ?_
        exact hs
      · extract_lets -merge -underBinder x6
        have h7 : Keeps b s0 x6 := by
          refine State.setHold_keeps ?_
          exact hs
        clear_value x6
        refine Keeps.ite ?_ ?_
        · exact Keeps.congr h7 rfl rfl rfl rfl (fun _ => rfl)
        · exact Keeps.congr h7 rfl rfl rfl rfl (fun _ => rfl)

theorem State.sendCutRecord_keeps {s : State} (hs : Keeps b s0 s) :
    Keeps b s0 (State.sendCutRecord s) := by
  unfold State.sendCutRecord
  extract_lets -merge -underBinder x0 x1 x2
  try clear_value x0
  try clear_value x1
  try clear_value x2
  refine State.sendTwin_keeps ?_
  exact hs

theorem execCut_keeps {s : State} (hs : Keeps b s0 s) :
    KeepsOut b s0 (execCut s) := by
  unfold execCut
  refine Keeps.mk_out ?_
  extract_lets -merge -underBinder x0 x1 x2 x3 x4 x5 x6
  try clear_value x0
  try clear_value x1
  try clear_value x2
  try clear_value x3
  have h7 : Keeps b s0 x4 := by
    refine State.when_keeps ?_ ?_
    · exact hs
    · intro _ h8
      refine State.count_keeps ?_
      exact h8
  clear_value x4
  have h9 : Keeps b s0 x5 := by
    refine State.set_keeps ?_
    refine State.kneaderCut_keeps ?_
    exact h7
  clear_value x5
  have h10 : Keeps b s0 x6 := by
    refine Keeps.ite ?_ ?_
    · refine State.cut_keeps ?_
      exact h9
    · refine Keeps.ite ?_ ?_
      · refine State.sendCutRecord_keeps ?_
        refine State.cut_keeps ?_
        exact h9
      · refine Keeps.ite ?_ ?_
        · refine State.standbyCut_keeps ?_
          exact h9
        · exact Keeps.congr h9 rfl rfl rfl rfl (fun _ => rfl)
  clear_value x6
  refine Keeps.ite ?_ ?_
  · exact hs
  · refine State.when_keeps ?_ ?_
    · refine State.endCut_keeps ?_
      exact h10
    · intro _ h11
      refine State.writeLone_keeps ?_
      exact h11

theorem State.sendEpoch_keeps {s : State} {n : ℕ} (hs : Keeps b s0 s) :
    Keeps b s0 (State.sendEpoch s n) := by
  unfold State.sendEpoch
  refine Keeps.ite ?_ ?_
  · extract_lets -merge -underBinder x0 x1 x2 x3 x4 x5 x6
    try clear_value x0
    try clear_value x1
    try clear_value x2
    try clear_value x3
    try clear_value x4
    have h7 : Keeps b s0 x5 := by
      refine State.sendTwin_keeps ?_
      exact hs
    clear_value x5
    have h8 : Keeps b s0 x6 := by
      refine State.sendTwin_keeps ?_
      refine State.each_keeps ?_ ?_
      · exact h7
      · intro _ _ h9
        refine State.sendLink_keeps ?_
        exact h9
    clear_value x6
    refine State.set_keeps ?_
    refine State.set_keeps ?_
    exact h8
  · exact hs

theorem State.epochFail_keeps {s : State} (hs : Keeps b s0 s) :
    Keeps b s0 (State.epochFail s) := by
  unfold State.epochFail
  refine State.withTwin_keeps ?_
  refine State.raise_keeps ?_
  refine State.count_keeps ?_
  exact hs

theorem execEpochHeadRx_keeps {hdr : TwinHeader} {num : BitVec 32} {len : BitVec 32} {crc : BitVec 32} {s : State} (hs : Keeps b s0 s) :
    KeepsOut b s0 (execEpochHeadRx hdr num len crc s) := by
  unfold execEpochHeadRx
  refine Keeps.mk_out ?_
  refine State.onTwin_keeps ?_ ?_
  · exact hs
  · intro _ h0
    refine Keeps.ite ?_ ?_
    · exact h0
    · extract_lets -merge -underBinder x1 x2 x3
      try clear_value x2
      have h4 : Keeps b s0 x1 := by
        refine State.when_keeps ?_ ?_
        · exact h0
        · intro _ h5
          refine State.epochFail_keeps ?_
          exact h5
      clear_value x1
      have h6 : Keeps b s0 x3 := by
        refine State.withTwin_keeps ?_
        exact h4
      clear_value x3
      refine Keeps.ite ?_ ?_
      · refine State.withTwin_keeps ?_
        refine State.set_keeps ?_
        exact h6
      · refine State.raise_keeps ?_
        refine State.count_keeps ?_
        exact h6

theorem execEpochCommitRx_keeps {hdr : TwinHeader} {num : BitVec 32} {crc : BitVec 32} {data : List Byte} {s : State} (hs : Keeps b s0 s) :
    KeepsOut b s0 (execEpochCommitRx hdr num crc data s) := by
  unfold execEpochCommitRx
  refine Keeps.mk_out ?_
  refine State.onTwin_keeps ?_ ?_
  · exact hs
  · intro _ h0
    split
    · exact h0
    · refine Keeps.ite ?_ ?_
      · refine State.withTwin_keeps ?_
        refine State.set_keeps ?_
        exact h0
      · refine State.epochFail_keeps ?_
        exact h0

theorem execHbtPulseRx_keeps {widthNs : BitVec 16} {start : BitVec 64} {s : State} (hs : Keeps b s0 s) :
    KeepsOut b s0 (execHbtPulseRx widthNs start s) := by
  unfold execHbtPulseRx
  refine Keeps.mk_out ?_
  refine Keeps.ite ?_ ?_
  · split
    · exact hs
    · extract_lets -merge -underBinder x0 x1
      try clear_value x0
      try clear_value x1
      refine State.withTwin_keeps ?_
      refine State.set_keeps ?_
      exact hs
  · exact hs

theorem execHbtLost_keeps {s : State} (hs : Keeps b s0 s) :
    KeepsOut b s0 (execHbtLost s) := by
  unfold execHbtLost
  refine Keeps.mk_out ?_
  refine Keeps.ite ?_ ?_
  · refine State.raise_keeps ?_
    refine State.count_keeps ?_
    refine State.set_keeps ?_
    exact hs
  · exact hs

theorem State.tickTwin_keeps {s : State} {before : State} {gap : Bool} (hs : Keeps b s0 s) (hbefore : Keeps b s0 before) :
    Keeps b s0 (State.tickTwin s before gap) := by
  unfold State.tickTwin
  refine Keeps.ite ?_ ?_
  · exact hs
  · extract_lets -merge -underBinder x0 x1 x2 x3 x4 x5
    try clear_value x0
    have h6 : Keeps b s0 x2 := by
      refine State.withTwin_keeps ?_
      exact hs
    clear_value x2
    have h7 : Keeps b s0 x3 := by
      refine State.when_keeps ?_ ?_
      · exact h6
      · intro _ h8
        refine State.count_keeps ?_
        exact h8
    clear_value x3
    have h9 : Keeps b s0 x4 := by
      refine State.setFlag_keeps ?_
      exact h7
    clear_value x4
    have h10 : Keeps b s0 x5 := by
      unfold x5
      split
      · refine Keeps.ite ?_ ?_
        · refine State.epochFail_keeps ?_
          exact h9
        · exact h9
      · exact h9
    clear_value x5
    refine State.refreshTwin_keeps ?_
    exact h10

theorem State.twinClock40_keeps {s : State} {release : Bool} (hs : Keeps b s0 s) :
    Keeps b s0 (State.twinClock40 s release) := by
  unfold State.twinClock40
  refine Keeps.ite ?_ ?_
  · exact hs
  · extract_lets -merge -underBinder x0 x1 x2 x3
    try clear_value x3
    have h4 : Keeps b s0 x0 := by
      refine State.when_keeps ?_ ?_
      · exact hs
      · intro _ h5
        refine State.withTwin_keeps ?_
        refine State.setFlag_keeps ?_
        exact h5
    clear_value x0
    have h6 : Keeps b s0 x1 := by
      refine State.when_keeps ?_ ?_
      · exact h4
      · intro _ h7
        refine State.sendTwin_keeps ?_
        exact h7
    clear_value x1
    have h8 : Keeps b s0 x2 := by
      refine State.when_keeps ?_ ?_
      · exact h6
      · intro _ h9
        refine State.sendEpoch_keeps ?_
        exact h9
    clear_value x2
    refine State.when_keeps ?_ ?_
    · exact h8
    · intro _ h10
      refine State.emit_keeps ?_
      exact h10

end Sys2Proof.Machine
end

