-- ==== Sys2Proof/Laws/KeepsTrays.lean ====
section
/-! SUPPORT. What each operation and meaning of forming and the trays keeps: one lemma per definition. -/

namespace Sys2Proof.Machine

variable {b : Bool} {s0 : State}

/-! Machine/Wire.lean. -/

theorem State.occupy_keeps {s : State} {p : BackbonePort} {len : ℕ} (hs : Keeps b s0 s) :
    Keeps b s0 (State.occupy s p len) := by
  unfold State.occupy
  exact Keeps.congr hs rfl rfl rfl rfl (fun _ => rfl)

theorem State.originate_keeps {s : State} {l : Line} {p : BackbonePort} {len : ℕ} {inWindow : Bool} {mk : Bool → Sent} (hs : Keeps b s0 s) :
    Keeps b s0 (State.originate s l p len inWindow mk) := by
  unfold State.originate
  refine Keeps.ite ?_ ?_
  · exact hs
  · extract_lets -merge -underBinder x0
    try clear_value x0
    refine State.emit_keeps ?_
    refine State.occupy_keeps ?_
    refine State.when_keeps ?_ ?_
    · exact hs
    · intro _ h1
      refine State.count_keeps ?_
      exact h1

/-! Machine/Guardian.lean. -/

theorem State.loadGuard_keeps {s : State} {l : Line} (hs : Keeps b s0 s) :
    Keeps b s0 (State.loadGuard s l) := by
  unfold State.loadGuard
  extract_lets -merge -underBinder x0
  try clear_value x0
  refine State.withLine_keeps ?_
  exact hs

/-! Machine/Forming.lean. -/

theorem State.refreshLineEnd_keeps {s : State} {l : Line} (hs : Keeps b s0 s) :
    Keeps b s0 (State.refreshLineEnd s l) := by
  unfold State.refreshLineEnd
  refine State.setFlag_keeps ?_
  exact hs

theorem State.restartForming_keeps {s : State} (hs : Keeps b s0 s) :
    Keeps b s0 (State.restartForming s) := by
  unfold State.restartForming
  refine State.withLine_keeps ?_
  refine State.withForming_keeps ?_
  exact hs

theorem State.scheduleSeek_keeps {s : State} {t : ℕ} {u : ℕ} (hs : Keeps b s0 s) :
    Keeps b s0 (State.scheduleSeek s t u) := by
  unfold State.scheduleSeek
  refine State.withForming_keeps ?_
  refine State.restartForming_keeps ?_
  exact hs

theorem State.trigger_keeps {s : State} {u : ℕ} (hs : Keeps b s0 s) :
    Keeps b s0 (State.trigger s u) := by
  unfold State.trigger
  refine Keeps.ite ?_ ?_
  · exact hs
  · extract_lets -merge -underBinder x0 x1
    try clear_value x0
    have h2 : Keeps b s0 x1 := by
      refine State.each_keeps ?_ ?_
      · refine State.withForming_keeps ?_
        exact hs
      · intro _ _ h3
        refine State.withLine_keeps ?_
        exact h3
    clear_value x1
    refine State.when_keeps ?_ ?_
    · exact h2
    · intro _ h4
      refine State.scheduleSeek_keeps ?_
      exact h4

theorem State.topologyEvent_keeps {s : State} {p : BackbonePort} {link : Bool} (hs : Keeps b s0 s) :
    Keeps b s0 (State.topologyEvent s p link) := by
  unfold State.topologyEvent
  extract_lets -merge -underBinder x0 x1 x2 x3
  try clear_value x0
  try clear_value x1
  try clear_value x3
  have h4 : Keeps b s0 x2 := by
    refine State.withLine_keeps ?_
    exact hs
  clear_value x2
  refine Keeps.ite ?_ ?_
  · refine State.when_keeps ?_ ?_
    · exact h4
    · intro _ h5
      refine State.trigger_keeps ?_
      exact h5
  · refine State.withLine_keeps ?_
    exact hs

theorem execPortLinkChange_keeps {p : BackbonePort} {up : Bool} {s : State} (hs : Keeps b s0 s) :
    KeepsOut b s0 (execPortLinkChange p up s) := by
  unfold execPortLinkChange
  refine Keeps.mk_out ?_
  refine Keeps.ite ?_ ?_
  · exact hs
  · extract_lets -merge -underBinder x0 x1
    have h2 : Keeps b s0 x0 := by
      refine State.raiseMac_keeps ?_
      refine State.setFlag_keeps ?_
      refine State.setLink_keeps ?_
      exact hs
    clear_value x0
    have h3 : Keeps b s0 x1 := by
      refine State.withLine_keeps ?_
      exact h2
    clear_value x1
    refine State.refreshLineEnd_keeps ?_
    refine State.topologyEvent_keeps ?_
    exact h3

theorem execCouplingWindowExpiry_keeps {p : BackbonePort} {s : State} (hs : Keeps b s0 s) :
    KeepsOut b s0 (execCouplingWindowExpiry p s) := by
  unfold execCouplingWindowExpiry
  refine Keeps.mk_out ?_
  extract_lets -merge -underBinder x0 x1
  try clear_value x0
  have h2 : Keeps b s0 x1 := by
    refine State.when_keeps ?_ ?_
    · exact hs
    · intro _ h3
      refine State.raise_keeps ?_
      refine State.count_keeps ?_
      exact h3
  clear_value x1
  refine State.withLine_keeps ?_
  exact h2

theorem execLinkSettleExpiry_keeps {p : BackbonePort} {s : State} (hs : Keeps b s0 s) :
    KeepsOut b s0 (execLinkSettleExpiry p s) := by
  unfold execLinkSettleExpiry
  refine Keeps.mk_out ?_
  refine Keeps.ite ?_ ?_
  · refine State.refreshLineEnd_keeps ?_
    refine State.withLine_keeps ?_
    exact hs
  · exact hs

theorem State.takeV1_keeps {s : State} {p : BackbonePort} (hs : Keeps b s0 s) :
    Keeps b s0 (State.takeV1 s p) := by
  unfold State.takeV1
  extract_lets -merge -underBinder x0 x1 x2
  have h3 : Keeps b s0 x0 := by
    refine State.count_keeps ?_
    exact hs
  clear_value x0
  have h4 : Keeps b s0 x1 := by
    refine State.withLine_keeps ?_
    exact h3
  clear_value x1
  have h5 : Keeps b s0 x2 := by
    refine State.refreshLineEnd_keeps ?_
    refine State.withForming_keeps ?_
    exact h4
  clear_value x2
  refine Keeps.ite ?_ ?_
  · refine State.trigger_keeps ?_
    refine State.withLine_keeps ?_
    exact h5
  · exact h5

theorem execV1FrameRx_keeps {p : BackbonePort} {s : State} (hs : Keeps b s0 s) :
    KeepsOut b s0 (execV1FrameRx p s) := by
  unfold execV1FrameRx
  refine Keeps.mk_out ?_
  refine Keeps.ite ?_ ?_
  · refine State.takeV1_keeps ?_
    exact hs
  · exact hs

theorem State.admitFrame_keeps {s : State} {info : FrameInfo} {hdr : TrayHeader} {raw : List Byte} {pass : State → Bool → State}
    (hs : Keeps b s0 s) (hpass : ∀ y0 y1, Keeps b s0 y0 → Keeps b s0 (pass y0 y1)) :
    KeepsFst b s0 (State.admitFrame s info hdr raw pass) := by
  unfold State.admitFrame
  extract_lets -merge -underBinder x0 x1 x2 x3
  try clear_value x0
  try clear_value x1
  have h4 : ∀ (y0 : State), Keeps b s0 y0 → Keeps b s0 (x2 y0) := by
    intro _ h5
    refine State.when_keeps ?_ ?_
    · exact h5
    · intro _ h6
      refine hpass _ _ ?_
      exact h6
  clear_value x2
  have h7 : Keeps b s0 x3 := by
    refine State.when_keeps ?_ ?_
    · exact hs
    · intro _ h8
      refine State.count_keeps ?_
      exact h8
  clear_value x3
  refine Keeps.ite_fst ?_ ?_
  · refine Keeps.mk_fst ?_
    exact hs
  · refine Keeps.ite_fst ?_ ?_
    · refine Keeps.mk_fst ?_
      refine State.takeV1_keeps ?_
      exact hs
    · refine Keeps.ite_fst ?_ ?_
      · refine Keeps.mk_fst ?_
        exact hs
      · refine Keeps.ite_fst ?_ ?_
        · refine Keeps.mk_fst ?_
          refine State.when_keeps ?_ ?_
          · refine State.raise_keeps ?_
            refine State.count_keeps ?_
            exact h7
          · intro _ h9
            refine State.emit_keeps ?_
            exact h9
        · refine Keeps.ite_fst ?_ ?_
          · refine Keeps.mk_fst ?_
            refine h4 _ ?_
            refine State.count_keeps ?_
            exact h7
          · refine Keeps.ite_fst ?_ ?_
            · refine Keeps.mk_fst ?_
              refine h4 _ ?_
              exact h7
            · refine Keeps.mk_fst ?_
              exact h7

theorem State.openMark_keeps {s : State} {l : Line} {h : TrayHeader} (hs : Keeps b s0 s) :
    Keeps b s0 (State.openMark s l h) := by
  unfold State.openMark
  refine State.when_keeps ?_ ?_
  · exact hs
  · intro _ h0
    refine State.withLine_keeps ?_
    exact h0

theorem State.passDamaged_keeps {s : State} {info : FrameInfo} {hdr : TrayHeader} {own : Bool}
    {mk : BackbonePort → TrayHeader → Bool → Sent} (hs : Keeps b s0 s) :
    Keeps b s0 (State.passDamaged s info hdr own mk) := by
  unfold State.passDamaged
  extract_lets -merge -underBinder x0 x1
  try clear_value x0
  have h2 : Keeps b s0 x1 := by
    refine State.openMark_keeps ?_
    exact hs
  clear_value x1
  refine Keeps.ite ?_ ?_
  · refine State.when_keeps ?_ ?_
    · exact hs
    · intro _ h3
      refine State.emit_keeps ?_
      exact h3
  · refine State.when_keeps ?_ ?_
    · exact h2
    · intro _ h4
      refine State.emit_keeps ?_
      exact h4

theorem State.takeOutward_keeps {s : State} {info : FrameInfo} {loops : Bool} (hs : Keeps b s0 s) :
    Keeps b s0 (State.takeOutward s info loops) := by
  unfold State.takeOutward
  extract_lets -merge -underBinder x0 x1
  try clear_value x0
  try clear_value x1
  refine Keeps.ite ?_ ?_
  · refine State.withLine_keeps ?_
    exact hs
  · refine State.withLine_keeps ?_
    exact hs

theorem State.takeReturn_keeps {s : State} {info : FrameInfo} (hs : Keeps b s0 s) :
    Keeps b s0 (State.takeReturn s info) := by
  unfold State.takeReturn
  refine State.withLine_keeps ?_
  exact hs

theorem State.takePortReturn_keeps {s : State} {info : FrameInfo} (hs : Keeps b s0 s) :
    Keeps b s0 (State.takePortReturn s info) := by
  unfold State.takePortReturn
  refine State.withLine_keeps ?_
  exact hs

theorem State.openCycle_keeps {s : State} (hs : Keeps b s0 s) :
    Keeps b s0 (State.openCycle s) := by
  unfold State.openCycle
  extract_lets -merge -underBinder x0 x1
  have h2 : Keeps b s0 x0 := by
    refine State.withTime_keeps ?_ ?_
    · exact hs
    · exact fun _ _ => rfl
  clear_value x0
  have h3 : Keeps b s0 x1 := by
    exact Keeps.congr h2 rfl rfl rfl rfl (fun _ => rfl)
  clear_value x1
  refine State.each_keeps ?_ ?_
  · exact h3
  · intro _ _ h4
    refine State.withLine_keeps ?_
    exact h4

theorem State.openTray_keeps {s : State} {l : Line} {n : ℕ} (hs : Keeps b s0 s) :
    Keeps b s0 (State.openTray s l n) := by
  unfold State.openTray
  extract_lets -merge -underBinder x0 x1 x2 x3 x4
  try clear_value x0
  try clear_value x3
  have h5 : Keeps b s0 x1 := by
    refine State.when_keeps ?_ ?_
    · exact hs
    · intro _ h6
      refine State.openCycle_keeps ?_
      exact h6
  clear_value x1
  have h7 : Keeps b s0 x2 := by
    refine State.withTime_keeps ?_ ?_
    · exact h5
    · exact fun _ _ => rfl
  clear_value x2
  have h8 : Keeps b s0 x4 := by
    exact Keeps.congr h7 rfl rfl rfl rfl (fun _ => rfl)
  clear_value x4
  refine Keeps.ite ?_ ?_
  · exact hs
  · refine State.withLine_keeps ?_
    exact h8

theorem State.sendForming_keeps {s : State} {kind : ℕ} {round : ℕ} {bytes : List Byte} (hs : Keeps b s0 s) :
    Keeps b s0 (State.sendForming s kind round bytes) := by
  unfold State.sendForming
  refine State.when_keeps ?_ ?_
  · exact hs
  · intro _ h0
    refine State.each_keeps ?_ ?_
    · exact h0
    · intro _ _ h1
      refine State.sendLink_keeps ?_
      exact h1

theorem State.sendDecision_keeps {s : State} (hs : Keeps b s0 s) :
    Keeps b s0 (State.sendDecision s) := by
  unfold State.sendDecision
  refine State.when_keeps ?_ ?_
  · exact hs
  · intro _ h0
    refine State.sendForming_keeps ?_
    exact h0

theorem State.follow_keeps {s : State} {l : Line} {a2 : FormingBlock} (hs : Keeps b s0 s) :
    Keeps b s0 (State.follow s l a2) := by
  unfold State.follow
  refine Keeps.ite ?_ ?_
  · refine Keeps.ite ?_ ?_
    · refine State.withForming_keeps ?_
      exact hs
    · exact hs
  · extract_lets -merge -underBinder x0
    try clear_value x0
    refine State.when_keeps ?_ ?_
    · refine State.followStarter_keeps ?_
      exact hs
    · intro _ h1
      refine State.sendDecision_keeps ?_
      exact h1

theorem State.dropCold_keeps {s : State} {l : Line} (hs : Keeps b s0 s) :
    Keeps b s0 (State.dropCold s l) := by
  unfold State.dropCold
  refine State.count_keeps ?_
  exact hs

theorem State.coldLost_keeps {s : State} {l : Line} (hs : Keeps b s0 s) :
    Keeps b s0 (State.coldLost s l) := by
  unfold State.coldLost
  refine State.withForming_keeps ?_
  refine State.raise_keeps ?_
  exact hs

theorem State.adoptFrom_keeps {s : State} {l : Line} {hdr : TrayHeader} {a3 : FormingBlock} {up : Bool} (hs : Keeps b s0 s) :
    Keeps b s0 (State.adoptFrom s l hdr a3 up) := by
  unfold State.adoptFrom
  split
  · exact hs
  · refine Keeps.ite ?_ ?_
    · exact hs
    · extract_lets -merge -underBinder x0 x1 x2 x3
      try clear_value x0
      try clear_value x2
      try clear_value x3
      have h4 : Keeps b s0 x1 := by
        refine State.withTime_keeps ?_ ?_
        · exact hs
        · exact fun _ _ => rfl
      clear_value x1
      refine Keeps.ite ?_ ?_
      · refine State.withForming_keeps ?_
        refine State.adoptTime_keeps ?_
        refine State.showAverage_keeps ?_
        exact h4
      · exact h4

theorem State.enterColdStart_keeps {s : State} {l : Line} (hs : Keeps b s0 s) :
    Keeps b s0 (State.enterColdStart s l) := by
  unfold State.enterColdStart
  extract_lets -merge -underBinder x0 x1
  have h2 : Keeps b s0 x0 := by
    refine State.withLine_keeps ?_
    refine State.setLine_keeps ?_
    exact hs
  clear_value x0
  have h3 : Keeps b s0 x1 := by
    refine State.when_keeps ?_ ?_
    · exact h2
    · intro _ h4
      refine State.setStarter_keeps ?_
      exact h4
  clear_value x1
  refine State.followStarter_keeps ?_
  exact h3

theorem State.leaveLone_keeps {s : State} (hs : Keeps b s0 s) :
    Keeps b s0 (State.leaveLone s) := by
  unfold State.leaveLone
  refine State.each_keeps ?_ ?_
  · exact hs
  · intro _ _ h0
    refine Keeps.ite ?_ ?_
    · refine State.enterColdStart_keeps ?_
      exact h0
    · exact h0

theorem execListenTimerExpiry_keeps {l : Line} {s : State} (hs : Keeps b s0 s) :
    KeepsOut b s0 (execListenTimerExpiry l s) := by
  unfold execListenTimerExpiry
  refine Keeps.mk_out ?_
  refine Keeps.ite ?_ ?_
  · refine State.enterColdStart_keeps ?_
    exact hs
  · exact hs

theorem State.sendColdStart_keeps {s : State} {l : Line} {a2 : Instant} {number : ℕ} (hs : Keeps b s0 s) :
    Keeps b s0 (State.sendColdStart s l a2 number) := by
  unfold State.sendColdStart
  extract_lets -merge -underBinder x0 x1 x2 x3 x4
  try clear_value x0
  have h5 : Keeps b s0 x1 := by
    refine State.when_keeps ?_ ?_
    · exact hs
    · intro _ h6
      refine State.enterLead_keeps ?_
      exact h6
  clear_value x1
  have h7 : Keeps b s0 x3 := by
    refine State.withLine_keeps ?_
    exact h5
  clear_value x3
  have h8 : Keeps b s0 x4 := by
    refine State.withTime_keeps ?_ ?_
    · exact h7
    · exact fun _ _ => rfl
  clear_value x4
  refine State.each_keeps ?_ ?_
  · exact h8
  · intro _ _ h9
    extract_lets -merge -underBinder x10 x11 x12 x13
    try clear_value x10
    try clear_value x12
    try clear_value x13
    have h14 : Keeps b s0 x11 := by
      refine State.withLine_keeps ?_
      exact h9
    clear_value x11
    refine State.originate_keeps ?_
    exact h14

theorem execColdStartTrayTx_keeps {l : Line} {a : Instant} {s : State} (hs : Keeps b s0 s) :
    KeepsOut b s0 (execColdStartTrayTx l a s) := by
  unfold execColdStartTrayTx
  refine Keeps.mk_out ?_
  refine Keeps.ite ?_ ?_
  · extract_lets -merge -underBinder x0
    try clear_value x0
    refine State.sendColdStart_keeps ?_
    refine State.withLine_keeps ?_
    exact hs
  · exact hs

theorem execLoneProbeExpiry_keeps {l : Line} {a : Instant} {s : State} (hs : Keeps b s0 s) :
    KeepsOut b s0 (execLoneProbeExpiry l a s) := by
  unfold execLoneProbeExpiry
  refine Keeps.mk_out ?_
  refine Keeps.ite ?_ ?_
  · refine State.sendColdStart_keeps ?_
    exact hs
  · exact hs

theorem State.giveWay_keeps {s : State} {l : Line} {a2 : FormingBlock} (hs : Keeps b s0 s) :
    Keeps b s0 (State.giveWay s l a2) := by
  unfold State.giveWay
  extract_lets -merge -underBinder x0 x1
  try clear_value x0
  have h2 : Keeps b s0 x1 := by
    refine State.setStarter_keeps ?_
    refine State.when_keeps ?_ ?_
    · exact hs
    · intro _ h3
      refine State.coldLost_keeps ?_
      exact h3
  clear_value x1
  refine State.each_keeps ?_ ?_
  · refine State.follow_keeps ?_
    exact h2
  · intro _ _ h4
    refine Keeps.ite ?_ ?_
    · refine State.enterIntegrate_keeps ?_
      exact h4
    · exact h4

theorem State.meetColdStart_keeps {s : State} {l : Line} {a2 : FormingBlock} (hs : Keeps b s0 s) :
    Keeps b s0 (State.meetColdStart s l a2) := by
  unfold State.meetColdStart
  extract_lets -merge -underBinder x0
  try clear_value x0
  refine Keeps.ite ?_ ?_
  · refine Keeps.ite ?_ ?_
    · refine State.enterIntegrate_keeps ?_
      refine State.follow_keeps ?_
      exact hs
    · refine State.cycleMismatch_keeps ?_
      exact hs
  · refine Keeps.ite ?_ ?_
    · exact hs
    · refine Keeps.ite ?_ ?_
      · refine Keeps.ite ?_ ?_
        · refine State.giveWay_keeps ?_
          exact hs
        · refine State.cycleMismatch_keeps ?_
          exact hs
      · refine Keeps.ite ?_ ?_
        · refine State.leaveLone_keeps ?_
          exact hs
        · exact hs

theorem State.coldStartRx_keeps {s : State} {info : FrameInfo} {hdr : TrayHeader} {a3 : FormingBlock} (hs : Keeps b s0 s) :
    Keeps b s0 (State.coldStartRx s info hdr a3) := by
  unfold State.coldStartRx
  extract_lets -merge -underBinder x0 x1
  try clear_value x0
  split
  · have h2 := Keeps.of_fst (b := b) (s := s0) ‹_ = (_, _)› (by
        refine State.admitFrame_keeps ?_ ?_
        · exact hs
        · intro _ _ h3
          refine State.emit_keeps ?_
          exact h3
      )
    refine Keeps.ite ?_ ?_
    · exact h2
    · refine Keeps.ite ?_ ?_
      · refine Keeps.ite ?_ ?_
        · exact h2
        · refine Keeps.ite ?_ ?_
          · refine State.dropCold_keeps ?_
            exact h2
          · refine State.passDamaged_keeps ?_
            exact h2
      · refine Keeps.ite ?_ ?_
        · extract_lets -merge -underBinder x4 x5 x6
          have h7 : Keeps b s0 x4 := by
            refine State.takeReturn_keeps ?_
            exact h2
          clear_value x4
          have h8 : Keeps b s0 x5 := by
            refine State.takePortReturn_keeps ?_
            exact h7
          clear_value x5
          have h9 : Keeps b s0 x6 := by
            refine State.when_keeps ?_ ?_
            · exact h7
            · intro _ h10
              refine State.emit_keeps ?_
              exact h10
          clear_value x6
          refine Keeps.ite ?_ ?_
          · refine State.when_keeps ?_ ?_
            · exact h8
            · intro _ h11
              refine State.withLine_keeps ?_
              exact h11
          · refine State.when_keeps ?_ ?_
            · exact h9
            · intro _ h12
              refine State.adoptFrom_keeps ?_
              exact h12
        · refine Keeps.ite ?_ ?_
          · exact h2
          · extract_lets -merge -underBinder x13 x14 x15 x16 x17 x18 x19 x20 x21 x22 x23
            try clear_value x13
            try clear_value x17
            try clear_value x19
            try clear_value x20
            try clear_value x21
            try clear_value x22
            have h24 : Keeps b s0 x14 := by
              refine State.noteKey_keeps ?_
              exact h2
            clear_value x14
            have h25 : Keeps b s0 x15 := by
              refine State.openTray_keeps ?_
              refine State.meetColdStart_keeps ?_
              exact h24
            clear_value x15
            have h26 : Keeps b s0 x16 := by
              refine State.when_keeps ?_ ?_
              · exact h25
              · intro _ h27
                refine State.withForming_keeps ?_
                exact h27
            clear_value x16
            have h28 : Keeps b s0 x18 := by
              refine State.takeOutward_keeps ?_
              exact h26
            clear_value x18
            have h29 : Keeps b s0 x23 := by
              refine State.when_keeps ?_ ?_
              · exact h28
              · intro _ h30
                refine State.emit_keeps ?_
                exact h30
            clear_value x23
            refine Keeps.ite ?_ ?_
            · refine State.dropCold_keeps ?_
              refine Keeps.ite ?_ ?_
              · refine State.leaveLone_keeps ?_
                exact h24
              · exact h24
            · refine State.when_keeps ?_ ?_
              · exact h29
              · intro _ h31
                refine State.adoptFrom_keeps ?_
                exact h31

theorem State.joinDiscovery_keeps {s : State} {l : Line} {a2 : FormingBlock} (hs : Keeps b s0 s) :
    Keeps b s0 (State.joinDiscovery s l a2) := by
  unfold State.joinDiscovery
  extract_lets -merge -underBinder x0 x1
  have h2 : Keeps b s0 x0 := by
    refine State.when_keeps ?_ ?_
    · exact hs
    · intro _ h3
      refine State.restartForming_keeps ?_
      exact h3
  clear_value x0
  have h4 : Keeps b s0 x1 := by
    refine State.follow_keeps ?_
    exact h2
  clear_value x1
  refine Keeps.ite ?_ ?_
  · exact h4
  · refine State.enterInaugurate_keeps ?_
    exact h4

theorem State.meetDiscovery_keeps {s : State} {l : Line} {a2 : FormingBlock} {round : ℕ} (hs : Keeps b s0 s) :
    Keeps b s0 (State.meetDiscovery s l a2 round) := by
  unfold State.meetDiscovery
  extract_lets -merge -underBinder x0 x1 x2
  try clear_value x1
  have h3 : Keeps b s0 x2 := by
    refine State.when_keeps ?_ ?_
    · exact hs
    · intro _ h4
      refine State.setStarter_keeps ?_
      refine State.coldLost_keeps ?_
      exact h4
  clear_value x2
  refine Keeps.ite ?_ ?_
  · refine Keeps.ite ?_ ?_
    · refine State.enterIntegrate_keeps ?_
      refine State.follow_keeps ?_
      exact hs
    · refine State.joinDiscovery_keeps ?_
      exact hs
  · refine Keeps.ite ?_ ?_
    · refine Keeps.ite ?_ ?_
      · refine State.giveWay_keeps ?_
        exact hs
      · exact hs
    · refine Keeps.ite ?_ ?_
      · refine Keeps.ite ?_ ?_
        · refine State.giveWay_keeps ?_
          exact hs
        · exact hs
      · refine State.joinDiscovery_keeps ?_
        exact h3

theorem State.learnEpoch_keeps {s : State} {l : Line} {hdr : TrayHeader} {a3 : FormingBlock} {fromStarter : Bool} (hs : Keeps b s0 s) :
    Keeps b s0 (State.learnEpoch s l hdr a3 fromStarter) := by
  unfold State.learnEpoch
  refine Keeps.ite ?_ ?_
  · exact hs
  · refine Keeps.ite ?_ ?_
    · refine State.withForming_keeps ?_
      exact hs
    · refine Keeps.ite ?_ ?_
      · exact hs
      · extract_lets -merge -underBinder x0
        try clear_value x0
        refine State.withForming_keeps ?_
        exact hs

theorem State.readInaug_keeps {s : State} {hdr : TrayHeader} (hs : Keeps b s0 s) :
    Keeps b s0 (State.readInaug s hdr) := by
  unfold State.readInaug
  extract_lets -merge -underBinder x0 x1
  try clear_value x1
  have h2 : Keeps b s0 x0 := by
    refine State.when_keeps ?_ ?_
    · exact hs
    · intro _ h3
      refine State.withForming_keeps ?_
      exact h3
  clear_value x0
  refine Keeps.ite ?_ ?_
  · refine State.scheduleSeek_keeps ?_
    exact h2
  · exact h2

theorem State.noteEnd1_keeps {s : State} {l : Line} {uid : Uid} (hs : Keeps b s0 s) :
    Keeps b s0 (State.noteEnd1 s l uid) := by
  unfold State.noteEnd1
  refine State.when_keeps ?_ ?_
  · exact hs
  · intro _ h0
    refine State.withForming_keeps ?_
    exact h0

theorem State.becomeEnd1_keeps {s : State} {l : Line} {d : Side} (hs : Keeps b s0 s) :
    Keeps b s0 (State.becomeEnd1 s l d) := by
  unfold State.becomeEnd1
  extract_lets -merge -underBinder x0
  have h1 : Keeps b s0 x0 := by
    refine State.noteEnd1_keeps ?_
    exact hs
  clear_value x0
  refine State.when_keeps ?_ ?_
  · exact h1
  · intro _ h2
    refine State.withForming_keeps ?_
    exact h2

theorem execSeekTrayTx_keeps {l : Line} {a : Instant} {s : State} (hs : Keeps b s0 s) :
    KeepsOut b s0 (execSeekTrayTx l a s) := by
  unfold execSeekTrayTx
  refine Keeps.mk_out ?_
  extract_lets -merge -underBinder x0 x1 x2 x3 x4 x5 x6 x7 x8 x9 x10 x11 x12
  try clear_value x0
  try clear_value x1
  try clear_value x2
  try clear_value x7
  try clear_value x8
  try clear_value x10
  try clear_value x11
  try clear_value x12
  have h13 : Keeps b s0 x3 := by
    refine Keeps.ite ?_ ?_
    · exact hs
    · refine State.enterInaugurate_keeps ?_
      exact hs
  clear_value x3
  have h14 : Keeps b s0 x4 := by
    refine State.withForming_keeps ?_
    exact h13
  clear_value x4
  have h15 : Keeps b s0 x5 := by
    refine State.openMark_keeps ?_
    exact h14
  clear_value x5
  have h16 : Keeps b s0 x6 := by
    refine State.withLine_keeps ?_
    exact h15
  clear_value x6
  have h17 : Keeps b s0 x9 := by
    refine State.withLine_keeps ?_
    exact h16
  clear_value x9
  refine Keeps.ite ?_ ?_
  · refine Keeps.ite ?_ ?_
    · refine State.originate_keeps ?_
      exact h17
    · refine State.becomeEnd1_keeps ?_
      exact h15
  · exact hs

theorem State.seekRx_keeps {s : State} {info : FrameInfo} {hdr : TrayHeader} {a3 : FormingBlock} {body : DiscBody} (hs : Keeps b s0 s) :
    Keeps b s0 (State.seekRx s info hdr a3 body) := by
  unfold State.seekRx
  extract_lets -merge -underBinder x0
  try clear_value x0
  split
  · have h1 := Keeps.of_fst (b := b) (s := s0) ‹_ = (_, _)› (by
        refine State.admitFrame_keeps ?_ ?_
        · exact hs
        · intro _ _ h2
          refine State.emit_keeps ?_
          exact h2
      )
    refine Keeps.ite ?_ ?_
    · exact h1
    · refine Keeps.ite ?_ ?_
      · refine Keeps.ite ?_ ?_
        · refine State.dropCold_keeps ?_
          exact h1
        · refine State.passDamaged_keeps ?_
          exact h1
      · extract_lets -merge -underBinder x3 x4 x5 x6 x7 x8 x9 x10 x11 x12 x13 x14 x15 x16
        try clear_value x7
        try clear_value x10
        try clear_value x12
        try clear_value x13
        try clear_value x14
        have h17 : Keeps b s0 x3 := by
          refine State.readInaug_keeps ?_
          exact h1
        clear_value x3
        have h18 : Keeps b s0 x4 := by
          refine State.noteEnd1_keeps ?_
          refine State.takeReturn_keeps ?_
          exact h17
        clear_value x4
        have h19 : Keeps b s0 x5 := by
          refine State.when_keeps ?_ ?_
          · exact h18
          · intro _ h20
            refine State.emit_keeps ?_
            exact h20
        clear_value x5
        have h21 : Keeps b s0 x6 := by
          refine State.noteKey_keeps ?_
          exact h17
        clear_value x6
        have h22 : Keeps b s0 x8 := by
          refine Keeps.ite ?_ ?_
          · refine State.meetDiscovery_keeps ?_
            exact h21
          · refine State.cycleMismatch_keeps ?_
            exact h21
        clear_value x8
        have h23 : Keeps b s0 x9 := by
          refine State.when_keeps ?_ ?_
          · exact h22
          · intro _ h24
            refine State.learnEpoch_keeps ?_
            refine State.withForming_keeps ?_
            refine Keeps.ite ?_ ?_
            · exact h24
            · refine State.restartForming_keeps ?_
              exact h24
        clear_value x9
        have h25 : Keeps b s0 x11 := by
          refine State.openMark_keeps ?_
          refine State.takeOutward_keeps ?_
          refine State.openTray_keeps ?_
          exact h23
        clear_value x11
        have h26 : Keeps b s0 x15 := by
          refine State.becomeEnd1_keeps ?_
          exact h25
        clear_value x15
        have h27 : Keeps b s0 x16 := by
          refine State.when_keeps ?_ ?_
          · exact h26
          · intro _ h28
            refine State.emit_keeps ?_
            exact h28
        clear_value x16
        refine Keeps.ite ?_ ?_
        · refine Keeps.ite ?_ ?_
          · refine State.takePortReturn_keeps ?_
            exact h18
          · refine State.when_keeps ?_ ?_
            · exact h19
            · intro _ h29
              refine State.adoptFrom_keeps ?_
              exact h29
        · refine Keeps.ite ?_ ?_
          · refine State.dropCold_keeps ?_
            refine State.noteKey_keeps ?_
            exact h17
          · refine Keeps.ite ?_ ?_
            · refine State.when_keeps ?_ ?_
              · exact h27
              · intro _ h30
                refine State.adoptFrom_keeps ?_
                exact h30
            · refine State.when_keeps ?_ ?_
              · exact h25
              · intro _ h31
                refine State.emit_keeps ?_
                exact h31

theorem State.sendRound_keeps {s : State} {l : Line} {a : Instant} {round : ℕ} {final : Bool} (hs : Keeps b s0 s) :
    Keeps b s0 (State.sendRound s l a round final) := by
  unfold State.sendRound
  extract_lets -merge -underBinder x0 x1 x2 x3 x4 x5 x6 x7 x8 x9 x10 x11
  try clear_value x1
  try clear_value x2
  try clear_value x4
  try clear_value x5
  try clear_value x8
  try clear_value x9
  try clear_value x10
  try clear_value x11
  have h12 : Keeps b s0 x0 := by
    refine State.withLine_keeps ?_
    exact hs
  clear_value x0
  have h13 : Keeps b s0 x3 := by
    refine State.withLine_keeps ?_
    exact h12
  clear_value x3
  have h14 : Keeps b s0 x6 := by
    refine State.withForming_keeps ?_
    exact h13
  clear_value x6
  have h15 : Keeps b s0 x7 := by
    refine State.openMark_keeps ?_
    exact h14
  clear_value x7
  refine Keeps.ite ?_ ?_
  · refine State.originate_keeps ?_
    exact h15
  · refine State.when_keeps ?_ ?_
    · exact h15
    · intro _ h16
      refine State.withForming_keeps ?_
      exact h16

theorem execCountTrayTx_keeps {l : Line} {a : Instant} {s : State} (hs : Keeps b s0 s) :
    KeepsOut b s0 (execCountTrayTx l a s) := by
  unfold execCountTrayTx
  refine Keeps.mk_out ?_
  refine Keeps.ite ?_ ?_
  · refine State.sendRound_keeps ?_
    exact hs
  · exact hs

theorem execConfirmTrayTx_keeps {l : Line} {a : Instant} {s : State} (hs : Keeps b s0 s) :
    KeepsOut b s0 (execConfirmTrayTx l a s) := by
  unfold execConfirmTrayTx
  refine Keeps.mk_out ?_
  refine Keeps.ite ?_ ?_
  · extract_lets -merge -underBinder x0
    have h1 : Keeps b s0 x0 := by
      refine Keeps.ite ?_ ?_
      · exact hs
      · refine State.withForming_keeps ?_
        exact hs
    clear_value x0
    refine State.sendRound_keeps ?_
    exact h1
  · exact hs

theorem State.readRound_keeps {s : State} {l : Line} {n : ℕ} {a3 : FormingBlock} {body : DiscBody} (hs : Keeps b s0 s) :
    Keeps b s0 (State.readRound s l n a3 body) := by
  unfold State.readRound
  extract_lets -merge -underBinder x0 x1
  have h2 : Keeps b s0 x1 := by
    refine State.withForming_keeps ?_
    exact hs
  clear_value x1
  refine State.sendForming_keeps ?_
  exact h2

theorem State.readFinal_keeps {s : State} {l : Line} {hdr : TrayHeader} {body : DiscBody} (hs : Keeps b s0 s) :
    Keeps b s0 (State.readFinal s l hdr body) := by
  unfold State.readFinal
  refine State.sendDecision_keeps ?_
  refine State.withForming_keeps ?_
  exact hs

theorem State.moveFirstData_keeps {s : State} (hs : Keeps b s0 s) :
    Keeps b s0 (State.moveFirstData s) := by
  unfold State.moveFirstData
  extract_lets -merge -underBinder x0 x1
  have h2 : Keeps b s0 x0 := by
    refine State.when_keeps ?_ ?_
    · exact hs
    · intro _ h3
      refine State.sendDecision_keeps ?_
      refine State.withForming_keeps ?_
      exact h3
  clear_value x0
  have h4 : Keeps b s0 x1 := by
    refine State.sendDecision_keeps ?_
    refine State.withForming_keeps ?_
    exact h2
  clear_value x1
  refine Keeps.ite ?_ ?_
  · refine State.each_keeps ?_ ?_
    · exact h4
    · intro _ _ h5
      refine Keeps.ite ?_ ?_
      · refine State.withLine_keeps ?_
        refine State.set_keeps ?_
        refine State.setLine_keeps ?_
        exact h5
      · exact h5
  · exact h2

theorem State.discoveryRx_keeps {s : State} {round : ℕ} {info : FrameInfo} {hdr : TrayHeader} {a4 : FormingBlock} {body : DiscBody}
    (hs : Keeps b s0 s) :
    Keeps b s0 (State.discoveryRx s round info hdr a4 body) := by
  unfold State.discoveryRx
  extract_lets -merge -underBinder x0
  try clear_value x0
  split
  · have h1 := Keeps.of_fst (b := b) (s := s0) ‹_ = (_, _)› (by
        refine State.admitFrame_keeps ?_ ?_
        · exact hs
        · intro _ _ h2
          refine State.emit_keeps ?_
          exact h2
      )
    refine Keeps.ite ?_ ?_
    · exact h1
    · refine Keeps.ite ?_ ?_
      · refine Keeps.ite ?_ ?_
        · refine State.dropCold_keeps ?_
          exact h1
        · refine State.passDamaged_keeps ?_
          exact h1
      · extract_lets -merge -underBinder x3 x4 x5 x6 x7 x8 x9 x10 x11 x12 x13 x14 x15 x16 x17 x18 x19 x20 x21 x22
        try clear_value x9
        try clear_value x10
        try clear_value x14
        try clear_value x15
        try clear_value x17
        try clear_value x18
        try clear_value x19
        try clear_value x21
        have h23 : Keeps b s0 x3 := by
          refine State.readInaug_keeps ?_
          exact h1
        clear_value x3
        have h24 : Keeps b s0 x4 := by
          refine State.when_keeps ?_ ?_
          · exact h23
          · intro _ h25
            refine State.moveFirstData_keeps ?_
            exact h25
        clear_value x4
        have h26 : ∀ (y0 : State) (y1 : DiscBody), Keeps b s0 y0 → Keeps b s0 (x5 y0 y1) := by
          intro _ _ h27
          refine Keeps.ite ?_ ?_
          · extract_lets -merge -underBinder x28
            have h29 : Keeps b s0 x28 := by
              refine Keeps.ite ?_ ?_
              · refine State.readFinal_keeps ?_
                exact h27
              · refine State.readRound_keeps ?_
                exact h27
            clear_value x28
            refine State.adoptFrom_keeps ?_
            exact h29
          · exact h27
        clear_value x5
        have h30 : Keeps b s0 x6 := by
          refine State.takeReturn_keeps ?_
          exact h24
        clear_value x6
        have h31 : Keeps b s0 x7 := by
          refine State.when_keeps ?_ ?_
          · exact h30
          · intro _ h32
            refine State.emit_keeps ?_
            exact h32
        clear_value x7
        have h33 : Keeps b s0 x8 := by
          refine State.withLine_keeps ?_
          refine State.noteKey_keeps ?_
          exact h24
        clear_value x8
        have h34 : Keeps b s0 x11 := by
          refine State.openMark_keeps ?_
          refine State.withForming_keeps ?_
          refine State.cycleMismatch_keeps ?_
          exact h33
        clear_value x11
        have h35 : Keeps b s0 x12 := by
          refine State.openTray_keeps ?_
          refine State.learnEpoch_keeps ?_
          refine State.meetDiscovery_keeps ?_
          exact h33
        clear_value x12
        have h36 : Keeps b s0 x13 := by
          refine State.openMark_keeps ?_
          refine State.takeOutward_keeps ?_
          exact h35
        clear_value x13
        have h37 : Keeps b s0 x16 := by
          refine State.withLine_keeps ?_
          exact h36
        clear_value x16
        have h38 : Keeps b s0 x20 := by
          refine State.withForming_keeps ?_
          exact h37
        clear_value x20
        have h39 : Keeps b s0 x22 := by
          refine State.when_keeps ?_ ?_
          · exact h38
          · intro _ h40
            refine State.emit_keeps ?_
            exact h40
        clear_value x22
        refine Keeps.ite ?_ ?_
        · refine h26 _ _ ?_
          exact h31
        · refine Keeps.ite ?_ ?_
          · refine State.dropCold_keeps ?_
            refine State.noteKey_keeps ?_
            exact h24
          · refine Keeps.ite ?_ ?_
            · refine State.when_keeps ?_ ?_
              · exact h34
              · intro _ h41
                refine State.emit_keeps ?_
                exact h41
            · refine Keeps.ite ?_ ?_
              · refine h26 _ _ ?_
                exact h39
              · exact h39

theorem State.checkCrossed_keeps {s : State} (hs : Keeps b s0 s) :
    Keeps b s0 (State.checkCrossed s) := by
  unfold State.checkCrossed
  extract_lets -merge -underBinder x0 x1 x2
  try clear_value x0
  try clear_value x1
  try clear_value x2
  refine Keeps.ite ?_ ?_
  · refine State.withLine_keeps ?_
    refine State.raise_keeps ?_
    exact hs
  · exact hs

theorem State.takeFinal_keeps {s : State} {list : List DiscRecord} (hs : Keeps b s0 s) :
    Keeps b s0 (State.takeFinal s list) := by
  unfold State.takeFinal
  extract_lets -merge -underBinder x0 x1 x2 x3 x4
  try clear_value x0
  try clear_value x1
  try clear_value x2
  try clear_value x3
  have h5 : Keeps b s0 x4 := by
    refine State.withForming_keeps ?_
    exact hs
  clear_value x4
  refine State.when_keeps ?_ ?_
  · exact h5
  · intro _ h6
    refine State.each_keeps ?_ ?_
    · exact h6
    · intro _ _ h7
      refine State.raise_keeps ?_
      exact h7

theorem State.drawTgk_keeps {s : State} (hs : Keeps b s0 s) :
    Keeps b s0 (State.drawTgk s) := by
  unfold State.drawTgk
  split
  · have h0 := Keeps.of_opt (b := b) (s := s0) ‹_ = some (_, _)› (by
        refine State.random_keeps ?_
        exact hs
      )
    refine State.withForming_keeps ?_
    refine State.showKeys_keeps ?_
    refine State.withSec_keeps ?_
    exact h0
  · exact hs

theorem State.sealEntry_keeps {s : State} {uid : Uid} {aad : List Byte} (hs : Keeps b s0 s) :
    KeepsOpt b s0 (State.sealEntry s uid aad) := by
  unfold State.sealEntry
  split
  · have h0 := Keeps.of_opt (b := b) (s := s0) ‹_ = some (_, _)› (by
        refine State.random_keeps ?_
        exact hs
      )
    extract_lets -merge -underBinder x1
    try clear_value x1
    split
    · refine Keeps.mk_opt ?_
      exact h0
  · exact Keeps.none_opt

theorem State.formingReturnEnd_keeps {s : State} (hs : Keeps b s0 s) :
    Keeps b s0 (State.formingReturnEnd s) := by
  unfold State.formingReturnEnd
  extract_lets -merge -underBinder x0 x1 x2 x3 x4 x5 x6 x7
  try clear_value x0
  try clear_value x1
  try clear_value x3
  try clear_value x5
  have h8 : Keeps b s0 x2 := by
    refine State.checkCrossed_keeps ?_
    refine State.withForming_keeps ?_
    exact hs
  clear_value x2
  have h9 : Keeps b s0 x4 := by
    refine State.takeFinal_keeps ?_
    exact h8
  clear_value x4
  have h10 : Keeps b s0 x6 := by
    refine State.when_keeps ?_ ?_
    · exact h9
    · intro _ h11
      refine State.drawTgk_keeps ?_
      exact h11
  clear_value x6
  have h12 : Keeps b s0 x7 := by
    refine State.sendDecision_keeps ?_
    exact h10
  clear_value x7
  refine Keeps.ite ?_ ?_
  · refine Keeps.ite ?_ ?_
    · exact h8
    · refine Keeps.ite ?_ ?_
      · split
        · have h13 := Keeps.of_opt (b := b) (s := s0) ‹_ = some (_, _)› (by
              refine State.sealEntry_keeps ?_
              exact h12
            )
          refine State.sendForming_keeps ?_
          exact h13
        · exact h12
      · exact h12
  · exact hs

theorem State.sendKeyFrames_keeps {s : State} {l : Line} {p : BackbonePort} {a : Instant} {block : FormingBlock} {body : KeyBody}
    (hs : Keeps b s0 s) :
    Keeps b s0 (State.sendKeyFrames s l p a block body) := by
  unfold State.sendKeyFrames
  extract_lets -merge -underBinder x0 x1
  try clear_value x0
  try clear_value x1
  show KeepsFst b s0 _
  refine Keeps.foldl_fst ?_ ?_
  · refine Keeps.mk_fst ?_
    exact hs
  · intro _ _ h2
    split
    · first
        | have h3 := Keeps.of_fst (b := b) (s := s0) rfl h2
        | have h3 := Keeps.of_fst (b := b) (s := s0) ‹_ = (_, _)› h2
      extract_lets -merge -underBinder x4 x5 x6 x7 x8
      try clear_value x4
      try clear_value x5
      try clear_value x6
      try clear_value x7
      try clear_value x8
      refine Keeps.mk_fst ?_
      refine State.originate_keeps ?_
      exact h3

theorem execKeyDistTrayTx_keeps {l : Line} {a : Instant} {s : State} (hs : Keeps b s0 s) :
    KeepsOut b s0 (execKeyDistTrayTx l a s) := by
  unfold execKeyDistTrayTx
  refine Keeps.mk_out ?_
  split
  · exact hs
  · extract_lets -merge -underBinder x0 x1 x2 x3 x4 x5 x6 x7 x8 x9
    try clear_value x0
    try clear_value x2
    try clear_value x3
    try clear_value x5
    try clear_value x6
    try clear_value x8
    try clear_value x9
    have h10 : Keeps b s0 x1 := by
      refine State.withForming_keeps ?_
      exact hs
    clear_value x1
    have h11 : Keeps b s0 x4 := by
      refine Keeps.ite ?_ ?_
      · exact hs
      · refine State.withForming_keeps ?_
        exact hs
    clear_value x4
    have h12 : Keeps b s0 x7 := by
      refine State.withLine_keeps ?_
      exact h11
    clear_value x7
    refine Keeps.ite ?_ ?_
    · exact hs
    · refine Keeps.ite ?_ ?_
      · refine State.sendRound_keeps ?_
        exact h10
      · refine Keeps.ite ?_ ?_
        · exact hs
        · split
          · have h13 := Keeps.of_snd (b := b) (s := s0) ‹_ = (_, _)› (by
                refine Keeps.ite_snd ?_ ?_
                · refine Keeps.foldl_snd ?_ ?_
                  · refine Keeps.mk_snd ?_
                    exact h12
                  · intro _ _ h14
                    split
                    · have h15 := Keeps.of_opt (b := b) (s := s0) ‹_ = some (_, _)› (by
                          refine State.sealEntry_keeps ?_
                          show KeepsSnd b s0 _
                          exact h14
                        )
                      refine Keeps.mk_snd ?_
                      exact h15
                    · exact h14
                · refine Keeps.mk_snd ?_
                  exact h12
              )
            extract_lets -merge -underBinder x16 x17 x18 x19 x20 x21 x22
            try clear_value x16
            try clear_value x17
            have h23 : Keeps b s0 x18 := by
              refine State.withForming_keeps ?_
              exact h13
            clear_value x18
            have h24 : Keeps b s0 x19 := by
              refine State.sendDecision_keeps ?_
              exact h23
            clear_value x19
            have h25 : Keeps b s0 x20 := by
              refine State.when_keeps ?_ ?_
              · exact h24
              · intro _ h26
                refine State.withSec_keeps ?_
                exact h26
            clear_value x20
            have h27 : Keeps b s0 x21 := by
              refine State.showKeys_keeps ?_
              exact h25
            clear_value x21
            have h28 : Keeps b s0 x22 := by
              refine State.openMark_keeps ?_
              exact h27
            clear_value x22
            refine Keeps.ite ?_ ?_
            · refine State.sendKeyFrames_keeps ?_
              exact h28
            · refine State.withForming_keeps ?_
              exact h28

theorem State.unwrapKey_keeps {s : State} {a1 : FormingBlock} {body : KeyBody} (hs : Keeps b s0 s) :
    Keeps b s0 (State.unwrapKey s a1 body) := by
  unfold State.unwrapKey
  extract_lets -merge -underBinder x0
  try clear_value x0
  split
  · refine Keeps.ite ?_ ?_
    · exact hs
    · split
      · refine Keeps.ite ?_ ?_
        · refine Keeps.ite ?_ ?_
          · exact hs
          · refine State.showKeys_keeps ?_
            refine State.withSec_keeps ?_
            exact hs
        · refine State.showKeys_keeps ?_
          refine State.withSec_keeps ?_
          exact hs
      · exact hs
  · exact hs

theorem State.noteKeyFrame_keeps {s : State} {l : Line} {hdr : TrayHeader} {a3 : FormingBlock} {body : KeyBody} (hs : Keeps b s0 s) :
    Keeps b s0 (State.noteKeyFrame s l hdr a3 body) := by
  unfold State.noteKeyFrame
  refine State.withForming_keeps ?_
  exact hs

theorem State.readKeyDist_keeps {s : State} {l : Line} {hdr : TrayHeader} {a3 : FormingBlock} {body : KeyBody} (hs : Keeps b s0 s) :
    Keeps b s0 (State.readKeyDist s l hdr a3 body) := by
  unfold State.readKeyDist
  extract_lets -merge -underBinder x0
  have h1 : Keeps b s0 x0 := by
    refine State.withForming_keeps ?_
    refine State.noteKeyFrame_keeps ?_
    exact hs
  clear_value x0
  split
  · exact h1
  · extract_lets -merge -underBinder x2
    have h3 : Keeps b s0 x2 := by
      refine State.when_keeps ?_ ?_
      · exact h1
      · intro _ h4
        refine State.withForming_keeps ?_
        exact h4
    clear_value x2
    split
    · extract_lets -merge -underBinder x5 x6 x7
      try clear_value x5
      have h8 : Keeps b s0 x6 := by
        refine State.withForming_keeps ?_
        exact h3
      clear_value x6
      have h9 : Keeps b s0 x7 := by
        refine State.sendDecision_keeps ?_
        refine State.withForming_keeps ?_
        exact h8
      clear_value x7
      refine Keeps.ite ?_ ?_
      · refine State.unwrapKey_keeps ?_
        exact h9
      · exact h9
    · exact h3

theorem State.keyDistRx_keeps {s : State} {info : FrameInfo} {hdr : TrayHeader} {a3 : FormingBlock} {body : KeyBody} (hs : Keeps b s0 s) :
    Keeps b s0 (State.keyDistRx s info hdr a3 body) := by
  unfold State.keyDistRx
  extract_lets -merge -underBinder x0 x1
  try clear_value x0
  split
  · have h2 := Keeps.of_fst (b := b) (s := s0) ‹_ = (_, _)› (by
        refine State.admitFrame_keeps ?_ ?_
        · exact hs
        · intro _ _ h3
          refine State.emit_keeps ?_
          exact h3
      )
    refine Keeps.ite ?_ ?_
    · exact h2
    · refine Keeps.ite ?_ ?_
      · refine State.passDamaged_keeps ?_
        refine State.when_keeps ?_ ?_
        · exact h2
        · intro _ h4
          refine State.moveFirstData_keeps ?_
          exact h4
      · extract_lets -merge -underBinder x5 x6 x7 x8 x9 x10 x11 x12 x13 x14 x15 x16
        try clear_value x9
        try clear_value x13
        try clear_value x14
        try clear_value x15
        have h17 : Keeps b s0 x5 := by
          refine State.when_keeps ?_ ?_
          · refine State.readInaug_keeps ?_
            exact h2
          · intro _ h18
            refine State.moveFirstData_keeps ?_
            exact h18
        clear_value x5
        have h19 : ∀ (y0 : State), Keeps b s0 y0 → Keeps b s0 (x6 y0) := by
          intro _ h20
          refine State.when_keeps ?_ ?_
          · exact h20
          · intro _ h21
            refine State.adoptFrom_keeps ?_
            exact h21
        clear_value x6
        have h22 : Keeps b s0 x7 := by
          refine State.when_keeps ?_ ?_
          · exact h17
          · intro _ h23
            refine State.takeReturn_keeps ?_
            exact h23
        clear_value x7
        have h24 : Keeps b s0 x8 := by
          refine State.when_keeps ?_ ?_
          · exact h22
          · intro _ h25
            refine State.emit_keeps ?_
            exact h25
        clear_value x8
        have h26 : Keeps b s0 x10 := by
          refine State.openTray_keeps ?_
          exact h17
        clear_value x10
        have h27 : Keeps b s0 x11 := by
          refine State.when_keeps ?_ ?_
          · exact h26
          · intro _ h28
            refine State.withLine_keeps ?_
            refine State.takeOutward_keeps ?_
            exact h28
        clear_value x11
        have h29 : Keeps b s0 x12 := by
          refine State.openMark_keeps ?_
          exact h27
        clear_value x12
        have h30 : Keeps b s0 x16 := by
          refine State.when_keeps ?_ ?_
          · exact h29
          · intro _ h31
            refine State.emit_keeps ?_
            exact h31
        clear_value x16
        refine Keeps.ite ?_ ?_
        · refine h19 _ ?_
          refine State.readKeyDist_keeps ?_
          exact h24
        · refine Keeps.ite ?_ ?_
          · refine h19 _ ?_
            refine State.readKeyDist_keeps ?_
            exact h30
          · exact h30

theorem execRelinkExpiry_keeps {s : State} (hs : Keeps b s0 s) :
    KeepsOut b s0 (execRelinkExpiry s) := by
  unfold execRelinkExpiry
  refine Keeps.mk_out ?_
  refine Keeps.ite ?_ ?_
  · extract_lets -merge -underBinder x0
    have h1 : Keeps b s0 x0 := by
      refine State.withForming_keeps ?_
      exact hs
    clear_value x0
    refine Keeps.ite ?_ ?_
    · refine State.each_keeps ?_ ?_
      · exact h1
      · intro _ _ h2
        refine Keeps.ite ?_ ?_
        · refine State.enterColdStart_keeps ?_
          exact h2
        · exact h2
    · exact h1
  · exact hs

theorem execInaugTrayTimeout_keeps {l : Line} {s : State} (hs : Keeps b s0 s) :
    KeepsOut b s0 (execInaugTrayTimeout l s) := by
  unfold execInaugTrayTimeout
  refine Keeps.mk_out ?_
  refine Keeps.ite ?_ ?_
  · extract_lets -merge -underBinder x0 x1
    try clear_value x0
    have h2 : Keeps b s0 x1 := by
      refine State.when_keeps ?_ ?_
      · exact hs
      · intro _ h3
        refine State.set_keeps ?_
        refine State.noPosition_keeps ?_
        exact h3
    clear_value x1
    refine State.enterListen_keeps ?_
    exact h2
  · exact hs

theorem execIntegrateTimeout_keeps {l : Line} {s : State} (hs : Keeps b s0 s) :
    KeepsOut b s0 (execIntegrateTimeout l s) := by
  unfold execIntegrateTimeout
  refine Keeps.mk_out ?_
  refine Keeps.ite ?_ ?_
  · refine State.enterListen_keeps ?_
    exact hs
  · exact hs

theorem execPassiveTmoExpiry_keeps {l : Line} {s : State} (hs : Keeps b s0 s) :
    KeepsOut b s0 (execPassiveTmoExpiry l s) := by
  unfold execPassiveTmoExpiry
  refine Keeps.mk_out ?_
  refine Keeps.ite ?_ ?_
  · refine State.enterListen_keeps ?_
    exact hs
  · exact hs

theorem execLineEnable_keeps {l : Line} {s : State} (hs : Keeps b s0 s) :
    KeepsOut b s0 (execLineEnable l s) := by
  unfold execLineEnable
  refine Keeps.mk_out ?_
  refine Keeps.ite ?_ ?_
  · refine State.writeLineEnable_keeps ?_
    exact hs
  · exact hs

theorem execLineDisable_keeps {l : Line} {s : State} (hs : Keeps b s0 s) :
    KeepsOut b s0 (execLineDisable l s) := by
  unfold execLineDisable
  refine Keeps.mk_out ?_
  refine Keeps.ite ?_ ?_
  · refine State.writeLineEnable_keeps ?_
    exact hs
  · exact hs

theorem State.setPresence_keeps {s : State} {lead : Line} {l : Line} {nodes : List DiscRecord} (hs : Keeps b s0 s) :
    Keeps b s0 (State.setPresence s lead l nodes) := by
  unfold State.setPresence
  extract_lets -merge -underBinder x0
  try clear_value x0
  refine State.set64_keeps ?_
  exact hs

theorem State.checkTrim_keeps {s : State} (hs : Keeps b s0 s) :
    Keeps b s0 (State.checkTrim s) := by
  unfold State.checkTrim
  extract_lets -merge -underBinder x0
  try clear_value x0
  refine State.when_keeps ?_ ?_
  · exact hs
  · intro _ h1
    refine State.each_keeps ?_ ?_
    · exact h1
    · intro _ _ h2
      refine State.raise_keeps ?_
      exact h2

theorem State.commitLayout_keeps {s : State} {y : Layout} {starter : Uid} {anew : Bool} (hs : Keeps b s0 s) :
    Keeps b s0 (State.commitLayout s y starter anew) := by
  unfold State.commitLayout
  extract_lets -merge -underBinder x0 x1 x2 x3 x4 x5 x6 x7
  try clear_value x0
  try clear_value x1
  try clear_value x2
  have h8 : Keeps b s0 x3 := by
    refine State.when_keeps ?_ ?_
    · exact hs
    · intro _ h9
      refine State.beginEpoch_keeps ?_
      exact h9
  clear_value x3
  have h10 : Keeps b s0 x4 := by
    refine State.withForming_keeps ?_
    exact h8
  clear_value x4
  have h11 : Keeps b s0 x5 := by
    refine State.each_keeps ?_ ?_
    · exact h10
    · intro _ _ h12
      refine State.withLine_keeps ?_
      exact h12
  clear_value x5
  have h13 : Keeps b s0 x6 := by
    refine State.withTime_keeps ?_ ?_
    · exact h11
    · exact fun _ _ => rfl
  clear_value x6
  have h14 : Keeps b s0 x7 := by
    refine State.each_keeps ?_ ?_
    · exact h13
    · intro _ _ h15
      refine State.loadGuard_keeps ?_
      refine State.showLayout_keeps ?_
      refine State.set_keeps ?_
      refine State.setFlag_keeps ?_
      refine State.set_keeps ?_
      refine State.set_keeps ?_
      refine State.set_keeps ?_
      exact h15
  clear_value x7
  refine State.checkTrim_keeps ?_
  exact h14

theorem State.enterLone_keeps {s : State} (hs : Keeps b s0 s) :
    Keeps b s0 (State.enterLone s) := by
  unfold State.enterLone
  extract_lets -merge -underBinder x0 x1 x2 x3 x4 x5 x6
  try clear_value x0
  try clear_value x1
  try clear_value x2
  have h7 : Keeps b s0 x3 := by
    refine State.commitLayout_keeps ?_
    exact hs
  clear_value x3
  have h8 : Keeps b s0 x4 := by
    refine State.when_keeps ?_ ?_
    · exact h7
    · intro _ h9
      refine State.enterLead_keeps ?_
      exact h9
  clear_value x4
  have h10 : Keeps b s0 x5 := by
    refine State.each_keeps ?_ ?_
    · exact h8
    · intro _ _ h11
      refine Keeps.ite ?_ ?_
      · refine State.set_keeps ?_
        refine State.set64_keeps ?_
        refine State.raise_keeps ?_
        refine State.setLine_keeps ?_
        exact h11
      · exact h11
  clear_value x5
  have h12 : Keeps b s0 x6 := by
    refine State.each_keeps ?_ ?_
    · exact h10
    · intro _ _ h13
      refine State.when_keeps ?_ ?_
      · exact h13
      · intro _ h14
        refine State.raise_keeps ?_
        exact h14
  clear_value x6
  refine Keeps.ite ?_ ?_
  · exact h10
  · split
    · have h15 := Keeps.of_opt (b := b) (s := s0) ‹_ = some (_, _)› (by
          refine State.random_keeps ?_
          exact h12
        )
      extract_lets -merge -underBinder x16
      try clear_value x16
      refine State.showKeys_keeps ?_
      refine State.set_keeps ?_
      refine State.set_keeps ?_
      refine State.withSec_keeps ?_
      exact h15
    · exact h12

theorem State.judgeColdStart_keeps {s : State} {l : Line} (hs : Keeps b s0 s) :
    Keeps b s0 (State.judgeColdStart s l) := by
  unfold State.judgeColdStart
  extract_lets -merge -underBinder x0 x1 x2
  try clear_value x0
  try clear_value x1
  have h3 : Keeps b s0 x2 := by
    refine State.each_keeps ?_ ?_
    · exact hs
    · intro _ _ h4
      refine Keeps.ite ?_ ?_
      · refine State.enterInaugurate_keeps ?_
        exact h4
      · exact h4
  clear_value x2
  refine Keeps.ite ?_ ?_
  · exact hs
  · refine Keeps.ite ?_ ?_
    · refine State.withForming_keeps ?_
      refine State.restartForming_keeps ?_
      exact h3
    · refine Keeps.ite ?_ ?_
      · refine State.enterLone_keeps ?_
        exact hs
      · refine State.withLine_keeps ?_
        exact hs

theorem State.changeLength_keeps {s : State} (hs : Keeps b s0 s) :
    Keeps b s0 (State.changeLength s) := by
  unfold State.changeLength
  refine Keeps.ite ?_ ?_
  · extract_lets -merge -underBinder x0
    try clear_value x0
    refine State.withTime_keeps ?_ ?_
    · exact hs
    · exact fun _ _ => rfl
  · refine Keeps.ite ?_ ?_
    · refine State.withTime_keeps ?_ ?_
      · exact hs
      · exact fun _ _ => rfl
    · exact hs

theorem State.changeMode_keeps {s : State} {fr : Bool} (hs : Keeps b s0 s) :
    Keeps b s0 (State.changeMode s fr) := by
  unfold State.changeMode
  extract_lets -merge -underBinder x0 x1
  try clear_value x0
  have h2 : Keeps b s0 x1 := by
    refine State.each_keeps ?_ ?_
    · exact hs
    · intro _ _ h3
      extract_lets -merge -underBinder x4 x5
      have h6 : Keeps b s0 x4 := by
        refine State.setFlag_keeps ?_
        exact h3
      clear_value x4
      have h7 : Keeps b s0 x5 := by
        refine State.when_keeps ?_ ?_
        · exact h6
        · intro _ h8
          refine State.set_keeps ?_
          refine State.raise_keeps ?_
          exact h8
      clear_value x5
      refine Keeps.ite ?_ ?_
      · exact h7
      · refine State.enterListen_keeps ?_
        exact h7
  clear_value x1
  refine State.withForming_keeps ?_
  refine State.restartForming_keeps ?_
  refine State.clearSliceKeys_keeps ?_
  exact h2

theorem State.takeNoPosition_keeps {s : State} {keyFail : Bool} (hs : Keeps b s0 s) :
    Keeps b s0 (State.takeNoPosition s keyFail) := by
  unfold State.takeNoPosition
  extract_lets -merge -underBinder x0 x1 x2
  try clear_value x0
  have h3 : Keeps b s0 x1 := by
    refine State.when_keeps ?_ ?_
    · exact hs
    · intro _ h4
      refine State.count_keeps ?_
      exact h4
  clear_value x1
  have h5 : Keeps b s0 x2 := by
    refine State.each_keeps ?_ ?_
    · exact h3
    · intro _ _ h6
      refine Keeps.ite ?_ ?_
      · refine State.set_keeps ?_
        refine State.enterListen_keeps ?_
        refine Keeps.ite ?_ ?_
        · exact h6
        · refine Keeps.ite ?_ ?_
          · refine State.cycleMismatch_keeps ?_
            exact h6
          · refine State.noPosition_keeps ?_
            exact h6
      · exact h6
  clear_value x2
  refine State.restartForming_keeps ?_
  exact h5

theorem State.commitKey_keeps {s : State} {epoch : BitVec 16} {again : Bool} (hs : Keeps b s0 s) :
    Keeps b s0 (State.commitKey s epoch again) := by
  unfold State.commitKey
  refine Keeps.ite ?_ ?_
  · exact hs
  · extract_lets -merge -underBinder x0
    have h1 : Keeps b s0 x0 := by
      refine State.takeEpochKey_keeps ?_
      exact hs
    clear_value x0
    refine State.when_keeps ?_ ?_
    · exact h1
    · intro _ h2
      refine State.raise_keeps ?_
      refine State.count_keeps ?_
      exact h2

theorem State.takeEpoch_keeps {s : State} (hs : Keeps b s0 s) :
    Keeps b s0 (State.takeEpoch s) := by
  unfold State.takeEpoch
  extract_lets -merge -underBinder x0 x1 x2 x3 x4 x5
  try clear_value x0
  try clear_value x1
  try clear_value x2
  try clear_value x3
  try clear_value x4
  try clear_value x5
  split
  · refine State.takeNoPosition_keeps ?_
    exact hs
  · extract_lets -merge -underBinder x6 x7 x8 x9 x10
    try clear_value x6
    have h11 : Keeps b s0 x7 := by
      refine State.commitLayout_keeps ?_
      exact hs
    clear_value x7
    have h12 : Keeps b s0 x8 := by
      refine State.when_keeps ?_ ?_
      · exact h11
      · intro _ h13
        refine State.setPresence_keeps ?_
        exact h13
    clear_value x8
    have h14 : Keeps b s0 x9 := by
      refine State.each_keeps ?_ ?_
      · exact h12
      · intro _ _ h15
        refine Keeps.ite ?_ ?_
        · extract_lets -merge -underBinder x16 x17 x18 x19 x20
          try clear_value x17
          have h21 : Keeps b s0 x16 := by
            refine State.setPresence_keeps ?_
            exact h15
          clear_value x16
          have h22 : Keeps b s0 x18 := by
            refine State.raise_keeps ?_
            refine State.setLine_keeps ?_
            exact h21
          clear_value x18
          have h23 : Keeps b s0 x19 := by
            refine State.set_keeps ?_
            exact h22
          clear_value x19
          have h24 : Keeps b s0 x20 := by
            refine State.withLine_keeps ?_
            exact h23
          clear_value x20
          refine State.refreshLineEnd_keeps ?_
          refine State.set_keeps ?_
          exact h24
        · exact h15
    clear_value x9
    have h25 : Keeps b s0 x10 := by
      refine State.withForming_keeps ?_
      exact h14
    clear_value x10
    refine Keeps.ite ?_ ?_
    · refine State.takeNoPosition_keeps ?_
      exact hs
    · refine Keeps.ite ?_ ?_
      · refine State.takeNoPosition_keeps ?_
        exact hs
      · refine Keeps.ite ?_ ?_
        · refine State.clearSliceKeys_keeps ?_
          exact h25
        · refine State.commitKey_keeps ?_
          exact h25

theorem State.tickForming_keeps {s : State} (hs : Keeps b s0 s) :
    Keeps b s0 (State.tickForming s) := by
  unfold State.tickForming
  extract_lets -merge -underBinder x0 x1 x2 x3
  have h4 : Keeps b s0 x0 := by
    refine State.when_keeps ?_ ?_
    · exact hs
    · intro _ h5
      refine State.restartForming_keeps ?_
      exact h5
  clear_value x0
  have h6 : Keeps b s0 x1 := by
    refine State.withForming_keeps ?_
    exact h4
  clear_value x1
  have h7 : Keeps b s0 x2 := by
    refine State.each_keeps ?_ ?_
    · exact h6
    · intro _ _ h8
      refine State.judgeColdStart_keeps ?_
      exact h8
  clear_value x2
  have h9 : Keeps b s0 x3 := by
    refine State.each_keeps ?_ ?_
    · exact h7
    · intro _ _ h10
      refine State.withLine_keeps ?_
      exact h10
  clear_value x3
  refine Keeps.ite ?_ ?_
  · refine State.changeMode_keeps ?_
    exact h9
  · refine Keeps.ite ?_ ?_
    · refine State.changeMode_keeps ?_
      exact h9
    · refine Keeps.ite ?_ ?_
      · refine State.takeEpoch_keeps ?_
        exact h9
      · exact h9

/-! Machine/Tray.lean. -/

theorem State.raiseWithdraw_keeps {s : State} {slot : ℕ} (hs : Keeps b s0 s) :
    Keeps b s0 (State.raiseWithdraw s slot) := by
  unfold State.raiseWithdraw
  refine Keeps.ite ?_ ?_
  · exact hs
  · extract_lets -merge -underBinder x0 x1 x2
    try clear_value x0
    have h3 : Keeps b s0 x1 := by
      exact Keeps.congr hs rfl rfl rfl rfl (fun _ => rfl)
    clear_value x1
    have h4 : Keeps b s0 x2 := by
      refine State.each_keeps ?_ ?_
      · exact h3
      · intro _ _ h5
        refine State.count_keeps ?_
        exact h5
    clear_value x2
    refine State.engineWithdraw_keeps ?_
    refine State.withdrawSlot_keeps ?_
    refine State.withdrawDrafts_keeps ?_
    exact h4

theorem State.takeCopy_keeps {s : State} {auth : Bool} {k : Copy} (hs : Keeps b s0 s) :
    Keeps b s0 (State.takeCopy s auth k) := by
  unfold State.takeCopy
  refine Keeps.ite ?_ ?_
  · exact hs
  · extract_lets -merge -underBinder x0 x1 x2 x3 x4 x5
    try clear_value x1
    try clear_value x2
    try clear_value x3
    try clear_value x5
    have h6 : Keeps b s0 x4 := by
      refine State.reselect_keeps ?_
      exact Keeps.congr hs rfl rfl rfl rfl (fun _ => rfl)
    clear_value x4
    refine State.when_keeps ?_ ?_
    · exact h6
    · intro _ h7
      refine State.raiseWithdraw_keeps ?_
      exact h7

theorem State.slotsMoved_keeps {s : State} {before : State} {slots : List ℕ} (hs : Keeps b s0 s) (hbefore : Keeps b s0 before) :
    Keeps b s0 (State.slotsMoved s before slots) := by
  unfold State.slotsMoved
  refine State.slotEvents_keeps ?_
  exact hs

theorem State.takeValue_keeps {s : State} {l : Line} {x : Slice} (hs : Keeps b s0 s) :
    Keeps b s0 (State.takeValue s l x) := by
  unfold State.takeValue
  extract_lets -merge -underBinder x0 x1 x2 x3
  try clear_value x0
  try clear_value x1
  try clear_value x2
  try clear_value x3
  refine Keeps.ite ?_ ?_
  · exact hs
  · refine State.withTime_keeps ?_ ?_
    · exact hs
    · exact fun _ _ => rfl

theorem State.readSlice_keeps {s : State} {l : Line} {auth : Bool} {fcs : Option Bool} {x : Slice} (hs : Keeps b s0 s) :
    Keeps b s0 (State.readSlice s l auth fcs x) := by
  unfold State.readSlice
  extract_lets -merge -underBinder x0
  try clear_value x0
  split
  · exact hs
  · extract_lets -merge -underBinder x1 x2 x3 x4 x5 x6 x7
    try clear_value x1
    try clear_value x2
    try clear_value x5
    have h8 : Keeps b s0 x3 := by
      refine State.when_keeps ?_ ?_
      · exact hs
      · intro _ h9
        refine State.raise_keeps ?_
        refine State.count_keeps ?_
        exact h9
    clear_value x3
    have h10 : Keeps b s0 x4 := by
      refine State.when_keeps ?_ ?_
      · exact h8
      · intro _ h11
        refine State.count_keeps ?_
        exact h11
    clear_value x4
    have h12 : Keeps b s0 x6 := by
      refine State.takeCopy_keeps ?_
      exact h10
    clear_value x6
    have h13 : Keeps b s0 x7 := by
      refine State.when_keeps ?_ ?_
      · exact h12
      · intro _ h14
        refine State.each_keeps ?_ ?_
        · exact h14
        · intro _ _ h15
          refine State.sendLink_keeps ?_
          exact h15
    clear_value x7
    refine Keeps.ite ?_ ?_
    · refine State.takeValue_keeps ?_
      exact h13
    · exact h13

theorem State.readPresence_keeps {s : State} {l : Line} {map : BitVec 64} (hs : Keeps b s0 s) :
    Keeps b s0 (State.readPresence s l map) := by
  unfold State.readPresence
  extract_lets -merge -underBinder x0
  try clear_value x0
  refine State.each_keeps ?_ ?_
  · exact hs
  · intro _ _ h1
    refine Keeps.ite ?_ ?_
    · refine State.withLine_keeps ?_
      refine State.set64_keeps ?_
      exact h1
    · extract_lets -merge -underBinder x2
      try clear_value x2
      refine State.withLine_keeps ?_
      exact h1

theorem execPositionAbsent_keeps {l : Line} {p : BitVec 6} {s : State} (hs : Keeps b s0 s) :
    KeepsOut b s0 (execPositionAbsent l p s) := by
  unfold execPositionAbsent
  refine Keeps.mk_out ?_
  refine Keeps.ite ?_ ?_
  · refine State.set64_keeps ?_
    exact hs
  · exact hs

theorem State.seeInaug_keeps {s : State} {l : Line} (hs : Keeps b s0 s) :
    Keeps b s0 (State.seeInaug s l) := by
  unfold State.seeInaug
  refine State.withLine_keeps ?_
  refine State.withForming_keeps ?_
  exact hs

theorem State.breakCopies_keeps {s : State} {l : Line} {f : DataFrame} (hs : Keeps b s0 s) :
    Keeps b s0 (State.breakCopies s l f) := by
  unfold State.breakCopies
  refine State.each_keeps ?_ ?_
  · exact hs
  · intro _ _ h0
    refine State.takeCopy_keeps ?_
    exact h0

theorem State.readReturn_keeps {s : State} {l : Line} {f : DataFrame} {fcs : Option Bool} (hs : Keeps b s0 s) :
    Keeps b s0 (State.readReturn s l f fcs) := by
  unfold State.readReturn
  extract_lets -merge -underBinder x0 x1 x2 x3 x4 x5 x6 x7 x8
  try clear_value x1
  try clear_value x2
  try clear_value x3
  have h9 : Keeps b s0 x0 := by
    exact hs
  clear_value x0
  have h10 : Keeps b s0 x4 := by
    refine State.when_keeps ?_ ?_
    · exact hs
    · intro _ h11
      refine State.withLine_keeps ?_
      refine State.seeInaug_keeps ?_
      exact h11
  clear_value x4
  have h12 : Keeps b s0 x5 := by
    refine State.when_keeps ?_ ?_
    · exact h10
    · intro _ h13
      refine State.withLine_keeps ?_
      refine State.readPresence_keeps ?_
      exact h13
  clear_value x5
  have h14 : Keeps b s0 x6 := by
    refine Keeps.ite ?_ ?_
    · refine State.when_keeps ?_ ?_
      · exact h12
      · intro _ h15
        refine State.breakCopies_keeps ?_
        exact h15
    · refine Keeps.ite ?_ ?_
      · exact h12
      · refine State.each_keeps ?_ ?_
        · exact h12
        · intro _ _ h16
          refine State.readSlice_keeps ?_
          exact h16
  clear_value x6
  have h17 : Keeps b s0 x7 := by
    refine State.slotsMoved_keeps ?_ ?_
    · exact h14
    · exact h9
  clear_value x7
  have h18 : Keeps b s0 x8 := by
    refine State.when_keeps ?_ ?_
    · exact h17
    · intro _ h19
      refine State.sendLink_keeps ?_
      exact h19
  clear_value x8
  refine Keeps.ite ?_ ?_
  · exact h17
  · refine State.withLine_keeps ?_
    exact h18

theorem State.claimOutward_keeps {s : State} {l : Line} {auth : Bool} {inaug : Bool} {slices : List Slice} (hs : Keeps b s0 s) :
    KeepsFst b s0 (State.claimOutward s l auth inaug slices) := by
  unfold State.claimOutward
  extract_lets -merge -underBinder x0 x1 x2 x3
  try clear_value x1
  try clear_value x2
  try clear_value x3
  have h4 : Keeps b s0 x0 := by
    refine State.withLine_keeps ?_
    exact hs
  clear_value x0
  refine Keeps.ite_fst ?_ ?_
  · refine Keeps.mk_fst ?_
    exact h4
  · split
    · extract_lets -merge -underBinder x5
      try clear_value x5
      split
      · refine Keeps.ite_fst ?_ ?_
        · refine Keeps.mk_fst ?_
          refine State.enterListen_keeps ?_
          refine State.noRoom_keeps ?_
          exact h4
        · extract_lets -merge -underBinder x6 x7 x8 x9 x10
          try clear_value x6
          have h11 : Keeps b s0 x7 := by
            refine State.when_keeps ?_ ?_
            · exact h4
            · intro _ h12
              refine State.raise_keeps ?_
              exact h12
          clear_value x7
          have h13 : Keeps b s0 x8 := by
            refine State.each_keeps ?_ ?_
            · exact h11
            · intro _ _ h14
              refine State.set_keeps ?_
              exact h14
          clear_value x8
          have h15 : Keeps b s0 x9 := by
            refine State.when_keeps ?_ ?_
            · exact h13
            · intro _ h16
              refine State.raise_keeps ?_
              exact h16
          clear_value x9
          have h17 : Keeps b s0 x10 := by
            refine State.each_keeps ?_ ?_
            · refine State.noteWritten_keeps ?_
              refine State.withForming_keeps ?_
              exact h15
            · intro _ _ h18
              refine State.loadGuard_keeps ?_
              exact h18
          clear_value x10
          refine Keeps.mk_fst ?_
          exact h17
      · refine Keeps.mk_fst ?_
        exact h4
    · split
      · refine Keeps.ite_fst ?_ ?_
        · refine Keeps.mk_fst ?_
          refine State.enterListen_keeps ?_
          refine State.noRoom_keeps ?_
          exact h4
        · extract_lets -merge -underBinder x19
          try clear_value x19
          refine Keeps.mk_fst ?_
          refine State.withLine_keeps ?_
          exact h4
      · refine Keeps.mk_fst ?_
        exact h4

theorem State.claimReturn_keeps {s : State} {l : Line} {slices : List Slice} (hs : Keeps b s0 s) :
    Keeps b s0 (State.claimReturn s l slices) := by
  unfold State.claimReturn
  split
  · refine Keeps.ite ?_ ?_
    · exact hs
    · refine Keeps.ite ?_ ?_
      · refine State.withLine_keeps ?_
        refine State.raise_keeps ?_
        refine State.count_keeps ?_
        exact hs
      · exact hs
  · exact hs

theorem execClaimWordExpiry_keeps {c : BitVec 4} {s : State} (hs : Keeps b s0 s) :
    KeepsOut b s0 (execClaimWordExpiry c s) := by
  unfold execClaimWordExpiry
  refine Keeps.mk_out ?_
  refine Keeps.ite ?_ ?_
  · refine State.withForming_keeps ?_
    exact hs
  · exact hs

theorem State.noteCrumbs_keeps {s : State} (hs : Keeps b s0 s) :
    Keeps b s0 (State.noteCrumbs s) := by
  unfold State.noteCrumbs
  extract_lets -merge -underBinder x0 x1 x2 x3
  try clear_value x2
  have h4 : Keeps b s0 x3 := by
    refine State.each_keeps ?_ ?_
    · exact hs
    · intro _ _ h5
      split
      · exact h5
      · refine State.withForming_keeps ?_
        exact h5
  clear_value x3
  refine State.rebuildMaps_keeps ?_
  exact h4

theorem State.missTray_keeps {s : State} {l : Line} {noTray : Bool} (hs : Keeps b s0 s) :
    Keeps b s0 (State.missTray s l noTray) := by
  unfold State.missTray
  extract_lets -merge -underBinder x0 x1 x2 x3 x4 x5
  try clear_value x0
  try clear_value x1
  try clear_value x4
  have h6 : Keeps b s0 x2 := by
    refine State.withLine_keeps ?_
    exact hs
  clear_value x2
  have h7 : Keeps b s0 x3 := by
    refine State.raise_keeps ?_
    refine State.count_keeps ?_
    exact h6
  clear_value x3
  have h8 : Keeps b s0 x5 := by
    refine State.set_keeps ?_
    exact h7
  clear_value x5
  refine Keeps.ite ?_ ?_
  · exact hs
  · refine Keeps.ite ?_ ?_
    · exact h6
    · refine State.when_keeps ?_ ?_
      · exact h8
      · intro _ h9
        refine State.withLine_keeps ?_
        exact h9

theorem execWindowMiss_keeps {l : Line} {s : State} (hs : Keeps b s0 s) :
    KeepsOut b s0 (execWindowMiss l s) := by
  unfold execWindowMiss
  refine Keeps.mk_out ?_
  refine Keeps.ite ?_ ?_
  · refine State.missTray_keeps ?_
    exact hs
  · exact hs

theorem execEnterPassive_keeps {l : Line} {s : State} (hs : Keeps b s0 s) :
    KeepsOut b s0 (execEnterPassive l s) := by
  unfold execEnterPassive
  refine Keeps.mk_out ?_
  refine Keeps.ite ?_ ?_
  · refine State.enterPassive_keeps ?_
    exact hs
  · exact hs

theorem State.judgeArrival_keeps {s : State} {l : Line} {arrived : Instant} {hop : ℕ} (hs : Keeps b s0 s) :
    Keeps b s0 (State.judgeArrival s l arrived hop) := by
  unfold State.judgeArrival
  extract_lets -merge -underBinder x0 x1 x2 x3
  try clear_value x0
  try clear_value x1
  try clear_value x2
  have h4 : Keeps b s0 x3 := by
    refine State.withLine_keeps ?_
    exact hs
  clear_value x3
  refine Keeps.ite ?_ ?_
  · refine Keeps.ite ?_ ?_
    · refine State.withLine_keeps ?_
      refine State.set_keeps ?_
      exact h4
    · refine Keeps.ite ?_ ?_
      · refine State.withLine_keeps ?_
        refine State.count_keeps ?_
        exact h4
      · refine State.missTray_keeps ?_
        exact h4
  · refine State.withLine_keeps ?_
    exact h4

theorem State.checkSpacing_keeps {s : State} {l : Line} {n : ℕ} {arrived : Instant} (hs : Keeps b s0 s) :
    Keeps b s0 (State.checkSpacing s l n arrived) := by
  unfold State.checkSpacing
  extract_lets -merge -underBinder x0
  try clear_value x0
  refine State.withLine_keeps ?_
  refine State.when_keeps ?_ ?_
  · exact hs
  · intro _ h1
    refine State.cycleMismatch_keeps ?_
    exact h1

theorem State.forwardData_keeps {s : State} {info : FrameInfo} {p : BackbonePort} {came : DataFrame} {f : DataFrame} (hs : Keeps b s0 s) :
    Keeps b s0 (State.forwardData s info p came f) := by
  unfold State.forwardData
  refine State.when_keeps ?_ ?_
  · exact hs
  · intro _ h0
    refine Keeps.ite ?_ ?_
    · refine State.emit_keeps ?_
      exact h0
    · refine Keeps.ite ?_ ?_
      · refine State.emit_keeps ?_
        exact h0
      · refine State.emit_keeps ?_
        exact h0

theorem State.breakTray_keeps {s : State} {l : Line} (hs : Keeps b s0 s) :
    Keeps b s0 (State.breakTray s l) := by
  unfold State.breakTray
  refine Keeps.ite ?_ ?_
  · exact hs
  · refine State.withLine_keeps ?_
    refine State.raise_keeps ?_
    refine State.count_keeps ?_
    exact hs

theorem State.breakStalled_keeps {s : State} {l : Line} (hs : Keeps b s0 s) :
    Keeps b s0 (State.breakStalled s l) := by
  unfold State.breakStalled
  extract_lets -merge -underBinder x0 x1 x2
  try clear_value x0
  try clear_value x1
  refine State.when_keeps ?_ ?_
  · exact hs
  · intro _ h3
    refine State.breakTray_keeps ?_
    exact h3

theorem State.checkUpstream_keeps {s : State} {l : Line} {f : DataFrame} (hs : Keeps b s0 s) :
    Keeps b s0 (State.checkUpstream s l f) := by
  unfold State.checkUpstream
  extract_lets -merge -underBinder x0
  try clear_value x0
  refine State.each_keeps ?_ ?_
  · exact hs
  · intro _ _ h1
    extract_lets -merge -underBinder x2 x3 x4
    try clear_value x2
    try clear_value x4
    have h5 : Keeps b s0 x3 := by
      refine State.when_keeps ?_ ?_
      · exact h1
      · intro _ h6
        refine State.withLine_keeps ?_
        exact h6
    clear_value x3
    refine Keeps.ite ?_ ?_
    · refine State.withLine_keeps ?_
      refine State.raise_keeps ?_
      refine State.count_keeps ?_
      exact h5
    · exact h5

theorem State.writeFrame_keeps {s : State} {l : Line} {f : DataFrame} (hs : Keeps b s0 s) :
    KeepsFst b s0 (State.writeFrame s l f) := by
  unfold State.writeFrame
  extract_lets -merge -underBinder x0 x1
  try clear_value x0
  try clear_value x1
  split
  · refine Keeps.ite_fst ?_ ?_
    · extract_lets -merge -underBinder x2
      try clear_value x2
      refine Keeps.mk_fst ?_
      refine State.noteWritten_keeps ?_
      exact hs
    · refine Keeps.mk_fst ?_
      exact hs
  · split
    · have h3 := Keeps.of_fst (b := b) (s := s0) ‹_ = (_, _)› (by
          refine State.claimOutward_keeps ?_
          exact hs
        )
      refine Keeps.mk_fst ?_
      exact h3

theorem State.markWithdrawn_keeps {s : State} {l : Line} {f : DataFrame} (hs : Keeps b s0 s) :
    KeepsFst b s0 (State.markWithdrawn s l f) := by
  unfold State.markWithdrawn
  extract_lets -merge -underBinder x0 x1
  try clear_value x0
  refine Keeps.mk_fst ?_
  refine State.countBy_keeps ?_
  exact hs

theorem State.meetDataTray_keeps {s : State} {l : Line} (hs : Keeps b s0 s) :
    Keeps b s0 (State.meetDataTray s l) := by
  unfold State.meetDataTray
  extract_lets -merge -underBinder x0 x1
  try clear_value x0
  have h2 : Keeps b s0 x1 := by
    refine State.when_keeps ?_ ?_
    · exact hs
    · intro _ h3
      refine State.coldLost_keeps ?_
      exact h3
  clear_value x1
  refine Keeps.ite ?_ ?_
  · exact hs
  · refine Keeps.ite ?_ ?_
    · refine State.each_keeps ?_ ?_
      · refine State.setStarter_keeps ?_
        exact h2
      · intro _ _ h4
        refine Keeps.ite ?_ ?_
        · refine State.enterListen_keeps ?_
          exact h4
        · exact h4
    · refine State.enterListen_keeps ?_
      exact h2

theorem State.yieldOrigin_keeps {s : State} {l : Line} {info : FrameInfo} {f : DataFrame} (hs : Keeps b s0 s) :
    Keeps b s0 (State.yieldOrigin s l info f) := by
  unfold State.yieldOrigin
  refine Keeps.ite ?_ ?_
  · extract_lets -merge -underBinder x0
    have h1 : Keeps b s0 x0 := by
      refine State.withLine_keeps ?_
      exact hs
    clear_value x0
    refine Keeps.ite ?_ ?_
    · refine State.withLine_keeps ?_
      refine State.count_keeps ?_
      exact h1
    · exact h1
  · refine State.when_keeps ?_ ?_
    · exact hs
    · intro _ h2
      refine State.withLine_keeps ?_
      exact h2

theorem State.learnLayout_keeps {s : State} {l : Line} {h : TrayHeader} {reverse : Bool} (hs : Keeps b s0 s) :
    Keeps b s0 (State.learnLayout s l h reverse) := by
  unfold State.learnLayout
  extract_lets -merge -underBinder x0 x1 x2 x3 x4 x5 x6 x7 x8 x9 x10 x11 x12
  try clear_value x0
  try clear_value x1
  try clear_value x2
  try clear_value x3
  try clear_value x5
  try clear_value x6
  try clear_value x7
  have h13 : Keeps b s0 x8 := by
    refine State.when_keeps ?_ ?_
    · exact hs
    · intro _ h14
      refine State.beginEpoch_keeps ?_
      exact h14
  clear_value x8
  have h15 : Keeps b s0 x9 := by
    refine State.when_keeps ?_ ?_
    · exact h13
    · intro _ h16
      refine State.withForming_keeps ?_
      exact h16
  clear_value x9
  have h17 : Keeps b s0 x10 := by
    refine State.each_keeps ?_ ?_
    · exact h15
    · intro _ _ h18
      refine State.set_keeps ?_
      refine State.showLayout_keeps ?_
      refine State.setFlag_keeps ?_
      refine State.set_keeps ?_
      exact h18
  clear_value x10
  have h19 : Keeps b s0 x11 := by
    refine State.rebuildMaps_keeps ?_
    exact h17
  clear_value x11
  have h20 : Keeps b s0 x12 := by
    refine State.when_keeps ?_ ?_
    · exact h19
    · intro _ h21
      refine State.each_keeps ?_ ?_
      · exact h21
      · intro _ _ h22
        refine State.loadGuard_keeps ?_
        exact h22
  clear_value x12
  refine Keeps.ite ?_ ?_
  · exact hs
  · refine Keeps.ite ?_ ?_
    · refine State.enterIntegrate_keeps ?_
      exact h20
    · refine Keeps.ite ?_ ?_
      · refine State.enterIntegrate_keeps ?_
        exact h20
      · refine State.noRoom_keeps ?_
        exact h20

theorem State.gatherSlices_keeps {s : State} {l : Line} {f : DataFrame} (hs : Keeps b s0 s) :
    Keeps b s0 (State.gatherSlices s l f) := by
  unfold State.gatherSlices
  refine State.withLine_keeps ?_
  exact hs

theorem State.listenReturn_keeps {s : State} {l : Line} {f : DataFrame} {good : Bool} {reverse : Bool} (hs : Keeps b s0 s) :
    Keeps b s0 (State.listenReturn s l f good reverse) := by
  unfold State.listenReturn
  extract_lets -merge -underBinder x0 x1 x2 x3
  try clear_value x0
  try clear_value x1
  try clear_value x2
  have h4 : Keeps b s0 x3 := by
    refine State.withLine_keeps ?_
    refine State.gatherSlices_keeps ?_
    exact hs
  clear_value x3
  refine Keeps.ite ?_ ?_
  · refine State.learnLayout_keeps ?_
    exact h4
  · exact h4

theorem State.readPass_keeps {s : State} {l : Line} {f : DataFrame} {fcs : Option Bool} (hs : Keeps b s0 s) :
    Keeps b s0 (State.readPass s l f fcs) := by
  unfold State.readPass
  extract_lets -merge -underBinder x0
  try clear_value x0
  refine Keeps.ite ?_ ?_
  · refine State.when_keeps ?_ ?_
    · exact hs
    · intro _ h1
      refine State.listenReturn_keeps ?_
      exact h1
  · refine Keeps.ite ?_ ?_
    · refine State.when_keeps ?_ ?_
      · refine State.readReturn_keeps ?_
        exact hs
      · intro _ h2
        refine State.claimReturn_keeps ?_
        exact h2
    · exact hs

theorem State.trayFrameRx_keeps {s : State} {info : FrameInfo} {frame : DataFrame} (hs : Keeps b s0 s) :
    Keeps b s0 (State.trayFrameRx s info frame) := by
  unfold State.trayFrameRx
  extract_lets -merge -underBinder x0
  try clear_value x0
  split
  · have h1 := Keeps.of_fst (b := b) (s := s0) ‹_ = (_, _)› (by
        refine State.admitFrame_keeps ?_ ?_
        · exact hs
        · intro _ _ h2
          refine State.emit_keeps ?_
          exact h2
      )
    refine Keeps.ite ?_ ?_
    · exact h1
    · extract_lets -merge -underBinder x3 x4 x5 x6 x7 x8 x9 x10 x11 x12 x13 x14 x15 x16 x17 x18 x19
      try clear_value x4
      try clear_value x5
      try clear_value x8
      try clear_value x10
      try clear_value x11
      try clear_value x18
      have h20 : Keeps b s0 x3 := by
        refine State.openTray_keeps ?_
        refine State.meetDataTray_keeps ?_
        exact h1
      clear_value x3
      have h21 : Keeps b s0 x6 := by
        refine State.withLine_keeps ?_
        refine State.when_keeps ?_ ?_
        · exact h20
        · intro _ h22
          refine State.seeInaug_keeps ?_
          exact h22
      clear_value x6
      have h23 : Keeps b s0 x7 := by
        refine State.when_keeps ?_ ?_
        · exact h21
        · intro _ h24
          refine State.set_keeps ?_
          exact h24
      clear_value x7
      have h25 : Keeps b s0 x9 := by
        refine State.when_keeps ?_ ?_
        · exact h23
        · intro _ h26
          refine State.yieldOrigin_keeps ?_
          exact h26
      clear_value x9
      have h27 : Keeps b s0 x12 := by
        refine State.when_keeps ?_ ?_
        · exact h25
        · intro _ h28
          refine State.count_keeps ?_
          exact h28
      clear_value x12
      have h29 : Keeps b s0 x13 := by
        refine State.when_keeps ?_ ?_
        · exact h27
        · intro _ h30
          refine State.breakTray_keeps ?_
          exact h30
      clear_value x13
      have h31 : Keeps b s0 x14 := by
        refine State.when_keeps ?_ ?_
        · exact h29
        · intro _ h32
          refine State.takeOutward_keeps ?_
          exact h32
      clear_value x14
      have h33 : Keeps b s0 x15 := by
        refine State.when_keeps ?_ ?_
        · exact h31
        · intro _ h34
          refine Keeps.ite ?_ ?_
          · refine State.judgeArrival_keeps ?_
            refine State.when_keeps ?_ ?_
            · exact h34
            · intro _ h35
              refine State.checkSpacing_keeps ?_
              exact h35
          · refine State.missTray_keeps ?_
            exact h34
      clear_value x15
      have h36 : Keeps b s0 x16 := by
        refine State.withLine_keeps ?_
        exact h33
      clear_value x16
      have h37 : Keeps b s0 x17 := by
        refine State.openMark_keeps ?_
        exact h36
      clear_value x17
      have h38 : Keeps b s0 x19 := by
        refine State.when_keeps ?_ ?_
        · exact h37
        · intro _ h39
          refine State.checkUpstream_keeps ?_
          exact h39
      clear_value x19
      refine Keeps.ite ?_ ?_
      · refine State.yieldOrigin_keeps ?_
        exact h23
      · split
        · have h40 := Keeps.of_fst (b := b) (s := s0) ‹_ = (_, _)› (by
              refine Keeps.ite_fst ?_ ?_
              · refine State.writeFrame_keeps ?_
                exact h38
              · refine Keeps.mk_fst ?_
                exact h38
            )
          extract_lets -merge -underBinder x41 x42
          try clear_value x41
          try clear_value x42
          split
          · have h43 := Keeps.of_fst (b := b) (s := s0) ‹_ = (_, _)› (by
                refine Keeps.ite_fst ?_ ?_
                · refine State.markWithdrawn_keeps ?_
                  exact h40
                · refine Keeps.mk_fst ?_
                  exact h40
              )
            extract_lets -merge -underBinder x44 x45
            try clear_value x45
            have h46 : Keeps b s0 x44 := by
              refine State.forwardData_keeps ?_
              exact h43
            clear_value x44
            refine Keeps.ite ?_ ?_
            · refine State.readPass_keeps ?_
              exact h46
            · exact h46

theorem State.returnFrameRx_keeps {s : State} {info : FrameInfo} {frame : DataFrame} {fcs : Option Bool} (hs : Keeps b s0 s) :
    Keeps b s0 (State.returnFrameRx s info frame fcs) := by
  unfold State.returnFrameRx
  extract_lets -merge -underBinder x0 x1 x2 x3
  try clear_value x0
  try clear_value x1
  try clear_value x2
  try clear_value x3
  split
  · have h4 := Keeps.of_fst (b := b) (s := s0) ‹_ = (_, _)› (by
        refine State.admitFrame_keeps ?_ ?_
        · exact hs
        · intro _ _ h5
          refine State.emit_keeps ?_
          exact h5
      )
    extract_lets -merge -underBinder x6 x7 x8 x9 x10 x11 x12 x13 x14
    try clear_value x7
    try clear_value x9
    try clear_value x12
    try clear_value x13
    try clear_value x14
    have h15 : Keeps b s0 x6 := by
      refine Keeps.ite ?_ ?_
      · exact h4
      · exact hs
    clear_value x6
    have h16 : Keeps b s0 x8 := by
      refine State.openTray_keeps ?_
      exact h15
    clear_value x8
    have h17 : Keeps b s0 x10 := by
      refine State.when_keeps ?_ ?_
      · exact h16
      · intro _ h18
        refine State.takeReturn_keeps ?_
        exact h18
    clear_value x10
    have h19 : Keeps b s0 x11 := by
      refine State.when_keeps ?_ ?_
      · exact h17
      · intro _ h20
        refine State.breakTray_keeps ?_
        exact h20
    clear_value x11
    refine Keeps.ite ?_ ?_
    · exact h15
    · split
      · have h21 := Keeps.of_fst (b := b) (s := s0) ‹_ = (_, _)› (by
            refine Keeps.ite_fst ?_ ?_
            · refine State.markWithdrawn_keeps ?_
              exact h19
            · refine Keeps.mk_fst ?_
              exact h19
          )
        extract_lets -merge -underBinder x22 x23
        try clear_value x22
        have h24 : Keeps b s0 x23 := by
          refine State.when_keeps ?_ ?_
          · exact h21
          · intro _ h25
            refine State.forwardData_keeps ?_
            exact h25
        clear_value x23
        refine Keeps.ite ?_ ?_
        · exact h24
        · refine State.readPass_keeps ?_
          exact h24

theorem State.sendFrames_keeps {s : State} {l : Line} {p : BackbonePort} {y : Layout} {a : Instant} {reverse : Bool} (hs : Keeps b s0 s) :
    Keeps b s0 (State.sendFrames s l p y a reverse) := by
  unfold State.sendFrames
  extract_lets -merge -underBinder x0 x1
  try clear_value x0
  try clear_value x1
  show KeepsFst b s0 _
  refine Keeps.foldl_fst ?_ ?_
  · refine Keeps.mk_fst ?_
    exact hs
  · intro _ _ h2
    split
    · first
        | have h3 := Keeps.of_fst (b := b) (s := s0) rfl h2
        | have h3 := Keeps.of_fst (b := b) (s := s0) ‹_ = (_, _)› h2
      extract_lets -merge -underBinder x4 x5
      try clear_value x4
      try clear_value x5
      refine Keeps.mk_fst ?_
      refine State.originate_keeps ?_
      exact h3

theorem execDataTrayTx_keeps {l : Line} {a : Instant} {s : State} (hs : Keeps b s0 s) :
    KeepsOut b s0 (execDataTrayTx l a s) := by
  unfold execDataTrayTx
  refine Keeps.mk_out ?_
  split
  · exact hs
  · refine Keeps.ite ?_ ?_
    · exact hs
    · extract_lets -merge -underBinder x0 x1 x2 x3 x4 x5 x6 x7 x8 x9 x10 x11 x12
      try clear_value x0
      try clear_value x1
      try clear_value x3
      try clear_value x4
      try clear_value x5
      try clear_value x8
      have h13 : Keeps b s0 x6 := by
        refine State.withLine_keeps ?_
        exact hs
      clear_value x6
      have h14 : Keeps b s0 x7 := by
        refine State.openMark_keeps ?_
        exact h13
      clear_value x7
      have h15 : Keeps b s0 x9 := by
        refine Keeps.ite ?_ ?_
        · refine State.sendFrames_keeps ?_
          exact h14
        · exact h14
      clear_value x9
      have h16 : Keeps b s0 x10 := by
        refine Keeps.ite ?_ ?_
        · refine State.sendFrames_keeps ?_
          exact h15
        · exact h15
      clear_value x10
      have h17 : Keeps b s0 x11 := by
        refine State.withLine_keeps ?_
        exact h16
      clear_value x11
      have h18 : Keeps b s0 x12 := by
        refine Keeps.ite ?_ ?_
        · exact h16
        · refine State.each_keeps ?_ ?_
          · exact h17
          · intro _ _ h19
            refine State.readReturn_keeps ?_
            exact h19
      clear_value x12
      refine Keeps.ite ?_ ?_
      · refine State.withLine_keeps ?_
        exact hs
      · refine Keeps.ite ?_ ?_
        · refine State.noteWritten_keeps ?_
          exact h18
        · exact h18

theorem State.takeReverseValue_keeps {s : State} {l : Line} {f : DataFrame} {fcs : Bool} (hs : Keeps b s0 s) :
    Keeps b s0 (State.takeReverseValue s l f fcs) := by
  unfold State.takeReverseValue
  extract_lets -merge -underBinder x0
  try clear_value x0
  split
  · refine Keeps.ite ?_ ?_
    · extract_lets -merge -underBinder x1 x2
      try clear_value x1
      try clear_value x2
      refine State.withTime_keeps ?_ ?_
      · exact hs
      · exact fun _ _ => rfl
    · exact hs
  · exact hs

theorem State.passReverse_keeps {s : State} {info : FrameInfo} {frame : DataFrame} (hs : Keeps b s0 s) :
    Keeps b s0 (State.passReverse s info frame) := by
  unfold State.passReverse
  extract_lets -merge -underBinder x0 x1 x2 x3 x4 x5 x6 x7 x8 x9 x10 x11 x12 x13 x14 x15 x16 x17 x18 x19
  try clear_value x0
  try clear_value x1
  try clear_value x2
  try clear_value x3
  try clear_value x5
  try clear_value x7
  try clear_value x9
  try clear_value x10
  try clear_value x13
  try clear_value x17
  try clear_value x18
  have h20 : Keeps b s0 x4 := by
    refine State.withLine_keeps ?_
    refine State.meetDataTray_keeps ?_
    exact hs
  clear_value x4
  have h21 : Keeps b s0 x6 := by
    refine State.when_keeps ?_ ?_
    · exact h20
    · intro _ h22
      refine State.missTray_keeps ?_
      refine State.count_keeps ?_
      exact h22
  clear_value x6
  have h23 : Keeps b s0 x8 := by
    refine State.when_keeps ?_ ?_
    · exact h21
    · intro _ h24
      refine State.breakTray_keeps ?_
      exact h24
  clear_value x8
  have h25 : ∀ (y0 : State), Keeps b s0 y0 → Keeps b s0 (x11 y0) := by
    intro _ h26
    refine Keeps.ite ?_ ?_
    · exact h26
    · extract_lets -merge -underBinder x27
      have h28 : Keeps b s0 x27 := by
        refine State.when_keeps ?_ ?_
        · exact h26
        · intro _ h29
          refine State.withLine_keeps ?_
          refine State.takeReverseValue_keeps ?_
          exact h29
      clear_value x27
      refine Keeps.ite ?_ ?_
      · refine State.listenReturn_keeps ?_
        exact h28
      · refine State.withLine_keeps ?_
        exact h28
  clear_value x11
  have h30 : Keeps b s0 x12 := by
    refine State.when_keeps ?_ ?_
    · exact h23
    · intro _ h31
      refine State.withLine_keeps ?_
      exact h31
  clear_value x12
  have h32 : Keeps b s0 x14 := by
    refine State.when_keeps ?_ ?_
    · exact h23
    · intro _ h33
      refine Keeps.ite ?_ ?_
      · extract_lets -merge -underBinder x34
        try clear_value x34
        refine State.withLine_keeps ?_
        exact h33
      · refine State.withLine_keeps ?_
        exact h33
  clear_value x14
  have h35 : Keeps b s0 x15 := by
    refine State.when_keeps ?_ ?_
    · exact h32
    · intro _ h36
      refine Keeps.ite ?_ ?_
      · refine State.judgeArrival_keeps ?_
        refine State.checkSpacing_keeps ?_
        exact h36
      · refine State.when_keeps ?_ ?_
        · exact h36
        · intro _ h37
          refine State.judgeArrival_keeps ?_
          exact h37
  clear_value x15
  have h38 : Keeps b s0 x16 := by
    refine State.openMark_keeps ?_
    refine State.withLine_keeps ?_
    exact h35
  clear_value x16
  have h39 : Keeps b s0 x19 := by
    refine State.forwardData_keeps ?_
    exact h38
  clear_value x19
  refine Keeps.ite ?_ ?_
  · refine h25 _ ?_
    refine State.when_keeps ?_ ?_
    · exact h30
    · intro _ h40
      refine State.forwardData_keeps ?_
      exact h40
  · refine Keeps.ite ?_ ?_
    · refine h25 _ ?_
      exact h39
    · exact h39

theorem State.reverseCopyRx_keeps {s : State} {info : FrameInfo} {frame : DataFrame} (hs : Keeps b s0 s) :
    Keeps b s0 (State.reverseCopyRx s info frame) := by
  unfold State.reverseCopyRx
  extract_lets -merge -underBinder x0
  try clear_value x0
  split
  · have h1 := Keeps.of_fst (b := b) (s := s0) ‹_ = (_, _)› (by
        refine State.admitFrame_keeps ?_ ?_
        · exact hs
        · intro _ _ h2
          refine State.emit_keeps ?_
          exact h2
      )
    refine Keeps.ite ?_ ?_
    · exact h1
    · refine Keeps.ite ?_ ?_
      · refine State.when_keeps ?_ ?_
        · exact h1
        · intro _ h3
          refine State.withLine_keeps ?_
          exact h3
      · extract_lets -merge -underBinder x4
        have h5 : Keeps b s0 x4 := by
          refine State.openTray_keeps ?_
          exact h1
        clear_value x4
        refine Keeps.ite ?_ ?_
        · exact h5
        · refine State.passReverse_keeps ?_
          exact h5

theorem State.missPositions_keeps {s : State} {l : Line} (hs : Keeps b s0 s) :
    Keeps b s0 (State.missPositions s l) := by
  unfold State.missPositions
  extract_lets -merge -underBinder x0 x1 x2
  try clear_value x0
  try clear_value x1
  refine State.withLine_keeps ?_
  exact hs

theorem State.finalise_keeps {s : State} (hs : Keeps b s0 s) :
    Keeps b s0 (State.finalise s) := by
  unfold State.finalise
  extract_lets -merge -underBinder x0 x1 x2 x3 x4 x5 x6 x7 x8 x9 x10 x11
  try clear_value x0
  try clear_value x1
  try clear_value x4
  try clear_value x9
  try clear_value x11
  have h12 : Keeps b s0 x2 := by
    refine State.each_keeps ?_ ?_
    · exact hs
    · intro _ _ h13
      refine State.breakStalled_keeps ?_
      exact h13
  clear_value x2
  have h14 : Keeps b s0 x3 := by
    refine State.each_keeps ?_ ?_
    · exact h12
    · intro _ _ h15
      refine State.takeCopy_keeps ?_
      exact h15
  clear_value x3
  have h16 : Keeps b s0 x5 := by
    exact Keeps.congr h14 rfl rfl rfl rfl (fun _ => rfl)
  clear_value x5
  have h17 : Keeps b s0 x6 := by
    refine State.each_keeps ?_ ?_
    · exact h16
    · intro _ _ h18
      refine State.when_keeps ?_ ?_
      · exact h18
      · intro _ h19
        refine State.reselect_keeps ?_
        exact h19
  clear_value x6
  have h20 : Keeps b s0 x8 := by
    refine State.when_keeps ?_ ?_
    · exact h17
    · intro _ h21
      refine State.missPositions_keeps ?_
      exact h21
  clear_value x8
  have h22 : Keeps b s0 x10 := by
    exact Keeps.congr h20 rfl rfl rfl rfl (fun _ => rfl)
  clear_value x10
  refine State.each_keeps ?_ ?_
  · exact h22
  · intro _ _ h23
    extract_lets -merge -underBinder x24 x25
    try clear_value x24
    have h26 : Keeps b s0 x25 := by
      refine State.when_keeps ?_ ?_
      · exact h23
      · intro _ h27
        refine State.raiseWithdraw_keeps ?_
        exact h27
    clear_value x25
    refine State.each_keeps ?_ ?_
    · exact h26
    · intro _ _ h28
      refine Keeps.ite ?_ ?_
      · refine State.raise_keeps ?_
        refine State.count_keeps ?_
        exact h28
      · refine Keeps.ite ?_ ?_
        · refine State.count_keeps ?_
          exact h28
        · exact h28

theorem State.learnInaug_keeps {s : State} (hs : Keeps b s0 s) :
    Keeps b s0 (State.learnInaug s) := by
  unfold State.learnInaug
  refine Keeps.ite ?_ ?_
  · extract_lets -merge -underBinder x0
    have h1 : Keeps b s0 x0 := by
      refine State.withForming_keeps ?_
      exact hs
    clear_value x0
    refine State.when_keeps ?_ ?_
    · exact h1
    · intro _ h2
      refine State.scheduleSeek_keeps ?_
      exact h2
  · exact hs

theorem State.adoptAtReturnEnd_keeps {s : State} (hs : Keeps b s0 s) :
    Keeps b s0 (State.adoptAtReturnEnd s) := by
  unfold State.adoptAtReturnEnd
  split
  · refine State.adoptTime_keeps ?_
    refine State.showAverage_keeps ?_
    exact hs
  · exact hs

theorem State.correctAtReturnEnd_keeps {s : State} (hs : Keeps b s0 s) :
    Keeps b s0 (State.correctAtReturnEnd s) := by
  unfold State.correctAtReturnEnd
  refine Keeps.ite ?_ ?_
  · exact hs
  · extract_lets -merge -underBinder x0
    have h1 : Keeps b s0 x0 := by
      refine State.showExtValid_keeps ?_
      exact hs
    clear_value x0
    refine Keeps.ite ?_ ?_
    · refine State.adoptAtReturnEnd_keeps ?_
      exact h1
    · refine State.averageAtReturnEnd_keeps ?_
      exact h1

theorem State.lateTray_keeps {s : State} (hs : Keeps b s0 s) :
    Keeps b s0 (State.lateTray s) := by
  unfold State.lateTray
  refine State.raise_keeps ?_
  refine State.count_keeps ?_
  exact hs

theorem State.returnEnd_keeps {s : State} (hs : Keeps b s0 s) :
    Keeps b s0 (State.returnEnd s) := by
  unfold State.returnEnd
  extract_lets -merge -underBinder x0 x1 x2 x3 x4
  try clear_value x0
  have h5 : Keeps b s0 x1 := by
    refine State.when_keeps ?_ ?_
    · exact hs
    · intro _ h6
      extract_lets -merge -underBinder x7
      have h8 : Keeps b s0 x7 := by
        refine State.set_keeps ?_
        exact h6
      clear_value x7
      refine State.finalise_keeps ?_
      refine State.when_keeps ?_ ?_
      · exact h8
      · intro _ h9
        refine State.lateTray_keeps ?_
        exact h9
  clear_value x1
  have h10 : Keeps b s0 x2 := by
    refine State.learnInaug_keeps ?_
    refine State.noteCrumbs_keeps ?_
    exact h5
  clear_value x2
  have h11 : Keeps b s0 x3 := by
    refine State.withTime_keeps ?_ ?_
    · exact h10
    · exact fun _ _ => rfl
  clear_value x3
  have h12 : Keeps b s0 x4 := by
    refine State.correctAtReturnEnd_keeps ?_
    exact h11
  clear_value x4
  refine State.returnTriggers_keeps ?_
  refine State.each_keeps ?_ ?_
  · exact h12
  · intro _ _ h13
    refine State.commitDraft7_keeps ?_
    exact h13

theorem execReturnEnd_keeps {s : State} (hs : Keeps b s0 s) :
    KeepsOut b s0 (execReturnEnd s) := by
  unfold execReturnEnd
  refine Keeps.mk_out ?_
  refine Keeps.ite ?_ ?_
  · exact hs
  · refine Keeps.ite ?_ ?_
    · refine State.formingReturnEnd_keeps ?_
      exact hs
    · refine Keeps.ite ?_ ?_
      · refine State.returnEnd_keeps ?_
        exact hs
      · exact hs

theorem execReturnClose_keeps {s : State} (hs : Keeps b s0 s) :
    KeepsOut b s0 (execReturnClose s) := by
  unfold execReturnClose
  refine Keeps.mk_out ?_
  refine Keeps.ite ?_ ?_
  · exact hs
  · extract_lets -merge -underBinder x0 x1 x2
    have h3 : Keeps b s0 x0 := by
      refine State.when_keeps ?_ ?_
      · exact hs
      · intro _ h4
        refine State.lateTray_keeps ?_
        exact h4
    clear_value x0
    have h5 : Keeps b s0 x1 := by
      refine State.finalise_keeps ?_
      exact h3
    clear_value x1
    have h6 : Keeps b s0 x2 := by
      refine State.withTime_keeps ?_ ?_
      · exact h5
      · exact fun _ _ => rfl
    clear_value x2
    refine State.returnTriggers_keeps ?_
    refine State.each_keeps ?_ ?_
    · exact h6
    · intro _ _ h7
      refine State.commitDraft7_keeps ?_
      exact h7

theorem execForerunnerSlotTx_keeps {l : Line} {a : Instant} {s : State} (hs : Keeps b s0 s) :
    KeepsOut b s0 (execForerunnerSlotTx l a s) := by
  unfold execForerunnerSlotTx
  refine Keeps.mk_out ?_
  extract_lets -merge -underBinder x0
  try clear_value x0
  split
  · extract_lets -merge -underBinder x1 x2 x3 x4 x5 x6 x7 x8 x9 x10 x11 x12 x13
    try clear_value x1
    try clear_value x2
    try clear_value x5
    try clear_value x7
    try clear_value x8
    try clear_value x9
    try clear_value x10
    try clear_value x11
    have h14 : Keeps b s0 x3 := by
      refine State.withLine_keeps ?_
      exact hs
    clear_value x3
    have h15 : Keeps b s0 x4 := by
      refine State.openMark_keeps ?_
      exact h14
    clear_value x4
    have h16 : Keeps b s0 x12 := by
      refine State.each_keeps ?_ ?_
      · exact h15
      · intro _ _ h17
        refine State.originate_keeps ?_
        exact h17
    clear_value x12
    have h18 : Keeps b s0 x13 := by
      refine State.withLine_keeps ?_
      exact h16
    clear_value x13
    refine Keeps.ite ?_ ?_
    · refine State.noteWritten_keeps ?_
      exact h18
    · refine State.count_keeps ?_
      exact h18
  · exact hs

theorem State.measureDelay_keeps {s : State} {p : BackbonePort} {hdr : TrayHeader} {timing : TimingBlock} {rx : Instant}
    (hs : Keeps b s0 s) :
    Keeps b s0 (State.measureDelay s p hdr timing rx) := by
  unfold State.measureDelay
  extract_lets -merge -underBinder x0 x1
  try clear_value x0
  have h2 : Keeps b s0 x1 := by
    refine State.withLine_keeps ?_
    exact hs
  clear_value x1
  split
  · refine Keeps.ite ?_ ?_
    · exact h2
    · extract_lets -merge -underBinder x3
      try clear_value x3
      refine State.withLine_keeps ?_
      exact h2
  · exact h2

theorem State.missSlot_keeps {s : State} {l : Line} (hs : Keeps b s0 s) :
    Keeps b s0 (State.missSlot s l) := by
  unfold State.missSlot
  refine State.set_keeps ?_
  refine State.raise_keeps ?_
  refine State.count_keeps ?_
  exact hs

theorem State.readSlot_keeps {s : State} {l : Line} {hdr : TrayHeader} {timing : TimingBlock} {slice : Slice} {rx : Instant} {d : ℤ}
    {inside : Bool} {fcs : Option Bool} (hs : Keeps b s0 s) :
    Keeps b s0 (State.readSlot s l hdr timing slice rx d inside fcs) := by
  unfold State.readSlot
  extract_lets -merge -underBinder x0 x1 x2 x3 x4 x5 x6 x7 x8
  try clear_value x2
  try clear_value x4
  try clear_value x5
  try clear_value x6
  try clear_value x7
  try clear_value x8
  have h9 : Keeps b s0 x0 := by
    refine State.withLine_keeps ?_
    exact hs
  clear_value x0
  have h10 : Keeps b s0 x1 := by
    refine State.when_keeps ?_ ?_
    · exact h9
    · intro _ h11
      refine State.set_keeps ?_
      exact h11
  clear_value x1
  have h12 : Keeps b s0 x3 := by
    refine State.slotsMoved_keeps ?_ ?_
    · refine State.takeCopy_keeps ?_
      exact h10
    · exact h10
  clear_value x3
  refine Keeps.ite ?_ ?_
  · refine State.withTime_keeps ?_ ?_
    · exact h12
    · exact fun _ _ => rfl
  · exact h12

theorem State.slotFrameRx_keeps {s : State} {info : FrameInfo} {hdr : TrayHeader} {timing : TimingBlock} {slice : Slice}
    {fcs : Option Bool} (hs : Keeps b s0 s) :
    Keeps b s0 (State.slotFrameRx s info hdr timing slice fcs) := by
  unfold State.slotFrameRx
  extract_lets -merge -underBinder x0 x1 x2 x3
  try clear_value x0
  try clear_value x1
  try clear_value x2
  try clear_value x3
  split
  · have h4 := Keeps.of_fst (b := b) (s := s0) ‹_ = (_, _)› (by
        refine State.admitFrame_keeps ?_ ?_
        · exact hs
        · intro _ _ h5
          refine State.emit_keeps ?_
          exact h5
      )
    extract_lets -merge -underBinder x6 x7 x8 x9 x10 x11 x12 x13 x14 x15 x16 x17 x18 x19
    try clear_value x8
    try clear_value x10
    try clear_value x11
    try clear_value x12
    try clear_value x16
    try clear_value x17
    try clear_value x18
    try clear_value x19
    have h20 : Keeps b s0 x6 := by
      refine Keeps.ite ?_ ?_
      · exact h4
      · exact hs
    clear_value x6
    have h21 : Keeps b s0 x7 := by
      refine State.when_keeps ?_ ?_
      · exact h20
      · intro _ h22
        refine State.meetDataTray_keeps ?_
        exact h22
    clear_value x7
    have h23 : Keeps b s0 x9 := by
      refine State.when_keeps ?_ ?_
      · exact h21
      · intro _ h24
        refine State.measureDelay_keeps ?_
        exact h24
    clear_value x9
    have h25 : Keeps b s0 x13 := by
      refine State.when_keeps ?_ ?_
      · exact h23
      · intro _ h26
        refine State.openMark_keeps ?_
        exact h26
    clear_value x13
    have h27 : Keeps b s0 x14 := by
      refine State.when_keeps ?_ ?_
      · exact h25
      · intro _ h28
        refine State.emit_keeps ?_
        exact h28
    clear_value x14
    have h29 : Keeps b s0 x15 := by
      refine State.when_keeps ?_ ?_
      · exact h27
      · intro _ h30
        refine State.withLine_keeps ?_
        refine State.seeInaug_keeps ?_
        exact h30
    clear_value x15
    refine Keeps.ite ?_ ?_
    · exact h20
    · refine Keeps.ite ?_ ?_
      · exact h29
      · refine Keeps.ite ?_ ?_
        · refine State.when_keeps ?_ ?_
          · exact h29
          · intro _ h31
            refine State.missSlot_keeps ?_
            refine State.count_keeps ?_
            exact h31
        · refine Keeps.ite ?_ ?_
          · refine State.when_keeps ?_ ?_
            · exact h29
            · intro _ h32
              refine State.missSlot_keeps ?_
              exact h32
          · refine State.readSlot_keeps ?_
            exact h29

theorem State.enterRun_keeps {s : State} {l : Line} (hs : Keeps b s0 s) :
    Keeps b s0 (State.enterRun s l) := by
  unfold State.enterRun
  extract_lets -merge -underBinder x0 x1 x2 x3 x4 x5
  try clear_value x0
  try clear_value x1
  try clear_value x2
  try clear_value x3
  have h6 : Keeps b s0 x5 := by
    refine State.set_keeps ?_
    refine State.setLine_keeps ?_
    exact hs
  clear_value x5
  refine Keeps.ite ?_ ?_
  · refine State.withLine_keeps ?_
    refine State.when_keeps ?_ ?_
    · exact h6
    · intro _ h7
      refine State.loadGuard_keeps ?_
      exact h7
  · exact hs

theorem State.tickLine_keeps {s : State} {l : Line} (hs : Keeps b s0 s) :
    Keeps b s0 (State.tickLine s l) := by
  unfold State.tickLine
  extract_lets -merge -underBinder x0 x1 x2 x3
  try clear_value x0
  try clear_value x3
  have h4 : Keeps b s0 x1 := by
    refine Keeps.ite ?_ ?_
    · refine State.set_keeps ?_
      exact hs
    · refine Keeps.ite ?_ ?_
      · refine State.set_keeps ?_
        refine State.set_keeps ?_
        exact hs
      · exact hs
  clear_value x1
  have h5 : Keeps b s0 x2 := by
    refine State.enterRun_keeps ?_
    refine State.withLine_keeps ?_
    exact h4
  clear_value x2
  refine State.withLine_keeps ?_
  exact h5

theorem State.tickLines_keeps {s : State} (hs : Keeps b s0 s) :
    Keeps b s0 (State.tickLines s) := by
  unfold State.tickLines
  refine State.each_keeps ?_ ?_
  · exact hs
  · intro _ _ h0
    refine State.tickLine_keeps ?_
    exact h0

/-! Machine/KeyRequests.lean. -/

theorem State.sendKeyReq_keeps {s : State} (hs : Keeps b s0 s) :
    Keeps b s0 (State.sendKeyReq s) := by
  unfold State.sendKeyReq
  refine Keeps.ite ?_ ?_
  · exact hs
  · split
    · have h0 := Keeps.of_opt (b := b) (s := s0) ‹_ = some (_, _)› (by
          refine State.random_keeps ?_
          exact hs
        )
      extract_lets -merge -underBinder x1 x2 x3
      try clear_value x1
      try clear_value x2
      have h4 : Keeps b s0 x3 := by
        refine State.withSec_keeps ?_
        exact h0
      clear_value x3
      refine State.each_keeps ?_ ?_
      · exact h4
      · intro _ _ h5
        refine State.emit_keeps ?_
        refine State.count_keeps ?_
        exact h5
    · exact hs

theorem execKeyReqTx_keeps {s : State} (hs : Keeps b s0 s) :
    KeepsOut b s0 (execKeyReqTx s) := by
  unfold execKeyReqTx
  refine Keeps.mk_out ?_
  refine Keeps.ite ?_ ?_
  · refine State.sendKeyReq_keeps ?_
    exact hs
  · exact hs

theorem State.takeKeyReq_keeps {s : State} {p : BackbonePort} {f : KeyReqFrame} (hs : Keeps b s0 s) :
    Keeps b s0 (State.takeKeyReq s p f) := by
  unfold State.takeKeyReq
  split
  · exact hs
  · extract_lets -merge -underBinder x0
    try clear_value x0
    refine Keeps.ite ?_ ?_
    · exact hs
    · refine Keeps.ite ?_ ?_
      · refine State.count_keeps ?_
        exact hs
      · refine Keeps.ite ?_ ?_
        · exact hs
        · refine State.withSec_keeps ?_
          exact hs

theorem execKeyReqRx_keeps {p : BackbonePort} {f : KeyReqFrame} {s : State} (hs : Keeps b s0 s) :
    KeepsOut b s0 (execKeyReqRx p f s) := by
  unfold execKeyReqRx
  refine Keeps.mk_out ?_
  refine Keeps.ite ?_ ?_
  · refine State.takeKeyReq_keeps ?_
    exact hs
  · exact hs

theorem State.grantKey_keeps {s : State} {q : TakenRequest} (hs : Keeps b s0 s) :
    Keeps b s0 (State.grantKey s q) := by
  unfold State.grantKey
  split
  · have h0 := Keeps.of_opt (b := b) (s := s0) ‹_ = some (_, _)› (by
        refine State.random_keeps ?_
        exact hs
      )
    extract_lets -merge -underBinder x1
    try clear_value x1
    split
    · refine State.emit_keeps ?_
      refine State.count_keeps ?_
      exact h0
  · exact hs

theorem State.sendGrants_keeps {s : State} (hs : Keeps b s0 s) :
    Keeps b s0 (State.sendGrants s) := by
  unfold State.sendGrants
  extract_lets -merge -underBinder x0 x1
  try clear_value x1
  refine Keeps.ite ?_ ?_
  · exact hs
  · refine State.withSec_keeps ?_
    refine State.each_keeps ?_ ?_
    · exact hs
    · intro _ _ h2
      refine State.grantKey_keeps ?_
      exact h2

theorem execKeyGrantTx_keeps {s : State} (hs : Keeps b s0 s) :
    KeepsOut b s0 (execKeyGrantTx s) := by
  unfold execKeyGrantTx
  refine Keeps.mk_out ?_
  refine Keeps.ite ?_ ?_
  · refine State.sendGrants_keeps ?_
    exact hs
  · exact hs

theorem State.takeGrant_keeps {s : State} {f : KeyGrantFrame} (hs : Keeps b s0 s) :
    Keeps b s0 (State.takeGrant s f) := by
  unfold State.takeGrant
  split
  · exact hs
  · refine Keeps.ite ?_ ?_
    · exact hs
    · split
      · exact hs
      · refine State.showKeys_keeps ?_
        refine State.raise_keeps ?_
        refine State.set_keeps ?_
        refine State.set_keeps ?_
        refine State.withSec_keeps ?_
        exact hs

theorem execKeyGrantRx_keeps {p : BackbonePort} {f : KeyGrantFrame} {s : State} (hs : Keeps b s0 s) :
    KeepsOut b s0 (execKeyGrantRx p f s) := by
  unfold execKeyGrantRx
  refine Keeps.mk_out ?_
  refine Keeps.ite ?_ ?_
  · refine State.takeGrant_keeps ?_
    exact hs
  · exact hs

theorem State.tickRequests_keeps {s : State} (hs : Keeps b s0 s) :
    Keeps b s0 (State.tickRequests s) := by
  unfold State.tickRequests
  refine State.withSec_keeps ?_
  exact hs

end Sys2Proof.Machine
end

