-- ==== Sys2Proof/Laws/KeepsBuses.lean ====
section
/-! SUPPORT. What each operation and meaning of the switch, the controllers, power, security, errors and interrupts keeps: one lemma per definition. -/

namespace Sys2Proof.Machine

variable {b : Bool} {s0 : State}

/-! Machine/SwitchOps.lean. -/

theorem State.withSwitch_keeps {s : State} {f : Switch → Switch} (hs : Keeps b s0 s) :
    Keeps b s0 (State.withSwitch s f) := by
  unfold State.withSwitch
  exact Keeps.congr hs rfl rfl rfl rfl (fun _ => rfl)

theorem State.learn_keeps {s : State} {vid : ℕ} {mac : BitVec 48} {q : ℕ} (hs : Keeps b s0 s) :
    Keeps b s0 (State.learn s vid mac q) := by
  unfold State.learn
  refine Keeps.ite ?_ ?_
  · exact hs
  · split
    · refine State.withSwitch_keeps ?_
      exact hs
    · split
      · refine State.set_keeps ?_
        refine State.withSwitch_keeps ?_
        exact hs
      · refine State.countRaise_keeps ?_
        exact hs

theorem execFdbAgeOut_keeps {e : BitVec 13} {s : State} (hs : Keeps b s0 s) :
    KeepsOut b s0 (execFdbAgeOut e s) := by
  unfold execFdbAgeOut
  refine Keeps.mk_out ?_
  split
  · refine Keeps.ite ?_ ?_
    · refine State.set_keeps ?_
      refine State.withSwitch_keeps ?_
      exact hs
    · exact hs
  · exact hs

theorem State.showBuffer_keeps {s : State} (hs : Keeps b s0 s) :
    Keeps b s0 (State.showBuffer s) := by
  unfold State.showBuffer
  refine State.set_keeps ?_
  exact hs

theorem State.withPort_keeps {s : State} {q : ℕ} {f : SwPort → SwPort} (hs : Keeps b s0 s) :
    Keeps b s0 (State.withPort s q f) := by
  unfold State.withPort
  refine State.withSwitch_keeps ?_
  exact hs

theorem State.enqueue_keeps {s : State} {copies : List (ℕ × List Byte)} {queueAt : ℕ → ℕ} {inPort : ℕ} {ring : Option ℕ} {telegram : Bool}
    (hs : Keeps b s0 s) :
    KeepsFst b s0 (State.enqueue s copies queueAt inPort ring telegram) := by
  unfold State.enqueue
  extract_lets -merge -underBinder x0
  try clear_value x0
  split
  · extract_lets -merge -underBinder x1 x2 x3 x4
    try clear_value x2
    try clear_value x3
    have h5 : Keeps b s0 x1 := by
      refine State.each_keeps ?_ ?_
      · exact hs
      · intro _ _ h6
        refine State.count_keeps ?_
        exact h6
    clear_value x1
    have h7 : Keeps b s0 x4 := by
      refine State.withSwitch_keeps ?_
      exact h5
    clear_value x4
    refine Keeps.ite_fst ?_ ?_
    · refine Keeps.mk_fst ?_
      exact h5
    · refine Keeps.ite_fst ?_ ?_
      · refine Keeps.mk_fst ?_
        refine State.countRaise_keeps ?_
        exact h5
      · split
        · have h8 := Keeps.of_fst (b := b) (s := s0) ‹_ = (_, _)› (by
              refine Keeps.foldl_fst ?_ ?_
              · refine Keeps.mk_fst ?_
                exact h7
              · intro _ _ h9
                split
                · first
                    | have h10 := Keeps.of_fst (b := b) (s := s0) rfl h9
                    | have h10 := Keeps.of_fst (b := b) (s := s0) ‹_ = (_, _)› h9
                  extract_lets -merge -underBinder x11 x12
                  try clear_value x11
                  try clear_value x12
                  refine Keeps.ite_fst ?_ ?_
                  · refine Keeps.mk_fst ?_
                    refine State.count_keeps ?_
                    exact h10
                  · refine Keeps.mk_fst ?_
                    refine State.withSwitch_keeps ?_
                    exact h10
            )
          refine Keeps.mk_fst ?_
          refine State.showBuffer_keeps ?_
          exact h8

theorem State.dequeue_keeps {s : State} {x : Queued} (hs : Keeps b s0 s) :
    Keeps b s0 (State.dequeue s x) := by
  unfold State.dequeue
  extract_lets -merge -underBinder x0 x1
  have h2 : Keeps b s0 x1 := by
    refine State.withSwitch_keeps ?_
    exact hs
  clear_value x1
  refine State.showBuffer_keeps ?_
  split
  · refine State.when_keeps ?_ ?_
    · exact h2
    · intro _ h3
      refine State.withSwitch_keeps ?_
      exact h3
  · exact h2

theorem State.sendPause_keeps {s : State} {q : ℕ} {quanta : ℕ} (hs : Keeps b s0 s) :
    Keeps b s0 (State.sendPause s q quanta) := by
  unfold State.sendPause
  extract_lets -merge -underBinder x0 x1
  try clear_value x0
  try clear_value x1
  refine Keeps.ite ?_ ?_
  · exact hs
  · refine State.emit_keeps ?_
    refine State.count_keeps ?_
    refine State.when_keeps ?_ ?_
    · exact hs
    · intro _ h2
      refine State.count_keeps ?_
      exact h2

theorem State.checkPause_keeps {s : State} {q : ℕ} (hs : Keeps b s0 s) :
    Keeps b s0 (State.checkPause s q) := by
  unfold State.checkPause
  refine Keeps.ite ?_ ?_
  · exact hs
  · extract_lets -merge -underBinder x0
    try clear_value x0
    split
    · refine Keeps.ite ?_ ?_
      · refine State.withPort_keeps ?_
        refine State.sendPause_keeps ?_
        exact hs
      · exact hs
    · refine Keeps.ite ?_ ?_
      · refine State.withPort_keeps ?_
        refine State.sendPause_keeps ?_
        exact hs
      · exact hs

theorem State.storeSpace_keeps {s : State} {base : ℕ} {off : ℕ} {bs : List Byte} (hs : Keeps b s0 s) :
    Keeps b s0 (State.storeSpace s base off bs) := by
  unfold State.storeSpace
  extract_lets -merge -underBinder x0
  have h1 : Keeps b s0 x0 := by
    refine State.setBytes_keeps ?_
    exact hs
  clear_value x0
  refine Keeps.ite ?_ ?_
  · refine State.setBytes_keeps ?_
    exact h1
  · refine Keeps.ite ?_ ?_
    · refine State.setBytes_keeps ?_
      exact h1
    · exact h1

theorem State.hostWrite_keeps {s : State} {addr : BitVec 64} {bs : List Byte} (hs : Keeps b s0 s) :
    Keeps b s0 (State.hostWrite s addr bs) := by
  unfold State.hostWrite
  refine Keeps.ite ?_ ?_
  · refine State.each_keeps ?_ ?_
    · exact hs
    · intro _ _ h0
      refine State.emit_keeps ?_
      exact h0
  · refine State.count_keeps ?_
    exact hs

theorem State.finishDesc_keeps {s : State} {g : ℕ} {addr : BitVec 64} {word2 : ℕ} {word3 : ℕ} (hs : Keeps b s0 s) :
    Keeps b s0 (State.finishDesc s g addr word2 word3) := by
  unfold State.finishDesc
  extract_lets -merge -underBinder x0 x1 x2 x3
  try clear_value x0
  try clear_value x1
  have h4 : Keeps b s0 x2 := by
    unfold x2
    split
    · refine Keeps.ite ?_ ?_
      · refine State.storeSpace_keeps ?_
        exact hs
      · exact hs
    · refine State.hostWrite_keeps ?_
      exact hs
  clear_value x2
  have h5 : Keeps b s0 x3 := by
    refine State.set_keeps ?_
    exact h4
  clear_value x3
  refine State.withSwitch_keeps ?_
  exact h5

theorem State.finishTx_keeps {s : State} {g : ℕ} {d : HeadDesc} {stamp : Option (BitVec 64)} {bits : ℕ} (hs : Keeps b s0 s) :
    Keeps b s0 (State.finishTx s g d stamp bits) := by
  unfold State.finishTx
  extract_lets -merge -underBinder x0 x1
  try clear_value x1
  have h2 : Keeps b s0 x0 := by
    refine State.finishDesc_keeps ?_
    exact hs
  clear_value x0
  refine Keeps.ite ?_ ?_
  · refine State.raise_keeps ?_
    refine State.update_keeps ?_
    exact h2
  · exact h2

theorem State.reportStart_keeps {s : State} {x : Queued} {stamp : Option (BitVec 64)} (hs : Keeps b s0 s) :
    Keeps b s0 (State.reportStart s x stamp) := by
  unfold State.reportStart
  split
  · split
    · extract_lets -merge -underBinder x0
      have h1 : Keeps b s0 x0 := by
        refine State.withSwitch_keeps ?_
        exact hs
      clear_value x0
      split
      · refine State.finishTx_keeps ?_
        exact h1
      · exact h1
    · exact hs
  · exact hs

theorem State.discard_keeps {s : State} {x : Queued} (hs : Keeps b s0 s) :
    Keeps b s0 (State.discard s x) := by
  unfold State.discard
  extract_lets -merge -underBinder x0 x1 x2
  try clear_value x1
  have h3 : Keeps b s0 x0 := by
    refine State.dequeue_keeps ?_
    exact hs
  clear_value x0
  have h4 : Keeps b s0 x2 := by
    refine Keeps.ite ?_ ?_
    · exact h3
    · refine State.reportStart_keeps ?_
      exact h3
  clear_value x2
  refine State.checkPause_keeps ?_
  exact h4

theorem State.issuePieces_keeps {s : State} (hs : Keeps b s0 s) :
    Keeps b s0 (State.issuePieces s) := by
  unfold State.issuePieces
  extract_lets -merge -underBinder x0 x1
  try clear_value x0
  try clear_value x1
  refine State.each_keeps ?_ ?_
  · exact Keeps.congr hs rfl rfl rfl rfl (fun _ => rfl)
  · intro _ _ h2
    split
    · extract_lets -merge -underBinder x3 x4
      try clear_value x3
      have h5 : Keeps b s0 x4 := by
        exact Keeps.congr h2 rfl rfl rfl rfl (fun _ => rfl)
      clear_value x4
      refine State.emit_keeps ?_
      refine State.set_keeps ?_
      exact h5
    · exact Keeps.congr h2 rfl rfl rfl rfl (fun _ => rfl)

theorem State.issueRead_keeps {s : State} {r : OutRead} {addr : BitVec 64} {len : ℕ} (hs : Keeps b s0 s) :
    Keeps b s0 (State.issueRead s r addr len) := by
  unfold State.issueRead
  extract_lets -merge -underBinder x0 x1
  try clear_value x0
  try clear_value x1
  refine State.issuePieces_keeps ?_
  exact Keeps.congr hs rfl rfl rfl rfl (fun _ => rfl)

theorem State.fetchDesc_keeps {s : State} {g : ℕ} {i : ℕ} (hs : Keeps b s0 s) :
    Keeps b s0 (State.fetchDesc s g i) := by
  unfold State.fetchDesc
  refine State.issueRead_keeps ?_
  exact hs

theorem State.fetchDescs_keeps {s : State} {g : ℕ} (hs : Keeps b s0 s) :
    Keeps b s0 (State.fetchDescs s g) := by
  unfold State.fetchDescs
  refine Keeps.ite ?_ ?_
  · exact hs
  · refine Keeps.foldl ?_ ?_
    · exact hs
    · intro _ _ h0
      extract_lets -merge -underBinder x1
      try clear_value x1
      refine Keeps.ite ?_ ?_
      · exact h0
      · refine State.withSwitch_keeps ?_
        refine State.fetchDesc_keeps ?_
        exact h0

theorem State.refetch_keeps {s : State} {g : ℕ} (hs : Keeps b s0 s) :
    Keeps b s0 (State.refetch s g) := by
  unfold State.refetch
  extract_lets -merge -underBinder x0 x1
  try clear_value x0
  have h2 : Keeps b s0 x1 := by
    refine State.withSwitch_keeps ?_
    exact hs
  clear_value x1
  refine Keeps.ite ?_ ?_
  · refine State.fetchDesc_keeps ?_
    exact h2
  · refine State.withSwitch_keeps ?_
    exact h2

theorem State.deliverRing_keeps {s : State} {port : ℕ} {bs : List Byte} {pcp : ℕ} {vid : ℕ} {inPort : ℕ} {rtag : Bool} {tagged : Bool}
    {checks : ℕ} {sof : BitVec 64} (hs : Keeps b s0 s) :
    Keeps b s0 (State.deliverRing s port bs pcp vid inPort rtag tagged checks sof) := by
  unfold State.deliverRing
  extract_lets -merge -underBinder x0
  try clear_value x0
  refine Keeps.ite ?_ ?_
  · exact hs
  · split
    · refine Keeps.ite ?_ ?_
      · refine State.count_keeps ?_
        exact hs
      · extract_lets -merge -underBinder x1
        have h2 : Keeps b s0 x1 := by
          unfold x1
          split
          · refine State.storeSpace_keeps ?_
            exact hs
          · refine State.hostWrite_keeps ?_
            exact hs
        clear_value x1
        refine State.finishDesc_keeps ?_
        exact h2
    · refine State.when_keeps ?_ ?_
      · refine State.count_keeps ?_
        exact hs
      · intro _ h3
        refine State.refetch_keeps ?_
        exact h3
    · refine State.count_keeps ?_
      exact hs

theorem State.writeTail_keeps {s : State} {g : ℕ} {tail : ℕ} (hs : Keeps b s0 s) :
    Keeps b s0 (State.writeTail s g tail) := by
  unfold State.writeTail
  refine Keeps.ite ?_ ?_
  · refine State.fetchDescs_keeps ?_
    refine State.set_keeps ?_
    exact hs
  · exact hs

theorem execRingTailWrite_keeps {g : BitVec 6} {tail : BitVec 16} {s : State} (hs : Keeps b s0 s) :
    KeepsOut b s0 (execRingTailWrite g tail s) := by
  unfold execRingTailWrite
  refine Keeps.mk_out ?_
  refine Keeps.ite ?_ ?_
  · refine State.writeTail_keeps ?_
    exact hs
  · exact hs

/-! Machine/Can.lean. -/

theorem State.setCanState_keeps {s : State} {c : ℕ} {st : ℕ} (hs : Keeps b s0 s) :
    Keeps b s0 (State.setCanState s c st) := by
  unfold State.setCanState
  refine State.set_keeps ?_
  exact hs

theorem State.autoRecover_keeps {s : State} {c : ℕ} (hs : Keeps b s0 s) :
    Keeps b s0 (State.autoRecover s c) := by
  unfold State.autoRecover
  refine State.when_keeps ?_ ?_
  · exact hs
  · intro _ h0
    refine State.setCanState_keeps ?_
    exact h0

theorem State.setErrorCounts_keeps {s : State} {c : ℕ} {tec : ℕ} {rec : ℕ} (hs : Keeps b s0 s) :
    Keeps b s0 (State.setErrorCounts s c tec rec) := by
  unfold State.setErrorCounts
  extract_lets -merge -underBinder x0 x1 x2 x3 x4
  try clear_value x0
  try clear_value x1
  have h5 : Keeps b s0 x2 := by
    refine State.set_keeps ?_
    refine State.set_keeps ?_
    exact hs
  clear_value x2
  have h6 : Keeps b s0 x3 := by
    refine State.when_keeps ?_ ?_
    · refine State.setFlag_keeps ?_
      exact h5
    · intro _ h7
      refine State.raise_keeps ?_
      exact h7
  clear_value x3
  have h8 : Keeps b s0 x4 := by
    refine Keeps.ite ?_ ?_
    · refine State.raise_keeps ?_
      refine State.setCanState_keeps ?_
      exact h6
    · refine Keeps.ite ?_ ?_
      · refine State.setCanState_keeps ?_
        exact h6
      · exact h6
  clear_value x4
  refine Keeps.ite ?_ ?_
  · refine State.autoRecover_keeps ?_
    refine State.setCanState_keeps ?_
    refine State.countRaise_keeps ?_
    exact h8
  · exact h8

theorem State.endRequest_keeps {s : State} {c : ℕ} {a2 : ℕ} {status : ℕ} (hs : Keeps b s0 s) :
    Keeps b s0 (State.endRequest s c a2 status) := by
  unfold State.endRequest
  extract_lets -merge -underBinder x0 x1 x2 x3
  try clear_value x1
  have h4 : Keeps b s0 x0 := by
    refine State.setTxPending_keeps ?_
    exact hs
  clear_value x0
  have h5 : Keeps b s0 x2 := by
    refine State.set64_keeps ?_
    exact h4
  clear_value x2
  have h6 : Keeps b s0 x3 := by
    refine State.withCan_keeps ?_
    exact h5
  clear_value x3
  refine State.when_keeps ?_ ?_
  · refine State.setBeWord_keeps ?_
    exact h6
  · intro _ h7
    refine State.raise_keeps ?_
    exact h7

theorem State.settleCancels_keeps {s : State} {c : ℕ} {a2 : BitVec 64 → Bool} (hs : Keeps b s0 s) :
    Keeps b s0 (State.settleCancels s c a2) := by
  unfold State.settleCancels
  refine State.each_keeps ?_ ?_
  · exact hs
  · intro _ _ h0
    refine Keeps.ite ?_ ?_
    · refine State.endRequest_keeps ?_
      exact h0
    · exact h0

theorem State.cancelAll_keeps {s : State} {c : ℕ} (hs : Keeps b s0 s) :
    Keeps b s0 (State.cancelAll s c) := by
  unfold State.cancelAll
  refine State.each_keeps ?_ ?_
  · exact hs
  · intro _ _ h0
    refine Keeps.ite ?_ ?_
    · refine State.endRequest_keeps ?_
      exact h0
    · exact h0

theorem State.canStart_keeps {s : State} {c : ℕ} (hs : Keeps b s0 s) :
    Keeps b s0 (State.canStart s c) := by
  unfold State.canStart
  refine Keeps.ite ?_ ?_
  · refine State.setCanState_keeps ?_
    refine State.setErrorCounts_keeps ?_
    exact hs
  · exact hs

theorem State.canStop_keeps {s : State} {c : ℕ} (hs : Keeps b s0 s) :
    Keeps b s0 (State.canStop s c) := by
  unfold State.canStop
  refine State.setCanState_keeps ?_
  refine State.cancelAll_keeps ?_
  exact hs

theorem State.askStop_keeps {s : State} {c : ℕ} (hs : Keeps b s0 s) :
    Keeps b s0 (State.askStop s c) := by
  unfold State.askStop
  refine Keeps.ite ?_ ?_
  · exact hs
  · refine State.canStop_keeps ?_
    exact hs

theorem State.frameEnds_keeps {s : State} {c : ℕ} (hs : Keeps b s0 s) :
    Keeps b s0 (State.frameEnds s c) := by
  unfold State.frameEnds
  refine State.when_keeps ?_ ?_
  · exact hs
  · intro _ h0
    refine State.canStop_keeps ?_
    exact h0

theorem execCanEnable_keeps {c : BitVec 3} {s : State} (hs : Keeps b s0 s) :
    KeepsOut b s0 (execCanEnable c s) := by
  unfold execCanEnable
  refine Keeps.mk_out ?_
  refine Keeps.ite ?_ ?_
  · refine State.canStart_keeps ?_
    refine State.setFlag_keeps ?_
    exact hs
  · exact hs

theorem execCanDisable_keeps {c : BitVec 3} {s : State} (hs : Keeps b s0 s) :
    KeepsOut b s0 (execCanDisable c s) := by
  unfold execCanDisable
  refine Keeps.mk_out ?_
  refine Keeps.ite ?_ ?_
  · refine State.canStop_keeps ?_
    refine State.setFlag_keeps ?_
    exact hs
  · exact hs

theorem execCanIntegrated_keeps {c : BitVec 3} {s : State} (hs : Keeps b s0 s) :
    KeepsOut b s0 (execCanIntegrated c s) := by
  unfold execCanIntegrated
  refine Keeps.mk_out ?_
  refine Keeps.ite ?_ ?_
  · extract_lets -merge -underBinder x0
    have h1 : Keeps b s0 x0 := by
      refine State.setCanState_keeps ?_
      exact hs
    clear_value x0
    refine State.setErrorCounts_keeps ?_
    exact h1
  · exact hs

theorem execRestart_keeps {c : BitVec 3} {s : State} (hs : Keeps b s0 s) :
    KeepsOut b s0 (execRestart c s) := by
  unfold execRestart
  refine Keeps.mk_out ?_
  refine Keeps.ite ?_ ?_
  · refine State.setCanState_keeps ?_
    exact hs
  · exact hs

theorem execBusOn_keeps {c : BitVec 3} {s : State} (hs : Keeps b s0 s) :
    KeepsOut b s0 (execBusOn c s) := by
  unfold execBusOn
  refine Keeps.mk_out ?_
  refine Keeps.ite ?_ ?_
  · refine State.raise_keeps ?_
    refine State.setErrorCounts_keeps ?_
    refine State.setCanState_keeps ?_
    exact hs
  · exact hs

theorem State.canError_keeps {s : State} {c : ℕ} {code : ℕ} {dataPhase : Bool} {transmitter : Bool} {f : CanFault} (hs : Keeps b s0 s) :
    Keeps b s0 (State.canError s c code dataPhase transmitter f) := by
  unfold State.canError
  extract_lets -merge -underBinder x0 x1
  have h2 : Keeps b s0 x0 := by
    refine State.update_keeps ?_
    refine State.update_keeps ?_
    exact hs
  clear_value x0
  have h3 : Keeps b s0 x1 := by
    refine State.countRaise_keeps ?_
    exact h2
  clear_value x1
  split
  · extract_lets -merge -underBinder x4 x5
    try clear_value x4
    have h6 : Keeps b s0 x5 := by
      refine Keeps.ite ?_ ?_
      · exact h3
      · refine Keeps.ite ?_ ?_
        · refine State.setErrorCounts_keeps ?_
          exact h3
        · refine State.setErrorCounts_keeps ?_
          exact h3
    clear_value x5
    refine Keeps.ite ?_ ?_
    · exact h6
    · refine State.frameEnds_keeps ?_
      refine State.settleCancels_keeps ?_
      exact h6

theorem execCanError_keeps {c : BitVec 3} {code : BitVec 3} {dataPhase : Bool} {transmitter : Bool} {fault : CanFault} {s : State}
    (hs : Keeps b s0 s) :
    KeepsOut b s0 (execCanError c code dataPhase transmitter fault s) := by
  unfold execCanError
  refine Keeps.mk_out ?_
  refine Keeps.ite ?_ ?_
  · refine State.canError_keeps ?_
    exact hs
  · exact hs

theorem State.setNewData_keeps {s : State} {c : ℕ} {a2 : ℕ} {v : Bool} (hs : Keeps b s0 s) :
    Keeps b s0 (State.setNewData s c a2 v) := by
  unfold State.setNewData
  refine State.set64_keeps ?_
  exact hs

theorem State.storeInBuffer_keeps {s : State} {c : ℕ} {a2 : ℕ} {f : CanFrame} {ts : BitVec 64} (hs : Keeps b s0 s) :
    Keeps b s0 (State.storeInBuffer s c a2 f ts) := by
  unfold State.storeInBuffer
  extract_lets -merge -underBinder x0 x1 x2 x3 x4 x5 x6 x7 x8
  try clear_value x0
  try clear_value x1
  try clear_value x4
  have h9 : Keeps b s0 x2 := by
    refine State.when_keeps ?_ ?_
    · exact hs
    · intro _ h10
      refine State.countRaise_keeps ?_
      exact h10
  clear_value x2
  have h11 : Keeps b s0 x3 := by
    refine State.when_keeps ?_ ?_
    · exact h9
    · intro _ h12
      refine State.count_keeps ?_
      exact h12
  clear_value x3
  have h13 : Keeps b s0 x5 := by
    refine State.setBytes_keeps ?_
    refine State.setBytes_keeps ?_
    exact h11
  clear_value x5
  have h14 : Keeps b s0 x6 := by
    refine State.withCan_keeps ?_
    exact h13
  clear_value x6
  have h15 : Keeps b s0 x7 := by
    refine State.setBeWord_keeps ?_
    refine State.setNewData_keeps ?_
    exact h14
  clear_value x7
  have h16 : Keeps b s0 x8 := by
    refine State.when_keeps ?_ ?_
    · exact h15
    · intro _ h17
      refine State.raise_keeps ?_
      exact h17
  clear_value x8
  refine State.rxTriggers_keeps ?_
  refine State.count_keeps ?_
  exact h16

theorem State.storeInFifo_keeps {s : State} {c : ℕ} {f : ℕ} {index : ℕ} {frame : CanFrame} {ts : BitVec 64} (hs : Keeps b s0 s) :
    Keeps b s0 (State.storeInFifo s c f index frame ts) := by
  unfold State.storeInFifo
  extract_lets -merge -underBinder x0 x1 x2 x3 x4 x5 x6 x7 x8 x9 x10
  try clear_value x0
  try clear_value x1
  try clear_value x2
  try clear_value x5
  try clear_value x6
  have h11 : Keeps b s0 x4 := by
    refine State.when_keeps ?_ ?_
    · exact hs
    · intro _ h12
      refine State.countRaise_keeps ?_
      exact h12
  clear_value x4
  have h13 : Keeps b s0 x7 := by
    refine State.setBytes_keeps ?_
    refine State.setBytes_keeps ?_
    exact h11
  clear_value x7
  have h14 : Keeps b s0 x8 := by
    refine State.set_keeps ?_
    exact h13
  clear_value x8
  have h15 : Keeps b s0 x9 := by
    refine Keeps.ite ?_ ?_
    · refine State.set_keeps ?_
      exact h14
    · refine State.set_keeps ?_
      exact h14
  clear_value x9
  have h16 : Keeps b s0 x10 := by
    refine State.count_keeps ?_
    exact h15
  clear_value x10
  refine Keeps.ite ?_ ?_
  · exact h11
  · refine State.when_keeps ?_ ?_
    · exact h16
    · intro _ h17
      refine State.raise_keeps ?_
      exact h17

theorem State.countGoodRx_keeps {s : State} {c : ℕ} (hs : Keeps b s0 s) :
    Keeps b s0 (State.countGoodRx s c) := by
  unfold State.countGoodRx
  extract_lets -merge -underBinder x0
  try clear_value x0
  refine Keeps.ite ?_ ?_
  · exact hs
  · refine Keeps.ite ?_ ?_
    · refine State.setErrorCounts_keeps ?_
      exact hs
    · split
      · have h1 := Keeps.of_snd (b := b) (s := s0) ‹_ = (_, _)› (by
            refine State.draw_keeps ?_
            exact hs
          )
        refine State.setErrorCounts_keeps ?_
        exact h1

theorem execCanFrameRx_keeps {c : BitVec 3} {frame : CanFrame} {ts : BitVec 64} {s : State} (hs : Keeps b s0 s) :
    KeepsOut b s0 (execCanFrameRx c frame ts s) := by
  unfold execCanFrameRx
  refine Keeps.mk_out ?_
  extract_lets -merge -underBinder x0 x1 x2 x3
  try clear_value x0
  try clear_value x1
  have h4 : Keeps b s0 x2 := by
    refine State.settleCancels_keeps ?_
    refine State.countGoodRx_keeps ?_
    exact hs
  clear_value x2
  have h5 : Keeps b s0 x3 := by
    unfold x3
    split
    · refine State.storeInBuffer_keeps ?_
      exact h4
    · split
      · refine State.storeInFifo_keeps ?_
        exact h4
      · refine State.count_keeps ?_
        exact h4
  clear_value x3
  refine Keeps.ite ?_ ?_
  · exact hs
  · refine Keeps.ite ?_ ?_
    · refine Keeps.ite ?_ ?_
      · exact hs
      · refine State.canError_keeps ?_
        exact hs
    · refine State.frameEnds_keeps ?_
      exact h5

theorem State.releaseLock_keeps {s : State} {c : ℕ} {a2 : ℕ} (hs : Keeps b s0 s) :
    Keeps b s0 (State.releaseLock s c a2) := by
  unfold State.releaseLock
  extract_lets -merge -underBinder x0 x1
  try clear_value x0
  have h2 : Keeps b s0 x1 := by
    refine State.when_keeps ?_ ?_
    · exact hs
    · intro _ h3
      refine State.copyRange_keeps ?_
      exact h3
  clear_value x1
  refine State.withCan_keeps ?_
  refine State.setNewData_keeps ?_
  exact h2

theorem State.lockBuffer_keeps {s : State} {c : ℕ} {a2 : ℕ} {r : Requester} (hs : Keeps b s0 s) :
    Keeps b s0 (State.lockBuffer s c a2 r) := by
  unfold State.lockBuffer
  refine Keeps.ite ?_ ?_
  · refine State.withCan_keeps ?_
    exact hs
  · exact hs

theorem State.unlockBuffer_keeps {s : State} {c : ℕ} {a2 : ℕ} {r : Requester} (hs : Keeps b s0 s) :
    Keeps b s0 (State.unlockBuffer s c a2 r) := by
  unfold State.unlockBuffer
  refine Keeps.ite ?_ ?_
  · refine State.releaseLock_keeps ?_
    exact hs
  · exact hs

theorem execCanRxLock_keeps {c : BitVec 3} {a1 : BitVec 6} {r : Requester} {s : State} (hs : Keeps b s0 s) :
    KeepsOut b s0 (execCanRxLock c a1 r s) := by
  unfold execCanRxLock
  refine Keeps.mk_out ?_
  extract_lets -merge -underBinder x0
  try clear_value x0
  refine Keeps.ite ?_ ?_
  · refine State.lockBuffer_keeps ?_
    refine State.emit_keeps ?_
    exact hs
  · exact hs

theorem execCanRxUnlock_keeps {c : BitVec 3} {a1 : BitVec 6} {r : Requester} {s : State} (hs : Keeps b s0 s) :
    KeepsOut b s0 (execCanRxUnlock c a1 r s) := by
  unfold execCanRxUnlock
  refine Keeps.mk_out ?_
  extract_lets -merge -underBinder x0
  try clear_value x0
  refine Keeps.ite ?_ ?_
  · refine State.unlockBuffer_keeps ?_
    refine State.emit_keeps ?_
    exact hs
  · exact hs

theorem execLockTmo_keeps {c : BitVec 3} {a1 : BitVec 6} {s : State} (hs : Keeps b s0 s) :
    KeepsOut b s0 (execLockTmo c a1 s) := by
  unfold execLockTmo
  refine Keeps.mk_out ?_
  extract_lets -merge -underBinder x0
  try clear_value x0
  refine Keeps.ite ?_ ?_
  · refine State.countRaise_keeps ?_
    refine State.releaseLock_keeps ?_
    exact hs
  · exact hs

theorem State.ackFifo_keeps {s : State} {c : ℕ} {f : ℕ} {n : ℕ} (hs : Keeps b s0 s) :
    Keeps b s0 (State.ackFifo s c f n) := by
  unfold State.ackFifo
  extract_lets -merge -underBinder x0 x1
  try clear_value x0
  try clear_value x1
  refine State.set_keeps ?_
  refine State.set_keeps ?_
  exact hs

theorem execFifoAck_keeps {c : BitVec 3} {f : BitVec 1} {n : BitVec 6} {s : State} (hs : Keeps b s0 s) :
    KeepsOut b s0 (execFifoAck c f n s) := by
  unfold execFifoAck
  refine Keeps.mk_out ?_
  refine Keeps.ite ?_ ?_
  · refine State.ackFifo_keeps ?_
    exact hs
  · exact hs

theorem State.requestTx_keeps {s : State} {c : ℕ} {mask : ℕ} (hs : Keeps b s0 s) :
    Keeps b s0 (State.requestTx s c mask) := by
  unfold State.requestTx
  refine State.each_keeps ?_ ?_
  · exact hs
  · intro _ _ h0
    refine Keeps.ite ?_ ?_
    · refine State.canRequest_keeps ?_
      exact h0
    · exact h0

theorem execTxReq_keeps {c : BitVec 3} {mask : BitVec 64} {s : State} (hs : Keeps b s0 s) :
    KeepsOut b s0 (execTxReq c mask s) := by
  unfold execTxReq
  refine Keeps.mk_out ?_
  refine Keeps.ite ?_ ?_
  · refine State.requestTx_keeps ?_
    exact hs
  · exact hs

theorem State.periodicRequest_keeps {s : State} {c : ℕ} {a2 : ℕ} (hs : Keeps b s0 s) :
    Keeps b s0 (State.periodicRequest s c a2) := by
  unfold State.periodicRequest
  refine State.withCan_keeps ?_
  refine State.canRequest_keeps ?_
  exact hs

theorem execCanPeriodicReq_keeps {c : BitVec 3} {a1 : BitVec 6} {s : State} (hs : Keeps b s0 s) :
    KeepsOut b s0 (execCanPeriodicReq c a1 s) := by
  unfold execCanPeriodicReq
  refine Keeps.mk_out ?_
  refine Keeps.ite ?_ ?_
  · refine State.periodicRequest_keeps ?_
    exact hs
  · exact hs

theorem State.earlyRequests_keeps {s : State} (hs : Keeps b s0 s) :
    KeepsFst b s0 (State.earlyRequests s) := by
  unfold State.earlyRequests
  extract_lets -merge -underBinder x0 x1 x2
  try clear_value x1
  try clear_value x2
  have h3 : Keeps b s0 x0 := by
    refine State.each_keeps ?_ ?_
    · exact hs
    · intro _ _ h4
      refine State.withCan_keeps ?_
      exact h4
  clear_value x0
  refine Keeps.mk_fst ?_
  refine State.each_keeps ?_ ?_
  · exact h3
  · intro _ _ h5
    refine State.periodicRequest_keeps ?_
    exact h5

theorem State.markEarly_keeps {s : State} {made : List (ℕ × ℕ)} (hs : Keeps b s0 s) :
    Keeps b s0 (State.markEarly s made) := by
  unfold State.markEarly
  extract_lets -merge -underBinder x0
  refine State.each_keeps ?_ ?_
  · exact hs
  · intro _ _ h1
    refine State.withCan_keeps ?_
    exact h1

theorem State.keepSettings_keeps {s : State} {c : ℕ} (hs : Keeps b s0 s) :
    Keeps b s0 (State.keepSettings s c) := by
  unfold State.keepSettings
  refine Keeps.ite ?_ ?_
  · refine State.withCan_keeps ?_
    exact hs
  · refine State.withCan_keeps ?_
    exact hs

theorem State.dropUnsendable_keeps {s : State} {c : ℕ} {late : ℕ} {start : BitVec 64} (hs : Keeps b s0 s) :
    Keeps b s0 (State.dropUnsendable s c late start) := by
  unfold State.dropUnsendable
  refine State.each_keeps ?_ ?_
  · exact hs
  · intro _ _ h0
    refine Keeps.ite ?_ ?_
    · refine State.endRequest_keeps ?_
      exact h0
    · exact h0

theorem State.openCancel_keeps {s : State} {c : ℕ} {a2 : ℕ} (hs : Keeps b s0 s) :
    Keeps b s0 (State.openCancel s c a2) := by
  unfold State.openCancel
  refine State.set64_keeps ?_
  exact hs

theorem State.askCancel_keeps {s : State} {c : ℕ} {a2 : ℕ} (hs : Keeps b s0 s) :
    Keeps b s0 (State.askCancel s c a2) := by
  unfold State.askCancel
  refine Keeps.ite ?_ ?_
  · exact hs
  · refine Keeps.ite ?_ ?_
    · refine State.withCan_keeps ?_
      refine State.openCancel_keeps ?_
      exact hs
    · refine State.endRequest_keeps ?_
      exact hs

theorem State.cancelTx_keeps {s : State} {c : ℕ} {a2 : ℕ} {started : Option (BitVec 64)} {late : ℕ} (hs : Keeps b s0 s) :
    Keeps b s0 (State.cancelTx s c a2 started late) := by
  unfold State.cancelTx
  refine Keeps.ite ?_ ?_
  · exact hs
  · refine Keeps.ite ?_ ?_
    · refine State.openCancel_keeps ?_
      exact hs
    · refine State.endRequest_keeps ?_
      exact hs

theorem execTxCancel_keeps {c : BitVec 3} {mask : BitVec 64} {started : Option (BitVec 64)} {late : BitVec 64} {s : State}
    (hs : Keeps b s0 s) :
    KeepsOut b s0 (execTxCancel c mask started late s) := by
  unfold execTxCancel
  refine Keeps.mk_out ?_
  refine Keeps.ite ?_ ?_
  · extract_lets -merge -underBinder x0
    try clear_value x0
    refine State.each_keeps ?_ ?_
    · exact hs
    · intro _ _ h1
      refine Keeps.ite ?_ ?_
      · refine State.cancelTx_keeps ?_
        exact h1
      · exact h1
  · exact hs

theorem State.flipTx_keeps {s : State} {c : ℕ} {mask : ℕ} (hs : Keeps b s0 s) :
    Keeps b s0 (State.flipTx s c mask) := by
  unfold State.flipTx
  refine State.each_keeps ?_ ?_
  · exact hs
  · intro _ _ h0
    refine Keeps.ite ?_ ?_
    · refine State.flipNow_keeps ?_
      exact h0
    · exact h0

theorem execTxFlip_keeps {c : BitVec 3} {mask : BitVec 64} {s : State} (hs : Keeps b s0 s) :
    KeepsOut b s0 (execTxFlip c mask s) := by
  unfold execTxFlip
  refine Keeps.mk_out ?_
  refine Keeps.ite ?_ ?_
  · refine State.flipTx_keeps ?_
    exact hs
  · exact hs

theorem State.measureTdcv_keeps {s : State} {c : ℕ} {a2 : ℕ} {start : BitVec 64} {edges : List (BitVec 16)} (hs : Keeps b s0 s) :
    Keeps b s0 (State.measureTdcv s c a2 start edges) := by
  unfold State.measureTdcv
  extract_lets -merge -underBinder x0
  try clear_value x0
  refine Keeps.ite ?_ ?_
  · split
    · refine State.set_keeps ?_
      exact hs
    · exact hs
  · exact hs

theorem State.endAttempt_keeps {s : State} {c : ℕ} {a2 : ℕ} {start : BitVec 64} {out : TxOutcome} (hs : Keeps b s0 s) :
    Keeps b s0 (State.endAttempt s c a2 start out) := by
  unfold State.endAttempt
  extract_lets -merge -underBinder x0 x1
  try clear_value x0
  try clear_value x1
  split
  · exact hs
  · split
    · extract_lets -merge -underBinder x2 x3 x4 x5
      have h6 : Keeps b s0 x2 := by
        refine State.emit_keeps ?_
        exact hs
      clear_value x2
      have h7 : Keeps b s0 x3 := by
        refine State.count_keeps ?_
        refine State.setBytes_keeps ?_
        exact h6
      clear_value x3
      have h8 : Keeps b s0 x4 := by
        refine State.endRequest_keeps ?_
        exact h7
      clear_value x4
      have h9 : Keeps b s0 x5 := by
        refine State.when_keeps ?_ ?_
        · exact h8
        · intro _ h10
          refine State.countRaise_keeps ?_
          exact h10
      clear_value x5
      refine State.setErrorCounts_keeps ?_
      exact h9
  · extract_lets -merge -underBinder x11
    have h12 : Keeps b s0 x11 := by
      refine State.withCan_keeps ?_
      exact hs
    clear_value x11
    refine Keeps.ite ?_ ?_
    · refine State.endRequest_keeps ?_
      exact h12
    · refine Keeps.ite ?_ ?_
      · refine State.endRequest_keeps ?_
        exact h12
      · exact h12
  · extract_lets -merge -underBinder x13 x14
    try clear_value x14
    have h15 : Keeps b s0 x13 := by
      refine State.withCan_keeps ?_
      exact hs
    clear_value x13
    refine Keeps.ite ?_ ?_
    · refine State.endRequest_keeps ?_
      exact h15
    · refine Keeps.ite ?_ ?_
      · refine State.endRequest_keeps ?_
        exact h15
      · refine Keeps.ite ?_ ?_
        · refine State.countRaise_keeps ?_
          refine State.endRequest_keeps ?_
          exact h15
        · exact h15

theorem State.attemptEnds_keeps {s : State} {c : ℕ} {late : ℕ} {ended : TxEnd} (hs : Keeps b s0 s) :
    Keeps b s0 (State.attemptEnds s c late ended) := by
  unfold State.attemptEnds
  extract_lets -merge -underBinder x0 x1 x2
  have h3 : Keeps b s0 x0 := by
    refine State.settleCancels_keeps ?_
    exact hs
  clear_value x0
  have h4 : Keeps b s0 x1 := by
    refine State.dropUnsendable_keeps ?_
    exact h3
  clear_value x1
  have h5 : Keeps b s0 x2 := by
    unfold x2
    split
    · refine State.endAttempt_keeps ?_
      refine State.measureTdcv_keeps ?_
      exact h4
    · exact h4
  clear_value x2
  refine State.frameEnds_keeps ?_
  refine State.withCan_keeps ?_
  refine State.settleCancels_keeps ?_
  exact h5

theorem execCanTxAttemptEnd_keeps {c : BitVec 3} {late : BitVec 64} {ended : TxEnd} {s : State} (hs : Keeps b s0 s) :
    KeepsOut b s0 (execCanTxAttemptEnd c late ended s) := by
  unfold execCanTxAttemptEnd
  refine Keeps.mk_out ?_
  refine Keeps.ite ?_ ?_
  · refine State.attemptEnds_keeps ?_
    exact hs
  · exact hs

theorem State.writeCanCfg_keeps {s : State} {c : ℕ} {a2 : ℕ} {w : ℕ} {v : ℕ} {cancel : State → State} (hs : Keeps b s0 s)
    (hcancel : ∀ y0, Keeps b s0 y0 → Keeps b s0 (cancel y0)) :
    Keeps b s0 (State.writeCanCfg s c a2 w v cancel) := by
  unfold State.writeCanCfg
  extract_lets -merge -underBinder x0 x1 x2 x3
  try clear_value x0
  try clear_value x1
  have h4 : Keeps b s0 x2 := by
    refine Keeps.ite ?_ ?_
    · exact hs
    · refine Keeps.ite ?_ ?_
      · refine hcancel _ ?_
        exact hs
      · refine Keeps.ite ?_ ?_
        · refine State.releaseLock_keeps ?_
          exact hs
        · exact hs
  clear_value x2
  have h5 : Keeps b s0 x3 := by
    refine State.when_keeps ?_ ?_
    · exact h4
    · intro _ h6
      refine State.clearWritten_keeps ?_
      exact h6
  clear_value x3
  refine Keeps.ite ?_ ?_
  · exact hs
  · refine Keeps.ite ?_ ?_
    · refine State.count_keeps ?_
      exact hs
    · refine State.setBeWord_keeps ?_
      exact h5

theorem execCanBufCfgWrite_keeps {c : BitVec 3} {a1 : BitVec 6} {w : BitVec 2} {v : Word} {started : Option (BitVec 64)}
    {late : BitVec 64} {s : State} (hs : Keeps b s0 s) :
    KeepsOut b s0 (execCanBufCfgWrite c a1 w v started late s) := by
  unfold execCanBufCfgWrite
  refine Keeps.mk_out ?_
  refine Keeps.ite ?_ ?_
  · refine State.writeCanCfg_keeps ?_ ?_
    · exact hs
    · intro _ h0
      refine State.cancelTx_keeps ?_
      exact h0
  · exact hs

theorem State.readCanRam_keeps {s : State} {c : ℕ} {off : ℕ} {r : Requester} (hs : Keeps b s0 s) :
    KeepsSnd b s0 (State.readCanRam s c off r) := by
  unfold State.readCanRam
  refine Keeps.ite_snd ?_ ?_
  · refine Keeps.mk_snd ?_
    exact hs
  · extract_lets -merge -underBinder x0 x1 x2 x3
    try clear_value x0
    try clear_value x1
    have h4 : Keeps b s0 x2 := by
      refine Keeps.ite ?_ ?_
      · refine State.lockBuffer_keeps ?_
        exact hs
      · exact hs
    clear_value x2
    have h5 : Keeps b s0 x3 := by
      refine Keeps.ite ?_ ?_
      · refine State.unlockBuffer_keeps ?_
        exact h4
      · exact h4
    clear_value x3
    refine Keeps.ite_snd ?_ ?_
    · refine Keeps.mk_snd ?_
      exact h5
    · refine Keeps.mk_snd ?_
      exact hs

theorem State.writeCanRam_keeps {s : State} {who : Requester} {c : ℕ} {off : ℕ} {v : ℕ} (hs : Keeps b s0 s) :
    Keeps b s0 (State.writeCanRam s who c off v) := by
  unfold State.writeCanRam
  refine Keeps.ite ?_ ?_
  · extract_lets -merge -underBinder x0
    try clear_value x0
    refine State.writeCanCfg_keeps ?_ ?_
    · exact hs
    · intro _ h1
      refine State.askCancel_keeps ?_
      exact h1
  · refine Keeps.ite ?_ ?_
    · exact hs
    · extract_lets -merge -underBinder x2 x3
      try clear_value x2
      try clear_value x3
      refine Keeps.ite ?_ ?_
      · exact hs
      · refine State.stageWrite_keeps ?_
        exact hs

theorem execListenOnlyStart_keeps {c : BitVec 3} {s : State} (hs : Keeps b s0 s) :
    KeepsOut b s0 (execListenOnlyStart c s) := by
  unfold execListenOnlyStart
  refine Keeps.mk_out ?_
  refine Keeps.ite ?_ ?_
  · refine State.cancelAll_keeps ?_
    refine State.setFlag_keeps ?_
    exact hs
  · exact hs

theorem execListenOnlyEnd_keeps {c : BitVec 3} {s : State} (hs : Keeps b s0 s) :
    KeepsOut b s0 (execListenOnlyEnd c s) := by
  unfold execListenOnlyEnd
  refine Keeps.mk_out ?_
  refine Keeps.ite ?_ ?_
  · extract_lets -merge -underBinder x0
    have h1 : Keeps b s0 x0 := by
      refine State.setFlag_keeps ?_
      exact hs
    clear_value x0
    refine Keeps.ite ?_ ?_
    · refine State.setCanState_keeps ?_
      exact h1
    · exact h1
  · exact hs

theorem State.withMvb_keeps {s : State} {j : ℕ} {f : MvbBus → MvbBus} (hs : Keeps b s0 s) :
    Keeps b s0 (State.withMvb s j f) := by
  unfold State.withMvb
  exact Keeps.congr hs rfl rfl rfl rfl (fun _ => rfl)

theorem State.countEntry_keeps {s : State} {j : ℕ} {e : ℕ} (hs : Keeps b s0 s) :
    Keeps b s0 (State.countEntry s j e) := by
  unfold State.countEntry
  refine State.setBeWord_keeps ?_
  exact hs

theorem State.judgeLines_keeps {s : State} {j : ℕ} {validA : Bool} {validB : Bool} (hs : Keeps b s0 s) :
    Keeps b s0 (State.judgeLines s j validA validB) := by
  unfold State.judgeLines
  split
  · extract_lets -merge -underBinder x0 x1
    try clear_value x1
    have h2 : Keeps b s0 x0 := by
      refine State.setFlag_keeps ?_
      refine State.setFlag_keeps ?_
      exact hs
    clear_value x0
    refine Keeps.ite ?_ ?_
    · refine State.countRaise_keeps ?_
      refine State.setFlag_keeps ?_
      exact h2
    · exact h2

theorem State.sendSlave_keeps {s : State} {j : ℕ} {data : List Byte} (hs : Keeps b s0 s) :
    Keeps b s0 (State.sendSlave s j data) := by
  unfold State.sendSlave
  refine State.when_keeps ?_ ?_
  · exact hs
  · intro _ h0
    refine State.emit_keeps ?_
    exact h0

theorem State.takeMaster_keeps {s : State} {j : ℕ} {fcode : ℕ} {addr : ℕ} {conflict : Bool} (hs : Keeps b s0 s) :
    Keeps b s0 (State.takeMaster s j fcode addr conflict) := by
  unfold State.takeMaster
  extract_lets -merge -underBinder x0 x1 x2
  try clear_value x1
  have h3 : Keeps b s0 x0 := by
    refine State.count_keeps ?_
    exact hs
  clear_value x0
  have h4 : Keeps b s0 x2 := by
    refine State.setFlag_keeps ?_
    exact h3
  clear_value x2
  refine Keeps.ite ?_ ?_
  · refine Keeps.ite ?_ ?_
    · exact h4
    · refine Keeps.ite ?_ ?_
      · refine State.count_keeps ?_
        exact h4
      · refine State.sendSlave_keeps ?_
        exact h4
  · refine Keeps.ite ?_ ?_
    · exact h4
    · split
      · exact h4
      · refine Keeps.ite ?_ ?_
        · refine State.withMvb_keeps ?_
          exact h4
        · refine Keeps.ite ?_ ?_
          · refine State.count_keeps ?_
            exact h4
          · refine Keeps.ite ?_ ?_
            · refine State.count_keeps ?_
              exact h4
            · refine Keeps.ite ?_ ?_
              · exact h4
              · extract_lets -merge -underBinder x5 x6
                have h7 : Keeps b s0 x5 := by
                  refine State.setBeWord_keeps ?_
                  refine State.count_keeps ?_
                  exact h4
                clear_value x5
                have h8 : Keeps b s0 x6 := by
                  refine State.sendSlave_keeps ?_
                  refine State.countEntry_keeps ?_
                  exact h7
                clear_value x6
                refine State.when_keeps ?_ ?_
                · exact h8
                · intro _ h9
                  refine State.countRaise_keeps ?_
                  exact h9

theorem execMvbMasterFrameRx_keeps {j : BitVec 1} {fcode : BitVec 4} {addr : BitVec 12} {seen : MvbMaster} {s : State} (hs : Keeps b s0 s) :
    KeepsOut b s0 (execMvbMasterFrameRx j fcode addr seen s) := by
  unfold execMvbMasterFrameRx
  refine Keeps.mk_out ?_
  extract_lets -merge -underBinder x0 x1 x2
  try clear_value x0
  try clear_value x1
  have h3 : Keeps b s0 x2 := by
    refine State.withMvb_keeps ?_
    refine State.judgeLines_keeps ?_
    exact hs
  clear_value x2
  refine Keeps.ite ?_ ?_
  · exact hs
  · refine State.when_keeps ?_ ?_
    · exact h3
    · intro _ h4
      refine State.takeMaster_keeps ?_
      exact h4

theorem State.takeSlave_keeps {s : State} {j : ℕ} {e : ℕ} {data : List Byte} (hs : Keeps b s0 s) :
    Keeps b s0 (State.takeSlave s j e data) := by
  unfold State.takeSlave
  extract_lets -merge -underBinder x0 x1 x2 x3
  have h4 : Keeps b s0 x0 := by
    refine State.setBeWord_keeps ?_
    refine State.setBytes_keeps ?_
    exact hs
  clear_value x0
  have h5 : Keeps b s0 x1 := by
    refine State.count_keeps ?_
    refine State.countEntry_keeps ?_
    exact h4
  clear_value x1
  have h6 : Keeps b s0 x2 := by
    refine State.withMvb_keeps ?_
    exact h5
  clear_value x2
  have h7 : Keeps b s0 x3 := by
    refine State.when_keeps ?_ ?_
    · exact h6
    · intro _ h8
      refine State.raise_keeps ?_
      exact h8
  clear_value x3
  refine State.rxTriggers_keeps ?_
  exact h7

theorem execMvbSlaveFrameRx_keeps {j : BitVec 1} {a : MvbRx} {a2 : MvbRx} {inWindow : Bool} {s : State} (hs : Keeps b s0 s) :
    KeepsOut b s0 (execMvbSlaveFrameRx j a a2 inWindow s) := by
  unfold execMvbSlaveFrameRx
  refine Keeps.mk_out ?_
  extract_lets -merge -underBinder x0 x1 x2 x3
  try clear_value x0
  try clear_value x1
  try clear_value x2
  have h4 : Keeps b s0 x3 := by
    refine State.withMvb_keeps ?_
    refine State.judgeLines_keeps ?_
    exact hs
  clear_value x3
  refine Keeps.ite ?_ ?_
  · exact hs
  · split
    · exact h4
    · exact h4
    · refine Keeps.ite ?_ ?_
      · refine State.takeSlave_keeps ?_
        exact h4
      · refine State.countRaise_keeps ?_
        exact h4
    · refine State.countRaise_keeps ?_
      exact h4

theorem execPortStale_keeps {j : BitVec 1} {e : Byte} {s : State} (hs : Keeps b s0 s) :
    KeepsOut b s0 (execPortStale j e s) := by
  unfold execPortStale
  refine Keeps.mk_out ?_
  split
  · refine Keeps.ite ?_ ?_
    · refine State.countRaise_keeps ?_
      refine State.withMvb_keeps ?_
      exact hs
    · exact hs

theorem execPortFlip_keeps {j : BitVec 1} {e : Byte} {s : State} (hs : Keeps b s0 s) :
    KeepsOut b s0 (execPortFlip j e s) := by
  unfold execPortFlip
  refine Keeps.mk_out ?_
  refine Keeps.ite ?_ ?_
  · refine State.flipNow_keeps ?_
    exact hs
  · exact hs

theorem State.writeMvbCfg_keeps {s : State} {j : ℕ} {e : ℕ} {w : ℕ} {v : ℕ} (hs : Keeps b s0 s) :
    Keeps b s0 (State.writeMvbCfg s j e w v) := by
  unfold State.writeMvbCfg
  extract_lets -merge -underBinder x0 x1 x2
  try clear_value x0
  have h3 : Keeps b s0 x1 := by
    refine State.when_keeps ?_ ?_
    · exact hs
    · intro _ h4
      refine State.withMvb_keeps ?_
      exact h4
  clear_value x1
  have h5 : Keeps b s0 x2 := by
    refine State.when_keeps ?_ ?_
    · exact h3
    · intro _ h6
      refine State.clearWritten_keeps ?_
      exact h6
  clear_value x2
  refine Keeps.ite ?_ ?_
  · exact hs
  · refine Keeps.ite ?_ ?_
    · refine State.count_keeps ?_
      exact hs
    · refine State.setBeWord_keeps ?_
      exact h5

theorem State.writeMvbRam_keeps {s : State} {who : Requester} {j : ℕ} {off : ℕ} {v : ℕ} (hs : Keeps b s0 s) :
    Keeps b s0 (State.writeMvbRam s who j off v) := by
  unfold State.writeMvbRam
  refine Keeps.ite ?_ ?_
  · extract_lets -merge -underBinder x0
    try clear_value x0
    refine Keeps.ite ?_ ?_
    · refine State.stageWrite_keeps ?_
      exact hs
    · exact hs
  · refine Keeps.ite ?_ ?_
    · refine State.writeMvbCfg_keeps ?_
      exact hs
    · exact hs

/-! Machine/Reset.lean. -/

theorem State.loadOtp_keeps {s : State} (hs : Keeps b s0 s) :
    Keeps b s0 (State.loadOtp s) := by
  unfold State.loadOtp
  extract_lets -merge -underBinder x0 x1 x2 x3
  try clear_value x0
  have h4 : Keeps b s0 x1 := by
    refine State.set_keeps ?_
    exact hs
  clear_value x1
  have h5 : Keeps b s0 x2 := by
    refine State.set_keeps ?_
    refine State.set_keeps ?_
    refine State.set_keeps ?_
    exact h4
  clear_value x2
  have h6 : Keeps b s0 x3 := by
    refine State.set_keeps ?_
    exact h5
  clear_value x3
  refine State.each_keeps ?_ ?_
  · exact h6
  · intro _ _ h7
    refine State.set_keeps ?_
    exact h7

theorem State.sampleStraps_keeps {s : State} {bootSrc : ℕ} {twinId : Bool} (hs : Keeps b s0 s) :
    Keeps b s0 (State.sampleStraps s bootSrc twinId) := by
  unfold State.sampleStraps
  refine State.setFlag_keeps ?_
  refine State.setFlag_keeps ?_
  refine State.set_keeps ?_
  exact hs

theorem State.fullReset_keeps {a0 : State} (ha0 : Keeps false s0 a0) : Keeps false s0 a0.fullReset := by
  unfold State.fullReset
  refine State.loadOtp_keeps ?_
  exact ⟨ha0.queue, ha0.sent, fun _ => rfl, fun _ => rfl, by simp⟩

theorem State.chipReset_keeps {s : State} {cause : Reg} (hs : Keeps false s0 s) :
    Keeps false s0 (State.chipReset s cause) := by
  unfold State.chipReset
  extract_lets -merge -underBinder x0
  have h1 : Keeps false s0 x0 := by
    refine State.sampleStraps_keeps ?_
    refine State.fullReset_keeps ?_
    exact hs
  clear_value x0
  refine State.updateFlag_keeps ?_
  refine State.each_keeps ?_ ?_
  · exact h1
  · intro _ _ h2
    refine State.set_keeps ?_
    exact h2

theorem State.endRuns_keeps {s : State} (hs : Keeps b s0 s) :
    Keeps b s0 (State.endRuns s) := by
  unfold State.endRuns
  extract_lets -merge -underBinder x0
  have h1 : Keeps b s0 x0 := by
    refine State.each_keeps ?_ ?_
    · exact hs
    · intro _ _ h2
      split
      · refine State.leaveProof_keeps ?_
        exact h2
      · exact h2
  clear_value x0
  split
  · exact h1
  · extract_lets -merge -underBinder x3 x4
    try clear_value x3
    have h5 : Keeps b s0 x4 := by
      refine State.each_keeps ?_ ?_
      · exact h1
      · intro _ _ h6
        refine State.setFlag_keeps ?_
        refine State.setFlag_keeps ?_
        exact h6
    clear_value x4
    refine State.when_keeps ?_ ?_
    · exact h5
    · intro _ h7
      refine State.set_keeps ?_
      exact h7

theorem State.resetBlock_keeps {s : State} {p : Page} (hs : Keeps b s0 s) :
    Keeps b s0 (State.resetBlock s p) := by
  unfold State.resetBlock
  split
  · exact hs
  · exact hs
  · exact hs
  · exact hs
  · exact hs
  · refine State.withTime_keeps ?_ ?_
    · exact hs
    · exact fun _ _ => rfl
  · refine State.withTime_keeps ?_ ?_
    · exact hs
    · exact fun _ _ => rfl
  · refine State.showKeys_keeps ?_
    refine State.withSec_keeps ?_
    refine State.clearRange_keeps ?_
    exact hs
  · refine State.withLine_keeps ?_
    exact hs
  · refine State.showDrafts_keeps ?_
    refine State.withLoaf_keeps ?_
    exact hs
  · refine State.withKneader_keeps ?_
    exact hs
  · split
    · refine State.withRoleOf_keeps ?_
      exact hs
    · exact hs
  · refine State.withSwitch_keeps ?_
    exact hs
  · refine State.withSwitch_keeps ?_
    exact hs
  · refine State.withCan_keeps ?_
    exact hs
  · refine State.withMvb_keeps ?_
    exact hs
  · refine State.withTwin_keeps ?_
    exact hs
  · exact Keeps.congr hs rfl rfl rfl rfl (fun _ => rfl)
  · exact Keeps.congr hs rfl rfl rfl rfl (fun _ => rfl)
  · exact Keeps.congr hs rfl rfl rfl rfl (fun _ => rfl)
  · exact Keeps.congr hs rfl rfl rfl rfl (fun _ => rfl)
  · extract_lets -merge -underBinder x0
    have h1 : Keeps b s0 x0 := by
      refine State.endRuns_keeps ?_
      exact hs
    clear_value x0
    exact Keeps.congr h1 rfl rfl rfl rfl (fun _ => rfl)

theorem State.softReset_keeps {s : State} {p : Page} (hs : Keeps b s0 s) :
    Keeps b s0 (State.softReset s p) := by
  unfold State.softReset
  extract_lets -merge -underBinder x0 x1 x2 x3 x4 x5 x6 x7 x8 x9
  have h10 : Keeps b s0 x0 := by
    exact hs
  clear_value x0
  have h11 : Keeps b s0 x2 := by
    exact Keeps.congr hs rfl rfl rfl rfl (fun _ => rfl)
  clear_value x2
  have h12 : Keeps b s0 x3 := by
    refine State.set_keeps ?_
    refine State.set_keeps ?_
    refine State.set_keeps ?_
    exact h11
  clear_value x3
  have h13 : Keeps b s0 x4 := by
    refine State.set_keeps ?_
    refine State.set_keeps ?_
    refine State.set_keeps ?_
    exact h12
  clear_value x4
  have h14 : Keeps b s0 x5 := by
    refine Keeps.ite ?_ ?_
    · refine State.each_keeps ?_ ?_
      · exact h13
      · intro _ _ h15
        refine State.resetBlock_keeps ?_
        exact h15
    · refine State.resetBlock_keeps ?_
      exact h13
  clear_value x5
  have h16 : Keeps b s0 x6 := by
    refine State.clearPage_keeps ?_
    exact h14
  clear_value x6
  have h17 : Keeps b s0 x7 := by
    exact Keeps.congr h16 rfl rfl rfl rfl (fun _ => rfl)
  clear_value x7
  have h18 : Keeps b s0 x8 := by
    refine State.each_keeps ?_ ?_
    · exact h17
    · intro _ _ h19
      refine State.set_keeps ?_
      exact h19
  clear_value x8
  have h20 : Keeps b s0 x9 := by
    unfold x9
    split
    · split
      · refine State.showRole_keeps ?_
        exact h18
      · refine State.set_keeps ?_
        exact h18
    · exact h18
  clear_value x9
  refine State.settleHat_keeps ?_
  refine State.recheckLines_keeps ?_ ?_
  · exact h20
  · exact h10

theorem State.requestSoftReset_keeps {s : State} {p : Page} (hs : Keeps b s0 s) :
    Keeps b s0 (State.requestSoftReset s p) := by
  unfold State.requestSoftReset
  refine Keeps.ite ?_ ?_
  · exact hs
  · refine Keeps.ite ?_ ?_
    · refine State.refuse_keeps ?_
      exact hs
    · refine State.softReset_keeps ?_
      exact hs

theorem execSoftReset_keeps {p : Page} {s : State} (hs : Keeps b s0 s) :
    KeepsOut b s0 (execSoftReset p s) := by
  unfold execSoftReset
  refine Keeps.mk_out ?_
  refine State.requestSoftReset_keeps ?_
  exact hs

theorem State.resetDomain_keeps {s : State} {d : ℕ} (hs : Keeps b s0 s) :
    Keeps b s0 (State.resetDomain s d) := by
  unfold State.resetDomain
  extract_lets -merge -underBinder x0 x1 x2 x3 x4 x5 x6 x7
  have h8 : Keeps b s0 x0 := by
    exact hs
  clear_value x0
  have h9 : Keeps b s0 x1 := by
    refine State.each_keeps ?_ ?_
    · exact hs
    · intro _ _ h10
      extract_lets -merge -underBinder x11
      have h12 : Keeps b s0 x11 := by
        refine State.resetBlock_keeps ?_
        exact h10
      clear_value x11
      split
      · refine Keeps.ite ?_ ?_
        · refine State.clearPage_keeps ?_
          exact h12
        · refine State.clearPage_keeps ?_
          exact h12
      · extract_lets -merge -underBinder x13 x14 x15 x16
        try clear_value x13
        have h17 : Keeps b s0 x14 := by
          refine State.clearPage_keeps ?_
          exact h12
        clear_value x14
        have h18 : Keeps b s0 x15 := by
          refine State.set_keeps ?_
          refine State.set_keeps ?_
          refine State.set_keeps ?_
          exact h17
        clear_value x15
        have h19 : Keeps b s0 x16 := by
          refine State.set_keeps ?_
          exact h18
        clear_value x16
        split
        · refine State.showRole_keeps ?_
          refine State.withRoleOf_keeps ?_
          exact h19
        · refine State.set_keeps ?_
          exact h19
      · refine State.clearPage_keeps ?_
        exact h12
  clear_value x1
  have h20 : Keeps b s0 x2 := by
    refine State.each_keeps ?_ ?_
    · exact h9
    · intro _ _ h21
      refine State.when_keeps ?_ ?_
      · exact h21
      · intro _ h22
        refine State.setFlag_keeps ?_
        exact h22
  clear_value x2
  have h23 : Keeps b s0 x3 := by
    refine State.each_keeps ?_ ?_
    · exact h20
    · intro _ _ h24
      refine State.clearRange_keeps ?_
      exact h24
  clear_value x3
  have h25 : Keeps b s0 x4 := by
    refine State.when_keeps ?_ ?_
    · exact h23
    · intro _ h26
      exact Keeps.congr h26 rfl rfl rfl rfl (fun _ => rfl)
  clear_value x4
  have h27 : Keeps b s0 x5 := by
    refine State.when_keeps ?_ ?_
    · exact h25
    · intro _ h28
      exact Keeps.congr h28 rfl rfl rfl rfl (fun _ => rfl)
  clear_value x5
  have h29 : Keeps b s0 x6 := by
    refine State.when_keeps ?_ ?_
    · exact h27
    · intro _ h30
      exact Keeps.congr h30 rfl rfl rfl rfl (fun _ => rfl)
  clear_value x6
  have h31 : Keeps b s0 x7 := by
    refine State.when_keeps ?_ ?_
    · exact h29
    · intro _ h32
      refine State.each_keeps ?_ ?_
      · exact h32
      · intro _ _ h33
        refine State.setFlag_keeps ?_
        exact h33
  clear_value x7
  exact h31

theorem State.writePdCtrl_keeps {s : State} {v : ℕ} (hs : Keeps b s0 s) :
    Keeps b s0 (State.writePdCtrl s v) := by
  unfold State.writePdCtrl
  extract_lets -merge -underBinder x0 x1 x2 x3
  try clear_value x0
  have h4 : Keeps b s0 x3 := by
    refine State.each_keeps ?_ ?_
    · exact hs
    · intro _ _ h5
      refine Keeps.ite ?_ ?_
      · exact h5
      · extract_lets -merge -underBinder x6 x7 x8
        try clear_value x6
        try clear_value x8
        have h9 : Keeps b s0 x7 := by
          refine State.set_keeps ?_
          refine State.stampConfig_keeps ?_
          exact h5
        clear_value x7
        refine Keeps.ite ?_ ?_
        · exact Keeps.congr h9 rfl rfl rfl rfl (fun _ => rfl)
        · refine State.refuse_keeps ?_
          refine State.countRaise_keeps ?_
          exact h5
  clear_value x3
  refine State.setFlag_keeps ?_
  exact h4

theorem execPdCtrlWrite_keeps {v : BitVec 32} {s : State} (hs : Keeps b s0 s) :
    KeepsOut b s0 (execPdCtrlWrite v s) := by
  unfold execPdCtrlWrite
  refine Keeps.mk_out ?_
  refine State.writePdCtrl_keeps ?_
  exact hs

theorem State.showLocks_keeps {s : State} {d : ℕ} (hs : Keeps b s0 s) :
    Keeps b s0 (State.showLocks s d) := by
  unfold State.showLocks
  extract_lets -merge -underBinder x0
  have h1 : Keeps b s0 x0 := by
    refine State.setFlag_keeps ?_
    refine State.setFlag_keeps ?_
    exact hs
  clear_value x0
  split
  · refine State.setFlag_keeps ?_
    exact h1
  · refine State.setFlag_keeps ?_
    exact h1
  · refine State.setFlag_keeps ?_
    exact h1
  · refine State.setFlag_keeps ?_
    exact h1
  · refine State.setFlag_keeps ?_
    exact h1
  · exact h1

theorem State.completeSwitch_keeps {s : State} (hs : Keeps b s0 s) :
    Keeps b s0 (State.completeSwitch s) := by
  unfold State.completeSwitch
  refine Keeps.ite ?_ ?_
  · exact hs
  · split
    · exact hs
    · extract_lets -merge -underBinder x0 x1 x2 x3 x4 x5 x6 x7 x8 x9
      try clear_value x2
      have h10 : Keeps b s0 x0 := by
        exact hs
      clear_value x0
      have h11 : Keeps b s0 x1 := by
        refine State.resetDomain_keeps ?_
        exact hs
      clear_value x1
      have h12 : Keeps b s0 x3 := by
        exact Keeps.congr h11 rfl rfl rfl rfl (fun _ => rfl)
      clear_value x3
      have h13 : Keeps b s0 x4 := by
        refine State.set_keeps ?_
        exact h12
      clear_value x4
      have h14 : Keeps b s0 x5 := by
        refine State.when_keeps ?_ ?_
        · exact h13
        · intro _ h15
          refine State.showLocks_keeps ?_
          exact h15
      clear_value x5
      have h16 : Keeps b s0 x6 := by
        refine State.when_keeps ?_ ?_
        · exact h14
        · intro _ h17
          refine State.loadOtp_keeps ?_
          exact h17
      clear_value x6
      have h18 : Keeps b s0 x7 := by
        refine State.when_keeps ?_ ?_
        · exact h16
        · intro _ h19
          refine State.setFlag_keeps ?_
          exact h19
      clear_value x7
      have h20 : Keeps b s0 x8 := by
        refine State.setFlag_keeps ?_
        exact h18
      clear_value x8
      have h21 : Keeps b s0 x9 := by
        refine State.when_keeps ?_ ?_
        · exact h20
        · intro _ h22
          refine State.raise_keeps ?_
          exact h22
      clear_value x9
      refine State.recheckLines_keeps ?_ ?_
      · exact h21
      · exact h10

theorem execPdDone_keeps {s : State} (hs : Keeps b s0 s) :
    KeepsOut b s0 (execPdDone s) := by
  unfold execPdDone
  refine Keeps.mk_out ?_
  refine State.completeSwitch_keeps ?_
  exact hs

theorem execPowerOnReset_keeps {bootSrc : BitVec 2} {twinId : Bool} {s : State} (hs : Keeps false s0 s) :
    KeepsOut false s0 (execPowerOnReset bootSrc twinId s) := by
  unfold execPowerOnReset
  refine Keeps.mk_out ?_
  refine State.sampleStraps_keeps ?_
  refine State.fullReset_keeps ?_
  exact hs

theorem execResetN_keeps {bootSrc : BitVec 2} {twinId : Bool} {s : State} (hs : Keeps false s0 s) :
    KeepsOut false s0 (execResetN bootSrc twinId s) := by
  unfold execResetN
  refine Keeps.mk_out ?_
  refine State.sampleStraps_keeps ?_
  refine State.chipReset_keeps ?_
  exact hs

theorem execCoreReset_keeps {s : State} (hs : Keeps false s0 s) :
    KeepsOut false s0 (execCoreReset s) := by
  unfold execCoreReset
  refine Keeps.mk_out ?_
  extract_lets -merge -underBinder x0 x1
  try clear_value x1
  have h2 : Keeps false s0 x0 := by
    refine State.chipReset_keeps ?_
    exact hs
  clear_value x0
  exact Keeps.congr h2 rfl rfl rfl rfl (fun _ => rfl)

theorem execCoreResetEnd_keeps {bootSrc : BitVec 2} {twinId : Bool} {s : State} (hs : Keeps b s0 s) :
    KeepsOut b s0 (execCoreResetEnd bootSrc twinId s) := by
  unfold execCoreResetEnd
  refine Keeps.mk_out ?_
  refine Keeps.ite ?_ ?_
  · refine State.sampleStraps_keeps ?_
    exact Keeps.congr hs rfl rfl rfl rfl (fun _ => rfl)
  · exact hs

theorem State.writeChipRst_keeps {s : State} {v : ℕ} (hs : Keeps false s0 s) :
    Keeps false s0 (State.writeChipRst s v) := by
  unfold State.writeChipRst
  refine Keeps.ite ?_ ?_
  · refine State.chipReset_keeps ?_
    exact hs
  · exact hs

theorem execChipRst_keeps {v : BitVec 16} {s : State} (hs : Keeps false s0 s) :
    KeepsOut false s0 (execChipRst v s) := by
  unfold execChipRst
  refine Keeps.mk_out ?_
  refine State.writeChipRst_keeps ?_
  exact hs

theorem State.clearFaultLatch_keeps {s : State} (hs : Keeps b s0 s) :
    Keeps b s0 (State.clearFaultLatch s) := by
  unfold State.clearFaultLatch
  extract_lets -merge -underBinder x0
  have h1 : Keeps b s0 x0 := by
    refine State.clearBits_keeps ?_
    exact hs
  clear_value x0
  refine Keeps.ite ?_ ?_
  · exact h1
  · refine State.each_keeps ?_ ?_
    · exact h1
    · intro _ _ h2
      refine State.set_keeps ?_
      exact h2

theorem execFaultLatchClear_keeps {s : State} (hs : Keeps b s0 s) :
    KeepsOut b s0 (execFaultLatchClear s) := by
  unfold execFaultLatchClear
  refine Keeps.mk_out ?_
  refine State.clearFaultLatch_keeps ?_
  exact hs

/-! Machine/Drafts.lean. -/

theorem State.atDraft_keeps {s : State} {who : Requester} {c : Line} {d : ℕ} {f : Line → State → State} (hs : Keeps b s0 s)
    (hf : ∀ y0 y1, Keeps b s0 y1 → Keeps b s0 (f y0 y1)) :
    Keeps b s0 (State.atDraft s who c d f) := by
  unfold State.atDraft
  split
  · split
    · refine State.each_keeps ?_ ?_
      · exact hs
      · intro _ _ h0
        refine hf _ _ ?_
        exact h0
    · refine hf _ _ ?_
      exact hs
  · refine State.draftError_keeps ?_
    exact hs
  · refine State.count_keeps ?_
    exact hs
  · exact hs

theorem State.requestOpen_keeps {s : State} {who : Requester} {c : Line} {d : ℕ} (hs : Keeps b s0 s) :
    Keeps b s0 (State.requestOpen s who c d) := by
  unfold State.requestOpen
  refine State.atDraft_keeps ?_ ?_
  · exact hs
  · intro _ _ h0
    extract_lets -merge -underBinder x1 x2
    have h3 : Keeps b s0 x2 := by
      refine State.openDraft_keeps ?_
      exact h0
    clear_value x2
    refine Keeps.ite ?_ ?_
    · exact h3
    · refine State.each_keeps ?_ ?_
      · exact h3
      · intro _ _ h4
        refine State.withDraft_keeps ?_
        exact h4

theorem State.requestCommit_keeps {s : State} {who : Requester} {c : Line} {d : ℕ} {ready : Bool} {doubtful : Bool} (hs : Keeps b s0 s) :
    Keeps b s0 (State.requestCommit s who c d ready doubtful) := by
  unfold State.requestCommit
  refine State.atDraft_keeps ?_ ?_
  · exact hs
  · intro _ _ h0
    refine State.commitDraft_keeps ?_
    exact h0

theorem State.requestAbort_keeps {s : State} {who : Requester} {c : Line} {d : ℕ} (hs : Keeps b s0 s) :
    Keeps b s0 (State.requestAbort s who c d) := by
  unfold State.requestAbort
  refine State.atDraft_keeps ?_ ?_
  · exact hs
  · intro _ _ h0
    refine State.abortDraft_keeps ?_
    exact h0

theorem State.requestData_keeps {s : State} {who : Requester} {c : Line} {d : ℕ} {data : List (ℕ × Byte)} (hs : Keeps b s0 s) :
    Keeps b s0 (State.requestData s who c d data) := by
  unfold State.requestData
  refine State.atDraft_keeps ?_ ?_
  · exact hs
  · intro _ _ h0
    refine State.writeDraft_keeps ?_
    exact h0

theorem State.requestControl_keeps {s : State} {who : Requester} {c : Line} {d : ℕ} {v : ℕ} {whole : Bool} (hs : Keeps b s0 s) :
    Keeps b s0 (State.requestControl s who c d v whole) := by
  unfold State.requestControl
  refine Keeps.ite ?_ ?_
  · refine State.atDraft_keeps ?_ ?_
    · exact hs
    · intro _ _ h0
      refine State.draftError_keeps ?_
      exact h0
  · split
    · refine State.requestOpen_keeps ?_
      exact hs
    · refine State.requestCommit_keeps ?_
      exact hs
    · refine State.requestAbort_keeps ?_
      exact hs
    · refine State.atDraft_keeps ?_ ?_
      · exact hs
      · intro _ _ h1
        refine State.when_keeps ?_ ?_
        · exact h1
        · intro _ h2
          refine State.count_keeps ?_
          exact h2

theorem execDraftOpen_keeps {who : Requester} {c : Line} {d : BitVec 3} {s : State} (hs : Keeps b s0 s) :
    KeepsOut b s0 (execDraftOpen who c d s) := by
  unfold execDraftOpen
  refine Keeps.mk_out ?_
  refine Keeps.ite ?_ ?_
  · refine State.requestOpen_keeps ?_
    exact hs
  · exact hs

theorem execDraftCommit_keeps {who : Requester} {c : Line} {d : BitVec 3} {ready : Bool} {doubtful : Bool} {s : State} (hs : Keeps b s0 s) :
    KeepsOut b s0 (execDraftCommit who c d ready doubtful s) := by
  unfold execDraftCommit
  refine Keeps.mk_out ?_
  refine Keeps.ite ?_ ?_
  · refine State.requestCommit_keeps ?_
    exact hs
  · exact hs

theorem execDraftAbort_keeps {who : Requester} {c : Line} {d : BitVec 3} {s : State} (hs : Keeps b s0 s) :
    KeepsOut b s0 (execDraftAbort who c d s) := by
  unfold execDraftAbort
  refine Keeps.mk_out ?_
  refine Keeps.ite ?_ ?_
  · refine State.requestAbort_keeps ?_
    exact hs
  · exact hs

theorem execDraftDataWrite_keeps {who : Requester} {c : Line} {d : BitVec 3} {data : List (BitVec 12 × Byte)} {s : State}
    (hs : Keeps b s0 s) :
    KeepsOut b s0 (execDraftDataWrite who c d data s) := by
  unfold execDraftDataWrite
  refine Keeps.mk_out ?_
  refine Keeps.ite ?_ ?_
  · refine State.requestData_keeps ?_
    exact hs
  · exact hs

theorem execDraftExpired_keeps {c : Line} {d : BitVec 3} {s : State} (hs : Keeps b s0 s) :
    KeepsOut b s0 (execDraftExpired c d s) := by
  unfold execDraftExpired
  refine Keeps.mk_out ?_
  refine Keeps.ite ?_ ?_
  · refine State.expireDraft_keeps ?_
    exact hs
  · exact hs

/-! Machine/PageOps.lean. -/

theorem State.refuseIf_keeps {s : State} {p : Page} {bad : Bool} (hs : Keeps b s0 s) :
    Keeps b s0 (State.refuseIf s p bad) := by
  unfold State.refuseIf
  refine Keeps.ite ?_ ?_
  · refine State.refuse_keeps ?_
    exact hs
  · exact hs

theorem State.writeFields_keeps {s : State} {p : Page} {addr : ℕ} {v : ℕ} (hs : Keeps b s0 s) :
    Keeps b s0 (State.writeFields s p addr v) := by
  unfold State.writeFields
  extract_lets -merge -underBinder x0 x1 x2 x3 x4 x5
  try clear_value x0
  try clear_value x1
  try clear_value x3
  have h6 : Keeps b s0 x2 := by
    refine State.each_keeps ?_ ?_
    · exact hs
    · intro _ _ h7
      split
      · refine State.set_keeps ?_
        exact h7
      · refine Keeps.ite ?_ ?_
        · exact h7
        · refine State.set_keeps ?_
          exact h7
      · refine State.clearBits_keeps ?_
        exact h7
      · refine State.set_keeps ?_
        exact h7
      · exact h7
  clear_value x2
  have h8 : Keeps b s0 x4 := by
    exact Keeps.congr h6 rfl rfl rfl rfl (fun _ => rfl)
  clear_value x4
  have h9 : Keeps b s0 x5 := by
    refine State.refuseIf_keeps ?_
    exact h8
  clear_value x5
  refine Keeps.ite ?_ ?_
  · refine State.stampConfig_keeps ?_
    exact h9
  · exact h9

theorem State.clearRc_keeps {s : State} {p : Page} {addr : ℕ} (hs : Keeps b s0 s) :
    Keeps b s0 (State.clearRc s p addr) := by
  unfold State.clearRc
  refine State.each_keeps ?_ ?_
  · exact hs
  · intro _ _ h0
    refine State.clearField_keeps ?_
    exact h0

theorem State.writeLockKey_keeps {s : State} {p : Page} {v : ℕ} (hs : Keeps b s0 s) :
    Keeps b s0 (State.writeLockKey s p v) := by
  unfold State.writeLockKey
  refine Keeps.ite ?_ ?_
  · exact hs
  · refine Keeps.ite ?_ ?_
    · extract_lets -merge -underBinder x0
      have h1 : Keeps b s0 x0 := by
        refine State.when_keeps ?_ ?_
        · exact hs
        · intro _ h2
          exact Keeps.congr h2 rfl rfl rfl rfl (fun _ => rfl)
      clear_value x0
      refine State.setFlag_keeps ?_
      exact h1
    · refine State.refuse_keeps ?_
      exact hs

theorem State.setLock_keeps {s : State} {p : Page} (hs : Keeps b s0 s) :
    Keeps b s0 (State.setLock s p) := by
  unfold State.setLock
  extract_lets -merge -underBinder x0 x1 x2 x3
  try clear_value x0
  try clear_value x1
  have h4 : Keeps b s0 x2 := by
    exact Keeps.congr hs rfl rfl rfl rfl (fun _ => rfl)
  clear_value x2
  have h5 : Keeps b s0 x3 := by
    refine State.refuseIf_keeps ?_
    refine State.each_keeps ?_ ?_
    · exact h4
    · intro _ _ h6
      refine State.set_keeps ?_
      exact h6
  clear_value x3
  refine State.setFlag_keeps ?_
  exact h5

theorem State.lockAll_keeps {s : State} (hs : Keeps b s0 s) :
    Keeps b s0 (State.lockAll s) := by
  unfold State.lockAll
  refine State.each_keeps ?_ ?_
  · exact hs
  · intro _ _ h0
    refine State.setLock_keeps ?_
    exact h0

theorem State.clearInt_keeps {s : State} {p : Page} {v : ℕ} (hs : Keeps b s0 s) :
    Keeps b s0 (State.clearInt s p v) := by
  unfold State.clearInt
  refine State.clearBits_keeps ?_
  exact hs

theorem State.setInt__keeps {s : State} {p : Page} {v : ℕ} (hs : Keeps b s0 s) :
    Keeps b s0 (State.setInt_ s p v) := by
  unfold State.setInt_
  refine State.set_keeps ?_
  exact hs

theorem State.writePageCtrl_keeps {s : State} {p : Page} {v : ℕ} (hs : Keeps b s0 s) :
    Keeps b s0 (State.writePageCtrl s p v) := by
  unfold State.writePageCtrl
  extract_lets -merge -underBinder x0 x1 x2 x3 x4 x5 x6
  try clear_value x2
  try clear_value x3
  have h7 : Keeps b s0 x0 := by
    exact hs
  clear_value x0
  have h8 : Keeps b s0 x1 := by
    refine Keeps.ite ?_ ?_
    · exact hs
    · refine State.setFlag_keeps ?_
      exact hs
  clear_value x1
  have h9 : Keeps b s0 x4 := by
    refine Keeps.ite ?_ ?_
    · refine State.refuseIf_keeps ?_
      exact h8
    · refine State.setFlag_keeps ?_
      exact h8
  clear_value x4
  have h10 : Keeps b s0 x5 := by
    refine State.when_keeps ?_ ?_
    · exact h9
    · intro _ h11
      refine State.setLock_keeps ?_
      exact h11
  clear_value x5
  have h12 : Keeps b s0 x6 := by
    refine State.when_keeps ?_ ?_
    · exact h10
    · intro _ h13
      refine Keeps.ite ?_ ?_
      · refine State.refuse_keeps ?_
        exact h13
      · refine State.softReset_keeps ?_
        exact h13
  clear_value x6
  refine State.recheckLines_keeps ?_ ?_
  · exact h12
  · exact h7

theorem State.writeHeader_keeps {s : State} {p : Page} {off : ℕ} {v : ℕ} (hs : Keeps b s0 s) :
    Keeps b s0 (State.writeHeader s p off v) := by
  unfold State.writeHeader
  split
  · refine State.writePageCtrl_keeps ?_
    exact hs
  · refine State.clearInt_keeps ?_
    exact hs
  · refine State.set_keeps ?_
    exact hs
  · refine State.setInt__keeps ?_
    exact hs
  · refine State.writeLockKey_keeps ?_
    exact hs
  · exact hs

theorem State.writeEngBlock_keeps {s : State} {c : Line} {i : ℕ} {off : ℕ} {v : ℕ} (hs : Keeps b s0 s) :
    Keeps b s0 (State.writeEngBlock s c i off v) := by
  unfold State.writeEngBlock
  extract_lets -merge -underBinder x0
  try clear_value x0
  split
  · extract_lets -merge -underBinder x1 x2 x3
    try clear_value x1
    have h4 : Keeps b s0 x2 := by
      refine State.when_keeps ?_ ?_
      · exact hs
      · intro _ h5
        refine State.stampConfig_keeps ?_
        exact h5
    clear_value x2
    have h6 : Keeps b s0 x3 := by
      refine State.writeRun_keeps ?_
      exact h4
    clear_value x3
    refine Keeps.ite ?_ ?_
    · refine State.writeWarm_keeps ?_
      exact h6
    · exact h6
  · refine Keeps.ite ?_ ?_
    · refine State.count_keeps ?_
      exact hs
    · extract_lets -merge -underBinder x7
      have h8 : Keeps b s0 x7 := by
        refine Keeps.ite ?_ ?_
        · refine State.inDb_keeps ?_
          exact hs
        · exact hs
      clear_value x7
      refine Keeps.ite ?_ ?_
      · refine State.outAck_keeps ?_
        exact h8
      · exact h8
  · refine Keeps.ite ?_ ?_
    · refine State.writeMboxIn_keeps ?_
      exact hs
    · refine State.writeFields_keeps ?_
      exact hs

theorem State.writeEngPage_keeps {s : State} {c : Line} {i : ℕ} {off : ℕ} {v : ℕ} (hs : Keeps b s0 s) :
    Keeps b s0 (State.writeEngPage s c i off v) := by
  unfold State.writeEngPage
  refine Keeps.ite ?_ ?_
  · refine State.writeHeader_keeps ?_
    exact hs
  · refine State.writeEngBlock_keeps ?_
    exact hs

theorem State.onPage_keeps {s : State} {p : Page} {f : State → State} (hs : Keeps b s0 s) (hf : ∀ y0, Keeps b s0 y0 → Keeps b s0 (f y0)) :
    Keeps b s0 (State.onPage s p f) := by
  unfold State.onPage
  refine Keeps.ite ?_ ?_
  · refine hf _ ?_
    exact hs
  · exact hs

theorem execLockKey_keeps {p : Page} {v : BitVec 16} {s : State} (hs : Keeps b s0 s) :
    KeepsOut b s0 (execLockKey p v s) := by
  unfold execLockKey
  refine Keeps.mk_out ?_
  refine State.onPage_keeps ?_ ?_
  · exact hs
  · intro _ h0
    refine State.writeLockKey_keeps ?_
    exact h0

theorem execCfgLock_keeps {p : Page} {s : State} (hs : Keeps b s0 s) :
    KeepsOut b s0 (execCfgLock p s) := by
  unfold execCfgLock
  refine Keeps.mk_out ?_
  refine State.onPage_keeps ?_ ?_
  · exact hs
  · intro _ h0
    refine State.setLock_keeps ?_
    exact h0

theorem execLockAll_keeps {s : State} (hs : Keeps b s0 s) :
    KeepsOut b s0 (execLockAll s) := by
  unfold execLockAll
  refine Keeps.mk_out ?_
  refine State.lockAll_keeps ?_
  exact hs

theorem execSticky_keeps {s : State} (hs : Keeps b s0 s) :
    KeepsOut b s0 (execSticky s) := by
  unfold execSticky
  refine Keeps.mk_out ?_
  refine State.setFlag_keeps ?_
  exact hs

theorem execIntRawClear_keeps {p : Page} {v : Word} {s : State} (hs : Keeps b s0 s) :
    KeepsOut b s0 (execIntRawClear p v s) := by
  unfold execIntRawClear
  refine Keeps.mk_out ?_
  refine State.onPage_keeps ?_ ?_
  · exact hs
  · intro _ h0
    refine State.clearInt_keeps ?_
    exact h0

theorem execIntSet_keeps {p : Page} {v : Word} {s : State} (hs : Keeps b s0 s) :
    KeepsOut b s0 (execIntSet p v s) := by
  unfold execIntSet
  refine Keeps.mk_out ?_
  refine State.onPage_keeps ?_ ?_
  · exact hs
  · intro _ h0
    refine State.setInt__keeps ?_
    exact h0

/-! Machine/Proof.lean. -/

theorem State.applyQueued_keeps {s : State} {q : List (Line × ℕ × ℕ × ℕ)} (hs : Keeps b s0 s) :
    Keeps b s0 (State.applyQueued s q) := by
  unfold State.applyQueued
  refine State.each_keeps ?_ ?_
  · exact hs
  · intro _ _ h0
    refine State.writeEngPage_keeps ?_
    exact h0

theorem State.abortProof_keeps {s : State} {t : ℕ} {cause : ℕ} (hs : Keeps b s0 s) :
    Keeps b s0 (State.abortProof s t cause) := by
  unfold State.abortProof
  refine State.applyQueued_keeps ?_
  refine State.abortRun_keeps ?_
  exact hs

theorem State.abortInService_keeps {s : State} {cause : ℕ} (hs : Keeps b s0 s) :
    Keeps b s0 (State.abortInService s cause) := by
  unfold State.abortInService
  refine State.each_keeps ?_ ?_
  · exact hs
  · intro _ _ h0
    refine State.abortProof_keeps ?_
    exact h0

theorem State.showEngine_keeps {s : State} {c : Line} {i : ℕ} (hs : Keeps b s0 s) :
    Keeps b s0 (State.showEngine s c i) := by
  unfold State.showEngine
  refine Keeps.ite ?_ ?_
  · refine State.set_keeps ?_
    exact hs
  · split
    · refine State.showRole_keeps ?_
      refine State.set_keeps ?_
      exact hs
    · refine State.set_keeps ?_
      exact hs

theorem State.endMaint_keeps {s : State} {result : ℕ} {cause : ℕ} (hs : Keeps b s0 s) :
    Keeps b s0 (State.endMaint s result cause) := by
  unfold State.endMaint
  split
  · exact hs
  · extract_lets -merge -underBinder x0 x1 x2 x3 x4
    try clear_value x0
    have h5 : Keeps b s0 x1 := by
      exact Keeps.congr hs rfl rfl rfl rfl (fun _ => rfl)
    clear_value x1
    have h6 : Keeps b s0 x2 := by
      refine State.each_keeps ?_ ?_
      · refine State.setFlag_keeps ?_
        exact h5
      · intro _ _ h7
        refine State.setFlag_keeps ?_
        exact h7
    clear_value x2
    have h8 : Keeps b s0 x3 := by
      refine State.when_keeps ?_ ?_
      · exact h6
      · intro _ h9
        refine State.showEngine_keeps ?_
        refine State.setFlag_keeps ?_
        exact h9
    clear_value x3
    have h10 : Keeps b s0 x4 := by
      refine State.applyQueued_keeps ?_
      exact h8
    clear_value x4
    refine State.writeResult_keeps ?_
    exact h10

theorem State.abortMaint_keeps {s : State} {cause : ℕ} (hs : Keeps b s0 s) :
    Keeps b s0 (State.abortMaint s cause) := by
  unfold State.abortMaint
  split
  · exact hs
  · refine Keeps.ite ?_ ?_
    · exact hs
    · refine State.raise_keeps ?_
      refine State.count_keeps ?_
      refine State.endMaint_keeps ?_
      exact hs

theorem State.excursion_keeps {s : State} {cause : ℕ} (hs : Keeps b s0 s) :
    Keeps b s0 (State.excursion s cause) := by
  unfold State.excursion
  refine State.abortMaint_keeps ?_
  refine State.abortInService_keeps ?_
  exact hs

theorem State.classDE_keeps {s : State} {p : Page} {cell : ℕ} {cause : ℕ} {word : ℕ} (hs : Keeps b s0 s) :
    Keeps b s0 (State.classDE s p cell cause word) := by
  unfold State.classDE
  refine State.recordError_keeps ?_
  refine State.raise_keeps ?_
  refine State.count_keeps ?_
  exact hs

theorem State.dropSpare_keeps {s : State} {c : Line} (hs : Keeps b s0 s) :
    Keeps b s0 (State.dropSpare s c) := by
  unfold State.dropSpare
  refine State.showMap_keeps ?_
  exact hs

theorem State.failEngine_keeps {s : State} {c : Line} {i : ℕ} {cause : ℕ} {word : ℕ} {poisoned : ℕ} {lost : Bool} (hs : Keeps b s0 s) :
    Keeps b s0 (State.failEngine s c i cause word poisoned lost) := by
  unfold State.failEngine
  refine Keeps.ite ?_ ?_
  · exact hs
  · extract_lets -merge -underBinder x0 x1 x2 x3
    try clear_value x0
    try clear_value x1
    have h4 : Keeps b s0 x2 := by
      refine State.setFlag_keeps ?_
      refine State.classDE_keeps ?_
      exact hs
    clear_value x2
    have h5 : Keeps b s0 x3 := by
      refine State.set_keeps ?_
      exact h4
    clear_value x3
    split
    · refine State.dropSpare_keeps ?_
      exact h5
    · extract_lets -merge -underBinder x6 x7 x8
      have h9 : Keeps b s0 x6 := by
        refine State.abortProof_keeps ?_
        exact h5
      clear_value x6
      have h10 : Keeps b s0 x7 := by
        exact Keeps.congr h9 rfl rfl rfl rfl (fun _ => rfl)
      clear_value x7
      have h11 : Keeps b s0 x8 := by
        refine State.withRole_keeps ?_
        exact h10
      clear_value x8
      split
      · refine State.set_keeps ?_
        exact h11
      · exact h11

theorem State.failLane_keeps {s : State} {c : Line} {lane : ℕ} {cause : ℕ} {word : ℕ} (hs : Keeps b s0 s) :
    Keeps b s0 (State.failLane s c lane cause word) := by
  unfold State.failLane
  extract_lets -merge -underBinder x0 x1 x2 x3 x4 x5
  try clear_value x0
  try clear_value x1
  try clear_value x2
  try clear_value x3
  have h6 : Keeps b s0 x4 := by
    refine State.classDE_keeps ?_
    exact hs
  clear_value x4
  have h7 : Keeps b s0 x5 := by
    refine State.abortProof_keeps ?_
    refine State.setFlag_keeps ?_
    exact h6
  clear_value x5
  refine Keeps.ite ?_ ?_
  · exact hs
  · refine State.loseLane_keeps ?_
    exact h7

theorem State.failCrypto_keeps {s : State} {i : ℕ} {cause : ℕ} {word : ℕ} (hs : Keeps b s0 s) :
    Keeps b s0 (State.failCrypto s i cause word) := by
  unfold State.failCrypto
  refine Keeps.ite ?_ ?_
  · exact hs
  · extract_lets -merge -underBinder x0 x1
    have h2 : Keeps b s0 x0 := by
      refine State.classDE_keeps ?_
      exact hs
    clear_value x0
    have h3 : Keeps b s0 x1 := by
      refine State.abortProof_keeps ?_
      refine State.setFlag_keeps ?_
      exact h2
    clear_value x1
    refine State.withSec_keeps ?_
    exact h3

theorem State.takeSpareCore_keeps {s : State} (hs : Keeps b s0 s) :
    Keeps b s0 (State.takeSpareCore s) := by
  unfold State.takeSpareCore
  refine State.withSec_keeps ?_
  exact hs

theorem State.isolateEngine_keeps {s : State} {c : Line} {i : ℕ} (hs : Keeps b s0 s) :
    Keeps b s0 (State.isolateEngine s c i) := by
  unfold State.isolateEngine
  extract_lets -merge -underBinder x0
  have h1 : Keeps b s0 x0 := by
    refine State.set_keeps ?_
    refine State.setFlag_keeps ?_
    exact hs
  clear_value x0
  split
  · refine Keeps.ite ?_ ?_
    · refine State.spareTakes_keeps ?_
      exact h1
    · refine State.loseRole_keeps ?_
      exact h1
  · refine State.dropSpare_keeps ?_
    exact h1

theorem State.isolateLane_keeps {s : State} {c : Line} {lane : ℕ} (hs : Keeps b s0 s) :
    Keeps b s0 (State.isolateLane s c lane) := by
  unfold State.isolateLane
  refine State.takeSpareLanes_keeps ?_
  refine State.loseLaneAt_keeps ?_
  refine State.setFlag_keeps ?_
  exact hs

theorem State.isolateCrypto_keeps {s : State} {i : ℕ} (hs : Keeps b s0 s) :
    Keeps b s0 (State.isolateCrypto s i) := by
  unfold State.isolateCrypto
  refine State.withSec_keeps ?_
  refine State.setFlag_keeps ?_
  exact hs

theorem State.showTarget_keeps {s : State} {t : ℕ} {cell : ℕ} (hs : Keeps b s0 s) :
    Keeps b s0 (State.showTarget s t cell) := by
  unfold State.showTarget
  split
  · refine State.set_keeps ?_
    exact hs
  · refine State.set_keeps ?_
    exact hs
  · exact hs

theorem State.startRun_keeps {s : State} {t : ℕ} {cell : ℕ} (hs : Keeps b s0 s) :
    Keeps b s0 (State.startRun s t cell) := by
  unfold State.startRun
  extract_lets -merge -underBinder x0 x1 x2
  try clear_value x0
  have h3 : Keeps b s0 x1 := by
    refine State.setFlag_keeps ?_
    refine State.set_keeps ?_
    exact hs
  clear_value x1
  have h4 : Keeps b s0 x2 := by
    refine State.when_keeps ?_ ?_
    · exact h3
    · intro _ h5
      refine State.set_keeps ?_
      exact h5
  clear_value x2
  refine State.withRotation_keeps ?_
  refine State.showTarget_keeps ?_
  exact h4

theorem State.proofStart_keeps {s : State} {t : ℕ} (hs : Keeps b s0 s) :
    Keeps b s0 (State.proofStart s t) := by
  unfold State.proofStart
  refine Keeps.ite ?_ ?_
  · split
    · refine Keeps.ite ?_ ?_
      · exact hs
      · refine Keeps.ite ?_ ?_
        · exact Keeps.congr hs rfl rfl rfl rfl (fun _ => rfl)
        · refine State.count_keeps ?_
          exact hs
    · exact hs
  · refine Keeps.ite ?_ ?_
    · exact hs
    · refine Keeps.ite ?_ ?_
      · refine State.count_keeps ?_
        exact hs
      · refine State.each_keeps ?_ ?_
        · exact hs
        · intro _ _ h0
          split
          · refine State.startRun_keeps ?_
            exact h0
          · exact h0

theorem execProofRunStart_keeps {t : BitVec 3} {s : State} (hs : Keeps b s0 s) :
    KeepsOut b s0 (execProofRunStart t s) := by
  unfold execProofRunStart
  refine Keeps.mk_out ?_
  refine State.proofStart_keeps ?_
  exact hs

theorem State.showSignature_keeps {s : State} {sig : BitVec 128} (hs : Keeps b s0 s) :
    Keeps b s0 (State.showSignature s sig) := by
  unfold State.showSignature
  refine State.each_keeps ?_ ?_
  · exact hs
  · intro _ _ h0
    refine State.set_keeps ?_
    exact h0

theorem State.isolateSpare_keeps {s : State} {t : ℕ} {cell : ℕ} (hs : Keeps b s0 s) :
    Keeps b s0 (State.isolateSpare s t cell) := by
  unfold State.isolateSpare
  extract_lets -merge -underBinder x0 x1 x2
  try clear_value x0
  have h3 : Keeps b s0 x1 := by
    refine State.setFlag_keeps ?_
    exact hs
  clear_value x1
  have h4 : Keeps b s0 x2 := by
    refine State.countRaise_keeps ?_
    exact h3
  clear_value x2
  refine Keeps.ite ?_ ?_
  · refine State.set_keeps ?_
    refine State.dropSpare_keeps ?_
    exact h4
  · refine Keeps.ite ?_ ?_
    · refine State.withKneader_keeps ?_
      refine State.setFlag_keeps ?_
      exact h4
    · refine State.withSec_keeps ?_
      exact h4

theorem State.failMaint_keeps {s : State} {m : Maintenance} (hs : Keeps b s0 s) :
    Keeps b s0 (State.failMaint s m) := by
  unfold State.failMaint
  extract_lets -merge -underBinder x0
  have h1 : Keeps b s0 x0 := by
    refine State.countRaise_keeps ?_
    exact hs
  clear_value x0
  split
  · refine State.isolateEngine_keeps ?_
    exact h1
  · refine State.isolateLane_keeps ?_
    exact h1
  · refine State.isolateCrypto_keeps ?_
    exact h1
  · refine State.each_keeps ?_ ?_
    · exact h1
    · intro _ _ h2
      refine State.setFlag_keeps ?_
      exact h2

theorem State.patternsDone_keeps {s : State} {t : ℕ} {sig : BitVec 128} (hs : Keeps b s0 s) :
    Keeps b s0 (State.patternsDone s t sig) := by
  unfold State.patternsDone
  refine Keeps.ite ?_ ?_
  · split
    · refine Keeps.ite ?_ ?_
      · exact hs
      · extract_lets -merge -underBinder x0 x1 x2 x3 x4 x5
        try clear_value x0
        try clear_value x3
        try clear_value x4
        try clear_value x5
        have h6 : ∀ (y0 : State) (y1 : Maintenance), Keeps b s0 y0 → Keeps b s0 (x1 y0 y1) := by
          intro _ _ h7
          exact Keeps.congr h7 rfl rfl rfl rfl (fun _ => rfl)
        clear_value x1
        have h8 : Keeps b s0 x2 := by
          refine State.showSignature_keeps ?_
          exact hs
        clear_value x2
        refine Keeps.ite ?_ ?_
        · refine h6 _ _ ?_
          exact h8
        · refine Keeps.ite ?_ ?_
          · refine h6 _ _ ?_
            exact h8
          · refine h6 _ _ ?_
            refine State.failMaint_keeps ?_
            exact h8
    · exact hs
  · split
    · refine Keeps.ite ?_ ?_
      · exact hs
      · extract_lets -merge -underBinder x9
        have h10 : Keeps b s0 x9 := by
          refine State.showSignature_keeps ?_
          exact hs
        clear_value x9
        refine Keeps.ite ?_ ?_
        · refine State.withRotation_keeps ?_
          exact h10
        · refine Keeps.ite ?_ ?_
          · refine State.withRotation_keeps ?_
            exact h10
          · refine State.withRotation_keeps ?_
            refine State.isolateSpare_keeps ?_
            exact h10
    · exact hs

theorem execProofPatternsDone_keeps {t : BitVec 3} {sig : BitVec 128} {s : State} (hs : Keeps b s0 s) :
    KeepsOut b s0 (execProofPatternsDone t sig s) := by
  unfold execProofPatternsDone
  refine Keeps.mk_out ?_
  refine State.patternsDone_keeps ?_
  exact hs

theorem State.restoreRun_keeps {s : State} {t : ℕ} (hs : Keeps b s0 s) :
    Keeps b s0 (State.restoreRun s t) := by
  unfold State.restoreRun
  split
  · split
    · extract_lets -merge -underBinder x0 x1 x2 x3 x4
      try clear_value x0
      try clear_value x1
      have h5 : Keeps b s0 x2 := by
        refine State.leaveProof_keeps ?_
        exact hs
      clear_value x2
      have h6 : Keeps b s0 x3 := by
        refine State.withRotation_keeps ?_
        exact h5
      clear_value x3
      have h7 : Keeps b s0 x4 := by
        refine State.writeResult_keeps ?_
        refine State.showTarget_keeps ?_
        exact h6
      clear_value x4
      refine State.applyQueued_keeps ?_
      refine State.when_keeps ?_ ?_
      · exact h7
      · intro _ h8
        refine State.count_keeps ?_
        exact h8
    · exact hs
  · exact hs

theorem State.proofRestore_keeps {s : State} {t : ℕ} (hs : Keeps b s0 s) :
    Keeps b s0 (State.proofRestore s t) := by
  unfold State.proofRestore
  refine Keeps.ite ?_ ?_
  · split
    · split
      · refine State.count_keeps ?_
        refine State.endMaint_keeps ?_
        exact hs
      · refine State.endMaint_keeps ?_
        exact hs
      · exact hs
    · exact hs
  · refine Keeps.ite ?_ ?_
    · refine State.restoreRun_keeps ?_
      exact hs
    · exact hs

theorem execProofRestore_keeps {t : BitVec 3} {s : State} (hs : Keeps b s0 s) :
    KeepsOut b s0 (execProofRestore t s) := by
  unfold execProofRestore
  refine Keeps.mk_out ?_
  refine State.proofRestore_keeps ?_
  exact hs

theorem State.rotated_keeps {s : State} {t : ℕ} (hs : Keeps b s0 s) :
    Keeps b s0 (State.rotated s t) := by
  unfold State.rotated
  extract_lets -merge -underBinder x0 x1
  try clear_value x0
  have h2 : Keeps b s0 x1 := by
    refine State.withRotation_keeps ?_
    exact hs
  clear_value x1
  refine State.when_keeps ?_ ?_
  · exact h2
  · intro _ h3
    refine State.countRaise_keeps ?_
    exact h3

theorem State.proofExpiry_keeps {s : State} {t : ℕ} (hs : Keeps b s0 s) :
    Keeps b s0 (State.proofExpiry s t) := by
  unfold State.proofExpiry
  refine Keeps.ite ?_ ?_
  · exact hs
  · split
    · exact hs
    · split
      · exact hs
      · extract_lets -merge -underBinder x0
        have h1 : Keeps b s0 x0 := by
          refine State.withRotation_keeps ?_
          refine State.showTarget_keeps ?_
          exact hs
        clear_value x0
        refine Keeps.ite ?_ ?_
        · refine State.rotated_keeps ?_
          refine State.withSec_keeps ?_
          exact h1
        · exact h1

theorem execProofIntervalExpiry_keeps {t : BitVec 3} {s : State} (hs : Keeps b s0 s) :
    KeepsOut b s0 (execProofIntervalExpiry t s) := by
  unfold execProofIntervalExpiry
  refine Keeps.mk_out ?_
  refine State.each_keeps ?_ ?_
  · exact hs
  · intro _ _ h0
    refine State.proofExpiry_keeps ?_
    exact h0

theorem State.tickProof_keeps {s : State} (hs : Keeps b s0 s) :
    Keeps b s0 (State.tickProof s) := by
  unfold State.tickProof
  refine State.each_keeps ?_ ?_
  · exact hs
  · intro _ _ h0
    extract_lets -merge -underBinder x1
    have h2 : Keeps b s0 x1 := by
      refine State.withRotation_keeps ?_
      exact h0
    clear_value x1
    split
    · exact h2
    · refine Keeps.ite ?_ ?_
      · refine Keeps.ite ?_ ?_
        · refine State.rotated_keeps ?_
          exact h2
        · exact h2
      · refine Keeps.ite ?_ ?_
        · refine State.rotated_keeps ?_
          refine State.set_keeps ?_
          refine State.withRotation_keeps ?_
          exact h2
        · refine State.withRotation_keeps ?_
          exact h2

theorem State.writePrfCtrl_keeps {s : State} {v : ℕ} (hs : Keeps b s0 s) :
    Keeps b s0 (State.writePrfCtrl s v) := by
  unfold State.writePrfCtrl
  extract_lets -merge -underBinder x0 x1 x2 x3 x4
  try clear_value x0
  have h5 : Keeps b s0 x1 := by
    refine State.writeFields_keeps ?_
    exact hs
  clear_value x1
  have h6 : Keeps b s0 x2 := by
    refine State.when_keeps ?_ ?_
    · exact h5
    · intro _ h7
      refine State.abortProof_keeps ?_
      refine State.abortProof_keeps ?_
      exact h7
  clear_value x2
  have h8 : Keeps b s0 x3 := by
    refine State.when_keeps ?_ ?_
    · exact h6
    · intro _ h9
      refine State.abortProof_keeps ?_
      refine State.abortProof_keeps ?_
      exact h9
  clear_value x3
  have h10 : Keeps b s0 x4 := by
    refine State.when_keeps ?_ ?_
    · exact h8
    · intro _ h11
      refine State.abortProof_keeps ?_
      exact h11
  clear_value x4
  refine Keeps.ite ?_ ?_
  · refine State.abortInService_keeps ?_
    exact h10
  · exact h10

theorem execPrfStop_keeps {s : State} (hs : Keeps b s0 s) :
    KeepsOut b s0 (execPrfStop s) := by
  unfold execPrfStop
  refine Keeps.mk_out ?_
  refine Keeps.ite ?_ ?_
  · refine State.abortInService_keeps ?_
    exact hs
  · exact hs

theorem State.maintCmd_keeps {s : State} {v : ℕ} (hs : Keeps b s0 s) :
    Keeps b s0 (State.maintCmd s v) := by
  unfold State.maintCmd
  refine Keeps.ite ?_ ?_
  · exact hs
  · extract_lets -merge -underBinder x0 x1 x2 x3 x4 x5 x6 x7 x8
    try clear_value x0
    try clear_value x1
    try clear_value x3
    try clear_value x5
    try clear_value x6
    have h9 : Keeps b s0 x2 := by
      refine State.abortInService_keeps ?_
      exact hs
    clear_value x2
    have h10 : Keeps b s0 x4 := by
      refine State.when_keeps ?_ ?_
      · exact h9
      · intro _ h11
        refine State.count_keeps ?_
        exact h11
    clear_value x4
    have h12 : Keeps b s0 x7 := by
      exact Keeps.congr h10 rfl rfl rfl rfl (fun _ => rfl)
    clear_value x7
    have h13 : Keeps b s0 x8 := by
      refine State.each_keeps ?_ ?_
      · refine State.setFlag_keeps ?_
        exact h12
      · intro _ _ h14
        refine State.setFlag_keeps ?_
        exact h14
    clear_value x8
    refine Keeps.ite ?_ ?_
    · refine State.when_keeps ?_ ?_
      · exact h13
      · intro _ h15
        refine State.set_keeps ?_
        exact h15
    · refine State.refuse_keeps ?_
      exact hs

theorem execMaintCmd_keeps {v : Word} {s : State} (hs : Keeps b s0 s) :
    KeepsOut b s0 (execMaintCmd v s) := by
  unfold execMaintCmd
  refine Keeps.mk_out ?_
  refine Keeps.ite ?_ ?_
  · refine State.maintCmd_keeps ?_
    exact hs
  · exact hs

theorem State.powerOnProofing_keeps {s : State} {x : PowerOnProof} (hs : Keeps b s0 s) :
    Keeps b s0 (State.powerOnProofing s x) := by
  unfold State.powerOnProofing
  refine Keeps.ite ?_ ?_
  · exact hs
  · split
    · refine State.raise_keeps ?_
      refine State.count_keeps ?_
      refine State.writeResult_keeps ?_
      exact hs
    · extract_lets -merge -underBinder x0 x1 x2 x3 x4 x5 x6 x7 x8 x9 x10 x11 x12 x13 x14 x15
      try clear_value x0
      try clear_value x1
      try clear_value x2
      have h16 : Keeps b s0 x3 := by
        refine State.set_keeps ?_
        refine State.set_keeps ?_
        exact hs
      clear_value x3
      have h17 : Keeps b s0 x4 := by
        refine State.set_keeps ?_
        refine State.set_keeps ?_
        exact h16
      clear_value x4
      have h18 : Keeps b s0 x5 := by
        refine State.setFlag_keeps ?_
        refine State.set_keeps ?_
        exact h17
      clear_value x5
      have h19 : Keeps b s0 x6 := by
        refine State.writeResult_keeps ?_
        refine State.setFlag_keeps ?_
        exact h18
      clear_value x6
      have h20 : Keeps b s0 x7 := by
        refine Keeps.ite ?_ ?_
        · refine State.raise_keeps ?_
          exact h19
        · refine State.count_keeps ?_
          exact h19
      clear_value x7
      have h21 : Keeps b s0 x8 := by
        refine State.each_keeps ?_ ?_
        · exact h20
        · intro _ _ h22
          refine State.when_keeps ?_ ?_
          · exact h22
          · intro _ h23
            refine State.isolateEngine_keeps ?_
            exact h23
      clear_value x8
      have h24 : Keeps b s0 x9 := by
        refine State.each_keeps ?_ ?_
        · exact h21
        · intro _ _ h25
          refine State.when_keeps ?_ ?_
          · exact h25
          · intro _ h26
            refine State.isolateEngine_keeps ?_
            exact h26
      clear_value x9
      have h27 : Keeps b s0 x10 := by
        refine State.each_keeps ?_ ?_
        · exact h24
        · intro _ _ h28
          refine State.when_keeps ?_ ?_
          · exact h28
          · intro _ h29
            refine State.isolateLane_keeps ?_
            exact h29
      clear_value x10
      have h30 : Keeps b s0 x11 := by
        refine State.each_keeps ?_ ?_
        · exact h27
        · intro _ _ h31
          refine State.when_keeps ?_ ?_
          · exact h31
          · intro _ h32
            refine State.isolateLane_keeps ?_
            exact h32
      clear_value x11
      have h33 : Keeps b s0 x12 := by
        refine State.each_keeps ?_ ?_
        · exact h30
        · intro _ _ h34
          refine State.when_keeps ?_ ?_
          · exact h34
          · intro _ h35
            refine State.isolateCrypto_keeps ?_
            exact h35
      clear_value x12
      have h36 : Keeps b s0 x13 := by
        refine State.when_keeps ?_ ?_
        · exact h33
        · intro _ h37
          refine State.quarantineWith_keeps ?_
          exact h37
      clear_value x13
      have h38 : Keeps b s0 x14 := by
        refine State.when_keeps ?_ ?_
        · exact h36
        · intro _ h39
          refine State.quarantineWith_keeps ?_
          exact h39
      clear_value x14
      have h40 : Keeps b s0 x15 := by
        refine State.when_keeps ?_ ?_
        · exact h38
        · intro _ h41
          refine State.failSilence_keeps ?_
          exact h41
      clear_value x15
      refine State.when_keeps ?_ ?_
      · exact h40
      · intro _ h42
        refine State.failSilence_keeps ?_
        exact h42

/-! Machine/Security.lean. -/

theorem State.endCommand_keeps {s : State} {cmd : ℕ} {result : ℕ} (hs : Keeps b s0 s) :
    Keeps b s0 (State.endCommand s cmd result) := by
  unfold State.endCommand
  extract_lets -merge -underBinder x0
  have h1 : Keeps b s0 x0 := by
    refine State.set_keeps ?_
    refine State.set_keeps ?_
    exact hs
  clear_value x0
  refine State.raise_keeps ?_
  refine State.when_keeps ?_ ?_
  · exact h1
  · intro _ h2
    refine State.count_keeps ?_
    exact h2

theorem State.transition_keeps {s : State} {cmd : ℕ} {dest : ℕ} {burn : Otp → Otp} (hs : Keeps false s0 s) :
    Keeps false s0 (State.transition s cmd dest burn) := by
  unfold State.transition
  extract_lets -merge -underBinder x0 x1
  try clear_value x1
  have h2 : Keeps false s0 x0 := by
    refine State.endCommand_keeps ?_
    refine State.zeroise_keeps ?_
    exact hs
  clear_value x0
  refine State.chipReset_keeps ?_
  exact Keeps.congr h2 rfl rfl rfl rfl (fun _ => rfl)

theorem State.provision_keeps {s : State} (hs : Keeps false s0 s) :
    Keeps false s0 (State.provision s) := by
  unfold State.provision
  split
  · refine State.endCommand_keeps ?_
    exact hs
  · have h0 := Keeps.of_opt (b := false) (s := s0) ‹_ = some (_, _)› (by
        refine State.random_keeps ?_
        exact hs
      )
    split
    · refine State.endCommand_keeps ?_
      exact h0
    · have h1 := Keeps.of_opt (b := false) (s := s0) ‹_ = some (_, _)› (by
          refine State.random_keeps ?_
          exact h0
        )
      refine State.transition_keeps ?_
      exact h1

theorem State.doCommand_keeps {s : State} {cmd : ℕ} (hs : Keeps false s0 s) :
    Keeps false s0 (State.doCommand s cmd) := by
  unfold State.doCommand
  extract_lets -merge -underBinder x0 x1
  try clear_value x0
  try clear_value x1
  split
  · refine State.transition_keeps ?_
    exact hs
  · refine State.provision_keeps ?_
    exact hs
  · refine State.transition_keeps ?_
    exact hs
  · refine State.transition_keeps ?_
    exact hs
  · refine State.transition_keeps ?_
    exact hs
  · refine Keeps.ite ?_ ?_
    · refine State.endCommand_keeps ?_
      exact hs
    · refine State.endCommand_keeps ?_
      exact Keeps.congr hs rfl rfl rfl rfl (fun _ => rfl)
  · refine State.endCommand_keeps ?_
    exact Keeps.congr hs rfl rfl rfl rfl (fun _ => rfl)
  · split
    · refine State.endCommand_keeps ?_
      exact Keeps.congr hs rfl rfl rfl rfl (fun _ => rfl)
    · refine State.endCommand_keeps ?_
      exact hs
  · extract_lets -merge -underBinder x2
    try clear_value x2
    refine State.endCommand_keeps ?_
    refine State.raise_keeps ?_
    refine State.setFlag_keeps ?_
    refine State.set_keeps ?_
    exact hs
  · split
    · refine State.endCommand_keeps ?_
      exact Keeps.congr hs rfl rfl rfl rfl (fun _ => rfl)
    · refine State.endCommand_keeps ?_
      exact hs
  · exact hs

theorem State.judgeCommand_keeps {s : State} {cmd : ℕ} (hs : Keeps false s0 s) :
    Keeps false s0 (State.judgeCommand s cmd) := by
  unfold State.judgeCommand
  refine Keeps.ite ?_ ?_
  · refine State.endCommand_keeps ?_
    exact hs
  · refine Keeps.ite ?_ ?_
    · refine State.endCommand_keeps ?_
      exact hs
    · refine State.doCommand_keeps ?_
      exact hs

theorem State.runCommand_keeps {s : State} {cmd : ℕ} (hs : Keeps false s0 s) :
    Keeps false s0 (State.runCommand s cmd) := by
  unfold State.runCommand
  refine Keeps.ite ?_ ?_
  · exact hs
  · refine Keeps.ite ?_ ?_
    · exact hs
    · refine Keeps.ite ?_ ?_
      · refine State.withSec_keeps ?_
        refine State.set_keeps ?_
        refine State.set_keeps ?_
        exact hs
      · refine State.judgeCommand_keeps ?_
        exact hs

theorem execLcManufacture_keeps {s : State} (hs : Keeps false s0 s) :
    KeepsOut false s0 (execLcManufacture s) := by
  unfold execLcManufacture
  refine Keeps.mk_out ?_
  refine State.runCommand_keeps ?_
  exact hs

theorem execLcProvision_keeps {s : State} (hs : Keeps false s0 s) :
    KeepsOut false s0 (execLcProvision s) := by
  unfold execLcProvision
  refine Keeps.mk_out ?_
  refine State.runCommand_keeps ?_
  exact hs

theorem execLcDeploy_keeps {s : State} (hs : Keeps false s0 s) :
    KeepsOut false s0 (execLcDeploy s) := by
  unfold execLcDeploy
  refine Keeps.mk_out ?_
  refine State.runCommand_keeps ?_
  exact hs

theorem execLcReturn_keeps {s : State} (hs : Keeps false s0 s) :
    KeepsOut false s0 (execLcReturn s) := by
  unfold execLcReturn
  refine Keeps.mk_out ?_
  refine State.runCommand_keeps ?_
  exact hs

theorem execLcScrap_keeps {s : State} (hs : Keeps false s0 s) :
    KeepsOut false s0 (execLcScrap s) := by
  unfold execLcScrap
  refine Keeps.mk_out ?_
  refine State.runCommand_keeps ?_
  exact hs

theorem execOperatorRootInstall_keeps {s : State} (hs : Keeps false s0 s) :
    KeepsOut false s0 (execOperatorRootInstall s) := by
  unfold execOperatorRootInstall
  refine Keeps.mk_out ?_
  refine State.runCommand_keeps ?_
  exact hs

theorem execRootRevoke_keeps {s : State} (hs : Keeps false s0 s) :
    KeepsOut false s0 (execRootRevoke s) := by
  unfold execRootRevoke
  refine Keeps.mk_out ?_
  refine State.runCommand_keeps ?_
  exact hs

theorem execFleetKeyInstall_keeps {s : State} (hs : Keeps false s0 s) :
    KeepsOut false s0 (execFleetKeyInstall s) := by
  unfold execFleetKeyInstall
  refine Keeps.mk_out ?_
  refine State.runCommand_keeps ?_
  exact hs

theorem execDebugToken_keeps {s : State} (hs : Keeps false s0 s) :
    KeepsOut false s0 (execDebugToken s) := by
  unfold execDebugToken
  refine Keeps.mk_out ?_
  refine State.runCommand_keeps ?_
  exact hs

theorem execHeadKeyInstall_keeps {s : State} (hs : Keeps false s0 s) :
    KeepsOut false s0 (execHeadKeyInstall s) := by
  unfold execHeadKeyInstall
  refine Keeps.mk_out ?_
  refine State.runCommand_keeps ?_
  exact hs

theorem State.drawChallenge_keeps {s : State} (hs : Keeps b s0 s) :
    Keeps b s0 (State.drawChallenge s) := by
  unfold State.drawChallenge
  split
  · have h0 := Keeps.of_opt (b := b) (s := s0) ‹_ = some (_, _)› (by
        refine State.random_keeps ?_
        exact hs
      )
    extract_lets -merge -underBinder x1
    try clear_value x1
    refine State.each_keeps ?_ ?_
    · refine State.withSec_keeps ?_
      exact h0
    · intro _ _ h2
      refine State.set_keeps ?_
      exact h2
  · exact hs

theorem execDbgChalRead_keeps {who : Requester} {s : State} (hs : Keeps b s0 s) :
    KeepsOut b s0 (execDbgChalRead who s) := by
  unfold execDbgChalRead
  refine Keeps.mk_out ?_
  refine Keeps.ite ?_ ?_
  · exact hs
  · extract_lets -merge -underBinder x0
    have h1 : Keeps b s0 x0 := by
      refine State.drawChallenge_keeps ?_
      exact hs
    clear_value x0
    refine State.emit_keeps ?_
    exact h1

theorem State.writeZeroise_keeps {s : State} {v : ℕ} (hs : Keeps b s0 s) :
    Keeps b s0 (State.writeZeroise s v) := by
  unfold State.writeZeroise
  refine Keeps.ite ?_ ?_
  · refine State.zeroise_keeps ?_
    exact hs
  · exact hs

theorem execZeroise_keeps {v : BitVec 16} {s : State} (hs : Keeps b s0 s) :
    KeepsOut b s0 (execZeroise v s) := by
  unfold execZeroise
  refine Keeps.mk_out ?_
  refine Keeps.ite ?_ ?_
  · refine State.writeZeroise_keeps ?_
    exact hs
  · exact hs

theorem execTrngFail_keeps {s : State} (hs : Keeps b s0 s) :
    KeepsOut b s0 (execTrngFail s) := by
  unfold execTrngFail
  refine Keeps.mk_out ?_
  refine Keeps.ite ?_ ?_
  · refine State.countRaise_keeps ?_
    refine State.setFlag_keeps ?_
    exact hs
  · exact hs

theorem State.bootFail_keeps {s : State} {stage : ℕ} {cause : ℕ} (hs : Keeps b s0 s) :
    Keeps b s0 (State.bootFail s stage cause) := by
  unfold State.bootFail
  extract_lets -merge -underBinder x0 x1 x2
  try clear_value x2
  have h3 : Keeps b s0 x0 := by
    refine State.set_keeps ?_
    refine State.set_keeps ?_
    exact hs
  clear_value x0
  have h4 : Keeps b s0 x1 := by
    refine State.raise_keeps ?_
    exact h3
  clear_value x1
  exact Keeps.congr h4 rfl rfl rfl rfl (fun _ => rfl)

theorem State.bootOn_keeps {s : State} {stage : ℕ} (hs : Keeps b s0 s) :
    Keeps b s0 (State.bootOn s stage) := by
  unfold State.bootOn
  extract_lets -merge -underBinder x0 x1
  try clear_value x1
  have h2 : Keeps b s0 x0 := by
    refine State.set_keeps ?_
    exact hs
  clear_value x0
  exact Keeps.congr h2 rfl rfl rfl rfl (fun _ => rfl)

theorem State.loadImage_keeps {s : State} {a1 : List Byte} {c : Line} {r : ℕ} {i : ℕ} (hs : Keeps b s0 s) :
    Keeps b s0 (State.loadImage s a1 c r i) := by
  unfold State.loadImage
  extract_lets -merge -underBinder x0 x1 x2
  have h3 : Keeps b s0 x0 := by
    refine State.setBytes_keeps ?_
    refine State.clearRange_keeps ?_
    exact hs
  clear_value x0
  have h4 : Keeps b s0 x1 := by
    refine State.clearRange_keeps ?_
    refine State.setBytes_keeps ?_
    exact h3
  clear_value x1
  have h5 : Keeps b s0 x2 := by
    refine State.set_keeps ?_
    refine State.set_keeps ?_
    exact h4
  clear_value x2
  refine State.withRoleOf_keeps ?_
  exact h5

theorem State.loadEntry_keeps {s : State} {earlier : List BootEntry} {x : BootEntry} {a3 : List Byte} (hs : Keeps b s0 s) :
    Keeps b s0 (State.loadEntry s earlier x a3) := by
  unfold State.loadEntry
  refine State.each_keeps ?_ ?_
  · exact hs
  · intro _ _ h0
    refine State.each_keeps ?_ ?_
    · exact h0
    · intro _ _ h1
      refine Keeps.ite ?_ ?_
      · exact h1
      · split
        · exact h1
        · refine Keeps.ite ?_ ?_
          · refine State.loadImage_keeps ?_
            exact h1
          · refine State.refuse_keeps ?_
            exact h1

theorem State.startLoaded_keeps {s : State} (hs : Keeps b s0 s) :
    Keeps b s0 (State.startLoaded s) := by
  unfold State.startLoaded
  refine State.each_keeps ?_ ?_
  · exact hs
  · intro _ _ h0
    refine Keeps.ite ?_ ?_
    · exact h0
    · refine State.each_keeps ?_ ?_
      · exact h0
      · intro _ _ h1
        split
        · refine Keeps.ite ?_ ?_
          · refine State.startCold_keeps ?_
            exact h1
          · exact h1
        · exact h1

theorem State.advanceCounters_keeps {s : State} (hs : Keeps b s0 s) :
    Keeps b s0 (State.advanceCounters s) := by
  unfold State.advanceCounters
  extract_lets -merge -underBinder x0 x1
  try clear_value x0
  have h2 : Keeps b s0 x1 := by
    exact Keeps.congr hs rfl rfl rfl rfl (fun _ => rfl)
  clear_value x1
  refine State.each_keeps ?_ ?_
  · exact h2
  · intro _ _ h3
    refine State.set_keeps ?_
    exact h3

theorem State.consume_keeps {s : State} {x : BootEntry} (hs : Keeps b s0 s) :
    Keeps b s0 (State.consume s x) := by
  unfold State.consume
  refine Keeps.ite ?_ ?_
  · exact hs
  · exact Keeps.congr hs rfl rfl rfl rfl (fun _ => rfl)

theorem State.bootStage_keeps {s : State} {r : BootResult} (hs : Keeps b s0 s) :
    Keeps b s0 (State.bootStage s r) := by
  unfold State.bootStage
  extract_lets -merge -underBinder x0
  try clear_value x0
  split
  · refine Keeps.ite ?_ ?_
    · exact hs
    · refine Keeps.ite ?_ ?_
      · refine State.bootFail_keeps ?_
        exact hs
      · refine Keeps.ite ?_ ?_
        · refine State.bootFail_keeps ?_
          exact hs
        · extract_lets -merge -underBinder x1 x2
          have h3 : Keeps b s0 x1 := by
            refine State.bootOn_keeps ?_
            refine State.setFlag_keeps ?_
            refine State.setFlag_keeps ?_
            exact hs
          clear_value x1
          have h4 : Keeps b s0 x2 := by
            refine State.powerOnProofing_keeps ?_
            exact h3
          clear_value x2
          refine State.setFlag_keeps ?_
          refine State.setFlag_keeps ?_
          exact h4
  · refine Keeps.ite ?_ ?_
    · exact hs
    · extract_lets -merge -underBinder x5 x6 x7 x8 x9 x10 x11
      try clear_value x5
      try clear_value x6
      try clear_value x8
      try clear_value x11
      have h12 : Keeps b s0 x7 := by
        refine State.setFlag_keeps ?_
        exact hs
      clear_value x7
      have h13 : Keeps b s0 x9 := by
        refine State.bootOn_keeps ?_
        exact h12
      clear_value x9
      refine Keeps.ite ?_ ?_
      · refine State.bootFail_keeps ?_
        exact h12
      · exact Keeps.congr h13 rfl rfl rfl rfl (fun _ => rfl)
  · refine Keeps.ite ?_ ?_
    · exact hs
    · extract_lets -merge -underBinder x14 x15 x16 x17 x18
      try clear_value x14
      try clear_value x15
      try clear_value x16
      try clear_value x18
      have h19 : Keeps b s0 x17 := by
        refine State.consume_keeps ?_
        refine State.bootOn_keeps ?_
        exact hs
      clear_value x17
      refine Keeps.ite ?_ ?_
      · refine State.bootFail_keeps ?_
        exact hs
      · exact Keeps.congr h19 rfl rfl rfl rfl (fun _ => rfl)
  · refine Keeps.ite ?_ ?_
    · exact hs
    · extract_lets -merge -underBinder x20
      have h21 : Keeps b s0 x20 := by
        refine State.withSec_keeps ?_
        exact hs
      clear_value x20
      refine Keeps.ite ?_ ?_
      · refine State.bootOn_keeps ?_
        exact h21
      · split
        · refine Keeps.ite ?_ ?_
          · refine State.bootOn_keeps ?_
            refine State.showKeys_keeps ?_
            refine State.withSec_keeps ?_
            exact h21
          · refine State.bootFail_keeps ?_
            exact h21
        · refine State.bootFail_keeps ?_
          exact h21
  · refine Keeps.ite ?_ ?_
    · exact hs
    · extract_lets -merge -underBinder x22 x23 x24 x25 x26 x27
      try clear_value x22
      try clear_value x24
      try clear_value x25
      try clear_value x26
      have h28 : Keeps b s0 x23 := by
        refine State.each_keeps ?_ ?_
        · exact hs
        · intro _ _ h29
          refine State.each_keeps ?_ ?_
          · exact h29
          · intro _ _ h30
            refine State.loadEntry_keeps ?_
            exact h30
      clear_value x23
      have h31 : Keeps b s0 x27 := by
        exact Keeps.congr h28 rfl rfl rfl rfl (fun _ => rfl)
      clear_value x27
      refine State.bootOn_keeps ?_
      refine State.startLoaded_keeps ?_
      exact h31
  · refine Keeps.ite ?_ ?_
    · exact hs
    · extract_lets -merge -underBinder x32 x33
      try clear_value x32
      have h34 : Keeps b s0 x33 := by
        exact Keeps.congr hs rfl rfl rfl rfl (fun _ => rfl)
      clear_value x33
      refine State.bootOn_keeps ?_
      refine State.when_keeps ?_ ?_
      · exact h34
      · intro _ h35
        refine State.advanceCounters_keeps ?_
        exact h35
  · refine Keeps.ite ?_ ?_
    · exact hs
    · extract_lets -merge -underBinder x36 x37 x38 x39 x40 x41
      try clear_value x38
      try clear_value x41
      have h42 : Keeps b s0 x36 := by
        exact hs
      clear_value x36
      have h43 : Keeps b s0 x37 := by
        refine State.setFlag_keeps ?_
        refine State.set_keeps ?_
        exact hs
      clear_value x37
      have h44 : Keeps b s0 x39 := by
        exact Keeps.congr h43 rfl rfl rfl rfl (fun _ => rfl)
      clear_value x39
      have h45 : Keeps b s0 x40 := by
        refine State.raise_keeps ?_
        refine State.setFlag_keeps ?_
        refine State.setFlag_keeps ?_
        exact h44
      clear_value x40
      refine State.recheckLines_keeps ?_ ?_
      · refine State.when_keeps ?_ ?_
        · exact h45
        · intro _ h46
          refine State.raiseCfgBad_keeps ?_
          exact h46
      · exact h42

theorem execBootStageDone_keeps {r : BootResult} {s : State} (hs : Keeps b s0 s) :
    KeepsOut b s0 (execBootStageDone r s) := by
  unfold execBootStageDone
  refine Keeps.mk_out ?_
  refine Keeps.ite ?_ ?_
  · exact hs
  · refine State.bootStage_keeps ?_
    exact hs

theorem State.pushChunk_keeps {s : State} {last : Bool} (hs : Keeps b s0 s) :
    Keeps b s0 (State.pushChunk s last) := by
  unfold State.pushChunk
  extract_lets -merge -underBinder x0 x1
  try clear_value x1
  have h2 : Keeps b s0 x0 := by
    refine State.setFlag_keeps ?_
    exact hs
  clear_value x0
  exact Keeps.congr h2 rfl rfl rfl rfl (fun _ => rfl)

theorem execPushChunkTaken_keeps {s : State} (hs : Keeps b s0 s) :
    KeepsOut b s0 (execPushChunkTaken s) := by
  unfold execPushChunkTaken
  refine Keeps.mk_out ?_
  refine Keeps.ite ?_ ?_
  · refine State.setFlag_keeps ?_
    exact hs
  · exact hs

/-! Machine/Coupler.lean. -/

theorem State.withTag_keeps {s : State} {m : ℕ} {f : TagPort → TagPort} (hs : Keeps b s0 s) :
    Keeps b s0 (State.withTag s m f) := by
  unfold State.withTag
  exact Keeps.congr hs rfl rfl rfl rfl (fun _ => rfl)

theorem State.raiseHead_keeps {s : State} {m : ℕ} {j : ℕ} (hs : Keeps b s0 s) :
    Keeps b s0 (State.raiseHead s m j) := by
  unfold State.raiseHead
  refine State.raise_keeps ?_
  exact hs

theorem State.sendTag_keeps {s : State} {m : ℕ} (hs : Keeps b s0 s) :
    Keeps b s0 (State.sendTag s m) := by
  unfold State.sendTag
  refine State.when_keeps ?_ ?_
  · exact hs
  · intro _ h0
    extract_lets -merge -underBinder x1
    try clear_value x1
    refine State.emit_keeps ?_
    refine State.withTag_keeps ?_
    exact h0

theorem State.tagRequest_keeps {s : State} {m : ℕ} {step : TagStep} {cmd : Byte} {data : List Byte} {mac : Bool} (hs : Keeps b s0 s) :
    Keeps b s0 (State.tagRequest s m step cmd data mac) := by
  unfold State.tagRequest
  extract_lets -merge -underBinder x0 x1 x2
  try clear_value x0
  try clear_value x1
  try clear_value x2
  refine State.sendTag_keeps ?_
  refine State.withTag_keeps ?_
  exact hs

theorem State.evalWear_keeps {s : State} {m : ℕ} (hs : Keeps b s0 s) :
    Keeps b s0 (State.evalWear s m) := by
  unfold State.evalWear
  extract_lets -merge -underBinder x0 x1 x2 x3 x4
  try clear_value x0
  try clear_value x1
  try clear_value x2
  try clear_value x3
  have h5 : Keeps b s0 x4 := by
    refine State.withTag_keeps ?_
    exact hs
  clear_value x4
  refine State.when_keeps ?_ ?_
  · refine State.when_keeps ?_ ?_
    · exact h5
    · intro _ h6
      refine State.raiseHead_keeps ?_
      exact h6
  · intro _ h7
    refine State.raiseHead_keeps ?_
    exact h7

theorem State.showHead_keeps {s : State} {m : ℕ} (hs : Keeps b s0 s) :
    Keeps b s0 (State.showHead s m) := by
  unfold State.showHead
  extract_lets -merge -underBinder x0 x1 x2 x3 x4 x5 x6 x7
  try clear_value x0
  try clear_value x3
  try clear_value x4
  try clear_value x5
  try clear_value x6
  have h8 : Keeps b s0 x1 := by
    refine State.set_keeps ?_
    refine State.set_keeps ?_
    refine State.set_keeps ?_
    refine State.set_keeps ?_
    exact hs
  clear_value x1
  have h9 : Keeps b s0 x2 := by
    refine State.set_keeps ?_
    refine State.set_keeps ?_
    refine State.set_keeps ?_
    exact h8
  clear_value x2
  refine State.set_keeps ?_
  refine State.set_keeps ?_
  refine State.set_keeps ?_
  refine State.set_keeps ?_
  exact h9

theorem State.startSession_keeps {s : State} {m : ℕ} (hs : Keeps b s0 s) :
    Keeps b s0 (State.startSession s m) := by
  unfold State.startSession
  extract_lets -merge -underBinder x0
  have h1 : Keeps b s0 x0 := by
    refine State.withTag_keeps ?_
    refine State.setFlag_keeps ?_
    exact hs
  clear_value x0
  refine State.tagRequest_keeps ?_
  exact h1

theorem State.endSession_keeps {s : State} {m : ℕ} (hs : Keeps b s0 s) :
    Keeps b s0 (State.endSession s m) := by
  unfold State.endSession
  extract_lets -merge -underBinder x0 x1
  try clear_value x0
  have h2 : Keeps b s0 x1 := by
    refine State.showHead_keeps ?_
    refine State.setFlag_keeps ?_
    refine State.withTag_keeps ?_
    exact hs
  clear_value x1
  refine Keeps.ite ?_ ?_
  · refine State.startSession_keeps ?_
    exact h2
  · exact h2

theorem State.goOn_keeps {s : State} {m : ℕ} {f : State → State} (hs : Keeps b s0 s) (hf : ∀ y0, Keeps b s0 y0 → Keeps b s0 (f y0)) :
    Keeps b s0 (State.goOn s m f) := by
  unfold State.goOn
  refine Keeps.ite ?_ ?_
  · refine State.endSession_keeps ?_
    exact hs
  · refine hf _ ?_
    exact hs

theorem State.stepMargin_keeps {s : State} {m : ℕ} (hs : Keeps b s0 s) :
    Keeps b s0 (State.stepMargin s m) := by
  unfold State.stepMargin
  refine State.withTag_keeps ?_
  exact hs

theorem State.stepLog_keeps {s : State} {m : ℕ} (hs : Keeps b s0 s) :
    Keeps b s0 (State.stepLog s m) := by
  unfold State.stepLog
  extract_lets -merge -underBinder x0
  try clear_value x0
  split
  · refine State.endSession_keeps ?_
    exact hs
  · refine State.tagRequest_keeps ?_
    exact hs

theorem State.stepIncr_keeps {s : State} {m : ℕ} (hs : Keeps b s0 s) :
    Keeps b s0 (State.stepIncr s m) := by
  unfold State.stepIncr
  extract_lets -merge -underBinder x0
  try clear_value x0
  refine Keeps.ite ?_ ?_
  · refine State.stepMargin_keeps ?_
    exact hs
  · refine State.tagRequest_keeps ?_
    exact hs

theorem State.stepLogRead_keeps {s : State} {m : ℕ} {index : ℕ} {left : ℕ} (hs : Keeps b s0 s) :
    Keeps b s0 (State.stepLogRead s m index left) := by
  unfold State.stepLogRead
  refine Keeps.ite ?_ ?_
  · refine State.stepIncr_keeps ?_
    refine State.withTag_keeps ?_
    exact hs
  · refine State.tagRequest_keeps ?_
    exact hs

theorem State.stepChal_keeps {s : State} {m : ℕ} (hs : Keeps b s0 s) :
    Keeps b s0 (State.stepChal s m) := by
  unfold State.stepChal
  extract_lets -merge -underBinder x0
  have h1 : Keeps b s0 x0 := by
    refine State.tagRequest_keeps ?_
    refine State.withTag_keeps ?_
    exact hs
  clear_value x0
  refine Keeps.ite ?_ ?_
  · exact h1
  · split
    · exact h1
    · have h2 := Keeps.of_opt (b := b) (s := s0) ‹_ = some (_, _)› (by
          refine State.random_keeps ?_
          exact hs
        )
      extract_lets -merge -underBinder x3
      try clear_value x3
      refine State.tagRequest_keeps ?_
      refine State.withTag_keeps ?_
      exact h2

theorem State.tagGiveUp_keeps {s : State} {m : ℕ} (hs : Keeps b s0 s) :
    Keeps b s0 (State.tagGiveUp s m) := by
  unfold State.tagGiveUp
  split
  · refine State.endSession_keeps ?_
    refine State.raiseHead_keeps ?_
    refine State.withTag_keeps ?_
    exact hs
  · refine State.stepMargin_keeps ?_
    refine State.raiseHead_keeps ?_
    refine State.withTag_keeps ?_
    exact hs
  · refine State.stepMargin_keeps ?_
    exact hs
  · refine State.stepMargin_keeps ?_
    exact hs
  · refine State.stepIncr_keeps ?_
    exact hs
  · refine State.stepLog_keeps ?_
    refine State.withTag_keeps ?_
    exact hs
  · exact hs
  · exact hs

theorem State.tagTimeout_keeps {s : State} {m : ℕ} (hs : Keeps b s0 s) :
    Keeps b s0 (State.tagTimeout s m) := by
  unfold State.tagTimeout
  extract_lets -merge -underBinder x0 x1
  try clear_value x0
  have h2 : Keeps b s0 x1 := by
    refine State.count_keeps ?_
    exact hs
  clear_value x1
  refine Keeps.ite ?_ ?_
  · exact hs
  · refine State.goOn_keeps ?_ ?_
    · exact h2
    · intro _ h3
      refine Keeps.ite ?_ ?_
      · refine State.sendTag_keeps ?_
        refine State.withTag_keeps ?_
        exact h3
      · refine State.tagGiveUp_keeps ?_
        exact h3

theorem State.takeCounter_keeps {s : State} {m : ℕ} {r : List Byte} (hs : Keeps b s0 s) :
    Keeps b s0 (State.takeCounter s m r) := by
  unfold State.takeCounter
  refine State.withTag_keeps ?_
  exact hs

theorem State.takeTagId_keeps {s : State} {m : ℕ} {id : ℕ} (hs : Keeps b s0 s) :
    Keeps b s0 (State.takeTagId s m id) := by
  unfold State.takeTagId
  refine Keeps.ite ?_ ?_
  · exact hs
  · extract_lets -merge -underBinder x0 x1
    have h2 : Keeps b s0 x0 := by
      refine State.withTag_keeps ?_
      exact hs
    clear_value x0
    have h3 : Keeps b s0 x1 := by
      refine State.set_keeps ?_
      refine State.set_keeps ?_
      exact h2
    clear_value x1
    refine State.raiseHead_keeps ?_
    refine State.set_keeps ?_
    exact h3

theorem State.takeIdentity_keeps {s : State} {m : ℕ} {d : List Byte} (hs : Keeps b s0 s) :
    KeepsFst b s0 (State.takeIdentity s m d) := by
  unfold State.takeIdentity
  extract_lets -merge -underBinder x0 x1 x2
  try clear_value x0
  have h3 : Keeps b s0 x1 := by
    refine State.takeTagId_keeps ?_
    exact hs
  clear_value x1
  have h4 : Keeps b s0 x2 := by
    refine State.set_keeps ?_
    exact h3
  clear_value x2
  refine Keeps.ite_fst ?_ ?_
  · refine Keeps.mk_fst ?_
    refine State.raiseHead_keeps ?_
    refine State.withTag_keeps ?_
    exact hs
  · refine Keeps.mk_fst ?_
    refine State.withTag_keeps ?_
    exact h4

theorem State.takeIncr_keeps {s : State} {m : ℕ} {delta : ℕ} {r : List Byte} (hs : Keeps b s0 s) :
    Keeps b s0 (State.takeIncr s m delta r) := by
  unfold State.takeIncr
  extract_lets -merge -underBinder x0
  have h1 : Keeps b s0 x0 := by
    refine State.set_keeps ?_
    exact hs
  clear_value x0
  refine State.evalWear_keeps ?_
  refine State.takeCounter_keeps ?_
  exact h1

theorem State.takeLog_keeps {s : State} {m : ℕ} {rec : List Byte} {r : List Byte} (hs : Keeps b s0 s) :
    Keeps b s0 (State.takeLog s m rec r) := by
  unfold State.takeLog
  extract_lets -merge -underBinder x0 x1
  try clear_value x0
  have h2 : Keeps b s0 x1 := by
    refine State.takeCounter_keeps ?_
    exact hs
  clear_value x1
  refine State.withTag_keeps ?_
  exact h2

theorem State.tagAnswered_keeps {s : State} {m : ℕ} {status : Byte} {seq : Byte} {d : List Byte} (hs : Keeps b s0 s) :
    Keeps b s0 (State.tagAnswered s m status seq d) := by
  unfold State.tagAnswered
  extract_lets -merge -underBinder x0 x1 x2
  try clear_value x0
  try clear_value x1
  have h3 : Keeps b s0 x2 := by
    refine State.count_keeps ?_
    exact hs
  clear_value x2
  split
  · refine Keeps.ite ?_ ?_
    · exact hs
    · split
      · have h4 := Keeps.of_fst (b := b) (s := s0) ‹_ = (_, _)› (by
            refine State.takeIdentity_keeps ?_
            exact hs
          )
        refine Keeps.ite ?_ ?_
        · refine State.goOn_keeps ?_ ?_
          · exact h4
          · intro _ h5
            refine State.stepChal_keeps ?_
            exact h5
        · refine State.endSession_keeps ?_
          exact h4
  · refine Keeps.ite ?_ ?_
    · exact hs
    · extract_lets -merge -underBinder x6 x7
      try clear_value x6
      have h8 : Keeps b s0 x7 := by
        refine State.withTag_keeps ?_
        refine State.takeCounter_keeps ?_
        exact hs
      clear_value x7
      refine Keeps.ite ?_ ?_
      · exact h3
      · refine State.goOn_keeps ?_ ?_
        · exact h8
        · intro _ h9
          refine Keeps.ite ?_ ?_
          · refine State.stepIncr_keeps ?_
            exact h9
          · refine State.stepLogRead_keeps ?_
            exact h9
  · refine Keeps.ite ?_ ?_
    · exact hs
    · refine State.goOn_keeps ?_ ?_
      · refine State.takeCounter_keeps ?_
        exact hs
      · intro _ h10
        refine State.stepMargin_keeps ?_
        exact h10
  · refine Keeps.ite ?_ ?_
    · exact hs
    · extract_lets -merge -underBinder x11 x12 x13
      try clear_value x11
      try clear_value x12
      have h14 : Keeps b s0 x13 := by
        refine State.withTag_keeps ?_
        exact hs
      clear_value x13
      refine State.goOn_keeps ?_ ?_
      · exact h14
      · intro _ h15
        refine State.stepLogRead_keeps ?_
        exact h15
  · refine Keeps.ite ?_ ?_
    · refine State.goOn_keeps ?_ ?_
      · exact hs
      · intro _ h16
        refine State.tagGiveUp_keeps ?_
        exact h16
    · refine Keeps.ite ?_ ?_
      · exact h3
      · refine Keeps.ite ?_ ?_
        · refine State.goOn_keeps ?_ ?_
          · exact hs
          · intro _ h17
            refine State.tagGiveUp_keeps ?_
            exact h17
        · extract_lets -merge -underBinder x18
          try clear_value x18
          refine State.goOn_keeps ?_ ?_
          · refine State.takeIncr_keeps ?_
            exact hs
          · intro _ h19
            refine State.stepMargin_keeps ?_
            exact h19
  · refine Keeps.ite ?_ ?_
    · refine State.goOn_keeps ?_ ?_
      · exact hs
      · intro _ h20
        refine State.tagGiveUp_keeps ?_
        exact h20
    · refine Keeps.ite ?_ ?_
      · exact h3
      · refine Keeps.ite ?_ ?_
        · refine State.goOn_keeps ?_ ?_
          · exact hs
          · intro _ h21
            refine State.tagGiveUp_keeps ?_
            exact h21
        · extract_lets -merge -underBinder x22
          have h23 : Keeps b s0 x22 := by
            refine State.takeLog_keeps ?_
            exact hs
          clear_value x22
          refine State.goOn_keeps ?_ ?_
          · exact h23
          · intro _ h24
            refine State.stepLog_keeps ?_
            refine State.withTag_keeps ?_
            exact h24
  · exact hs
  · exact hs

theorem State.overheardBad_keeps {s : State} {m : ℕ} {cmd : Byte} {seq : Byte} (hs : Keeps b s0 s) :
    Keeps b s0 (State.overheardBad s m cmd seq) := by
  unfold State.overheardBad
  extract_lets -merge -underBinder x0 x1 x2
  try clear_value x0
  try clear_value x1
  have h3 : Keeps b s0 x2 := by
    refine State.withTag_keeps ?_
    refine State.count_keeps ?_
    exact hs
  clear_value x2
  refine State.when_keeps ?_ ?_
  · exact h3
  · intro _ h4
    refine State.raiseHead_keeps ?_
    refine State.withTag_keeps ?_
    exact h4

theorem State.tagOverheard_keeps {s : State} {m : ℕ} {cmd : Byte} {seq : Byte} {q : List Byte} {status : Byte} {d : List Byte}
    (hs : Keeps b s0 s) :
    Keeps b s0 (State.tagOverheard s m cmd seq q status d) := by
  unfold State.tagOverheard
  refine Keeps.ite ?_ ?_
  · exact hs
  · refine Keeps.ite ?_ ?_
    · refine State.overheardBad_keeps ?_
      exact hs
    · extract_lets -merge -underBinder x0
      have h1 : Keeps b s0 x0 := by
        unfold x0
        split
        · refine Keeps.ite ?_ ?_
          · show KeepsFst b s0 _
            refine State.takeIdentity_keeps ?_
            exact hs
          · exact hs
        · refine Keeps.ite ?_ ?_
          · refine State.withTag_keeps ?_
            refine State.takeCounter_keeps ?_
            exact hs
          · exact hs
        · refine Keeps.ite ?_ ?_
          · refine State.withTag_keeps ?_
            refine State.takeCounter_keeps ?_
            exact hs
          · exact hs
        · refine Keeps.ite ?_ ?_
          · refine State.takeIncr_keeps ?_
            exact hs
          · exact hs
        · refine Keeps.ite ?_ ?_
          · extract_lets -merge -underBinder x2 x3
            try clear_value x2
            have h4 : Keeps b s0 x3 := by
              refine State.takeLog_keeps ?_
              exact hs
            clear_value x3
            refine State.withTag_keeps ?_
            exact h4
          · exact hs
        · exact hs
      clear_value x0
      refine State.showHead_keeps ?_
      refine State.withTag_keeps ?_
      exact h1

theorem State.tagResponse_keeps {s : State} {m : ℕ} {request : List Byte} {response : List Byte} (hs : Keeps b s0 s) :
    Keeps b s0 (State.tagResponse s m request response) := by
  unfold State.tagResponse
  split
  · refine State.count_keeps ?_
    exact hs
  · refine Keeps.ite ?_ ?_
    · refine Keeps.ite ?_ ?_
      · exact hs
      · refine State.tagAnswered_keeps ?_
        exact hs
    · split
      · refine State.count_keeps ?_
        exact hs
      · refine Keeps.ite ?_ ?_
        · refine State.tagOverheard_keeps ?_
          exact hs
        · exact hs

theorem State.marginSample_keeps {s : State} {m : ℕ} {linked : Bool} {reads : List (Option (BitVec 16))} (hs : Keeps b s0 s) :
    Keeps b s0 (State.marginSample s m linked reads) := by
  unfold State.marginSample
  refine Keeps.ite ?_ ?_
  · exact hs
  · refine Keeps.ite ?_ ?_
    · refine State.endSession_keeps ?_
      exact hs
    · extract_lets -merge -underBinder x0 x1 x2 x3 x4 x5 x6 x7
      try clear_value x0
      try clear_value x2
      try clear_value x3
      try clear_value x6
      have h8 : Keeps b s0 x1 := by
        refine State.countBy_keeps ?_
        exact hs
      clear_value x1
      have h9 : Keeps b s0 x4 := by
        refine State.withTag_keeps ?_
        exact h8
      clear_value x4
      have h10 : Keeps b s0 x5 := by
        refine State.evalWear_keeps ?_
        exact h9
      clear_value x5
      have h11 : Keeps b s0 x7 := by
        refine State.when_keeps ?_ ?_
        · exact h10
        · intro _ h12
          refine State.withTag_keeps ?_
          refine State.raiseHead_keeps ?_
          exact h12
      clear_value x7
      refine Keeps.ite ?_ ?_
      · refine State.stepLog_keeps ?_
        refine State.withTag_keeps ?_
        exact h11
      · refine State.endSession_keeps ?_
        exact h11

theorem State.closedChange_keeps {s : State} {p : BackbonePort} {closed : Bool} (hs : Keeps b s0 s) :
    Keeps b s0 (State.closedChange s p closed) := by
  unfold State.closedChange
  extract_lets -merge -underBinder x0 x1 x2 x3 x4
  try clear_value x0
  try clear_value x1
  try clear_value x2
  have h5 : Keeps b s0 x3 := by
    refine State.withTag_keeps ?_
    refine State.setFlag_keeps ?_
    exact hs
  clear_value x3
  have h6 : Keeps b s0 x4 := by
    refine State.topologyEvent_keeps ?_
    exact h5
  clear_value x4
  refine Keeps.ite ?_ ?_
  · exact h5
  · refine Keeps.ite ?_ ?_
    · refine State.endSession_keeps ?_
      exact h6
    · exact h6

theorem execCplClosedChange_keeps {p : BackbonePort} {closed : Bool} {s : State} (hs : Keeps b s0 s) :
    KeepsOut b s0 (execCplClosedChange p closed s) := by
  unfold execCplClosedChange
  refine Keeps.mk_out ?_
  refine Keeps.ite ?_ ?_
  · refine State.closedChange_keeps ?_
    exact hs
  · exact hs

theorem State.tagSession_keeps {s : State} {m : ℕ} (hs : Keeps b s0 s) :
    Keeps b s0 (State.tagSession s m) := by
  unfold State.tagSession
  refine Keeps.ite ?_ ?_
  · exact hs
  · extract_lets -merge -underBinder x0
    have h1 : Keeps b s0 x0 := by
      refine State.countBy_keeps ?_
      refine State.count_keeps ?_
      exact hs
    clear_value x0
    refine Keeps.ite ?_ ?_
    · exact h1
    · split
      · refine State.startSession_keeps ?_
        exact h1
      · refine State.endSession_keeps ?_
        refine State.withTag_keeps ?_
        exact h1
      · refine State.withTag_keeps ?_
        exact h1

theorem execTagSession_keeps {m : BitVec 2} {s : State} (hs : Keeps b s0 s) :
    KeepsOut b s0 (execTagSession m s) := by
  unfold execTagSession
  refine Keeps.mk_out ?_
  refine State.tagSession_keeps ?_
  exact hs

theorem State.dropSessions_keeps {s : State} (hs : Keeps b s0 s) :
    Keeps b s0 (State.dropSessions s) := by
  unfold State.dropSessions
  refine State.each_keeps ?_ ?_
  · exact hs
  · intro _ _ h0
    refine Keeps.ite ?_ ?_
    · refine State.endSession_keeps ?_
      exact h0
    · exact h0

theorem State.hatSessions_keeps {s : State} (hs : Keeps b s0 s) :
    Keeps b s0 (State.hatSessions s) := by
  unfold State.hatSessions
  refine State.each_keeps ?_ ?_
  · exact hs
  · intro _ _ h0
    refine Keeps.ite ?_ ?_
    · refine State.startSession_keeps ?_
      exact h0
    · exact h0

theorem execTagResponseRx_keeps {m : BitVec 2} {request : List Byte} {response : List Byte} {s : State} (hs : Keeps b s0 s) :
    KeepsOut b s0 (execTagResponseRx m request response s) := by
  unfold execTagResponseRx
  refine Keeps.mk_out ?_
  refine Keeps.ite ?_ ?_
  · refine State.tagResponse_keeps ?_
    exact hs
  · exact hs

theorem execTagTimeout_keeps {m : BitVec 2} {s : State} (hs : Keeps b s0 s) :
    KeepsOut b s0 (execTagTimeout m s) := by
  unfold execTagTimeout
  refine Keeps.mk_out ?_
  refine Keeps.ite ?_ ?_
  · refine State.tagTimeout_keeps ?_
    exact hs
  · exact hs

theorem execMarginSample_keeps {m : BitVec 2} {linked : Bool} {reads : List (Option (BitVec 16))} {s : State} (hs : Keeps b s0 s) :
    KeepsOut b s0 (execMarginSample m linked reads s) := by
  unfold execMarginSample
  refine Keeps.mk_out ?_
  refine Keeps.ite ?_ ?_
  · refine State.marginSample_keeps ?_
    exact hs
  · exact hs

/-! Machine/Power.lean. -/

theorem State.readVdd_keeps {s : State} {mv : ℕ} (hs : Keeps b s0 s) :
    Keeps b s0 (State.readVdd s mv) := by
  unfold State.readVdd
  refine State.setFlag_keeps ?_
  refine State.update_keeps ?_
  exact hs

theorem State.renameAborts_keeps {s : State} (hs : Keeps b s0 s) :
    Keeps b s0 (State.renameAborts s) := by
  unfold State.renameAborts
  extract_lets -merge -underBinder x0 x1
  try clear_value x1
  have h2 : Keeps b s0 x0 := by
    unfold x0
    split
    · refine State.when_keeps ?_ ?_
      · exact hs
      · intro _ h3
        refine State.each_keeps ?_ ?_
        · exact h3
        · intro _ _ h4
          refine State.set_keeps ?_
          exact h4
    · exact hs
  clear_value x0
  exact Keeps.congr h2 rfl rfl rfl rfl (fun _ => rfl)

theorem State.monitor_keeps {s : State} {spent : ℕ} (hs : Keeps b s0 s) :
    Keeps b s0 (State.monitor s spent) := by
  unfold State.monitor
  exact Keeps.congr hs rfl rfl rfl rfl (fun _ => rfl)

theorem State.brownoutWarn_keeps {s : State} {mv : ℕ} (hs : Keeps b s0 s) :
    Keeps b s0 (State.brownoutWarn s mv) := by
  unfold State.brownoutWarn
  refine Keeps.ite ?_ ?_
  · refine State.readVdd_keeps ?_
    exact hs
  · extract_lets -merge -underBinder x0 x1 x2 x3
    have h4 : Keeps b s0 x0 := by
      refine State.monitor_keeps ?_
      exact hs
    clear_value x0
    have h5 : Keeps b s0 x1 := by
      refine State.set_keeps ?_
      refine State.readVdd_keeps ?_
      exact h4
    clear_value x1
    have h6 : Keeps b s0 x2 := by
      refine State.updateFlag_keeps ?_
      refine State.setFlag_keeps ?_
      exact h5
    clear_value x2
    have h7 : Keeps b s0 x3 := by
      refine State.excursion_keeps ?_
      refine State.renameAborts_keeps ?_
      refine State.countRaise_keeps ?_
      exact h6
    clear_value x3
    exact Keeps.congr h7 rfl rfl rfl rfl (fun _ => rfl)

theorem execBrownoutWarn_keeps {mv : BitVec 12} {s : State} (hs : Keeps b s0 s) :
    KeepsOut b s0 (execBrownoutWarn mv s) := by
  unfold execBrownoutWarn
  refine Keeps.mk_out ?_
  refine State.brownoutWarn_keeps ?_
  exact hs

theorem State.brownoutLong_keeps {s : State} (hs : Keeps b s0 s) :
    Keeps b s0 (State.brownoutLong s) := by
  unfold State.brownoutLong
  refine Keeps.ite ?_ ?_
  · refine State.tryHandover_keeps ?_
    refine State.countRaise_keeps ?_
    refine State.setFlag_keeps ?_
    exact hs
  · exact hs

theorem execBrownoutLong_keeps {s : State} (hs : Keeps b s0 s) :
    KeepsOut b s0 (execBrownoutLong s) := by
  unfold execBrownoutLong
  refine Keeps.mk_out ?_
  refine State.brownoutLong_keeps ?_
  exact hs

theorem execBoRecover_keeps {s : State} (hs : Keeps b s0 s) :
    KeepsOut b s0 (execBoRecover s) := by
  unfold execBoRecover
  refine Keeps.mk_out ?_
  refine Keeps.ite ?_ ?_
  · refine State.set_keeps ?_
    refine State.monitor_keeps ?_
    exact hs
  · exact hs

theorem State.brownoutEnd_keeps {s : State} (hs : Keeps false s0 s) :
    Keeps false s0 (State.brownoutEnd s) := by
  unfold State.brownoutEnd
  refine Keeps.ite ?_ ?_
  · extract_lets -merge -underBinder x0 x1
    have h2 : Keeps false s0 x0 := by
      refine State.setFlag_keeps ?_
      refine State.setFlag_keeps ?_
      refine State.set_keeps ?_
      exact hs
    clear_value x0
    have h3 : Keeps false s0 x1 := by
      refine State.raise_keeps ?_
      exact h2
    clear_value x1
    split
    · refine State.judgeCommand_keeps ?_
      refine State.withSec_keeps ?_
      exact h3
    · exact h3
  · exact hs

theorem execBrownoutEnd_keeps {s : State} (hs : Keeps false s0 s) :
    KeepsOut false s0 (execBrownoutEnd s) := by
  unfold execBrownoutEnd
  refine Keeps.mk_out ?_
  refine State.brownoutEnd_keeps ?_
  exact hs

theorem State.vddReading_keeps {s : State} {mv : ℕ} (hs : Keeps b s0 s) :
    Keeps b s0 (State.vddReading s mv) := by
  unfold State.vddReading
  extract_lets -merge -underBinder x0 x1 x2 x3 x4
  try clear_value x0
  try clear_value x2
  try clear_value x4
  have h5 : Keeps b s0 x1 := by
    refine State.readVdd_keeps ?_
    exact hs
  clear_value x1
  have h6 : Keeps b s0 x3 := by
    refine State.excursion_keeps ?_
    exact h5
  clear_value x3
  refine Keeps.ite ?_ ?_
  · exact h5
  · exact Keeps.congr h6 rfl rfl rfl rfl (fun _ => rfl)

theorem execVddWindowExcursion_keeps {mv : BitVec 12} {s : State} (hs : Keeps b s0 s) :
    KeepsOut b s0 (execVddWindowExcursion mv s) := by
  unfold execVddWindowExcursion
  refine Keeps.mk_out ?_
  refine State.vddReading_keeps ?_
  exact hs

theorem State.tjSample_keeps {s : State} {t : BitVec 12} (hs : Keeps b s0 s) :
    Keeps b s0 (State.tjSample s t) := by
  unfold State.tjSample
  extract_lets -merge -underBinder x0 x1
  try clear_value x0
  have h2 : Keeps b s0 x1 := by
    refine State.setFlag_keeps ?_
    refine State.set_keeps ?_
    exact hs
  clear_value x1
  refine Keeps.ite ?_ ?_
  · exact h2
  · refine State.excursion_keeps ?_
    refine State.raise_keeps ?_
    exact h2

theorem execTjRange_keeps {t : BitVec 12} {s : State} (hs : Keeps b s0 s) :
    KeepsOut b s0 (execTjRange t s) := by
  unfold execTjRange
  refine Keeps.mk_out ?_
  refine State.tjSample_keeps ?_
  exact hs

theorem State.gocWindow_keeps {s : State} {ref : ℕ} {fab : ℕ} {eng : ℕ} {early : Bool} (hs : Keeps b s0 s) :
    Keeps b s0 (State.gocWindow s ref fab eng early) := by
  unfold State.gocWindow
  extract_lets -merge -underBinder x0 x1 x2 x3 x4 x5 x6 x7 x8 x9 x10 x11 x12
  try clear_value x2
  try clear_value x3
  try clear_value x4
  try clear_value x7
  try clear_value x9
  try clear_value x10
  have h13 : Keeps b s0 x1 := by
    refine State.set_keeps ?_
    refine State.set_keeps ?_
    refine State.set_keeps ?_
    exact hs
  clear_value x1
  have h14 : Keeps b s0 x5 := by
    refine State.setFlag_keeps ?_
    refine State.setFlag_keeps ?_
    exact h13
  clear_value x5
  have h15 : Keeps b s0 x6 := by
    refine State.setFlag_keeps ?_
    refine State.setFlag_keeps ?_
    exact h14
  clear_value x6
  have h16 : Keeps b s0 x8 := by
    refine Keeps.ite ?_ ?_
    · exact h15
    · refine State.excursion_keeps ?_
      refine State.countRaise_keeps ?_
      exact h15
  clear_value x8
  have h17 : Keeps b s0 x11 := by
    exact Keeps.congr h16 rfl rfl rfl rfl (fun _ => rfl)
  clear_value x11
  have h18 : Keeps b s0 x12 := by
    refine State.when_keeps ?_ ?_
    · exact h17
    · intro _ h19
      refine State.countRaise_keeps ?_
      exact h19
  clear_value x12
  refine State.when_keeps ?_ ?_
  · exact h18
  · intro _ h20
    refine State.failSilence_keeps ?_
    refine State.reportUE_keeps ?_
    exact h20

theorem execGocWindow_keeps {ref : BitVec 16} {fab : BitVec 16} {eng : BitVec 16} {early : Bool} {s : State} (hs : Keeps b s0 s) :
    KeepsOut b s0 (execGocWindow ref fab eng early s) := by
  unfold execGocWindow
  refine Keeps.mk_out ?_
  refine State.gocWindow_keeps ?_
  exact hs

/-! Machine/Errors.lean. -/

theorem State.correctedError_keeps {s : State} {p : Page} {cell : ℕ} {word : ℕ} (hs : Keeps b s0 s) :
    Keeps b s0 (State.correctedError s p cell word) := by
  unfold State.correctedError
  extract_lets -merge -underBinder x0 x1 x2 x3 x4 x5 x6
  try clear_value x0
  try clear_value x2
  try clear_value x4
  have h7 : Keeps b s0 x5 := by
    exact Keeps.congr hs rfl rfl rfl rfl (fun _ => rfl)
  clear_value x5
  have h8 : Keeps b s0 x6 := by
    refine State.recordError_keeps ?_
    refine State.count_keeps ?_
    exact h7
  clear_value x6
  refine State.when_keeps ?_ ?_
  · exact h8
  · intro _ h9
    refine State.raise_keeps ?_
    exact h9

theorem State.loseBankSlot_keeps {s : State} {c : Line} {a2 : ℕ} {slot : ℕ} (hs : Keeps b s0 s) :
    Keeps b s0 (State.loseBankSlot s c a2 slot) := by
  unfold State.loseBankSlot
  split
  · exact hs
  · extract_lets -merge -underBinder x0
    have h1 : Keeps b s0 x0 := by
      refine State.when_keeps ?_ ?_
      · exact hs
      · intro _ h2
        exact Keeps.congr h2 rfl rfl rfl rfl (fun _ => rfl)
    clear_value x0
    refine State.clearRange_keeps ?_
    refine State.withBank_keeps ?_
    exact h1

theorem State.dropFifoElement_keeps {s : State} {c : ℕ} {f : ℕ} {i : ℕ} (hs : Keeps b s0 s) :
    Keeps b s0 (State.dropFifoElement s c f i) := by
  unfold State.dropFifoElement
  extract_lets -merge -underBinder x0 x1 x2 x3 x4
  try clear_value x0
  try clear_value x1
  try clear_value x2
  have h5 : Keeps b s0 x3 := by
    refine State.each_keeps ?_ ?_
    · exact hs
    · intro _ _ h6
      refine State.copyRange_keeps ?_
      exact h6
  clear_value x3
  have h7 : Keeps b s0 x4 := by
    refine State.clearRange_keeps ?_
    exact h5
  clear_value x4
  refine Keeps.ite ?_ ?_
  · refine State.clearRange_keeps ?_
    exact hs
  · refine State.set_keeps ?_
    refine State.set_keeps ?_
    exact h7

theorem State.loseCanWord_keeps {s : State} {c : ℕ} {off : ℕ} (hs : Keeps b s0 s) :
    Keeps b s0 (State.loseCanWord s c off) := by
  unfold State.loseCanWord
  extract_lets -merge -underBinder x0 x1 x2 x3 x4 x5
  try clear_value x0
  try clear_value x2
  try clear_value x3
  try clear_value x4
  have h6 : Keeps b s0 x1 := by
    refine State.count_keeps ?_
    exact hs
  clear_value x1
  have h7 : Keeps b s0 x5 := by
    refine State.clearRange_keeps ?_
    exact h6
  clear_value x5
  refine Keeps.ite ?_ ?_
  · refine State.writeCanCfg_keeps ?_ ?_
    · exact h6
    · intro _ h8
      refine State.askCancel_keeps ?_
      exact h8
  · refine Keeps.ite ?_ ?_
    · refine State.dropFifoElement_keeps ?_
      exact h6
    · refine Keeps.ite ?_ ?_
      · refine Keeps.ite ?_ ?_
        · refine State.resync_keeps ?_
          exact h6
        · refine Keeps.ite ?_ ?_
          · refine State.endRequest_keeps ?_
            exact h6
          · exact h6
      · refine Keeps.ite ?_ ?_
        · refine State.withCan_keeps ?_
          refine State.setNewData_keeps ?_
          exact h7
        · refine State.withCan_keeps ?_
          exact h7

theorem State.loseMvbWord_keeps {s : State} {j : ℕ} {off : ℕ} (hs : Keeps b s0 s) :
    Keeps b s0 (State.loseMvbWord s j off) := by
  unfold State.loseMvbWord
  extract_lets -merge -underBinder x0 x1 x2
  try clear_value x0
  try clear_value x1
  try clear_value x2
  refine Keeps.ite ?_ ?_
  · refine Keeps.ite ?_ ?_
    · refine State.resync_keeps ?_
      exact hs
    · refine State.withMvb_keeps ?_
      refine State.clearRange_keeps ?_
      exact hs
  · refine Keeps.ite ?_ ?_
    · refine State.setBeWord_keeps ?_
      exact hs
    · exact hs

theorem State.loseSharedWord_keeps {s : State} {c : Line} {off : ℕ} (hs : Keeps b s0 s) :
    Keeps b s0 (State.loseSharedWord s c off) := by
  unfold State.loseSharedWord
  extract_lets -merge -underBinder x0
  try clear_value x0
  split
  · have h1 := Keeps.of_snd (b := b) (s := s0) ‹_ = (_, _)› (by
        refine State.draw_keeps ?_
        exact hs
      )
    extract_lets -merge -underBinder x2
    try clear_value x2
    refine State.setBytes_keeps ?_
    refine State.setBytes_keeps ?_
    exact h1

theorem State.loseFrame_keeps {s : State} {id : ℕ} (hs : Keeps b s0 s) :
    Keeps b s0 (State.loseFrame s id) := by
  unfold State.loseFrame
  refine State.each_keeps ?_ ?_
  · exact hs
  · intro _ _ h0
    refine State.discard_keeps ?_
    exact h0

theorem State.dropTrdpEntry_keeps {s : State} {receive : Bool} {e : ℕ} (hs : Keeps b s0 s) :
    Keeps b s0 (State.dropTrdpEntry s receive e) := by
  unfold State.dropTrdpEntry
  extract_lets -merge -underBinder x0
  try clear_value x0
  refine State.setByte_keeps ?_
  exact hs

theorem State.loseTrdpWord_keeps {s : State} {off : ℕ} (hs : Keeps b s0 s) :
    Keeps b s0 (State.loseTrdpWord s off) := by
  unfold State.loseTrdpWord
  extract_lets -merge -underBinder x0
  try clear_value x0
  split
  · extract_lets -merge -underBinder x1
    have h2 : Keeps b s0 x1 := by
      refine State.clearRange_keeps ?_
      exact hs
    clear_value x1
    exact Keeps.congr h2 rfl rfl rfl rfl (fun _ => rfl)
  · extract_lets -merge -underBinder x3
    try clear_value x3
    refine Keeps.ite ?_ ?_
    · refine State.resync_keeps ?_
      exact hs
    · refine State.dropTrdpEntry_keeps ?_
      exact hs
  · refine State.clearRange_keeps ?_
    exact hs

theorem State.loseEpoch_keeps {s : State} (hs : Keeps b s0 s) :
    Keeps b s0 (State.loseEpoch s) := by
  unfold State.loseEpoch
  refine Keeps.ite ?_ ?_
  · refine State.epochFail_keeps ?_
    exact hs
  · refine State.withTwin_keeps ?_
    exact hs

theorem State.loseDough_keeps {s : State} (hs : Keeps b s0 s) :
    Keeps b s0 (State.loseDough s) := by
  unfold State.loseDough
  refine State.setDoubtfulReq_keeps ?_
  refine State.setReady_keeps ?_
  exact hs

theorem State.loseHold_keeps {s : State} (hs : Keeps b s0 s) :
    Keeps b s0 (State.loseHold s) := by
  unfold State.loseHold
  exact Keeps.congr hs rfl rfl rfl rfl (fun _ => rfl)

theorem State.loseStaging_keeps {s : State} (hs : Keeps b s0 s) :
    Keeps b s0 (State.loseStaging s) := by
  unfold State.loseStaging
  exact Keeps.congr hs rfl rfl rfl rfl (fun _ => rfl)

theorem State.loseBridge_keeps {s : State} {p : Page} (hs : Keeps b s0 s) :
    Keeps b s0 (State.loseBridge s p) := by
  unfold State.loseBridge
  split
  · exact Keeps.congr hs rfl rfl rfl rfl (fun _ => rfl)
  · refine State.withForming_keeps ?_
    exact Keeps.congr hs rfl rfl rfl rfl (fun _ => rfl)
  · exact Keeps.congr hs rfl rfl rfl rfl (fun _ => rfl)

theorem State.isolateCell_keeps {s : State} {p : Page} {cell : ℕ} {cause : ℕ} {word : ℕ} (hs : Keeps b s0 s) :
    Keeps b s0 (State.isolateCell s p cell cause word) := by
  unfold State.isolateCell
  refine Keeps.ite ?_ ?_
  · exact hs
  · extract_lets -merge -underBinder x0 x1
    try clear_value x1
    have h2 : Keeps b s0 x0 := by
      refine State.setFlag_keeps ?_
      refine State.classDE_keeps ?_
      exact hs
    clear_value x0
    exact Keeps.congr h2 rfl rfl rfl rfl (fun _ => rfl)

theorem State.worsenMove_keeps {s : State} {c : Line} {r : ℕ} {lost : Bool} (hs : Keeps b s0 s) :
    Keeps b s0 (State.worsenMove s c r lost) := by
  unfold State.worsenMove
  exact Keeps.congr hs rfl rfl rfl rfl (fun _ => rfl)

theorem State.engineError_keeps {s : State} {c : Line} {i : ℕ} {kind : ErrKind} {word : ℕ} (hs : Keeps b s0 s) :
    Keeps b s0 (State.engineError s c i kind word) := by
  unfold State.engineError
  refine Keeps.ite ?_ ?_
  · exact hs
  · extract_lets -merge -underBinder x0 x1 x2 x3
    try clear_value x0
    try clear_value x1
    try clear_value x2
    split
    · refine State.failEngine_keeps ?_
      exact hs
    · extract_lets -merge -underBinder x4
      have h5 : Keeps b s0 x4 := by
        refine State.when_keeps ?_ ?_
        · exact hs
        · intro _ h6
          refine State.clearRange_keeps ?_
          exact h6
      clear_value x4
      refine Keeps.ite ?_ ?_
      · refine State.when_keeps ?_ ?_
        · exact h5
        · intro _ h7
          refine State.worsenMove_keeps ?_
          exact h7
      · refine State.failEngine_keeps ?_
        exact h5

theorem State.regionUE_keeps {s : State} {p : Page} {c : Line} {cell : ℕ} {cause : ℕ} {word : ℕ} (hs : Keeps b s0 s) :
    Keeps b s0 (State.regionUE s p c cell cause word) := by
  unfold State.regionUE
  refine State.quarantineWith_keeps ?_
  refine State.reportUE_keeps ?_
  exact hs

theorem State.chipUE_keeps {s : State} {p : Page} {region : ℕ} {cell : ℕ} {cause : ℕ} {word : ℕ} (hs : Keeps b s0 s) :
    Keeps b s0 (State.chipUE s p region cell cause word) := by
  unfold State.chipUE
  refine State.failSilence_keeps ?_
  refine State.reportUE_keeps ?_
  exact hs

theorem State.uncorrectable_keeps {s : State} {site : ErrSite} {kind : ErrKind} {word : ℕ} (hs : Keeps b s0 s) :
    Keeps b s0 (State.uncorrectable s site kind word) := by
  unfold State.uncorrectable
  split
  · extract_lets -merge -underBinder x0 x1
    try clear_value x0
    have h2 : ∀ (y0 : State → State), (∀ z, Keeps b s0 z → Keeps b s0 (y0 z)) → Keeps b s0 (x1 y0) := by
      intro _ h3
      refine h3 _ ?_
      refine State.classDE_keeps ?_
      exact hs
    clear_value x1
    split
    · refine State.engineError_keeps ?_
      exact hs
    · refine State.failLane_keeps ?_
      exact hs
    · refine h2 _ ?_
      intro _ h4
      refine State.withKneader_keeps ?_
      exact h4
    · refine State.failCrypto_keeps ?_
      exact hs
    · refine State.isolateCell_keeps ?_
      exact hs
    · refine State.isolateCell_keeps ?_
      exact hs
    · refine State.isolateCell_keeps ?_
      exact hs
    · refine State.isolateCell_keeps ?_
      exact hs
    · refine State.isolateCell_keeps ?_
      refine State.when_keeps ?_ ?_
      · exact hs
      · intro _ h5
        refine State.endSession_keeps ?_
        exact h5
    · refine h2 _ ?_
      intro _ h6
      refine State.loseBankSlot_keeps ?_
      exact h6
    · refine h2 _ ?_
      intro _ h7
      refine State.closeDraft_keeps ?_
      exact h7
    · refine h2 _ ?_
      intro _ h8
      refine State.loseFrame_keeps ?_
      exact h8
    · refine h2 _ ?_
      intro _ h9
      refine State.loseTrdpWord_keeps ?_
      exact h9
    · refine h2 _ ?_
      intro _ h10
      refine State.dropTrdpEntry_keeps ?_
      exact h10
    · refine h2 _ ?_
      intro _ h11
      refine State.loseCanWord_keeps ?_
      exact h11
    · refine h2 _ ?_
      intro _ h12
      refine State.loseMvbWord_keeps ?_
      exact h12
    · refine h2 _ ?_
      intro _ h13
      refine State.loseSharedWord_keeps ?_
      exact h13
    · refine h2 _ ?_
      intro _ h14
      refine State.loseDough_keeps ?_
      exact h14
    · refine h2 _ ?_
      intro _ h15
      refine State.loseHold_keeps ?_
      exact h15
    · refine h2 _ ?_
      intro _ h16
      refine State.loseStaging_keeps ?_
      exact h16
    · refine h2 _ ?_
      intro _ h17
      refine State.loseBridge_keeps ?_
      exact h17
    · refine h2 _ ?_
      intro _ h18
      refine State.loseEpoch_keeps ?_
      exact h18
    · refine h2 _ ?_
      intro _ h19
      refine State.excursion_keeps ?_
      exact h19
    · refine State.regionUE_keeps ?_
      exact hs
    · refine State.regionUE_keeps ?_
      exact hs
    · refine State.chipUE_keeps ?_
      exact hs
    · refine State.chipUE_keeps ?_
      exact hs

theorem State.errorAt_keeps {s : State} {site : ErrSite} {kind : ErrKind} {word : ℕ} (hs : Keeps b s0 s) :
    Keeps b s0 (State.errorAt s site kind word) := by
  unfold State.errorAt
  split
  · refine Keeps.ite ?_ ?_
    · exact hs
    · split
      · refine State.correctedError_keeps ?_
        exact hs
      · refine State.uncorrectable_keeps ?_
        exact hs

theorem execMemoryError_keeps {site : ErrSite} {kind : ErrKind} {word : BitVec 20} {s : State} (hs : Keeps b s0 s) :
    KeepsOut b s0 (execMemoryError site kind word s) := by
  unfold execMemoryError
  refine Keeps.mk_out ?_
  refine State.errorAt_keeps ?_
  exact hs

theorem execScrubRead_keeps {site : ErrSite} {found : Option ErrKind} {word : BitVec 20} {s : State} (hs : Keeps b s0 s) :
    KeepsOut b s0 (execScrubRead site found word s) := by
  unfold execScrubRead
  refine Keeps.mk_out ?_
  split
  · refine State.errorAt_keeps ?_
    exact hs
  · exact hs

theorem State.crossbarTimeout_keeps {s : State} {target : ℕ} (hs : Keeps b s0 s) :
    Keeps b s0 (State.crossbarTimeout s target) := by
  unfold State.crossbarTimeout
  extract_lets -merge -underBinder x0 x1 x2 x3
  try clear_value x0
  try clear_value x1
  have h4 : Keeps b s0 x2 := by
    exact Keeps.congr hs rfl rfl rfl rfl (fun _ => rfl)
  clear_value x2
  have h5 : Keeps b s0 x3 := by
    refine State.countRaise_keeps ?_
    exact h4
  clear_value x3
  refine Keeps.ite ?_ ?_
  · refine State.classDE_keeps ?_
    exact h5
  · split
    · refine State.regionUE_keeps ?_
      exact h5
    · refine State.regionUE_keeps ?_
      exact h5
    · refine State.chipUE_keeps ?_
      exact h5

theorem execLockstepMiscompare_keeps {s : State} (hs : Keeps b s0 s) :
    KeepsOut b s0 (execLockstepMiscompare s) := by
  unfold execLockstepMiscompare
  refine Keeps.mk_out ?_
  refine Keeps.ite ?_ ?_
  · refine State.quarantineMark_keeps ?_
    refine State.quarantineMark_keeps ?_
    refine State.chipUE_keeps ?_
    exact hs
  · exact hs

/-! Machine/Intc.lean. -/

theorem State.setPba_keeps {s : State} {v : ℕ} {a2 : Bool} (hs : Keeps b s0 s) :
    Keeps b s0 (State.setPba s v a2) := by
  unfold State.setPba
  refine State.setByte_keeps ?_
  exact hs

theorem State.sendMsix_keeps {s : State} {v : ℕ} (hs : Keeps b s0 s) :
    Keeps b s0 (State.sendMsix s v) := by
  unfold State.sendMsix
  refine Keeps.ite ?_ ?_
  · refine State.emit_keeps ?_
    exact hs
  · refine State.count_keeps ?_
    exact hs

theorem State.passMsix_keeps {s : State} {v : ℕ} (hs : Keeps b s0 s) :
    Keeps b s0 (State.passMsix s v) := by
  unfold State.passMsix
  refine Keeps.ite ?_ ?_
  · refine State.setPba_keeps ?_
    exact hs
  · refine State.sendMsix_keeps ?_
    exact hs

theorem State.unmaskMsix_keeps {s : State} (hs : Keeps b s0 s) :
    Keeps b s0 (State.unmaskMsix s) := by
  unfold State.unmaskMsix
  refine State.each_keeps ?_ ?_
  · exact hs
  · intro _ _ h0
    refine Keeps.ite ?_ ?_
    · refine State.sendMsix_keeps ?_
      refine State.setPba_keeps ?_
      exact h0
    · exact h0

theorem State.msixMessage_keeps {s : State} {v : ℕ} (hs : Keeps b s0 s) :
    Keeps b s0 (State.msixMessage s v) := by
  unfold State.msixMessage
  refine Keeps.ite ?_ ?_
  · refine State.passMsix_keeps ?_
    refine State.count_keeps ?_
    refine State.set64_keeps ?_
    exact hs
  · exact hs

theorem execMsixMessage_keeps {v : BitVec 6} {s : State} (hs : Keeps b s0 s) :
    KeepsOut b s0 (execMsixMessage v s) := by
  unfold execMsixMessage
  refine Keeps.mk_out ?_
  refine State.msixMessage_keeps ?_
  exact hs

theorem State.rearm_keeps {s : State} {mask : ℕ} (hs : Keeps b s0 s) :
    Keeps b s0 (State.rearm s mask) := by
  unfold State.rearm
  refine State.each_keeps ?_ ?_
  · refine State.set64_keeps ?_
    exact hs
  · intro _ _ h0
    refine State.msixMessage_keeps ?_
    exact h0

theorem execVecRearm_keeps {mask : BitVec 64} {s : State} (hs : Keeps b s0 s) :
    KeepsOut b s0 (execVecRearm mask s) := by
  unfold execVecRearm
  refine Keeps.mk_out ?_
  refine State.rearm_keeps ?_
  exact hs

/-! Machine/Switch.lean. -/

theorem State.forwardTo_keeps {s : State} {t : Transit} {set : List ℕ} (hs : Keeps b s0 s) :
    KeepsFst b s0 (State.forwardTo s t set) := by
  unfold State.forwardTo
  extract_lets -merge -underBinder x0 x1 x2
  try clear_value x0
  try clear_value x2
  have h3 : Keeps b s0 x1 := by
    refine State.countBy_keeps ?_
    exact hs
  clear_value x1
  split
  · have h4 := Keeps.of_fst (b := b) (s := s0) ‹_ = (_, _)› (by
        refine State.enqueue_keeps ?_
        exact h3
      )
    extract_lets -merge -underBinder x5 x6
    try clear_value x5
    have h7 : Keeps b s0 x6 := by
      refine State.each_keeps ?_ ?_
      · exact h4
      · intro _ _ h8
        refine State.deliverRing_keeps ?_
        exact h8
    clear_value x6
    refine Keeps.mk_fst ?_
    refine State.checkPause_keeps ?_
    exact h7

theorem State.generate_keeps {s : State} {t : Transit} (hs : Keeps b s0 s) :
    KeepsFst b s0 (State.generate s t) := by
  unfold State.generate
  refine Keeps.ite_fst ?_ ?_
  · refine Keeps.mk_fst ?_
    exact hs
  · split
    · extract_lets -merge -underBinder x0
      try clear_value x0
      refine Keeps.mk_fst ?_
      refine State.setBeWord_keeps ?_
      exact hs
    · refine Keeps.mk_fst ?_
      exact hs

theorem State.forward_keeps {s : State} {t : Transit} (hs : Keeps b s0 s) :
    KeepsFst b s0 (State.forward s t) := by
  unfold State.forward
  split
  · refine Keeps.mk_fst ?_
    exact hs
  · split
    · extract_lets -merge -underBinder x0
      have h1 : Keeps b s0 x0 := by
        refine State.countBy_keeps ?_
        exact hs
      clear_value x0
      split
      · have h2 := Keeps.of_fst (b := b) (s := s0) ‹_ = (_, _)› (by
            refine Keeps.ite_fst ?_ ?_
            · refine State.generate_keeps ?_
              exact h1
            · refine Keeps.mk_fst ?_
              exact h1
          )
        extract_lets -merge -underBinder x3 x4
        try clear_value x3
        try clear_value x4
        refine Keeps.ite_fst ?_ ?_
        · refine State.forwardTo_keeps ?_
          exact h2
        · split
          · have h5 := Keeps.of_fst (b := b) (s := s0) ‹_ = (_, _)› (by
                refine State.forwardTo_keeps ?_
                exact h2
              )
            split
            · have h6 := Keeps.of_fst (b := b) (s := s0) ‹_ = (_, _)› (by
                  refine State.forwardTo_keeps ?_
                  exact h5
                )
              refine Keeps.mk_fst ?_
              exact h6

theorem State.countFilter_keeps {s : State} {i : ℕ} {pass : Bool} (hs : Keeps b s0 s) :
    Keeps b s0 (State.countFilter s i pass) := by
  unfold State.countFilter
  extract_lets -merge -underBinder x0
  try clear_value x0
  split
  · refine State.setBeWord_keeps ?_
    exact hs

theorem State.checkStream_keeps {s : State} {i : ℕ} {len : ℕ} {sof : BitVec 64} (hs : Keeps b s0 s) :
    KeepsFst b s0 (State.checkStream s i len sof) := by
  unfold State.checkStream
  extract_lets -merge -underBinder x0 x1 x2 x3 x4 x5 x6 x7 x8
  try clear_value x0
  try clear_value x1
  try clear_value x2
  try clear_value x3
  try clear_value x4
  try clear_value x5
  try clear_value x6
  have h9 : Keeps b s0 x7 := by
    unfold x7
    split
    · refine State.withSwitch_keeps ?_
      exact hs
    · exact hs
  clear_value x7
  have h10 : Keeps b s0 x8 := by
    refine State.count_keeps ?_
    refine State.countFilter_keeps ?_
    exact h9
  clear_value x8
  refine Keeps.ite_fst ?_ ?_
  · refine Keeps.mk_fst ?_
    refine State.when_keeps ?_ ?_
    · exact h10
    · intro _ h11
      refine State.raise_keeps ?_
      refine State.setBeWord_keeps ?_
      exact h11
  · refine Keeps.mk_fst ?_
    refine State.countFilter_keeps ?_
    exact h9

theorem State.star_keeps {s : State} {q : ℕ} {handle : Option ℕ} {len : ℕ} {sof : BitVec 64} (hs : Keeps b s0 s) :
    KeepsFst b s0 (State.star s q handle len sof) := by
  unfold State.star
  refine Keeps.ite_fst ?_ ?_
  · refine Keeps.mk_fst ?_
    exact hs
  · split
    · refine State.checkStream_keeps ?_
      exact hs
    · refine State.checkStream_keeps ?_
      exact hs
    · refine Keeps.mk_fst ?_
      refine State.count_keeps ?_
      exact hs
    · refine Keeps.mk_fst ?_
      exact hs

theorem State.setRecovery_keeps {s : State} {r : Recovery} (hs : Keeps b s0 s) :
    Keeps b s0 (State.setRecovery s r) := by
  unfold State.setRecovery
  refine State.withSwitch_keeps ?_
  exact hs

theorem State.countWord_keeps {s : State} {a : ℕ} (hs : Keeps b s0 s) :
    Keeps b s0 (State.countWord s a) := by
  unfold State.countWord
  refine State.setBeWord_keeps ?_
  exact hs

theorem State.recover_keeps {s : State} {i : ℕ} {seq : ℕ} (hs : Keeps b s0 s) :
    KeepsFst b s0 (State.recover s i seq) := by
  unfold State.recover
  extract_lets -merge -underBinder x0 x1 x2 x3 x4
  try clear_value x0
  try clear_value x1
  try clear_value x2
  try clear_value x3
  have h5 : ∀ (y0 : State) (y1 : List Bool) (y2 : ℕ), Keeps b s0 y0 → KeepsFst b s0 (x4 y0 y1 y2) := by
    intro _ _ _ h6
    refine Keeps.mk_fst ?_
    refine State.countWord_keeps ?_
    refine State.setBeWord_keeps ?_
    refine State.setRecovery_keeps ?_
    exact h6
  clear_value x4
  refine Keeps.ite_fst ?_ ?_
  · refine h5 _ _ _ ?_
    exact hs
  · refine Keeps.ite_fst ?_ ?_
    · refine Keeps.mk_fst ?_
      refine State.count_keeps ?_
      refine State.countWord_keeps ?_
      exact hs
    · refine Keeps.ite_fst ?_ ?_
      · refine Keeps.ite_fst ?_ ?_
        · refine Keeps.mk_fst ?_
          refine State.count_keeps ?_
          refine State.countWord_keeps ?_
          exact hs
        · refine h5 _ _ _ ?_
          exact hs
      · refine h5 _ _ _ ?_
        exact hs

theorem execCbReset_keeps {fn : Byte} {s : State} (hs : Keeps b s0 s) :
    KeepsOut b s0 (execCbReset fn s) := by
  unfold execCbReset
  refine Keeps.mk_out ?_
  extract_lets -merge -underBinder x0 x1 x2
  try clear_value x0
  try clear_value x1
  try clear_value x2
  refine Keeps.ite ?_ ?_
  · refine State.countRaise_keeps ?_
    refine State.countWord_keeps ?_
    refine State.setRecovery_keeps ?_
    exact hs
  · exact hs

theorem State.trdpReceive_keeps {s : State} {e : Eth} (hs : Keeps b s0 s) :
    KeepsFst b s0 (State.trdpReceive s e) := by
  unfold State.trdpReceive
  extract_lets -merge -underBinder x0
  try clear_value x0
  split
  · refine Keeps.ite_fst ?_ ?_
    · refine Keeps.mk_fst ?_
      exact hs
    · extract_lets -merge -underBinder x1
      try clear_value x1
      split
      · refine Keeps.mk_fst ?_
        exact hs
      · extract_lets -merge -underBinder x2 x3 x4 x5 x6 x7 x8 x9 x10 x11
        try clear_value x2
        try clear_value x3
        try clear_value x4
        try clear_value x7
        try clear_value x8
        have h12 : Keeps b s0 x9 := by
          refine State.setBytes_keeps ?_
          exact hs
        clear_value x9
        have h13 : Keeps b s0 x10 := by
          refine State.setBytes_keeps ?_
          refine State.setBytes_keeps ?_
          refine State.setBytes_keeps ?_
          exact h12
        clear_value x10
        have h14 : Keeps b s0 x11 := by
          exact Keeps.congr h13 rfl rfl rfl rfl (fun _ => rfl)
        clear_value x11
        refine Keeps.ite_fst ?_ ?_
        · refine Keeps.mk_fst ?_
          refine State.countRaise_keeps ?_
          exact hs
        · refine Keeps.ite_fst ?_ ?_
          · refine Keeps.mk_fst ?_
            refine State.countRaise_keeps ?_
            exact hs
          · refine Keeps.ite_fst ?_ ?_
            · refine Keeps.mk_fst ?_
              refine State.count_keeps ?_
              exact hs
            · refine Keeps.ite_fst ?_ ?_
              · refine Keeps.mk_fst ?_
                refine State.countRaise_keeps ?_
                exact hs
              · refine Keeps.mk_fst ?_
                refine State.rxTriggers_keeps ?_
                exact h14
  · refine Keeps.mk_fst ?_
    exact hs

theorem State.ingress_keeps {s : State} {q : ℕ} {e : Eth} {len : ℕ} {sof : BitVec 64} {prio : Option ℕ} {ring : Option ℕ}
    (hs : Keeps b s0 s) :
    KeepsFst b s0 (State.ingress s q e len sof prio ring) := by
  unfold State.ingress
  extract_lets -merge -underBinder x0
  try clear_value x0
  split
  · refine Keeps.mk_fst ?_
    exact hs
  · extract_lets -merge -underBinder x1 x2 x3 x4
    try clear_value x2
    try clear_value x4
    have h5 : Keeps b s0 x3 := by
      refine State.learn_keeps ?_
      exact hs
    clear_value x3
    refine Keeps.ite_fst ?_ ?_
    · refine Keeps.mk_fst ?_
      refine State.count_keeps ?_
      exact hs
    · split
      · refine State.forwardTo_keeps ?_
        refine State.countRaise_keeps ?_
        exact h5
      · split
        · have h6 := Keeps.of_fst (b := b) (s := s0) ‹_ = (_, _)› (by
              refine State.star_keeps ?_
              exact h5
            )
          refine Keeps.ite_fst ?_ ?_
          · refine Keeps.mk_fst ?_
            exact h6
          · split
            · split
              · have h7 := Keeps.of_fst (b := b) (s := s0) ‹_ = (_, _)› (by
                    refine State.recover_keeps ?_
                    exact h6
                  )
                refine Keeps.ite_fst ?_ ?_
                · split
                  · have h8 := Keeps.of_fst (b := b) (s := s0) ‹_ = (_, _)› (by
                        refine State.trdpReceive_keeps ?_
                        exact h7
                      )
                    refine Keeps.ite_fst ?_ ?_
                    · refine State.forward_keeps ?_
                      exact h8
                    · refine Keeps.mk_fst ?_
                      exact h8
                · refine Keeps.ite_fst ?_ ?_
                  · extract_lets -merge -underBinder x9
                    try clear_value x9
                    refine State.forwardTo_keeps ?_
                    exact h7
                  · refine Keeps.mk_fst ?_
                    exact h7
            · split
              · have h10 := Keeps.of_fst (b := b) (s := s0) ‹_ = (_, _)› (by
                    refine State.trdpReceive_keeps ?_
                    exact h6
                  )
                refine Keeps.ite_fst ?_ ?_
                · refine State.forward_keeps ?_
                  exact h10
                · refine Keeps.mk_fst ?_
                  exact h10

theorem State.takePause_keeps {s : State} {q : ℕ} {quanta : ℕ} (hs : Keeps b s0 s) :
    Keeps b s0 (State.takePause s q quanta) := by
  unfold State.takePause
  refine Keeps.ite ?_ ?_
  · refine State.count_keeps ?_
    exact hs
  · extract_lets -merge -underBinder x0 x1 x2
    try clear_value x1
    have h3 : Keeps b s0 x0 := by
      refine State.count_keeps ?_
      exact hs
    clear_value x0
    have h4 : Keeps b s0 x2 := by
      refine State.withPort_keeps ?_
      exact h3
    clear_value x2
    refine Keeps.ite ?_ ?_
    · exact h3
    · refine Keeps.ite ?_ ?_
      · refine State.set_keeps ?_
        exact h3
      · refine State.set_keeps ?_
        exact h4

theorem execPauseFrameRx_keeps {q : BitVec 4} {quanta : BitVec 16} {s : State} (hs : Keeps b s0 s) :
    KeepsOut b s0 (execPauseFrameRx q quanta s) := by
  unfold execPauseFrameRx
  refine Keeps.mk_out ?_
  refine Keeps.ite ?_ ?_
  · refine State.takePause_keeps ?_
    exact hs
  · exact hs

theorem execPauseExpiry_keeps {q : BitVec 4} {s : State} (hs : Keeps b s0 s) :
    KeepsOut b s0 (execPauseExpiry q s) := by
  unfold execPauseExpiry
  refine Keeps.mk_out ?_
  refine Keeps.ite ?_ ?_
  · refine State.set_keeps ?_
    exact hs
  · exact hs

theorem execPauseStorm_keeps {q : BitVec 4} {s : State} (hs : Keeps b s0 s) :
    KeepsOut b s0 (execPauseStorm q s) := by
  unfold execPauseStorm
  refine Keeps.mk_out ?_
  extract_lets -merge -underBinder x0
  try clear_value x0
  refine Keeps.ite ?_ ?_
  · refine State.withPort_keeps ?_
    refine State.raiseMac_keeps ?_
    refine State.count_keeps ?_
    refine State.set_keeps ?_
    refine State.set_keeps ?_
    exact hs
  · exact hs

theorem execPauseStormEnd_keeps {q : BitVec 4} {s : State} (hs : Keeps b s0 s) :
    KeepsOut b s0 (execPauseStormEnd q s) := by
  unfold execPauseStormEnd
  refine Keeps.mk_out ?_
  extract_lets -merge -underBinder x0
  try clear_value x0
  refine Keeps.ite ?_ ?_
  · refine State.raiseMac_keeps ?_
    refine State.set_keeps ?_
    exact hs
  · exact hs

theorem execPauseTxRepeat_keeps {q : BitVec 4} {s : State} (hs : Keeps b s0 s) :
    KeepsOut b s0 (execPauseTxRepeat q s) := by
  unfold execPauseTxRepeat
  refine Keeps.mk_out ?_
  extract_lets -merge -underBinder x0
  try clear_value x0
  split
  · refine Keeps.ite ?_ ?_
    · refine Keeps.ite ?_ ?_
      · refine State.checkPause_keeps ?_
        exact hs
      · refine Keeps.ite ?_ ?_
        · refine State.withPort_keeps ?_
          refine State.sendPause_keeps ?_
          exact hs
        · exact hs
    · exact hs
  · exact hs

theorem State.withAs_keeps {s : State} {m : ℕ} {f : AsPort → AsPort} (hs : Keeps b s0 s) :
    Keeps b s0 (State.withAs s m f) := by
  unfold State.withAs
  refine State.withSwitch_keeps ?_
  exact hs

theorem execAsSyncTx_keeps {m : BitVec 3} {sfd : BitVec 64} {s : State} (hs : Keeps b s0 s) :
    KeepsOut b s0 (execAsSyncTx m sfd s) := by
  unfold execAsSyncTx
  refine Keeps.mk_out ?_
  extract_lets -merge -underBinder x0 x1 x2 x3
  try clear_value x0
  try clear_value x1
  have h4 : Keeps b s0 x2 := by
    refine State.withTime_keeps ?_ ?_
    · exact hs
    · exact fun _ _ => rfl
  clear_value x2
  have h5 : Keeps b s0 x3 := by
    refine State.withAs_keeps ?_
    exact h4
  clear_value x3
  refine Keeps.ite ?_ ?_
  · refine State.emit_keeps ?_
    refine State.emit_keeps ?_
    exact h5
  · exact hs

theorem State.writeAsOffs_keeps {s : State} {v : BitVec 64} (hs : Keeps b s0 s) :
    Keeps b s0 (State.writeAsOffs s v) := by
  unfold State.writeAsOffs
  extract_lets -merge -underBinder x0 x1
  try clear_value x0
  have h2 : Keeps b s0 x1 := by
    refine State.when_keeps ?_ ?_
    · exact hs
    · intro _ h3
      refine State.stampConfig_keeps ?_
      exact h3
  clear_value x1
  refine State.withTime_keeps ?_ ?_
  · refine State.set_keeps ?_
    refine State.set64_keeps ?_
    exact h2
  · exact fun _ _ => rfl

theorem execAsOffsWrite_keeps {v : BitVec 64} {s : State} (hs : Keeps b s0 s) :
    KeepsOut b s0 (execAsOffsWrite v s) := by
  unfold execAsOffsWrite
  refine Keeps.mk_out ?_
  refine State.writeAsOffs_keeps ?_
  exact hs

theorem execAsAnnounceTx_keeps {m : BitVec 3} {s : State} (hs : Keeps b s0 s) :
    KeepsOut b s0 (execAsAnnounceTx m s) := by
  unfold execAsAnnounceTx
  refine Keeps.mk_out ?_
  extract_lets -merge -underBinder x0 x1 x2 x3 x4 x5
  try clear_value x0
  try clear_value x1
  try clear_value x2
  try clear_value x3
  try clear_value x4
  try clear_value x5
  refine Keeps.ite ?_ ?_
  · refine State.emit_keeps ?_
    refine State.withAs_keeps ?_
    exact hs
  · exact hs

theorem execAsPdelayReqTx_keeps {m : BitVec 3} {sfd : BitVec 64} {s : State} (hs : Keeps b s0 s) :
    KeepsOut b s0 (execAsPdelayReqTx m sfd s) := by
  unfold execAsPdelayReqTx
  refine Keeps.mk_out ?_
  extract_lets -merge -underBinder x0 x1
  try clear_value x0
  try clear_value x1
  refine Keeps.ite ?_ ?_
  · refine State.emit_keeps ?_
    refine State.withAs_keeps ?_
    exact hs
  · exact hs

theorem State.takeAs_keeps {s : State} {m : ℕ} {e : Eth} {sof : BitVec 64} (hs : Keeps b s0 s) :
    Keeps b s0 (State.takeAs s m e sof) := by
  unfold State.takeAs
  extract_lets -merge -underBinder x0 x1
  try clear_value x0
  try clear_value x1
  split
  · extract_lets -merge -underBinder x2 x3
    try clear_value x2
    have h4 : Keeps b s0 x3 := by
      refine State.withSwitch_keeps ?_
      refine State.withAs_keeps ?_
      exact hs
    clear_value x3
    refine State.when_keeps ?_ ?_
    · exact h4
    · intro _ h5
      refine State.raise_keeps ?_
      exact h5
  · refine Keeps.ite ?_ ?_
    · refine State.emit_keeps ?_
      refine State.emit_keeps ?_
      exact hs
    · exact hs
  · refine Keeps.ite ?_ ?_
    · refine State.withAs_keeps ?_
      exact hs
    · exact hs
  · refine Keeps.ite ?_ ?_
    · extract_lets -merge -underBinder x6 x7
      try clear_value x6
      try clear_value x7
      refine State.setFlag_keeps ?_
      refine State.set_keeps ?_
      exact hs
    · exact hs
  · exact hs

theorem State.frameError_keeps {s : State} {q : ℕ} {r : ℕ → Reg} (hs : Keeps b s0 s) :
    Keeps b s0 (State.frameError s q r) := by
  unfold State.frameError
  refine State.raiseMac_keeps ?_
  refine State.count_keeps ?_
  exact hs

theorem State.receive_keeps {s : State} {q : ℕ} {bytes : List Byte} {fcsOk : Bool} {sof : BitVec 64} (hs : Keeps b s0 s) :
    Keeps b s0 (State.receive s q bytes fcsOk sof) := by
  unfold State.receive
  refine Keeps.ite ?_ ?_
  · exact hs
  · refine Keeps.ite ?_ ?_
    · refine State.frameError_keeps ?_
      exact hs
    · refine Keeps.ite ?_ ?_
      · refine State.frameError_keeps ?_
        exact hs
      · refine Keeps.ite ?_ ?_
        · refine State.frameError_keeps ?_
          exact hs
        · extract_lets -merge -underBinder x0 x1 x2
          try clear_value x0
          try clear_value x1
          have h3 : Keeps b s0 x2 := by
            refine State.count_keeps ?_
            exact hs
          clear_value x2
          refine Keeps.ite ?_ ?_
          · refine Keeps.ite ?_ ?_
            · refine State.takePause_keeps ?_
              exact h3
            · exact h3
          · refine Keeps.ite ?_ ?_
            · refine State.count_keeps ?_
              exact h3
            · refine Keeps.ite ?_ ?_
              · refine Keeps.ite ?_ ?_
                · refine State.takeAs_keeps ?_
                  exact h3
                · exact h3
              · refine Keeps.ite ?_ ?_
                · exact h3
                · show KeepsFst b s0 _
                  refine State.ingress_keeps ?_
                  exact h3

theorem execFrameRx_keeps {q : BitVec 4} {bytes : List Byte} {fcsOk : Bool} {sof : BitVec 64} {s : State} (hs : Keeps b s0 s) :
    KeepsOut b s0 (execFrameRx q bytes fcsOk sof s) := by
  unfold execFrameRx
  refine Keeps.mk_out ?_
  refine Keeps.ite ?_ ?_
  · refine State.receive_keeps ?_
    exact hs
  · exact hs

theorem State.deferHeads_keeps {s : State} {q : ℕ} (hs : Keeps b s0 s) :
    Keeps b s0 (State.deferHeads s q) := by
  unfold State.deferHeads
  refine Keeps.ite ?_ ?_
  · extract_lets -merge -underBinder x0
    try clear_value x0
    refine State.countBy_keeps ?_
    refine State.withSwitch_keeps ?_
    exact hs
  · exact hs

theorem State.startFrame_keeps {s : State} {q : ℕ} {sfd : BitVec 64} (hs : Keeps b s0 s) :
    Keeps b s0 (State.startFrame s q sfd) := by
  unfold State.startFrame
  extract_lets -merge -underBinder x0
  have h1 : Keeps b s0 x0 := by
    refine State.deferHeads_keeps ?_
    exact hs
  clear_value x0
  split
  · extract_lets -merge -underBinder x2 x3 x4 x5 x6
    try clear_value x4
    have h7 : Keeps b s0 x2 := by
      refine State.dequeue_keeps ?_
      exact h1
    clear_value x2
    have h8 : Keeps b s0 x3 := by
      refine State.withPort_keeps ?_
      exact h7
    clear_value x3
    have h9 : Keeps b s0 x5 := by
      refine State.when_keeps ?_ ?_
      · exact h8
      · intro _ h10
        refine State.count_keeps ?_
        exact h10
    clear_value x5
    have h11 : Keeps b s0 x6 := by
      refine State.emit_keeps ?_
      refine State.count_keeps ?_
      exact h9
    clear_value x6
    refine State.checkPause_keeps ?_
    refine State.reportStart_keeps ?_
    exact h11
  · exact h1

theorem execFrameTxStart_keeps {q : BitVec 4} {sfd : BitVec 64} {s : State} (hs : Keeps b s0 s) :
    KeepsOut b s0 (execFrameTxStart q sfd s) := by
  unfold execFrameTxStart
  refine Keeps.mk_out ?_
  extract_lets -merge -underBinder x0
  try clear_value x0
  refine Keeps.ite ?_ ?_
  · refine State.startFrame_keeps ?_
    exact hs
  · exact hs

theorem execGateDrop_keeps {q : BitVec 4} {g : BitVec 3} {s : State} (hs : Keeps b s0 s) :
    KeepsOut b s0 (execGateDrop q g s) := by
  unfold execGateDrop
  refine Keeps.mk_out ?_
  split
  · refine Keeps.ite ?_ ?_
    · refine State.count_keeps ?_
      refine State.discard_keeps ?_
      exact hs
    · exact hs
  · exact hs

theorem execGclEntryExpiry_keeps {q : BitVec 4} {s : State} (hs : Keeps b s0 s) :
    KeepsOut b s0 (execGclEntryExpiry q s) := by
  unfold execGclEntryExpiry
  refine Keeps.mk_out ?_
  extract_lets -merge -underBinder x0
  try clear_value x0
  refine Keeps.ite ?_ ?_
  · refine State.withPort_keeps ?_
    exact hs
  · exact hs

theorem State.askSwap_keeps {s : State} {mask : ℕ} (hs : Keeps b s0 s) :
    Keeps b s0 (State.askSwap s mask) := by
  unfold State.askSwap
  refine State.update_keeps ?_
  exact hs

theorem execGclSwap_keeps {mask : BitVec 12} {s : State} (hs : Keeps b s0 s) :
    KeepsOut b s0 (execGclSwap mask s) := by
  unfold execGclSwap
  refine Keeps.mk_out ?_
  refine Keeps.ite ?_ ?_
  · refine State.askSwap_keeps ?_
    exact hs
  · exact hs

theorem State.tickSwitch_keeps {s : State} (hs : Keeps b s0 s) :
    Keeps b s0 (State.tickSwitch s) := by
  unfold State.tickSwitch
  refine Keeps.ite ?_ ?_
  · exact hs
  · extract_lets -merge -underBinder x0 x1 x2
    try clear_value x0
    have h3 : Keeps b s0 x1 := by
      refine State.each_keeps ?_ ?_
      · exact hs
      · intro _ _ h4
        refine State.countRaise_keeps ?_
        refine State.discard_keeps ?_
        exact h4
    clear_value x1
    have h5 : Keeps b s0 x2 := by
      refine State.clearField_keeps ?_
      refine State.set_keeps ?_
      exact h3
    clear_value x2
    refine State.withSwitch_keeps ?_
    exact h5

theorem State.sendDesc_keeps {s : State} {g : ℕ} (hs : Keeps b s0 s) :
    Keeps b s0 (State.sendDesc s g) := by
  unfold State.sendDesc
  refine Keeps.ite ?_ ?_
  · exact hs
  · split
    · exact hs
    · refine State.finishTx_keeps ?_
      exact hs
    · extract_lets -merge -underBinder x0
      try clear_value x0
      split
      · exact hs
      · refine State.finishTx_keeps ?_
        exact hs
      · refine Keeps.ite ?_ ?_
        · refine State.countRaise_keeps ?_
          refine State.finishTx_keeps ?_
          exact hs
        · split
          · extract_lets -merge -underBinder x1 x2
            try clear_value x1
            try clear_value x2
            split
            · have h3 := Keeps.of_fst (b := b) (s := s0) ‹_ = (_, _)› (by
                  refine State.ingress_keeps ?_
                  exact hs
                )
              refine Keeps.ite ?_ ?_
              · refine State.finishTx_keeps ?_
                exact h3
              · extract_lets -merge -underBinder x4
                try clear_value x4
                refine Keeps.ite ?_ ?_
                · refine State.withSwitch_keeps ?_
                  exact h3
                · refine State.finishTx_keeps ?_
                  exact h3

theorem execTxDescDone_keeps {g : BitVec 6} {s : State} (hs : Keeps b s0 s) :
    KeepsOut b s0 (execTxDescDone g s) := by
  unfold execTxDescDone
  refine Keeps.mk_out ?_
  refine Keeps.ite ?_ ?_
  · refine State.sendDesc_keeps ?_
    exact hs
  · exact hs

theorem State.sendTelegram_keeps {s : State} {e : ℕ} (hs : Keeps b s0 s) :
    Keeps b s0 (State.sendTelegram s e) := by
  unfold State.sendTelegram
  extract_lets -merge -underBinder x0 x1 x2 x3 x4 x5 x6 x7 x8
  try clear_value x0
  try clear_value x1
  try clear_value x2
  try clear_value x5
  try clear_value x6
  try clear_value x7
  try clear_value x8
  have h9 : Keeps b s0 x3 := by
    refine State.setBytes_keeps ?_
    exact hs
  clear_value x3
  have h10 : Keeps b s0 x4 := by
    refine State.withSwitch_keeps ?_
    exact h9
  clear_value x4
  refine Keeps.ite ?_ ?_
  · exact h10
  · split
    · extract_lets -merge -underBinder x11 x12
      try clear_value x12
      have h13 : Keeps b s0 x11 := by
        refine State.countBy_keeps ?_
        exact h10
      clear_value x11
      refine State.count_keeps ?_
      show KeepsFst b s0 _
      refine State.enqueue_keeps ?_
      exact h13

theorem execTrdpTxFetch_keeps {e : BitVec 9} {s : State} (hs : Keeps b s0 s) :
    KeepsOut b s0 (execTrdpTxFetch e s) := by
  unfold execTrdpTxFetch
  refine Keeps.mk_out ?_
  refine Keeps.ite ?_ ?_
  · refine State.sendTelegram_keeps ?_
    exact hs
  · exact hs

theorem State.keepEarly_keeps {s : State} {n : ℕ} (hs : Keeps b s0 s) :
    Keeps b s0 (State.keepEarly s n) := by
  unfold State.keepEarly
  refine State.withSwitch_keeps ?_
  exact hs

theorem State.writeEtb_keeps {s : State} {on : Bool} (hs : Keeps b s0 s) :
    Keeps b s0 (State.writeEtb s on) := by
  unfold State.writeEtb
  refine Keeps.ite ?_ ?_
  · exact hs
  · refine Keeps.ite ?_ ?_
    · refine State.refuse_keeps ?_
      exact hs
    · extract_lets -merge -underBinder x0 x1 x2
      have h3 : Keeps b s0 x0 := by
        exact hs
      clear_value x0
      have h4 : Keeps b s0 x1 := by
        refine State.setFlag_keeps ?_
        refine State.stampConfig_keeps ?_
        exact hs
      clear_value x1
      have h5 : Keeps b s0 x2 := by
        refine Keeps.ite ?_ ?_
        · refine State.withTime_keeps ?_ ?_
          · refine State.enterLead_keeps ?_
            exact h4
          · exact fun _ _ => rfl
        · refine Keeps.ite ?_ ?_
          · refine State.dropKeys_keeps ?_
            refine State.set_keeps ?_
            exact h4
          · exact h4
      clear_value x2
      refine State.recheckLines_keeps ?_ ?_
      · exact h5
      · exact h3

theorem execEtbEnWrite_keeps {on : Bool} {s : State} (hs : Keeps b s0 s) :
    KeepsOut b s0 (execEtbEnWrite on s) := by
  unfold execEtbEnWrite
  refine Keeps.mk_out ?_
  refine Keeps.ite ?_ ?_
  · refine State.writeEtb_keeps ?_
    exact hs
  · exact hs

theorem execConsistLinkChange_keeps {m : BitVec 3} {up : Bool} {s : State} (hs : Keeps b s0 s) :
    KeepsOut b s0 (execConsistLinkChange m up s) := by
  unfold execConsistLinkChange
  refine Keeps.mk_out ?_
  extract_lets -merge -underBinder x0 x1
  try clear_value x0
  have h2 : Keeps b s0 x1 := by
    refine State.raiseMac_keeps ?_
    refine State.setFlag_keeps ?_
    exact hs
  clear_value x1
  refine Keeps.ite ?_ ?_
  · refine State.set_keeps ?_
    exact h2
  · exact hs

end Sys2Proof.Machine
end

