-- ==== Sys2Proof/Laws/KeepsHost.lean ====
section
/-! SUPPORT. What each operation and meaning of register access, the bridges, the link, the engines, the tick and the frames that arrive keeps: one lemma per definition. -/

namespace Sys2Proof.Machine

variable {b : Bool} {s0 : State}

/-! Machine/Access.lean. -/

theorem State.pinEdges_keeps {s : State} {before : State} (hs : Keeps b s0 s) (hbefore : Keeps b s0 before) :
    Keeps b s0 (State.pinEdges s before) := by
  unfold State.pinEdges
  extract_lets -merge -underBinder x0 x1 x2 x3 x4
  try clear_value x0
  try clear_value x1
  try clear_value x2
  try clear_value x3
  try clear_value x4
  refine State.when_keeps ?_ ?_
  · exact hs
  · intro _ h5
    refine State.when_keeps ?_ ?_
    · refine State.update_keeps ?_
      exact h5
    · intro _ h6
      refine State.raise_keeps ?_
      exact h6

theorem State.writePlain_keeps {s : State} {p : Page} {off : ℕ} {v : ℕ} (hs : Keeps b s0 s) :
    Keeps b s0 (State.writePlain s p off v) := by
  unfold State.writePlain
  extract_lets -merge -underBinder x0 x1 x2
  try clear_value x0
  try clear_value x1
  try clear_value x2
  refine State.writeFields_keeps ?_
  exact hs

theorem State.writeChecked_keeps {s : State} {p : Page} {off : ℕ} {v : ℕ} (hs : Keeps b s0 s) :
    Keeps b s0 (State.writeChecked s p off v) := by
  unfold State.writeChecked
  split
  · refine State.writePlain_keeps ?_
    exact hs
  · extract_lets -merge -underBinder x0
    try clear_value x0
    refine Keeps.ite ?_ ?_
    · refine State.refuse_keeps ?_
      exact hs
    · refine State.refuseIf_keeps ?_
      exact hs

theorem State.writeChMode_keeps {s : State} {on : Bool} (hs : Keeps b s0 s) :
    Keeps b s0 (State.writeChMode s on) := by
  unfold State.writeChMode
  refine Keeps.ite ?_ ?_
  · refine State.refuse_keeps ?_
    exact hs
  · refine Keeps.ite ?_ ?_
    · exact hs
    · refine Keeps.ite ?_ ?_
      · refine State.refuse_keeps ?_
        exact hs
      · refine State.setFlag_keeps ?_
        refine State.stampConfig_keeps ?_
        exact hs

theorem execChModeWrite_keeps {v : Bool} {s : State} (hs : Keeps b s0 s) :
    KeepsOut b s0 (execChModeWrite v s) := by
  unfold execChModeWrite
  refine Keeps.mk_out ?_
  refine State.writeChMode_keeps ?_
  exact hs

theorem State.writeTwinCtrl_keeps {s : State} {v : ℕ} (hs : Keeps b s0 s) :
    Keeps b s0 (State.writeTwinCtrl s v) := by
  unfold State.writeTwinCtrl
  extract_lets -merge -underBinder x0 x1 x2 x3 x4 x5 x6
  try clear_value x1
  have h7 : Keeps b s0 x0 := by
    exact hs
  clear_value x0
  have h8 : Keeps b s0 x2 := by
    refine State.setFlag_keeps ?_
    refine State.setFlag_keeps ?_
    refine State.stampConfig_keeps ?_
    exact hs
  clear_value x2
  have h9 : Keeps b s0 x3 := by
    refine Keeps.ite ?_ ?_
    · refine State.refuse_keeps ?_
      exact hs
    · refine Keeps.ite ?_ ?_
      · refine State.when_keeps ?_ ?_
        · exact h8
        · intro _ h10
          refine State.dropHatOut_keeps ?_
          refine State.setHat_keeps ?_
          exact h10
      · exact hs
  clear_value x3
  have h11 : Keeps b s0 x4 := by
    refine Keeps.ite ?_ ?_
    · exact h9
    · refine Keeps.ite ?_ ?_
      · refine State.refuse_keeps ?_
        exact h9
      · refine State.setFlag_keeps ?_
        refine State.stampConfig_keeps ?_
        exact h9
  clear_value x4
  have h12 : Keeps b s0 x5 := by
    refine State.when_keeps ?_ ?_
    · exact h11
    · intro _ h13
      refine State.writeHandover_keeps ?_
      exact h13
  clear_value x5
  have h14 : Keeps b s0 x6 := by
    refine State.settleHat_keeps ?_
    refine State.recheckLines_keeps ?_ ?_
    · exact h12
    · exact h7
  clear_value x6
  refine State.writeHostGrant_keeps ?_
  exact h14

theorem execTwinCtrlWrite_keeps {v : Word} {s : State} (hs : Keeps b s0 s) :
    KeepsOut b s0 (execTwinCtrlWrite v s) := by
  unfold execTwinCtrlWrite
  refine Keeps.mk_out ?_
  refine Keeps.ite ?_ ?_
  · refine State.writeTwinCtrl_keeps ?_
    exact hs
  · exact hs

theorem State.clearLog_keeps {s : State} {p : Page} (hs : Keeps b s0 s) :
    Keeps b s0 (State.clearLog s p) := by
  unfold State.clearLog
  extract_lets -merge -underBinder x0
  have h1 : Keeps b s0 x0 := by
    refine State.set_keeps ?_
    refine State.set_keeps ?_
    exact hs
  clear_value x0
  refine State.each_keeps ?_ ?_
  · exact h1
  · intro _ _ h2
    refine Keeps.foldl ?_ ?_
    · exact h2
    · intro _ _ h3
      refine State.set_keeps ?_
      exact h3

theorem execPlogClr_keeps {a0 : Requester} {s : State} (hs : Keeps b s0 s) :
    KeepsOut b s0 (execPlogClr a0 s) := by
  unfold execPlogClr
  refine Keeps.mk_out ?_
  refine Keeps.ite ?_ ?_
  · refine State.clearLog_keeps ?_
    exact hs
  · exact hs

theorem State.driveOut_keeps {s : State} {f : OutClock → OutClock} (hs : Keeps b s0 s) :
    Keeps b s0 (State.driveOut s f) := by
  unfold State.driveOut
  extract_lets -merge -underBinder x0 x1 x2 x3
  try clear_value x0
  try clear_value x1
  have h4 : Keeps b s0 x2 := by
    exact Keeps.congr hs rfl rfl rfl rfl (fun _ => rfl)
  clear_value x2
  have h5 : Keeps b s0 x3 := by
    refine State.set_keeps ?_
    exact h4
  clear_value x3
  refine State.pinEdges_keeps ?_ ?_
  · refine State.when_keeps ?_ ?_
    · exact h5
    · intro _ h6
      refine State.stampConfig_keeps ?_
      exact h6
  · exact hs

theorem State.writeOutputs_keeps {s : State} {v : ℕ} (hs : Keeps b s0 s) :
    Keeps b s0 (State.writeOutputs s v) := by
  unfold State.writeOutputs
  refine State.driveOut_keeps ?_
  exact hs

theorem State.setOutputs_keeps {s : State} {v : ℕ} (hs : Keeps b s0 s) :
    Keeps b s0 (State.setOutputs s v) := by
  unfold State.setOutputs
  refine State.driveOut_keeps ?_
  exact hs

theorem State.clearOutputs_keeps {s : State} {v : ℕ} (hs : Keeps b s0 s) :
    Keeps b s0 (State.clearOutputs s v) := by
  unfold State.clearOutputs
  refine State.driveOut_keeps ?_
  exact hs

theorem execOutSet_keeps {v : Word} {s : State} (hs : Keeps b s0 s) :
    KeepsOut b s0 (execOutSet v s) := by
  unfold execOutSet
  refine Keeps.mk_out ?_
  refine Keeps.ite ?_ ?_
  · refine State.setOutputs_keeps ?_
    exact hs
  · exact hs

theorem execOutClr_keeps {v : Word} {s : State} (hs : Keeps b s0 s) :
    KeepsOut b s0 (execOutClr v s) := by
  unfold execOutClr
  refine Keeps.mk_out ?_
  refine Keeps.ite ?_ ?_
  · refine State.clearOutputs_keeps ?_
    exact hs
  · exact hs

theorem execGpioEdge_keeps {p : BitVec 5} {level : Bool} {s : State} (hs : Keeps b s0 s) :
    KeepsOut b s0 (execGpioEdge p level s) := by
  unfold execGpioEdge
  refine Keeps.mk_out ?_
  refine Keeps.ite ?_ ?_
  · refine State.pinEdges_keeps ?_ ?_
    · refine State.set_keeps ?_
      exact hs
    · exact hs
  · exact hs

theorem State.writePush_keeps {s : State} {v : ℕ} (hs : Keeps b s0 s) :
    KeepsFst b s0 (State.writePush s v) := by
  unfold State.writePush
  refine Keeps.ite_fst ?_ ?_
  · refine Keeps.mk_fst ?_
    exact hs
  · refine Keeps.ite_fst ?_ ?_
    · refine Keeps.mk_fst ?_
      refine State.pushChunk_keeps ?_
      exact hs
    · refine Keeps.mk_fst ?_
      exact hs

theorem State.writeCanCtrl_keeps {s : State} {c : ℕ} {v : ℕ} (hs : Keeps b s0 s) :
    Keeps b s0 (State.writeCanCtrl s c v) := by
  unfold State.writeCanCtrl
  extract_lets -merge -underBinder x0 x1
  try clear_value x0
  have h2 : Keeps b s0 x1 := by
    refine State.autoRecover_keeps ?_
    refine State.writePlain_keeps ?_
    refine State.keepSettings_keeps ?_
    exact hs
  clear_value x1
  refine Keeps.ite ?_ ?_
  · refine State.canStart_keeps ?_
    exact h2
  · refine Keeps.ite ?_ ?_
    · refine State.askStop_keeps ?_
      exact h2
    · exact h2

theorem State.writeBlock_keeps {s : State} {p : Page} {off : ℕ} {v : ℕ} (hs : Keeps false s0 s) :
    Keeps false s0 (State.writeBlock s p off v) := by
  unfold State.writeBlock
  split
  · split
    · refine State.writeChMode_keeps ?_
      exact hs
    · extract_lets -merge -underBinder x0
      have h1 : Keeps false s0 x0 := by
        refine State.when_keeps ?_ ?_
        · exact hs
        · intro _ h2
          refine State.setFlag_keeps ?_
          exact h2
      clear_value x0
      refine State.when_keeps ?_ ?_
      · exact h1
      · intro _ h3
        refine State.lockAll_keeps ?_
        exact h3
    · refine State.writeChecked_keeps ?_
      exact hs
  · refine Keeps.ite ?_ ?_
    · refine State.when_keeps ?_ ?_
      · refine State.writePlain_keeps ?_
        exact hs
      · intro _ h4
        refine State.snap_keeps ?_
        exact h4
    · refine State.writeChecked_keeps ?_
      exact hs
  · refine Keeps.ite ?_ ?_
    · refine State.writeCycLen_keeps ?_
      exact hs
    · refine State.writeChecked_keeps ?_
      exact hs
  · split
    · refine State.writePdCtrl_keeps ?_
      exact hs
    · refine State.when_keeps ?_ ?_
      · exact hs
      · intro _ h5
        refine State.clearFaultLatch_keeps ?_
        exact h5
    · refine State.writeChipRst_keeps ?_
      exact hs
    · refine State.writePlain_keeps ?_
      exact hs
  · split
    · refine State.rearm_keeps ?_
      exact hs
    · refine State.rearm_keeps ?_
      exact hs
    · refine Keeps.ite ?_ ?_
      · exact hs
      · refine State.writePlain_keeps ?_
        exact hs
  · refine Keeps.ite ?_ ?_
    · exact hs
    · refine Keeps.ite ?_ ?_
      · refine State.setBeWord_keeps ?_
        exact hs
      · split
        · refine State.runCommand_keeps ?_
          exact hs
        · refine State.writeZeroise_keeps ?_
          exact hs
        · refine State.writePlain_keeps ?_
          exact hs
  · refine Keeps.ite ?_ ?_
    · refine State.writeLineEnable_keeps ?_
      exact hs
    · refine State.writeChecked_keeps ?_
      exact hs
  · refine Keeps.ite ?_ ?_
    · split
      · refine State.pin_keeps ?_
        exact hs
      · refine State.pin_keeps ?_
        exact hs
      · refine State.unpin_keeps ?_
        exact hs
      · exact hs
    · refine State.writeChecked_keeps ?_
      exact hs
  · refine Keeps.ite ?_ ?_
    · refine State.triggerJob_keeps ?_
      exact hs
    · refine State.writePlain_keeps ?_
      exact hs
  · refine State.writeEngBlock_keeps ?_
    exact hs
  · refine Keeps.ite ?_ ?_
    · refine State.writeTail_keeps ?_
      exact hs
    · split
      · extract_lets -merge -underBinder x6
        have h7 : Keeps false s0 x6 := by
          refine State.writeFields_keeps ?_
          exact hs
        clear_value x6
        refine State.writeEtb_keeps ?_
        exact h7
      · refine State.askSwap_keeps ?_
        exact hs
      · refine State.writeChecked_keeps ?_
        exact hs
  · split
    · refine State.writeCanCtrl_keeps ?_
      exact hs
    · refine State.requestTx_keeps ?_
      exact hs
    · refine State.requestTx_keeps ?_
      exact hs
    · refine State.each_keeps ?_ ?_
      · exact hs
      · intro _ _ h8
        refine State.askCancel_keeps ?_
        exact h8
    · refine State.each_keeps ?_ ?_
      · exact hs
      · intro _ _ h9
        refine State.askCancel_keeps ?_
        exact h9
    · refine State.flipTx_keeps ?_
      exact hs
    · refine State.flipTx_keeps ?_
      exact hs
    · refine State.ackFifo_keeps ?_
      exact hs
    · refine State.ackFifo_keeps ?_
      exact hs
    · refine State.when_keeps ?_ ?_
      · exact hs
      · intro _ h10
        refine State.setCanState_keeps ?_
        exact h10
    · refine State.writeChecked_keeps ?_
      exact hs
  · refine Keeps.ite ?_ ?_
    · refine State.flipNow_keeps ?_
      exact hs
    · refine State.writeChecked_keeps ?_
      exact hs
  · refine Keeps.ite ?_ ?_
    · refine State.writeTwinCtrl_keeps ?_
      exact hs
    · refine Keeps.ite ?_ ?_
      · extract_lets -merge -underBinder x11 x12
        try clear_value x12
        have h13 : Keeps false s0 x11 := by
          refine State.writePlain_keeps ?_
          exact hs
        clear_value x11
        refine State.refuseIf_keeps ?_
        exact h13
      · refine State.writeChecked_keeps ?_
        exact hs
  · refine Keeps.ite ?_ ?_
    · refine State.when_keeps ?_ ?_
      · exact hs
      · intro _ h14
        refine State.clearLog_keeps ?_
        exact h14
    · refine State.writeChecked_keeps ?_
      exact hs
  · refine Keeps.ite ?_ ?_
    · refine State.when_keeps ?_ ?_
      · exact hs
      · intro _ h15
        refine State.clearLog_keeps ?_
        exact h15
    · refine State.writeChecked_keeps ?_
      exact hs
  · refine Keeps.ite ?_ ?_
    · refine State.when_keeps ?_ ?_
      · exact hs
      · intro _ h16
        refine State.clearLog_keeps ?_
        exact h16
    · refine State.writeChecked_keeps ?_
      exact hs
  · refine State.writeChecked_keeps ?_
    exact hs
  · split
    · refine State.writePrfCtrl_keeps ?_
      exact hs
    · refine State.maintCmd_keeps ?_
      exact hs
    · refine Keeps.ite ?_ ?_
      · exact hs
      · refine State.writeChecked_keeps ?_
        exact hs
  · split
    · refine State.pinEdges_keeps ?_ ?_
      · refine State.writePlain_keeps ?_
        exact hs
      · exact hs
    · refine State.writeOutputs_keeps ?_
      exact hs
    · refine State.setOutputs_keeps ?_
      exact hs
    · refine State.clearOutputs_keeps ?_
      exact hs
    · refine State.writePlain_keeps ?_
      exact hs
  · refine State.writeChecked_keeps ?_
    exact hs
  · refine State.writeChecked_keeps ?_
    exact hs

theorem State.queueEngWrite_keeps {s : State} {who : Requester} {c : Line} {i : ℕ} {off : ℕ} {v : Word} (hs : Keeps b s0 s) :
    Keeps b s0 (State.queueEngWrite s who c i off v) := by
  unfold State.queueEngWrite
  extract_lets -merge -underBinder x0 x1 x2 x3 x4
  try clear_value x0
  try clear_value x2
  try clear_value x3
  have h5 : Keeps b s0 x4 := by
    refine Keeps.ite ?_ ?_
    · refine State.withRotation_keeps ?_
      exact hs
    · exact Keeps.congr hs rfl rfl rfl rfl (fun _ => rfl)
  clear_value x4
  refine Keeps.ite ?_ ?_
  · refine State.count_keeps ?_
    exact h5
  · refine State.writeEngPage_keeps ?_
    refine Keeps.ite ?_ ?_
    · refine State.abortProof_keeps ?_
      exact hs
    · refine State.abortMaint_keeps ?_
      exact hs

theorem State.writePage_keeps {s : State} {who : Requester} {p : Page} {off : ℕ} {v : Word} (hs : Keeps false s0 s) :
    KeepsFst false s0 (State.writePage s who p off v) := by
  unfold State.writePage
  refine Keeps.ite_fst ?_ ?_
  · refine State.writePush_keeps ?_
    exact hs
  · split
    · refine Keeps.ite_fst ?_ ?_
      · refine Keeps.mk_fst ?_
        refine State.queueEngWrite_keeps ?_
        exact hs
      · refine Keeps.ite_fst ?_ ?_
        · refine Keeps.mk_fst ?_
          refine State.writeChecked_keeps ?_
          exact hs
        · refine Keeps.mk_fst ?_
          refine State.writeEngPage_keeps ?_
          exact hs
    · refine Keeps.ite_fst ?_ ?_
      · refine Keeps.mk_fst ?_
        refine Keeps.ite ?_ ?_
        · refine State.writeHeader_keeps ?_
          exact hs
        · exact hs
      · extract_lets -merge -underBinder x0 x1
        try clear_value x1
        have h2 : Keeps false s0 x0 := by
          refine State.writeBlock_keeps ?_
          exact hs
        clear_value x0
        refine Keeps.mk_fst ?_
        refine State.recheckLines_keeps ?_ ?_
        · refine State.when_keeps ?_ ?_
          · exact h2
          · intro _ h3
            refine State.stampConfig_keeps ?_
            exact h3
        · exact hs

theorem State.writeSwTable_keeps {s : State} {a : ℕ} {v : ℕ} (hs : Keeps b s0 s) :
    Keeps b s0 (State.writeSwTable s a v) := by
  unfold State.writeSwTable
  extract_lets -merge -underBinder x0 x1 x2 x3
  try clear_value x0
  try clear_value x1
  try clear_value x2
  try clear_value x3
  refine Keeps.ite ?_ ?_
  · refine Keeps.ite ?_ ?_
    · refine State.setBeWord_keeps ?_
      exact hs
    · exact hs
  · refine Keeps.ite ?_ ?_
    · refine State.setBeWord_keeps ?_
      exact hs
    · refine State.setBeWord_keeps ?_
      exact hs

theorem State.writeShared_keeps {s : State} {c : Line} {off : ℕ} {bs : List Byte} (hs : Keeps b s0 s) :
    Keeps b s0 (State.writeShared s c off bs) := by
  unfold State.writeShared
  extract_lets -merge -underBinder x0
  have h1 : ∀ (y0 : Line) (y1 : State), Keeps b s0 y1 → Keeps b s0 (x0 y0 y1) := by
    intro _ _ h2
    refine State.setBytes_keeps ?_
    refine State.setBytes_keeps ?_
    exact h2
  clear_value x0
  refine Keeps.ite ?_ ?_
  · refine h1 _ _ ?_
    exact hs
  · refine Keeps.ite ?_ ?_
    · exact hs
    · refine State.each_keeps ?_ ?_
      · exact hs
      · intro _ _ h3
        refine h1 _ _ ?_
        exact h3

theorem State.writeOther_keeps {s : State} {who : Requester} {a : ℕ} {t : Target} {v : Word} (hs : Keeps b s0 s) :
    KeepsFst b s0 (State.writeOther s who a t v) := by
  unfold State.writeOther
  split
  · refine Keeps.mk_fst ?_
    refine State.writeShared_keeps ?_
    exact hs
  · refine Keeps.mk_fst ?_
    refine State.writeTable_keeps ?_
    exact hs
  · refine Keeps.mk_fst ?_
    refine State.writeMvbRam_keeps ?_
    exact hs
  · refine Keeps.mk_fst ?_
    refine State.writeSwTable_keeps ?_
    exact hs
  · refine Keeps.mk_fst ?_
    refine State.writeCanRam_keeps ?_
    exact hs
  · refine Keeps.ite_fst ?_ ?_
    · refine Keeps.mk_fst ?_
      refine State.unmaskMsix_keeps ?_
      refine State.setBeWord_keeps ?_
      exact hs
    · refine Keeps.mk_fst ?_
      exact hs
  · refine Keeps.ite_fst ?_ ?_
    · refine Keeps.mk_fst ?_
      refine State.setBytes_keeps ?_
      exact hs
    · refine Keeps.mk_fst ?_
      exact hs
  · refine Keeps.mk_fst ?_
    exact hs

theorem State.otherWord_keeps {s : State} {who : Requester} {a : ℕ} {t : Target} (hs : Keeps b s0 s) :
    KeepsSnd b s0 (State.otherWord s who a t) := by
  unfold State.otherWord
  split
  · refine Keeps.mk_snd ?_
    exact hs
  · refine Keeps.mk_snd ?_
    exact hs
  · refine Keeps.mk_snd ?_
    exact hs
  · refine Keeps.mk_snd ?_
    exact hs
  · refine Keeps.mk_snd ?_
    exact hs
  · refine State.readCanRam_keeps ?_
    exact hs
  · refine Keeps.mk_snd ?_
    exact hs
  · refine Keeps.mk_snd ?_
    exact hs
  · refine Keeps.mk_snd ?_
    exact hs
  · refine Keeps.mk_snd ?_
    exact hs
  · refine Keeps.mk_snd ?_
    exact hs

theorem State.writePair_keeps {s : State} {who : Requester} {p : Page} {off : ℕ} {lo : Word} {hi : Word} (hs : Keeps false s0 s) :
    KeepsFst false s0 (State.writePair s who p off lo hi) := by
  unfold State.writePair
  split
  · refine Keeps.mk_fst ?_
    refine State.writeAsOffs_keeps ?_
    exact hs
  · refine State.writePage_keeps ?_
    show KeepsFst false s0 _
    refine State.writePage_keeps ?_
    exact hs

theorem State.writeReg_keeps {s : State} {who : Requester} {p : Page} {off : ℕ} {v : Word} (hs : Keeps false s0 s) :
    KeepsFst false s0 (State.writeReg s who p off v) := by
  unfold State.writeReg
  extract_lets -merge -underBinder x0
  try clear_value x0
  refine Keeps.ite_fst ?_ ?_
  · refine Keeps.mk_fst ?_
    exact Keeps.congr hs rfl rfl rfl rfl (fun _ => rfl)
  · refine Keeps.ite_fst ?_ ?_
    · split
      · refine State.writePair_keeps ?_
        exact Keeps.congr hs rfl rfl rfl rfl (fun _ => rfl)
      · split
        · refine State.writePair_keeps ?_
          exact hs
        · refine State.writePage_keeps ?_
          exact hs
    · refine State.writePage_keeps ?_
      exact hs

theorem State.readReg_keeps {s : State} {who : Requester} {p : Page} {off : ℕ} (hs : Keeps b s0 s) :
    KeepsSnd b s0 (State.readReg s who p off) := by
  unfold State.readReg
  extract_lets -merge -underBinder x0 x1 x2
  try clear_value x0
  have h3 : Keeps b s0 x1 := by
    unfold x1
    split
    · refine State.when_keeps ?_ ?_
      · exact hs
      · intro _ h4
        refine State.setFlag_keeps ?_
        exact h4
    · exact hs
  clear_value x1
  have h5 : Keeps b s0 x2 := by
    refine State.when_keeps ?_ ?_
    · exact h3
    · intro _ h6
      refine State.drawChallenge_keeps ?_
      exact h6
  clear_value x2
  split
  · refine Keeps.mk_snd ?_
    exact Keeps.congr h5 rfl rfl rfl rfl (fun _ => rfl)
  · extract_lets -merge -underBinder x7 x8
    try clear_value x7
    have h9 : Keeps b s0 x8 := by
      refine Keeps.ite ?_ ?_
      · exact h5
      · refine State.clearRc_keeps ?_
        exact h5
    clear_value x8
    refine Keeps.ite_snd ?_ ?_
    · refine Keeps.mk_snd ?_
      exact Keeps.congr h9 rfl rfl rfl rfl (fun _ => rfl)
    · refine Keeps.mk_snd ?_
      exact h9

theorem State.writeWord_keeps {s : State} {who : Requester} {addr : ℕ} {v : Word} (hs : Keeps false s0 s) :
    KeepsFst false s0 (State.writeWord s who addr v) := by
  unfold State.writeWord
  extract_lets -merge -underBinder x0 x1
  try clear_value x0
  try clear_value x1
  refine Keeps.ite_fst ?_ ?_
  · refine Keeps.mk_fst ?_
    exact hs
  · refine Keeps.ite_fst ?_ ?_
    · refine Keeps.mk_fst ?_
      exact hs
    · split
      · refine State.writeReg_keeps ?_
        exact hs
      · refine State.writeOther_keeps ?_
        exact hs

theorem State.readWord_keeps {s : State} {who : Requester} {addr : ℕ} (hs : Keeps b s0 s) :
    KeepsSnd b s0 (State.readWord s who addr) := by
  unfold State.readWord
  extract_lets -merge -underBinder x0 x1
  try clear_value x0
  try clear_value x1
  refine Keeps.ite_snd ?_ ?_
  · refine Keeps.mk_snd ?_
    exact hs
  · split
    · have h2 := Keeps.of_snd (b := b) (s := s0) ‹_ = (_, _)› (by
          split
          · refine State.readReg_keeps ?_
            exact hs
          · refine State.otherWord_keeps ?_
            exact hs
        )
      refine Keeps.mk_snd ?_
      exact h2

theorem execRegisterWrite_keeps {who : Requester} {addr : BitVec 24} {v : Word} {s : State} (hs : Keeps false s0 s) :
    KeepsOut false s0 (execRegisterWrite who addr v s) := by
  unfold execRegisterWrite
  refine Keeps.mk_out ?_
  show KeepsFst false s0 _
  refine State.writeWord_keeps ?_
  exact hs

theorem execReadClear_keeps {who : Requester} {addr : BitVec 24} {s : State} (hs : Keeps b s0 s) :
    KeepsOut b s0 (execReadClear who addr s) := by
  unfold execReadClear
  refine Keeps.mk_out ?_
  split
  · have h0 := Keeps.of_snd (b := b) (s := s0) ‹_ = (_, _)› (by
        refine State.readWord_keeps ?_
        exact hs
      )
    refine State.emit_keeps ?_
    exact h0
  · have h1 := Keeps.of_snd (b := b) (s := s0) ‹_ = (_, _)› (by
        refine State.readWord_keeps ?_
        exact hs
      )
    exact h1

theorem execPushChunk_keeps {who : Requester} {len : BitVec 18} {last : Bool} {s : State} (hs : Keeps false s0 s) :
    KeepsOut false s0 (execPushChunk who len last s) := by
  unfold execPushChunk
  refine Keeps.mk_out ?_
  show KeepsFst false s0 _
  refine State.writeWord_keeps ?_
  exact hs

/-! Machine/Bridges.lean. -/

theorem State.postedFail_keeps {s : State} {p : Page} {source : ℕ} {cause : ℕ} {space : ℕ} {addr : ℕ} {tag : ℕ} (hs : Keeps b s0 s) :
    Keeps b s0 (State.postedFail s p source cause space addr tag) := by
  unfold State.postedFail
  extract_lets -merge -underBinder x0 x1 x2
  try clear_value x1
  have h3 : Keeps b s0 x0 := by
    refine State.set_keeps ?_
    exact hs
  clear_value x0
  have h4 : Keeps b s0 x2 := by
    refine Keeps.ite ?_ ?_
    · refine Keeps.foldl ?_ ?_
      · exact h3
      · intro _ _ h5
        refine State.set_keeps ?_
        exact h5
    · refine State.set_keeps ?_
      refine State.count_keeps ?_
      exact h3
  clear_value x2
  refine State.raise_keeps ?_
  refine State.count_keeps ?_
  exact h4

theorem execPostedFail_keeps {a0 : Requester} {source : BitVec 1} {cause : BitVec 4} {space : BitVec 2} {addr : Word} {tag : BitVec 16}
    {s : State} (hs : Keeps b s0 s) :
    KeepsOut b s0 (execPostedFail a0 source cause space addr tag s) := by
  unfold execPostedFail
  refine Keeps.mk_out ?_
  extract_lets -merge -underBinder x0
  try clear_value x0
  refine Keeps.ite ?_ ?_
  · refine State.postedFail_keeps ?_
    exact hs
  · exact hs

theorem State.remoteTimeout_keeps {s : State} (hs : Keeps b s0 s) :
    Keeps b s0 (State.remoteTimeout s) := by
  unfold State.remoteTimeout
  refine State.raise_keeps ?_
  refine State.count_keeps ?_
  exact hs

theorem State.remoteWrite_keeps {s : State} {a1 : Requester} {tag : ℕ} {off : ℕ} {data : List Byte} (hs : Keeps b s0 s) :
    Keeps b s0 (State.remoteWrite s a1 tag off data) := by
  unfold State.remoteWrite
  refine Keeps.ite ?_ ?_
  · refine State.postedFail_keeps ?_
    refine State.remoteTimeout_keeps ?_
    exact hs
  · extract_lets -merge -underBinder x0 x1 x2 x3
    try clear_value x0
    try clear_value x1
    try clear_value x2
    have h4 : Keeps b s0 x3 := by
      exact Keeps.congr hs rfl rfl rfl rfl (fun _ => rfl)
    clear_value x3
    refine State.sendLink_keeps ?_
    exact h4

theorem State.writeRing_keeps {s : State} {off : ℕ} {bs : List (Option Byte)} (hs : Keeps b s0 s) :
    Keeps b s0 (State.writeRing s off bs) := by
  unfold State.writeRing
  refine State.each_keeps ?_ ?_
  · exact hs
  · intro _ _ h0
    split
    · refine State.setByte_keeps ?_
      exact h0
    · exact h0

theorem State.bar0Word_keeps {s : State} {a1 : Requester} {tag : ℕ} {a : ℕ} {bs : List (Option Byte)} {fail : Option PieceFail}
    (hs : Keeps false s0 s) :
    KeepsFst false s0 (State.bar0Word s a1 tag a bs fail) := by
  unfold State.bar0Word
  refine Keeps.ite_fst ?_ ?_
  · refine Keeps.mk_fst ?_
    exact hs
  · split
    · refine Keeps.ite_fst ?_ ?_
      · refine Keeps.mk_fst ?_
        exact hs
      · refine Keeps.ite_fst ?_ ?_
        · refine Keeps.mk_fst ?_
          refine State.writeRing_keeps ?_
          exact hs
        · refine Keeps.mk_fst ?_
          exact hs
    · refine Keeps.mk_fst ?_
      exact hs
    · split
      · refine Keeps.mk_fst ?_
        refine State.postedFail_keeps ?_
        exact hs
      · split
        · have h0 := Keeps.of_fst (b := false) (s := s0) ‹_ = (_, _)› (by
              refine State.writeWord_keeps ?_
              exact hs
            )
          refine Keeps.mk_fst ?_
          exact h0
        · have h1 := Keeps.of_fst (b := false) (s := s0) ‹_ = (_, _)› (by
              refine State.writeWord_keeps ?_
              exact hs
            )
          refine Keeps.mk_fst ?_
          exact h1
        · have h2 := Keeps.of_fst (b := false) (s := s0) ‹_ = (_, _)› (by
              refine State.writeWord_keeps ?_
              exact hs
            )
          refine Keeps.mk_fst ?_
          exact h2

theorem State.bar0Piece_keeps {s : State} {a1 : Requester} {tag : ℕ} {ws : List (ℕ × List (Option Byte))} (hs : Keeps false s0 s) :
    Keeps false s0 (State.bar0Piece s a1 tag ws) := by
  unfold State.bar0Piece
  extract_lets -merge -underBinder x0 x1 x2
  try clear_value x1
  try clear_value x2
  split
  · have h3 := Keeps.of_fst (b := false) (s := s0) ‹_ = (_, _)› (by
        refine Keeps.foldl_fst ?_ ?_
        · refine Keeps.mk_fst ?_
          exact hs
        · intro _ _ h4
          refine State.bar0Word_keeps ?_
          show KeepsFst false s0 _
          exact h4
      )
    extract_lets -merge -underBinder x5 x6 x7 x8
    try clear_value x6
    try clear_value x8
    have h9 : Keeps false s0 x5 := by
      unfold x5
      split
      · refine State.postedFail_keeps ?_
        exact h3
      · exact h3
    clear_value x5
    have h10 : Keeps false s0 x7 := by
      refine State.each_keeps ?_ ?_
      · exact h9
      · intro _ _ h11
        refine State.postedFail_keeps ?_
        exact h11
    clear_value x7
    refine Keeps.ite ?_ ?_
    · exact h9
    · refine State.each_keeps ?_ ?_
      · exact h10
      · intro _ _ h12
        refine State.remoteWrite_keeps ?_
        exact h12

theorem State.bar2Piece_keeps {s : State} {a1 : Requester} {tag : ℕ} {ws : List (ℕ × List (Option Byte))} (hs : Keeps b s0 s) :
    Keeps b s0 (State.bar2Piece s a1 tag ws) := by
  unfold State.bar2Piece
  split
  · exact hs
  · extract_lets -merge -underBinder x0 x1 x2 x3 x4 x5 x6
    try clear_value x0
    try clear_value x1
    try clear_value x2
    try clear_value x3
    try clear_value x4
    try clear_value x5
    have h7 : Keeps b s0 x6 := by
      refine Keeps.ite ?_ ?_
      · exact hs
      · refine State.requestData_keeps ?_
        exact hs
    clear_value x6
    refine Keeps.ite ?_ ?_
    · exact hs
    · refine Keeps.ite ?_ ?_
      · refine State.postedFail_keeps ?_
        exact hs
      · refine Keeps.ite ?_ ?_
        · exact hs
        · split
          · refine Keeps.ite ?_ ?_
            · exact h7
            · split
              · refine State.requestControl_keeps ?_
                exact h7
              · refine State.requestControl_keeps ?_
                exact h7
          · exact h7

theorem State.inboundWrite_keeps {s : State} {a1 : Requester} {bar2 : Bool} {addr : ℕ} {tag : ℕ} {data : List (Option Byte)}
    (hs : Keeps false s0 s) :
    Keeps false s0 (State.inboundWrite s a1 bar2 addr tag data) := by
  unfold State.inboundWrite
  refine State.each_keeps ?_ ?_
  · exact hs
  · intro _ _ h0
    refine Keeps.ite ?_ ?_
    · refine State.bar2Piece_keeps ?_
      exact h0
    · refine State.bar0Piece_keeps ?_
      exact h0

theorem State.readBar0_keeps {s : State} {a1 : Requester} {a : ℕ} {n : ℕ} (hs : Keeps b s0 s) :
    KeepsSnd b s0 (State.readBar0 s a1 a n) := by
  unfold State.readBar0
  split
  · refine Keeps.mk_snd ?_
    exact hs
  · split
    · have h0 := Keeps.of_snd (b := b) (s := s0) ‹_ = (_, _)› (by
          refine State.readWord_keeps ?_
          exact hs
        )
      refine Keeps.mk_snd ?_
      exact h0
    · have h1 := Keeps.of_snd (b := b) (s := s0) ‹_ = (_, _)› (by
          refine State.readWord_keeps ?_
          exact hs
        )
      refine Keeps.mk_snd ?_
      exact h1

theorem State.setRead_keeps {s : State} {r : HostRead} {a2 : HostRead} (hs : Keeps b s0 s) :
    Keeps b s0 (State.setRead s r a2) := by
  unfold State.setRead
  exact Keeps.congr hs rfl rfl rfl rfl (fun _ => rfl)

theorem State.endRead_keeps {s : State} {r : HostRead} {data : Option (List Byte)} (hs : Keeps b s0 s) :
    Keeps b s0 (State.endRead s r data) := by
  unfold State.endRead
  extract_lets -merge -underBinder x0 x1
  try clear_value x0
  have h2 : Keeps b s0 x1 := by
    exact Keeps.congr hs rfl rfl rfl rfl (fun _ => rfl)
  clear_value x1
  refine Keeps.ite ?_ ?_
  · exact h2
  · split
    · exact Keeps.congr h2 rfl rfl rfl rfl (fun _ => rfl)
    · split
      · extract_lets -merge -underBinder x3
        try clear_value x3
        refine Keeps.ite ?_ ?_
        · refine State.count_keeps ?_
          refine State.each_keeps ?_ ?_
          · exact h2
          · intro _ _ h4
            refine State.emit_keeps ?_
            exact h4
        · refine State.each_keeps ?_ ?_
          · exact h2
          · intro _ _ h5
            refine State.emit_keeps ?_
            exact h5
      · refine State.emit_keeps ?_
        refine State.count_keeps ?_
        exact h2

theorem State.askPeer_keeps {s : State} {r : HostRead} (hs : Keeps b s0 s) :
    Keeps b s0 (State.askPeer s r) := by
  unfold State.askPeer
  refine Keeps.ite ?_ ?_
  · exact hs
  · refine Keeps.ite ?_ ?_
    · refine State.endRead_keeps ?_
      refine State.remoteTimeout_keeps ?_
      exact hs
    · extract_lets -merge -underBinder x0 x1 x2 x3 x4 x5
      try clear_value x0
      try clear_value x1
      try clear_value x2
      try clear_value x3
      try clear_value x4
      have h6 : Keeps b s0 x5 := by
        exact Keeps.congr hs rfl rfl rfl rfl (fun _ => rfl)
      clear_value x5
      refine State.sendLink_keeps ?_
      refine State.setRead_keeps ?_
      exact h6

theorem State.serveRead_keeps {s : State} {r : HostRead} (hs : Keeps b s0 s) :
    Keeps b s0 (State.serveRead s r) := by
  unfold State.serveRead
  refine Keeps.ite ?_ ?_
  · refine State.endRead_keeps ?_
    exact hs
  · extract_lets -merge -underBinder x0
    have h1 : ∀ (y0 : State) (y1 : Option (List Byte)), Keeps b s0 y0 → Keeps b s0 (x0 y0 y1) := by
      intro _ _ h2
      unfold x0
      split
      · refine State.setRead_keeps ?_
        exact h2
      · refine State.endRead_keeps ?_
        exact h2
    clear_value x0
    split
    · refine Keeps.ite ?_ ?_
      · refine State.askPeer_keeps ?_
        exact hs
      · refine h1 _ _ ?_
        exact hs
    · split
      · have h3 := Keeps.of_snd (b := b) (s := s0) ‹_ = (_, _)› (by
            refine State.readBar0_keeps ?_
            exact hs
          )
        refine h1 _ _ ?_
        exact h3

theorem State.serveBridge_keeps {a0 : Requester} {a1 : Nat} {a2 : State} (ha2 : Keeps b s0 a2) :
    Keeps b s0 (State.serveBridge a0 a1 a2) := by
  induction a1 generalizing a2 with
  | zero => exact ha2
  | succ n ih =>
    unfold State.serveBridge
    split
    · refine Keeps.ite ha2 (ih ?_)
      exact State.serveRead_keeps ha2
    · exact ha2

theorem State.serveReads_keeps {s : State} (hs : Keeps b s0 s) :
    Keeps b s0 (State.serveReads s) := by
  unfold State.serveReads
  extract_lets -merge -underBinder x0
  try clear_value x0
  refine State.serveBridge_keeps ?_
  refine State.serveBridge_keeps ?_
  exact hs

theorem State.acceptRead_keeps {s : State} {r : HostRead} (hs : Keeps b s0 s) :
    Keeps b s0 (State.acceptRead s r) := by
  unfold State.acceptRead
  extract_lets -merge -underBinder x0 x1
  try clear_value x0
  try clear_value x1
  refine State.serveReads_keeps ?_
  exact Keeps.congr hs rfl rfl rfl rfl (fun _ => rfl)

theorem execFence_keeps {a0 : Requester} {s : State} (hs : Keeps b s0 s) :
    KeepsOut b s0 (execFence a0 s) := by
  unfold execFence
  refine Keeps.mk_out ?_
  extract_lets -merge -underBinder x0 x1 x2 x3
  try clear_value x0
  try clear_value x1
  try clear_value x2
  have h4 : Keeps b s0 x3 := by
    exact Keeps.congr hs rfl rfl rfl rfl (fun _ => rfl)
  clear_value x3
  refine Keeps.ite ?_ ?_
  · refine Keeps.ite ?_ ?_
    · refine State.serveReads_keeps ?_
      exact h4
    · refine State.emit_keeps ?_
      exact h4
  · exact hs

theorem execPcieInboundWrite_keeps {bar2 : Bool} {addr : BitVec 24} {data : List (Option Byte)} {poisoned : Bool} {tag : BitVec 16}
    {s : State} (hs : Keeps false s0 s) :
    KeepsOut false s0 (execPcieInboundWrite bar2 addr data poisoned tag s) := by
  unfold execPcieInboundWrite
  refine Keeps.mk_out ?_
  refine Keeps.ite ?_ ?_
  · exact hs
  · refine Keeps.ite ?_ ?_
    · refine State.postedFail_keeps ?_
      exact hs
    · refine State.inboundWrite_keeps ?_
      exact hs

theorem execPcieInboundRead_keeps {bar2 : Bool} {addr : BitVec 24} {len : BitVec 13} {tag : BitVec 16} {spoiled : Bool} {s : State}
    (hs : Keeps b s0 s) :
    KeepsOut b s0 (execPcieInboundRead bar2 addr len tag spoiled s) := by
  unfold execPcieInboundRead
  refine Keeps.mk_out ?_
  refine Keeps.ite ?_ ?_
  · exact hs
  · refine State.acceptRead_keeps ?_
    exact hs

theorem State.answerRead_keeps {s : State} {r : OutRead} {data : Option (List Byte)} (hs : Keeps b s0 s) :
    Keeps b s0 (State.answerRead s r data) := by
  unfold State.answerRead
  split
  · split
    · extract_lets -merge -underBinder x0 x1 x2 x3 x4 x5
      try clear_value x0
      try clear_value x1
      try clear_value x3
      try clear_value x4
      have h6 : Keeps b s0 x5 := by
        refine State.withSwitch_keeps ?_
        exact hs
      clear_value x5
      refine Keeps.ite ?_ ?_
      · refine State.issueRead_keeps ?_
        exact h6
      · exact h6
    · refine State.withSwitch_keeps ?_
      exact hs
  · refine State.withSwitch_keeps ?_
    exact hs

theorem State.endPiece_keeps {s : State} {p : OutPiece} {data : Option (List Byte)} (hs : Keeps b s0 s) :
    Keeps b s0 (State.endPiece s p data) := by
  unfold State.endPiece
  split
  · exact hs
  · extract_lets -merge -underBinder x0 x1 x2
    try clear_value x0
    try clear_value x1
    try clear_value x2
    refine Keeps.ite ?_ ?_
    · refine State.answerRead_keeps ?_
      exact Keeps.congr hs rfl rfl rfl rfl (fun _ => rfl)
    · exact Keeps.congr hs rfl rfl rfl rfl (fun _ => rfl)

theorem State.finishRead_keeps {s : State} {o : OutTag} {data : Option (List Byte)} (hs : Keeps b s0 s) :
    Keeps b s0 (State.finishRead s o data) := by
  unfold State.finishRead
  extract_lets -merge -underBinder x0 x1 x2
  try clear_value x0
  have h3 : Keeps b s0 x1 := by
    exact Keeps.congr hs rfl rfl rfl rfl (fun _ => rfl)
  clear_value x1
  have h4 : Keeps b s0 x2 := by
    refine State.set_keeps ?_
    exact h3
  clear_value x2
  refine State.fetchDescs_keeps ?_
  refine State.issuePieces_keeps ?_
  refine State.endPiece_keeps ?_
  exact h4

theorem execPcieCompletionRx_keeps {tag : BitVec 8} {data : Option (List Byte)} {s : State} (hs : Keeps b s0 s) :
    KeepsOut b s0 (execPcieCompletionRx tag data s) := by
  unfold execPcieCompletionRx
  refine Keeps.mk_out ?_
  refine Keeps.ite ?_ ?_
  · exact hs
  · split
    · refine State.finishRead_keeps ?_
      refine State.when_keeps ?_ ?_
      · exact hs
      · intro _ h0
        refine State.count_keeps ?_
        exact h0
    · refine State.count_keeps ?_
      exact hs

theorem State.completionTimeout_keeps {s : State} {o : OutTag} (hs : Keeps b s0 s) :
    Keeps b s0 (State.completionTimeout s o) := by
  unfold State.completionTimeout
  refine State.finishRead_keeps ?_
  refine State.raise_keeps ?_
  refine State.count_keeps ?_
  exact hs

theorem execCplTmo_keeps {tag : BitVec 8} {s : State} (hs : Keeps b s0 s) :
    KeepsOut b s0 (execCplTmo tag s) := by
  unfold execCplTmo
  refine Keeps.mk_out ?_
  split
  · refine Keeps.ite ?_ ?_
    · refine State.completionTimeout_keeps ?_
      exact hs
    · exact hs
  · exact hs

theorem State.linkDown_keeps {s : State} {d3 : Bool} (hs : Keeps b s0 s) :
    Keeps b s0 (State.linkDown s d3) := by
  unfold State.linkDown
  extract_lets -merge -underBinder x0 x1 x2 x3 x4 x5 x6 x7 x8
  try clear_value x2
  try clear_value x3
  try clear_value x6
  have h9 : Keeps b s0 x0 := by
    refine Keeps.ite ?_ ?_
    · refine State.setFlag_keeps ?_
      exact hs
    · refine State.setFlag_keeps ?_
      refine State.set_keeps ?_
      refine State.set_keeps ?_
      refine State.setFlag_keeps ?_
      exact hs
  clear_value x0
  have h10 : Keeps b s0 x1 := by
    refine State.setFlag_keeps ?_
    exact h9
  clear_value x1
  have h11 : Keeps b s0 x4 := by
    exact Keeps.congr h10 rfl rfl rfl rfl (fun _ => rfl)
  clear_value x4
  have h12 : Keeps b s0 x5 := by
    refine State.each_keeps ?_ ?_
    · exact h11
    · intro _ _ h13
      refine State.endPiece_keeps ?_
      exact h13
  clear_value x5
  have h14 : Keeps b s0 x7 := by
    exact Keeps.congr h12 rfl rfl rfl rfl (fun _ => rfl)
  clear_value x7
  have h15 : Keeps b s0 x8 := by
    refine State.each_keeps ?_ ?_
    · exact h14
    · intro _ _ h16
      refine State.completionTimeout_keeps ?_
      exact h16
  clear_value x8
  refine State.raise_keeps ?_
  exact h15

theorem execLinkDown_keeps {d3 : Bool} {s : State} (hs : Keeps b s0 s) :
    KeepsOut b s0 (execLinkDown d3 s) := by
  unfold execLinkDown
  refine Keeps.mk_out ?_
  refine Keeps.ite ?_ ?_
  · refine State.linkDown_keeps ?_
    exact hs
  · exact hs

theorem execPcieLinkUp_keeps {speed : BitVec 3} {width : BitVec 4} {s : State} (hs : Keeps b s0 s) :
    KeepsOut b s0 (execPcieLinkUp speed width s) := by
  unfold execPcieLinkUp
  refine Keeps.mk_out ?_
  refine Keeps.ite ?_ ?_
  · refine State.set_keeps ?_
    refine State.set_keeps ?_
    refine State.setFlag_keeps ?_
    exact hs
  · exact hs

theorem State.configWord_keeps {s : State} {item : ConfigItem} (hs : Keeps b s0 s) :
    KeepsSnd b s0 (State.configWord s item) := by
  unfold State.configWord
  extract_lets -merge -underBinder x0 x1
  try clear_value x0
  split
  · refine Keeps.mk_snd ?_
    exact hs
  · refine Keeps.mk_snd ?_
    exact hs
  · refine Keeps.mk_snd ?_
    exact hs
  · refine Keeps.mk_snd ?_
    exact hs
  · refine Keeps.mk_snd ?_
    exact hs
  · refine Keeps.mk_snd ?_
    exact hs
  · refine Keeps.mk_snd ?_
    exact hs
  · split
    · have h2 := Keeps.of_snd (b := b) (s := s0) ‹_ = (_, _)› (by
          refine State.draw_keeps ?_
          exact hs
        )
      refine Keeps.mk_snd ?_
      exact h2
  · split
    · have h3 := Keeps.of_snd (b := b) (s := s0) ‹_ = (_, _)› (by
          refine State.draw_keeps ?_
          exact hs
        )
      refine Keeps.mk_snd ?_
      exact h3
  · split
    · have h4 := Keeps.of_snd (b := b) (s := s0) ‹_ = (_, _)› (by
          refine State.draw_keeps ?_
          exact hs
        )
      refine Keeps.mk_snd ?_
      exact h4

theorem State.writeConfig_keeps {s : State} {item : ConfigItem} {v : Word} (hs : Keeps b s0 s) :
    Keeps b s0 (State.writeConfig s item v) := by
  unfold State.writeConfig
  extract_lets -merge -underBinder x0
  have h1 : ∀ (y0 : State) (y1 : PcieConfig → PcieConfig), Keeps b s0 y0 → Keeps b s0 (x0 y0 y1) := by
    intro _ _ h2
    exact Keeps.congr h2 rfl rfl rfl rfl (fun _ => rfl)
  clear_value x0
  split
  · refine State.setFlag_keeps ?_
    refine h1 _ _ ?_
    exact hs
  · refine Keeps.ite ?_ ?_
    · refine h1 _ _ ?_
      exact hs
    · refine h1 _ _ ?_
      exact hs
  · refine Keeps.ite ?_ ?_
    · refine State.linkDown_keeps ?_
      exact hs
    · refine Keeps.ite ?_ ?_
      · refine State.setFlag_keeps ?_
        refine h1 _ _ ?_
        exact hs
      · exact hs
  · refine State.unmaskMsix_keeps ?_
    refine h1 _ _ ?_
    exact hs
  · refine h1 _ _ ?_
    exact hs
  · refine h1 _ _ ?_
    exact hs
  · exact hs

theorem execPcieConfigRequest_keeps {item : ConfigItem} {write : Option Word} {tag : BitVec 16} {s : State} (hs : Keeps b s0 s) :
    KeepsOut b s0 (execPcieConfigRequest item write tag s) := by
  unfold execPcieConfigRequest
  refine Keeps.mk_out ?_
  refine Keeps.ite ?_ ?_
  · exact hs
  · refine Keeps.ite ?_ ?_
    · refine State.emit_keeps ?_
      exact hs
    · split
      · refine State.emit_keeps ?_
        refine State.writeConfig_keeps ?_
        exact hs
      · split
        · have h0 := Keeps.of_snd (b := b) (s := s0) ‹_ = (_, _)› (by
              refine State.configWord_keeps ?_
              exact hs
            )
          refine State.emit_keeps ?_
          exact h0

theorem State.commandError_keeps {s : State} (hs : Keeps b s0 s) :
    Keeps b s0 (State.commandError s) := by
  unfold State.commandError
  refine State.emit_keeps ?_
  refine State.count_keeps ?_
  exact hs

theorem execQspiWrite_keeps {addr : Word} {len : BitVec 16} {data : List Byte} {room : Bool} {s : State} (hs : Keeps false s0 s) :
    KeepsOut false s0 (execQspiWrite addr len data room s) := by
  unfold execQspiWrite
  refine Keeps.mk_out ?_
  refine Keeps.ite ?_ ?_
  · exact hs
  · refine Keeps.ite ?_ ?_
    · refine State.commandError_keeps ?_
      exact hs
    · extract_lets -merge -underBinder x0 x1 x2 x3 x4
      try clear_value x2
      try clear_value x3
      have h5 : Keeps false s0 x0 := by
        refine State.setFlag_keeps ?_
        exact hs
      clear_value x0
      have h6 : Keeps false s0 x1 := by
        refine State.emit_keeps ?_
        exact h5
      clear_value x1
      have h7 : Keeps false s0 x4 := by
        exact Keeps.congr h6 rfl rfl rfl rfl (fun _ => rfl)
      clear_value x4
      refine Keeps.ite ?_ ?_
      · refine State.emit_keeps ?_
        refine State.count_keeps ?_
        exact h5
      · refine Keeps.ite ?_ ?_
        · refine State.count_keeps ?_
          exact h6
        · refine State.inboundWrite_keeps ?_
          exact h7

theorem State.startFetch_keeps {s : State} {addr : ℕ} {len : ℕ} (hs : Keeps b s0 s) :
    Keeps b s0 (State.startFetch s addr len) := by
  unfold State.startFetch
  extract_lets -merge -underBinder x0 x1 x2
  try clear_value x1
  have h3 : Keeps b s0 x0 := by
    refine State.set_keeps ?_
    refine State.set_keeps ?_
    refine State.set_keeps ?_
    exact hs
  clear_value x0
  have h4 : Keeps b s0 x2 := by
    exact Keeps.congr h3 rfl rfl rfl rfl (fun _ => rfl)
  clear_value x2
  refine State.emit_keeps ?_
  refine State.acceptRead_keeps ?_
  exact h4

theorem State.emptySlot_keeps {s : State} (hs : Keeps b s0 s) :
    Keeps b s0 (State.emptySlot s) := by
  unfold State.emptySlot
  extract_lets -merge -underBinder x0 x1
  try clear_value x1
  have h2 : Keeps b s0 x0 := by
    refine State.set_keeps ?_
    exact hs
  clear_value x0
  exact Keeps.congr h2 rfl rfl rfl rfl (fun _ => rfl)

theorem State.qspiRead_keeps {s : State} {addr : ℕ} {len : ℕ} (hs : Keeps b s0 s) :
    Keeps b s0 (State.qspiRead s addr len) := by
  unfold State.qspiRead
  refine Keeps.ite ?_ ?_
  · refine State.commandError_keeps ?_
    exact hs
  · extract_lets -merge -underBinder x0
    try clear_value x0
    split
    · refine State.startFetch_keeps ?_
      exact hs
    · refine State.emit_keeps ?_
      refine State.count_keeps ?_
      exact hs
    · refine Keeps.ite ?_ ?_
      · split
        · refine State.emit_keeps ?_
          refine State.emptySlot_keeps ?_
          exact hs
        · refine State.emit_keeps ?_
          refine State.emptySlot_keeps ?_
          exact hs
      · refine State.startFetch_keeps ?_
        refine State.raise_keeps ?_
        refine State.count_keeps ?_
        exact hs

theorem execQspiRead_keeps {addr : Word} {len : BitVec 16} {s : State} (hs : Keeps b s0 s) :
    KeepsOut b s0 (execQspiRead addr len s) := by
  unfold execQspiRead
  refine Keeps.mk_out ?_
  refine Keeps.ite ?_ ?_
  · refine State.qspiRead_keeps ?_
    exact hs
  · exact hs

theorem execDrClear_keeps {s : State} (hs : Keeps b s0 s) :
    KeepsOut b s0 (execDrClear s) := by
  unfold execDrClear
  refine Keeps.mk_out ?_
  refine Keeps.ite ?_ ?_
  · extract_lets -merge -underBinder x0 x1
    try clear_value x0
    have h2 : Keeps b s0 x1 := by
      exact Keeps.congr hs rfl rfl rfl rfl (fun _ => rfl)
    clear_value x1
    refine State.emit_keeps ?_
    refine State.emptySlot_keeps ?_
    exact h2
  · exact hs

theorem execDrFetchDone_keeps {s : State} (hs : Keeps b s0 s) :
    KeepsOut b s0 (execDrFetchDone s) := by
  unfold execDrFetchDone
  refine Keeps.mk_out ?_
  refine Keeps.ite ?_ ?_
  · extract_lets -merge -underBinder x0 x1
    try clear_value x1
    have h2 : Keeps b s0 x0 := by
      refine State.set_keeps ?_
      exact hs
    clear_value x0
    exact Keeps.congr h2 rfl rfl rfl rfl (fun _ => rfl)
  · exact hs

theorem execDrTmo_keeps {s : State} (hs : Keeps b s0 s) :
    KeepsOut b s0 (execDrTmo s) := by
  unfold execDrTmo
  refine Keeps.mk_out ?_
  refine Keeps.ite ?_ ?_
  · refine State.raise_keeps ?_
    refine State.count_keeps ?_
    refine State.emptySlot_keeps ?_
    exact hs
  · exact hs

/-! Machine/EngExec.lean. -/

theorem State.writePool_keeps {s : State} {who : Requester} {off : ℕ} {v : Word} (hs : Keeps b s0 s) :
    Keeps b s0 (State.writePool s who off v) := by
  unfold State.writePool
  split
  · refine State.stageWrite_keeps ?_
    exact hs
  · exact hs

theorem State.landWindow_keeps {s : State} {c : Line} {r : ℕ} {off : ℕ} {v : Word} (hs : Keeps false s0 s) :
    KeepsFst false s0 (State.landWindow s c r off v) := by
  unfold State.landWindow
  split
  · refine Keeps.ite_fst ?_ ?_
    · refine Keeps.mk_fst ?_
      refine State.each_keeps ?_ ?_
      · exact hs
      · intro _ _ h0
        show KeepsFst false s0 _
        refine State.writeWord_keeps ?_
        exact h0
    · refine Keeps.mk_fst ?_
      exact hs
  · refine Keeps.ite_fst ?_ ?_
    · refine Keeps.mk_fst ?_
      refine State.writePool_keeps ?_
      exact hs
    · refine Keeps.mk_fst ?_
      exact hs
  · refine State.writeWord_keeps ?_
    exact hs

theorem State.applyStore_keeps {s : State} {c : Line} {r : ℕ} {q : QueuedStore} (hs : Keeps false s0 s) :
    Keeps false s0 (State.applyStore s c r q) := by
  unfold State.applyStore
  extract_lets -merge -underBinder x0 x1
  try clear_value x0
  try clear_value x1
  refine Keeps.ite ?_ ?_
  · refine Keeps.ite ?_ ?_
    · refine State.ringOut_keeps ?_
      exact hs
    · exact hs
  · refine Keeps.ite ?_ ?_
    · refine Keeps.ite ?_ ?_
      · refine State.ackIn_keeps ?_
        exact hs
      · exact hs
    · refine Keeps.ite ?_ ?_
      · refine State.writeMboxOut_keeps ?_
        exact hs
      · show KeepsFst false s0 _
        refine State.landWindow_keeps ?_
        exact hs

theorem State.applyQueues_keeps {s : State} (hs : Keeps false s0 s) :
    Keeps false s0 (State.applyQueues s) := by
  unfold State.applyQueues
  refine State.eachRole_keeps ?_ ?_
  · exact hs
  · intro _ _ _ h0
    extract_lets -merge -underBinder x1
    try clear_value x1
    refine Keeps.ite ?_ ?_
    · refine State.withRole_keeps ?_
      refine State.each_keeps ?_ ?_
      · exact h0
      · intro _ _ h2
        refine State.applyStore_keeps ?_
        exact h2
    · exact h0

theorem State.engineNewCycle_keeps {s : State} {release : Bool} (hs : Keeps b s0 s) :
    Keeps b s0 (State.engineNewCycle s release) := by
  unfold State.engineNewCycle
  refine State.eachRole_keeps ?_ ?_
  · exact hs
  · intro _ _ _ h0
    refine State.withRole_keeps ?_
    exact h0

theorem State.engineTick_keeps {s : State} (hs : Keeps b s0 s) :
    Keeps b s0 (State.engineTick s) := by
  unfold State.engineTick
  refine State.eachRole_keeps ?_ ?_
  · exact hs
  · intro _ _ _ h0
    refine State.pushEvent_keeps ?_
    refine State.withRole_keeps ?_
    exact h0

theorem State.localLoad_keeps {s : State} {c : Line} {r : ℕ} {off : ℕ} (hs : Keeps b s0 s) :
    KeepsSnd b s0 (State.localLoad s c r off) := by
  unfold State.localLoad
  extract_lets -merge -underBinder x0 x1 x2
  try clear_value x0
  try clear_value x2
  refine Keeps.ite_snd ?_ ?_
  · refine State.popEvent_keeps ?_
    exact hs
  · refine Keeps.mk_snd ?_
    exact hs

theorem State.dmaGo_keeps {s : State} {c : Line} {r : ℕ} {d : ℕ} (hs : Keeps b s0 s) :
    Keeps b s0 (State.dmaGo s c r d) := by
  unfold State.dmaGo
  extract_lets -merge -underBinder x0 x1
  try clear_value x0
  try clear_value x1
  refine Keeps.ite ?_ ?_
  · exact hs
  · refine State.withRole_keeps ?_
    exact hs

theorem State.localStore_keeps {s : State} {c : Line} {r : ℕ} {off : ℕ} {v : Word} (hs : Keeps false s0 s) :
    Keeps false s0 (State.localStore s c r off v) := by
  unfold State.localStore
  refine Keeps.ite ?_ ?_
  · refine State.withRole_keeps ?_
    exact hs
  · refine Keeps.ite ?_ ?_
    · extract_lets -merge -underBinder x0
      try clear_value x0
      refine Keeps.ite ?_ ?_
      · refine State.queueStore_keeps ?_
        exact hs
      · refine State.applyStore_keeps ?_
        exact hs
    · refine Keeps.ite ?_ ?_
      · extract_lets -merge -underBinder x1
        try clear_value x1
        split
        · refine State.withRole_keeps ?_
          exact hs
        · refine State.withRole_keeps ?_
          exact hs
        · refine State.withRole_keeps ?_
          exact hs
        · refine Keeps.ite ?_ ?_
          · refine State.dmaGo_keeps ?_
            exact hs
          · exact hs
      · exact hs

theorem State.engLoad_keeps {s : State} {c : Line} {r : ℕ} {bank : Option ℕ} {a : ℕ} {n : ℕ} (hs : Keeps b s0 s) :
    KeepsSnd b s0 (State.engLoad s c r bank a n) := by
  unfold State.engLoad
  split
  · refine Keeps.mk_snd ?_
    exact hs
  · refine Keeps.mk_snd ?_
    exact hs
  · refine Keeps.ite_snd ?_ ?_
    · refine Keeps.mk_snd ?_
      exact hs
    · refine Keeps.mk_snd ?_
      exact hs
  · refine Keeps.ite_snd ?_ ?_
    · refine Keeps.mk_snd ?_
      exact hs
    · refine Keeps.mk_snd ?_
      exact hs
  · refine Keeps.mk_snd ?_
    exact hs
  · refine Keeps.mk_snd ?_
    exact hs
  · refine Keeps.mk_snd ?_
    exact hs
  · refine Keeps.ite_snd ?_ ?_
    · split
      · have h0 := Keeps.of_snd (b := b) (s := s0) ‹_ = (_, _)› (by
            refine State.localLoad_keeps ?_
            exact hs
          )
        refine Keeps.mk_snd ?_
        exact h0
    · refine Keeps.mk_snd ?_
      exact hs
  · refine Keeps.ite_snd ?_ ?_
    · split
      · have h1 := Keeps.of_snd (b := b) (s := s0) ‹_ = (_, _)› (by
            refine State.semLoad_keeps ?_
            exact hs
          )
        refine Keeps.mk_snd ?_
        exact h1
    · refine Keeps.mk_snd ?_
      exact hs
  · extract_lets -merge -underBinder x2
    try clear_value x2
    refine Keeps.ite_snd ?_ ?_
    · refine Keeps.mk_snd ?_
      exact hs
    · refine Keeps.ite_snd ?_ ?_
      · refine Keeps.mk_snd ?_
        exact hs
      · split
        · have h3 := Keeps.of_snd (b := b) (s := s0) ‹_ = (_, _)› (by
              refine State.readWord_keeps ?_
              exact hs
            )
          refine Keeps.mk_snd ?_
          exact h3
        · have h4 := Keeps.of_snd (b := b) (s := s0) ‹_ = (_, _)› (by
              refine State.readWord_keeps ?_
              exact hs
            )
          refine Keeps.mk_snd ?_
          exact h4
  · refine Keeps.mk_snd ?_
    exact hs
  · refine Keeps.mk_snd ?_
    exact hs

theorem State.engShared_keeps {s : State} {c : Line} {r : ℕ} {off : ℕ} {bs : List Byte} (hs : Keeps b s0 s) :
    Keeps b s0 (State.engShared s c r off bs) := by
  unfold State.engShared
  extract_lets -merge -underBinder x0 x1 x2 x3
  try clear_value x0
  try clear_value x2
  have h4 : Keeps b s0 x3 := by
    refine State.each_keeps ?_ ?_
    · exact hs
    · intro _ _ h5
      refine State.each_keeps ?_ ?_
      · exact h5
      · intro _ _ h6
        refine State.setByte_keeps ?_
        refine State.setByte_keeps ?_
        exact h6
  clear_value x3
  exact Keeps.congr h4 rfl rfl rfl rfl (fun _ => rfl)

theorem State.draftStore_keeps {s : State} {c : Line} {r : ℕ} {d : ℕ} {off : ℕ} {n : ℕ} {v : ℕ} (hs : Keeps b s0 s) :
    Keeps b s0 (State.draftStore s c r d off n v) := by
  unfold State.draftStore
  refine Keeps.ite ?_ ?_
  · refine State.requestControl_keeps ?_
    exact hs
  · extract_lets -merge -underBinder x0 x1
    try clear_value x0
    try clear_value x1
    refine Keeps.ite ?_ ?_
    · exact hs
    · refine State.requestData_keeps ?_
      exact hs

theorem State.engStore_keeps {s : State} {c : Line} {r : ℕ} {a : ℕ} {n : ℕ} {v : ℕ} (hs : Keeps false s0 s) :
    KeepsSnd false s0 (State.engStore s c r a n v) := by
  unfold State.engStore
  split
  · refine Keeps.mk_snd ?_
    refine State.each_keeps ?_ ?_
    · exact hs
    · intro _ _ h0
      refine State.setBytes_keeps ?_
      exact h0
  · refine Keeps.mk_snd ?_
    refine State.draftStore_keeps ?_
    exact hs
  · refine Keeps.mk_snd ?_
    refine State.engShared_keeps ?_
    exact hs
  · refine Keeps.ite_snd ?_ ?_
    · refine Keeps.mk_snd ?_
      refine State.localStore_keeps ?_
      exact hs
    · refine Keeps.mk_snd ?_
      exact hs
  · refine Keeps.ite_snd ?_ ?_
    · refine Keeps.mk_snd ?_
      refine State.semStore_keeps ?_
      exact hs
    · refine Keeps.mk_snd ?_
      exact hs
  · refine Keeps.ite_snd ?_ ?_
    · refine Keeps.mk_snd ?_
      exact hs
    · refine Keeps.ite_snd ?_ ?_
      · refine Keeps.mk_snd ?_
        refine State.queueStore_keeps ?_
        exact hs
      · split
        · have h1 := Keeps.of_fst (b := false) (s := s0) ‹_ = (_, _)› (by
              refine State.landWindow_keeps ?_
              exact hs
            )
          refine Keeps.mk_snd ?_
          exact h1
  · refine Keeps.ite_snd ?_ ?_
    · refine Keeps.mk_snd ?_
      exact hs
    · refine Keeps.mk_snd ?_
      refine State.queueStore_keeps ?_
      exact hs
  · refine Keeps.mk_snd ?_
    exact hs

theorem State.loadInstr_keeps {s : State} {c : Line} {r : ℕ} {rd : ℕ} {addr : Word} {size : ℕ} {zext : Bool} {len : ℕ} (hs : Keeps b s0 s) :
    Keeps b s0 (State.loadInstr s c r rd addr size zext len) := by
  unfold State.loadInstr
  extract_lets -merge -underBinder x0
  try clear_value x0
  refine Keeps.ite ?_ ?_
  · refine State.engTrap_keeps ?_
    exact hs
  · split
    · have h1 := Keeps.of_snd (b := b) (s := s0) ‹_ = (_, _)› (by
          refine State.engLoad_keeps ?_
          exact hs
        )
      split
      · refine State.engResult_keeps ?_
        exact h1
      · refine State.accessFault_keeps ?_
        exact h1
      · exact hs

theorem State.storeInstr_keeps {s : State} {c : Line} {r : ℕ} {addr : Word} {size : ℕ} {v : Word} {len : ℕ} (hs : Keeps false s0 s) :
    Keeps false s0 (State.storeInstr s c r addr size v len) := by
  unfold State.storeInstr
  extract_lets -merge -underBinder x0
  try clear_value x0
  refine Keeps.ite ?_ ?_
  · refine State.engTrap_keeps ?_
    exact hs
  · split
    · have h1 := Keeps.of_snd (b := false) (s := s0) ‹_ = (_, _)› (by
          refine State.engStore_keeps ?_
          exact hs
        )
      refine Keeps.ite ?_ ?_
      · refine State.withRole_keeps ?_
        exact h1
      · refine State.accessFault_keeps ?_
        exact h1

theorem execEngineLoad_keeps {c : Line} {r : BitVec 4} {rd : BitVec 5} {addr : Word} {size : BitVec 2} {zext : Bool} {s : State}
    (hs : Keeps b s0 s) :
    KeepsOut b s0 (execEngineLoad c r rd addr size zext s) := by
  unfold execEngineLoad
  refine Keeps.mk_out ?_
  refine Keeps.ite ?_ ?_
  · refine State.loadInstr_keeps ?_
    exact hs
  · exact hs

theorem execEngineStore_keeps {c : Line} {r : BitVec 4} {addr : Word} {size : BitVec 2} {v : Word} {s : State} (hs : Keeps false s0 s) :
    KeepsOut false s0 (execEngineStore c r addr size v s) := by
  unfold execEngineStore
  refine Keeps.mk_out ?_
  refine Keeps.ite ?_ ?_
  · refine State.storeInstr_keeps ?_
    exact hs
  · exact hs

theorem State.dmaRead_keeps {s : State} {c : Line} {r : ℕ} {bank : Option ℕ} {a : ℕ} (hs : Keeps b s0 s) :
    KeepsSnd b s0 (State.dmaRead s c r bank a) := by
  unfold State.dmaRead
  split
  · refine State.engLoad_keeps ?_
    exact hs
  · refine State.engLoad_keeps ?_
    exact hs
  · refine State.engLoad_keeps ?_
    exact hs
  · refine State.engLoad_keeps ?_
    exact hs
  · refine State.engLoad_keeps ?_
    exact hs
  · refine State.engLoad_keeps ?_
    exact hs
  · refine Keeps.mk_snd ?_
    exact hs

theorem State.dmaWrite_keeps {s : State} {c : Line} {r : ℕ} {a : ℕ} {v : ℕ} (hs : Keeps false s0 s) :
    KeepsSnd false s0 (State.dmaWrite s c r a v) := by
  unfold State.dmaWrite
  split
  · refine State.engStore_keeps ?_
    exact hs
  · refine State.engStore_keeps ?_
    exact hs
  · refine Keeps.ite_snd ?_ ?_
    · refine State.engStore_keeps ?_
      exact hs
    · refine Keeps.mk_snd ?_
      exact hs
  · refine Keeps.ite_snd ?_ ?_
    · split
      · have h0 := Keeps.of_fst (b := false) (s := s0) ‹_ = (_, _)› (by
            refine State.landWindow_keeps ?_
            exact hs
          )
        refine Keeps.mk_snd ?_
        exact h0
    · refine Keeps.mk_snd ?_
      exact hs
  · refine Keeps.mk_snd ?_
    exact hs

theorem State.dmaCopy_keeps {a0 : State} {a1 : Line} {a2 : Nat} {a3 : Option Nat} {a4 a5 a6 : Nat} (ha0 : Keeps false s0 a0) :
    KeepsSnd false s0 (State.dmaCopy a0 a1 a2 a3 a4 a5 a6) := by
  induction a4 generalizing a0 a5 a6 with
  | zero => exact ha0
  | succ n ih =>
    unfold State.dmaCopy
    split
    · exact Keeps.of_snd (b := false) (s := s0) ‹_ = (_, _)› (State.dmaRead_keeps ha0)
    · exact Keeps.of_snd (b := false) (s := s0) ‹_ = (_, _)› (State.dmaRead_keeps ha0)
    · have h := Keeps.of_snd (b := false) (s := s0) ‹_ = (_, _)› (State.dmaRead_keeps ha0)
      split
      have k := Keeps.of_snd (b := false) (s := s0) ‹_ = (_, _)› (State.dmaWrite_keeps h)
      exact Keeps.ite_snd (ih k) k

theorem State.dmaFail_keeps {s : State} {c : Line} {r : ℕ} {d : ℕ} (hs : Keeps b s0 s) :
    Keeps b s0 (State.dmaFail s c r d) := by
  unfold State.dmaFail
  refine State.pushEvent_keeps ?_
  refine State.withRole_keeps ?_
  exact hs

theorem State.dmaEnd_keeps {s : State} {c : Line} {r : ℕ} {d : ℕ} (hs : Keeps false s0 s) :
    Keeps false s0 (State.dmaEnd s c r d) := by
  unfold State.dmaEnd
  extract_lets -merge -underBinder x0 x1
  try clear_value x0
  try clear_value x1
  split
  · have h2 := Keeps.of_snd (b := false) (s := s0) ‹_ = (_, _)› (by
        refine Keeps.ite_snd ?_ ?_
        · refine State.dmaCopy_keeps ?_
          exact hs
        · refine Keeps.mk_snd ?_
          exact hs
      )
    exact hs
  · have h3 := Keeps.of_snd (b := false) (s := s0) ‹_ = (_, _)› (by
        refine Keeps.ite_snd ?_ ?_
        · refine State.dmaCopy_keeps ?_
          exact hs
        · refine Keeps.mk_snd ?_
          exact hs
      )
    refine State.dmaFail_keeps ?_
    exact h3
  · have h4 := Keeps.of_snd (b := false) (s := s0) ‹_ = (_, _)› (by
        refine Keeps.ite_snd ?_ ?_
        · refine State.dmaCopy_keeps ?_
          exact hs
        · refine Keeps.mk_snd ?_
          exact hs
      )
    refine State.pushEvent_keeps ?_
    refine State.withRole_keeps ?_
    exact h4

theorem execDmaGo_keeps {c : Line} {r : BitVec 4} {d : BitVec 2} {s : State} (hs : Keeps b s0 s) :
    KeepsOut b s0 (execDmaGo c r d s) := by
  unfold execDmaGo
  refine Keeps.mk_out ?_
  refine Keeps.ite ?_ ?_
  · refine State.withRole_keeps ?_
    refine State.dmaGo_keeps ?_
    exact hs
  · exact hs

theorem execDmaDone_keeps {c : Line} {r : BitVec 4} {d : BitVec 2} {s : State} (hs : Keeps false s0 s) :
    KeepsOut false s0 (execDmaDone c r d s) := by
  unfold execDmaDone
  refine Keeps.mk_out ?_
  refine Keeps.ite ?_ ?_
  · refine State.dmaEnd_keeps ?_
    exact hs
  · exact hs

theorem State.plannedMove_keeps {s : State} {c : Line} (hs : Keeps b s0 s) :
    Keeps b s0 (State.plannedMove s c) := by
  unfold State.plannedMove
  split
  · extract_lets -merge -underBinder x0
    try clear_value x0
    refine Keeps.ite ?_ ?_
    · refine State.each_keeps ?_ ?_
      · exact hs
      · intro _ _ h1
        extract_lets -merge -underBinder x2
        have h3 : Keeps b s0 x2 := by
          unfold x2
          split
          · refine State.set_keeps ?_
            exact h1
          · exact h1
        clear_value x2
        refine Keeps.ite ?_ ?_
        · exact Keeps.congr h3 rfl rfl rfl rfl (fun _ => rfl)
        · exact h3
    · exact hs
  · exact hs

theorem execPlannedMove_keeps {c : Line} {s : State} (hs : Keeps b s0 s) :
    KeepsOut b s0 (execPlannedMove c s) := by
  unfold execPlannedMove
  refine Keeps.mk_out ?_
  refine State.plannedMove_keeps ?_
  exact hs

/-! Machine/Link.lean. -/

theorem State.setLane_keeps {s : State} {lane : ℕ} {up : Bool} {lock : Bool} (hs : Keeps b s0 s) :
    Keeps b s0 (State.setLane s lane up lock) := by
  unfold State.setLane
  extract_lets -merge -underBinder x0
  have h1 : ∀ (y0 : Reg) (y1 : Bool) (y2 : State), Keeps b s0 y2 → Keeps b s0 (x0 y0 y1 y2) := by
    intro _ _ _ h2
    refine State.set_keeps ?_
    exact h2
  clear_value x0
  refine State.raise_keeps ?_
  refine h1 _ _ _ ?_
  refine h1 _ _ _ ?_
  refine h1 _ _ _ ?_
  exact hs

theorem execLaneUp_keeps {lane : BitVec 1} {s : State} (hs : Keeps b s0 s) :
    KeepsOut b s0 (execLaneUp lane s) := by
  unfold execLaneUp
  refine Keeps.mk_out ?_
  refine Keeps.ite ?_ ?_
  · refine State.setLane_keeps ?_
    exact hs
  · exact hs

theorem State.takeVerdict_keeps {s : State} {l : Line} {index : ℕ} {good : Bool} (hs : Keeps b s0 s) :
    Keeps b s0 (State.takeVerdict s l index good) := by
  unfold State.takeVerdict
  extract_lets -merge -underBinder x0 x1 x2
  try clear_value x0
  try clear_value x2
  refine State.slotsMoved_keeps ?_ ?_
  · refine State.each_keeps ?_ ?_
    · exact hs
    · intro _ _ h3
      refine State.takeCopy_keeps ?_
      exact h3
  · exact hs

theorem State.seePosition_keeps {s : State} {l : Line} {p : ℕ} (hs : Keeps b s0 s) :
    Keeps b s0 (State.seePosition s l p) := by
  unfold State.seePosition
  refine Keeps.ite ?_ ?_
  · exact hs
  · refine State.withLine_keeps ?_
    refine State.set64_keeps ?_
    exact hs

theorem State.takeLineCopy_keeps {s : State} {l : Line} {x : Slice} (hs : Keeps b s0 s) :
    Keeps b s0 (State.takeLineCopy s l x) := by
  unfold State.takeLineCopy
  split
  · exact hs
  · extract_lets -merge -underBinder x0 x1 x2 x3 x4
    try clear_value x0
    try clear_value x1
    try clear_value x4
    have h5 : Keeps b s0 x2 := by
      refine State.seePosition_keeps ?_
      exact hs
    clear_value x2
    have h6 : Keeps b s0 x3 := by
      refine State.when_keeps ?_ ?_
      · exact h5
      · intro _ h7
        refine State.raise_keeps ?_
        refine State.count_keeps ?_
        exact h7
    clear_value x3
    refine State.slotsMoved_keeps ?_ ?_
    · refine State.takeCopy_keeps ?_
      exact h6
    · exact h6

theorem State.copyComplete_keeps {s : State} {cycle : BitVec 32} {l : Line} {bs : List Byte} (hs : Keeps b s0 s) :
    Keeps b s0 (State.copyComplete s cycle l bs) := by
  unfold State.copyComplete
  refine Keeps.ite ?_ ?_
  · refine State.count_keeps ?_
    exact hs
  · refine Keeps.ite ?_ ?_
    · refine State.takeLineCopy_keeps ?_
      exact hs
    · exact hs

theorem State.takePiece_keeps {s : State} {cycle : BitVec 32} {l : Line} {slot : BitVec 7} {offs : ℕ} {bs : List Byte} (hs : Keeps b s0 s) :
    Keeps b s0 (State.takePiece s cycle l slot offs bs) := by
  unfold State.takePiece
  extract_lets -merge -underBinder x0 x1 x2 x3 x4
  try clear_value x1
  try clear_value x2
  try clear_value x4
  have h5 : Keeps b s0 x3 := by
    exact Keeps.congr hs rfl rfl rfl rfl (fun _ => rfl)
  clear_value x3
  refine Keeps.ite ?_ ?_
  · exact h5
  · split
    · refine Keeps.ite ?_ ?_
      · refine State.copyComplete_keeps ?_
        exact h5
      · exact Keeps.congr h5 rfl rfl rfl rfl (fun _ => rfl)
    · exact Keeps.congr h5 rfl rfl rfl rfl (fun _ => rfl)

theorem State.lineCopyRx_keeps {s : State} {copy : LineCopy} (hs : Keeps b s0 s) :
    Keeps b s0 (State.lineCopyRx s copy) := by
  unfold State.lineCopyRx
  extract_lets -merge -underBinder x0
  try clear_value x0
  refine Keeps.ite ?_ ?_
  · exact hs
  · refine Keeps.ite ?_ ?_
    · refine State.twinCfgBad_keeps ?_
      exact hs
    · split
      · refine State.takePiece_keeps ?_
        exact hs
      · refine Keeps.ite ?_ ?_
        · exact hs
        · refine State.takeVerdict_keeps ?_
          exact hs

theorem execLineCopyRx_keeps {copy : LineCopy} {s : State} (hs : Keeps b s0 s) :
    KeepsOut b s0 (execLineCopyRx copy s) := by
  unfold execLineCopyRx
  refine Keeps.mk_out ?_
  refine Keeps.ite ?_ ?_
  · refine State.lineCopyRx_keeps ?_
    exact hs
  · exact hs

theorem State.takeRound_keeps {s : State} {round : ℕ} {body : DiscBody} (hs : Keeps b s0 s) :
    Keeps b s0 (State.takeRound s round body) := by
  unfold State.takeRound
  refine Keeps.ite ?_ ?_
  · exact hs
  · extract_lets -merge -underBinder x0
    refine State.withForming_keeps ?_
    exact hs

theorem State.takeDecision_keeps {s : State} {a1 : List Byte} (hs : Keeps b s0 s) :
    Keeps b s0 (State.takeDecision s a1) := by
  unfold State.takeDecision
  refine Keeps.ite ?_ ?_
  · exact hs
  · extract_lets -merge -underBinder x0 x1 x2 x3 x4 x5 x6
    try clear_value x0
    try clear_value x1
    try clear_value x2
    try clear_value x3
    try clear_value x4
    have h7 : Keeps b s0 x5 := by
      refine State.when_keeps ?_ ?_
      · exact hs
      · intro _ h8
        refine State.enterIntegrate_keeps ?_
        refine State.when_keeps ?_ ?_
        · exact h8
        · intro _ h9
          refine State.coldLost_keeps ?_
          exact h9
    clear_value x5
    have h10 : Keeps b s0 x6 := by
      refine State.each_keeps ?_ ?_
      · exact h7
      · intro _ _ h11
        refine State.set_keeps ?_
        refine State.set_keeps ?_
        refine State.set_keeps ?_
        exact h11
    clear_value x6
    refine State.withForming_keeps ?_
    refine State.setStarter_keeps ?_
    exact h10

theorem State.takeKey_keeps {s : State} {a1 : List Byte} (hs : Keeps b s0 s) :
    Keeps b s0 (State.takeKey s a1) := by
  unfold State.takeKey
  extract_lets -merge -underBinder x0 x1
  try clear_value x0
  try clear_value x1
  split
  · exact hs
  · refine Keeps.ite ?_ ?_
    · exact hs
    · split
      · refine State.withForming_keeps ?_
        refine State.showKeys_keeps ?_
        refine State.withSec_keeps ?_
        exact hs
      · exact hs

theorem State.takeItem_keeps {s : State} {kind : ℕ} {round : ℕ} {body : List Byte} (hs : Keeps b s0 s) :
    Keeps b s0 (State.takeItem s kind round body) := by
  unfold State.takeItem
  split
  · refine State.takeRound_keeps ?_
    exact hs
  · refine State.takeDecision_keeps ?_
    exact hs
  · refine State.takeKey_keeps ?_
    exact hs
  · exact hs

theorem State.formingDataRx_keeps {s : State} {g : FormingSegment} (hs : Keeps b s0 s) :
    Keeps b s0 (State.formingDataRx s g) := by
  unfold State.formingDataRx
  refine Keeps.ite ?_ ?_
  · exact hs
  · extract_lets -merge -underBinder x0 x1 x2 x3
    try clear_value x0
    try clear_value x1
    try clear_value x2
    try clear_value x3
    refine Keeps.ite ?_ ?_
    · refine State.takeItem_keeps ?_
      refine State.withForming_keeps ?_
      exact hs
    · refine State.withForming_keeps ?_
      exact hs

theorem execFormingDataRx_keeps {seg : FormingSegment} {s : State} (hs : Keeps b s0 s) :
    KeepsOut b s0 (execFormingDataRx seg s) := by
  unfold execFormingDataRx
  refine Keeps.mk_out ?_
  refine Keeps.ite ?_ ?_
  · refine State.formingDataRx_keeps ?_
    exact hs
  · exact hs

theorem State.respond_keeps {s : State} {tag : BitVec 16} {status : RemoteStatus} {data : List Byte} (hs : Keeps b s0 s) :
    Keeps b s0 (State.respond s tag status data) := by
  unfold State.respond
  refine State.sendLink_keeps ?_
  exact hs

theorem State.remoteWords_keeps {a0 : State} {a1 a2 : Nat} (ha0 : Keeps b s0 a0) : KeepsSnd b s0 (State.remoteWords a0 a1 a2) := by
  induction a2 generalizing a0 a1 with
  | zero => exact ha0
  | succ n ih =>
    unfold State.remoteWords
    split
    · have h := Keeps.of_snd (b := b) (s := s0) ‹_ = (_, _)› (State.readWord_keeps ha0)
      split
      · exact Keeps.of_snd (b := b) (s := s0) ‹_ = (_, _)› (ih h)
      · exact Keeps.of_snd (b := b) (s := s0) ‹_ = (_, _)› (ih h)
    · exact Keeps.of_snd (b := b) (s := s0) ‹_ = (_, _)› (State.readWord_keeps ha0)

theorem State.refuseRemote_keeps {s : State} {q : RemoteRequest} {seq : BitVec 16} {cause : ℕ} (hs : Keeps b s0 s) :
    Keeps b s0 (State.refuseRemote s q seq cause) := by
  unfold State.refuseRemote
  refine State.postedFail_keeps ?_
  refine State.respond_keeps ?_
  exact hs

theorem State.serveRemoteWrite_keeps {s : State} {q : RemoteRequest} {seq : BitVec 16} (hs : Keeps false s0 s) :
    Keeps false s0 (State.serveRemoteWrite s q seq) := by
  unfold State.serveRemoteWrite
  split
  · have h0 := Keeps.of_fst (b := false) (s := s0) ‹_ = (_, _)› (by
        refine Keeps.foldl_fst ?_ ?_
        · refine Keeps.mk_fst ?_
          exact hs
        · intro _ _ h1
          split
          · have h2 := Keeps.of_fst (b := false) (s := s0) ‹_ = (_, _)› (by
                refine State.writeWord_keeps ?_
                show KeepsFst false s0 _
                exact h1
              )
            refine Keeps.mk_fst ?_
            exact h2
          · have h3 := Keeps.of_fst (b := false) (s := s0) ‹_ = (_, _)› (by
                refine State.writeWord_keeps ?_
                show KeepsFst false s0 _
                exact h1
              )
            refine Keeps.mk_fst ?_
            exact h3
      )
    split
    · exact h0
    · refine State.refuseRemote_keeps ?_
      exact h0
    · refine State.refuseRemote_keeps ?_
      exact h0

theorem State.remoteRequestRx_keeps {s : State} {q : RemoteRequest} {seq : BitVec 16} (hs : Keeps false s0 s) :
    Keeps false s0 (State.remoteRequestRx s q seq) := by
  unfold State.remoteRequestRx
  refine Keeps.ite ?_ ?_
  · extract_lets -merge -underBinder x0
    have h1 : Keeps false s0 x0 := by
      refine State.count_keeps ?_
      exact hs
    clear_value x0
    refine Keeps.ite ?_ ?_
    · refine State.refuseRemote_keeps ?_
      exact h1
    · refine State.respond_keeps ?_
      exact h1
  · refine Keeps.ite ?_ ?_
    · refine Keeps.ite ?_ ?_
      · refine State.refuseRemote_keeps ?_
        exact hs
      · refine State.respond_keeps ?_
        exact hs
    · refine Keeps.ite ?_ ?_
      · refine State.serveRemoteWrite_keeps ?_
        exact hs
      · refine Keeps.ite ?_ ?_
        · refine State.respond_keeps ?_
          refine State.count_keeps ?_
          exact hs
        · split
          · have h2 := Keeps.of_snd (b := false) (s := s0) ‹_ = (_, _)› (by
                refine State.remoteWords_keeps ?_
                exact hs
              )
            refine State.respond_keeps ?_
            exact h2
          · have h3 := Keeps.of_snd (b := false) (s := s0) ‹_ = (_, _)› (by
                refine State.remoteWords_keeps ?_
                exact hs
              )
            refine State.respond_keeps ?_
            exact h3

theorem execRemoteRequestRx_keeps {req : RemoteRequest} {seq : BitVec 16} {s : State} (hs : Keeps false s0 s) :
    KeepsOut false s0 (execRemoteRequestRx req seq s) := by
  unfold execRemoteRequestRx
  refine Keeps.mk_out ?_
  refine Keeps.ite ?_ ?_
  · refine State.remoteRequestRx_keeps ?_
    exact hs
  · exact hs

theorem State.failRemote_keeps {s : State} {r : HostRead} (hs : Keeps b s0 s) :
    Keeps b s0 (State.failRemote s r) := by
  unfold State.failRemote
  refine State.serveReads_keeps ?_
  refine State.endRead_keeps ?_
  exact hs

theorem State.writeRefused_keeps {s : State} {tag : BitVec 16} {status : RemoteStatus} (hs : Keeps b s0 s) :
    Keeps b s0 (State.writeRefused s tag status) := by
  unfold State.writeRefused
  split
  · refine Keeps.ite ?_ ?_
    · extract_lets -merge -underBinder x0 x1
      try clear_value x0
      have h2 : Keeps b s0 x1 := by
        exact Keeps.congr hs rfl rfl rfl rfl (fun _ => rfl)
      clear_value x1
      refine State.serveReads_keeps ?_
      refine State.postedFail_keeps ?_
      exact h2
    · exact hs
  · exact hs

theorem State.remoteResponseRx_keeps {s : State} {tag : BitVec 16} {status : RemoteStatus} {data : List Byte} (hs : Keeps b s0 s) :
    Keeps b s0 (State.remoteResponseRx s tag status data) := by
  unfold State.remoteResponseRx
  split
  · refine Keeps.ite ?_ ?_
    · split
      · extract_lets -merge -underBinder x0
        try clear_value x0
        refine State.serveReads_keeps ?_
        refine State.setRead_keeps ?_
        exact hs
      · refine State.serveReads_keeps ?_
        refine State.setRead_keeps ?_
        exact hs
      · refine State.failRemote_keeps ?_
        exact hs
    · refine State.writeRefused_keeps ?_
      exact hs
  · refine State.writeRefused_keeps ?_
    exact hs

theorem execRemoteResponseRx_keeps {tag : BitVec 16} {status : RemoteStatus} {data : List Byte} {s : State} (hs : Keeps b s0 s) :
    KeepsOut b s0 (execRemoteResponseRx tag status data s) := by
  unfold execRemoteResponseRx
  refine Keeps.mk_out ?_
  refine Keeps.ite ?_ ?_
  · refine State.remoteResponseRx_keeps ?_
    exact hs
  · exact hs

theorem execRmtTmo_keeps {s : State} (hs : Keeps b s0 s) :
    KeepsOut b s0 (execRmtTmo s) := by
  unfold execRmtTmo
  refine Keeps.mk_out ?_
  split
  · refine Keeps.ite ?_ ?_
    · refine State.failRemote_keeps ?_
      refine State.remoteTimeout_keeps ?_
      exact hs
    · exact hs
  · exact hs

theorem State.takeTwinMsg_keeps {s : State} {h : TwinHeader} {m : TwinMsg} (hs : Keeps b s0 s) :
    Keeps b s0 (State.takeTwinMsg s h m) := by
  unfold State.takeTwinMsg
  split
  · refine Keeps.of_out ?_
    refine execRenewRx_keeps ?_
    exact hs
  · refine Keeps.of_out ?_
    refine execGrantRx_keeps ?_
    exact hs
  · refine Keeps.of_out ?_
    refine execClaimRx_keeps ?_
    exact hs
  · refine Keeps.of_out ?_
    refine execHandoverRx_keeps ?_
    exact hs
  · refine Keeps.of_out ?_
    refine execHandoverAckRx_keeps ?_
    exact hs
  · refine Keeps.of_out ?_
    refine execCutRecordRx_keeps ?_
    exact hs
  · refine Keeps.of_out ?_
    refine execMergeRx_keeps ?_
    exact hs
  · refine Keeps.of_out ?_
    refine execEpochHeadRx_keeps ?_
    exact Keeps.congr hs rfl rfl rfl rfl (fun _ => rfl)
  · extract_lets -merge -underBinder x0 x1
    try clear_value x1
    have h2 : Keeps b s0 x0 := by
      refine Keeps.of_out ?_
      refine execEpochCommitRx_keeps ?_
      exact hs
    clear_value x0
    exact Keeps.congr h2 rfl rfl rfl rfl (fun _ => rfl)

theorem State.noteSeq_keeps {s : State} {cls : ℕ} {lane : ℕ} {seq : BitVec 16} (hs : Keeps b s0 s) :
    Keeps b s0 (State.noteSeq s cls lane seq) := by
  unfold State.noteSeq
  extract_lets -merge -underBinder x0 x1
  try clear_value x0
  try clear_value x1
  exact Keeps.congr hs rfl rfl rfl rfl (fun _ => rfl)

theorem State.deliverFrame_keeps {s : State} {f : LinkFrame} (hs : Keeps false s0 s) :
    Keeps false s0 (State.deliverFrame s f) := by
  unfold State.deliverFrame
  split
  · refine State.takeTwinMsg_keeps ?_
    exact hs
  · exact Keeps.congr hs rfl rfl rfl rfl (fun _ => rfl)
  · refine State.lineCopyRx_keeps ?_
    exact hs
  · refine State.formingDataRx_keeps ?_
    exact hs
  · refine State.remoteRequestRx_keeps ?_
    exact hs
  · refine State.remoteResponseRx_keeps ?_
    exact hs
  · exact hs

theorem State.setSeqDue_keeps {s : State} {cls : ℕ} {seq : BitVec 16} (hs : Keeps b s0 s) :
    Keeps b s0 (State.setSeqDue s cls seq) := by
  unfold State.setSeqDue
  exact Keeps.congr hs rfl rfl rfl rfl (fun _ => rfl)

theorem State.drainClass_keeps {a0 a1 : Nat} {a2 : State} (ha2 : Keeps false s0 a2) : Keeps false s0 (State.drainClass a0 a1 a2) := by
  induction a1 generalizing a2 with
  | zero => exact ha2
  | succ n ih =>
    unfold State.drainClass
    dsimp only
    split
    · exact ha2
    · split
      · refine ih (State.deliverFrame_keeps (State.setSeqDue_keeps ?_))
        exact Keeps.congr ha2 rfl rfl rfl rfl fun _ => rfl
      · exact Keeps.ite ha2 (ih (State.setSeqDue_keeps ha2))

theorem State.stripedRx_keeps {s : State} {lane : ℕ} {f : LinkFrame} (hs : Keeps false s0 s) :
    Keeps false s0 (State.stripedRx s lane f) := by
  unfold State.stripedRx
  extract_lets -merge -underBinder x0 x1 x2 x3 x4 x5 x6
  try clear_value x0
  try clear_value x1
  try clear_value x3
  try clear_value x5
  have h7 : Keeps false s0 x2 := by
    exact Keeps.congr hs rfl rfl rfl rfl (fun _ => rfl)
  clear_value x2
  have h8 : Keeps false s0 x4 := by
    refine State.setSeqDue_keeps ?_
    exact h7
  clear_value x4
  have h9 : Keeps false s0 x6 := by
    exact Keeps.congr h8 rfl rfl rfl rfl (fun _ => rfl)
  clear_value x6
  refine Keeps.ite ?_ ?_
  · refine State.deliverFrame_keeps ?_
    exact h7
  · refine State.drainClass_keeps ?_
    exact h9

theorem State.drainAll_keeps {s : State} (hs : Keeps false s0 s) :
    Keeps false s0 (State.drainAll s) := by
  unfold State.drainAll
  refine State.each_keeps ?_ ?_
  · exact hs
  · intro _ _ h0
    refine State.drainClass_keeps ?_
    exact h0

theorem State.dropLane_keeps {s : State} {lane : ℕ} {lock : Bool} (hs : Keeps false s0 s) :
    Keeps false s0 (State.dropLane s lane lock) := by
  unfold State.dropLane
  extract_lets -merge -underBinder x0 x1 x2
  try clear_value x0
  have h3 : Keeps false s0 x1 := by
    exact Keeps.congr hs rfl rfl rfl rfl (fun _ => rfl)
  clear_value x1
  have h4 : Keeps false s0 x2 := by
    refine State.drainAll_keeps ?_
    refine State.setLane_keeps ?_
    exact h3
  clear_value x2
  refine State.when_keeps ?_ ?_
  · exact h4
  · intro _ h5
    refine State.countRaise_keeps ?_
    exact h5

theorem execLaneDown_keeps {lane : BitVec 1} {s : State} (hs : Keeps false s0 s) :
    KeepsOut false s0 (execLaneDown lane s) := by
  unfold execLaneDown
  refine Keeps.mk_out ?_
  refine Keeps.ite ?_ ?_
  · refine State.dropLane_keeps ?_
    exact hs
  · exact hs

theorem State.badFrame_keeps {s : State} {lane : ℕ} (hs : Keeps false s0 s) :
    Keeps false s0 (State.badFrame s lane) := by
  unfold State.badFrame
  extract_lets -merge -underBinder x0 x1 x2 x3
  try clear_value x1
  try clear_value x2
  have h4 : Keeps false s0 x0 := by
    refine State.count_keeps ?_
    exact hs
  clear_value x0
  have h5 : Keeps false s0 x3 := by
    exact Keeps.congr h4 rfl rfl rfl rfl (fun _ => rfl)
  clear_value x3
  refine State.when_keeps ?_ ?_
  · exact h5
  · intro _ h6
    refine State.dropLane_keeps ?_
    exact h6

theorem execLinkFrameRx_keeps {lane : BitVec 1} {f : LinkFrame} {s : State} (hs : Keeps false s0 s) :
    KeepsOut false s0 (execLinkFrameRx lane f s) := by
  unfold execLinkFrameRx
  refine Keeps.mk_out ?_
  extract_lets -merge -underBinder x0 x1 x2
  try clear_value x0
  try clear_value x1
  have h3 : Keeps false s0 x2 := by
    refine State.noteSeq_keeps ?_
    exact hs
  clear_value x2
  refine Keeps.ite ?_ ?_
  · exact hs
  · refine Keeps.ite ?_ ?_
    · refine State.badFrame_keeps ?_
      exact hs
    · refine Keeps.ite ?_ ?_
      · refine State.stripedRx_keeps ?_
        exact hs
      · refine Keeps.ite ?_ ?_
        · exact h3
        · refine State.deliverFrame_keeps ?_
          exact h3

theorem State.answerTimeout_keeps {s : State} {init : Initiator} (hs : Keeps b s0 s) :
    Keeps b s0 (State.answerTimeout s init) := by
  unfold State.answerTimeout
  split
  · refine State.when_keeps ?_ ?_
    · exact hs
    · intro _ h0
      refine State.endRead_keeps ?_
      exact h0
  · refine State.when_keeps ?_ ?_
    · exact hs
    · intro _ h1
      refine State.postedFail_keeps ?_
      exact h1
  · extract_lets -merge -underBinder x2
    have h3 : Keeps b s0 x2 := by
      refine State.respond_keeps ?_
      exact hs
    clear_value x2
    split
    · refine State.postedFail_keeps ?_
      exact h3
    · exact h3
  · refine Keeps.ite ?_ ?_
    · refine State.accessFault_keeps ?_
      exact hs
    · exact hs
  · refine Keeps.ite ?_ ?_
    · refine State.dmaFail_keeps ?_
      exact hs
    · exact hs
  · exact hs

theorem execCrossbarTimeout_keeps {stall : XbarStall} {s : State} (hs : Keeps b s0 s) :
    KeepsOut b s0 (execCrossbarTimeout stall s) := by
  unfold execCrossbarTimeout
  refine Keeps.mk_out ?_
  refine Keeps.ite ?_ ?_
  · refine State.answerTimeout_keeps ?_
    refine State.crossbarTimeout_keeps ?_
    exact hs
  · exact hs

/-! Machine/Rv32.lean. -/

theorem State.csrRead_keeps {s : State} {c : Line} {r : ℕ} {a : ℕ} (hs : Keeps b s0 s) :
    KeepsSnd b s0 (State.csrRead s c r a) := by
  unfold State.csrRead
  extract_lets -merge -underBinder x0
  try clear_value x0
  split
  · refine Keeps.mk_snd ?_
    exact hs
  · refine Keeps.mk_snd ?_
    exact hs
  · refine Keeps.mk_snd ?_
    exact hs
  · split
    · have h1 := Keeps.of_snd (b := b) (s := s0) ‹_ = (_, _)› (by
          refine State.draw_keeps ?_
          exact hs
        )
      refine Keeps.mk_snd ?_
      exact h1
  · split
    · have h2 := Keeps.of_snd (b := b) (s := s0) ‹_ = (_, _)› (by
          refine State.draw_keeps ?_
          exact hs
        )
      refine Keeps.mk_snd ?_
      exact h2
  · refine Keeps.mk_snd ?_
    exact hs
  · refine Keeps.mk_snd ?_
    exact hs
  · refine Keeps.mk_snd ?_
    exact hs
  · refine Keeps.mk_snd ?_
    exact hs
  · extract_lets -merge -underBinder x3
    try clear_value x3
    refine Keeps.mk_snd ?_
    refine State.withRole_keeps ?_
    exact hs
  · refine Keeps.mk_snd ?_
    exact hs
  · refine Keeps.mk_snd ?_
    exact hs

theorem State.csrInstr_keeps {s : State} {c : Line} {r : ℕ} {op : CsrOp} {rd : ℕ} {a : ℕ} {src : ℕ} {immediate : Bool} {word : Word}
    (hs : Keeps b s0 s) :
    Keeps b s0 (State.csrInstr s c r op rd a src immediate word) := by
  unfold State.csrInstr
  extract_lets -merge -underBinder x0 x1
  try clear_value x0
  try clear_value x1
  refine Keeps.ite ?_ ?_
  · refine State.engTrap_keeps ?_
    exact hs
  · split
    · have h2 := Keeps.of_snd (b := b) (s := s0) ‹_ = (_, _)› (by
          refine Keeps.ite_snd ?_ ?_
          · refine Keeps.mk_snd ?_
            exact hs
          · refine State.csrRead_keeps ?_
            exact hs
        )
      extract_lets -merge -underBinder x3
      try clear_value x3
      refine State.withRole_keeps ?_
      exact h2

theorem State.rvExec_keeps {s : State} {c : Line} {r : ℕ} {len : ℕ} {word : Word} {i : Rv} (hs : Keeps false s0 s) :
    Keeps false s0 (State.rvExec s c r len word i) := by
  unfold State.rvExec
  extract_lets -merge -underBinder x0 x1
  try clear_value x0
  try clear_value x1
  split
  · refine State.engResult_keeps ?_
    exact hs
  · refine State.engResult_keeps ?_
    exact hs
  · refine State.withRole_keeps ?_
    exact hs
  · refine State.withRole_keeps ?_
    exact hs
  · refine State.withRole_keeps ?_
    exact hs
  · refine State.loadInstr_keeps ?_
    exact hs
  · refine State.storeInstr_keeps ?_
    exact hs
  · refine State.engResult_keeps ?_
    exact hs
  · refine State.engResult_keeps ?_
    exact hs
  · refine State.withRole_keeps ?_
    exact hs
  · refine State.withRole_keeps ?_
    exact hs
  · refine State.engTrap_keeps ?_
    exact hs
  · refine State.ebreak_keeps ?_
    exact hs
  · refine State.withRole_keeps ?_
    exact hs
  · refine State.csrInstr_keeps ?_
    exact hs
  · refine State.bfx_keeps ?_
    exact hs
  · refine State.bfi_keeps ?_
    exact hs
  · refine State.sscl_keeps ?_
    exact hs
  · refine State.bswap_keeps ?_
    exact hs
  · refine State.ldp_keeps ?_
    exact hs
  · refine State.wft_keeps ?_
    exact hs

theorem State.rvStep_keeps {s : State} {c : Line} {r : ℕ} (hs : Keeps false s0 s) :
    Keeps false s0 (State.rvStep s c r) := by
  unfold State.rvStep
  extract_lets -merge -underBinder x0 x1 x2
  try clear_value x0
  try clear_value x1
  try clear_value x2
  refine Keeps.ite ?_ ?_
  · refine State.accessFault_keeps ?_
    exact hs
  · refine Keeps.ite ?_ ?_
    · split
      · refine State.rvExec_keeps ?_
        exact hs
      · refine State.engTrap_keeps ?_
        exact hs
    · split
      · refine State.rvExec_keeps ?_
        exact hs
      · refine State.engTrap_keeps ?_
        exact hs

theorem execRv32imcInstruction_keeps {c : Line} {r : BitVec 4} {s : State} (hs : Keeps false s0 s) :
    KeepsOut false s0 (execRv32imcInstruction c r s) := by
  unfold execRv32imcInstruction
  refine Keeps.mk_out ?_
  refine Keeps.ite ?_ ?_
  · refine State.rvStep_keeps ?_
    exact hs
  · exact hs

/-! Machine/Tick.lean. -/

theorem State.guardTick_keeps {s : State} {l : Line} (hs : Keeps b s0 s) :
    Keeps b s0 (State.guardTick s l) := by
  unfold State.guardTick
  extract_lets -merge -underBinder x0 x1 x2
  try clear_value x0
  try clear_value x1
  have h3 : Keeps b s0 x2 := by
    refine State.withLine_keeps ?_
    exact hs
  clear_value x2
  split
  · exact h3
  · refine Keeps.ite ?_ ?_
    · exact h3
    · refine Keeps.ite ?_ ?_
      · refine State.withLine_keeps ?_
        refine State.setFlag_keeps ?_
        refine State.countRaise_keeps ?_
        exact h3
      · extract_lets -merge -underBinder x4
        try clear_value x4
        refine State.when_keeps ?_ ?_
        · refine State.withLine_keeps ?_
          exact h3
        · intro _ h5
          refine State.setFlag_keeps ?_
          exact h5

theorem State.guardTicks_keeps {s : State} (hs : Keeps b s0 s) :
    Keeps b s0 (State.guardTicks s) := by
  unfold State.guardTicks
  refine State.each_keeps ?_ ?_
  · exact hs
  · intro _ _ h0
    refine State.guardTick_keeps ?_
    exact h0

theorem State.rotateBanks_keeps {s : State} (hs : Keeps b s0 s) :
    Keeps b s0 (State.rotateBanks s) := by
  unfold State.rotateBanks
  refine State.each_keeps ?_ ?_
  · exact hs
  · intro _ _ h0
    extract_lets -merge -underBinder x1 x2 x3
    try clear_value x2
    have h4 : Keeps b s0 x1 := by
      refine State.startForming_keeps ?_
      exact h0
    clear_value x1
    have h5 : Keeps b s0 x3 := by
      refine State.rotate_keeps ?_
      exact h4
    clear_value x3
    split
    · refine State.moveViews_keeps ?_
      exact h5
    · exact h5

theorem State.prepareBanks_keeps {s : State} {rotated : Bool} {relaid : Bool} (hs : Keeps b s0 s) :
    Keeps b s0 (State.prepareBanks s rotated relaid) := by
  unfold State.prepareBanks
  refine State.each_keeps ?_ ?_
  · exact hs
  · intro _ _ h0
    refine Keeps.ite ?_ ?_
    · refine State.set_keeps ?_
      exact h0
    · refine Keeps.ite ?_ ?_
      · refine State.startForming_keeps ?_
        exact h0
      · refine Keeps.ite ?_ ?_
        · refine State.fillForming_keeps ?_
          exact h0
        · refine State.fillForming_keeps ?_
          refine State.initForming_keeps ?_
          exact h0

theorem State.tickMoves_keeps {s : State} (hs : Keeps b s0 s) :
    Keeps b s0 (State.tickMoves s) := by
  unfold State.tickMoves
  extract_lets -merge -underBinder x0 x1
  have h2 : Keeps b s0 x0 := by
    refine State.each_keeps ?_ ?_
    · exact hs
    · intro _ _ h3
      refine State.leaveWait_keeps ?_
      exact h3
  clear_value x0
  have h4 : Keeps b s0 x1 := by
    refine State.makeMoves_keeps ?_
    exact h2
  clear_value x1
  refine State.tickProof_keeps ?_
  refine State.takeSpareCore_keeps ?_
  refine State.each_keeps ?_ ?_
  · exact h4
  · intro _ _ h5
    refine State.takeSpareLanes_keeps ?_
    exact h5

theorem State.showHold_keeps {s : State} {held : Bool} (hs : Keeps b s0 s) :
    Keeps b s0 (State.showHold s held) := by
  unfold State.showHold
  refine State.setHold_keeps ?_
  refine State.each_keeps ?_ ?_
  · exact hs
  · intro _ _ h0
    refine State.setFlag_keeps ?_
    exact h0

theorem State.tellMarks_keeps {s : State} (hs : Keeps b s0 s) :
    Keeps b s0 (State.tellMarks s) := by
  unfold State.tellMarks
  extract_lets -merge -underBinder x0
  try clear_value x0
  refine State.withTime_keeps ?_ ?_
  · refine State.each_keeps ?_ ?_
    · exact hs
    · intro _ _ h1
      refine State.engineMark_keeps ?_
      exact h1
  · exact fun _ _ => rfl

theorem State.clock40_keeps {s : State} {release : Bool} {ended : ℕ} (hs : Keeps false s0 s) :
    Keeps false s0 (State.clock40 s release ended) := by
  unfold State.clock40
  extract_lets -merge -underBinder x0 x1 x2
  try clear_value x1
  have h3 : Keeps false s0 x0 := by
    exact hs
  clear_value x0
  have h4 : Keeps false s0 x2 := by
    exact Keeps.congr hs rfl rfl rfl rfl (fun _ => rfl)
  clear_value x2
  split
  · have h5 := Keeps.of_fst (b := false) (s := s0) ‹_ = (_, _)› (by
        refine State.earlyRequests_keeps ?_
        refine State.keepEarly_keeps ?_
        exact h4
      )
    extract_lets -merge -underBinder x6 x7 x8 x9 x10 x11 x12
    try clear_value x9
    try clear_value x11
    have h13 : Keeps false s0 x6 := by
      refine State.tellMarks_keeps ?_
      refine State.engineTick_keeps ?_
      exact h5
    clear_value x6
    have h14 : Keeps false s0 x7 := by
      refine State.when_keeps ?_ ?_
      · exact h13
      · intro _ h15
        refine State.applyQueues_keeps ?_
        exact h15
    clear_value x7
    have h16 : Keeps false s0 x8 := by
      refine State.engineNewCycle_keeps ?_
      refine State.engineDiscards_keeps ?_
      exact h14
    clear_value x8
    have h17 : Keeps false s0 x10 := by
      refine State.twinClock40_keeps ?_
      refine State.markEarly_keeps ?_
      refine State.kneaderClock40_keeps ?_
      exact h16
    clear_value x10
    have h18 : Keeps false s0 x12 := by
      exact Keeps.congr h17 rfl rfl rfl rfl (fun _ => rfl)
    clear_value x12
    refine State.pinEdges_keeps ?_ ?_
    · refine State.when_keeps ?_ ?_
      · refine State.when_keeps ?_ ?_
        · exact h18
        · intro _ h19
          refine State.dropSessions_keeps ?_
          exact h19
      · intro _ h20
        refine State.hatSessions_keeps ?_
        exact h20
    · exact h3

theorem State.freshCycle_keeps {s : State} (hs : Keeps b s0 s) :
    Keeps b s0 (State.freshCycle s) := by
  unfold State.freshCycle
  extract_lets -merge -underBinder x0 x1 x2 x3
  try clear_value x0
  try clear_value x1
  try clear_value x3
  have h4 : Keeps b s0 x2 := by
    exact Keeps.congr hs rfl rfl rfl rfl (fun _ => rfl)
  clear_value x2
  exact Keeps.congr h4 rfl rfl rfl rfl (fun _ => rfl)

theorem State.tick_keeps {s : State} (hs : Keeps false s0 s) :
    Keeps false s0 (State.tick s) := by
  unfold State.tick
  extract_lets -merge -underBinder x0 x1 x2 x3 x4 x5 x6 x7 x8 x9 x10 x11 x12 x13 x14 x15 x16
  try clear_value x1
  try clear_value x2
  try clear_value x3
  try clear_value x4
  try clear_value x12
  have h17 : Keeps false s0 x0 := by
    exact hs
  clear_value x0
  have h18 : Keeps false s0 x5 := by
    refine State.guardTicks_keeps ?_
    refine State.kneaderClock0_keeps ?_
    exact hs
  clear_value x5
  have h19 : Keeps false s0 x6 := by
    refine State.when_keeps ?_ ?_
    · exact h18
    · intro _ h20
      refine State.rotateBanks_keeps ?_
      exact h20
  clear_value x6
  have h21 : Keeps false s0 x7 := by
    refine State.when_keeps ?_ ?_
    · refine State.engineClock33_keeps ?_
      exact h19
    · intro _ h22
      refine State.mergePending_keeps ?_
      exact h22
  clear_value x7
  have h23 : Keeps false s0 x8 := by
    refine State.tickTime_keeps ?_
    refine State.changeLength_keeps ?_
    exact h21
  clear_value x8
  have h24 : Keeps false s0 x9 := by
    refine State.freshCycle_keeps ?_
    refine State.withTime_keeps ?_ ?_
    · exact h23
    · exact fun _ _ => rfl
  clear_value x9
  have h25 : Keeps false s0 x10 := by
    refine State.showHold_keeps ?_
    refine State.tickTwin_keeps ?_ ?_
    · refine State.tickMoves_keeps ?_
      exact h24
    · exact h17
  clear_value x10
  have h26 : Keeps false s0 x11 := by
    refine State.takeLateKey_keeps ?_
    refine State.tickForming_keeps ?_
    refine State.tickLines_keeps ?_
    refine State.ageDrafts_keeps ?_
    refine State.deriveRoll_keeps ?_
    refine State.tickRequests_keeps ?_
    refine State.tickSwitch_keeps ?_
    exact h25
  clear_value x11
  have h27 : Keeps false s0 x13 := by
    refine State.prepareBanks_keeps ?_
    exact h26
  clear_value x13
  have h28 : Keeps false s0 x14 := by
    refine State.when_keeps ?_ ?_
    · exact h27
    · intro _ h29
      refine State.rebuildMaps_keeps ?_
      exact h29
  clear_value x14
  have h30 : Keeps false s0 x15 := by
    refine State.clock40_keeps ?_
    exact h28
  clear_value x15
  have h31 : Keeps false s0 x16 := by
    refine State.when_keeps ?_ ?_
    · exact h30
    · intro _ h32
      refine State.engineEpoch_keeps ?_
      exact h32
  clear_value x16
  refine State.settleHat_keeps ?_
  refine State.recheckLines_keeps ?_ ?_
  · exact h31
  · exact h17

theorem execTick_keeps {s : State} (hs : Keeps false s0 s) :
    KeepsOut false s0 (execTick s) := by
  unfold execTick
  refine Keeps.mk_out ?_
  refine Keeps.ite ?_ ?_
  · refine State.tick_keeps ?_
    exact hs
  · exact hs

theorem execJobOverrun_keeps {c : Line} {job : BitVec 15} {s : State} (hs : Keeps b s0 s) :
    KeepsOut b s0 (execJobOverrun c job s) := by
  unfold execJobOverrun
  refine Keeps.mk_out ?_
  extract_lets -merge -underBinder x0
  split
  · refine State.overrunJob_keeps ?_
    exact hs
  · exact hs

theorem State.fireMark_keeps {s : State} {m : ℕ} (hs : Keeps b s0 s) :
    Keeps b s0 (State.fireMark s m) := by
  unfold State.fireMark
  extract_lets -merge -underBinder x0 x1
  try clear_value x1
  have h2 : Keeps b s0 x0 := by
    refine State.withTime_keeps ?_ ?_
    · exact hs
    · exact fun _ _ => rfl
  clear_value x0
  refine State.markTriggers_keeps ?_
  refine State.when_keeps ?_ ?_
  · refine State.pulseMark_keeps ?_
    refine State.raise_keeps ?_
    exact h2
  · intro _ h3
    refine State.engineMark_keeps ?_
    exact h3

theorem execCycleMark_keeps {m : BitVec 4} {s : State} (hs : Keeps b s0 s) :
    KeepsOut b s0 (execCycleMark m s) := by
  unfold execCycleMark
  refine Keeps.mk_out ?_
  refine Keeps.ite ?_ ?_
  · refine State.each_keeps ?_ ?_
    · exact hs
    · intro _ _ h0
      refine State.when_keeps ?_ ?_
      · exact h0
      · intro _ h1
        refine State.fireMark_keeps ?_
        exact h1
  · exact hs

/-! Machine/TrayRx.lean. -/

theorem State.guardStray_keeps {s : State} {before : State} {info : FrameInfo} {h : TrayHeader} {body : MaskBody} (hs : Keeps b s0 s)
    (hbefore : Keeps b s0 before) :
    Keeps b s0 (State.guardStray s before info h body) := by
  unfold State.guardStray
  extract_lets -merge -underBinder x0
  try clear_value x0
  split
  · refine Keeps.ite ?_ ?_
    · refine State.guardianFault_keeps ?_
      refine State.raise_keeps ?_
      refine State.count_keeps ?_
      exact hs
    · exact hs
  · exact hs

theorem State.recognise_keeps {s : State} {info : FrameInfo} {h : TrayHeader} {bytes : List Byte} {ended : Bool} {mask : MaskBody}
    {read : State → State} (hs : Keeps b s0 s) (hread : ∀ y0, Keeps b s0 y0 → Keeps b s0 (read y0)) :
    Keeps b s0 (State.recognise s info h bytes ended mask read) := by
  unfold State.recognise
  extract_lets -merge -underBinder x0 x1
  try clear_value x0
  try clear_value x1
  refine Keeps.ite ?_ ?_
  · refine Keeps.ite ?_ ?_
    · refine State.receive_keeps ?_
      exact hs
    · exact hs
  · refine Keeps.ite ?_ ?_
    · refine State.guardStray_keeps ?_ ?_
      · refine hread _ ?_
        exact hs
      · exact hs
    · refine hread _ ?_
      exact hs

theorem execColdStartTrayRx_keeps {info : FrameInfo} {hdr : TrayHeader} {a2 : FormingBlock} {s : State} (hs : Keeps b s0 s) :
    KeepsOut b s0 (execColdStartTrayRx info hdr a2 s) := by
  unfold execColdStartTrayRx
  refine Keeps.mk_out ?_
  refine State.recognise_keeps ?_ ?_
  · exact hs
  · intro _ h0
    refine State.coldStartRx_keeps ?_
    exact h0

theorem execSeekTrayRx_keeps {info : FrameInfo} {hdr : TrayHeader} {a2 : FormingBlock} {body : DiscBody} {s : State} (hs : Keeps b s0 s) :
    KeepsOut b s0 (execSeekTrayRx info hdr a2 body s) := by
  unfold execSeekTrayRx
  refine Keeps.mk_out ?_
  refine State.recognise_keeps ?_ ?_
  · exact hs
  · intro _ h0
    refine State.seekRx_keeps ?_
    exact h0

theorem execCountTrayRx_keeps {info : FrameInfo} {hdr : TrayHeader} {a2 : FormingBlock} {body : DiscBody} {s : State} (hs : Keeps b s0 s) :
    KeepsOut b s0 (execCountTrayRx info hdr a2 body s) := by
  unfold execCountTrayRx
  refine Keeps.mk_out ?_
  refine State.recognise_keeps ?_ ?_
  · exact hs
  · intro _ h0
    refine State.discoveryRx_keeps ?_
    exact h0

theorem execConfirmTrayRx_keeps {info : FrameInfo} {hdr : TrayHeader} {a2 : FormingBlock} {body : DiscBody} {s : State}
    (hs : Keeps b s0 s) :
    KeepsOut b s0 (execConfirmTrayRx info hdr a2 body s) := by
  unfold execConfirmTrayRx
  refine Keeps.mk_out ?_
  refine State.recognise_keeps ?_ ?_
  · exact hs
  · intro _ h0
    refine State.discoveryRx_keeps ?_
    exact h0

theorem execKeyDistTrayRx_keeps {info : FrameInfo} {hdr : TrayHeader} {a2 : FormingBlock} {plan : KeyPlan} {entries : List KeyEntry}
    {s : State} (hs : Keeps b s0 s) :
    KeepsOut b s0 (execKeyDistTrayRx info hdr a2 plan entries s) := by
  unfold execKeyDistTrayRx
  refine Keeps.mk_out ?_
  refine State.recognise_keeps ?_ ?_
  · exact hs
  · intro _ h0
    refine State.keyDistRx_keeps ?_
    exact h0

theorem execTrayFrameRx_keeps {info : FrameInfo} {hdr : TrayHeader} {presence : BitVec 64} {slices : List Slice} {s : State}
    (hs : Keeps b s0 s) :
    KeepsOut b s0 (execTrayFrameRx info hdr presence slices s) := by
  unfold execTrayFrameRx
  refine Keeps.mk_out ?_
  refine State.recognise_keeps ?_ ?_
  · exact hs
  · intro _ h0
    refine State.trayFrameRx_keeps ?_
    exact h0

theorem execReturnFrameRx_keeps {info : FrameInfo} {frame : DataFrame} {fcs : Option Bool} {s : State} (hs : Keeps b s0 s) :
    KeepsOut b s0 (execReturnFrameRx info frame fcs s) := by
  unfold execReturnFrameRx
  refine Keeps.mk_out ?_
  refine State.recognise_keeps ?_ ?_
  · exact hs
  · intro _ h0
    refine State.returnFrameRx_keeps ?_
    exact h0

theorem execReverseCopyRx_keeps {info : FrameInfo} {frame : DataFrame} {s : State} (hs : Keeps b s0 s) :
    KeepsOut b s0 (execReverseCopyRx info frame s) := by
  unfold execReverseCopyRx
  refine Keeps.mk_out ?_
  refine State.recognise_keeps ?_ ?_
  · exact hs
  · intro _ h0
    refine State.reverseCopyRx_keeps ?_
    exact h0

theorem execSlotFrameRx_keeps {info : FrameInfo} {hdr : TrayHeader} {timing : TimingBlock} {slice : Slice} {fcs : Option Bool} {s : State}
    (hs : Keeps b s0 s) :
    KeepsOut b s0 (execSlotFrameRx info hdr timing slice fcs s) := by
  unfold execSlotFrameRx
  refine Keeps.mk_out ?_
  refine State.recognise_keeps ?_ ?_
  · exact hs
  · intro _ h0
    refine State.slotFrameRx_keeps ?_
    exact h0

end Sys2Proof.Machine
end

