-- ==== Sys2Proof/Laws/State.lean ====
section
/-! SUPPORT. What the stores read after a write, and what each named update of the state leaves as it was, one lemma per field. -/

namespace Sys2Proof.Machine

/-! The stores. -/

/-- A key taken out reads the default. -/
theorem lookup_unlist {β : Type} (d : β) (l : List (Nat × β)) (a : Nat) : lookup d (unlist l a) a = d := by
  induction l with
  | nil => rfl
  | cons e l ih =>
    obtain ⟨k, v⟩ := e
    by_cases h : k = a
    · subst h; simpa [unlist] using ih
    · simp only [unlist, List.filter_cons] at ih ⊢
      simp [h, lookup, Ne.symm h]; exact ih

/-- Other keys read as before. -/
theorem lookup_unlist_ne {β : Type} (d : β) (l : List (Nat × β)) (a b : Nat) (hb : b ≠ a) : lookup d (unlist l a) b = lookup d l b := by
  induction l with
  | nil => rfl
  | cons e l ih =>
    obtain ⟨k, v⟩ := e
    by_cases h : k = a
    · subst h; simp only [unlist, List.filter_cons] at ih ⊢; simpa [lookup, hb] using ih
    · simp only [unlist, List.filter_cons] at ih ⊢
      simp [h, lookup, ih]

/-- A key put in reads its value. -/
theorem lookup_enlist {β : Type} (d : β) (l : List (Nat × β)) (a : Nat) (v : β) (h : ∀ e ∈ l, e.1 ≠ a) : lookup d (enlist l a v) a = v := by
  induction l with
  | nil => simp [enlist, lookup]
  | cons e l ih =>
    obtain ⟨k, w⟩ := e
    have hk : k ≠ a := by simpa using h (k, w) (by simp)
    simp only [enlist]
    split
    · simp [lookup]
    · simp [lookup, Ne.symm hk, ih (fun e he => h e (List.mem_cons_of_mem _ he))]

/-- Other keys read as before. -/
theorem lookup_enlist_ne {β : Type} (d : β) (l : List (Nat × β)) (a b : Nat) (v : β) (h : b ≠ a) : lookup d (enlist l a v) b = lookup d l b := by
  induction l with
  | nil => simp [enlist, lookup, h]
  | cons e l ih =>
    obtain ⟨k, w⟩ := e
    simp only [enlist]
    split <;> simp [lookup, h, ih]

/-- A key reads what was written. -/
theorem lookup_store {β : Type} [DecidableEq β] (d : β) (l : List (Nat × β)) (a : Nat) (v : β) : lookup d (store d l a v) a = v := by
  unfold store
  split
  · rename_i h; rw [lookup_unlist, h]
  · exact lookup_enlist _ _ _ _ (fun e he => by simpa using (List.mem_filter.mp he).2)

/-- Other keys read as before. -/
theorem lookup_store_ne {β : Type} [DecidableEq β] (d d' : β) (l : List (Nat × β)) (a b : Nat) (v : β) (h : b ≠ a) :
    lookup d' (store d l a v) b = lookup d' l b := by
  unfold store
  split
  · exact lookup_unlist_ne _ _ _ _ h
  · rw [lookup_enlist_ne _ _ _ _ _ h, lookup_unlist_ne _ _ _ _ h]

/-- A field reads back what was set, cut to its width. -/
theorem State.get_set (s : State) (r : Reg) (v : Nat) : (s.set r v).get r = v % 2 ^ r.width := lookup_store _ _ _ _

/-- A field with another key reads as before. -/
theorem State.get_set_ne (s : State) (r q : Reg) (v : Nat) (h : q.key ≠ r.key) : (s.set r v).get q = s.get q := lookup_store_ne _ _ _ _ _ _ h

/-- A byte reads back what was written. -/
theorem State.byte_setByte (s : State) (a : Nat) (v : Byte) : (s.setByte a v).byte a = v := lookup_store _ _ _ _

/-- Another byte reads as before. -/
theorem State.byte_setByte_ne (s : State) (a b : Nat) (v : Byte) (h : b ≠ a) : (s.setByte a v).byte b = s.byte b := lookup_store_ne _ _ _ _ _ _ h

/-- A byte after a write of consecutive bytes. -/
theorem State.byte_setBytes (s : State) (a : Nat) (bs : List Byte) (b : Nat) :
   (s.setBytes a bs).byte b = if a ≤ b ∧ b < a + bs.length then bs.getD (b - a) 0 else s.byte b := by
  induction bs generalizing s a with
  | nil => simp [State.setBytes]
  | cons x l ih =>
    rw [State.setBytes, ih]
    by_cases h : b = a
    · subst h; simp [State.byte_setByte]
    · rw [State.byte_setByte_ne _ _ _ _ h]
      simp only [List.length_cons]
      by_cases h1 : a ≤ b ∧ b < a + (l.length + 1)
      · rw [if_pos h1, if_pos (by omega)]
        obtain ⟨n, hn⟩ : ∃ n, b - a = n + 1 := ⟨b - a - 1, by omega⟩
        rw [hn, show b - (a+1) = n by omega]; rfl
      · rw [if_neg h1, if_neg (by omega)]

/-! The fields an update leaves as they were, and the one it changes. -/

@[simp] theorem State.set_regs (s : State) (r : Reg) (v : Nat) : (s.set r v).regs = store r.reset s.regs r.key (v % 2 ^ r.width) := rfl
@[simp] theorem State.set_updates (s : State) (r : Reg) (v : Nat) : (s.set r v).updates = s.updates := rfl
@[simp] theorem State.set_thisClock (s : State) (r : Reg) (v : Nat) : (s.set r v).thisClock = s.thisClock := rfl
@[simp] theorem State.set_softResets (s : State) (r : Reg) (v : Nat) : (s.set r v).softResets = s.softResets := rfl
@[simp] theorem State.set_mem (s : State) (r : Reg) (v : Nat) : (s.set r v).mem = s.mem := rfl
@[simp] theorem State.set_readLatch (s : State) (r : Reg) (v : Nat) : (s.set r v).readLatch = s.readLatch := rfl
@[simp] theorem State.set_writeHold (s : State) (r : Reg) (v : Nat) : (s.set r v).writeHold = s.writeHold := rfl
@[simp] theorem State.set_time (s : State) (r : Reg) (v : Nat) : (s.set r v).time = s.time := rfl
@[simp] theorem State.set_lineA (s : State) (r : Reg) (v : Nat) : (s.set r v).lineA = s.lineA := rfl
@[simp] theorem State.set_lineB (s : State) (r : Reg) (v : Nat) : (s.set r v).lineB = s.lineB := rfl
@[simp] theorem State.set_forming (s : State) (r : Reg) (v : Nat) : (s.set r v).forming = s.forming := rfl
@[simp] theorem State.set_loafA (s : State) (r : Reg) (v : Nat) : (s.set r v).loafA = s.loafA := rfl
@[simp] theorem State.set_loafB (s : State) (r : Reg) (v : Nat) : (s.set r v).loafB = s.loafB := rfl
@[simp] theorem State.set_capture (s : State) (r : Reg) (v : Nat) : (s.set r v).capture = s.capture := rfl
@[simp] theorem State.set_selection (s : State) (r : Reg) (v : Nat) : (s.set r v).selection = s.selection := rfl
@[simp] theorem State.set_holdCopy (s : State) (r : Reg) (v : Nat) : (s.set r v).holdCopy = s.holdCopy := rfl
@[simp] theorem State.set_nextSeq (s : State) (r : Reg) (v : Nat) : (s.set r v).nextSeq = s.nextSeq := rfl
@[simp] theorem State.set_brownoutMark (s : State) (r : Reg) (v : Nat) : (s.set r v).brownoutMark = s.brownoutMark := rfl
@[simp] theorem State.set_otp (s : State) (r : Reg) (v : Nat) : (s.set r v).otp = s.otp := rfl
@[simp] theorem State.set_sec (s : State) (r : Reg) (v : Nat) : (s.set r v).sec = s.sec := rfl
@[simp] theorem State.set_bridges (s : State) (r : Reg) (v : Nat) : (s.set r v).bridges = s.bridges := rfl
@[simp] theorem State.set_health (s : State) (r : Reg) (v : Nat) : (s.set r v).health = s.health := rfl
@[simp] theorem State.set_tags (s : State) (r : Reg) (v : Nat) : (s.set r v).tags = s.tags := rfl
@[simp] theorem State.set_engMoves (s : State) (r : Reg) (v : Nat) : (s.set r v).engMoves = s.engMoves := rfl
@[simp] theorem State.set_sharedStores (s : State) (r : Reg) (v : Nat) : (s.set r v).sharedStores = s.sharedStores := rfl
@[simp] theorem State.set_rolesA (s : State) (r : Reg) (v : Nat) : (s.set r v).rolesA = s.rolesA := rfl
@[simp] theorem State.set_rolesB (s : State) (r : Reg) (v : Nat) : (s.set r v).rolesB = s.rolesB := rfl
@[simp] theorem State.set_semA (s : State) (r : Reg) (v : Nat) : (s.set r v).semA = s.semA := rfl
@[simp] theorem State.set_semB (s : State) (r : Reg) (v : Nat) : (s.set r v).semB = s.semB := rfl
@[simp] theorem State.set_kneaderA (s : State) (r : Reg) (v : Nat) : (s.set r v).kneaderA = s.kneaderA := rfl
@[simp] theorem State.set_kneaderB (s : State) (r : Reg) (v : Nat) : (s.set r v).kneaderB = s.kneaderB := rfl
@[simp] theorem State.set_staged (s : State) (r : Reg) (v : Nat) : (s.set r v).staged = s.staged := rfl
@[simp] theorem State.set_held (s : State) (r : Reg) (v : Nat) : (s.set r v).held = s.held := rfl
@[simp] theorem State.set_canBus (s : State) (r : Reg) (v : Nat) : (s.set r v).canBus = s.canBus := rfl
@[simp] theorem State.set_mvbBus (s : State) (r : Reg) (v : Nat) : (s.set r v).mvbBus = s.mvbBus := rfl
@[simp] theorem State.set_trdpSeen (s : State) (r : Reg) (v : Nat) : (s.set r v).trdpSeen = s.trdpSeen := rfl
@[simp] theorem State.set_power (s : State) (r : Reg) (v : Nat) : (s.set r v).power = s.power := rfl
@[simp] theorem State.set_proof (s : State) (r : Reg) (v : Nat) : (s.set r v).proof = s.proof := rfl
@[simp] theorem State.set_switch (s : State) (r : Reg) (v : Nat) : (s.set r v).switch = s.switch := rfl
@[simp] theorem State.set_twinUnit (s : State) (r : Reg) (v : Nat) : (s.set r v).twinUnit = s.twinUnit := rfl
@[simp] theorem State.set_sent (s : State) (r : Reg) (v : Nat) : (s.set r v).sent = s.sent := rfl
@[simp] theorem State.set_freeDraws (s : State) (r : Reg) (v : Nat) : (s.set r v).freeDraws = s.freeDraws := rfl
@[simp] theorem State.set_pending (s : State) (r : Reg) (v : Nat) : (s.set r v).pending = s.pending := rfl

@[simp] theorem State.setFlag_updates (s : State) (r : Reg) (b : Bool) : (s.setFlag r b).updates = s.updates := rfl
@[simp] theorem State.setFlag_thisClock (s : State) (r : Reg) (b : Bool) : (s.setFlag r b).thisClock = s.thisClock := rfl
@[simp] theorem State.setFlag_softResets (s : State) (r : Reg) (b : Bool) : (s.setFlag r b).softResets = s.softResets := rfl
@[simp] theorem State.setFlag_mem (s : State) (r : Reg) (b : Bool) : (s.setFlag r b).mem = s.mem := rfl
@[simp] theorem State.setFlag_readLatch (s : State) (r : Reg) (b : Bool) : (s.setFlag r b).readLatch = s.readLatch := rfl
@[simp] theorem State.setFlag_writeHold (s : State) (r : Reg) (b : Bool) : (s.setFlag r b).writeHold = s.writeHold := rfl
@[simp] theorem State.setFlag_time (s : State) (r : Reg) (b : Bool) : (s.setFlag r b).time = s.time := rfl
@[simp] theorem State.setFlag_lineA (s : State) (r : Reg) (b : Bool) : (s.setFlag r b).lineA = s.lineA := rfl
@[simp] theorem State.setFlag_lineB (s : State) (r : Reg) (b : Bool) : (s.setFlag r b).lineB = s.lineB := rfl
@[simp] theorem State.setFlag_forming (s : State) (r : Reg) (b : Bool) : (s.setFlag r b).forming = s.forming := rfl
@[simp] theorem State.setFlag_loafA (s : State) (r : Reg) (b : Bool) : (s.setFlag r b).loafA = s.loafA := rfl
@[simp] theorem State.setFlag_loafB (s : State) (r : Reg) (b : Bool) : (s.setFlag r b).loafB = s.loafB := rfl
@[simp] theorem State.setFlag_capture (s : State) (r : Reg) (b : Bool) : (s.setFlag r b).capture = s.capture := rfl
@[simp] theorem State.setFlag_selection (s : State) (r : Reg) (b : Bool) : (s.setFlag r b).selection = s.selection := rfl
@[simp] theorem State.setFlag_holdCopy (s : State) (r : Reg) (b : Bool) : (s.setFlag r b).holdCopy = s.holdCopy := rfl
@[simp] theorem State.setFlag_nextSeq (s : State) (r : Reg) (b : Bool) : (s.setFlag r b).nextSeq = s.nextSeq := rfl
@[simp] theorem State.setFlag_brownoutMark (s : State) (r : Reg) (b : Bool) : (s.setFlag r b).brownoutMark = s.brownoutMark := rfl
@[simp] theorem State.setFlag_otp (s : State) (r : Reg) (b : Bool) : (s.setFlag r b).otp = s.otp := rfl
@[simp] theorem State.setFlag_sec (s : State) (r : Reg) (b : Bool) : (s.setFlag r b).sec = s.sec := rfl
@[simp] theorem State.setFlag_bridges (s : State) (r : Reg) (b : Bool) : (s.setFlag r b).bridges = s.bridges := rfl
@[simp] theorem State.setFlag_health (s : State) (r : Reg) (b : Bool) : (s.setFlag r b).health = s.health := rfl
@[simp] theorem State.setFlag_tags (s : State) (r : Reg) (b : Bool) : (s.setFlag r b).tags = s.tags := rfl
@[simp] theorem State.setFlag_engMoves (s : State) (r : Reg) (b : Bool) : (s.setFlag r b).engMoves = s.engMoves := rfl
@[simp] theorem State.setFlag_sharedStores (s : State) (r : Reg) (b : Bool) : (s.setFlag r b).sharedStores = s.sharedStores := rfl
@[simp] theorem State.setFlag_rolesA (s : State) (r : Reg) (b : Bool) : (s.setFlag r b).rolesA = s.rolesA := rfl
@[simp] theorem State.setFlag_rolesB (s : State) (r : Reg) (b : Bool) : (s.setFlag r b).rolesB = s.rolesB := rfl
@[simp] theorem State.setFlag_semA (s : State) (r : Reg) (b : Bool) : (s.setFlag r b).semA = s.semA := rfl
@[simp] theorem State.setFlag_semB (s : State) (r : Reg) (b : Bool) : (s.setFlag r b).semB = s.semB := rfl
@[simp] theorem State.setFlag_kneaderA (s : State) (r : Reg) (b : Bool) : (s.setFlag r b).kneaderA = s.kneaderA := rfl
@[simp] theorem State.setFlag_kneaderB (s : State) (r : Reg) (b : Bool) : (s.setFlag r b).kneaderB = s.kneaderB := rfl
@[simp] theorem State.setFlag_staged (s : State) (r : Reg) (b : Bool) : (s.setFlag r b).staged = s.staged := rfl
@[simp] theorem State.setFlag_held (s : State) (r : Reg) (b : Bool) : (s.setFlag r b).held = s.held := rfl
@[simp] theorem State.setFlag_canBus (s : State) (r : Reg) (b : Bool) : (s.setFlag r b).canBus = s.canBus := rfl
@[simp] theorem State.setFlag_mvbBus (s : State) (r : Reg) (b : Bool) : (s.setFlag r b).mvbBus = s.mvbBus := rfl
@[simp] theorem State.setFlag_trdpSeen (s : State) (r : Reg) (b : Bool) : (s.setFlag r b).trdpSeen = s.trdpSeen := rfl
@[simp] theorem State.setFlag_power (s : State) (r : Reg) (b : Bool) : (s.setFlag r b).power = s.power := rfl
@[simp] theorem State.setFlag_proof (s : State) (r : Reg) (b : Bool) : (s.setFlag r b).proof = s.proof := rfl
@[simp] theorem State.setFlag_switch (s : State) (r : Reg) (b : Bool) : (s.setFlag r b).switch = s.switch := rfl
@[simp] theorem State.setFlag_twinUnit (s : State) (r : Reg) (b : Bool) : (s.setFlag r b).twinUnit = s.twinUnit := rfl
@[simp] theorem State.setFlag_sent (s : State) (r : Reg) (b : Bool) : (s.setFlag r b).sent = s.sent := rfl
@[simp] theorem State.setFlag_freeDraws (s : State) (r : Reg) (b : Bool) : (s.setFlag r b).freeDraws = s.freeDraws := rfl
@[simp] theorem State.setFlag_pending (s : State) (r : Reg) (b : Bool) : (s.setFlag r b).pending = s.pending := rfl

@[simp] theorem State.setInt_updates (s : State) (r : Reg) (i : Int) : (s.setInt r i).updates = s.updates := rfl
@[simp] theorem State.setInt_thisClock (s : State) (r : Reg) (i : Int) : (s.setInt r i).thisClock = s.thisClock := rfl
@[simp] theorem State.setInt_softResets (s : State) (r : Reg) (i : Int) : (s.setInt r i).softResets = s.softResets := rfl
@[simp] theorem State.setInt_mem (s : State) (r : Reg) (i : Int) : (s.setInt r i).mem = s.mem := rfl
@[simp] theorem State.setInt_readLatch (s : State) (r : Reg) (i : Int) : (s.setInt r i).readLatch = s.readLatch := rfl
@[simp] theorem State.setInt_writeHold (s : State) (r : Reg) (i : Int) : (s.setInt r i).writeHold = s.writeHold := rfl
@[simp] theorem State.setInt_time (s : State) (r : Reg) (i : Int) : (s.setInt r i).time = s.time := rfl
@[simp] theorem State.setInt_lineA (s : State) (r : Reg) (i : Int) : (s.setInt r i).lineA = s.lineA := rfl
@[simp] theorem State.setInt_lineB (s : State) (r : Reg) (i : Int) : (s.setInt r i).lineB = s.lineB := rfl
@[simp] theorem State.setInt_forming (s : State) (r : Reg) (i : Int) : (s.setInt r i).forming = s.forming := rfl
@[simp] theorem State.setInt_loafA (s : State) (r : Reg) (i : Int) : (s.setInt r i).loafA = s.loafA := rfl
@[simp] theorem State.setInt_loafB (s : State) (r : Reg) (i : Int) : (s.setInt r i).loafB = s.loafB := rfl
@[simp] theorem State.setInt_capture (s : State) (r : Reg) (i : Int) : (s.setInt r i).capture = s.capture := rfl
@[simp] theorem State.setInt_selection (s : State) (r : Reg) (i : Int) : (s.setInt r i).selection = s.selection := rfl
@[simp] theorem State.setInt_holdCopy (s : State) (r : Reg) (i : Int) : (s.setInt r i).holdCopy = s.holdCopy := rfl
@[simp] theorem State.setInt_nextSeq (s : State) (r : Reg) (i : Int) : (s.setInt r i).nextSeq = s.nextSeq := rfl
@[simp] theorem State.setInt_brownoutMark (s : State) (r : Reg) (i : Int) : (s.setInt r i).brownoutMark = s.brownoutMark := rfl
@[simp] theorem State.setInt_otp (s : State) (r : Reg) (i : Int) : (s.setInt r i).otp = s.otp := rfl
@[simp] theorem State.setInt_sec (s : State) (r : Reg) (i : Int) : (s.setInt r i).sec = s.sec := rfl
@[simp] theorem State.setInt_bridges (s : State) (r : Reg) (i : Int) : (s.setInt r i).bridges = s.bridges := rfl
@[simp] theorem State.setInt_health (s : State) (r : Reg) (i : Int) : (s.setInt r i).health = s.health := rfl
@[simp] theorem State.setInt_tags (s : State) (r : Reg) (i : Int) : (s.setInt r i).tags = s.tags := rfl
@[simp] theorem State.setInt_engMoves (s : State) (r : Reg) (i : Int) : (s.setInt r i).engMoves = s.engMoves := rfl
@[simp] theorem State.setInt_sharedStores (s : State) (r : Reg) (i : Int) : (s.setInt r i).sharedStores = s.sharedStores := rfl
@[simp] theorem State.setInt_rolesA (s : State) (r : Reg) (i : Int) : (s.setInt r i).rolesA = s.rolesA := rfl
@[simp] theorem State.setInt_rolesB (s : State) (r : Reg) (i : Int) : (s.setInt r i).rolesB = s.rolesB := rfl
@[simp] theorem State.setInt_semA (s : State) (r : Reg) (i : Int) : (s.setInt r i).semA = s.semA := rfl
@[simp] theorem State.setInt_semB (s : State) (r : Reg) (i : Int) : (s.setInt r i).semB = s.semB := rfl
@[simp] theorem State.setInt_kneaderA (s : State) (r : Reg) (i : Int) : (s.setInt r i).kneaderA = s.kneaderA := rfl
@[simp] theorem State.setInt_kneaderB (s : State) (r : Reg) (i : Int) : (s.setInt r i).kneaderB = s.kneaderB := rfl
@[simp] theorem State.setInt_staged (s : State) (r : Reg) (i : Int) : (s.setInt r i).staged = s.staged := rfl
@[simp] theorem State.setInt_held (s : State) (r : Reg) (i : Int) : (s.setInt r i).held = s.held := rfl
@[simp] theorem State.setInt_canBus (s : State) (r : Reg) (i : Int) : (s.setInt r i).canBus = s.canBus := rfl
@[simp] theorem State.setInt_mvbBus (s : State) (r : Reg) (i : Int) : (s.setInt r i).mvbBus = s.mvbBus := rfl
@[simp] theorem State.setInt_trdpSeen (s : State) (r : Reg) (i : Int) : (s.setInt r i).trdpSeen = s.trdpSeen := rfl
@[simp] theorem State.setInt_power (s : State) (r : Reg) (i : Int) : (s.setInt r i).power = s.power := rfl
@[simp] theorem State.setInt_proof (s : State) (r : Reg) (i : Int) : (s.setInt r i).proof = s.proof := rfl
@[simp] theorem State.setInt_switch (s : State) (r : Reg) (i : Int) : (s.setInt r i).switch = s.switch := rfl
@[simp] theorem State.setInt_twinUnit (s : State) (r : Reg) (i : Int) : (s.setInt r i).twinUnit = s.twinUnit := rfl
@[simp] theorem State.setInt_sent (s : State) (r : Reg) (i : Int) : (s.setInt r i).sent = s.sent := rfl
@[simp] theorem State.setInt_freeDraws (s : State) (r : Reg) (i : Int) : (s.setInt r i).freeDraws = s.freeDraws := rfl
@[simp] theorem State.setInt_pending (s : State) (r : Reg) (i : Int) : (s.setInt r i).pending = s.pending := rfl

@[simp] theorem State.set64_updates (s : State) (lo hi : Reg) (v : Nat) : (s.set64 lo hi v).updates = s.updates := rfl
@[simp] theorem State.set64_thisClock (s : State) (lo hi : Reg) (v : Nat) : (s.set64 lo hi v).thisClock = s.thisClock := rfl
@[simp] theorem State.set64_softResets (s : State) (lo hi : Reg) (v : Nat) : (s.set64 lo hi v).softResets = s.softResets := rfl
@[simp] theorem State.set64_mem (s : State) (lo hi : Reg) (v : Nat) : (s.set64 lo hi v).mem = s.mem := rfl
@[simp] theorem State.set64_readLatch (s : State) (lo hi : Reg) (v : Nat) : (s.set64 lo hi v).readLatch = s.readLatch := rfl
@[simp] theorem State.set64_writeHold (s : State) (lo hi : Reg) (v : Nat) : (s.set64 lo hi v).writeHold = s.writeHold := rfl
@[simp] theorem State.set64_time (s : State) (lo hi : Reg) (v : Nat) : (s.set64 lo hi v).time = s.time := rfl
@[simp] theorem State.set64_lineA (s : State) (lo hi : Reg) (v : Nat) : (s.set64 lo hi v).lineA = s.lineA := rfl
@[simp] theorem State.set64_lineB (s : State) (lo hi : Reg) (v : Nat) : (s.set64 lo hi v).lineB = s.lineB := rfl
@[simp] theorem State.set64_forming (s : State) (lo hi : Reg) (v : Nat) : (s.set64 lo hi v).forming = s.forming := rfl
@[simp] theorem State.set64_loafA (s : State) (lo hi : Reg) (v : Nat) : (s.set64 lo hi v).loafA = s.loafA := rfl
@[simp] theorem State.set64_loafB (s : State) (lo hi : Reg) (v : Nat) : (s.set64 lo hi v).loafB = s.loafB := rfl
@[simp] theorem State.set64_capture (s : State) (lo hi : Reg) (v : Nat) : (s.set64 lo hi v).capture = s.capture := rfl
@[simp] theorem State.set64_selection (s : State) (lo hi : Reg) (v : Nat) : (s.set64 lo hi v).selection = s.selection := rfl
@[simp] theorem State.set64_holdCopy (s : State) (lo hi : Reg) (v : Nat) : (s.set64 lo hi v).holdCopy = s.holdCopy := rfl
@[simp] theorem State.set64_nextSeq (s : State) (lo hi : Reg) (v : Nat) : (s.set64 lo hi v).nextSeq = s.nextSeq := rfl
@[simp] theorem State.set64_brownoutMark (s : State) (lo hi : Reg) (v : Nat) : (s.set64 lo hi v).brownoutMark = s.brownoutMark := rfl
@[simp] theorem State.set64_otp (s : State) (lo hi : Reg) (v : Nat) : (s.set64 lo hi v).otp = s.otp := rfl
@[simp] theorem State.set64_sec (s : State) (lo hi : Reg) (v : Nat) : (s.set64 lo hi v).sec = s.sec := rfl
@[simp] theorem State.set64_bridges (s : State) (lo hi : Reg) (v : Nat) : (s.set64 lo hi v).bridges = s.bridges := rfl
@[simp] theorem State.set64_health (s : State) (lo hi : Reg) (v : Nat) : (s.set64 lo hi v).health = s.health := rfl
@[simp] theorem State.set64_tags (s : State) (lo hi : Reg) (v : Nat) : (s.set64 lo hi v).tags = s.tags := rfl
@[simp] theorem State.set64_engMoves (s : State) (lo hi : Reg) (v : Nat) : (s.set64 lo hi v).engMoves = s.engMoves := rfl
@[simp] theorem State.set64_sharedStores (s : State) (lo hi : Reg) (v : Nat) : (s.set64 lo hi v).sharedStores = s.sharedStores := rfl
@[simp] theorem State.set64_rolesA (s : State) (lo hi : Reg) (v : Nat) : (s.set64 lo hi v).rolesA = s.rolesA := rfl
@[simp] theorem State.set64_rolesB (s : State) (lo hi : Reg) (v : Nat) : (s.set64 lo hi v).rolesB = s.rolesB := rfl
@[simp] theorem State.set64_semA (s : State) (lo hi : Reg) (v : Nat) : (s.set64 lo hi v).semA = s.semA := rfl
@[simp] theorem State.set64_semB (s : State) (lo hi : Reg) (v : Nat) : (s.set64 lo hi v).semB = s.semB := rfl
@[simp] theorem State.set64_kneaderA (s : State) (lo hi : Reg) (v : Nat) : (s.set64 lo hi v).kneaderA = s.kneaderA := rfl
@[simp] theorem State.set64_kneaderB (s : State) (lo hi : Reg) (v : Nat) : (s.set64 lo hi v).kneaderB = s.kneaderB := rfl
@[simp] theorem State.set64_staged (s : State) (lo hi : Reg) (v : Nat) : (s.set64 lo hi v).staged = s.staged := rfl
@[simp] theorem State.set64_held (s : State) (lo hi : Reg) (v : Nat) : (s.set64 lo hi v).held = s.held := rfl
@[simp] theorem State.set64_canBus (s : State) (lo hi : Reg) (v : Nat) : (s.set64 lo hi v).canBus = s.canBus := rfl
@[simp] theorem State.set64_mvbBus (s : State) (lo hi : Reg) (v : Nat) : (s.set64 lo hi v).mvbBus = s.mvbBus := rfl
@[simp] theorem State.set64_trdpSeen (s : State) (lo hi : Reg) (v : Nat) : (s.set64 lo hi v).trdpSeen = s.trdpSeen := rfl
@[simp] theorem State.set64_power (s : State) (lo hi : Reg) (v : Nat) : (s.set64 lo hi v).power = s.power := rfl
@[simp] theorem State.set64_proof (s : State) (lo hi : Reg) (v : Nat) : (s.set64 lo hi v).proof = s.proof := rfl
@[simp] theorem State.set64_switch (s : State) (lo hi : Reg) (v : Nat) : (s.set64 lo hi v).switch = s.switch := rfl
@[simp] theorem State.set64_twinUnit (s : State) (lo hi : Reg) (v : Nat) : (s.set64 lo hi v).twinUnit = s.twinUnit := rfl
@[simp] theorem State.set64_sent (s : State) (lo hi : Reg) (v : Nat) : (s.set64 lo hi v).sent = s.sent := rfl
@[simp] theorem State.set64_freeDraws (s : State) (lo hi : Reg) (v : Nat) : (s.set64 lo hi v).freeDraws = s.freeDraws := rfl
@[simp] theorem State.set64_pending (s : State) (lo hi : Reg) (v : Nat) : (s.set64 lo hi v).pending = s.pending := rfl

@[simp] theorem State.raise_thisClock (s : State) (p : Page) (b : Nat) : (s.raise p b).thisClock = s.thisClock := rfl
@[simp] theorem State.raise_softResets (s : State) (p : Page) (b : Nat) : (s.raise p b).softResets = s.softResets := rfl
@[simp] theorem State.raise_mem (s : State) (p : Page) (b : Nat) : (s.raise p b).mem = s.mem := rfl
@[simp] theorem State.raise_readLatch (s : State) (p : Page) (b : Nat) : (s.raise p b).readLatch = s.readLatch := rfl
@[simp] theorem State.raise_writeHold (s : State) (p : Page) (b : Nat) : (s.raise p b).writeHold = s.writeHold := rfl
@[simp] theorem State.raise_time (s : State) (p : Page) (b : Nat) : (s.raise p b).time = s.time := rfl
@[simp] theorem State.raise_lineA (s : State) (p : Page) (b : Nat) : (s.raise p b).lineA = s.lineA := rfl
@[simp] theorem State.raise_lineB (s : State) (p : Page) (b : Nat) : (s.raise p b).lineB = s.lineB := rfl
@[simp] theorem State.raise_forming (s : State) (p : Page) (b : Nat) : (s.raise p b).forming = s.forming := rfl
@[simp] theorem State.raise_loafA (s : State) (p : Page) (b : Nat) : (s.raise p b).loafA = s.loafA := rfl
@[simp] theorem State.raise_loafB (s : State) (p : Page) (b : Nat) : (s.raise p b).loafB = s.loafB := rfl
@[simp] theorem State.raise_capture (s : State) (p : Page) (b : Nat) : (s.raise p b).capture = s.capture := rfl
@[simp] theorem State.raise_selection (s : State) (p : Page) (b : Nat) : (s.raise p b).selection = s.selection := rfl
@[simp] theorem State.raise_holdCopy (s : State) (p : Page) (b : Nat) : (s.raise p b).holdCopy = s.holdCopy := rfl
@[simp] theorem State.raise_nextSeq (s : State) (p : Page) (b : Nat) : (s.raise p b).nextSeq = s.nextSeq := rfl
@[simp] theorem State.raise_brownoutMark (s : State) (p : Page) (b : Nat) : (s.raise p b).brownoutMark = s.brownoutMark := rfl
@[simp] theorem State.raise_otp (s : State) (p : Page) (b : Nat) : (s.raise p b).otp = s.otp := rfl
@[simp] theorem State.raise_sec (s : State) (p : Page) (b : Nat) : (s.raise p b).sec = s.sec := rfl
@[simp] theorem State.raise_bridges (s : State) (p : Page) (b : Nat) : (s.raise p b).bridges = s.bridges := rfl
@[simp] theorem State.raise_health (s : State) (p : Page) (b : Nat) : (s.raise p b).health = s.health := rfl
@[simp] theorem State.raise_tags (s : State) (p : Page) (b : Nat) : (s.raise p b).tags = s.tags := rfl
@[simp] theorem State.raise_engMoves (s : State) (p : Page) (b : Nat) : (s.raise p b).engMoves = s.engMoves := rfl
@[simp] theorem State.raise_sharedStores (s : State) (p : Page) (b : Nat) : (s.raise p b).sharedStores = s.sharedStores := rfl
@[simp] theorem State.raise_rolesA (s : State) (p : Page) (b : Nat) : (s.raise p b).rolesA = s.rolesA := rfl
@[simp] theorem State.raise_rolesB (s : State) (p : Page) (b : Nat) : (s.raise p b).rolesB = s.rolesB := rfl
@[simp] theorem State.raise_semA (s : State) (p : Page) (b : Nat) : (s.raise p b).semA = s.semA := rfl
@[simp] theorem State.raise_semB (s : State) (p : Page) (b : Nat) : (s.raise p b).semB = s.semB := rfl
@[simp] theorem State.raise_kneaderA (s : State) (p : Page) (b : Nat) : (s.raise p b).kneaderA = s.kneaderA := rfl
@[simp] theorem State.raise_kneaderB (s : State) (p : Page) (b : Nat) : (s.raise p b).kneaderB = s.kneaderB := rfl
@[simp] theorem State.raise_staged (s : State) (p : Page) (b : Nat) : (s.raise p b).staged = s.staged := rfl
@[simp] theorem State.raise_held (s : State) (p : Page) (b : Nat) : (s.raise p b).held = s.held := rfl
@[simp] theorem State.raise_canBus (s : State) (p : Page) (b : Nat) : (s.raise p b).canBus = s.canBus := rfl
@[simp] theorem State.raise_mvbBus (s : State) (p : Page) (b : Nat) : (s.raise p b).mvbBus = s.mvbBus := rfl
@[simp] theorem State.raise_trdpSeen (s : State) (p : Page) (b : Nat) : (s.raise p b).trdpSeen = s.trdpSeen := rfl
@[simp] theorem State.raise_power (s : State) (p : Page) (b : Nat) : (s.raise p b).power = s.power := rfl
@[simp] theorem State.raise_proof (s : State) (p : Page) (b : Nat) : (s.raise p b).proof = s.proof := rfl
@[simp] theorem State.raise_switch (s : State) (p : Page) (b : Nat) : (s.raise p b).switch = s.switch := rfl
@[simp] theorem State.raise_twinUnit (s : State) (p : Page) (b : Nat) : (s.raise p b).twinUnit = s.twinUnit := rfl
@[simp] theorem State.raise_sent (s : State) (p : Page) (b : Nat) : (s.raise p b).sent = s.sent := rfl
@[simp] theorem State.raise_freeDraws (s : State) (p : Page) (b : Nat) : (s.raise p b).freeDraws = s.freeDraws := rfl
@[simp] theorem State.raise_pending (s : State) (p : Page) (b : Nat) : (s.raise p b).pending = s.pending := rfl

@[simp] theorem State.countBy_thisClock (s : State) (r : Reg) (n : Nat) : (s.countBy r n).thisClock = s.thisClock := rfl
@[simp] theorem State.countBy_softResets (s : State) (r : Reg) (n : Nat) : (s.countBy r n).softResets = s.softResets := rfl
@[simp] theorem State.countBy_mem (s : State) (r : Reg) (n : Nat) : (s.countBy r n).mem = s.mem := rfl
@[simp] theorem State.countBy_readLatch (s : State) (r : Reg) (n : Nat) : (s.countBy r n).readLatch = s.readLatch := rfl
@[simp] theorem State.countBy_writeHold (s : State) (r : Reg) (n : Nat) : (s.countBy r n).writeHold = s.writeHold := rfl
@[simp] theorem State.countBy_time (s : State) (r : Reg) (n : Nat) : (s.countBy r n).time = s.time := rfl
@[simp] theorem State.countBy_lineA (s : State) (r : Reg) (n : Nat) : (s.countBy r n).lineA = s.lineA := rfl
@[simp] theorem State.countBy_lineB (s : State) (r : Reg) (n : Nat) : (s.countBy r n).lineB = s.lineB := rfl
@[simp] theorem State.countBy_forming (s : State) (r : Reg) (n : Nat) : (s.countBy r n).forming = s.forming := rfl
@[simp] theorem State.countBy_loafA (s : State) (r : Reg) (n : Nat) : (s.countBy r n).loafA = s.loafA := rfl
@[simp] theorem State.countBy_loafB (s : State) (r : Reg) (n : Nat) : (s.countBy r n).loafB = s.loafB := rfl
@[simp] theorem State.countBy_capture (s : State) (r : Reg) (n : Nat) : (s.countBy r n).capture = s.capture := rfl
@[simp] theorem State.countBy_selection (s : State) (r : Reg) (n : Nat) : (s.countBy r n).selection = s.selection := rfl
@[simp] theorem State.countBy_holdCopy (s : State) (r : Reg) (n : Nat) : (s.countBy r n).holdCopy = s.holdCopy := rfl
@[simp] theorem State.countBy_nextSeq (s : State) (r : Reg) (n : Nat) : (s.countBy r n).nextSeq = s.nextSeq := rfl
@[simp] theorem State.countBy_brownoutMark (s : State) (r : Reg) (n : Nat) : (s.countBy r n).brownoutMark = s.brownoutMark := rfl
@[simp] theorem State.countBy_otp (s : State) (r : Reg) (n : Nat) : (s.countBy r n).otp = s.otp := rfl
@[simp] theorem State.countBy_sec (s : State) (r : Reg) (n : Nat) : (s.countBy r n).sec = s.sec := rfl
@[simp] theorem State.countBy_bridges (s : State) (r : Reg) (n : Nat) : (s.countBy r n).bridges = s.bridges := rfl
@[simp] theorem State.countBy_health (s : State) (r : Reg) (n : Nat) : (s.countBy r n).health = s.health := rfl
@[simp] theorem State.countBy_tags (s : State) (r : Reg) (n : Nat) : (s.countBy r n).tags = s.tags := rfl
@[simp] theorem State.countBy_engMoves (s : State) (r : Reg) (n : Nat) : (s.countBy r n).engMoves = s.engMoves := rfl
@[simp] theorem State.countBy_sharedStores (s : State) (r : Reg) (n : Nat) : (s.countBy r n).sharedStores = s.sharedStores := rfl
@[simp] theorem State.countBy_rolesA (s : State) (r : Reg) (n : Nat) : (s.countBy r n).rolesA = s.rolesA := rfl
@[simp] theorem State.countBy_rolesB (s : State) (r : Reg) (n : Nat) : (s.countBy r n).rolesB = s.rolesB := rfl
@[simp] theorem State.countBy_semA (s : State) (r : Reg) (n : Nat) : (s.countBy r n).semA = s.semA := rfl
@[simp] theorem State.countBy_semB (s : State) (r : Reg) (n : Nat) : (s.countBy r n).semB = s.semB := rfl
@[simp] theorem State.countBy_kneaderA (s : State) (r : Reg) (n : Nat) : (s.countBy r n).kneaderA = s.kneaderA := rfl
@[simp] theorem State.countBy_kneaderB (s : State) (r : Reg) (n : Nat) : (s.countBy r n).kneaderB = s.kneaderB := rfl
@[simp] theorem State.countBy_staged (s : State) (r : Reg) (n : Nat) : (s.countBy r n).staged = s.staged := rfl
@[simp] theorem State.countBy_held (s : State) (r : Reg) (n : Nat) : (s.countBy r n).held = s.held := rfl
@[simp] theorem State.countBy_canBus (s : State) (r : Reg) (n : Nat) : (s.countBy r n).canBus = s.canBus := rfl
@[simp] theorem State.countBy_mvbBus (s : State) (r : Reg) (n : Nat) : (s.countBy r n).mvbBus = s.mvbBus := rfl
@[simp] theorem State.countBy_trdpSeen (s : State) (r : Reg) (n : Nat) : (s.countBy r n).trdpSeen = s.trdpSeen := rfl
@[simp] theorem State.countBy_power (s : State) (r : Reg) (n : Nat) : (s.countBy r n).power = s.power := rfl
@[simp] theorem State.countBy_proof (s : State) (r : Reg) (n : Nat) : (s.countBy r n).proof = s.proof := rfl
@[simp] theorem State.countBy_switch (s : State) (r : Reg) (n : Nat) : (s.countBy r n).switch = s.switch := rfl
@[simp] theorem State.countBy_twinUnit (s : State) (r : Reg) (n : Nat) : (s.countBy r n).twinUnit = s.twinUnit := rfl
@[simp] theorem State.countBy_sent (s : State) (r : Reg) (n : Nat) : (s.countBy r n).sent = s.sent := rfl
@[simp] theorem State.countBy_freeDraws (s : State) (r : Reg) (n : Nat) : (s.countBy r n).freeDraws = s.freeDraws := rfl
@[simp] theorem State.countBy_pending (s : State) (r : Reg) (n : Nat) : (s.countBy r n).pending = s.pending := rfl

@[simp] theorem State.count_thisClock (s : State) (r : Reg) : (s.count r).thisClock = s.thisClock := rfl
@[simp] theorem State.count_softResets (s : State) (r : Reg) : (s.count r).softResets = s.softResets := rfl
@[simp] theorem State.count_mem (s : State) (r : Reg) : (s.count r).mem = s.mem := rfl
@[simp] theorem State.count_readLatch (s : State) (r : Reg) : (s.count r).readLatch = s.readLatch := rfl
@[simp] theorem State.count_writeHold (s : State) (r : Reg) : (s.count r).writeHold = s.writeHold := rfl
@[simp] theorem State.count_time (s : State) (r : Reg) : (s.count r).time = s.time := rfl
@[simp] theorem State.count_lineA (s : State) (r : Reg) : (s.count r).lineA = s.lineA := rfl
@[simp] theorem State.count_lineB (s : State) (r : Reg) : (s.count r).lineB = s.lineB := rfl
@[simp] theorem State.count_forming (s : State) (r : Reg) : (s.count r).forming = s.forming := rfl
@[simp] theorem State.count_loafA (s : State) (r : Reg) : (s.count r).loafA = s.loafA := rfl
@[simp] theorem State.count_loafB (s : State) (r : Reg) : (s.count r).loafB = s.loafB := rfl
@[simp] theorem State.count_capture (s : State) (r : Reg) : (s.count r).capture = s.capture := rfl
@[simp] theorem State.count_selection (s : State) (r : Reg) : (s.count r).selection = s.selection := rfl
@[simp] theorem State.count_holdCopy (s : State) (r : Reg) : (s.count r).holdCopy = s.holdCopy := rfl
@[simp] theorem State.count_nextSeq (s : State) (r : Reg) : (s.count r).nextSeq = s.nextSeq := rfl
@[simp] theorem State.count_brownoutMark (s : State) (r : Reg) : (s.count r).brownoutMark = s.brownoutMark := rfl
@[simp] theorem State.count_otp (s : State) (r : Reg) : (s.count r).otp = s.otp := rfl
@[simp] theorem State.count_sec (s : State) (r : Reg) : (s.count r).sec = s.sec := rfl
@[simp] theorem State.count_bridges (s : State) (r : Reg) : (s.count r).bridges = s.bridges := rfl
@[simp] theorem State.count_health (s : State) (r : Reg) : (s.count r).health = s.health := rfl
@[simp] theorem State.count_tags (s : State) (r : Reg) : (s.count r).tags = s.tags := rfl
@[simp] theorem State.count_engMoves (s : State) (r : Reg) : (s.count r).engMoves = s.engMoves := rfl
@[simp] theorem State.count_sharedStores (s : State) (r : Reg) : (s.count r).sharedStores = s.sharedStores := rfl
@[simp] theorem State.count_rolesA (s : State) (r : Reg) : (s.count r).rolesA = s.rolesA := rfl
@[simp] theorem State.count_rolesB (s : State) (r : Reg) : (s.count r).rolesB = s.rolesB := rfl
@[simp] theorem State.count_semA (s : State) (r : Reg) : (s.count r).semA = s.semA := rfl
@[simp] theorem State.count_semB (s : State) (r : Reg) : (s.count r).semB = s.semB := rfl
@[simp] theorem State.count_kneaderA (s : State) (r : Reg) : (s.count r).kneaderA = s.kneaderA := rfl
@[simp] theorem State.count_kneaderB (s : State) (r : Reg) : (s.count r).kneaderB = s.kneaderB := rfl
@[simp] theorem State.count_staged (s : State) (r : Reg) : (s.count r).staged = s.staged := rfl
@[simp] theorem State.count_held (s : State) (r : Reg) : (s.count r).held = s.held := rfl
@[simp] theorem State.count_canBus (s : State) (r : Reg) : (s.count r).canBus = s.canBus := rfl
@[simp] theorem State.count_mvbBus (s : State) (r : Reg) : (s.count r).mvbBus = s.mvbBus := rfl
@[simp] theorem State.count_trdpSeen (s : State) (r : Reg) : (s.count r).trdpSeen = s.trdpSeen := rfl
@[simp] theorem State.count_power (s : State) (r : Reg) : (s.count r).power = s.power := rfl
@[simp] theorem State.count_proof (s : State) (r : Reg) : (s.count r).proof = s.proof := rfl
@[simp] theorem State.count_switch (s : State) (r : Reg) : (s.count r).switch = s.switch := rfl
@[simp] theorem State.count_twinUnit (s : State) (r : Reg) : (s.count r).twinUnit = s.twinUnit := rfl
@[simp] theorem State.count_sent (s : State) (r : Reg) : (s.count r).sent = s.sent := rfl
@[simp] theorem State.count_freeDraws (s : State) (r : Reg) : (s.count r).freeDraws = s.freeDraws := rfl
@[simp] theorem State.count_pending (s : State) (r : Reg) : (s.count r).pending = s.pending := rfl

@[simp] theorem State.countRaise_thisClock (s : State) (r : Reg) (p : Page) (b : Nat) : (s.countRaise r p b).thisClock = s.thisClock := rfl
@[simp] theorem State.countRaise_softResets (s : State) (r : Reg) (p : Page) (b : Nat) : (s.countRaise r p b).softResets = s.softResets := rfl
@[simp] theorem State.countRaise_mem (s : State) (r : Reg) (p : Page) (b : Nat) : (s.countRaise r p b).mem = s.mem := rfl
@[simp] theorem State.countRaise_readLatch (s : State) (r : Reg) (p : Page) (b : Nat) : (s.countRaise r p b).readLatch = s.readLatch := rfl
@[simp] theorem State.countRaise_writeHold (s : State) (r : Reg) (p : Page) (b : Nat) : (s.countRaise r p b).writeHold = s.writeHold := rfl
@[simp] theorem State.countRaise_time (s : State) (r : Reg) (p : Page) (b : Nat) : (s.countRaise r p b).time = s.time := rfl
@[simp] theorem State.countRaise_lineA (s : State) (r : Reg) (p : Page) (b : Nat) : (s.countRaise r p b).lineA = s.lineA := rfl
@[simp] theorem State.countRaise_lineB (s : State) (r : Reg) (p : Page) (b : Nat) : (s.countRaise r p b).lineB = s.lineB := rfl
@[simp] theorem State.countRaise_forming (s : State) (r : Reg) (p : Page) (b : Nat) : (s.countRaise r p b).forming = s.forming := rfl
@[simp] theorem State.countRaise_loafA (s : State) (r : Reg) (p : Page) (b : Nat) : (s.countRaise r p b).loafA = s.loafA := rfl
@[simp] theorem State.countRaise_loafB (s : State) (r : Reg) (p : Page) (b : Nat) : (s.countRaise r p b).loafB = s.loafB := rfl
@[simp] theorem State.countRaise_capture (s : State) (r : Reg) (p : Page) (b : Nat) : (s.countRaise r p b).capture = s.capture := rfl
@[simp] theorem State.countRaise_selection (s : State) (r : Reg) (p : Page) (b : Nat) : (s.countRaise r p b).selection = s.selection := rfl
@[simp] theorem State.countRaise_holdCopy (s : State) (r : Reg) (p : Page) (b : Nat) : (s.countRaise r p b).holdCopy = s.holdCopy := rfl
@[simp] theorem State.countRaise_nextSeq (s : State) (r : Reg) (p : Page) (b : Nat) : (s.countRaise r p b).nextSeq = s.nextSeq := rfl
@[simp] theorem State.countRaise_brownoutMark (s : State) (r : Reg) (p : Page) (b : Nat) : (s.countRaise r p b).brownoutMark = s.brownoutMark := rfl
@[simp] theorem State.countRaise_otp (s : State) (r : Reg) (p : Page) (b : Nat) : (s.countRaise r p b).otp = s.otp := rfl
@[simp] theorem State.countRaise_sec (s : State) (r : Reg) (p : Page) (b : Nat) : (s.countRaise r p b).sec = s.sec := rfl
@[simp] theorem State.countRaise_bridges (s : State) (r : Reg) (p : Page) (b : Nat) : (s.countRaise r p b).bridges = s.bridges := rfl
@[simp] theorem State.countRaise_health (s : State) (r : Reg) (p : Page) (b : Nat) : (s.countRaise r p b).health = s.health := rfl
@[simp] theorem State.countRaise_tags (s : State) (r : Reg) (p : Page) (b : Nat) : (s.countRaise r p b).tags = s.tags := rfl
@[simp] theorem State.countRaise_engMoves (s : State) (r : Reg) (p : Page) (b : Nat) : (s.countRaise r p b).engMoves = s.engMoves := rfl
@[simp] theorem State.countRaise_sharedStores (s : State) (r : Reg) (p : Page) (b : Nat) : (s.countRaise r p b).sharedStores = s.sharedStores := rfl
@[simp] theorem State.countRaise_rolesA (s : State) (r : Reg) (p : Page) (b : Nat) : (s.countRaise r p b).rolesA = s.rolesA := rfl
@[simp] theorem State.countRaise_rolesB (s : State) (r : Reg) (p : Page) (b : Nat) : (s.countRaise r p b).rolesB = s.rolesB := rfl
@[simp] theorem State.countRaise_semA (s : State) (r : Reg) (p : Page) (b : Nat) : (s.countRaise r p b).semA = s.semA := rfl
@[simp] theorem State.countRaise_semB (s : State) (r : Reg) (p : Page) (b : Nat) : (s.countRaise r p b).semB = s.semB := rfl
@[simp] theorem State.countRaise_kneaderA (s : State) (r : Reg) (p : Page) (b : Nat) : (s.countRaise r p b).kneaderA = s.kneaderA := rfl
@[simp] theorem State.countRaise_kneaderB (s : State) (r : Reg) (p : Page) (b : Nat) : (s.countRaise r p b).kneaderB = s.kneaderB := rfl
@[simp] theorem State.countRaise_staged (s : State) (r : Reg) (p : Page) (b : Nat) : (s.countRaise r p b).staged = s.staged := rfl
@[simp] theorem State.countRaise_held (s : State) (r : Reg) (p : Page) (b : Nat) : (s.countRaise r p b).held = s.held := rfl
@[simp] theorem State.countRaise_canBus (s : State) (r : Reg) (p : Page) (b : Nat) : (s.countRaise r p b).canBus = s.canBus := rfl
@[simp] theorem State.countRaise_mvbBus (s : State) (r : Reg) (p : Page) (b : Nat) : (s.countRaise r p b).mvbBus = s.mvbBus := rfl
@[simp] theorem State.countRaise_trdpSeen (s : State) (r : Reg) (p : Page) (b : Nat) : (s.countRaise r p b).trdpSeen = s.trdpSeen := rfl
@[simp] theorem State.countRaise_power (s : State) (r : Reg) (p : Page) (b : Nat) : (s.countRaise r p b).power = s.power := rfl
@[simp] theorem State.countRaise_proof (s : State) (r : Reg) (p : Page) (b : Nat) : (s.countRaise r p b).proof = s.proof := rfl
@[simp] theorem State.countRaise_switch (s : State) (r : Reg) (p : Page) (b : Nat) : (s.countRaise r p b).switch = s.switch := rfl
@[simp] theorem State.countRaise_twinUnit (s : State) (r : Reg) (p : Page) (b : Nat) : (s.countRaise r p b).twinUnit = s.twinUnit := rfl
@[simp] theorem State.countRaise_sent (s : State) (r : Reg) (p : Page) (b : Nat) : (s.countRaise r p b).sent = s.sent := rfl
@[simp] theorem State.countRaise_freeDraws (s : State) (r : Reg) (p : Page) (b : Nat) : (s.countRaise r p b).freeDraws = s.freeDraws := rfl
@[simp] theorem State.countRaise_pending (s : State) (r : Reg) (p : Page) (b : Nat) : (s.countRaise r p b).pending = s.pending := rfl

@[simp] theorem State.noteUpdate_regs (s : State) (r : Reg) (v w : Nat) : (s.noteUpdate r v w).regs = s.regs := rfl
@[simp] theorem State.noteUpdate_thisClock (s : State) (r : Reg) (v w : Nat) : (s.noteUpdate r v w).thisClock = s.thisClock := rfl
@[simp] theorem State.noteUpdate_softResets (s : State) (r : Reg) (v w : Nat) : (s.noteUpdate r v w).softResets = s.softResets := rfl
@[simp] theorem State.noteUpdate_mem (s : State) (r : Reg) (v w : Nat) : (s.noteUpdate r v w).mem = s.mem := rfl
@[simp] theorem State.noteUpdate_readLatch (s : State) (r : Reg) (v w : Nat) : (s.noteUpdate r v w).readLatch = s.readLatch := rfl
@[simp] theorem State.noteUpdate_writeHold (s : State) (r : Reg) (v w : Nat) : (s.noteUpdate r v w).writeHold = s.writeHold := rfl
@[simp] theorem State.noteUpdate_time (s : State) (r : Reg) (v w : Nat) : (s.noteUpdate r v w).time = s.time := rfl
@[simp] theorem State.noteUpdate_lineA (s : State) (r : Reg) (v w : Nat) : (s.noteUpdate r v w).lineA = s.lineA := rfl
@[simp] theorem State.noteUpdate_lineB (s : State) (r : Reg) (v w : Nat) : (s.noteUpdate r v w).lineB = s.lineB := rfl
@[simp] theorem State.noteUpdate_forming (s : State) (r : Reg) (v w : Nat) : (s.noteUpdate r v w).forming = s.forming := rfl
@[simp] theorem State.noteUpdate_loafA (s : State) (r : Reg) (v w : Nat) : (s.noteUpdate r v w).loafA = s.loafA := rfl
@[simp] theorem State.noteUpdate_loafB (s : State) (r : Reg) (v w : Nat) : (s.noteUpdate r v w).loafB = s.loafB := rfl
@[simp] theorem State.noteUpdate_capture (s : State) (r : Reg) (v w : Nat) : (s.noteUpdate r v w).capture = s.capture := rfl
@[simp] theorem State.noteUpdate_selection (s : State) (r : Reg) (v w : Nat) : (s.noteUpdate r v w).selection = s.selection := rfl
@[simp] theorem State.noteUpdate_holdCopy (s : State) (r : Reg) (v w : Nat) : (s.noteUpdate r v w).holdCopy = s.holdCopy := rfl
@[simp] theorem State.noteUpdate_nextSeq (s : State) (r : Reg) (v w : Nat) : (s.noteUpdate r v w).nextSeq = s.nextSeq := rfl
@[simp] theorem State.noteUpdate_brownoutMark (s : State) (r : Reg) (v w : Nat) : (s.noteUpdate r v w).brownoutMark = s.brownoutMark := rfl
@[simp] theorem State.noteUpdate_otp (s : State) (r : Reg) (v w : Nat) : (s.noteUpdate r v w).otp = s.otp := rfl
@[simp] theorem State.noteUpdate_sec (s : State) (r : Reg) (v w : Nat) : (s.noteUpdate r v w).sec = s.sec := rfl
@[simp] theorem State.noteUpdate_bridges (s : State) (r : Reg) (v w : Nat) : (s.noteUpdate r v w).bridges = s.bridges := rfl
@[simp] theorem State.noteUpdate_health (s : State) (r : Reg) (v w : Nat) : (s.noteUpdate r v w).health = s.health := rfl
@[simp] theorem State.noteUpdate_tags (s : State) (r : Reg) (v w : Nat) : (s.noteUpdate r v w).tags = s.tags := rfl
@[simp] theorem State.noteUpdate_engMoves (s : State) (r : Reg) (v w : Nat) : (s.noteUpdate r v w).engMoves = s.engMoves := rfl
@[simp] theorem State.noteUpdate_sharedStores (s : State) (r : Reg) (v w : Nat) : (s.noteUpdate r v w).sharedStores = s.sharedStores := rfl
@[simp] theorem State.noteUpdate_rolesA (s : State) (r : Reg) (v w : Nat) : (s.noteUpdate r v w).rolesA = s.rolesA := rfl
@[simp] theorem State.noteUpdate_rolesB (s : State) (r : Reg) (v w : Nat) : (s.noteUpdate r v w).rolesB = s.rolesB := rfl
@[simp] theorem State.noteUpdate_semA (s : State) (r : Reg) (v w : Nat) : (s.noteUpdate r v w).semA = s.semA := rfl
@[simp] theorem State.noteUpdate_semB (s : State) (r : Reg) (v w : Nat) : (s.noteUpdate r v w).semB = s.semB := rfl
@[simp] theorem State.noteUpdate_kneaderA (s : State) (r : Reg) (v w : Nat) : (s.noteUpdate r v w).kneaderA = s.kneaderA := rfl
@[simp] theorem State.noteUpdate_kneaderB (s : State) (r : Reg) (v w : Nat) : (s.noteUpdate r v w).kneaderB = s.kneaderB := rfl
@[simp] theorem State.noteUpdate_staged (s : State) (r : Reg) (v w : Nat) : (s.noteUpdate r v w).staged = s.staged := rfl
@[simp] theorem State.noteUpdate_held (s : State) (r : Reg) (v w : Nat) : (s.noteUpdate r v w).held = s.held := rfl
@[simp] theorem State.noteUpdate_canBus (s : State) (r : Reg) (v w : Nat) : (s.noteUpdate r v w).canBus = s.canBus := rfl
@[simp] theorem State.noteUpdate_mvbBus (s : State) (r : Reg) (v w : Nat) : (s.noteUpdate r v w).mvbBus = s.mvbBus := rfl
@[simp] theorem State.noteUpdate_trdpSeen (s : State) (r : Reg) (v w : Nat) : (s.noteUpdate r v w).trdpSeen = s.trdpSeen := rfl
@[simp] theorem State.noteUpdate_power (s : State) (r : Reg) (v w : Nat) : (s.noteUpdate r v w).power = s.power := rfl
@[simp] theorem State.noteUpdate_proof (s : State) (r : Reg) (v w : Nat) : (s.noteUpdate r v w).proof = s.proof := rfl
@[simp] theorem State.noteUpdate_switch (s : State) (r : Reg) (v w : Nat) : (s.noteUpdate r v w).switch = s.switch := rfl
@[simp] theorem State.noteUpdate_twinUnit (s : State) (r : Reg) (v w : Nat) : (s.noteUpdate r v w).twinUnit = s.twinUnit := rfl
@[simp] theorem State.noteUpdate_sent (s : State) (r : Reg) (v w : Nat) : (s.noteUpdate r v w).sent = s.sent := rfl
@[simp] theorem State.noteUpdate_freeDraws (s : State) (r : Reg) (v w : Nat) : (s.noteUpdate r v w).freeDraws = s.freeDraws := rfl
@[simp] theorem State.noteUpdate_pending (s : State) (r : Reg) (v w : Nat) : (s.noteUpdate r v w).pending = s.pending := rfl

@[simp] theorem State.updateTo_thisClock (s : State) (r : Reg) (v w : Nat) : (s.updateTo r v w).thisClock = s.thisClock := rfl
@[simp] theorem State.updateTo_softResets (s : State) (r : Reg) (v w : Nat) : (s.updateTo r v w).softResets = s.softResets := rfl
@[simp] theorem State.updateTo_mem (s : State) (r : Reg) (v w : Nat) : (s.updateTo r v w).mem = s.mem := rfl
@[simp] theorem State.updateTo_readLatch (s : State) (r : Reg) (v w : Nat) : (s.updateTo r v w).readLatch = s.readLatch := rfl
@[simp] theorem State.updateTo_writeHold (s : State) (r : Reg) (v w : Nat) : (s.updateTo r v w).writeHold = s.writeHold := rfl
@[simp] theorem State.updateTo_time (s : State) (r : Reg) (v w : Nat) : (s.updateTo r v w).time = s.time := rfl
@[simp] theorem State.updateTo_lineA (s : State) (r : Reg) (v w : Nat) : (s.updateTo r v w).lineA = s.lineA := rfl
@[simp] theorem State.updateTo_lineB (s : State) (r : Reg) (v w : Nat) : (s.updateTo r v w).lineB = s.lineB := rfl
@[simp] theorem State.updateTo_forming (s : State) (r : Reg) (v w : Nat) : (s.updateTo r v w).forming = s.forming := rfl
@[simp] theorem State.updateTo_loafA (s : State) (r : Reg) (v w : Nat) : (s.updateTo r v w).loafA = s.loafA := rfl
@[simp] theorem State.updateTo_loafB (s : State) (r : Reg) (v w : Nat) : (s.updateTo r v w).loafB = s.loafB := rfl
@[simp] theorem State.updateTo_capture (s : State) (r : Reg) (v w : Nat) : (s.updateTo r v w).capture = s.capture := rfl
@[simp] theorem State.updateTo_selection (s : State) (r : Reg) (v w : Nat) : (s.updateTo r v w).selection = s.selection := rfl
@[simp] theorem State.updateTo_holdCopy (s : State) (r : Reg) (v w : Nat) : (s.updateTo r v w).holdCopy = s.holdCopy := rfl
@[simp] theorem State.updateTo_nextSeq (s : State) (r : Reg) (v w : Nat) : (s.updateTo r v w).nextSeq = s.nextSeq := rfl
@[simp] theorem State.updateTo_brownoutMark (s : State) (r : Reg) (v w : Nat) : (s.updateTo r v w).brownoutMark = s.brownoutMark := rfl
@[simp] theorem State.updateTo_otp (s : State) (r : Reg) (v w : Nat) : (s.updateTo r v w).otp = s.otp := rfl
@[simp] theorem State.updateTo_sec (s : State) (r : Reg) (v w : Nat) : (s.updateTo r v w).sec = s.sec := rfl
@[simp] theorem State.updateTo_bridges (s : State) (r : Reg) (v w : Nat) : (s.updateTo r v w).bridges = s.bridges := rfl
@[simp] theorem State.updateTo_health (s : State) (r : Reg) (v w : Nat) : (s.updateTo r v w).health = s.health := rfl
@[simp] theorem State.updateTo_tags (s : State) (r : Reg) (v w : Nat) : (s.updateTo r v w).tags = s.tags := rfl
@[simp] theorem State.updateTo_engMoves (s : State) (r : Reg) (v w : Nat) : (s.updateTo r v w).engMoves = s.engMoves := rfl
@[simp] theorem State.updateTo_sharedStores (s : State) (r : Reg) (v w : Nat) : (s.updateTo r v w).sharedStores = s.sharedStores := rfl
@[simp] theorem State.updateTo_rolesA (s : State) (r : Reg) (v w : Nat) : (s.updateTo r v w).rolesA = s.rolesA := rfl
@[simp] theorem State.updateTo_rolesB (s : State) (r : Reg) (v w : Nat) : (s.updateTo r v w).rolesB = s.rolesB := rfl
@[simp] theorem State.updateTo_semA (s : State) (r : Reg) (v w : Nat) : (s.updateTo r v w).semA = s.semA := rfl
@[simp] theorem State.updateTo_semB (s : State) (r : Reg) (v w : Nat) : (s.updateTo r v w).semB = s.semB := rfl
@[simp] theorem State.updateTo_kneaderA (s : State) (r : Reg) (v w : Nat) : (s.updateTo r v w).kneaderA = s.kneaderA := rfl
@[simp] theorem State.updateTo_kneaderB (s : State) (r : Reg) (v w : Nat) : (s.updateTo r v w).kneaderB = s.kneaderB := rfl
@[simp] theorem State.updateTo_staged (s : State) (r : Reg) (v w : Nat) : (s.updateTo r v w).staged = s.staged := rfl
@[simp] theorem State.updateTo_held (s : State) (r : Reg) (v w : Nat) : (s.updateTo r v w).held = s.held := rfl
@[simp] theorem State.updateTo_canBus (s : State) (r : Reg) (v w : Nat) : (s.updateTo r v w).canBus = s.canBus := rfl
@[simp] theorem State.updateTo_mvbBus (s : State) (r : Reg) (v w : Nat) : (s.updateTo r v w).mvbBus = s.mvbBus := rfl
@[simp] theorem State.updateTo_trdpSeen (s : State) (r : Reg) (v w : Nat) : (s.updateTo r v w).trdpSeen = s.trdpSeen := rfl
@[simp] theorem State.updateTo_power (s : State) (r : Reg) (v w : Nat) : (s.updateTo r v w).power = s.power := rfl
@[simp] theorem State.updateTo_proof (s : State) (r : Reg) (v w : Nat) : (s.updateTo r v w).proof = s.proof := rfl
@[simp] theorem State.updateTo_switch (s : State) (r : Reg) (v w : Nat) : (s.updateTo r v w).switch = s.switch := rfl
@[simp] theorem State.updateTo_twinUnit (s : State) (r : Reg) (v w : Nat) : (s.updateTo r v w).twinUnit = s.twinUnit := rfl
@[simp] theorem State.updateTo_sent (s : State) (r : Reg) (v w : Nat) : (s.updateTo r v w).sent = s.sent := rfl
@[simp] theorem State.updateTo_freeDraws (s : State) (r : Reg) (v w : Nat) : (s.updateTo r v w).freeDraws = s.freeDraws := rfl
@[simp] theorem State.updateTo_pending (s : State) (r : Reg) (v w : Nat) : (s.updateTo r v w).pending = s.pending := rfl

@[simp] theorem State.update_thisClock (s : State) (r : Reg) (f : Nat → Nat) : (s.update r f).thisClock = s.thisClock := rfl
@[simp] theorem State.update_softResets (s : State) (r : Reg) (f : Nat → Nat) : (s.update r f).softResets = s.softResets := rfl
@[simp] theorem State.update_mem (s : State) (r : Reg) (f : Nat → Nat) : (s.update r f).mem = s.mem := rfl
@[simp] theorem State.update_readLatch (s : State) (r : Reg) (f : Nat → Nat) : (s.update r f).readLatch = s.readLatch := rfl
@[simp] theorem State.update_writeHold (s : State) (r : Reg) (f : Nat → Nat) : (s.update r f).writeHold = s.writeHold := rfl
@[simp] theorem State.update_time (s : State) (r : Reg) (f : Nat → Nat) : (s.update r f).time = s.time := rfl
@[simp] theorem State.update_lineA (s : State) (r : Reg) (f : Nat → Nat) : (s.update r f).lineA = s.lineA := rfl
@[simp] theorem State.update_lineB (s : State) (r : Reg) (f : Nat → Nat) : (s.update r f).lineB = s.lineB := rfl
@[simp] theorem State.update_forming (s : State) (r : Reg) (f : Nat → Nat) : (s.update r f).forming = s.forming := rfl
@[simp] theorem State.update_loafA (s : State) (r : Reg) (f : Nat → Nat) : (s.update r f).loafA = s.loafA := rfl
@[simp] theorem State.update_loafB (s : State) (r : Reg) (f : Nat → Nat) : (s.update r f).loafB = s.loafB := rfl
@[simp] theorem State.update_capture (s : State) (r : Reg) (f : Nat → Nat) : (s.update r f).capture = s.capture := rfl
@[simp] theorem State.update_selection (s : State) (r : Reg) (f : Nat → Nat) : (s.update r f).selection = s.selection := rfl
@[simp] theorem State.update_holdCopy (s : State) (r : Reg) (f : Nat → Nat) : (s.update r f).holdCopy = s.holdCopy := rfl
@[simp] theorem State.update_nextSeq (s : State) (r : Reg) (f : Nat → Nat) : (s.update r f).nextSeq = s.nextSeq := rfl
@[simp] theorem State.update_brownoutMark (s : State) (r : Reg) (f : Nat → Nat) : (s.update r f).brownoutMark = s.brownoutMark := rfl
@[simp] theorem State.update_otp (s : State) (r : Reg) (f : Nat → Nat) : (s.update r f).otp = s.otp := rfl
@[simp] theorem State.update_sec (s : State) (r : Reg) (f : Nat → Nat) : (s.update r f).sec = s.sec := rfl
@[simp] theorem State.update_bridges (s : State) (r : Reg) (f : Nat → Nat) : (s.update r f).bridges = s.bridges := rfl
@[simp] theorem State.update_health (s : State) (r : Reg) (f : Nat → Nat) : (s.update r f).health = s.health := rfl
@[simp] theorem State.update_tags (s : State) (r : Reg) (f : Nat → Nat) : (s.update r f).tags = s.tags := rfl
@[simp] theorem State.update_engMoves (s : State) (r : Reg) (f : Nat → Nat) : (s.update r f).engMoves = s.engMoves := rfl
@[simp] theorem State.update_sharedStores (s : State) (r : Reg) (f : Nat → Nat) : (s.update r f).sharedStores = s.sharedStores := rfl
@[simp] theorem State.update_rolesA (s : State) (r : Reg) (f : Nat → Nat) : (s.update r f).rolesA = s.rolesA := rfl
@[simp] theorem State.update_rolesB (s : State) (r : Reg) (f : Nat → Nat) : (s.update r f).rolesB = s.rolesB := rfl
@[simp] theorem State.update_semA (s : State) (r : Reg) (f : Nat → Nat) : (s.update r f).semA = s.semA := rfl
@[simp] theorem State.update_semB (s : State) (r : Reg) (f : Nat → Nat) : (s.update r f).semB = s.semB := rfl
@[simp] theorem State.update_kneaderA (s : State) (r : Reg) (f : Nat → Nat) : (s.update r f).kneaderA = s.kneaderA := rfl
@[simp] theorem State.update_kneaderB (s : State) (r : Reg) (f : Nat → Nat) : (s.update r f).kneaderB = s.kneaderB := rfl
@[simp] theorem State.update_staged (s : State) (r : Reg) (f : Nat → Nat) : (s.update r f).staged = s.staged := rfl
@[simp] theorem State.update_held (s : State) (r : Reg) (f : Nat → Nat) : (s.update r f).held = s.held := rfl
@[simp] theorem State.update_canBus (s : State) (r : Reg) (f : Nat → Nat) : (s.update r f).canBus = s.canBus := rfl
@[simp] theorem State.update_mvbBus (s : State) (r : Reg) (f : Nat → Nat) : (s.update r f).mvbBus = s.mvbBus := rfl
@[simp] theorem State.update_trdpSeen (s : State) (r : Reg) (f : Nat → Nat) : (s.update r f).trdpSeen = s.trdpSeen := rfl
@[simp] theorem State.update_power (s : State) (r : Reg) (f : Nat → Nat) : (s.update r f).power = s.power := rfl
@[simp] theorem State.update_proof (s : State) (r : Reg) (f : Nat → Nat) : (s.update r f).proof = s.proof := rfl
@[simp] theorem State.update_switch (s : State) (r : Reg) (f : Nat → Nat) : (s.update r f).switch = s.switch := rfl
@[simp] theorem State.update_twinUnit (s : State) (r : Reg) (f : Nat → Nat) : (s.update r f).twinUnit = s.twinUnit := rfl
@[simp] theorem State.update_sent (s : State) (r : Reg) (f : Nat → Nat) : (s.update r f).sent = s.sent := rfl
@[simp] theorem State.update_freeDraws (s : State) (r : Reg) (f : Nat → Nat) : (s.update r f).freeDraws = s.freeDraws := rfl
@[simp] theorem State.update_pending (s : State) (r : Reg) (f : Nat → Nat) : (s.update r f).pending = s.pending := rfl

@[simp] theorem State.updateFlag_thisClock (s : State) (r : Reg) : (s.updateFlag r).thisClock = s.thisClock := rfl
@[simp] theorem State.updateFlag_softResets (s : State) (r : Reg) : (s.updateFlag r).softResets = s.softResets := rfl
@[simp] theorem State.updateFlag_mem (s : State) (r : Reg) : (s.updateFlag r).mem = s.mem := rfl
@[simp] theorem State.updateFlag_readLatch (s : State) (r : Reg) : (s.updateFlag r).readLatch = s.readLatch := rfl
@[simp] theorem State.updateFlag_writeHold (s : State) (r : Reg) : (s.updateFlag r).writeHold = s.writeHold := rfl
@[simp] theorem State.updateFlag_time (s : State) (r : Reg) : (s.updateFlag r).time = s.time := rfl
@[simp] theorem State.updateFlag_lineA (s : State) (r : Reg) : (s.updateFlag r).lineA = s.lineA := rfl
@[simp] theorem State.updateFlag_lineB (s : State) (r : Reg) : (s.updateFlag r).lineB = s.lineB := rfl
@[simp] theorem State.updateFlag_forming (s : State) (r : Reg) : (s.updateFlag r).forming = s.forming := rfl
@[simp] theorem State.updateFlag_loafA (s : State) (r : Reg) : (s.updateFlag r).loafA = s.loafA := rfl
@[simp] theorem State.updateFlag_loafB (s : State) (r : Reg) : (s.updateFlag r).loafB = s.loafB := rfl
@[simp] theorem State.updateFlag_capture (s : State) (r : Reg) : (s.updateFlag r).capture = s.capture := rfl
@[simp] theorem State.updateFlag_selection (s : State) (r : Reg) : (s.updateFlag r).selection = s.selection := rfl
@[simp] theorem State.updateFlag_holdCopy (s : State) (r : Reg) : (s.updateFlag r).holdCopy = s.holdCopy := rfl
@[simp] theorem State.updateFlag_nextSeq (s : State) (r : Reg) : (s.updateFlag r).nextSeq = s.nextSeq := rfl
@[simp] theorem State.updateFlag_brownoutMark (s : State) (r : Reg) : (s.updateFlag r).brownoutMark = s.brownoutMark := rfl
@[simp] theorem State.updateFlag_otp (s : State) (r : Reg) : (s.updateFlag r).otp = s.otp := rfl
@[simp] theorem State.updateFlag_sec (s : State) (r : Reg) : (s.updateFlag r).sec = s.sec := rfl
@[simp] theorem State.updateFlag_bridges (s : State) (r : Reg) : (s.updateFlag r).bridges = s.bridges := rfl
@[simp] theorem State.updateFlag_health (s : State) (r : Reg) : (s.updateFlag r).health = s.health := rfl
@[simp] theorem State.updateFlag_tags (s : State) (r : Reg) : (s.updateFlag r).tags = s.tags := rfl
@[simp] theorem State.updateFlag_engMoves (s : State) (r : Reg) : (s.updateFlag r).engMoves = s.engMoves := rfl
@[simp] theorem State.updateFlag_sharedStores (s : State) (r : Reg) : (s.updateFlag r).sharedStores = s.sharedStores := rfl
@[simp] theorem State.updateFlag_rolesA (s : State) (r : Reg) : (s.updateFlag r).rolesA = s.rolesA := rfl
@[simp] theorem State.updateFlag_rolesB (s : State) (r : Reg) : (s.updateFlag r).rolesB = s.rolesB := rfl
@[simp] theorem State.updateFlag_semA (s : State) (r : Reg) : (s.updateFlag r).semA = s.semA := rfl
@[simp] theorem State.updateFlag_semB (s : State) (r : Reg) : (s.updateFlag r).semB = s.semB := rfl
@[simp] theorem State.updateFlag_kneaderA (s : State) (r : Reg) : (s.updateFlag r).kneaderA = s.kneaderA := rfl
@[simp] theorem State.updateFlag_kneaderB (s : State) (r : Reg) : (s.updateFlag r).kneaderB = s.kneaderB := rfl
@[simp] theorem State.updateFlag_staged (s : State) (r : Reg) : (s.updateFlag r).staged = s.staged := rfl
@[simp] theorem State.updateFlag_held (s : State) (r : Reg) : (s.updateFlag r).held = s.held := rfl
@[simp] theorem State.updateFlag_canBus (s : State) (r : Reg) : (s.updateFlag r).canBus = s.canBus := rfl
@[simp] theorem State.updateFlag_mvbBus (s : State) (r : Reg) : (s.updateFlag r).mvbBus = s.mvbBus := rfl
@[simp] theorem State.updateFlag_trdpSeen (s : State) (r : Reg) : (s.updateFlag r).trdpSeen = s.trdpSeen := rfl
@[simp] theorem State.updateFlag_power (s : State) (r : Reg) : (s.updateFlag r).power = s.power := rfl
@[simp] theorem State.updateFlag_proof (s : State) (r : Reg) : (s.updateFlag r).proof = s.proof := rfl
@[simp] theorem State.updateFlag_switch (s : State) (r : Reg) : (s.updateFlag r).switch = s.switch := rfl
@[simp] theorem State.updateFlag_twinUnit (s : State) (r : Reg) : (s.updateFlag r).twinUnit = s.twinUnit := rfl
@[simp] theorem State.updateFlag_sent (s : State) (r : Reg) : (s.updateFlag r).sent = s.sent := rfl
@[simp] theorem State.updateFlag_freeDraws (s : State) (r : Reg) : (s.updateFlag r).freeDraws = s.freeDraws := rfl
@[simp] theorem State.updateFlag_pending (s : State) (r : Reg) : (s.updateFlag r).pending = s.pending := rfl

@[simp] theorem State.clearBits_updates (s : State) (r : Reg) (m : Nat) : (s.clearBits r m).updates = s.updates := rfl
@[simp] theorem State.clearBits_thisClock (s : State) (r : Reg) (m : Nat) : (s.clearBits r m).thisClock = s.thisClock := rfl
@[simp] theorem State.clearBits_softResets (s : State) (r : Reg) (m : Nat) : (s.clearBits r m).softResets = s.softResets := rfl
@[simp] theorem State.clearBits_mem (s : State) (r : Reg) (m : Nat) : (s.clearBits r m).mem = s.mem := rfl
@[simp] theorem State.clearBits_readLatch (s : State) (r : Reg) (m : Nat) : (s.clearBits r m).readLatch = s.readLatch := rfl
@[simp] theorem State.clearBits_writeHold (s : State) (r : Reg) (m : Nat) : (s.clearBits r m).writeHold = s.writeHold := rfl
@[simp] theorem State.clearBits_time (s : State) (r : Reg) (m : Nat) : (s.clearBits r m).time = s.time := rfl
@[simp] theorem State.clearBits_lineA (s : State) (r : Reg) (m : Nat) : (s.clearBits r m).lineA = s.lineA := rfl
@[simp] theorem State.clearBits_lineB (s : State) (r : Reg) (m : Nat) : (s.clearBits r m).lineB = s.lineB := rfl
@[simp] theorem State.clearBits_forming (s : State) (r : Reg) (m : Nat) : (s.clearBits r m).forming = s.forming := rfl
@[simp] theorem State.clearBits_loafA (s : State) (r : Reg) (m : Nat) : (s.clearBits r m).loafA = s.loafA := rfl
@[simp] theorem State.clearBits_loafB (s : State) (r : Reg) (m : Nat) : (s.clearBits r m).loafB = s.loafB := rfl
@[simp] theorem State.clearBits_capture (s : State) (r : Reg) (m : Nat) : (s.clearBits r m).capture = s.capture := rfl
@[simp] theorem State.clearBits_selection (s : State) (r : Reg) (m : Nat) : (s.clearBits r m).selection = s.selection := rfl
@[simp] theorem State.clearBits_holdCopy (s : State) (r : Reg) (m : Nat) : (s.clearBits r m).holdCopy = s.holdCopy := rfl
@[simp] theorem State.clearBits_nextSeq (s : State) (r : Reg) (m : Nat) : (s.clearBits r m).nextSeq = s.nextSeq := rfl
@[simp] theorem State.clearBits_brownoutMark (s : State) (r : Reg) (m : Nat) : (s.clearBits r m).brownoutMark = s.brownoutMark := rfl
@[simp] theorem State.clearBits_otp (s : State) (r : Reg) (m : Nat) : (s.clearBits r m).otp = s.otp := rfl
@[simp] theorem State.clearBits_sec (s : State) (r : Reg) (m : Nat) : (s.clearBits r m).sec = s.sec := rfl
@[simp] theorem State.clearBits_bridges (s : State) (r : Reg) (m : Nat) : (s.clearBits r m).bridges = s.bridges := rfl
@[simp] theorem State.clearBits_health (s : State) (r : Reg) (m : Nat) : (s.clearBits r m).health = s.health := rfl
@[simp] theorem State.clearBits_tags (s : State) (r : Reg) (m : Nat) : (s.clearBits r m).tags = s.tags := rfl
@[simp] theorem State.clearBits_engMoves (s : State) (r : Reg) (m : Nat) : (s.clearBits r m).engMoves = s.engMoves := rfl
@[simp] theorem State.clearBits_sharedStores (s : State) (r : Reg) (m : Nat) : (s.clearBits r m).sharedStores = s.sharedStores := rfl
@[simp] theorem State.clearBits_rolesA (s : State) (r : Reg) (m : Nat) : (s.clearBits r m).rolesA = s.rolesA := rfl
@[simp] theorem State.clearBits_rolesB (s : State) (r : Reg) (m : Nat) : (s.clearBits r m).rolesB = s.rolesB := rfl
@[simp] theorem State.clearBits_semA (s : State) (r : Reg) (m : Nat) : (s.clearBits r m).semA = s.semA := rfl
@[simp] theorem State.clearBits_semB (s : State) (r : Reg) (m : Nat) : (s.clearBits r m).semB = s.semB := rfl
@[simp] theorem State.clearBits_kneaderA (s : State) (r : Reg) (m : Nat) : (s.clearBits r m).kneaderA = s.kneaderA := rfl
@[simp] theorem State.clearBits_kneaderB (s : State) (r : Reg) (m : Nat) : (s.clearBits r m).kneaderB = s.kneaderB := rfl
@[simp] theorem State.clearBits_staged (s : State) (r : Reg) (m : Nat) : (s.clearBits r m).staged = s.staged := rfl
@[simp] theorem State.clearBits_held (s : State) (r : Reg) (m : Nat) : (s.clearBits r m).held = s.held := rfl
@[simp] theorem State.clearBits_canBus (s : State) (r : Reg) (m : Nat) : (s.clearBits r m).canBus = s.canBus := rfl
@[simp] theorem State.clearBits_mvbBus (s : State) (r : Reg) (m : Nat) : (s.clearBits r m).mvbBus = s.mvbBus := rfl
@[simp] theorem State.clearBits_trdpSeen (s : State) (r : Reg) (m : Nat) : (s.clearBits r m).trdpSeen = s.trdpSeen := rfl
@[simp] theorem State.clearBits_power (s : State) (r : Reg) (m : Nat) : (s.clearBits r m).power = s.power := rfl
@[simp] theorem State.clearBits_proof (s : State) (r : Reg) (m : Nat) : (s.clearBits r m).proof = s.proof := rfl
@[simp] theorem State.clearBits_switch (s : State) (r : Reg) (m : Nat) : (s.clearBits r m).switch = s.switch := rfl
@[simp] theorem State.clearBits_twinUnit (s : State) (r : Reg) (m : Nat) : (s.clearBits r m).twinUnit = s.twinUnit := rfl
@[simp] theorem State.clearBits_sent (s : State) (r : Reg) (m : Nat) : (s.clearBits r m).sent = s.sent := rfl
@[simp] theorem State.clearBits_freeDraws (s : State) (r : Reg) (m : Nat) : (s.clearBits r m).freeDraws = s.freeDraws := rfl
@[simp] theorem State.clearBits_pending (s : State) (r : Reg) (m : Nat) : (s.clearBits r m).pending = s.pending := rfl

@[simp] theorem State.setByte_regs (s : State) (a : Nat) (b : Byte) : (s.setByte a b).regs = s.regs := rfl
@[simp] theorem State.setByte_updates (s : State) (a : Nat) (b : Byte) : (s.setByte a b).updates = s.updates := rfl
@[simp] theorem State.setByte_thisClock (s : State) (a : Nat) (b : Byte) : (s.setByte a b).thisClock = s.thisClock := rfl
@[simp] theorem State.setByte_softResets (s : State) (a : Nat) (b : Byte) : (s.setByte a b).softResets = s.softResets := rfl
@[simp] theorem State.setByte_mem (s : State) (a : Nat) (b : Byte) : (s.setByte a b).mem = store (memDefault a) s.mem a b := rfl
@[simp] theorem State.setByte_readLatch (s : State) (a : Nat) (b : Byte) : (s.setByte a b).readLatch = s.readLatch := rfl
@[simp] theorem State.setByte_writeHold (s : State) (a : Nat) (b : Byte) : (s.setByte a b).writeHold = s.writeHold := rfl
@[simp] theorem State.setByte_time (s : State) (a : Nat) (b : Byte) : (s.setByte a b).time = s.time := rfl
@[simp] theorem State.setByte_lineA (s : State) (a : Nat) (b : Byte) : (s.setByte a b).lineA = s.lineA := rfl
@[simp] theorem State.setByte_lineB (s : State) (a : Nat) (b : Byte) : (s.setByte a b).lineB = s.lineB := rfl
@[simp] theorem State.setByte_forming (s : State) (a : Nat) (b : Byte) : (s.setByte a b).forming = s.forming := rfl
@[simp] theorem State.setByte_loafA (s : State) (a : Nat) (b : Byte) : (s.setByte a b).loafA = s.loafA := rfl
@[simp] theorem State.setByte_loafB (s : State) (a : Nat) (b : Byte) : (s.setByte a b).loafB = s.loafB := rfl
@[simp] theorem State.setByte_capture (s : State) (a : Nat) (b : Byte) : (s.setByte a b).capture = s.capture := rfl
@[simp] theorem State.setByte_selection (s : State) (a : Nat) (b : Byte) : (s.setByte a b).selection = s.selection := rfl
@[simp] theorem State.setByte_holdCopy (s : State) (a : Nat) (b : Byte) : (s.setByte a b).holdCopy = s.holdCopy := rfl
@[simp] theorem State.setByte_nextSeq (s : State) (a : Nat) (b : Byte) : (s.setByte a b).nextSeq = s.nextSeq := rfl
@[simp] theorem State.setByte_brownoutMark (s : State) (a : Nat) (b : Byte) : (s.setByte a b).brownoutMark = s.brownoutMark := rfl
@[simp] theorem State.setByte_otp (s : State) (a : Nat) (b : Byte) : (s.setByte a b).otp = s.otp := rfl
@[simp] theorem State.setByte_sec (s : State) (a : Nat) (b : Byte) : (s.setByte a b).sec = s.sec := rfl
@[simp] theorem State.setByte_bridges (s : State) (a : Nat) (b : Byte) : (s.setByte a b).bridges = s.bridges := rfl
@[simp] theorem State.setByte_health (s : State) (a : Nat) (b : Byte) : (s.setByte a b).health = s.health := rfl
@[simp] theorem State.setByte_tags (s : State) (a : Nat) (b : Byte) : (s.setByte a b).tags = s.tags := rfl
@[simp] theorem State.setByte_engMoves (s : State) (a : Nat) (b : Byte) : (s.setByte a b).engMoves = s.engMoves := rfl
@[simp] theorem State.setByte_sharedStores (s : State) (a : Nat) (b : Byte) : (s.setByte a b).sharedStores = s.sharedStores := rfl
@[simp] theorem State.setByte_rolesA (s : State) (a : Nat) (b : Byte) : (s.setByte a b).rolesA = s.rolesA := rfl
@[simp] theorem State.setByte_rolesB (s : State) (a : Nat) (b : Byte) : (s.setByte a b).rolesB = s.rolesB := rfl
@[simp] theorem State.setByte_semA (s : State) (a : Nat) (b : Byte) : (s.setByte a b).semA = s.semA := rfl
@[simp] theorem State.setByte_semB (s : State) (a : Nat) (b : Byte) : (s.setByte a b).semB = s.semB := rfl
@[simp] theorem State.setByte_kneaderA (s : State) (a : Nat) (b : Byte) : (s.setByte a b).kneaderA = s.kneaderA := rfl
@[simp] theorem State.setByte_kneaderB (s : State) (a : Nat) (b : Byte) : (s.setByte a b).kneaderB = s.kneaderB := rfl
@[simp] theorem State.setByte_staged (s : State) (a : Nat) (b : Byte) : (s.setByte a b).staged = s.staged := rfl
@[simp] theorem State.setByte_held (s : State) (a : Nat) (b : Byte) : (s.setByte a b).held = s.held := rfl
@[simp] theorem State.setByte_canBus (s : State) (a : Nat) (b : Byte) : (s.setByte a b).canBus = s.canBus := rfl
@[simp] theorem State.setByte_mvbBus (s : State) (a : Nat) (b : Byte) : (s.setByte a b).mvbBus = s.mvbBus := rfl
@[simp] theorem State.setByte_trdpSeen (s : State) (a : Nat) (b : Byte) : (s.setByte a b).trdpSeen = s.trdpSeen := rfl
@[simp] theorem State.setByte_power (s : State) (a : Nat) (b : Byte) : (s.setByte a b).power = s.power := rfl
@[simp] theorem State.setByte_proof (s : State) (a : Nat) (b : Byte) : (s.setByte a b).proof = s.proof := rfl
@[simp] theorem State.setByte_switch (s : State) (a : Nat) (b : Byte) : (s.setByte a b).switch = s.switch := rfl
@[simp] theorem State.setByte_twinUnit (s : State) (a : Nat) (b : Byte) : (s.setByte a b).twinUnit = s.twinUnit := rfl
@[simp] theorem State.setByte_sent (s : State) (a : Nat) (b : Byte) : (s.setByte a b).sent = s.sent := rfl
@[simp] theorem State.setByte_freeDraws (s : State) (a : Nat) (b : Byte) : (s.setByte a b).freeDraws = s.freeDraws := rfl
@[simp] theorem State.setByte_pending (s : State) (a : Nat) (b : Byte) : (s.setByte a b).pending = s.pending := rfl

@[simp] theorem State.clearRange_regs (s : State) (a n : Nat) : (s.clearRange a n).regs = s.regs := rfl
@[simp] theorem State.clearRange_updates (s : State) (a n : Nat) : (s.clearRange a n).updates = s.updates := rfl
@[simp] theorem State.clearRange_thisClock (s : State) (a n : Nat) : (s.clearRange a n).thisClock = s.thisClock := rfl
@[simp] theorem State.clearRange_softResets (s : State) (a n : Nat) : (s.clearRange a n).softResets = s.softResets := rfl
@[simp] theorem State.clearRange_readLatch (s : State) (a n : Nat) : (s.clearRange a n).readLatch = s.readLatch := rfl
@[simp] theorem State.clearRange_writeHold (s : State) (a n : Nat) : (s.clearRange a n).writeHold = s.writeHold := rfl
@[simp] theorem State.clearRange_time (s : State) (a n : Nat) : (s.clearRange a n).time = s.time := rfl
@[simp] theorem State.clearRange_lineA (s : State) (a n : Nat) : (s.clearRange a n).lineA = s.lineA := rfl
@[simp] theorem State.clearRange_lineB (s : State) (a n : Nat) : (s.clearRange a n).lineB = s.lineB := rfl
@[simp] theorem State.clearRange_forming (s : State) (a n : Nat) : (s.clearRange a n).forming = s.forming := rfl
@[simp] theorem State.clearRange_loafA (s : State) (a n : Nat) : (s.clearRange a n).loafA = s.loafA := rfl
@[simp] theorem State.clearRange_loafB (s : State) (a n : Nat) : (s.clearRange a n).loafB = s.loafB := rfl
@[simp] theorem State.clearRange_capture (s : State) (a n : Nat) : (s.clearRange a n).capture = s.capture := rfl
@[simp] theorem State.clearRange_selection (s : State) (a n : Nat) : (s.clearRange a n).selection = s.selection := rfl
@[simp] theorem State.clearRange_holdCopy (s : State) (a n : Nat) : (s.clearRange a n).holdCopy = s.holdCopy := rfl
@[simp] theorem State.clearRange_nextSeq (s : State) (a n : Nat) : (s.clearRange a n).nextSeq = s.nextSeq := rfl
@[simp] theorem State.clearRange_brownoutMark (s : State) (a n : Nat) : (s.clearRange a n).brownoutMark = s.brownoutMark := rfl
@[simp] theorem State.clearRange_otp (s : State) (a n : Nat) : (s.clearRange a n).otp = s.otp := rfl
@[simp] theorem State.clearRange_sec (s : State) (a n : Nat) : (s.clearRange a n).sec = s.sec := rfl
@[simp] theorem State.clearRange_bridges (s : State) (a n : Nat) : (s.clearRange a n).bridges = s.bridges := rfl
@[simp] theorem State.clearRange_health (s : State) (a n : Nat) : (s.clearRange a n).health = s.health := rfl
@[simp] theorem State.clearRange_tags (s : State) (a n : Nat) : (s.clearRange a n).tags = s.tags := rfl
@[simp] theorem State.clearRange_engMoves (s : State) (a n : Nat) : (s.clearRange a n).engMoves = s.engMoves := rfl
@[simp] theorem State.clearRange_sharedStores (s : State) (a n : Nat) : (s.clearRange a n).sharedStores = s.sharedStores := rfl
@[simp] theorem State.clearRange_rolesA (s : State) (a n : Nat) : (s.clearRange a n).rolesA = s.rolesA := rfl
@[simp] theorem State.clearRange_rolesB (s : State) (a n : Nat) : (s.clearRange a n).rolesB = s.rolesB := rfl
@[simp] theorem State.clearRange_semA (s : State) (a n : Nat) : (s.clearRange a n).semA = s.semA := rfl
@[simp] theorem State.clearRange_semB (s : State) (a n : Nat) : (s.clearRange a n).semB = s.semB := rfl
@[simp] theorem State.clearRange_kneaderA (s : State) (a n : Nat) : (s.clearRange a n).kneaderA = s.kneaderA := rfl
@[simp] theorem State.clearRange_kneaderB (s : State) (a n : Nat) : (s.clearRange a n).kneaderB = s.kneaderB := rfl
@[simp] theorem State.clearRange_staged (s : State) (a n : Nat) : (s.clearRange a n).staged = s.staged := rfl
@[simp] theorem State.clearRange_held (s : State) (a n : Nat) : (s.clearRange a n).held = s.held := rfl
@[simp] theorem State.clearRange_canBus (s : State) (a n : Nat) : (s.clearRange a n).canBus = s.canBus := rfl
@[simp] theorem State.clearRange_mvbBus (s : State) (a n : Nat) : (s.clearRange a n).mvbBus = s.mvbBus := rfl
@[simp] theorem State.clearRange_trdpSeen (s : State) (a n : Nat) : (s.clearRange a n).trdpSeen = s.trdpSeen := rfl
@[simp] theorem State.clearRange_power (s : State) (a n : Nat) : (s.clearRange a n).power = s.power := rfl
@[simp] theorem State.clearRange_proof (s : State) (a n : Nat) : (s.clearRange a n).proof = s.proof := rfl
@[simp] theorem State.clearRange_switch (s : State) (a n : Nat) : (s.clearRange a n).switch = s.switch := rfl
@[simp] theorem State.clearRange_twinUnit (s : State) (a n : Nat) : (s.clearRange a n).twinUnit = s.twinUnit := rfl
@[simp] theorem State.clearRange_sent (s : State) (a n : Nat) : (s.clearRange a n).sent = s.sent := rfl
@[simp] theorem State.clearRange_freeDraws (s : State) (a n : Nat) : (s.clearRange a n).freeDraws = s.freeDraws := rfl
@[simp] theorem State.clearRange_pending (s : State) (a n : Nat) : (s.clearRange a n).pending = s.pending := rfl

@[simp] theorem State.emit_regs (s : State) (e : Sent) : (s.emit e).regs = s.regs := rfl
@[simp] theorem State.emit_updates (s : State) (e : Sent) : (s.emit e).updates = s.updates := rfl
@[simp] theorem State.emit_thisClock (s : State) (e : Sent) : (s.emit e).thisClock = s.thisClock := rfl
@[simp] theorem State.emit_softResets (s : State) (e : Sent) : (s.emit e).softResets = s.softResets := rfl
@[simp] theorem State.emit_mem (s : State) (e : Sent) : (s.emit e).mem = s.mem := rfl
@[simp] theorem State.emit_readLatch (s : State) (e : Sent) : (s.emit e).readLatch = s.readLatch := rfl
@[simp] theorem State.emit_writeHold (s : State) (e : Sent) : (s.emit e).writeHold = s.writeHold := rfl
@[simp] theorem State.emit_time (s : State) (e : Sent) : (s.emit e).time = s.time := rfl
@[simp] theorem State.emit_lineA (s : State) (e : Sent) : (s.emit e).lineA = s.lineA := rfl
@[simp] theorem State.emit_lineB (s : State) (e : Sent) : (s.emit e).lineB = s.lineB := rfl
@[simp] theorem State.emit_forming (s : State) (e : Sent) : (s.emit e).forming = s.forming := rfl
@[simp] theorem State.emit_loafA (s : State) (e : Sent) : (s.emit e).loafA = s.loafA := rfl
@[simp] theorem State.emit_loafB (s : State) (e : Sent) : (s.emit e).loafB = s.loafB := rfl
@[simp] theorem State.emit_capture (s : State) (e : Sent) : (s.emit e).capture = s.capture := rfl
@[simp] theorem State.emit_selection (s : State) (e : Sent) : (s.emit e).selection = s.selection := rfl
@[simp] theorem State.emit_holdCopy (s : State) (e : Sent) : (s.emit e).holdCopy = s.holdCopy := rfl
@[simp] theorem State.emit_nextSeq (s : State) (e : Sent) : (s.emit e).nextSeq = s.nextSeq := rfl
@[simp] theorem State.emit_brownoutMark (s : State) (e : Sent) : (s.emit e).brownoutMark = s.brownoutMark := rfl
@[simp] theorem State.emit_otp (s : State) (e : Sent) : (s.emit e).otp = s.otp := rfl
@[simp] theorem State.emit_sec (s : State) (e : Sent) : (s.emit e).sec = s.sec := rfl
@[simp] theorem State.emit_bridges (s : State) (e : Sent) : (s.emit e).bridges = s.bridges := rfl
@[simp] theorem State.emit_health (s : State) (e : Sent) : (s.emit e).health = s.health := rfl
@[simp] theorem State.emit_tags (s : State) (e : Sent) : (s.emit e).tags = s.tags := rfl
@[simp] theorem State.emit_engMoves (s : State) (e : Sent) : (s.emit e).engMoves = s.engMoves := rfl
@[simp] theorem State.emit_sharedStores (s : State) (e : Sent) : (s.emit e).sharedStores = s.sharedStores := rfl
@[simp] theorem State.emit_rolesA (s : State) (e : Sent) : (s.emit e).rolesA = s.rolesA := rfl
@[simp] theorem State.emit_rolesB (s : State) (e : Sent) : (s.emit e).rolesB = s.rolesB := rfl
@[simp] theorem State.emit_semA (s : State) (e : Sent) : (s.emit e).semA = s.semA := rfl
@[simp] theorem State.emit_semB (s : State) (e : Sent) : (s.emit e).semB = s.semB := rfl
@[simp] theorem State.emit_kneaderA (s : State) (e : Sent) : (s.emit e).kneaderA = s.kneaderA := rfl
@[simp] theorem State.emit_kneaderB (s : State) (e : Sent) : (s.emit e).kneaderB = s.kneaderB := rfl
@[simp] theorem State.emit_staged (s : State) (e : Sent) : (s.emit e).staged = s.staged := rfl
@[simp] theorem State.emit_held (s : State) (e : Sent) : (s.emit e).held = s.held := rfl
@[simp] theorem State.emit_canBus (s : State) (e : Sent) : (s.emit e).canBus = s.canBus := rfl
@[simp] theorem State.emit_mvbBus (s : State) (e : Sent) : (s.emit e).mvbBus = s.mvbBus := rfl
@[simp] theorem State.emit_trdpSeen (s : State) (e : Sent) : (s.emit e).trdpSeen = s.trdpSeen := rfl
@[simp] theorem State.emit_power (s : State) (e : Sent) : (s.emit e).power = s.power := rfl
@[simp] theorem State.emit_proof (s : State) (e : Sent) : (s.emit e).proof = s.proof := rfl
@[simp] theorem State.emit_switch (s : State) (e : Sent) : (s.emit e).switch = s.switch := rfl
@[simp] theorem State.emit_twinUnit (s : State) (e : Sent) : (s.emit e).twinUnit = s.twinUnit := rfl
@[simp] theorem State.emit_sent (s : State) (e : Sent) : (s.emit e).sent = s.sent ++ [e] := rfl
@[simp] theorem State.emit_freeDraws (s : State) (e : Sent) : (s.emit e).freeDraws = s.freeDraws := rfl
@[simp] theorem State.emit_pending (s : State) (e : Sent) : (s.emit e).pending = s.pending := rfl

@[simp] theorem State.withTime_regs (s : State) (f : TimeUnit → TimeUnit) : (s.withTime f).regs = s.regs := rfl
@[simp] theorem State.withTime_updates (s : State) (f : TimeUnit → TimeUnit) : (s.withTime f).updates = s.updates := rfl
@[simp] theorem State.withTime_thisClock (s : State) (f : TimeUnit → TimeUnit) : (s.withTime f).thisClock = s.thisClock := rfl
@[simp] theorem State.withTime_softResets (s : State) (f : TimeUnit → TimeUnit) : (s.withTime f).softResets = s.softResets := rfl
@[simp] theorem State.withTime_mem (s : State) (f : TimeUnit → TimeUnit) : (s.withTime f).mem = s.mem := rfl
@[simp] theorem State.withTime_readLatch (s : State) (f : TimeUnit → TimeUnit) : (s.withTime f).readLatch = s.readLatch := rfl
@[simp] theorem State.withTime_writeHold (s : State) (f : TimeUnit → TimeUnit) : (s.withTime f).writeHold = s.writeHold := rfl
@[simp] theorem State.withTime_time (s : State) (f : TimeUnit → TimeUnit) : (s.withTime f).time = f s.time := rfl
@[simp] theorem State.withTime_lineA (s : State) (f : TimeUnit → TimeUnit) : (s.withTime f).lineA = s.lineA := rfl
@[simp] theorem State.withTime_lineB (s : State) (f : TimeUnit → TimeUnit) : (s.withTime f).lineB = s.lineB := rfl
@[simp] theorem State.withTime_forming (s : State) (f : TimeUnit → TimeUnit) : (s.withTime f).forming = s.forming := rfl
@[simp] theorem State.withTime_loafA (s : State) (f : TimeUnit → TimeUnit) : (s.withTime f).loafA = s.loafA := rfl
@[simp] theorem State.withTime_loafB (s : State) (f : TimeUnit → TimeUnit) : (s.withTime f).loafB = s.loafB := rfl
@[simp] theorem State.withTime_capture (s : State) (f : TimeUnit → TimeUnit) : (s.withTime f).capture = s.capture := rfl
@[simp] theorem State.withTime_selection (s : State) (f : TimeUnit → TimeUnit) : (s.withTime f).selection = s.selection := rfl
@[simp] theorem State.withTime_holdCopy (s : State) (f : TimeUnit → TimeUnit) : (s.withTime f).holdCopy = s.holdCopy := rfl
@[simp] theorem State.withTime_nextSeq (s : State) (f : TimeUnit → TimeUnit) : (s.withTime f).nextSeq = s.nextSeq := rfl
@[simp] theorem State.withTime_brownoutMark (s : State) (f : TimeUnit → TimeUnit) : (s.withTime f).brownoutMark = s.brownoutMark := rfl
@[simp] theorem State.withTime_otp (s : State) (f : TimeUnit → TimeUnit) : (s.withTime f).otp = s.otp := rfl
@[simp] theorem State.withTime_sec (s : State) (f : TimeUnit → TimeUnit) : (s.withTime f).sec = s.sec := rfl
@[simp] theorem State.withTime_bridges (s : State) (f : TimeUnit → TimeUnit) : (s.withTime f).bridges = s.bridges := rfl
@[simp] theorem State.withTime_health (s : State) (f : TimeUnit → TimeUnit) : (s.withTime f).health = s.health := rfl
@[simp] theorem State.withTime_tags (s : State) (f : TimeUnit → TimeUnit) : (s.withTime f).tags = s.tags := rfl
@[simp] theorem State.withTime_engMoves (s : State) (f : TimeUnit → TimeUnit) : (s.withTime f).engMoves = s.engMoves := rfl
@[simp] theorem State.withTime_sharedStores (s : State) (f : TimeUnit → TimeUnit) : (s.withTime f).sharedStores = s.sharedStores := rfl
@[simp] theorem State.withTime_rolesA (s : State) (f : TimeUnit → TimeUnit) : (s.withTime f).rolesA = s.rolesA := rfl
@[simp] theorem State.withTime_rolesB (s : State) (f : TimeUnit → TimeUnit) : (s.withTime f).rolesB = s.rolesB := rfl
@[simp] theorem State.withTime_semA (s : State) (f : TimeUnit → TimeUnit) : (s.withTime f).semA = s.semA := rfl
@[simp] theorem State.withTime_semB (s : State) (f : TimeUnit → TimeUnit) : (s.withTime f).semB = s.semB := rfl
@[simp] theorem State.withTime_kneaderA (s : State) (f : TimeUnit → TimeUnit) : (s.withTime f).kneaderA = s.kneaderA := rfl
@[simp] theorem State.withTime_kneaderB (s : State) (f : TimeUnit → TimeUnit) : (s.withTime f).kneaderB = s.kneaderB := rfl
@[simp] theorem State.withTime_staged (s : State) (f : TimeUnit → TimeUnit) : (s.withTime f).staged = s.staged := rfl
@[simp] theorem State.withTime_held (s : State) (f : TimeUnit → TimeUnit) : (s.withTime f).held = s.held := rfl
@[simp] theorem State.withTime_canBus (s : State) (f : TimeUnit → TimeUnit) : (s.withTime f).canBus = s.canBus := rfl
@[simp] theorem State.withTime_mvbBus (s : State) (f : TimeUnit → TimeUnit) : (s.withTime f).mvbBus = s.mvbBus := rfl
@[simp] theorem State.withTime_trdpSeen (s : State) (f : TimeUnit → TimeUnit) : (s.withTime f).trdpSeen = s.trdpSeen := rfl
@[simp] theorem State.withTime_power (s : State) (f : TimeUnit → TimeUnit) : (s.withTime f).power = s.power := rfl
@[simp] theorem State.withTime_proof (s : State) (f : TimeUnit → TimeUnit) : (s.withTime f).proof = s.proof := rfl
@[simp] theorem State.withTime_switch (s : State) (f : TimeUnit → TimeUnit) : (s.withTime f).switch = s.switch := rfl
@[simp] theorem State.withTime_twinUnit (s : State) (f : TimeUnit → TimeUnit) : (s.withTime f).twinUnit = s.twinUnit := rfl
@[simp] theorem State.withTime_sent (s : State) (f : TimeUnit → TimeUnit) : (s.withTime f).sent = s.sent := rfl
@[simp] theorem State.withTime_freeDraws (s : State) (f : TimeUnit → TimeUnit) : (s.withTime f).freeDraws = s.freeDraws := rfl
@[simp] theorem State.withTime_pending (s : State) (f : TimeUnit → TimeUnit) : (s.withTime f).pending = s.pending := rfl

@[simp] theorem State.withForming_regs (s : State) (f : Forming → Forming) : (s.withForming f).regs = s.regs := rfl
@[simp] theorem State.withForming_updates (s : State) (f : Forming → Forming) : (s.withForming f).updates = s.updates := rfl
@[simp] theorem State.withForming_thisClock (s : State) (f : Forming → Forming) : (s.withForming f).thisClock = s.thisClock := rfl
@[simp] theorem State.withForming_softResets (s : State) (f : Forming → Forming) : (s.withForming f).softResets = s.softResets := rfl
@[simp] theorem State.withForming_mem (s : State) (f : Forming → Forming) : (s.withForming f).mem = s.mem := rfl
@[simp] theorem State.withForming_readLatch (s : State) (f : Forming → Forming) : (s.withForming f).readLatch = s.readLatch := rfl
@[simp] theorem State.withForming_writeHold (s : State) (f : Forming → Forming) : (s.withForming f).writeHold = s.writeHold := rfl
@[simp] theorem State.withForming_time (s : State) (f : Forming → Forming) : (s.withForming f).time = s.time := rfl
@[simp] theorem State.withForming_lineA (s : State) (f : Forming → Forming) : (s.withForming f).lineA = s.lineA := rfl
@[simp] theorem State.withForming_lineB (s : State) (f : Forming → Forming) : (s.withForming f).lineB = s.lineB := rfl
@[simp] theorem State.withForming_forming (s : State) (f : Forming → Forming) : (s.withForming f).forming = f s.forming := rfl
@[simp] theorem State.withForming_loafA (s : State) (f : Forming → Forming) : (s.withForming f).loafA = s.loafA := rfl
@[simp] theorem State.withForming_loafB (s : State) (f : Forming → Forming) : (s.withForming f).loafB = s.loafB := rfl
@[simp] theorem State.withForming_capture (s : State) (f : Forming → Forming) : (s.withForming f).capture = s.capture := rfl
@[simp] theorem State.withForming_selection (s : State) (f : Forming → Forming) : (s.withForming f).selection = s.selection := rfl
@[simp] theorem State.withForming_holdCopy (s : State) (f : Forming → Forming) : (s.withForming f).holdCopy = s.holdCopy := rfl
@[simp] theorem State.withForming_nextSeq (s : State) (f : Forming → Forming) : (s.withForming f).nextSeq = s.nextSeq := rfl
@[simp] theorem State.withForming_brownoutMark (s : State) (f : Forming → Forming) : (s.withForming f).brownoutMark = s.brownoutMark := rfl
@[simp] theorem State.withForming_otp (s : State) (f : Forming → Forming) : (s.withForming f).otp = s.otp := rfl
@[simp] theorem State.withForming_sec (s : State) (f : Forming → Forming) : (s.withForming f).sec = s.sec := rfl
@[simp] theorem State.withForming_bridges (s : State) (f : Forming → Forming) : (s.withForming f).bridges = s.bridges := rfl
@[simp] theorem State.withForming_health (s : State) (f : Forming → Forming) : (s.withForming f).health = s.health := rfl
@[simp] theorem State.withForming_tags (s : State) (f : Forming → Forming) : (s.withForming f).tags = s.tags := rfl
@[simp] theorem State.withForming_engMoves (s : State) (f : Forming → Forming) : (s.withForming f).engMoves = s.engMoves := rfl
@[simp] theorem State.withForming_sharedStores (s : State) (f : Forming → Forming) : (s.withForming f).sharedStores = s.sharedStores := rfl
@[simp] theorem State.withForming_rolesA (s : State) (f : Forming → Forming) : (s.withForming f).rolesA = s.rolesA := rfl
@[simp] theorem State.withForming_rolesB (s : State) (f : Forming → Forming) : (s.withForming f).rolesB = s.rolesB := rfl
@[simp] theorem State.withForming_semA (s : State) (f : Forming → Forming) : (s.withForming f).semA = s.semA := rfl
@[simp] theorem State.withForming_semB (s : State) (f : Forming → Forming) : (s.withForming f).semB = s.semB := rfl
@[simp] theorem State.withForming_kneaderA (s : State) (f : Forming → Forming) : (s.withForming f).kneaderA = s.kneaderA := rfl
@[simp] theorem State.withForming_kneaderB (s : State) (f : Forming → Forming) : (s.withForming f).kneaderB = s.kneaderB := rfl
@[simp] theorem State.withForming_staged (s : State) (f : Forming → Forming) : (s.withForming f).staged = s.staged := rfl
@[simp] theorem State.withForming_held (s : State) (f : Forming → Forming) : (s.withForming f).held = s.held := rfl
@[simp] theorem State.withForming_canBus (s : State) (f : Forming → Forming) : (s.withForming f).canBus = s.canBus := rfl
@[simp] theorem State.withForming_mvbBus (s : State) (f : Forming → Forming) : (s.withForming f).mvbBus = s.mvbBus := rfl
@[simp] theorem State.withForming_trdpSeen (s : State) (f : Forming → Forming) : (s.withForming f).trdpSeen = s.trdpSeen := rfl
@[simp] theorem State.withForming_power (s : State) (f : Forming → Forming) : (s.withForming f).power = s.power := rfl
@[simp] theorem State.withForming_proof (s : State) (f : Forming → Forming) : (s.withForming f).proof = s.proof := rfl
@[simp] theorem State.withForming_switch (s : State) (f : Forming → Forming) : (s.withForming f).switch = s.switch := rfl
@[simp] theorem State.withForming_twinUnit (s : State) (f : Forming → Forming) : (s.withForming f).twinUnit = s.twinUnit := rfl
@[simp] theorem State.withForming_sent (s : State) (f : Forming → Forming) : (s.withForming f).sent = s.sent := rfl
@[simp] theorem State.withForming_freeDraws (s : State) (f : Forming → Forming) : (s.withForming f).freeDraws = s.freeDraws := rfl
@[simp] theorem State.withForming_pending (s : State) (f : Forming → Forming) : (s.withForming f).pending = s.pending := rfl

@[simp] theorem State.withSec_regs (s : State) (f : Sec → Sec) : (s.withSec f).regs = s.regs := rfl
@[simp] theorem State.withSec_updates (s : State) (f : Sec → Sec) : (s.withSec f).updates = s.updates := rfl
@[simp] theorem State.withSec_thisClock (s : State) (f : Sec → Sec) : (s.withSec f).thisClock = s.thisClock := rfl
@[simp] theorem State.withSec_softResets (s : State) (f : Sec → Sec) : (s.withSec f).softResets = s.softResets := rfl
@[simp] theorem State.withSec_mem (s : State) (f : Sec → Sec) : (s.withSec f).mem = s.mem := rfl
@[simp] theorem State.withSec_readLatch (s : State) (f : Sec → Sec) : (s.withSec f).readLatch = s.readLatch := rfl
@[simp] theorem State.withSec_writeHold (s : State) (f : Sec → Sec) : (s.withSec f).writeHold = s.writeHold := rfl
@[simp] theorem State.withSec_time (s : State) (f : Sec → Sec) : (s.withSec f).time = s.time := rfl
@[simp] theorem State.withSec_lineA (s : State) (f : Sec → Sec) : (s.withSec f).lineA = s.lineA := rfl
@[simp] theorem State.withSec_lineB (s : State) (f : Sec → Sec) : (s.withSec f).lineB = s.lineB := rfl
@[simp] theorem State.withSec_forming (s : State) (f : Sec → Sec) : (s.withSec f).forming = s.forming := rfl
@[simp] theorem State.withSec_loafA (s : State) (f : Sec → Sec) : (s.withSec f).loafA = s.loafA := rfl
@[simp] theorem State.withSec_loafB (s : State) (f : Sec → Sec) : (s.withSec f).loafB = s.loafB := rfl
@[simp] theorem State.withSec_capture (s : State) (f : Sec → Sec) : (s.withSec f).capture = s.capture := rfl
@[simp] theorem State.withSec_selection (s : State) (f : Sec → Sec) : (s.withSec f).selection = s.selection := rfl
@[simp] theorem State.withSec_holdCopy (s : State) (f : Sec → Sec) : (s.withSec f).holdCopy = s.holdCopy := rfl
@[simp] theorem State.withSec_nextSeq (s : State) (f : Sec → Sec) : (s.withSec f).nextSeq = s.nextSeq := rfl
@[simp] theorem State.withSec_brownoutMark (s : State) (f : Sec → Sec) : (s.withSec f).brownoutMark = s.brownoutMark := rfl
@[simp] theorem State.withSec_otp (s : State) (f : Sec → Sec) : (s.withSec f).otp = s.otp := rfl
@[simp] theorem State.withSec_sec (s : State) (f : Sec → Sec) : (s.withSec f).sec = f s.sec := rfl
@[simp] theorem State.withSec_bridges (s : State) (f : Sec → Sec) : (s.withSec f).bridges = s.bridges := rfl
@[simp] theorem State.withSec_health (s : State) (f : Sec → Sec) : (s.withSec f).health = s.health := rfl
@[simp] theorem State.withSec_tags (s : State) (f : Sec → Sec) : (s.withSec f).tags = s.tags := rfl
@[simp] theorem State.withSec_engMoves (s : State) (f : Sec → Sec) : (s.withSec f).engMoves = s.engMoves := rfl
@[simp] theorem State.withSec_sharedStores (s : State) (f : Sec → Sec) : (s.withSec f).sharedStores = s.sharedStores := rfl
@[simp] theorem State.withSec_rolesA (s : State) (f : Sec → Sec) : (s.withSec f).rolesA = s.rolesA := rfl
@[simp] theorem State.withSec_rolesB (s : State) (f : Sec → Sec) : (s.withSec f).rolesB = s.rolesB := rfl
@[simp] theorem State.withSec_semA (s : State) (f : Sec → Sec) : (s.withSec f).semA = s.semA := rfl
@[simp] theorem State.withSec_semB (s : State) (f : Sec → Sec) : (s.withSec f).semB = s.semB := rfl
@[simp] theorem State.withSec_kneaderA (s : State) (f : Sec → Sec) : (s.withSec f).kneaderA = s.kneaderA := rfl
@[simp] theorem State.withSec_kneaderB (s : State) (f : Sec → Sec) : (s.withSec f).kneaderB = s.kneaderB := rfl
@[simp] theorem State.withSec_staged (s : State) (f : Sec → Sec) : (s.withSec f).staged = s.staged := rfl
@[simp] theorem State.withSec_held (s : State) (f : Sec → Sec) : (s.withSec f).held = s.held := rfl
@[simp] theorem State.withSec_canBus (s : State) (f : Sec → Sec) : (s.withSec f).canBus = s.canBus := rfl
@[simp] theorem State.withSec_mvbBus (s : State) (f : Sec → Sec) : (s.withSec f).mvbBus = s.mvbBus := rfl
@[simp] theorem State.withSec_trdpSeen (s : State) (f : Sec → Sec) : (s.withSec f).trdpSeen = s.trdpSeen := rfl
@[simp] theorem State.withSec_power (s : State) (f : Sec → Sec) : (s.withSec f).power = s.power := rfl
@[simp] theorem State.withSec_proof (s : State) (f : Sec → Sec) : (s.withSec f).proof = s.proof := rfl
@[simp] theorem State.withSec_switch (s : State) (f : Sec → Sec) : (s.withSec f).switch = s.switch := rfl
@[simp] theorem State.withSec_twinUnit (s : State) (f : Sec → Sec) : (s.withSec f).twinUnit = s.twinUnit := rfl
@[simp] theorem State.withSec_sent (s : State) (f : Sec → Sec) : (s.withSec f).sent = s.sent := rfl
@[simp] theorem State.withSec_freeDraws (s : State) (f : Sec → Sec) : (s.withSec f).freeDraws = s.freeDraws := rfl
@[simp] theorem State.withSec_pending (s : State) (f : Sec → Sec) : (s.withSec f).pending = s.pending := rfl

@[simp] theorem State.withTwin_regs (s : State) (f : Twin → Twin) : (s.withTwin f).regs = s.regs := rfl
@[simp] theorem State.withTwin_updates (s : State) (f : Twin → Twin) : (s.withTwin f).updates = s.updates := rfl
@[simp] theorem State.withTwin_thisClock (s : State) (f : Twin → Twin) : (s.withTwin f).thisClock = s.thisClock := rfl
@[simp] theorem State.withTwin_softResets (s : State) (f : Twin → Twin) : (s.withTwin f).softResets = s.softResets := rfl
@[simp] theorem State.withTwin_mem (s : State) (f : Twin → Twin) : (s.withTwin f).mem = s.mem := rfl
@[simp] theorem State.withTwin_readLatch (s : State) (f : Twin → Twin) : (s.withTwin f).readLatch = s.readLatch := rfl
@[simp] theorem State.withTwin_writeHold (s : State) (f : Twin → Twin) : (s.withTwin f).writeHold = s.writeHold := rfl
@[simp] theorem State.withTwin_time (s : State) (f : Twin → Twin) : (s.withTwin f).time = s.time := rfl
@[simp] theorem State.withTwin_lineA (s : State) (f : Twin → Twin) : (s.withTwin f).lineA = s.lineA := rfl
@[simp] theorem State.withTwin_lineB (s : State) (f : Twin → Twin) : (s.withTwin f).lineB = s.lineB := rfl
@[simp] theorem State.withTwin_forming (s : State) (f : Twin → Twin) : (s.withTwin f).forming = s.forming := rfl
@[simp] theorem State.withTwin_loafA (s : State) (f : Twin → Twin) : (s.withTwin f).loafA = s.loafA := rfl
@[simp] theorem State.withTwin_loafB (s : State) (f : Twin → Twin) : (s.withTwin f).loafB = s.loafB := rfl
@[simp] theorem State.withTwin_capture (s : State) (f : Twin → Twin) : (s.withTwin f).capture = s.capture := rfl
@[simp] theorem State.withTwin_selection (s : State) (f : Twin → Twin) : (s.withTwin f).selection = s.selection := rfl
@[simp] theorem State.withTwin_holdCopy (s : State) (f : Twin → Twin) : (s.withTwin f).holdCopy = s.holdCopy := rfl
@[simp] theorem State.withTwin_nextSeq (s : State) (f : Twin → Twin) : (s.withTwin f).nextSeq = s.nextSeq := rfl
@[simp] theorem State.withTwin_brownoutMark (s : State) (f : Twin → Twin) : (s.withTwin f).brownoutMark = s.brownoutMark := rfl
@[simp] theorem State.withTwin_otp (s : State) (f : Twin → Twin) : (s.withTwin f).otp = s.otp := rfl
@[simp] theorem State.withTwin_sec (s : State) (f : Twin → Twin) : (s.withTwin f).sec = s.sec := rfl
@[simp] theorem State.withTwin_bridges (s : State) (f : Twin → Twin) : (s.withTwin f).bridges = s.bridges := rfl
@[simp] theorem State.withTwin_health (s : State) (f : Twin → Twin) : (s.withTwin f).health = s.health := rfl
@[simp] theorem State.withTwin_tags (s : State) (f : Twin → Twin) : (s.withTwin f).tags = s.tags := rfl
@[simp] theorem State.withTwin_engMoves (s : State) (f : Twin → Twin) : (s.withTwin f).engMoves = s.engMoves := rfl
@[simp] theorem State.withTwin_sharedStores (s : State) (f : Twin → Twin) : (s.withTwin f).sharedStores = s.sharedStores := rfl
@[simp] theorem State.withTwin_rolesA (s : State) (f : Twin → Twin) : (s.withTwin f).rolesA = s.rolesA := rfl
@[simp] theorem State.withTwin_rolesB (s : State) (f : Twin → Twin) : (s.withTwin f).rolesB = s.rolesB := rfl
@[simp] theorem State.withTwin_semA (s : State) (f : Twin → Twin) : (s.withTwin f).semA = s.semA := rfl
@[simp] theorem State.withTwin_semB (s : State) (f : Twin → Twin) : (s.withTwin f).semB = s.semB := rfl
@[simp] theorem State.withTwin_kneaderA (s : State) (f : Twin → Twin) : (s.withTwin f).kneaderA = s.kneaderA := rfl
@[simp] theorem State.withTwin_kneaderB (s : State) (f : Twin → Twin) : (s.withTwin f).kneaderB = s.kneaderB := rfl
@[simp] theorem State.withTwin_staged (s : State) (f : Twin → Twin) : (s.withTwin f).staged = s.staged := rfl
@[simp] theorem State.withTwin_held (s : State) (f : Twin → Twin) : (s.withTwin f).held = s.held := rfl
@[simp] theorem State.withTwin_canBus (s : State) (f : Twin → Twin) : (s.withTwin f).canBus = s.canBus := rfl
@[simp] theorem State.withTwin_mvbBus (s : State) (f : Twin → Twin) : (s.withTwin f).mvbBus = s.mvbBus := rfl
@[simp] theorem State.withTwin_trdpSeen (s : State) (f : Twin → Twin) : (s.withTwin f).trdpSeen = s.trdpSeen := rfl
@[simp] theorem State.withTwin_power (s : State) (f : Twin → Twin) : (s.withTwin f).power = s.power := rfl
@[simp] theorem State.withTwin_proof (s : State) (f : Twin → Twin) : (s.withTwin f).proof = s.proof := rfl
@[simp] theorem State.withTwin_switch (s : State) (f : Twin → Twin) : (s.withTwin f).switch = s.switch := rfl
@[simp] theorem State.withTwin_twinUnit (s : State) (f : Twin → Twin) : (s.withTwin f).twinUnit = f s.twinUnit := rfl
@[simp] theorem State.withTwin_sent (s : State) (f : Twin → Twin) : (s.withTwin f).sent = s.sent := rfl
@[simp] theorem State.withTwin_freeDraws (s : State) (f : Twin → Twin) : (s.withTwin f).freeDraws = s.freeDraws := rfl
@[simp] theorem State.withTwin_pending (s : State) (f : Twin → Twin) : (s.withTwin f).pending = s.pending := rfl

@[simp] theorem State.withSwitch_regs (s : State) (f : Switch → Switch) : (s.withSwitch f).regs = s.regs := rfl
@[simp] theorem State.withSwitch_updates (s : State) (f : Switch → Switch) : (s.withSwitch f).updates = s.updates := rfl
@[simp] theorem State.withSwitch_thisClock (s : State) (f : Switch → Switch) : (s.withSwitch f).thisClock = s.thisClock := rfl
@[simp] theorem State.withSwitch_softResets (s : State) (f : Switch → Switch) : (s.withSwitch f).softResets = s.softResets := rfl
@[simp] theorem State.withSwitch_mem (s : State) (f : Switch → Switch) : (s.withSwitch f).mem = s.mem := rfl
@[simp] theorem State.withSwitch_readLatch (s : State) (f : Switch → Switch) : (s.withSwitch f).readLatch = s.readLatch := rfl
@[simp] theorem State.withSwitch_writeHold (s : State) (f : Switch → Switch) : (s.withSwitch f).writeHold = s.writeHold := rfl
@[simp] theorem State.withSwitch_time (s : State) (f : Switch → Switch) : (s.withSwitch f).time = s.time := rfl
@[simp] theorem State.withSwitch_lineA (s : State) (f : Switch → Switch) : (s.withSwitch f).lineA = s.lineA := rfl
@[simp] theorem State.withSwitch_lineB (s : State) (f : Switch → Switch) : (s.withSwitch f).lineB = s.lineB := rfl
@[simp] theorem State.withSwitch_forming (s : State) (f : Switch → Switch) : (s.withSwitch f).forming = s.forming := rfl
@[simp] theorem State.withSwitch_loafA (s : State) (f : Switch → Switch) : (s.withSwitch f).loafA = s.loafA := rfl
@[simp] theorem State.withSwitch_loafB (s : State) (f : Switch → Switch) : (s.withSwitch f).loafB = s.loafB := rfl
@[simp] theorem State.withSwitch_capture (s : State) (f : Switch → Switch) : (s.withSwitch f).capture = s.capture := rfl
@[simp] theorem State.withSwitch_selection (s : State) (f : Switch → Switch) : (s.withSwitch f).selection = s.selection := rfl
@[simp] theorem State.withSwitch_holdCopy (s : State) (f : Switch → Switch) : (s.withSwitch f).holdCopy = s.holdCopy := rfl
@[simp] theorem State.withSwitch_nextSeq (s : State) (f : Switch → Switch) : (s.withSwitch f).nextSeq = s.nextSeq := rfl
@[simp] theorem State.withSwitch_brownoutMark (s : State) (f : Switch → Switch) : (s.withSwitch f).brownoutMark = s.brownoutMark := rfl
@[simp] theorem State.withSwitch_otp (s : State) (f : Switch → Switch) : (s.withSwitch f).otp = s.otp := rfl
@[simp] theorem State.withSwitch_sec (s : State) (f : Switch → Switch) : (s.withSwitch f).sec = s.sec := rfl
@[simp] theorem State.withSwitch_bridges (s : State) (f : Switch → Switch) : (s.withSwitch f).bridges = s.bridges := rfl
@[simp] theorem State.withSwitch_health (s : State) (f : Switch → Switch) : (s.withSwitch f).health = s.health := rfl
@[simp] theorem State.withSwitch_tags (s : State) (f : Switch → Switch) : (s.withSwitch f).tags = s.tags := rfl
@[simp] theorem State.withSwitch_engMoves (s : State) (f : Switch → Switch) : (s.withSwitch f).engMoves = s.engMoves := rfl
@[simp] theorem State.withSwitch_sharedStores (s : State) (f : Switch → Switch) : (s.withSwitch f).sharedStores = s.sharedStores := rfl
@[simp] theorem State.withSwitch_rolesA (s : State) (f : Switch → Switch) : (s.withSwitch f).rolesA = s.rolesA := rfl
@[simp] theorem State.withSwitch_rolesB (s : State) (f : Switch → Switch) : (s.withSwitch f).rolesB = s.rolesB := rfl
@[simp] theorem State.withSwitch_semA (s : State) (f : Switch → Switch) : (s.withSwitch f).semA = s.semA := rfl
@[simp] theorem State.withSwitch_semB (s : State) (f : Switch → Switch) : (s.withSwitch f).semB = s.semB := rfl
@[simp] theorem State.withSwitch_kneaderA (s : State) (f : Switch → Switch) : (s.withSwitch f).kneaderA = s.kneaderA := rfl
@[simp] theorem State.withSwitch_kneaderB (s : State) (f : Switch → Switch) : (s.withSwitch f).kneaderB = s.kneaderB := rfl
@[simp] theorem State.withSwitch_staged (s : State) (f : Switch → Switch) : (s.withSwitch f).staged = s.staged := rfl
@[simp] theorem State.withSwitch_held (s : State) (f : Switch → Switch) : (s.withSwitch f).held = s.held := rfl
@[simp] theorem State.withSwitch_canBus (s : State) (f : Switch → Switch) : (s.withSwitch f).canBus = s.canBus := rfl
@[simp] theorem State.withSwitch_mvbBus (s : State) (f : Switch → Switch) : (s.withSwitch f).mvbBus = s.mvbBus := rfl
@[simp] theorem State.withSwitch_trdpSeen (s : State) (f : Switch → Switch) : (s.withSwitch f).trdpSeen = s.trdpSeen := rfl
@[simp] theorem State.withSwitch_power (s : State) (f : Switch → Switch) : (s.withSwitch f).power = s.power := rfl
@[simp] theorem State.withSwitch_proof (s : State) (f : Switch → Switch) : (s.withSwitch f).proof = s.proof := rfl
@[simp] theorem State.withSwitch_switch (s : State) (f : Switch → Switch) : (s.withSwitch f).switch = f s.switch := rfl
@[simp] theorem State.withSwitch_twinUnit (s : State) (f : Switch → Switch) : (s.withSwitch f).twinUnit = s.twinUnit := rfl
@[simp] theorem State.withSwitch_sent (s : State) (f : Switch → Switch) : (s.withSwitch f).sent = s.sent := rfl
@[simp] theorem State.withSwitch_freeDraws (s : State) (f : Switch → Switch) : (s.withSwitch f).freeDraws = s.freeDraws := rfl
@[simp] theorem State.withSwitch_pending (s : State) (f : Switch → Switch) : (s.withSwitch f).pending = s.pending := rfl

@[simp] theorem State.withCan_regs (s : State) (c : Nat) (f : CanBus → CanBus) : (s.withCan c f).regs = s.regs := rfl
@[simp] theorem State.withCan_updates (s : State) (c : Nat) (f : CanBus → CanBus) : (s.withCan c f).updates = s.updates := rfl
@[simp] theorem State.withCan_thisClock (s : State) (c : Nat) (f : CanBus → CanBus) : (s.withCan c f).thisClock = s.thisClock := rfl
@[simp] theorem State.withCan_softResets (s : State) (c : Nat) (f : CanBus → CanBus) : (s.withCan c f).softResets = s.softResets := rfl
@[simp] theorem State.withCan_mem (s : State) (c : Nat) (f : CanBus → CanBus) : (s.withCan c f).mem = s.mem := rfl
@[simp] theorem State.withCan_readLatch (s : State) (c : Nat) (f : CanBus → CanBus) : (s.withCan c f).readLatch = s.readLatch := rfl
@[simp] theorem State.withCan_writeHold (s : State) (c : Nat) (f : CanBus → CanBus) : (s.withCan c f).writeHold = s.writeHold := rfl
@[simp] theorem State.withCan_time (s : State) (c : Nat) (f : CanBus → CanBus) : (s.withCan c f).time = s.time := rfl
@[simp] theorem State.withCan_lineA (s : State) (c : Nat) (f : CanBus → CanBus) : (s.withCan c f).lineA = s.lineA := rfl
@[simp] theorem State.withCan_lineB (s : State) (c : Nat) (f : CanBus → CanBus) : (s.withCan c f).lineB = s.lineB := rfl
@[simp] theorem State.withCan_forming (s : State) (c : Nat) (f : CanBus → CanBus) : (s.withCan c f).forming = s.forming := rfl
@[simp] theorem State.withCan_loafA (s : State) (c : Nat) (f : CanBus → CanBus) : (s.withCan c f).loafA = s.loafA := rfl
@[simp] theorem State.withCan_loafB (s : State) (c : Nat) (f : CanBus → CanBus) : (s.withCan c f).loafB = s.loafB := rfl
@[simp] theorem State.withCan_capture (s : State) (c : Nat) (f : CanBus → CanBus) : (s.withCan c f).capture = s.capture := rfl
@[simp] theorem State.withCan_selection (s : State) (c : Nat) (f : CanBus → CanBus) : (s.withCan c f).selection = s.selection := rfl
@[simp] theorem State.withCan_holdCopy (s : State) (c : Nat) (f : CanBus → CanBus) : (s.withCan c f).holdCopy = s.holdCopy := rfl
@[simp] theorem State.withCan_nextSeq (s : State) (c : Nat) (f : CanBus → CanBus) : (s.withCan c f).nextSeq = s.nextSeq := rfl
@[simp] theorem State.withCan_brownoutMark (s : State) (c : Nat) (f : CanBus → CanBus) : (s.withCan c f).brownoutMark = s.brownoutMark := rfl
@[simp] theorem State.withCan_otp (s : State) (c : Nat) (f : CanBus → CanBus) : (s.withCan c f).otp = s.otp := rfl
@[simp] theorem State.withCan_sec (s : State) (c : Nat) (f : CanBus → CanBus) : (s.withCan c f).sec = s.sec := rfl
@[simp] theorem State.withCan_bridges (s : State) (c : Nat) (f : CanBus → CanBus) : (s.withCan c f).bridges = s.bridges := rfl
@[simp] theorem State.withCan_health (s : State) (c : Nat) (f : CanBus → CanBus) : (s.withCan c f).health = s.health := rfl
@[simp] theorem State.withCan_tags (s : State) (c : Nat) (f : CanBus → CanBus) : (s.withCan c f).tags = s.tags := rfl
@[simp] theorem State.withCan_engMoves (s : State) (c : Nat) (f : CanBus → CanBus) : (s.withCan c f).engMoves = s.engMoves := rfl
@[simp] theorem State.withCan_sharedStores (s : State) (c : Nat) (f : CanBus → CanBus) : (s.withCan c f).sharedStores = s.sharedStores := rfl
@[simp] theorem State.withCan_rolesA (s : State) (c : Nat) (f : CanBus → CanBus) : (s.withCan c f).rolesA = s.rolesA := rfl
@[simp] theorem State.withCan_rolesB (s : State) (c : Nat) (f : CanBus → CanBus) : (s.withCan c f).rolesB = s.rolesB := rfl
@[simp] theorem State.withCan_semA (s : State) (c : Nat) (f : CanBus → CanBus) : (s.withCan c f).semA = s.semA := rfl
@[simp] theorem State.withCan_semB (s : State) (c : Nat) (f : CanBus → CanBus) : (s.withCan c f).semB = s.semB := rfl
@[simp] theorem State.withCan_kneaderA (s : State) (c : Nat) (f : CanBus → CanBus) : (s.withCan c f).kneaderA = s.kneaderA := rfl
@[simp] theorem State.withCan_kneaderB (s : State) (c : Nat) (f : CanBus → CanBus) : (s.withCan c f).kneaderB = s.kneaderB := rfl
@[simp] theorem State.withCan_staged (s : State) (c : Nat) (f : CanBus → CanBus) : (s.withCan c f).staged = s.staged := rfl
@[simp] theorem State.withCan_held (s : State) (c : Nat) (f : CanBus → CanBus) : (s.withCan c f).held = s.held := rfl
@[simp] theorem State.withCan_mvbBus (s : State) (c : Nat) (f : CanBus → CanBus) : (s.withCan c f).mvbBus = s.mvbBus := rfl
@[simp] theorem State.withCan_trdpSeen (s : State) (c : Nat) (f : CanBus → CanBus) : (s.withCan c f).trdpSeen = s.trdpSeen := rfl
@[simp] theorem State.withCan_power (s : State) (c : Nat) (f : CanBus → CanBus) : (s.withCan c f).power = s.power := rfl
@[simp] theorem State.withCan_proof (s : State) (c : Nat) (f : CanBus → CanBus) : (s.withCan c f).proof = s.proof := rfl
@[simp] theorem State.withCan_switch (s : State) (c : Nat) (f : CanBus → CanBus) : (s.withCan c f).switch = s.switch := rfl
@[simp] theorem State.withCan_twinUnit (s : State) (c : Nat) (f : CanBus → CanBus) : (s.withCan c f).twinUnit = s.twinUnit := rfl
@[simp] theorem State.withCan_sent (s : State) (c : Nat) (f : CanBus → CanBus) : (s.withCan c f).sent = s.sent := rfl
@[simp] theorem State.withCan_freeDraws (s : State) (c : Nat) (f : CanBus → CanBus) : (s.withCan c f).freeDraws = s.freeDraws := rfl
@[simp] theorem State.withCan_pending (s : State) (c : Nat) (f : CanBus → CanBus) : (s.withCan c f).pending = s.pending := rfl

@[simp] theorem State.withMvb_regs (s : State) (j : Nat) (f : MvbBus → MvbBus) : (s.withMvb j f).regs = s.regs := rfl
@[simp] theorem State.withMvb_updates (s : State) (j : Nat) (f : MvbBus → MvbBus) : (s.withMvb j f).updates = s.updates := rfl
@[simp] theorem State.withMvb_thisClock (s : State) (j : Nat) (f : MvbBus → MvbBus) : (s.withMvb j f).thisClock = s.thisClock := rfl
@[simp] theorem State.withMvb_softResets (s : State) (j : Nat) (f : MvbBus → MvbBus) : (s.withMvb j f).softResets = s.softResets := rfl
@[simp] theorem State.withMvb_mem (s : State) (j : Nat) (f : MvbBus → MvbBus) : (s.withMvb j f).mem = s.mem := rfl
@[simp] theorem State.withMvb_readLatch (s : State) (j : Nat) (f : MvbBus → MvbBus) : (s.withMvb j f).readLatch = s.readLatch := rfl
@[simp] theorem State.withMvb_writeHold (s : State) (j : Nat) (f : MvbBus → MvbBus) : (s.withMvb j f).writeHold = s.writeHold := rfl
@[simp] theorem State.withMvb_time (s : State) (j : Nat) (f : MvbBus → MvbBus) : (s.withMvb j f).time = s.time := rfl
@[simp] theorem State.withMvb_lineA (s : State) (j : Nat) (f : MvbBus → MvbBus) : (s.withMvb j f).lineA = s.lineA := rfl
@[simp] theorem State.withMvb_lineB (s : State) (j : Nat) (f : MvbBus → MvbBus) : (s.withMvb j f).lineB = s.lineB := rfl
@[simp] theorem State.withMvb_forming (s : State) (j : Nat) (f : MvbBus → MvbBus) : (s.withMvb j f).forming = s.forming := rfl
@[simp] theorem State.withMvb_loafA (s : State) (j : Nat) (f : MvbBus → MvbBus) : (s.withMvb j f).loafA = s.loafA := rfl
@[simp] theorem State.withMvb_loafB (s : State) (j : Nat) (f : MvbBus → MvbBus) : (s.withMvb j f).loafB = s.loafB := rfl
@[simp] theorem State.withMvb_capture (s : State) (j : Nat) (f : MvbBus → MvbBus) : (s.withMvb j f).capture = s.capture := rfl
@[simp] theorem State.withMvb_selection (s : State) (j : Nat) (f : MvbBus → MvbBus) : (s.withMvb j f).selection = s.selection := rfl
@[simp] theorem State.withMvb_holdCopy (s : State) (j : Nat) (f : MvbBus → MvbBus) : (s.withMvb j f).holdCopy = s.holdCopy := rfl
@[simp] theorem State.withMvb_nextSeq (s : State) (j : Nat) (f : MvbBus → MvbBus) : (s.withMvb j f).nextSeq = s.nextSeq := rfl
@[simp] theorem State.withMvb_brownoutMark (s : State) (j : Nat) (f : MvbBus → MvbBus) : (s.withMvb j f).brownoutMark = s.brownoutMark := rfl
@[simp] theorem State.withMvb_otp (s : State) (j : Nat) (f : MvbBus → MvbBus) : (s.withMvb j f).otp = s.otp := rfl
@[simp] theorem State.withMvb_sec (s : State) (j : Nat) (f : MvbBus → MvbBus) : (s.withMvb j f).sec = s.sec := rfl
@[simp] theorem State.withMvb_bridges (s : State) (j : Nat) (f : MvbBus → MvbBus) : (s.withMvb j f).bridges = s.bridges := rfl
@[simp] theorem State.withMvb_health (s : State) (j : Nat) (f : MvbBus → MvbBus) : (s.withMvb j f).health = s.health := rfl
@[simp] theorem State.withMvb_tags (s : State) (j : Nat) (f : MvbBus → MvbBus) : (s.withMvb j f).tags = s.tags := rfl
@[simp] theorem State.withMvb_engMoves (s : State) (j : Nat) (f : MvbBus → MvbBus) : (s.withMvb j f).engMoves = s.engMoves := rfl
@[simp] theorem State.withMvb_sharedStores (s : State) (j : Nat) (f : MvbBus → MvbBus) : (s.withMvb j f).sharedStores = s.sharedStores := rfl
@[simp] theorem State.withMvb_rolesA (s : State) (j : Nat) (f : MvbBus → MvbBus) : (s.withMvb j f).rolesA = s.rolesA := rfl
@[simp] theorem State.withMvb_rolesB (s : State) (j : Nat) (f : MvbBus → MvbBus) : (s.withMvb j f).rolesB = s.rolesB := rfl
@[simp] theorem State.withMvb_semA (s : State) (j : Nat) (f : MvbBus → MvbBus) : (s.withMvb j f).semA = s.semA := rfl
@[simp] theorem State.withMvb_semB (s : State) (j : Nat) (f : MvbBus → MvbBus) : (s.withMvb j f).semB = s.semB := rfl
@[simp] theorem State.withMvb_kneaderA (s : State) (j : Nat) (f : MvbBus → MvbBus) : (s.withMvb j f).kneaderA = s.kneaderA := rfl
@[simp] theorem State.withMvb_kneaderB (s : State) (j : Nat) (f : MvbBus → MvbBus) : (s.withMvb j f).kneaderB = s.kneaderB := rfl
@[simp] theorem State.withMvb_staged (s : State) (j : Nat) (f : MvbBus → MvbBus) : (s.withMvb j f).staged = s.staged := rfl
@[simp] theorem State.withMvb_held (s : State) (j : Nat) (f : MvbBus → MvbBus) : (s.withMvb j f).held = s.held := rfl
@[simp] theorem State.withMvb_canBus (s : State) (j : Nat) (f : MvbBus → MvbBus) : (s.withMvb j f).canBus = s.canBus := rfl
@[simp] theorem State.withMvb_trdpSeen (s : State) (j : Nat) (f : MvbBus → MvbBus) : (s.withMvb j f).trdpSeen = s.trdpSeen := rfl
@[simp] theorem State.withMvb_power (s : State) (j : Nat) (f : MvbBus → MvbBus) : (s.withMvb j f).power = s.power := rfl
@[simp] theorem State.withMvb_proof (s : State) (j : Nat) (f : MvbBus → MvbBus) : (s.withMvb j f).proof = s.proof := rfl
@[simp] theorem State.withMvb_switch (s : State) (j : Nat) (f : MvbBus → MvbBus) : (s.withMvb j f).switch = s.switch := rfl
@[simp] theorem State.withMvb_twinUnit (s : State) (j : Nat) (f : MvbBus → MvbBus) : (s.withMvb j f).twinUnit = s.twinUnit := rfl
@[simp] theorem State.withMvb_sent (s : State) (j : Nat) (f : MvbBus → MvbBus) : (s.withMvb j f).sent = s.sent := rfl
@[simp] theorem State.withMvb_freeDraws (s : State) (j : Nat) (f : MvbBus → MvbBus) : (s.withMvb j f).freeDraws = s.freeDraws := rfl
@[simp] theorem State.withMvb_pending (s : State) (j : Nat) (f : MvbBus → MvbBus) : (s.withMvb j f).pending = s.pending := rfl

@[simp] theorem State.withTag_regs (s : State) (m : Nat) (f : TagPort → TagPort) : (s.withTag m f).regs = s.regs := rfl
@[simp] theorem State.withTag_updates (s : State) (m : Nat) (f : TagPort → TagPort) : (s.withTag m f).updates = s.updates := rfl
@[simp] theorem State.withTag_thisClock (s : State) (m : Nat) (f : TagPort → TagPort) : (s.withTag m f).thisClock = s.thisClock := rfl
@[simp] theorem State.withTag_softResets (s : State) (m : Nat) (f : TagPort → TagPort) : (s.withTag m f).softResets = s.softResets := rfl
@[simp] theorem State.withTag_mem (s : State) (m : Nat) (f : TagPort → TagPort) : (s.withTag m f).mem = s.mem := rfl
@[simp] theorem State.withTag_readLatch (s : State) (m : Nat) (f : TagPort → TagPort) : (s.withTag m f).readLatch = s.readLatch := rfl
@[simp] theorem State.withTag_writeHold (s : State) (m : Nat) (f : TagPort → TagPort) : (s.withTag m f).writeHold = s.writeHold := rfl
@[simp] theorem State.withTag_time (s : State) (m : Nat) (f : TagPort → TagPort) : (s.withTag m f).time = s.time := rfl
@[simp] theorem State.withTag_lineA (s : State) (m : Nat) (f : TagPort → TagPort) : (s.withTag m f).lineA = s.lineA := rfl
@[simp] theorem State.withTag_lineB (s : State) (m : Nat) (f : TagPort → TagPort) : (s.withTag m f).lineB = s.lineB := rfl
@[simp] theorem State.withTag_forming (s : State) (m : Nat) (f : TagPort → TagPort) : (s.withTag m f).forming = s.forming := rfl
@[simp] theorem State.withTag_loafA (s : State) (m : Nat) (f : TagPort → TagPort) : (s.withTag m f).loafA = s.loafA := rfl
@[simp] theorem State.withTag_loafB (s : State) (m : Nat) (f : TagPort → TagPort) : (s.withTag m f).loafB = s.loafB := rfl
@[simp] theorem State.withTag_capture (s : State) (m : Nat) (f : TagPort → TagPort) : (s.withTag m f).capture = s.capture := rfl
@[simp] theorem State.withTag_selection (s : State) (m : Nat) (f : TagPort → TagPort) : (s.withTag m f).selection = s.selection := rfl
@[simp] theorem State.withTag_holdCopy (s : State) (m : Nat) (f : TagPort → TagPort) : (s.withTag m f).holdCopy = s.holdCopy := rfl
@[simp] theorem State.withTag_nextSeq (s : State) (m : Nat) (f : TagPort → TagPort) : (s.withTag m f).nextSeq = s.nextSeq := rfl
@[simp] theorem State.withTag_brownoutMark (s : State) (m : Nat) (f : TagPort → TagPort) : (s.withTag m f).brownoutMark = s.brownoutMark := rfl
@[simp] theorem State.withTag_otp (s : State) (m : Nat) (f : TagPort → TagPort) : (s.withTag m f).otp = s.otp := rfl
@[simp] theorem State.withTag_sec (s : State) (m : Nat) (f : TagPort → TagPort) : (s.withTag m f).sec = s.sec := rfl
@[simp] theorem State.withTag_bridges (s : State) (m : Nat) (f : TagPort → TagPort) : (s.withTag m f).bridges = s.bridges := rfl
@[simp] theorem State.withTag_health (s : State) (m : Nat) (f : TagPort → TagPort) : (s.withTag m f).health = s.health := rfl
@[simp] theorem State.withTag_engMoves (s : State) (m : Nat) (f : TagPort → TagPort) : (s.withTag m f).engMoves = s.engMoves := rfl
@[simp] theorem State.withTag_sharedStores (s : State) (m : Nat) (f : TagPort → TagPort) : (s.withTag m f).sharedStores = s.sharedStores := rfl
@[simp] theorem State.withTag_rolesA (s : State) (m : Nat) (f : TagPort → TagPort) : (s.withTag m f).rolesA = s.rolesA := rfl
@[simp] theorem State.withTag_rolesB (s : State) (m : Nat) (f : TagPort → TagPort) : (s.withTag m f).rolesB = s.rolesB := rfl
@[simp] theorem State.withTag_semA (s : State) (m : Nat) (f : TagPort → TagPort) : (s.withTag m f).semA = s.semA := rfl
@[simp] theorem State.withTag_semB (s : State) (m : Nat) (f : TagPort → TagPort) : (s.withTag m f).semB = s.semB := rfl
@[simp] theorem State.withTag_kneaderA (s : State) (m : Nat) (f : TagPort → TagPort) : (s.withTag m f).kneaderA = s.kneaderA := rfl
@[simp] theorem State.withTag_kneaderB (s : State) (m : Nat) (f : TagPort → TagPort) : (s.withTag m f).kneaderB = s.kneaderB := rfl
@[simp] theorem State.withTag_staged (s : State) (m : Nat) (f : TagPort → TagPort) : (s.withTag m f).staged = s.staged := rfl
@[simp] theorem State.withTag_held (s : State) (m : Nat) (f : TagPort → TagPort) : (s.withTag m f).held = s.held := rfl
@[simp] theorem State.withTag_canBus (s : State) (m : Nat) (f : TagPort → TagPort) : (s.withTag m f).canBus = s.canBus := rfl
@[simp] theorem State.withTag_mvbBus (s : State) (m : Nat) (f : TagPort → TagPort) : (s.withTag m f).mvbBus = s.mvbBus := rfl
@[simp] theorem State.withTag_trdpSeen (s : State) (m : Nat) (f : TagPort → TagPort) : (s.withTag m f).trdpSeen = s.trdpSeen := rfl
@[simp] theorem State.withTag_power (s : State) (m : Nat) (f : TagPort → TagPort) : (s.withTag m f).power = s.power := rfl
@[simp] theorem State.withTag_proof (s : State) (m : Nat) (f : TagPort → TagPort) : (s.withTag m f).proof = s.proof := rfl
@[simp] theorem State.withTag_switch (s : State) (m : Nat) (f : TagPort → TagPort) : (s.withTag m f).switch = s.switch := rfl
@[simp] theorem State.withTag_twinUnit (s : State) (m : Nat) (f : TagPort → TagPort) : (s.withTag m f).twinUnit = s.twinUnit := rfl
@[simp] theorem State.withTag_sent (s : State) (m : Nat) (f : TagPort → TagPort) : (s.withTag m f).sent = s.sent := rfl
@[simp] theorem State.withTag_freeDraws (s : State) (m : Nat) (f : TagPort → TagPort) : (s.withTag m f).freeDraws = s.freeDraws := rfl
@[simp] theorem State.withTag_pending (s : State) (m : Nat) (f : TagPort → TagPort) : (s.withTag m f).pending = s.pending := rfl

@[simp] theorem State.withLine_regs (s : State) (l : Line) (f : LineState → LineState) : (s.withLine l f).regs = s.regs := by cases l <;> rfl
@[simp] theorem State.withLine_updates (s : State) (l : Line) (f : LineState → LineState) : (s.withLine l f).updates = s.updates := by cases l <;> rfl
@[simp] theorem State.withLine_thisClock (s : State) (l : Line) (f : LineState → LineState) : (s.withLine l f).thisClock = s.thisClock := by cases l <;> rfl
@[simp] theorem State.withLine_softResets (s : State) (l : Line) (f : LineState → LineState) : (s.withLine l f).softResets = s.softResets := by cases l <;> rfl
@[simp] theorem State.withLine_mem (s : State) (l : Line) (f : LineState → LineState) : (s.withLine l f).mem = s.mem := by cases l <;> rfl
@[simp] theorem State.withLine_readLatch (s : State) (l : Line) (f : LineState → LineState) : (s.withLine l f).readLatch = s.readLatch := by cases l <;> rfl
@[simp] theorem State.withLine_writeHold (s : State) (l : Line) (f : LineState → LineState) : (s.withLine l f).writeHold = s.writeHold := by cases l <;> rfl
@[simp] theorem State.withLine_time (s : State) (l : Line) (f : LineState → LineState) : (s.withLine l f).time = s.time := by cases l <;> rfl
@[simp] theorem State.withLine_forming (s : State) (l : Line) (f : LineState → LineState) : (s.withLine l f).forming = s.forming := by cases l <;> rfl
@[simp] theorem State.withLine_loafA (s : State) (l : Line) (f : LineState → LineState) : (s.withLine l f).loafA = s.loafA := by cases l <;> rfl
@[simp] theorem State.withLine_loafB (s : State) (l : Line) (f : LineState → LineState) : (s.withLine l f).loafB = s.loafB := by cases l <;> rfl
@[simp] theorem State.withLine_capture (s : State) (l : Line) (f : LineState → LineState) : (s.withLine l f).capture = s.capture := by cases l <;> rfl
@[simp] theorem State.withLine_selection (s : State) (l : Line) (f : LineState → LineState) : (s.withLine l f).selection = s.selection := by cases l <;> rfl
@[simp] theorem State.withLine_holdCopy (s : State) (l : Line) (f : LineState → LineState) : (s.withLine l f).holdCopy = s.holdCopy := by cases l <;> rfl
@[simp] theorem State.withLine_nextSeq (s : State) (l : Line) (f : LineState → LineState) : (s.withLine l f).nextSeq = s.nextSeq := by cases l <;> rfl
@[simp] theorem State.withLine_brownoutMark (s : State) (l : Line) (f : LineState → LineState) : (s.withLine l f).brownoutMark = s.brownoutMark := by cases l <;> rfl
@[simp] theorem State.withLine_otp (s : State) (l : Line) (f : LineState → LineState) : (s.withLine l f).otp = s.otp := by cases l <;> rfl
@[simp] theorem State.withLine_sec (s : State) (l : Line) (f : LineState → LineState) : (s.withLine l f).sec = s.sec := by cases l <;> rfl
@[simp] theorem State.withLine_bridges (s : State) (l : Line) (f : LineState → LineState) : (s.withLine l f).bridges = s.bridges := by cases l <;> rfl
@[simp] theorem State.withLine_health (s : State) (l : Line) (f : LineState → LineState) : (s.withLine l f).health = s.health := by cases l <;> rfl
@[simp] theorem State.withLine_tags (s : State) (l : Line) (f : LineState → LineState) : (s.withLine l f).tags = s.tags := by cases l <;> rfl
@[simp] theorem State.withLine_engMoves (s : State) (l : Line) (f : LineState → LineState) : (s.withLine l f).engMoves = s.engMoves := by cases l <;> rfl
@[simp] theorem State.withLine_sharedStores (s : State) (l : Line) (f : LineState → LineState) : (s.withLine l f).sharedStores = s.sharedStores := by cases l <;> rfl
@[simp] theorem State.withLine_rolesA (s : State) (l : Line) (f : LineState → LineState) : (s.withLine l f).rolesA = s.rolesA := by cases l <;> rfl
@[simp] theorem State.withLine_rolesB (s : State) (l : Line) (f : LineState → LineState) : (s.withLine l f).rolesB = s.rolesB := by cases l <;> rfl
@[simp] theorem State.withLine_semA (s : State) (l : Line) (f : LineState → LineState) : (s.withLine l f).semA = s.semA := by cases l <;> rfl
@[simp] theorem State.withLine_semB (s : State) (l : Line) (f : LineState → LineState) : (s.withLine l f).semB = s.semB := by cases l <;> rfl
@[simp] theorem State.withLine_kneaderA (s : State) (l : Line) (f : LineState → LineState) : (s.withLine l f).kneaderA = s.kneaderA := by cases l <;> rfl
@[simp] theorem State.withLine_kneaderB (s : State) (l : Line) (f : LineState → LineState) : (s.withLine l f).kneaderB = s.kneaderB := by cases l <;> rfl
@[simp] theorem State.withLine_staged (s : State) (l : Line) (f : LineState → LineState) : (s.withLine l f).staged = s.staged := by cases l <;> rfl
@[simp] theorem State.withLine_held (s : State) (l : Line) (f : LineState → LineState) : (s.withLine l f).held = s.held := by cases l <;> rfl
@[simp] theorem State.withLine_canBus (s : State) (l : Line) (f : LineState → LineState) : (s.withLine l f).canBus = s.canBus := by cases l <;> rfl
@[simp] theorem State.withLine_mvbBus (s : State) (l : Line) (f : LineState → LineState) : (s.withLine l f).mvbBus = s.mvbBus := by cases l <;> rfl
@[simp] theorem State.withLine_trdpSeen (s : State) (l : Line) (f : LineState → LineState) : (s.withLine l f).trdpSeen = s.trdpSeen := by cases l <;> rfl
@[simp] theorem State.withLine_power (s : State) (l : Line) (f : LineState → LineState) : (s.withLine l f).power = s.power := by cases l <;> rfl
@[simp] theorem State.withLine_proof (s : State) (l : Line) (f : LineState → LineState) : (s.withLine l f).proof = s.proof := by cases l <;> rfl
@[simp] theorem State.withLine_switch (s : State) (l : Line) (f : LineState → LineState) : (s.withLine l f).switch = s.switch := by cases l <;> rfl
@[simp] theorem State.withLine_twinUnit (s : State) (l : Line) (f : LineState → LineState) : (s.withLine l f).twinUnit = s.twinUnit := by cases l <;> rfl
@[simp] theorem State.withLine_sent (s : State) (l : Line) (f : LineState → LineState) : (s.withLine l f).sent = s.sent := by cases l <;> rfl
@[simp] theorem State.withLine_freeDraws (s : State) (l : Line) (f : LineState → LineState) : (s.withLine l f).freeDraws = s.freeDraws := by cases l <;> rfl
@[simp] theorem State.withLine_pending (s : State) (l : Line) (f : LineState → LineState) : (s.withLine l f).pending = s.pending := by cases l <;> rfl

@[simp] theorem State.withLoaf_regs (s : State) (c : Line) (f : Loaf → Loaf) : (s.withLoaf c f).regs = s.regs := by cases c <;> rfl
@[simp] theorem State.withLoaf_updates (s : State) (c : Line) (f : Loaf → Loaf) : (s.withLoaf c f).updates = s.updates := by cases c <;> rfl
@[simp] theorem State.withLoaf_thisClock (s : State) (c : Line) (f : Loaf → Loaf) : (s.withLoaf c f).thisClock = s.thisClock := by cases c <;> rfl
@[simp] theorem State.withLoaf_softResets (s : State) (c : Line) (f : Loaf → Loaf) : (s.withLoaf c f).softResets = s.softResets := by cases c <;> rfl
@[simp] theorem State.withLoaf_mem (s : State) (c : Line) (f : Loaf → Loaf) : (s.withLoaf c f).mem = s.mem := by cases c <;> rfl
@[simp] theorem State.withLoaf_readLatch (s : State) (c : Line) (f : Loaf → Loaf) : (s.withLoaf c f).readLatch = s.readLatch := by cases c <;> rfl
@[simp] theorem State.withLoaf_writeHold (s : State) (c : Line) (f : Loaf → Loaf) : (s.withLoaf c f).writeHold = s.writeHold := by cases c <;> rfl
@[simp] theorem State.withLoaf_time (s : State) (c : Line) (f : Loaf → Loaf) : (s.withLoaf c f).time = s.time := by cases c <;> rfl
@[simp] theorem State.withLoaf_lineA (s : State) (c : Line) (f : Loaf → Loaf) : (s.withLoaf c f).lineA = s.lineA := by cases c <;> rfl
@[simp] theorem State.withLoaf_lineB (s : State) (c : Line) (f : Loaf → Loaf) : (s.withLoaf c f).lineB = s.lineB := by cases c <;> rfl
@[simp] theorem State.withLoaf_forming (s : State) (c : Line) (f : Loaf → Loaf) : (s.withLoaf c f).forming = s.forming := by cases c <;> rfl
@[simp] theorem State.withLoaf_capture (s : State) (c : Line) (f : Loaf → Loaf) : (s.withLoaf c f).capture = s.capture := by cases c <;> rfl
@[simp] theorem State.withLoaf_selection (s : State) (c : Line) (f : Loaf → Loaf) : (s.withLoaf c f).selection = s.selection := by cases c <;> rfl
@[simp] theorem State.withLoaf_holdCopy (s : State) (c : Line) (f : Loaf → Loaf) : (s.withLoaf c f).holdCopy = s.holdCopy := by cases c <;> rfl
@[simp] theorem State.withLoaf_nextSeq (s : State) (c : Line) (f : Loaf → Loaf) : (s.withLoaf c f).nextSeq = s.nextSeq := by cases c <;> rfl
@[simp] theorem State.withLoaf_brownoutMark (s : State) (c : Line) (f : Loaf → Loaf) : (s.withLoaf c f).brownoutMark = s.brownoutMark := by cases c <;> rfl
@[simp] theorem State.withLoaf_otp (s : State) (c : Line) (f : Loaf → Loaf) : (s.withLoaf c f).otp = s.otp := by cases c <;> rfl
@[simp] theorem State.withLoaf_sec (s : State) (c : Line) (f : Loaf → Loaf) : (s.withLoaf c f).sec = s.sec := by cases c <;> rfl
@[simp] theorem State.withLoaf_bridges (s : State) (c : Line) (f : Loaf → Loaf) : (s.withLoaf c f).bridges = s.bridges := by cases c <;> rfl
@[simp] theorem State.withLoaf_health (s : State) (c : Line) (f : Loaf → Loaf) : (s.withLoaf c f).health = s.health := by cases c <;> rfl
@[simp] theorem State.withLoaf_tags (s : State) (c : Line) (f : Loaf → Loaf) : (s.withLoaf c f).tags = s.tags := by cases c <;> rfl
@[simp] theorem State.withLoaf_engMoves (s : State) (c : Line) (f : Loaf → Loaf) : (s.withLoaf c f).engMoves = s.engMoves := by cases c <;> rfl
@[simp] theorem State.withLoaf_sharedStores (s : State) (c : Line) (f : Loaf → Loaf) : (s.withLoaf c f).sharedStores = s.sharedStores := by cases c <;> rfl
@[simp] theorem State.withLoaf_rolesA (s : State) (c : Line) (f : Loaf → Loaf) : (s.withLoaf c f).rolesA = s.rolesA := by cases c <;> rfl
@[simp] theorem State.withLoaf_rolesB (s : State) (c : Line) (f : Loaf → Loaf) : (s.withLoaf c f).rolesB = s.rolesB := by cases c <;> rfl
@[simp] theorem State.withLoaf_semA (s : State) (c : Line) (f : Loaf → Loaf) : (s.withLoaf c f).semA = s.semA := by cases c <;> rfl
@[simp] theorem State.withLoaf_semB (s : State) (c : Line) (f : Loaf → Loaf) : (s.withLoaf c f).semB = s.semB := by cases c <;> rfl
@[simp] theorem State.withLoaf_kneaderA (s : State) (c : Line) (f : Loaf → Loaf) : (s.withLoaf c f).kneaderA = s.kneaderA := by cases c <;> rfl
@[simp] theorem State.withLoaf_kneaderB (s : State) (c : Line) (f : Loaf → Loaf) : (s.withLoaf c f).kneaderB = s.kneaderB := by cases c <;> rfl
@[simp] theorem State.withLoaf_staged (s : State) (c : Line) (f : Loaf → Loaf) : (s.withLoaf c f).staged = s.staged := by cases c <;> rfl
@[simp] theorem State.withLoaf_held (s : State) (c : Line) (f : Loaf → Loaf) : (s.withLoaf c f).held = s.held := by cases c <;> rfl
@[simp] theorem State.withLoaf_canBus (s : State) (c : Line) (f : Loaf → Loaf) : (s.withLoaf c f).canBus = s.canBus := by cases c <;> rfl
@[simp] theorem State.withLoaf_mvbBus (s : State) (c : Line) (f : Loaf → Loaf) : (s.withLoaf c f).mvbBus = s.mvbBus := by cases c <;> rfl
@[simp] theorem State.withLoaf_trdpSeen (s : State) (c : Line) (f : Loaf → Loaf) : (s.withLoaf c f).trdpSeen = s.trdpSeen := by cases c <;> rfl
@[simp] theorem State.withLoaf_power (s : State) (c : Line) (f : Loaf → Loaf) : (s.withLoaf c f).power = s.power := by cases c <;> rfl
@[simp] theorem State.withLoaf_proof (s : State) (c : Line) (f : Loaf → Loaf) : (s.withLoaf c f).proof = s.proof := by cases c <;> rfl
@[simp] theorem State.withLoaf_switch (s : State) (c : Line) (f : Loaf → Loaf) : (s.withLoaf c f).switch = s.switch := by cases c <;> rfl
@[simp] theorem State.withLoaf_twinUnit (s : State) (c : Line) (f : Loaf → Loaf) : (s.withLoaf c f).twinUnit = s.twinUnit := by cases c <;> rfl
@[simp] theorem State.withLoaf_sent (s : State) (c : Line) (f : Loaf → Loaf) : (s.withLoaf c f).sent = s.sent := by cases c <;> rfl
@[simp] theorem State.withLoaf_freeDraws (s : State) (c : Line) (f : Loaf → Loaf) : (s.withLoaf c f).freeDraws = s.freeDraws := by cases c <;> rfl
@[simp] theorem State.withLoaf_pending (s : State) (c : Line) (f : Loaf → Loaf) : (s.withLoaf c f).pending = s.pending := by cases c <;> rfl

@[simp] theorem State.withKneader_regs (s : State) (c : Line) (f : Kneader → Kneader) : (s.withKneader c f).regs = s.regs := by cases c <;> rfl
@[simp] theorem State.withKneader_updates (s : State) (c : Line) (f : Kneader → Kneader) : (s.withKneader c f).updates = s.updates := by cases c <;> rfl
@[simp] theorem State.withKneader_thisClock (s : State) (c : Line) (f : Kneader → Kneader) : (s.withKneader c f).thisClock = s.thisClock := by cases c <;> rfl
@[simp] theorem State.withKneader_softResets (s : State) (c : Line) (f : Kneader → Kneader) : (s.withKneader c f).softResets = s.softResets := by cases c <;> rfl
@[simp] theorem State.withKneader_mem (s : State) (c : Line) (f : Kneader → Kneader) : (s.withKneader c f).mem = s.mem := by cases c <;> rfl
@[simp] theorem State.withKneader_readLatch (s : State) (c : Line) (f : Kneader → Kneader) : (s.withKneader c f).readLatch = s.readLatch := by cases c <;> rfl
@[simp] theorem State.withKneader_writeHold (s : State) (c : Line) (f : Kneader → Kneader) : (s.withKneader c f).writeHold = s.writeHold := by cases c <;> rfl
@[simp] theorem State.withKneader_time (s : State) (c : Line) (f : Kneader → Kneader) : (s.withKneader c f).time = s.time := by cases c <;> rfl
@[simp] theorem State.withKneader_lineA (s : State) (c : Line) (f : Kneader → Kneader) : (s.withKneader c f).lineA = s.lineA := by cases c <;> rfl
@[simp] theorem State.withKneader_lineB (s : State) (c : Line) (f : Kneader → Kneader) : (s.withKneader c f).lineB = s.lineB := by cases c <;> rfl
@[simp] theorem State.withKneader_forming (s : State) (c : Line) (f : Kneader → Kneader) : (s.withKneader c f).forming = s.forming := by cases c <;> rfl
@[simp] theorem State.withKneader_loafA (s : State) (c : Line) (f : Kneader → Kneader) : (s.withKneader c f).loafA = s.loafA := by cases c <;> rfl
@[simp] theorem State.withKneader_loafB (s : State) (c : Line) (f : Kneader → Kneader) : (s.withKneader c f).loafB = s.loafB := by cases c <;> rfl
@[simp] theorem State.withKneader_capture (s : State) (c : Line) (f : Kneader → Kneader) : (s.withKneader c f).capture = s.capture := by cases c <;> rfl
@[simp] theorem State.withKneader_selection (s : State) (c : Line) (f : Kneader → Kneader) : (s.withKneader c f).selection = s.selection := by cases c <;> rfl
@[simp] theorem State.withKneader_holdCopy (s : State) (c : Line) (f : Kneader → Kneader) : (s.withKneader c f).holdCopy = s.holdCopy := by cases c <;> rfl
@[simp] theorem State.withKneader_nextSeq (s : State) (c : Line) (f : Kneader → Kneader) : (s.withKneader c f).nextSeq = s.nextSeq := by cases c <;> rfl
@[simp] theorem State.withKneader_brownoutMark (s : State) (c : Line) (f : Kneader → Kneader) : (s.withKneader c f).brownoutMark = s.brownoutMark := by cases c <;> rfl
@[simp] theorem State.withKneader_otp (s : State) (c : Line) (f : Kneader → Kneader) : (s.withKneader c f).otp = s.otp := by cases c <;> rfl
@[simp] theorem State.withKneader_sec (s : State) (c : Line) (f : Kneader → Kneader) : (s.withKneader c f).sec = s.sec := by cases c <;> rfl
@[simp] theorem State.withKneader_bridges (s : State) (c : Line) (f : Kneader → Kneader) : (s.withKneader c f).bridges = s.bridges := by cases c <;> rfl
@[simp] theorem State.withKneader_health (s : State) (c : Line) (f : Kneader → Kneader) : (s.withKneader c f).health = s.health := by cases c <;> rfl
@[simp] theorem State.withKneader_tags (s : State) (c : Line) (f : Kneader → Kneader) : (s.withKneader c f).tags = s.tags := by cases c <;> rfl
@[simp] theorem State.withKneader_engMoves (s : State) (c : Line) (f : Kneader → Kneader) : (s.withKneader c f).engMoves = s.engMoves := by cases c <;> rfl
@[simp] theorem State.withKneader_sharedStores (s : State) (c : Line) (f : Kneader → Kneader) : (s.withKneader c f).sharedStores = s.sharedStores := by cases c <;> rfl
@[simp] theorem State.withKneader_rolesA (s : State) (c : Line) (f : Kneader → Kneader) : (s.withKneader c f).rolesA = s.rolesA := by cases c <;> rfl
@[simp] theorem State.withKneader_rolesB (s : State) (c : Line) (f : Kneader → Kneader) : (s.withKneader c f).rolesB = s.rolesB := by cases c <;> rfl
@[simp] theorem State.withKneader_semA (s : State) (c : Line) (f : Kneader → Kneader) : (s.withKneader c f).semA = s.semA := by cases c <;> rfl
@[simp] theorem State.withKneader_semB (s : State) (c : Line) (f : Kneader → Kneader) : (s.withKneader c f).semB = s.semB := by cases c <;> rfl
@[simp] theorem State.withKneader_staged (s : State) (c : Line) (f : Kneader → Kneader) : (s.withKneader c f).staged = s.staged := by cases c <;> rfl
@[simp] theorem State.withKneader_held (s : State) (c : Line) (f : Kneader → Kneader) : (s.withKneader c f).held = s.held := by cases c <;> rfl
@[simp] theorem State.withKneader_canBus (s : State) (c : Line) (f : Kneader → Kneader) : (s.withKneader c f).canBus = s.canBus := by cases c <;> rfl
@[simp] theorem State.withKneader_mvbBus (s : State) (c : Line) (f : Kneader → Kneader) : (s.withKneader c f).mvbBus = s.mvbBus := by cases c <;> rfl
@[simp] theorem State.withKneader_trdpSeen (s : State) (c : Line) (f : Kneader → Kneader) : (s.withKneader c f).trdpSeen = s.trdpSeen := by cases c <;> rfl
@[simp] theorem State.withKneader_power (s : State) (c : Line) (f : Kneader → Kneader) : (s.withKneader c f).power = s.power := by cases c <;> rfl
@[simp] theorem State.withKneader_proof (s : State) (c : Line) (f : Kneader → Kneader) : (s.withKneader c f).proof = s.proof := by cases c <;> rfl
@[simp] theorem State.withKneader_switch (s : State) (c : Line) (f : Kneader → Kneader) : (s.withKneader c f).switch = s.switch := by cases c <;> rfl
@[simp] theorem State.withKneader_twinUnit (s : State) (c : Line) (f : Kneader → Kneader) : (s.withKneader c f).twinUnit = s.twinUnit := by cases c <;> rfl
@[simp] theorem State.withKneader_sent (s : State) (c : Line) (f : Kneader → Kneader) : (s.withKneader c f).sent = s.sent := by cases c <;> rfl
@[simp] theorem State.withKneader_freeDraws (s : State) (c : Line) (f : Kneader → Kneader) : (s.withKneader c f).freeDraws = s.freeDraws := by cases c <;> rfl
@[simp] theorem State.withKneader_pending (s : State) (c : Line) (f : Kneader → Kneader) : (s.withKneader c f).pending = s.pending := by cases c <;> rfl

/-! Reads of registers and memory after an update of something else. -/

@[simp] theorem State.set_byte (s : State) (r : Reg) (v : Nat) (x : Nat) : (s.set r v).byte x = s.byte x := rfl
@[simp] theorem State.set_bytes (s : State) (r : Reg) (v : Nat) (x k : Nat) : (s.set r v).bytes x k = s.bytes x k := rfl

@[simp] theorem State.setFlag_byte (s : State) (r : Reg) (b : Bool) (x : Nat) : (s.setFlag r b).byte x = s.byte x := rfl
@[simp] theorem State.setFlag_bytes (s : State) (r : Reg) (b : Bool) (x k : Nat) : (s.setFlag r b).bytes x k = s.bytes x k := rfl

@[simp] theorem State.setInt_byte (s : State) (r : Reg) (i : Int) (x : Nat) : (s.setInt r i).byte x = s.byte x := rfl
@[simp] theorem State.setInt_bytes (s : State) (r : Reg) (i : Int) (x k : Nat) : (s.setInt r i).bytes x k = s.bytes x k := rfl

@[simp] theorem State.set64_byte (s : State) (lo hi : Reg) (v : Nat) (x : Nat) : (s.set64 lo hi v).byte x = s.byte x := rfl
@[simp] theorem State.set64_bytes (s : State) (lo hi : Reg) (v : Nat) (x k : Nat) : (s.set64 lo hi v).bytes x k = s.bytes x k := rfl

@[simp] theorem State.raise_byte (s : State) (p : Page) (b : Nat) (x : Nat) : (s.raise p b).byte x = s.byte x := rfl
@[simp] theorem State.raise_bytes (s : State) (p : Page) (b : Nat) (x k : Nat) : (s.raise p b).bytes x k = s.bytes x k := rfl

@[simp] theorem State.countBy_byte (s : State) (r : Reg) (n : Nat) (x : Nat) : (s.countBy r n).byte x = s.byte x := rfl
@[simp] theorem State.countBy_bytes (s : State) (r : Reg) (n : Nat) (x k : Nat) : (s.countBy r n).bytes x k = s.bytes x k := rfl

@[simp] theorem State.count_byte (s : State) (r : Reg) (x : Nat) : (s.count r).byte x = s.byte x := rfl
@[simp] theorem State.count_bytes (s : State) (r : Reg) (x k : Nat) : (s.count r).bytes x k = s.bytes x k := rfl

@[simp] theorem State.countRaise_byte (s : State) (r : Reg) (p : Page) (b : Nat) (x : Nat) : (s.countRaise r p b).byte x = s.byte x := rfl
@[simp] theorem State.countRaise_bytes (s : State) (r : Reg) (p : Page) (b : Nat) (x k : Nat) : (s.countRaise r p b).bytes x k = s.bytes x k := rfl

@[simp] theorem State.noteUpdate_get (s : State) (r : Reg) (v w : Nat) (q : Reg) : (s.noteUpdate r v w).get q = s.get q := rfl
@[simp] theorem State.noteUpdate_flag (s : State) (r : Reg) (v w : Nat) (q : Reg) : (s.noteUpdate r v w).flag q = s.flag q := rfl
@[simp] theorem State.noteUpdate_getInt (s : State) (r : Reg) (v w : Nat) (q : Reg) : (s.noteUpdate r v w).getInt q = s.getInt q := rfl
@[simp] theorem State.noteUpdate_get64 (s : State) (r : Reg) (v w : Nat) (q q2 : Reg) : (s.noteUpdate r v w).get64 q q2 = s.get64 q q2 := rfl
@[simp] theorem State.noteUpdate_lineState (s : State) (r : Reg) (v w : Nat) (q : Line) : (s.noteUpdate r v w).lineState q = s.lineState q := rfl
@[simp] theorem State.noteUpdate_powered (s : State) (r : Reg) (v w : Nat) (q : Page) : (s.noteUpdate r v w).powered q = s.powered q := rfl
@[simp] theorem State.noteUpdate_byte (s : State) (r : Reg) (v w : Nat) (x : Nat) : (s.noteUpdate r v w).byte x = s.byte x := rfl
@[simp] theorem State.noteUpdate_bytes (s : State) (r : Reg) (v w : Nat) (x k : Nat) : (s.noteUpdate r v w).bytes x k = s.bytes x k := rfl

@[simp] theorem State.updateTo_byte (s : State) (r : Reg) (v w : Nat) (x : Nat) : (s.updateTo r v w).byte x = s.byte x := rfl
@[simp] theorem State.updateTo_bytes (s : State) (r : Reg) (v w : Nat) (x k : Nat) : (s.updateTo r v w).bytes x k = s.bytes x k := rfl

@[simp] theorem State.update_byte (s : State) (r : Reg) (f : Nat → Nat) (x : Nat) : (s.update r f).byte x = s.byte x := rfl
@[simp] theorem State.update_bytes (s : State) (r : Reg) (f : Nat → Nat) (x k : Nat) : (s.update r f).bytes x k = s.bytes x k := rfl

@[simp] theorem State.updateFlag_byte (s : State) (r : Reg) (x : Nat) : (s.updateFlag r).byte x = s.byte x := rfl
@[simp] theorem State.updateFlag_bytes (s : State) (r : Reg) (x k : Nat) : (s.updateFlag r).bytes x k = s.bytes x k := rfl

@[simp] theorem State.clearBits_byte (s : State) (r : Reg) (m : Nat) (x : Nat) : (s.clearBits r m).byte x = s.byte x := rfl
@[simp] theorem State.clearBits_bytes (s : State) (r : Reg) (m : Nat) (x k : Nat) : (s.clearBits r m).bytes x k = s.bytes x k := rfl

@[simp] theorem State.setByte_get (s : State) (a : Nat) (b : Byte) (q : Reg) : (s.setByte a b).get q = s.get q := rfl
@[simp] theorem State.setByte_flag (s : State) (a : Nat) (b : Byte) (q : Reg) : (s.setByte a b).flag q = s.flag q := rfl
@[simp] theorem State.setByte_getInt (s : State) (a : Nat) (b : Byte) (q : Reg) : (s.setByte a b).getInt q = s.getInt q := rfl
@[simp] theorem State.setByte_get64 (s : State) (a : Nat) (b : Byte) (q q2 : Reg) : (s.setByte a b).get64 q q2 = s.get64 q q2 := rfl
@[simp] theorem State.setByte_lineState (s : State) (a : Nat) (b : Byte) (q : Line) : (s.setByte a b).lineState q = s.lineState q := rfl
@[simp] theorem State.setByte_powered (s : State) (a : Nat) (b : Byte) (q : Page) : (s.setByte a b).powered q = s.powered q := rfl

@[simp] theorem State.clearRange_get (s : State) (a n : Nat) (q : Reg) : (s.clearRange a n).get q = s.get q := rfl
@[simp] theorem State.clearRange_flag (s : State) (a n : Nat) (q : Reg) : (s.clearRange a n).flag q = s.flag q := rfl
@[simp] theorem State.clearRange_getInt (s : State) (a n : Nat) (q : Reg) : (s.clearRange a n).getInt q = s.getInt q := rfl
@[simp] theorem State.clearRange_get64 (s : State) (a n : Nat) (q q2 : Reg) : (s.clearRange a n).get64 q q2 = s.get64 q q2 := rfl
@[simp] theorem State.clearRange_lineState (s : State) (a n : Nat) (q : Line) : (s.clearRange a n).lineState q = s.lineState q := rfl
@[simp] theorem State.clearRange_powered (s : State) (a n : Nat) (q : Page) : (s.clearRange a n).powered q = s.powered q := rfl

@[simp] theorem State.emit_get (s : State) (e : Sent) (q : Reg) : (s.emit e).get q = s.get q := rfl
@[simp] theorem State.emit_flag (s : State) (e : Sent) (q : Reg) : (s.emit e).flag q = s.flag q := rfl
@[simp] theorem State.emit_getInt (s : State) (e : Sent) (q : Reg) : (s.emit e).getInt q = s.getInt q := rfl
@[simp] theorem State.emit_get64 (s : State) (e : Sent) (q q2 : Reg) : (s.emit e).get64 q q2 = s.get64 q q2 := rfl
@[simp] theorem State.emit_lineState (s : State) (e : Sent) (q : Line) : (s.emit e).lineState q = s.lineState q := rfl
@[simp] theorem State.emit_powered (s : State) (e : Sent) (q : Page) : (s.emit e).powered q = s.powered q := rfl
@[simp] theorem State.emit_byte (s : State) (e : Sent) (x : Nat) : (s.emit e).byte x = s.byte x := rfl
@[simp] theorem State.emit_bytes (s : State) (e : Sent) (x k : Nat) : (s.emit e).bytes x k = s.bytes x k := rfl

@[simp] theorem State.withTime_get (s : State) (f : TimeUnit → TimeUnit) (q : Reg) : (s.withTime f).get q = s.get q := rfl
@[simp] theorem State.withTime_flag (s : State) (f : TimeUnit → TimeUnit) (q : Reg) : (s.withTime f).flag q = s.flag q := rfl
@[simp] theorem State.withTime_getInt (s : State) (f : TimeUnit → TimeUnit) (q : Reg) : (s.withTime f).getInt q = s.getInt q := rfl
@[simp] theorem State.withTime_get64 (s : State) (f : TimeUnit → TimeUnit) (q q2 : Reg) : (s.withTime f).get64 q q2 = s.get64 q q2 := rfl
@[simp] theorem State.withTime_lineState (s : State) (f : TimeUnit → TimeUnit) (q : Line) : (s.withTime f).lineState q = s.lineState q := rfl
@[simp] theorem State.withTime_powered (s : State) (f : TimeUnit → TimeUnit) (q : Page) : (s.withTime f).powered q = s.powered q := rfl
@[simp] theorem State.withTime_byte (s : State) (f : TimeUnit → TimeUnit) (x : Nat) : (s.withTime f).byte x = s.byte x := rfl
@[simp] theorem State.withTime_bytes (s : State) (f : TimeUnit → TimeUnit) (x k : Nat) : (s.withTime f).bytes x k = s.bytes x k := rfl

@[simp] theorem State.withForming_get (s : State) (f : Forming → Forming) (q : Reg) : (s.withForming f).get q = s.get q := rfl
@[simp] theorem State.withForming_flag (s : State) (f : Forming → Forming) (q : Reg) : (s.withForming f).flag q = s.flag q := rfl
@[simp] theorem State.withForming_getInt (s : State) (f : Forming → Forming) (q : Reg) : (s.withForming f).getInt q = s.getInt q := rfl
@[simp] theorem State.withForming_get64 (s : State) (f : Forming → Forming) (q q2 : Reg) : (s.withForming f).get64 q q2 = s.get64 q q2 := rfl
@[simp] theorem State.withForming_lineState (s : State) (f : Forming → Forming) (q : Line) : (s.withForming f).lineState q = s.lineState q := rfl
@[simp] theorem State.withForming_powered (s : State) (f : Forming → Forming) (q : Page) : (s.withForming f).powered q = s.powered q := rfl
@[simp] theorem State.withForming_byte (s : State) (f : Forming → Forming) (x : Nat) : (s.withForming f).byte x = s.byte x := rfl
@[simp] theorem State.withForming_bytes (s : State) (f : Forming → Forming) (x k : Nat) : (s.withForming f).bytes x k = s.bytes x k := rfl

@[simp] theorem State.withSec_get (s : State) (f : Sec → Sec) (q : Reg) : (s.withSec f).get q = s.get q := rfl
@[simp] theorem State.withSec_flag (s : State) (f : Sec → Sec) (q : Reg) : (s.withSec f).flag q = s.flag q := rfl
@[simp] theorem State.withSec_getInt (s : State) (f : Sec → Sec) (q : Reg) : (s.withSec f).getInt q = s.getInt q := rfl
@[simp] theorem State.withSec_get64 (s : State) (f : Sec → Sec) (q q2 : Reg) : (s.withSec f).get64 q q2 = s.get64 q q2 := rfl
@[simp] theorem State.withSec_lineState (s : State) (f : Sec → Sec) (q : Line) : (s.withSec f).lineState q = s.lineState q := rfl
@[simp] theorem State.withSec_powered (s : State) (f : Sec → Sec) (q : Page) : (s.withSec f).powered q = s.powered q := rfl
@[simp] theorem State.withSec_byte (s : State) (f : Sec → Sec) (x : Nat) : (s.withSec f).byte x = s.byte x := rfl
@[simp] theorem State.withSec_bytes (s : State) (f : Sec → Sec) (x k : Nat) : (s.withSec f).bytes x k = s.bytes x k := rfl

@[simp] theorem State.withTwin_get (s : State) (f : Twin → Twin) (q : Reg) : (s.withTwin f).get q = s.get q := rfl
@[simp] theorem State.withTwin_flag (s : State) (f : Twin → Twin) (q : Reg) : (s.withTwin f).flag q = s.flag q := rfl
@[simp] theorem State.withTwin_getInt (s : State) (f : Twin → Twin) (q : Reg) : (s.withTwin f).getInt q = s.getInt q := rfl
@[simp] theorem State.withTwin_get64 (s : State) (f : Twin → Twin) (q q2 : Reg) : (s.withTwin f).get64 q q2 = s.get64 q q2 := rfl
@[simp] theorem State.withTwin_lineState (s : State) (f : Twin → Twin) (q : Line) : (s.withTwin f).lineState q = s.lineState q := rfl
@[simp] theorem State.withTwin_powered (s : State) (f : Twin → Twin) (q : Page) : (s.withTwin f).powered q = s.powered q := rfl
@[simp] theorem State.withTwin_byte (s : State) (f : Twin → Twin) (x : Nat) : (s.withTwin f).byte x = s.byte x := rfl
@[simp] theorem State.withTwin_bytes (s : State) (f : Twin → Twin) (x k : Nat) : (s.withTwin f).bytes x k = s.bytes x k := rfl

@[simp] theorem State.withSwitch_get (s : State) (f : Switch → Switch) (q : Reg) : (s.withSwitch f).get q = s.get q := rfl
@[simp] theorem State.withSwitch_flag (s : State) (f : Switch → Switch) (q : Reg) : (s.withSwitch f).flag q = s.flag q := rfl
@[simp] theorem State.withSwitch_getInt (s : State) (f : Switch → Switch) (q : Reg) : (s.withSwitch f).getInt q = s.getInt q := rfl
@[simp] theorem State.withSwitch_get64 (s : State) (f : Switch → Switch) (q q2 : Reg) : (s.withSwitch f).get64 q q2 = s.get64 q q2 := rfl
@[simp] theorem State.withSwitch_lineState (s : State) (f : Switch → Switch) (q : Line) : (s.withSwitch f).lineState q = s.lineState q := rfl
@[simp] theorem State.withSwitch_powered (s : State) (f : Switch → Switch) (q : Page) : (s.withSwitch f).powered q = s.powered q := rfl
@[simp] theorem State.withSwitch_byte (s : State) (f : Switch → Switch) (x : Nat) : (s.withSwitch f).byte x = s.byte x := rfl
@[simp] theorem State.withSwitch_bytes (s : State) (f : Switch → Switch) (x k : Nat) : (s.withSwitch f).bytes x k = s.bytes x k := rfl

@[simp] theorem State.withCan_get (s : State) (c : Nat) (f : CanBus → CanBus) (q : Reg) : (s.withCan c f).get q = s.get q := rfl
@[simp] theorem State.withCan_flag (s : State) (c : Nat) (f : CanBus → CanBus) (q : Reg) : (s.withCan c f).flag q = s.flag q := rfl
@[simp] theorem State.withCan_getInt (s : State) (c : Nat) (f : CanBus → CanBus) (q : Reg) : (s.withCan c f).getInt q = s.getInt q := rfl
@[simp] theorem State.withCan_get64 (s : State) (c : Nat) (f : CanBus → CanBus) (q q2 : Reg) : (s.withCan c f).get64 q q2 = s.get64 q q2 := rfl
@[simp] theorem State.withCan_lineState (s : State) (c : Nat) (f : CanBus → CanBus) (q : Line) : (s.withCan c f).lineState q = s.lineState q := rfl
@[simp] theorem State.withCan_powered (s : State) (c : Nat) (f : CanBus → CanBus) (q : Page) : (s.withCan c f).powered q = s.powered q := rfl
@[simp] theorem State.withCan_byte (s : State) (c : Nat) (f : CanBus → CanBus) (x : Nat) : (s.withCan c f).byte x = s.byte x := rfl
@[simp] theorem State.withCan_bytes (s : State) (c : Nat) (f : CanBus → CanBus) (x k : Nat) : (s.withCan c f).bytes x k = s.bytes x k := rfl

@[simp] theorem State.withMvb_get (s : State) (j : Nat) (f : MvbBus → MvbBus) (q : Reg) : (s.withMvb j f).get q = s.get q := rfl
@[simp] theorem State.withMvb_flag (s : State) (j : Nat) (f : MvbBus → MvbBus) (q : Reg) : (s.withMvb j f).flag q = s.flag q := rfl
@[simp] theorem State.withMvb_getInt (s : State) (j : Nat) (f : MvbBus → MvbBus) (q : Reg) : (s.withMvb j f).getInt q = s.getInt q := rfl
@[simp] theorem State.withMvb_get64 (s : State) (j : Nat) (f : MvbBus → MvbBus) (q q2 : Reg) : (s.withMvb j f).get64 q q2 = s.get64 q q2 := rfl
@[simp] theorem State.withMvb_lineState (s : State) (j : Nat) (f : MvbBus → MvbBus) (q : Line) : (s.withMvb j f).lineState q = s.lineState q := rfl
@[simp] theorem State.withMvb_powered (s : State) (j : Nat) (f : MvbBus → MvbBus) (q : Page) : (s.withMvb j f).powered q = s.powered q := rfl
@[simp] theorem State.withMvb_byte (s : State) (j : Nat) (f : MvbBus → MvbBus) (x : Nat) : (s.withMvb j f).byte x = s.byte x := rfl
@[simp] theorem State.withMvb_bytes (s : State) (j : Nat) (f : MvbBus → MvbBus) (x k : Nat) : (s.withMvb j f).bytes x k = s.bytes x k := rfl

@[simp] theorem State.withTag_get (s : State) (m : Nat) (f : TagPort → TagPort) (q : Reg) : (s.withTag m f).get q = s.get q := rfl
@[simp] theorem State.withTag_flag (s : State) (m : Nat) (f : TagPort → TagPort) (q : Reg) : (s.withTag m f).flag q = s.flag q := rfl
@[simp] theorem State.withTag_getInt (s : State) (m : Nat) (f : TagPort → TagPort) (q : Reg) : (s.withTag m f).getInt q = s.getInt q := rfl
@[simp] theorem State.withTag_get64 (s : State) (m : Nat) (f : TagPort → TagPort) (q q2 : Reg) : (s.withTag m f).get64 q q2 = s.get64 q q2 := rfl
@[simp] theorem State.withTag_lineState (s : State) (m : Nat) (f : TagPort → TagPort) (q : Line) : (s.withTag m f).lineState q = s.lineState q := rfl
@[simp] theorem State.withTag_powered (s : State) (m : Nat) (f : TagPort → TagPort) (q : Page) : (s.withTag m f).powered q = s.powered q := rfl
@[simp] theorem State.withTag_byte (s : State) (m : Nat) (f : TagPort → TagPort) (x : Nat) : (s.withTag m f).byte x = s.byte x := rfl
@[simp] theorem State.withTag_bytes (s : State) (m : Nat) (f : TagPort → TagPort) (x k : Nat) : (s.withTag m f).bytes x k = s.bytes x k := rfl

@[simp] theorem State.withLine_get (s : State) (l : Line) (f : LineState → LineState) (q : Reg) : (s.withLine l f).get q = s.get q := by cases l <;> rfl
@[simp] theorem State.withLine_flag (s : State) (l : Line) (f : LineState → LineState) (q : Reg) : (s.withLine l f).flag q = s.flag q := by cases l <;> rfl
@[simp] theorem State.withLine_getInt (s : State) (l : Line) (f : LineState → LineState) (q : Reg) : (s.withLine l f).getInt q = s.getInt q := by cases l <;> rfl
@[simp] theorem State.withLine_get64 (s : State) (l : Line) (f : LineState → LineState) (q q2 : Reg) : (s.withLine l f).get64 q q2 = s.get64 q q2 := by cases l <;> rfl
@[simp] theorem State.withLine_lineState (s : State) (l : Line) (f : LineState → LineState) (q : Line) : (s.withLine l f).lineState q = s.lineState q := by cases l <;> rfl
@[simp] theorem State.withLine_powered (s : State) (l : Line) (f : LineState → LineState) (q : Page) : (s.withLine l f).powered q = s.powered q := by cases l <;> rfl
@[simp] theorem State.withLine_byte (s : State) (l : Line) (f : LineState → LineState) (x : Nat) : (s.withLine l f).byte x = s.byte x := by cases l <;> rfl
@[simp] theorem State.withLine_bytes (s : State) (l : Line) (f : LineState → LineState) (x k : Nat) : (s.withLine l f).bytes x k = s.bytes x k := by cases l <;> rfl

@[simp] theorem State.withLoaf_get (s : State) (c : Line) (f : Loaf → Loaf) (q : Reg) : (s.withLoaf c f).get q = s.get q := by cases c <;> rfl
@[simp] theorem State.withLoaf_flag (s : State) (c : Line) (f : Loaf → Loaf) (q : Reg) : (s.withLoaf c f).flag q = s.flag q := by cases c <;> rfl
@[simp] theorem State.withLoaf_getInt (s : State) (c : Line) (f : Loaf → Loaf) (q : Reg) : (s.withLoaf c f).getInt q = s.getInt q := by cases c <;> rfl
@[simp] theorem State.withLoaf_get64 (s : State) (c : Line) (f : Loaf → Loaf) (q q2 : Reg) : (s.withLoaf c f).get64 q q2 = s.get64 q q2 := by cases c <;> rfl
@[simp] theorem State.withLoaf_lineState (s : State) (c : Line) (f : Loaf → Loaf) (q : Line) : (s.withLoaf c f).lineState q = s.lineState q := by cases c <;> rfl
@[simp] theorem State.withLoaf_powered (s : State) (c : Line) (f : Loaf → Loaf) (q : Page) : (s.withLoaf c f).powered q = s.powered q := by cases c <;> rfl
@[simp] theorem State.withLoaf_byte (s : State) (c : Line) (f : Loaf → Loaf) (x : Nat) : (s.withLoaf c f).byte x = s.byte x := by cases c <;> rfl
@[simp] theorem State.withLoaf_bytes (s : State) (c : Line) (f : Loaf → Loaf) (x k : Nat) : (s.withLoaf c f).bytes x k = s.bytes x k := by cases c <;> rfl

@[simp] theorem State.withKneader_get (s : State) (c : Line) (f : Kneader → Kneader) (q : Reg) : (s.withKneader c f).get q = s.get q := by cases c <;> rfl
@[simp] theorem State.withKneader_flag (s : State) (c : Line) (f : Kneader → Kneader) (q : Reg) : (s.withKneader c f).flag q = s.flag q := by cases c <;> rfl
@[simp] theorem State.withKneader_getInt (s : State) (c : Line) (f : Kneader → Kneader) (q : Reg) : (s.withKneader c f).getInt q = s.getInt q := by cases c <;> rfl
@[simp] theorem State.withKneader_get64 (s : State) (c : Line) (f : Kneader → Kneader) (q q2 : Reg) : (s.withKneader c f).get64 q q2 = s.get64 q q2 := by cases c <;> rfl
@[simp] theorem State.withKneader_lineState (s : State) (c : Line) (f : Kneader → Kneader) (q : Line) : (s.withKneader c f).lineState q = s.lineState q := by cases c <;> rfl
@[simp] theorem State.withKneader_powered (s : State) (c : Line) (f : Kneader → Kneader) (q : Page) : (s.withKneader c f).powered q = s.powered q := by cases c <;> rfl
@[simp] theorem State.withKneader_byte (s : State) (c : Line) (f : Kneader → Kneader) (x : Nat) : (s.withKneader c f).byte x = s.byte x := by cases c <;> rfl
@[simp] theorem State.withKneader_bytes (s : State) (c : Line) (f : Kneader → Kneader) (x k : Nat) : (s.withKneader c f).bytes x k = s.bytes x k := by cases c <;> rfl

@[simp] theorem State.when_true (s : State) (f : State → State) : s.when true f = f s := rfl

@[simp] theorem State.when_false (s : State) (f : State → State) : s.when false f = s := rfl

end Sys2Proof.Machine
end

