-- ==== Sys2Proof/WellFormed.lean ====
section
/-! DEFINITION. Which commands are well formed: operands the manual gives a meaning, as far as their types do not already say so. -/

namespace Sys2Proof.Machine

/-- A role has a number from 0 to 14 (R227). -/
def roleFits (r : Nat) : Bool := decide (r < 15)

def Requester.wf : Requester → Bool
  | .engine _ r => roleFits r
  | _ => true

/-- The page exists (R464). -/
def Page.wf : Page → Bool
  | .eng _ i => decide (i < 16)
  | .mac m => decide (m < 12)
  | .can c => decide (c < 8)
  | .mvb c => decide (c < 2)
  | _ => true

/-- A load or store is of 1, 2 or 4 bytes (R226). -/
def sizeFits (size : BitVec 2) : Bool := size != 3

/-- A port of the switch that has a wire (R261): backbone or consist. -/
def wiredPort (q : BitVec 4) : Bool := decide (q.toNat < 12)

/-- A ring of a host or engine port (R273): 48 of them, transmit in the lower half of each 16. -/
def ringFits (g : BitVec 6) : Bool := decide (g.toNat < 48)
def txRingFits (g : BitVec 6) : Bool := ringFits g && decide (g.toNat % 16 < 8)

/-- A proofing target: the engines and lanes of each channel, the crypto cores, and 5 for a maintenance run (R405, R413). -/
def targetFits (t : BitVec 3) : Bool := decide (t.toNat ≤ 5)

/-- A slot number: a position, or a crumb slot (R174). -/
def slotFits (n : Nat) : Bool := (decide (1 ≤ n) && decide (n ≤ 63)) || (decide (65 ≤ n) && decide (n ≤ 72))

/-- A position of the layout (R89). -/
def positionFits (p : BitVec 6) : Bool := p != 0

/-- A claim word of frame 0 (R113). -/
def claimFits (c : BitVec 4) : Bool := decide (1 ≤ c.toNat) && decide (c.toNat ≤ 8)

/-- A slice carries LEN payload bytes, at most 1,928 (R127). -/
def Slice.wf (x : Slice) : Bool := slotFits x.slot.toNat && decide (x.payload.length = x.len.toNat) && decide (x.len.toNat ≤ 1928)

def DataFrame.wf (f : DataFrame) : Bool := f.slices.all Slice.wf

/-- At most 63 carried and 63 fresh records, a fresh one's index below 63 (R139, R140). -/
def DiscBody.wf (b : DiscBody) : Bool :=
  decide (b.carried.length ≤ 63) && decide (b.fresh.length ≤ 63) && b.fresh.all fun r => decide (r.hop.toNat < 63)

/-- Bytes of a CAN data field by DLC (R296). -/
def dlcBytes (fdf : Bool) (dlc : Nat) : Nat :=
  if dlc ≤ 8 then dlc else if fdf then [12, 16, 20, 24, 32, 48, 64].getD (dlc - 9) 64 else 8

/-- A received CAN frame: a remote frame is classical and carries no data (R296). -/
def CanFrame.wf (f : CanFrame) : Bool :=
  if f.rtr then !f.fdf && f.data.isEmpty else decide (f.data.length = dlcBytes f.fdf f.dlc.toNat)

/-- A slave frame's data: 2, 4, 8, 16 or 32 bytes (R312). -/
def MvbRx.wf : MvbRx → Bool
  | .good d => [2, 4, 8, 16, 32].contains d.length
  | _ => true

/-- A remote request: 4 to 64 bytes within one aligned block of 64, with the data of a write (R376). -/
def RemoteRequest.wf (q : RemoteRequest) : Bool :=
  decide (4 ≤ q.len) && decide (q.len ≤ 64) && q.len % 4 = 0 && q.addr % 4 = 0 && q.addr % 64 + q.len ≤ 64
    && decide (q.data.length = if q.write then q.len else 0)

/-- A piece carries up to 504 bytes of a slice: its header, up to 1,928 bytes of payload and its tag (R374). -/
def LineCopy.wf : LineCopy → Bool
  | .piece _ _ slot offs bytes => slotFits slot.toNat && decide (bytes.length ≤ 504) && decide (offs.toNat + bytes.length ≤ 1952)
  | .verdict _ _ index _ _ => decide (index.toNat < 32)

/-- A forming segment is one of at most 3 and carries at most 508 bytes (R375). -/
def FormingSegment.wf (g : FormingSegment) : Bool :=
  decide (1 ≤ g.segCnt.toNat) && decide (g.segCnt.toNat ≤ 3) && decide (g.seg.toNat < g.segCnt.toNat) && decide (g.body.length ≤ 508)

def LinkFrame.wf (f : LinkFrame) : Bool :=
  match f.payload with
  | .copy c => c.wf
  | .forming g => g.wf
  | .request q => q.wf
  | _ => true

/-- The site exists (R36): a kneader has eight lanes, one of them the spare, a bank the layout's slots, and three bridges have buffers. -/
def ErrSite.wf : ErrSite → Bool
  | .kneaderLane _ lane => decide (lane.toNat < 8)
  | .bankSlot _ _ slot => slotFits slot.toNat
  | .bridgeBuffer p => [Page.pcie, .qspi, .lzl].contains p
  | _ => true

/-- The initiator exists (R34): a role has a number below 15. -/
def Initiator.wf : Initiator → Bool
  | .engine _ r _ _ | .dma _ r _ => roleFits r.toNat
  | .hostRead b _ | .hostWrite b _ _ _ => b = .pcie || b = .qspi
  | .peer _ _ _ | .other => true

/-- The crossbar has five target ports (R33). -/
def XbarStall.wf (x : XbarStall) : Bool := decide (x.target.toNat < 5) && x.init.wf

/-- PCIe requests carry at most 4 KB (R355). -/
def lengthFits (n : Nat) : Bool := decide (1 ≤ n) && decide (n ≤ 4096)

end Sys2Proof.Machine

namespace Sys2Proof

open Machine

/-- Well-formedness, constructor by constructor. -/
def Instr.WellFormed (i : Instr) : Bool :=
  match i with
  | .tick => true
  | .cycleMark _ => true
  | .cut => true
  | .returnEnd => true
  | .returnClose => true
  | .rateCorrection => true
  | .holdMaxExpiry => true
  | .snap => true
  | .ppsEdge _ _ => true
  | .ppsLost => true
  | .asOffsWrite _ => true
  | .cycLenWrite _ => true
  | .asSyncTx _ _ => true
  | .asAnnounceTx _ => true
  | .asPdelayReqTx _ _ => true
  | .lineEnable _ => true
  | .lineDisable _ => true
  | .listenTimerExpiry _ => true
  | .coldStartTrayTx _ _ => true
  | .coldStartTrayRx _ _ _ => true
  | .loneProbeExpiry _ _ => true
  | .portLinkChange _ _ => true
  | .couplingWindowExpiry _ => true
  | .cplClosedChange _ _ => true
  | .linkSettleExpiry _ => true
  | .seekTrayTx _ _ => true
  | .seekTrayRx _ _ _ body => body.wf
  | .countTrayTx _ _ => true
  | .countTrayRx _ _ _ body => body.wf
  | .confirmTrayTx _ _ => true
  | .confirmTrayRx _ _ _ body => body.wf
  | .keyDistTrayTx _ _ => true
  | .keyDistTrayRx _ _ _ _ _ => true
  | .relinkExpiry => true
  | .inaugTrayTimeout _ => true
  | .integrateTimeout _ => true
  | .passiveTmoExpiry _ => true
  | .dataTrayTx _ _ => true
  | .reverseCopyRx _ frame => frame.wf
  | .trayFrameRx _ _ _ slices => slices.all Slice.wf
  | .v1FrameRx _ => true
  | .returnFrameRx _ frame _ => frame.wf
  | .positionAbsent _ p => positionFits p
  | .claimWordExpiry c => claimFits c
  | .windowMiss _ => true
  | .enterPassive _ => true
  | .forerunnerSlotTx _ _ => true
  | .slotFrameRx _ _ _ slice _ => slice.wf
  | .keyReqTx => true
  | .keyReqRx _ _ => true
  | .keyGrantTx => true
  | .keyGrantRx _ _ => true
  | .keyRoll => true
  | .pinLatest _ => true
  | .pinPrevious _ => true
  | .unpin _ => true
  | .draftOpen who _ _ => who.wf
  | .draftCommit who _ _ _ _ => who.wf
  | .draftAbort who _ _ => who.wf
  | .draftDataWrite who _ _ _ => who.wf
  | .draftExpired _ _ => true
  | .kick _ _ => true
  | .jobStart _ => true
  | .jobComplete _ _ => true
  | .jobOverrun _ _ => true
  | .jobReplay _ => true
  | .bfx _ r _ _ _ _ _ => roleFits r.toNat
  | .bfi _ r _ _ _ _ => roleFits r.toNat
  | .sscl _ r _ _ _ _ _ => roleFits r.toNat
  | .bswap _ r _ _ _ => roleFits r.toNat
  | .ldp _ r _ _ _ => roleFits r.toNat
  | .wft _ r _ _ => roleFits r.toNat
  | .wftReturn _ r => roleFits r.toNat
  | .ebreak _ r => roleFits r.toNat
  | .engineLoad _ r _ _ size _ => roleFits r.toNat && sizeFits size
  | .engineStore _ r _ size _ => roleFits r.toNat && sizeFits size
  | .evqPop _ r _ => roleFits r.toNat
  | .mboxOutDb _ r => roleFits r.toNat
  | .mboxInAck _ r => roleFits r.toNat
  | .inDb _ _ => true
  | .outAck _ _ => true
  | .semaphoreLoad _ r _ _ => roleFits r.toNat
  | .semaphoreStore _ r _ _ => roleFits r.toNat
  | .dmaGo _ r _ => roleFits r.toNat
  | .dmaDone _ r _ => roleFits r.toNat
  | .plannedMove _ => true
  | .engWdt _ r => roleFits r.toNat
  | .engRun _ _ _ => true
  | .engWarm _ _ => true
  | .frameRx q _ _ _ => wiredPort q
  | .frameTxStart q _ => wiredPort q
  | .gateDrop q _ => wiredPort q
  | .gclEntryExpiry q => wiredPort q
  | .gclSwap _ => true
  | .fdbAgeOut _ => true
  | .ringTailWrite g _ => ringFits g
  | .txDescDone g => txRingFits g
  | .trdpTxFetch _ => true
  | .pauseFrameRx q _ => wiredPort q
  | .pauseExpiry q => wiredPort q
  | .pauseStorm q => wiredPort q
  | .pauseStormEnd q => wiredPort q
  | .pauseTxRepeat q => wiredPort q
  | .cbReset _ => true
  | .etbEnWrite _ => true
  | .canEnable _ => true
  | .canDisable _ => true
  | .canIntegrated _ => true
  | .canFrameRx _ frame _ => frame.wf
  | .canError _ _ _ _ _ => true
  | .restart _ => true
  | .busOn _ => true
  | .canRxLock _ _ r => r.wf
  | .canRxUnlock _ _ r => r.wf
  | .lockTmo _ _ => true
  | .fifoAck _ _ _ => true
  | .txReq _ _ => true
  | .canPeriodicReq _ _ => true
  | .txCancel _ _ _ _ => true
  | .txFlip _ _ => true
  | .canTxAttemptEnd _ _ _ => true
  | .canBufCfgWrite _ _ _ _ _ _ => true
  | .listenOnlyStart _ => true
  | .listenOnlyEnd _ => true
  | .mvbMasterFrameRx _ _ _ _ => true
  | .mvbSlaveFrameRx _ a b _ => a.wf && b.wf
  | .portStale _ _ => true
  | .portFlip _ _ => true
  | .renewRx _ _ _ => true
  | .grantRx _ _ _ _ _ => true
  | .leaseEnd => true
  | .claim => true
  | .claimRx _ _ => true
  | .startupCountReached => true
  | .handover _ => true
  | .handoverRx _ _ _ => true
  | .handoverAckRx _ _ => true
  | .handoverTick => true
  | .hatOutRelease => true
  | .hostGrant _ => true
  | .mergeRx _ _ _ _ _ _ _ => true
  | .cutRecordRx _ _ _ _ _ _ _ => true
  | .epochHeadRx _ _ _ _ => true
  | .epochCommitRx _ _ _ _ => true
  | .hbtPulseRx _ _ => true
  | .hbtLost => true
  | .pcieInboundWrite _ _ data _ _ => lengthFits data.length
  | .pcieInboundRead _ _ len _ _ => lengthFits len.toNat
  | .pcieCompletionRx _ _ => true
  | .cplTmo _ => true
  | .linkDown _ => true
  | .msixMessage _ => true
  | .vecRearm _ => true
  | .qspiWrite _ _ _ _ => true
  | .qspiRead _ _ => true
  | .drClear => true
  | .drFetchDone => true
  | .drTmo => true
  | .fence b => b.wf
  | .postedFail b _ _ _ _ _ => b.wf
  | .plogClr b => b.wf
  | .laneUp _ => true
  | .laneDown _ => true
  | .linkFrameRx _ f => f.wf
  | .lineCopyRx copy => copy.wf
  | .formingDataRx seg => seg.wf
  | .remoteRequestRx req _ => req.wf
  | .remoteResponseRx _ _ _ => true
  | .rmtTmo => true
  | .lcManufacture => true
  | .lcProvision => true
  | .lcDeploy => true
  | .lcReturn => true
  | .lcScrap => true
  | .operatorRootInstall => true
  | .rootRevoke => true
  | .fleetKeyInstall => true
  | .debugToken => true
  | .headKeyInstall => true
  | .dbgChalRead who => who.wf
  | .zeroise _ => true
  | .trngFail => true
  | .bootStageDone _ => true
  | .pushChunk who _ _ => who.wf
  | .pushChunkTaken => true
  | .proofIntervalExpiry t => targetFits t
  | .proofRunStart t => targetFits t
  | .proofPatternsDone t _ => targetFits t
  | .proofRestore t => targetFits t
  | .prfStop => true
  | .maintCmd _ => true
  | .tagSession _ => true
  | .tagResponseRx _ _ _ => true
  | .tagTimeout _ => true
  | .marginSample _ _ _ => true
  | .pdCtrlWrite _ => true
  | .pdDone => true
  | .brownoutWarn _ => true
  | .brownoutLong => true
  | .boRecover => true
  | .brownoutEnd => true
  | .vddWindowExcursion _ => true
  | .tjRange _ => true
  | .gocWindow _ _ _ _ => true
  | .powerOnReset _ _ => true
  | .resetN _ _ => true
  | .coreReset => true
  | .chipRst _ => true
  | .softReset p => p.wf
  | .faultLatchClear => true
  | .memoryError site _ _ => site.wf
  | .crossbarTimeout stall => stall.wf
  | .lockstepMiscompare => true
  | .scrubRead site _ _ => site.wf
  | .chModeWrite _ => true
  | .twinCtrlWrite _ => true
  | .lockKey p _ => p.wf
  | .cfgLock p => p.wf
  | .lockAll => true
  | .sticky => true
  | .intRawClear p _ => p.wf
  | .intSet p _ => p.wf
  | .readClear who _ => who.wf
  | .gpioEdge _ _ => true
  | .outSet _ => true
  | .outClr _ => true
  | .registerWrite who _ _ => who.wf
  | .rv32imcInstruction _ r => roleFits r.toNat
  | .machineExternalInterrupt _ r => roleFits r.toNat
  | .consistLinkChange _ _ => true
  | .pcieConfigRequest _ _ _ => true
  | .pcieLinkUp _ _ => true
  | .coreResetEnd _ _ => true

end Sys2Proof
end

