-- ==== Sys2Proof/Tests/Slice0.lean ====
section
/-! SUPPORT. Tests: for every statement with hypotheses a state that meets them, clause by clause; an ill-formed term for every check of well-formedness; the manual's worked examples; and single steps. -/

namespace Sys2Proof.Tests
open Sys2Proof.Machine

/-- The state after reset with every power domain on and the listed register fields set. -/
def w (l : List (Reg × Nat)) : State := l.foldl (fun s p => s.set p.1 p.2) (State.reset.set PWR.PD_STAT_ON 0xFFFF)

/-- The same with the given pages enabled. -/
def up (ps : List Page) (l : List (Reg × Nat)) : State := w (ps.map (fun p => (HDR.PAGE_CTRL_ENABLE p, 1)) ++ l)

/-- Both links of a line up and settled. -/
def linked (l : Line) (s : State) : State :=
  let s := (s.set (GTB.TRAY_STAT_FRONT_UP l) 1).set (GTB.TRAY_STAT_REAR_UP l) 1
  s.withLine l fun x => { x with front := { x.front with settled := true }, rear := { x.rear with settled := true } }

/-- A tray header of version 2, cycle 0. -/
def hdr (kind : BitVec 4) (ret : Bool) : TrayHeader := ⟨5, BitVec.ofNat 16 (GTB.TRAY_CFG_ETYPE .A).reset, 2, kind, false, ret, false, false, false, false, 0, 1, 0, 0, 0, 0, 0⟩

/-- A frame that arrives whole at line A's front port. -/
def info : FrameInfo := ⟨⟨.A, .front⟩, 0, 0, 200, 1000, false, true, false, none⟩

def noSync : SyncRecord := ⟨0, 0, false, false, false, false⟩

/-- A forming block of the Starter `uid`. -/
def block (rank : BitVec 3) (uid : Uid) : FormingBlock := ⟨rank, uid, 0, noSync, 16, 0, 0, 0, false, false, 0, 0, 0, 0⟩

/-! The hypotheses of the statements can be met, clause by clause. -/

theorem test_hyp_step : State.reset.pending = [] ∧ State.reset.power.held = false ∧ ({ State.reset with power := { State.reset.power with held := true } } : State).power.held = true ∧ State.reset.updates = [] ∧ (ascending State.reset.regs = true ∧ Memory.wf State.reset.mem = true) ∧ (∃ t, step State.reset = .next t) ∧ (∃ t, exec .snap State.reset = .next t) ∧ mayReset .snap = false :=
  ⟨rfl, rfl, rfl, rfl, ⟨by decide, by decide⟩, ⟨_, rfl⟩, ⟨_, rfl⟩, rfl⟩
theorem test_hyp_stores : (GTB.NULL_FRAME_CNT .A).key ≠ (GTB.NULL_FRAME_CNT .B).key ∧ (3 < 4 ∨ 4 + 1 ≤ 3) ∧ (3 < 4 ∨ 4 + 1 ≤ 5)
    ∧ (w [(GTB.NULL_FRAME_CNT .A, 2 ^ 32 - 1)]).get (GTB.NULL_FRAME_CNT .A) = 2 ^ (GTB.NULL_FRAME_CNT .A).width - 1
    ∧ 0 ≤ State.reset.get (HDR.ERR_INFO_CLASS .time) ∧ State.reset.get (HDR.ERR_INFO_CLASS .time) < 1 ∧ 31 < 32 := by decide
theorem test_hyp_correction : -(4 * (State.reset.precision : Int)) ≤ 0 ∧ (0 : Int) ≤ 4 * (State.reset.precision : Int) ∧ ([(0, 7)] : List (Nat × Int)) ≠ []
    ∧ ∀ v ∈ ([(0, 7)] : List (Nat × Int)), (7 : Int) ≤ v.2 ∧ v.2 ≤ 7 := by decide
theorem test_hyp_frames : (∃ t, exec .sticky State.reset = .next t) ∧ (∃ t, exec (.ebreak .A 0) State.reset = .next t) := ⟨⟨_, rfl⟩, ⟨_, rfl⟩⟩

/-- A Starter in LEAD that takes PPS_IN, with two good edges behind it. -/
def pps : State := (w [(TIME.TIME_CTRL_EXT_EN, 1), (TIME.TIME_STAT_STARTER, 1), (TIME.TIME_STAT_STATE, tmLEAD), (TIME.EXT_MAX, 400)]).withTime fun t => { t with ppsGoodRun := 2 }
theorem test_hyp_time : pps.usesPps = true ∧ true ≠ pps.flag TIME.TIME_CTRL_PPS_POL ∧ pps.get TIME.EXT_MAX < 4 * (secondError 101).natAbs
    ∧ 4 * (secondError 100).natAbs ≤ pps.get TIME.EXT_MAX ∧ 4 * (secondError 999999900).natAbs ≤ pps.get TIME.EXT_MAX ∧ 2 ≤ pps.time.ppsGoodRun
    ∧ (pps.withTime fun t => { t with ppsGoodRun := 1 }).usesPps = true ∧ (pps.withTime fun t => { t with ppsGoodRun := 1 }).time.ppsGoodRun < 2 ∧ State.reset.usesPps = false
    ∧ pps.flag TIME.TIME_STAT_STARTER = true ∧ State.reset.flag TIME.TIME_STAT_STARTER = false := by decide
theorem test_hyp_holdover : let s := (w [(TIME.TIME_STAT_STATE, tmHOLDOVER), (TIME.TIME_STAT_STARTER, 1), (TIME.HOLD_MAX, 5), (TIME.RATE_CTRL_INTERVAL, 8)]).withTime fun t =>
      { t with holdoverRun := 5, intervalCycles := 8, accCount := 3 }
    s.timeState = tmHOLDOVER ∧ s.get TIME.HOLD_MAX ≤ s.time.holdoverRun ∧ s.flag TIME.TIME_STAT_STARTER = true
      ∧ s.get TIME.RATE_CTRL_INTERVAL ≤ s.time.intervalCycles ∧ 2 * s.time.accCount < s.get TIME.RATE_CTRL_INTERVAL
      ∧ (let u := s.withTime fun t => { t with accCount := 4 }; u.get TIME.RATE_CTRL_INTERVAL ≤ 2 * u.time.accCount ∧ u.time.returnEndSeen = false ∧ u.time.returnClosed = false
        ∧ (u.withTime fun t => { t with returnClosed := true }).time.returnClosed = true)
      ∧ State.reset.time.intervalCycles < State.reset.get TIME.RATE_CTRL_INTERVAL := by decide

/-- A chip with a train time whose first tick is due, with a mark set at the tick. -/
def timed : State := (w [(TIME.TIME_STAT_VALID, 1)]).withTime fun t => { t with firstTick := true, running := true, marks := [⟨true, 0, 1, 0⟩] }
theorem test_hyp_cycle : timed.tickDue = true ∧ State.reset.tickDue = false ∧ timed.markDue 0 = true ∧ timed.markDue 1 = false
    ∧ (timed.withTime fun t => { t with marksFired := [0] }).time.marksFired.contains 0 = true
    ∧ timed.bothOff = true ∧ State.reset.bothOff = true ∧ State.reset.locked .cyc = false ∧ (w [(HDR.PAGE_CTRL_CFG_LOCK .cyc, 1)]).locked .cyc = true ∧ 1024 < (1025 : BitVec 11).toNat ∧ (1 : BitVec 11) ≠ 0 ∧ (1 : BitVec 11).toNat ≤ 1024 ∧ (1024 : BitVec 11).toNat ≤ 1024 ∧ timed.locked .cyc = false
    ∧ (1 : BitVec 11).toNat ≠ timed.get CYC.CYC_LEN_K ∧ (1024 : BitVec 11).toNat ≠ timed.get CYC.CYC_LEN_K ∧ timed.valid = true ∧ State.reset.valid = false
    ∧ (w [(GTB.FORM_STAT_STATE .A, lnLISTEN)]).bothOff = false ∧ timed.time.firstTick = true ∧ timed.advanceCycle.time.firstTick = false := by decide

/-- Line A in RUN, at the origin, in a cycle that runs. -/
def running : State := (linked .A (up [.gtb .A, .loaf .A, .loaf .B] [(GTB.FORM_STAT_STATE .A, lnRUN), (GTB.TRAY_STAT_ORIGIN .A, 1), (GTB.FORM_STAT_POS .A, 1),
  (CYC.TX_OFFS, 20000), (CYC.CUT_LEAD, 100), (TIME.TIME_STAT_VALID, 1)])).withTime fun t => { t with running := true, ticked := true }
/-- A state so many ns after its tick. -/
def after (ns : Nat) (s : State) : State := s.withTime fun t => { t with ttc := BitVec.ofNat 96 (ns * 2 ^ 32) }
theorem test_hyp_cut : let s := after 19900 (running.set (LOAF.DOUGH_STAT_READY .A) 1)
    ({ s with capture := { s.capture with taken := true } } : State).capture.taken = true ∧
    s.time.running = true ∧ s.capture.taken = false ∧ s.twin = false ∧ s.cutDue = true ∧ (after 19899 running).cutDue = false
      ∧ (s.served.filterMap s.cutPoint).any (fun p => p < 100) = false ∧ (s.channels.any fun c => s.live (.loaf c)) = true
      ∧ s.kneaderA.runs = [] ∧ s.kneaderB.runs = [] ∧ s.inHold = false ∧ s.flag (LOAF.DOUGH_STAT_READY .A) = true ∧ (s.served.any fun l => s.lineState l == lnLONE) = false := by decide
theorem test_hyp_return : let s := (after 2000000 running).withLine .A fun x => { x with partakes := true, nextReturn := returnDone }
    let u := { (s.withTime fun t => { t with returnClosed := true }) with capture := { s.capture with taken := true } }
    s.returnReached = true ∧ s.time.returnEndSeen = false ∧ s.time.returnClosed = false ∧ s.anyLine [lnINAUGURATE] = false ∧ u.time.returnClosed = true ∧ u.capture.taken = true
      ∧ s.closeDue = true ∧ running.closeDue = false := by decide
theorem test_hyp_grandmaster : (up [.mac 0] [(TIME.TIME_CTRL_AS_GM_EN, 1), (MAC.MAC_CTRL_EN 0, 1), (MAC.MAC_CTRL_AS_EN 0, 1)]).grandmaster 0 = true ∧ (w []).grandmaster 0 = false := by decide
theorem test_hyp_pps : pps.flag TIME.TIME_STAT_STARTER = true ∧ State.reset.flag TIME.TIME_STAT_STARTER = false := by decide
/-- A provisioned chip with line A in a state, its page enabled and its links up. -/
def inState (st : Nat) (l : List (Reg × Nat)) : State := linked .A (up [.gtb .A, .loaf .A] ([(SEC.LC_STATE, lcPROVISIONED), (GTB.FORM_STAT_STATE .A, st)] ++ l))
theorem test_hyp_line : let s := inState lnOFF []
    s.powered (.gtb .A) = true ∧ s.flag (GTB.LINE_CTRL_EN .A) = false ∧ s.checkedConditions = true
      ∧ ((s.stampConfig (.gtb .A)).setFlag (GTB.LINE_CTRL_EN .A) true).checkedConditions = true
      ∧ (s.set (GTB.LINE_CTRL_EN .A) 1).flag (GTB.LINE_CTRL_EN .A) = true ∧ State.reset.powered (.gtb .A) = false := by decide
theorem test_hyp_line_states : (inState lnLISTEN [(GTB.FORM_CFG_START_ELIG .A, 1)]).lineState .A = lnLISTEN ∧ (inState lnLISTEN []).forming.relinkWait = false
    ∧ (inState lnLISTEN [(GTB.FORM_CFG_START_ELIG .A, 1)]).setting GTB.FORM_CFG_START_ELIG = 1 ∧ (inState lnLISTEN [(GTB.FORM_CFG_START_ELIG .A, 1)]).followsElsewhere .A = false ∧ (inState lnINTEGRATE []).lineState .A = lnINTEGRATE
    ∧ (inState lnPASSIVE []).lineState .A = lnPASSIVE ∧ (inState lnPASSIVE []).lineA.holdCrossed = false
    ∧ ((inState lnPASSIVE []).withLine .A fun x => { x with holdCrossed := true }).lineA.holdCrossed = true
    ∧ (inState lnINAUGURATE []).lineState .A = lnINAUGURATE ∧ (inState lnINAUGURATE []).forming.finalList = none
    ∧ ((w []).withForming fun f => { f with relinkWait := true }).forming.relinkWait = true ∧ (w []).forming.wasStarter = false ∧ ((w []).withForming fun f => { f with relinkWait := true, wasStarter := true }).forming.wasStarter = true
    ∧ (inState lnRUN []).lineState .A = lnRUN := by decide
theorem test_hyp_port : let p : BackbonePort := ⟨.A, .front⟩
    let s := (inState lnLISTEN []).withLine .A fun x => { x with front := { x.front with couplerSeen := true } }
    s.powered (.gtb p.line) = true ∧ s.linkUp p ≠ false ∧ (w []).linkUp p ≠ true ∧ s.linkUp p = true ∧ (w []).linkUp p = false ∧ ((s.lineOf p.line).portOf p.side).couplerSeen = true
      ∧ ((s.lineOf p.line).portOf p.side).linkSeen = false ∧ s.powered .cpl = true ∧ (s.tag (portIndex p)).started = false ∧ s.live (.gtb p.line) = true
      ∧ s.lineState p.line ≠ lnOFF ∧ s.forerunner p.line = false ∧ s.lineState p.line ≠ lnRUN
      ∧ ((s.lineOf p.line).portOf p.side).v1This = false ∧ ((s.lineOf p.line).portOf p.side).v1Last = false
      ∧ (let u := s.withLine .A fun x => { x with front := { x.front with v1This := true } }; ((u.lineOf p.line).portOf p.side).v1This = true ∧ u.forerunner p.line = false) := by decide
theorem test_hyp_cold : let s := (inState lnINTEGRATE []).withForming fun f => { f with best := [(contentionKey (block 1 5), 0)] }
    (inState lnCOLDSTART []).lineState .A = lnCOLDSTART ∧ (inState lnCOLDSTART []).live (.gtb .A) = true ∧ s.lineState .A ≠ lnCOLDSTART ∧ (inState lnLONE []).lineState .A = lnLONE
      ∧ (inState lnLONE []).live (.gtb .A) = true ∧ s.readsTray info (hdr 2 false) = true ∧ (hdr 2 false).ret = false ∧ (block 2 9).suid ≠ s.nodeUid
      ∧ s.worseThanBest .A (block 2 9) = true ∧ s.lineState .A ≠ lnLONE := by decide
theorem test_hyp_cold_return : let s := inState lnCOLDSTART [(TIME.TIME_STAT_STARTER, 1)]
    s.flag TIME.TIME_STAT_STARTER = true ∧ s.readsTray info (hdr 2 true) = true ∧ (hdr 2 true).ret = true ∧ (block 1 s.nodeUid).suid = s.nodeUid ∧ s.lineState info.port.line = lnCOLDSTART := by decide

/-- Line A in INAUGURATE at end 1, the Starter itself, without a link at its front. -/
def end1 : State := ((inState lnINAUGURATE [(TIME.TIME_STAT_STARTER, 1), (GTB.TRAY_STAT_FRONT_UP .A, 0)]).set (GTB.TRAY_STAT_FRONT_UP .A) 0).withForming fun f =>
  { f with seekCycle := some 0, end1 := some State.reset.nodeUid, best := [(contentionKey (block 1 5), 0)], merged := [⟨3, 0x50, 0, 100, true, 1, true, false, false, false, false, 0⟩] }
theorem test_hyp_seek : let s := end1
    let u := linked .A end1
    s.flag TIME.TIME_STAT_STARTER = true ∧ State.reset.flag TIME.TIME_STAT_STARTER = false ∧ (s.forming.seekCycle.any fun c => decide (c ≤ s.cycle)) = true ∧ s.live (.gtb .A) = true
      ∧ s.lineState .A = lnINAUGURATE ∧ s.linkUp ⟨.A, .front⟩ = false ∧ u.flag TIME.TIME_STAT_STARTER = true ∧ (u.forming.seekCycle.any fun c => decide (c ≤ u.cycle)) = true
      ∧ u.live (.gtb .A) = true ∧ u.failSilent = false ∧ u.lineState .A = lnINAUGURATE ∧ u.working ⟨.A, .front⟩ = true ∧ (State.reset.forming.end1FromA = false) := by decide
theorem test_hyp_seek_rx : let s := linked .A end1
    s.readsTray info (hdr 3 false) = true ∧ (hdr 3 false).ret = false ∧ (hdr 3 false).inaug = false ∧ s.worseThanBest .A (block 7 9) = true
      ∧ s.readsTray info (hdr 3 true) = true ∧ (hdr 3 true).ret = true ∧ (block 1 s.nodeUid).suid = s.nodeUid := by decide
theorem test_hyp_discovery : let s := end1
    let u := end1.withLine .A fun x => { x with end1Side := some .front }
    s.isEnd1 = true ∧ s.lineState .A = lnINAUGURATE ∧ s.live (.gtb .A) = true ∧ s.forming.finalList = none ∧ s.forming.merged ≠ [] ∧ s.forming.round ≠ 3
      ∧ State.reset.isEnd1 = false ∧ u.isEnd1 = true ∧ u.lineState .A = lnINAUGURATE ∧ u.live (.gtb .A) = true ∧ u.forming.finalList = none ∧ u.failSilent = false
      ∧ u.working (u.downstream .A) = true := by decide
theorem test_hyp_discovery_rx : let s := linked .A (end1.set64 (GTB.STARTER_UID_LO .A) (GTB.STARTER_UID_HI .A) 5)
    s.readsTray info (hdr 3 false) = true ∧ s.worseThanBest .A (block 7 9) = true ∧ s.readsTray info (hdr 3 true) = true ∧ (hdr 3 true).inaug = false ∧ (hdr 3 true).final = false
      ∧ s.isEnd1 = true ∧ s.lineState .A = lnINAUGURATE ∧ s.follows .A (block 0 5) = true := by decide
theorem test_hyp_key_dist : let s := (end1.set (GTB.FORM_STAT_MODE .A) 1).withForming fun f => { f with finalList := some [], slotPlan := 1 }
    s.forming.finalList = some [] ∧ s.isEnd1 = true ∧ s.lineState .A = lnINAUGURATE ∧ s.live (.gtb .A) = true ∧ s.forming.fallback = false ∧ s.forerunner .A = true ∧ s.forming.keyRepeats = 0
      ∧ s.forming.round ≠ 4 ∧ State.reset.forming.finalList = none := by decide
theorem test_hyp_key_dist_rx : let s := (linked .A end1).set (GTB.FORM_STAT_STATE .A) lnLISTEN
    s.readsTray info (hdr 4 true) = true ∧ (hdr 4 true).ret = true ∧ (hdr 4 true).index = 0 ∧ (hdr 4 true).count = 1 ∧ (hdr 4 true).inaug = false ∧ s.isEnd1 = true
      ∧ s.follows .A (block 3 77) = false ∧ s.lineState .A ≠ lnINAUGURATE ∧ (1 : BitVec 16) ≠ s.forming.newEpoch := by decide
/-- A layout of two nodes with a crumb and one frame. -/
def layout : Layout := ⟨0, [], 0, false, 1, [⟨1, State.reset.nodeUid, 100, 0, 0, 0⟩]⟩
def formed (s : State) : State := s.withForming fun f => { f with layout := some layout }
theorem test_hyp_data_tray : let s := formed running
    let t := s.set (GTB.FORM_STAT_POS .A) 2
    let u := (t.withLine .A fun x => { x with revIdle := some 7 })
    s.forming.layout = some layout ∧ s.flag (GTB.TRAY_STAT_ORIGIN .A) = true ∧ s.lineState .A = lnRUN ∧ s.live (.gtb .A) = true ∧ s.posOn .A = 1
      ∧ s.working (s.downstream .A) = true ∧ s.capture.taken = false ∧ s.failSilent = false ∧ t.posOn .A ≠ 1 ∧ t.working (t.upstream .A) = true ∧ (t.lineOf .A).revIdle = none
      ∧ t.lineState .A = lnRUN ∧ t.live (.gtb .A) = true ∧ t.flag (GTB.TRAY_STAT_ORIGIN .A) = true ∧ s.mayTransmit (.gtb .A) = true ∧ (w [(CHIP.CHIP_STAT_FAIL_SILENT, 1)]).mayTransmit (.gtb .A) = false
      ∧ (GTB.NULL_FRAME_CNT .A).key ≠ (GTB.GRD_BLOCK_CNT .A).key ∧ State.reset.flag (GTB.TRAY_STAT_ORIGIN .A) = false ∧ u.forming.layout = some layout
      ∧ u.flag (GTB.TRAY_STAT_ORIGIN .A) = true ∧ u.lineState .A = lnRUN ∧ u.live (.gtb .A) = true ∧ u.posOn .A ≠ 1 ∧ u.working (u.upstream .A) = true ∧ (u.lineOf .A).revIdle = some 7
      ∧ 7 ≠ u.cycle ∧ u.working (u.downstream .A) = true ∧ u.capture.taken = false ∧ u.failSilent = false := by decide
def dataFrame (ret : Bool) (index : BitVec 5) : DataFrame := ⟨{ hdr 1 ret with index := index }, 0, []⟩
theorem test_hyp_reverse_copy : let s := running
    s.readsTray info (hdr 1 true) = true ∧ s.flag (GTB.TRAY_STAT_ORIGIN .A) = true ∧ (dataFrame true 0).hdr.ret = true ∧ (dataFrame true 0).hdr.index = 0 := by decide
theorem test_hyp_return_frame : let s := (formed running).withLine .A fun x => { x with windowOk := true }
    let h := { hdr 1 true with last := true }
    s.readsTray { info with size := 64 } h = true ∧ s.lineState .A = lnRUN ∧ s.headerMatches .A h = true ∧ s.lineA.windowOk = true
      ∧ s.frameFits { info with size := 200 } ⟨h, 0, []⟩ s.lineA.nextReturn false = true
      ∧ s.readsTray info { hdr 1 true with cycle := 9 } = true ∧ s.headerMatches .A { hdr 1 true with cycle := 9 } = false := by decide
theorem test_hyp_other_line : let s := running.set (GTB.TRAY_STAT_REAR_UP .A) 0
    s.live (.gtb .A) = true ∧ s.lineState .A ≠ lnOFF ∧ (hdr 1 false).etype.toNat = s.get (GTB.TRAY_CFG_ETYPE .A) ∧ ({ info with otherLine := true }).otherLine = true
      ∧ ({ info with otherLine := true }).fcsOk = true ∧ ({ info with otherLine := true }).stray = none ∧ s.working info.port = true ∧ s.linkUp info.port.across = false := by decide
/-- A layout of one node and two frames. -/
def layout2 : Layout := ⟨0, [], 0, false, 2, [⟨1, State.reset.nodeUid, 100, 0, 0, 0⟩]⟩
theorem test_hyp_outward : let s := (running.set (GTB.FORM_STAT_POS .A) 2).withLine .A fun x => { x with revIdle := some 7 }
    let t := ((running.set (GTB.TRAY_STAT_ORIGIN .A) 0).withForming fun f => { f with layout := some layout2 }).withLine .A fun x => { x with nextIndex := 1 }
    let f : DataFrame := ⟨{ hdr 1 false with index := 1, count := 2, last := true }, 0, []⟩
    s.readsTray info (dataFrame false 1).hdr = true ∧ s.flag (GTB.TRAY_STAT_ORIGIN .A) = true ∧ (dataFrame false 1).hdr.origin.toNat < s.posOn .A ∧ s.idleOrigin .A = false ∧ s.lineState .A = lnRUN
      ∧ (dataFrame false 1).hdr.index ≠ 0 ∧ (dataFrame false 1).hdr.inaug = false ∧ info.port = ⟨.A, .front⟩
      ∧ t.readsTray info f.hdr = true ∧ t.flag (GTB.TRAY_STAT_ORIGIN .A) = false ∧ t.lineState .A = lnRUN ∧ 64 ≤ info.size ∧ info.size ≤ 2000 ∧ f.hdr.index ≠ 0 ∧ f.hdr.inaug = false
      ∧ t.working info.port.across = true ∧ t.headerMatches .A f.hdr = true ∧ t.frameFits info f t.lineA.nextIndex true = true ∧ t.lineA.broken = false := by decide
/-- A node in forerunner mode with slot 1, no link up. -/
def foreNode : State := (formed (up [.gtb .A] [(GTB.FORM_STAT_STATE .A, lnFORERUNNER), (GTB.FORM_STAT_MODE .A, 1), (GTB.FORM_STAT_POS .A, 1)]))
theorem test_hyp_forerunner : let s := foreNode
    s.lineState .A = lnFORERUNNER ∧ s.live (.gtb .A) = true ∧ s.posOn .A ≠ 0 ∧ s.ownLayoutSlot = some ⟨1, State.reset.nodeUid, 100, 0, 0, 0⟩ ∧ s.capture.taken = false
      ∧ (portsOf .A).filter s.working = [] ∧ s.failSilent = false ∧ (w []).lineState .A ≠ lnFORERUNNER := by decide
theorem test_hyp_slot_frame : let s := running
    let u := linked .A foreNode
    let h := { hdr 1 false with hop := 1 }
    let k := { h with version := 1 }
    let i := { info with arrived := BitVec.ofInt 64 (u.tickInstant + BitVec.ofNat 64 (4 * (u.get CYC.TX_OFFS + 0 * u.forming.slotPlan + u.precision))).toInt }
    s.readsTray { info with fcsOk := true } h = true ∧ s.lineState .A = lnRUN ∧ h.hop ≠ 0 ∧ u.readsTray { i with fcsOk := true } k = true ∧ u.lineState .A = lnFORERUNNER ∧ u.headerMatches .A k = true
      ∧ (instantDiff (u.rxInstant info.port i.arrived - BitVec.ofInt 64 ((0 : Nat) + ((u.lineOf .A).portOf .front).delay))
          (u.tickInstant + BitVec.ofNat 64 (4 * (u.get CYC.TX_OFFS + 0 * u.forming.slotPlan + u.precision)))).natAbs ≤ 4 * u.precision := by decide
theorem test_hyp_tray_watch : let s := (running.set (GTB.TRAY_STAT_ORIGIN .A) 0).withLine .A fun x => { x with absentRun := [(3, 2)] }
    let t := s.set (GTB.TRAY_STAT_MISS_RUN .A) 3
    let u := s.withLine .A fun x => { x with missThis := true, actNext := true }
    (s.lineA.absentRun.any fun e => e.1 = 3 && 2 ≤ e.2) = true ∧ s.live (.gtb .A) = true ∧ s.lineState .A = lnRUN ∧ s.flag (GTB.TRAY_STAT_ORIGIN .A) = false ∧ s.lineA.windowOk = false
      ∧ u.lineA.missThis = true ∧ u.live (.gtb .A) = true ∧ u.lineA.windowOk = false ∧ t.get (GTB.TRAY_STAT_MISS_RUN .A) = 3 ∧ t.lineA.actNext = false ∧ t.lineState .A = lnRUN
      ∧ u.lineState .A = lnRUN ∧ u.lineA.actNext = true
      ∧ (State.reset.lineA.absentRun.any fun e => e.1 = 3 && 2 ≤ e.2) = false ∧ (((w []).withForming fun f => { f with claims := [(1, 5, 16)] }).forming.claims.any fun x => x.1 = 1 && 16 ≤ x.2.2) = true
      ∧ (State.reset.forming.claims.any fun x => x.1 = 1 && 16 ≤ x.2.2) = false ∧ s.lineA.missThis = false ∧ s.inaugHold = false ∧ t.flag (GTB.TRAY_STAT_ORIGIN .A) = false := by decide

/-- A chip with the fleet key, in a train that uses AUTH, without a slice key. -/
def keyed : State := { running.set SEC.TRNG_STAT_HEALTHY 1 with sec := { running.sec with fleet := some 7 } }
/-- The same in FREE with a slice key. -/
def free : State :=
  let s := keyed.set CYC.TRAY_LEN 200000
  after 300000 { s with sec := { s.sec with current := some 9, tgk := some 8, taken := [⟨⟨.A, .front⟩, 3, 4⟩] } }
theorem test_hyp_key_req : let t := after 300000 ((keyed.set CYC.TRAY_LEN 200000).withLine .A fun x => { x with lastTray := some { hdr 1 false with auth := true } })
    (w []).powered .sec = true ∧ (w []).needsKey = false ∧ t.powered .sec = true ∧ t.needsKey = true ∧ t.failSilent = false ∧ (t.time.running && t.sec.asked) = false
      ∧ (t.keyPorts.filter fun p => (t.fitsFree p 64 || !t.time.running) && t.live (.gtb p.line) && t.mayOriginate p) = [⟨.A, .front⟩, ⟨.A, .rear⟩] ∧ t.drbgServes false = true
      ∧ (t.withSec fun k => { k with asked := true }).sec.asked = true := by decide
theorem test_hyp_own_key (s : State) (h : s.drbgServes false = true) : keyed.ownNodeKey = some (nodeKey 7 keyed.nodeUid) ∧ ∃ v t, s.random false = some (v, t) :=
  ⟨rfl, _, _, by unfold State.random; rw [h]; rfl⟩
def keyReq (mac : BitVec 128) : KeyReqFrame := ⟨5, 3, 4, 0, mac⟩
theorem test_hyp_key_rx : let s := free
    s.powered .sec = true ∧ s.lineState .A = lnRUN ∧ s.sec.fleet = some 7 ∧ s.sliceKeyNow.isSome = true ∧ s.sec.tgk.isSome = true ∧ (0 : BitVec 16) = s.epoch
      ∧ s.sec.takenCount.getD (portIndex ⟨.A, .front⟩) 0 < 4 ∧ s.failSilent = false ∧ s.sec.taken = [⟨⟨.A, .front⟩, 3, 4⟩] ∧ s.fitsFree ⟨.A, .front⟩ 114 = true ∧ s.linkUp ⟨.A, .front⟩ = true ∧ s.mayOriginate ⟨.A, .front⟩ = true ∧ s.time.running = true ∧ s.sec.rolled = false
      ∧ (w []).sec.taken = [] ∧ s.sec.tgk = some 8 ∧ s.cycle % 2 ^ 30 = 0 ∧ ((w [(CYC.CYC_NUM, 1)])).cycle % 2 ^ 30 ≠ 0
      ∧ 4 ≤ (s.withSec fun k => { k with takenCount := [4, 0, 0, 0] }).sec.takenCount.getD (portIndex ⟨.A, .front⟩) 0 ∧ s.drbgServes false = true
      ∧ (let u := s.withSec fun k => { k with next := some 5, nextEpoch := BitVec.ofNat 16 (s.get SEC.KEY_EPOCH) }; u.sec.next = some 5 ∧ u.sec.nextEpoch = BitVec.ofNat 16 (u.get SEC.KEY_EPOCH) ∧ u.sec.tgk = some 8)
      ∧ s.sec.next = none := by decide
theorem test_hyp_key_cmac (x : BitVec 128) : (keyReq (x + 1)).mac ≠ x ∧ (keyReq x).mac = x := ⟨by simp [keyReq], rfl⟩
theorem test_hyp_key_grant : let s := { keyed with sec := { keyed.sec with nonce := some 4 } }
    s.powered .sec = true ∧ s.lineState .A ≠ lnOFF ∧ s.sec.nonce = some 4 ∧ (0 : BitVec 16) = s.epoch ∧ s.sliceKeyNow = none := by decide
theorem test_hyp_pin : let s := w [(LOAF.BANK_STAT_LATEST_VALID .A, 1), (LOAF.BANK_STAT_PREV_VALID .A, 1)]
    s.powered (.loaf .A) = true ∧ s.flag (LOAF.BANK_STAT_LATEST_VALID .A) = true ∧ s.flag (LOAF.BANK_STAT_PREV_VALID .A) = true ∧ (w []).flag (LOAF.BANK_STAT_LATEST_VALID .A) = false
      ∧ 3 < 4 := by decide
/-- A draft of channel A opened by the host over PCIe. -/
def opened : State := ((w []).openDraft .A 0).withDraft .A 0 fun d => { d with age := 65535 }
theorem test_hyp_draft : let s := opened
    s.loafOn .A = true ∧ s.draftAccess .pcie .A 0 = .applies ∧ (s.draft .A 0).state ≠ .pending ∧ (s.draft .A 0).state = .opened ∧ s.sourcesOf .pcie = [] ∧ ((w []).draft .A 0).state = .closed
      ∧ (w []).loafOn .A = true ∧ (w []).draftAccess .pcie .A 0 = .applies ∧ s.get (LOAF.LOAF_CTRL_DRAFT_TMO (draftPage .A 0)) ≤ (s.draft .A 0).age
      ∧ ((w []).draft .A 0).state ≠ .opened ∧ (1927 : Nat) < 1928 ∧ (1928 : Nat) ≤ 1928 := by decide

/-- A kneader with one job at 0 that copies 8 bits of local store 0 to local store 1 when kicked. -/
def jobHead : List Byte := [0x18, 0x50, 0, 0, 0x66, 0, 0, 0, 0, 1, 0, 1, 1, 0, 0, 0, 0, 1, 0, 0, 0, 0, 0, 0, 0, 0, 0, 0, 0, 0, 0, 0]
def signal : List Byte := [0x20, 0, 0, 0, 0, 0, 8, 8, 0, 0, 0, 0, 0, 0, 0, 0, 0, 0, 0, 0, 0, 0, 0, 0, 0, 0, 0, 0, 0, 0, 0, 0]
def kneads : State := ((up [.knd .A] [(KND.KND_CTRL_EN .A, 1)]).setBytes (tableMacro .A) jobHead).setBytes (tableMacro .A + 32) signal
theorem test_hyp_kick : let s := kneads
    s.lockedMode = false ∧ s.takesTriggers .A = true ∧ (JobHead.ofBytes jobHead).en = true ∧ (JobHead.ofBytes jobHead).trig = trKICK ∧ s.cycle % (JobHead.ofBytes jobHead).div = (JobHead.ofBytes jobHead).phase
      ∧ (s.kneader .A).runs.length < 512 ∧ 1 ≤ (JobHead.ofBytes jobHead).count ∧ (JobHead.ofBytes jobHead).first + (JobHead.ofBytes jobHead).count ≤ 32768
      ∧ s.checkJob (JobHead.ofBytes jobHead) [SignalEntry.ofBytes signal] = 0 ∧ s.checkJob (JobHead.ofBytes jobHead) [SignalEntry.ofBytes jobHead] ≠ 0
      ∧ (w []).lockedMode = false ∧ (w []).takesTriggers .A = false ∧ (w [(CHIP.CH_MODE_MODE, 1)]).lockedMode = true := by decide
theorem test_hyp_kick_entries : kneads.fetchEntry .A 0 = .entry jobHead ∧ kneads.signalsOf .A (JobHead.ofBytes jobHead) = [signal].map TableRead.entry := by
  constructor <;> rfl
theorem test_hyp_kick_far : let s := (up [.knd .A, .knd .B] [(KND.KND_CTRL_EN .A, 1), (CHIP.CH_MODE_QUAR_B, 1)]); s.takesTriggers .A = true ∧ s.fetchEntry .A 16384 = .unreachable := ⟨by decide, rfl⟩
def aRun (lane : Option Nat) (toDough : Bool := false) : JobRun := ⟨4, 0, 0, false, false, lane, [], [], false, none, false, toDough, 0, 0, []⟩
theorem test_hyp_jobs : let s := (w []).withKneader .A fun k => { k with runs := [aRun (some 2)], replays := [(0, 5)] }
    ((s.kneader .A).runs.find? fun r => r.lane = some (2 : BitVec 3).toNat) = some (aRun (some 2)) ∧ s.powered (.knd .A) = true
      ∧ s.quarantined .A = false ∧ (((w []).kneader .A).runs.find? fun r => r.lane = some (2 : BitVec 3).toNat) = none ∧ (s.withTime fun t => { t with returnEndSeen := true }).time.returnEndSeen = true
      ∧ (s.kneader .A).replays = [(0, 5)] ∧ (s.withKneader .A fun k => { k with replays := [] }).powered (.knd .A) = true ∧ (w []).powered (.knd .A) = true ∧ (State.reset.kneader .A).nextGrant 11 (State.reset.kneader .A).grants = none ∧ ((w []).kneader .A).replays = [] ∧ (w []).time.returnEndSeen = false ∧ (w []).time.returnClosed = false ∧ (s.kneader .A).runs.length ≤ 512 ∧ (s.kneader .A).runs.length < 512 := by decide
theorem test_hyp_overrun_tick : let s := ((after 1000000 running).withTime fun t => { t with ltc := BitVec.ofNat 96 (1000000 * 2 ^ 32) }).withKneader .A fun k => { k with runs := [aRun none] }
    s.tickDue = true ∧ s.dueAtTick .A (aRun none) = true ∧ (aRun none).job = (4 : BitVec 15).toNat ∧ (s.kneader .A).runs = [aRun none] := by decide
theorem test_hyp_overrun_cut : let s := ((after 19900 running).withTime fun t => { t with ltc := BitVec.ofNat 96 (1000000 * 2 ^ 32) }).withKneader .A fun k => { k with runs := [aRun none true] }
    s.time.running = true ∧ s.capture.taken = false ∧ s.cutDue = true ∧ s.dueAtCut .A (aRun none true) = true ∧ (s.kneader .A).runs = [aRun none true] := by decide
theorem test_hyp_job_start : let s := kneads.withKneader .A fun k => { k with runs := [{ aRun none with job := 0, cls := 1 }] }
    s.powered (.knd .A) = true ∧ s.quarantined .A = false ∧ s.freeLane .A = some 0 ∧ ((s.kneader .A).nextGrant 11 (s.kneader .A).grants).map Prod.fst = some 1
      ∧ ((s.kneader .A).runs.find? fun r => r.lane.isNone && r.cls = 1) = some { aRun none with job := 0, cls := 1 } := by decide
theorem test_hyp_job_start_head : (kneads.withKneader .A fun k => { k with runs := [{ aRun none with job := 0, cls := 1 }], grants := 3, replays := [] }).fetchEntry .A 0 = .entry jobHead := by rfl
theorem test_hyp_job_complete : let r : JobRun := { aRun (some 2) with job := 0, head := jobHead }
    let s := kneads.withKneader .A fun k => { k with runs := [r] }
    ((s.kneader .A).runs.find? fun r => r.lane = some (2 : BitVec 3).toNat) = some r ∧ s.signalsOfRun .A r (JobHead.ofBytes r.head) = [signal].map TableRead.entry := by
  constructor <;> rfl
/-- Engine 0 of channel A runs its role, with the given change of it. -/
def eng (f : Role → Role) : State := { w [] with rolesA := (w []).rolesA.set 0 (f { Role.reset with st := .running }) }
def engW (f : Role → Role) : State := eng fun k => f { k with st := .waiting }
theorem test_hyp_xknd : let s := eng fun k => { k with regs := k.regs.set 1 0x40000 }
    let a (o : Int) := (s.role .A 0).reg 1 + BitVec.ofInt 32 o
    s.engRuns .A 0 = true ∧ (w []).engRuns .A 0 = false ∧ (2 : BitVec 2) ≠ 3 ∧ (0 : BitVec 2) ≠ 3 ∧ (a 2).toNat % 4 ≠ 0 ∧ (a (-4)).toNat % 4 = 0 ∧ (a (-4)).toNat < 0x40000
      ∧ (a 0).toNat % 4 = 0 ∧ (a 0).toNat / 0x10000 = 4 ∧ s.ldpPayload .A ((a 0).toNat % 0x10000) = (0, stNONE, none) := by decide
/-- The same with slot 3 provisional in the forming bank. -/
def provisional : State := ((eng fun k => { k with regs := k.regs.set 1 0x40000 }).set (LOAF.LOAF_CTRL_PROV_EN .A) 1).withBank .A ((w []).formingBank .A) fun b =>
  { b with entries := [⟨3, 5, stPROVISIONAL, true, false, ⟨false, false, false, false, false, false, false⟩, 0, 8, 0, 0⟩] }
theorem test_hyp_xknd_provisional : let s := provisional
    s.engRuns .A 0 = true ∧ ((s.role .A 0).reg 1 + 0).toNat % 4 = 0 ∧ ((s.role .A 0).reg 1 + 0).toNat / 0x10000 = 4 ∧ s.ldpPayload .A 0 = (0, stPROVISIONAL, some 3) := by decide
theorem test_hyp_xknd_arithmetic : 31 < 32 ∧ (31 : Nat) < 32 ∧ 1 ≤ 1 ∧ 31 + 1 ≤ 32 ∧ 0 + 32 ≤ 32 ∧ 3 < 4 := by decide
theorem test_hyp_wft : let s := eng fun k => { k with regs := k.regs.set 1 2, pend := 2 }
    let t := eng fun k => { k with regs := k.regs.set 1 4 }
    s.engRuns .A 0 = true ∧ bitOf 2 16 = false ∧ 2 = ((s.role .A 0).reg 1).toNat ∧ (s.role .A 0).pending &&& 2 ≠ 0 ∧ t.engRuns .A 0 = true ∧ 4 = ((t.role .A 0).reg 1).toNat
      ∧ (t.role .A 0).pending &&& 4 = 0
      ∧ (let u := eng fun k => { k with regs := k.regs.set 1 0x10000, sealed_ := true, idleTicks := 0 }
        u.engRuns .A 0 = true ∧ ((u.role .A 0).reg 1).toNat = 0x10000 ∧ bitOf 0x10000 16 = true ∧ (u.role .A 0).pending &&& 0x10000 = 0
        ∧ ((eng fun k => { k with pend := 0x10000 }).role .A 0).pending &&& 0x10000 ≠ 0) := by decide
theorem test_hyp_wft_return : let s := engW fun k => { k with waitFor := some (2, 5), pend := 2 }
    let t := engW fun k => { k with waitFor := some (4, 5) }
    s.engServes .A 0 = true ∧ (s.role .A 0).st = .waiting ∧ (s.role .A 0).waitFor = some (2, 5) ∧ (s.role .A 0).pending &&& 2 ≠ 0 ∧ t.engServes .A 0 = true
      ∧ (t.role .A 0).waitFor = some (4, 5) ∧ (t.role .A 0).pending &&& 4 = 0 := by decide
theorem test_hyp_access : (0x10001 : Word).toNat % accessBytes 1 ≠ 0 ∧ (0x1FFFC : Word).toNat % accessBytes 2 = 0 ∧ engPlace (0x1FFFC : Word).toNat = .dtcm 0xFFFC
    ∧ (0x10000 : Word).toNat % accessBytes 2 = 0 ∧ engPlace (0x10000 : Word).toNat = .dtcm 0 ∧ (0x31000 : Word).toNat % accessBytes 2 = 0 ∧ engPlace (0x31000 : Word).toNat = .nothing := by decide
/-- `addi x1, x1, 1`, then the compressed `c.addi x1, 1`, in the I-TCM. -/
def code (pc : Word) : State := ((eng fun k => { k with pc := pc }).setBytes (tcmI .A 0) [0x93, 0x80, 0x10, 0x00]).setBytes (tcmI .A 0 + 4) [0x85, 0x00]
theorem test_hyp_fetch : (code 0).engRuns .A 0 = true ∧ ((code 0).role .A 0).pc.toNat = 0 ∧ ((code 4).role .A 0).pc.toNat = 4 ∧ (code 0).leAt (tcmI .A 0 + 0) 2 % 4 = 3
    ∧ decode32 ((code 0).leAt (tcmI .A 0 + 0) 4) ≠ none ∧ (code 4).leAt (tcmI .A 0 + 4) 2 % 4 ≠ 3 ∧ decode16 ((code 4).leAt (tcmI .A 0 + 4) 2) ≠ none
    ∧ (code 8).leAt (tcmI .A 0 + 8) 2 % 4 ≠ 3 ∧ decode16 ((code 8).leAt (tcmI .A 0 + 8) 2) = none ∧ 0x10000 ≤ ((code 0x10000).role .A 0).pc.toNat ∧ decode32 0xFFFFFFFF = none ∧ (0xFFFFFFFF : Nat) % 4 = 3 ∧ (code 0x10000).engRuns .A 0 = true := by decide
theorem test_hyp_interrupt : let s := eng fun k => { k with evq := [1], csrs := [(csrMIE, 2048), (csrMSTATUS, 8)] }
    s.engServes .A 0 = true ∧ (s.role .A 0).st = .running ∧ (s.role .A 0).interrupted = true ∧ ((w []).role .A 0).interrupted = false
      ∧ (let t := engW fun k => { k with evq := [1], csrs := [(csrMIE, 2048), (csrMSTATUS, 8)] }; t.engServes .A 0 = true ∧ (t.role .A 0).st = .waiting ∧ (t.role .A 0).interrupted = true) := by decide
theorem test_hyp_messages : let s := eng fun k => { k with evq := [7, 8] }
    let t := eng fun k => { k with tainted := true }
    let u := { s with semA := s.semA.set 3 1 }
    let v := { s with semA := s.semA.set 3 2 }
    s.engRuns .A 0 = true ∧ (s.role .A 0).evq = 7 :: [8] ∧ (t.role .A 0).evq = [] ∧ t.engRuns .A 0 = true ∧ (s.role .A 0).tainted = false ∧ (t.role .A 0).tainted = true
      ∧ (s.sems .A).getD 3 0 = 0 ∧ (u.sems .A).getD 3 0 = (0 : BitVec 4).toNat + 1 ∧ (u.sems .A).getD 3 0 ≠ 0 ∧ u.engRuns .A 0 = true ∧ (v.sems .A).getD 3 0 ≠ (0 : BitVec 4).toNat + 1
      ∧ s.powered (.eng .A 0) = true ∧ s.leads .A = true ∧ s.roleAt .A 0 = some 0 ∧ s.roleAt .A 15 = none := by decide
theorem test_hyp_semaphores : let s := w []
    let u := { s with semA := s.semA.set 63 1 }
    (s.sems .A).length = 64 ∧ .A ∈ s.pairOf .A ∧ 63 < 64 ∧ 0 < 15 ∧ 14 < 15 ∧ (s.sems .A).getD 63 0 = 0 ∧ (u.sems .A).getD 63 0 ≠ 0 ∧ (u.sems .A).getD 63 0 = 0 + 1 ∧ (u.sems .A).length = 64
      ∧ (1 : Word) ≠ 0 ∧ s.engineOf .A 0 = some 0 := by decide
theorem test_hyp_release_queue : let s := eng fun k => { k with relq := List.replicate 64 ⟨0, []⟩ }
    .A ∈ s.pairOf .A ∧ (∀ d ∈ s.pairOf .A, 0 < (s.roles d).length ∧ s.engineOf d 0 = some 0) ∧ (s.role .A 0).refused = false ∧ (s.role .A 0).relq.length = 64 ∧ ((w []).role .A 0).relq.length < 64 := by decide
def aDma (len : Nat) : Dma := ⟨0x10000, 0x10100, len, true, false, false, none⟩
theorem test_hyp_dma : let s := eng fun k => { k with dma := [aDma 4, Dma.reset, Dma.reset, Dma.reset] }
    let t := eng fun k => { k with dma := [aDma 0, Dma.reset, Dma.reset, Dma.reset] }
    s.engRuns .A 0 = true ∧ ((s.role .A 0).dmaAt 1).busy = false ∧ (t.role .A 0).dmaRunning = some 0 ∧ ((t.role .A 0).dmaAt 0).len = 0 ∧ t.engServes .A 0 = true ∧ s.engServes .A 0 = true
      ∧ (s.role .A 0).dmaRunning = some 0 ∧ (aDma 4).len % 4 = 0 ∧ 4 ≤ (aDma 4).len ∧ (aDma 65536).len ≤ 65536 ∧ (aDma 65536).len % 4 = 0 ∧ (aDma 4).src.toNat % 4 = 0 ∧ (aDma 4).dst.toNat % 4 = 0
      ∧ (s.dmaCopy .A 0 none 1 0x10000 0x10100).1 = .whole ∧ (s.dmaCopy .A 0 none 1 0x31000 0x10100).1 = .refused ∧ (s.role .A 0).dmaRunning ≠ some 1 := by decide
/-- The rotation of channel A's engines has chosen engine 0, whose role waits for the tick, in IDLE. -/
def moving : State :=
  let s := { engW (fun k => { k with waitFor := some (2 ^ 16, 5) }) with proof := { State.reset.proof with rotations := State.reset.proof.rotations.modify 0 fun x => { x with target := some 0 } } }
  (((s.set CYC.IDLE_LEN 1000000).set (ENG.ENG_STAT_STATE .A 15) 3).set TIME.TIME_STAT_VALID 1).withTime fun t => { t with running := true, ticked := true }
theorem test_hyp_planned_move : let s := moving
    (s.rotation (lineBit .A)).target.bind (s.roleAt .A) = some 0 ∧ s.spareEngine .A = some 15 ∧ s.pairOf .A = [.A] ∧ s.leads .A = true ∧ s.engServes .A 0 = true ∧ s.live (.eng .A 15) = true
      ∧ s.get (ENG.ENG_STAT_STATE .A 15) = 3 ∧ (∀ m ∈ s.engMoves, m.chan ≠ .A) ∧ s.phase = 2 ∧ 8000 ≤ s.get CYC.IDLE_LEN ∧ (s.role .A 0).movable = true ∧ (w []).phase ≠ 2 := by decide
theorem test_hyp_run : let s := (engW fun k => { k with idleTicks := 3, image := some (16, 32) }).set (ENG.WDT .A 0) 3
    let t := ({ w [] with rolesA := s.rolesA } : State)
    s.engServes .A 0 = true ∧ s.engineOf .A 0 = some 0 ∧ s.get (ENG.WDT .A 0) ≠ 0 ∧ s.get (ENG.WDT .A 0) ≤ (s.role .A 0).idleTicks ∧ t.engineOf .A 0 = some 0 ∧ t.get (ENG.WDT .A 0) = 0
      ∧ s.powered (.eng .A 0) = true ∧ s.live (.eng .A 0) = true ∧ s.roleAt .A 0 = some 0 ∧ (s.role .A 0).st ≠ .halted ∧ s.roleAt .A 15 = none := by decide
theorem test_hyp_role_on : let s := (engW fun k => { k with idleTicks := 3 }).set (ENG.WDT .A 0) 3
    let t := (s.set (ENG.ENG_CTRL_RUN .A 0) 1)
    t.roleOn .A 0 = true ∧ t.engineOf .A 0 = some 0 ∧ t.get (ENG.WDT .A 0) ≠ 0 ∧ t.get (ENG.WDT .A 0) ≤ (t.role .A 0).idleTicks ∧ t.powered (.eng .A 0) = true ∧ t.roleAt .A 0 = some 0 := by decide
theorem test_hyp_run_write : let s := (engW fun k => { k with image := some (16, 32) })
    let t (on : Bool) := s.each (s.pairOf .A) (fun k s => s.setFlag (ENG.ENG_CTRL_RUN k 0) on)
    s.powered (.eng .A 0) = true ∧ (t true).roleAt .A 0 = some 0 ∧ (t false).roleAt .A 0 = some 0 ∧ s.flag (ENG.ENG_CTRL_RUN .A 0) = false ∧ ((t true).role .A 0).image = some (16, 32)
      ∧ (t true).live (.eng .A 0) = true ∧ (t true).roleAt .A 15 = none := by decide
/-- A port of the switch in use, with its link up. -/
def port (q : Nat) (l : List (Reg × Nat)) : State := w ([(MAC.MAC_CTRL_EN q, 1), (MAC.MAC_STAT_LINK q, 1), (SW.SW_CTRL_EN, 1)] ++ l)
/-- LTC and TTC at `ns`. -/
def at_ (ns : Nat) (s : State) : State := s.withTime fun t => { t with ltc := BitVec.ofNat 96 (ns * 2 ^ 32), ttc := BitVec.ofNat 96 (ns * 2 ^ 32) }
theorem test_hyp_frame_rx : let s := port 0 []
    let t := s.count (MAC.RX_FRAMES 0)
    s.portOn 0 = true ∧ 63 < 64 ∧ s.maxFrame 0 < 2001 ∧ 64 ≤ s.maxFrame 0
      ∧ isBackbone 0 = false ∧ beAt (Eth.ofBytes (List.replicate 60 0)).body 0 2 ≠ 0x8808 ∧ (Eth.ofBytes (List.replicate 60 0)).etype ≠ 0x88F7 ∧ t.switchOn = true
      ∧ (w []).portOn 0 = false := by decide
theorem test_hyp_frame_tx : let s := port 11 []
    s.live .sw = true ∧ s.portOn 11 = true ∧ s.flag (MAC.MAC_STAT_LINK 11) = true ∧ s.flag (MAC.MAC_STAT_PAUSED 11) = false ∧ s.failSilent = false
      ∧ (s.swPort 11).busyUntil.toNat ≤ s.ltcNs.toNat := by decide
def aFrame (port inPort cells : Nat) : Queued := ⟨0, port, 7, inPort, [], cells, 0, none, false, false⟩
def queued (ns : Nat) : State := let s := at_ ns (port 0 []); { s with switch := { s.switch with queues := [aFrame 0 0 100] } }
theorem test_hyp_gate_drop : (queued 1000000).live .sw = true ∧ ((queued 1000000).queueOf 0 7).head? = some (aFrame 0 0 100)
    ∧ (queued 1000000).cycleLen ≤ ((queued 1000000).ltcNs - (aFrame 0 0 100).headAt).toNat ∧ ((queued 999999).ltcNs - (aFrame 0 0 100).headAt).toNat < (queued 999999).cycleLen
    ∧ ((queued 999999).queueOf 0 7).head? = some (aFrame 0 0 100) := by decide
theorem test_hyp_gates : let s := ((port 0 []).setBeWord (gclWord 0 0 0) 0x00000100).setBeWord (gclWord 0 0 1) 0x00000200
    s.live .sw = true ∧ (s.swPort 0).entry + 1 < (s.gclList 0 (s.gclBank 0)).length ∧ ((w []).gclList 0 ((w []).gclBank 0)).length ≤ ((w []).swPort 0).entry + 1 ∧ s.powered .sw = true ∧ (at_ 512 s).entryOver 0 = true ∧ s.entryOver 0 = false := by decide
theorem test_hyp_pause : let s := port 0 [(MAC.MAC_CTRL_PAUSE_RX_EN 0, 1)]
    let t := s.count (MAC.PAUSE_RX_CNT 0)
    s.portOn 0 = true ∧ isBackbone 0 = false ∧ s.flag (MAC.MAC_CTRL_PAUSE_RX_EN 0) = true ∧ t.flag (MAC.MAC_CTRL_PAUSE_RX_EN 0) = true ∧ t.flag (MAC.MAC_STAT_HOLDOFF 0) = false
      ∧ t.flag (MAC.MAC_STAT_PAUSED 0) = false ∧ (1 : BitVec 16) ≠ 0 := by decide
theorem test_hyp_pause_ends : let s := at_ 5000000 (port 0 [(MAC.MAC_STAT_PAUSED 0, 1), (MAC.MAC_STAT_HOLDOFF 0, 1), (MAC.PAUSE_WD_WD 0, 5)])
    (s.swPort 0).pauseUntil.toNat ≤ s.ltcNs.toNat ∧ s.portOn 0 = true ∧ s.flag (MAC.MAC_STAT_PAUSED 0) = true
      ∧ s.get (MAC.PAUSE_WD_WD 0) * 1000000 ≤ (s.ltcNs - (s.swPort 0).pauseSince).toNat ∧ s.flag (MAC.MAC_STAT_HOLDOFF 0) = true
      ∧ (s.swPort 0).holdoffUntil.toNat ≤ s.ltcNs.toNat ∧ ((w []).swPort 0).pausing = none := by decide
theorem test_hyp_pause_repeat : let s := ((queued 1000000).set (MAC.MAC_CTRL_PAUSE_TX_EN 0) 1).set (MAC.PAUSE_THR_XON 0) 99
    let t := s.withPort 0 fun p => { p with pausing := some 0 }
    (t.swPort 0).pausing = some 0 ∧ t.portOn 0 = true ∧ t.flag (MAC.MAC_CTRL_PAUSE_TX_EN 0) = true ∧ t.get (MAC.PAUSE_THR_XON 0) < t.cellsFrom 0
      ∧ wireNs (t.ifCode 0) (32 * (t.set (MAC.PAUSE_TX_QUANTA 0) 1).get (MAC.PAUSE_TX_QUANTA 0)) ≤ (t.ltcNs - 0).toNat := by decide
theorem test_hyp_consist_link : (w []).powered (.mac 0) = true ∧ (w []).flag (MAC.MAC_STAT_LINK 0) ≠ true := by decide
theorem test_hyp_pause_ignored : isBackbone (8 : BitVec 4).toNat = true ∧ isBackbone (11 : BitVec 4).toNat = true ∧ (port 8 []).portOn 8 = true ∧ (port 11 []).portOn 11 = true ∧ (port 8 []).etbOn = false := by decide
def learned (ns : Nat) : State := let s := at_ ns (w [(SW.SW_CTRL_AGE, 300)]); { s with switch := { s.switch with fdb := [⟨8191, 1, 1, 0, 0⟩] } }
theorem test_hyp_fdb : let x : FdbEntry := ⟨8191, 1, 1, 0, 0⟩
    ((learned 300000000000).switch.fdb.find? fun y => y.index = 8191) = some x ∧ (learned 300000000000).live .sw = true
      ∧ (learned 300000000000).get SW.SW_CTRL_AGE ≤ (learned 300000000000).fdbAge x ∧ (learned 299999999999).fdbAge x < (learned 299999999999).get SW.SW_CTRL_AGE := by decide
/-- `len` bytes of a broadcast frame. -/
def pad (len : Nat) : List Byte := (List.replicate len (0xFF : Byte)).take 6 ++ List.replicate (len - 6) 0
/-- A host ring with one descriptor, of `len` bytes, at its head; VLAN 1 holds every port. -/
def ringed (len : Nat) : State :=
  let s := (w [(SW.SW_CTRL_EN, 1), (SW.RING_SIZE 0, 16), (SW.RING_PTR_TAIL 0, 1)]).setBeWord (vlanWord 1 0) 0x80007FFF
  { s with switch := { s.switch with descs := [⟨0, 0, some (0, BitVec.ofNat 32 len), some (some (pad len))⟩] } }
theorem test_hyp_ring : let s := ringed 60
    let d : HeadDesc := ⟨0, 60, some (some (pad 60))⟩
    let f := { s with switch := { s.switch with descs := [⟨0, 0, none, none⟩] } }
    s.powered .sw = true ∧ s.switchOn = true ∧ (∀ a ∈ s.switch.awaiting, a.ring ≠ 0) ∧ (w []).headDesc 0 = none ∧ f.headDesc 0 = some none ∧ (ringed 0).headDesc 0 = some (some ⟨0, 0, some (some [])⟩)
      ∧ s.headDesc 0 = some (some d) ∧ d.word2 % 2 ^ 14 ≠ 0 ∧ d.word2 % 2 ^ 14 ≤ s.maxFrame 12 - 4 ∧ bitOf d.word2 27 = false ∧ f.switchOn = true ∧ (ringed 0).switchOn = true
      ∧ (w [(SW.SW_CTRL_EN, 1)]).switchOn = true ∧ (w [(SW.SW_CTRL_EN, 1)]).headDesc 0 = none ∧ (w []).switchOn = false := by decide
set_option maxRecDepth 20000 in
theorem test_hyp_ring_ingress : let s := ringed 60
    let e := ((Eth.ofBytes (pad 60)).insertSums (bitOf 60 30) (bitOf 60 29) (bitOf 60 28) (s.get SW.TRDP_CFG_PORT)).1
    (s.ingress 12 e 64 s.ttcNs (some 0) (some 0)).2 = true := by decide
theorem test_hyp_telegram : let s := (((w [(SW.SW_CTRL_EN, 1)]).setBytes (trdpTx 0) [0x80]).setBytes (trdpTx 0 + 25) [1]).setBytes (trdpTx 0 + 31) [40]
    s.switchOn = true ∧ s.trdpSelected 0 s.cycle = true ∧ s.sinceTick < (s.beNat (trdpTx 0 + 28) 4 : Int) ∧ ((at_ 40 s).beNat (trdpTx 0 + 28) 4 : Int) ≤ (at_ 40 s).sinceTick ∧ (at_ 40 s).switchOn = true ∧ (at_ 40 s).trdpSelected 0 (at_ 40 s).cycle = true ∧ (at_ 40 s).switch.fired.contains 0 = false ∧ (s.withSwitch fun y => { y with fired := [0] }).switch.fired.contains 0 = true ∧ (w []).trdpSelected 0 (w []).cycle = false := by decide
theorem test_hyp_etb : let s := inState lnLISTEN []
    s.powered .sw = true ∧ s.flag SW.ETB_CTRL_ETB_EN ≠ true ∧ s.bothOff = false ∧ (w []).powered .sw = true ∧ (w []).flag SW.ETB_CTRL_ETB_EN = false ∧ (w []).bothOff = true ∧ (w []).locked .sw = false := by decide
theorem test_hyp_recovery : let s := (at_ 5000000 (w [])).setBeWord (recWord 3 0) 0x80000000
    let t := (s.setBeWord (recWord 3 1) 5).setRecovery ⟨3, false, [], 0⟩
    t.live .sw = true ∧ bitOf (t.beWord (recWord 3 0)) 31 = true ∧ (t.recoveryOf 3).takeAny = false ∧ (t.beWord (recWord 3 1) % 2 ^ 16) * 1000000 ≤ (t.ltcNs - (t.recoveryOf 3).lastPass).toNat
      ∧ (w []).recoveryOf 3 = ⟨3, true, [], 0⟩ := by decide
/-- Controller 0 in a state. -/
def can (st : Nat) (l : List (Reg × Nat)) : State := w ([(CAN.CAN_CTRL_EN 0, 1), (CAN.CAN_STAT_STATE 0, st)] ++ l)
theorem test_hyp_can : (w []).powered (.can 0) = true ∧ ((w []).setFlag (CAN.CAN_CTRL_EN 0) true).canState 0 = cnOFF ∧ (can cnINTEGRATING []).canState 0 = cnINTEGRATING
    ∧ (can cnBUSOFF []).canState 0 = cnBUSOFF ∧ (can cnRECOVERING []).canState 0 = cnRECOVERING ∧ (can cnACTIVE []).canOnBus 0 = true ∧ (can cnACTIVE [(CAN.CAN_CTRL_LISTEN 0, 1)]).canListens 0 = true
    ∧ (can cnACTIVE [(CAN.CAN_CTRL_LISTEN 0, 1)]).flag (CAN.CAN_STAT_LISTEN_ACT 0) = false ∧ (can cnACTIVE [(CAN.CAN_STAT_LISTEN_ACT 0, 1)]).canListens 0 = false
    ∧ (can cnACTIVE [(CAN.CAN_STAT_LISTEN_ACT 0, 1)]).flag (CAN.CAN_STAT_LISTEN_ACT 0) = true
    ∧ ((can cnACTIVE [(CAN.CAN_STAT_LISTEN_ACT 0, 1)]).setFlag (CAN.CAN_STAT_LISTEN_ACT 0) false).canState 0 = cnACTIVE ∧ (w []).canState 0 = cnOFF
    ∧ (can cnACTIVE []).flag (CAN.CAN_STAT_LISTEN_ACT 0) = false ∧ (can cnACTIVE [(CAN.CAN_STAT_LISTEN_ACT 0, 1)]).canOnBus 0 = true := by decide
def canFrame (id : BitVec 29) : CanFrame := ⟨false, false, false, id, false, false, 0, []⟩
/-- Buffer 63 receives identifier 5 (11-bit identifiers stand in bits 28 to 18); a FIFO takes identifier 6. -/
def canRx : State := (((can cnACTIVE [(CAN.FLT_ID_EN 0 0, 1), (CAN.FLT_MASK 0 0, 0x1FFFFFFF), (CAN.FLT_ID_ID 0 0, 6)]).setBeWord (canCfg 0 63) 0x80000000).setBeWord (canCfg 0 63 + 4) 5).setBeWord
  (canCfg 0 63 + 8) 0x1FFFFFFF
theorem test_hyp_can_rx : let t := (canRx.countGoodRx 0).settleCancels 0 fun _ => true
    (canRx.set (CAN.CAN_CTRL_FD_EN 0) 0).flag (CAN.CAN_CTRL_FD_EN 0) = false ∧ canRx.flag (CAN.CAN_CTRL_FD_EN 0) = true ∧ canRx.flag (CAN.CAN_CTRL_PXE 0) = false
      ∧ (canRx.set (CAN.CAN_CTRL_PXE 0) 1).flag (CAN.CAN_CTRL_PXE 0) = true ∧
    canRx.canOnBus 0 = true ∧ (canFrame 5).fdf = false ∧ t.bufferFor 0 (canFrame 5) = some 63 ∧ t.bufferFor 0 (canFrame 6) = none ∧ t.fifoFor 0 (canFrame 6) = some (0, 0)
      ∧ t.bufferFor 0 (canFrame 7) = none ∧ t.fifoFor 0 (canFrame 7) = none ∧ (w []).canOnBus 0 = false := by decide
theorem test_hyp_can_lock : let s := canRx.set (CAN.CAN_CTRL_LOCK_TMO 0) 1
    let t := at_ 1000 { s with canBus := s.canBus.set 0 { CanBus.reset with locks := [(63, .pcie, 0)] } }
    s.live (.can 0) = true ∧ s.canRx 0 63 = true ∧ s.canLocked 0 63 = false ∧ t.live (.can 0) = true ∧ ((t.can 0).locks.any fun x => x.1 = 63 && x.2.1 = readerOf .pcie) = true
      ∧ (t.can 0).locks = [(63, .pcie, 0)] ∧ t.get (CAN.CAN_CTRL_LOCK_TMO 0) ≠ 0 ∧ t.get (CAN.CAN_CTRL_LOCK_TMO 0) * 1000 ≤ (t.ltcNs - 0).toNat ∧ s.powered (.can 0) = true
      ∧ (w [(CAN.CAN_CTRL_LOCK_TMO 0, 0)]).get (CAN.CAN_CTRL_LOCK_TMO 0) = 0 := by decide
/-- Buffer 3 sends, in every cycle, and has a request pending. -/
def canTx : State := (((can cnACTIVE []).set (TIME.TIME_STAT_VALID) 1).set (CAN.TX_REQ_LO 0) 8).setBeWord (canCfg 0 3) 0xC1000000 |>.setBeWord (canCfg 0 3 + 4) 0x00010000
theorem test_hyp_can_tx : let s := canTx
    s.powered (.can 0) = true ∧ s.live (.can 0) = true ∧ s.canTx 0 3 = true ∧ bitOf (s.canWord 0 3 0) 24 = true ∧ s.valid = true ∧ s.canWord 0 3 1 / 2 ^ 16 % 1024 ≠ 0
      ∧ s.cycle % (s.canWord 0 3 1 / 2 ^ 16 % 1024) = s.canWord 0 3 1 % 1024 ∧ (s.canWord 0 3 2 : Int) ≤ s.sinceTick ∧ s.canTx 0 4 = false ∧ s.canOnBus 0 = true ∧ s.flag (CAN.CAN_STAT_LISTEN_ACT 0) = false
      ∧ (s.can 0).fired.contains 3 = false ∧ ((s.withCan 0 fun k => { k with fired := [3] }).can 0).fired.contains 3 = true ∧ bitOf (s.txPending 0) 3 = true ∧ s.failSilent = false
      ∧ (w [(CHIP.CHIP_STAT_FAIL_SILENT, 1)]).failSilent = true ∧ (s.set (CAN.CAN_STAT_LISTEN_ACT 0) 1).flag (CAN.CAN_STAT_LISTEN_ACT 0) = true
      ∧ (w []).canOnBus 0 = false ∧ s.canEn 0 4 = false ∧ s.canEn 0 3 = true ∧ bitOf (0 : Word).toNat 31 = false ∧ bitOf (0x80000000 : Word).toNat 31 = true := by decide
set_option maxRecDepth 20000 in
theorem test_hyp_can_choice : ((canTx.settleCancels 0 fun t => decide (t.toNat < 0)).dropUnsendable 0 0 0).txChoice 0 0 0 = some 3 ∧ canTx.txChoice 0 0 0 = some 3
    ∧ (((can cnACTIVE []).settleCancels 0 fun t => decide (t.toNat < 0)).dropUnsendable 0 0 0).txChoice 0 0 0 = none ∧ (can cnACTIVE []).failSilent = false ∧ (can cnACTIVE []).canOnBus 0 = true
    ∧ (can cnACTIVE []).flag (CAN.CAN_STAT_LISTEN_ACT 0) = false := by decide
/-- MVB 0 with a source port (address 0x10, 2 bytes) in entry 0 and a sink port (address 0x11, 2 bytes, stale after 1 ms) in entry 1. -/
def mvb : State := ((w [(MVB.MVB_CTRL_EN 0, 1), (MVB.MVB_CTRL_LINES 0, 3)]).setBeWord (mvbCfg 0 0) 0xA0000010).setBeWord (mvbCfg 0 1) 0xC0000011 |>.setBeWord (mvbCfg 0 1 + 4) 1
theorem test_hyp_mvb_master : let s := mvb
    let u := (s.judgeLines 0 true true).withMvb 0 (fun k => { k with awaiting := none })
    let t := (u.count (MVB.MF_CNT 0)).setFlag (MVB.MVB_STAT_LISTEN_ACT 0) ((u.count (MVB.MF_CNT 0)).mvbListens 0)
    s.live (.mvb 0) = true ∧ s.flag (MVB.MVB_CTRL_EN 0) = true ∧ s.flag (MVB.MVB_STAT_TRUSTED 0) = false ∧ s.mvbLine 0 0 = true ∧ 4 < (5 : BitVec 4).toNat ∧ (14 : BitVec 4).toNat ≠ 15 ∧ (4 : BitVec 4).toNat ≤ 4
      ∧ t.mvbEntry 0 0x12 = none ∧ t.mvbEntry 0 0x11 = some 1 ∧ t.mvbDir 0 1 = 2 ∧ t.mvbEntry 0 0x10 = some 0 ∧ t.mvbDir 0 0 ≠ 2 ∧ 1 ≠ t.mvbFcode 0 0 ∧ 0 = t.mvbFcode 0 0
      ∧ (u.count (MVB.MF_CNT 0)).mvbListens 0 = false ∧ (0 : BitVec 12).toNat = t.get (MVB.DEV_ADDR 0) ∧ (1 : BitVec 12).toNat ≠ t.get (MVB.DEV_ADDR 0) ∧ t.failSilent = false
      ∧ (((t.count (MVB.SF_TX_CNT 0)).setBeWord (mvbCfg 0 0 + 8) t.cycle).countEntry 0 0).failSilent = false ∧ (w []).flag (MVB.MVB_CTRL_EN 0) = false := by decide
theorem test_hyp_mvb_listens : let s (f : Nat) := (mvb.set (MVB.MVB_CTRL_LISTEN 0) 1).set CHIP.CHIP_STAT_FAIL_SILENT f
    let u := ((s 0).judgeLines 0 true true).withMvb 0 (fun k => { k with awaiting := none })
    (u.count (MVB.MF_CNT 0)).mvbListens 0 = true ∧ (mvb.set CHIP.CHIP_STAT_FAIL_SILENT 1).failSilent = true := by decide
theorem test_hyp_mvb_slave : let s := mvb.withMvb 0 fun k => { k with awaiting := some 1 }
    (s.mvb 0).awaiting = some 1 ∧ s.live (.mvb 0) = true ∧ s.flag (MVB.MVB_CTRL_EN 0) = true ∧ s.flag (MVB.MVB_STAT_TRUSTED 0) = false ∧ s.mvbLine 0 0 = true
      ∧ [(1 : Byte), 2].length = mvbSize (s.mvbFcode 0 1) ∧ [(1 : Byte)].length ≠ mvbSize (s.mvbFcode 0 1) ∧ (mvb.mvb 0).awaiting = none := by decide
theorem test_hyp_mvb_stale : let s := at_ 1000000 mvb
    let t := s.withMvb 0 fun k => { k with stale := [1] }
    s.live (.mvb 0) = true ∧ s.mvbEn 0 1 = true ∧ s.mvbDir 0 1 = 2 ∧ s.mvbSilent 0 1 = true ∧ s.mvbWord 0 0 1 % 2 ^ 16 = 0 ∧ t.live (.mvb 0) = true ∧ t.mvbDir 0 1 = 2 ∧ t.mvbSilent 0 1 = true ∧ (s.mvb 0).stale.contains 1 = false ∧ (t.mvb 0).stale.contains 1 = true ∧ t.mvbEn 0 1 = true := by decide
theorem test_hyp_mvb_flip : let x : Staged := ⟨mvbObj 0 0, false, [], []⟩
    let s : State := { mvb with staged := [x] }
    s.powered (.mvb 0) = true ∧ s.stagedOf (mvbObj 0 0) = some x ∧ s.holdsProv (mvbObj 0 0) = false ∧ s.held.contains (mvbObj 0 0) = false ∧ mvb.stagedOf (mvbObj 0 0) = none := by decide
/-- A senior chip of a pair with a hat state, its line in RUN. -/
def pair (hat : Nat) (l : List (Reg × Nat)) : State := w ([(TWIN.TWIN_CTRL_EN, 1), (TWIN.TWIN_STAT_HAT_STATE, hat), (GTB.FORM_STAT_STATE .A, lnRUN), (GTB.LINE_CTRL_EN .A, 1), (SEC.LC_STATE, lcPROVISIONED), (CHIP.CHIP_STAT_BOOT_DONE, 1)] ++ l)
/-- The peer's header: the junior's, ready. -/
def peer : TwinHeader := ⟨true, true, 0, false, 0⟩
theorem test_hyp_hat : let u (hat : Nat) := (pair hat []).noteHeader peer
    let v := ((u hatSTANDBY).withTwin fun t => { t with renewed := some 0, peerLease := 4 }).recheckLines (u hatSTANDBY) |>.settleHat
    (pair hatSTANDBY []).twinRuns = true ∧ peer.twinId ≠ (pair hatSTANDBY []).junior ∧ ((pair hatSTANDBY [(TIME.TIME_STAT_VALID, 1), (CYC.CYC_NUM, 1)]).noteHeader peer).lateFor 0 = true
      ∧ (u hatSTANDBY).lateFor 0 = false ∧ (u hatWEARING).hat = hatWEARING ∧ (u hatSTANDBY).hat = hatSTANDBY ∧ (u hatNONE).hat = hatNONE ∧ (u hatNONE).lateFor 0 = false ∧ v.hat = hatSTANDBY
      ∧ (let n := (((u hatNONE).setHat hatSTANDBY (u hatNONE).cycle).withTwin fun t => { t with renewed := some 0, peerLease := 4 }).recheckLines (u hatNONE) |>.settleHat; n.hat = hatSTANDBY) := by decide
theorem test_hyp_hat_grant : let u := (pair hatWEARING []).noteHeader peer
    let v := (u.set TWIN.LAST_GRANT 0).withTwin (fun t => { t with unready := !peer.ready })
    let x := u.withTwin fun t => { t with tookAt := some 1, handoverAt := some 1 }
    u.hat = hatWEARING ∧ u.lateFor 0 = false ∧ v.flag TWIN.TWIN_STAT_PEER_LOST = false ∧ v.twinUnit.blocked = false ∧ x.twinUnit.tookAt = some 1 ∧ x.junior = false ∧ x.hat = hatWEARING
      ∧ x.twinUnit.handoverAt = some 1 ∧ cyclesAfter x.cycle 1 < 0 := by decide
/-- A standby without a cause that keeps it from the hat: its epoch is committed and of its own topology. -/
def fit (l : List (Reg × Nat)) : State := (pair hatSTANDBY ((TIME.TIME_STAT_VALID, 1) :: l)).withTwin fun t => { t with headOk := true, committed := some ⟨0, 0, []⟩, granted := true }
theorem test_hyp_handover_rx : let u := (fit []).noteHeader peer
    u.hat = hatSTANDBY ∧ u.unable u.cycle = 0 ∧ cyclesAfter u.cycle 1 < 0 ∧ (fit []).twinRuns = true := by decide
theorem test_hyp_own_identity : (pair hatSTANDBY []).twinRuns = true ∧ ({ peer with twinId := false }).twinId = (pair hatSTANDBY []).junior := by decide
theorem test_hyp_lease_end : let s (hbt : Nat) := pair hatWEARING [(TWIN.LEASE_CFG_LEASE, 4), (CYC.CYC_NUM, 3), (TWIN.TWIN_STAT_HBT_IN, hbt)]
    (s 0).twinRuns = true ∧ (s 0).hat = hatWEARING ∧ (s 0).flag TWIN.TWIN_STAT_PEER_LOST = false
      ∧ ((s 0).get TWIN.LEASE_CFG_LEASE : Int) ≤ cyclesAfter (s 0).nextTick (BitVec.ofNat 32 ((s 0).get TWIN.LAST_GRANT)) ∧ (s 0).get TWIN.TWIN_STAT_HBT_IN = 0 ∧ (s 2).get TWIN.TWIN_STAT_HBT_IN ≠ 0
      ∧ (s 2).twinRuns = true ∧ (s 2).hat = hatWEARING ∧ ((s 2).get TWIN.LEASE_CFG_LEASE : Int) ≤ cyclesAfter (s 2).nextTick (BitVec.ofNat 32 ((s 2).get TWIN.LAST_GRANT)) := by decide
theorem test_hyp_claim : let s (hbt : Nat) := fit [(TWIN.LEASE_CFG_LEASE, 2), (TWIN.LEASE_CFG_GUARD, 1), (CYC.CYC_NUM, 2), (TWIN.TWIN_STAT_HBT_IN, hbt)]
    let u (hbt : Nat) := (s hbt).refreshTwinAt (s hbt).nextTick
    (u 2).twinRuns = true ∧ (u 2).hat = hatSTANDBY ∧ (u 2).twinUnit.granted = true ∧ (((u 2).leaseSpan + (u 2).guardSpan : Nat) : Int) ≤ cyclesAfter (u 2).nextTick (BitVec.ofNat 32 ((u 2).get TWIN.LAST_GRANT))
      ∧ (u 2).unable (u 2).nextTick = 0 ∧ (u 2).get TWIN.TWIN_STAT_HBT_IN = 2 ∧ (u 1).unable (u 1).nextTick = 0 ∧ (u 1).get TWIN.TWIN_STAT_HBT_IN ≠ 2 ∧ (u 1).hat = hatSTANDBY := by decide
theorem test_hyp_startup : let s := (pair hatNONE [(TWIN.LEASE_CFG_START_SENIOR, 2)]).withTwin fun t => { t with startTicks := 1 }
    s.twinRuns = true ∧ s.hat = hatNONE ∧ s.junior = false ∧ s.get TWIN.LEASE_CFG_START_SENIOR ≤ s.startCount ∧ s.chipUnable ≠ 0 ∧ (s.set TIME.TIME_STAT_VALID 1).chipUnable = 0 ∧ (pair hatSTANDBY []).hat ≠ hatNONE := by decide
theorem test_hyp_handover : let s := pair hatWEARING [(TWIN.TWIN_CTRL_HANDOVER, 1)]
    let t := (pair hatSTANDBY []).withTwin fun t => { t with handoverAt := some 1 }
    let o := (pair hatNONE []).withTwin fun t => { t with outgoing := some 1, peerHat := hatWEARING, peerReleased := true }
    let g := (pair hatPARTITIONED [(TWIN.LEASE_CFG_LEASE, 2), (TWIN.LEASE_CFG_GUARD, 1)]).withTwin fun t => { t with hbtSilentTicks := 3 }
    s.powered .twin = true ∧ s.flag TWIN.TWIN_CTRL_HANDOVER = true ∧ (s.setFlag TWIN.TWIN_CTRL_HANDOVER true).handoverCause.isSome = true
      ∧ (pair hatWEARING []).handoverCause = none ∧ (w []).twinUnit.handoverAt ≠ some (BitVec.ofNat 32 (w []).nextTick) ∧ t.twinRuns = true ∧ t.twinUnit.handoverAt = some (BitVec.ofNat 32 t.nextTick) ∧ t.hat = hatSTANDBY
      ∧ o.twinUnit.outgoing = some 1 ∧ o.twinUnit.peerHat = hatWEARING ∧ o.twinUnit.peerReleased = true ∧ (w []).twinUnit.outgoing = none ∧ g.twinRuns = true ∧ g.hat = hatPARTITIONED
      ∧ g.get TWIN.TWIN_STAT_HBT_IN = 0 ∧ g.leaseSpan + g.guardSpan ≤ g.twinUnit.hbtSilentTicks ∧ (1 : BitVec 16) ≠ 0xB4A7 := by decide
theorem test_hyp_handover_tick : let s := (pair hatWEARING [(TWIN.TWIN_CTRL_HANDOVER, 1)]).withTwin fun t => { t with handoverAt := some 1 }
    let t := s.withTwin fun x => { x with acked := true }
    s.twinRuns = true ∧ s.twinUnit.handoverAt = some (BitVec.ofNat 32 s.nextTick) ∧ s.hat = hatWEARING ∧ s.twinUnit.acked = false ∧ ((s.withTwin fun x => { x with handoverAt := none }).tryHandover ((s.nextTick + 1) % 2 ^ 32)).twinUnit.handoverAt.isSome = true
      ∧ ((((pair hatWEARING []).withTwin fun t => { t with handoverAt := some 1 }).withTwin fun x => { x with handoverAt := none }).tryHandover 2).twinUnit.handoverAt = none
      ∧ t.twinRuns = true ∧ t.twinUnit.handoverAt = some (BitVec.ofNat 32 t.nextTick) ∧ t.hat = hatWEARING ∧ t.twinUnit.acked = true := by decide
theorem test_hyp_merge : let u := (pair hatSTANDBY []).noteHeader peer
    let x := { u with capture := { u.capture with taken := true } }
    u.hat = hatSTANDBY ∧ (1 : BitVec 16) = u.twinUnit.mseqIn + 1 ∧ (0 : BitVec 32).toNat = u.cycle ∧ u.capture.taken = false ∧ x.capture.taken = true ∧ u.twinUnit.incoming = none
      ∧ ((pair hatWEARING []).noteHeader peer).hat = hatWEARING := by decide
theorem test_hyp_mirror : ((pair hatSTANDBY []).noteHeader peer).mirrorCrc ≠ ((pair hatSTANDBY []).noteHeader peer).mirrorCrc + 1 := by
  generalize ((pair hatSTANDBY []).noteHeader peer).mirrorCrc = x; simp
theorem test_hyp_epoch : let head : List Byte := [0, 0, 0, 0, 0, 0, 0, 0, 0, 0, 0, 2]
    let u := ((pair hatSTANDBY []).noteHeader peer).withTwin fun t => { t with incoming := some (1, 0, head) }
    u.twinUnit.incoming = some (1, 0, head) ∧ [(5 : Byte), 6].length = natOfBE ((head.drop 8).take 4) ∧ u.lateFor (1 + 1) = false ∧ (1 : BitVec 32) ≠ 2 := by decide
theorem test_hyp_heartbeat : let s := (pair hatSTANDBY [(TWIN.TWIN_STAT_HBT_IN, 2)]).withTwin fun t => { t with hbtMiss := 1 }
    let t := at_ 200000 s
    (749 : BitVec 16).toNat < 750 ∧ 3250 < (3251 : BitVec 16).toNat ∧ 1750 ≤ (1750 : BitVec 16).toNat ∧ (2250 : BitVec 16).toNat ≤ 2250 ∧ t.twinRuns = true ∧ t.get TWIN.TWIN_STAT_HBT_IN ≠ 0
      ∧ 1 ≤ t.twinUnit.hbtMiss ∧ t.twinUnit.hbtSeen = false ∧ (100 + t.precision + 500 : Int) < t.sinceTick ∧ (w []).get TWIN.TWIN_STAT_HBT_IN = 0 ∧ (w []).twinRuns = false := by decide
/-- The PCIe function with its link up and memory space enabled, after boot stage 6. -/
def pcie (stage : Nat) : State :=
  let s := w [(PCIE.PCIE_STAT_DL_UP, 1), (SEC.BOOT_STAT_STAGE, stage)]
  { s with bridges := { s.bridges with config := { s.bridges.config with memEn := true }, reads := [⟨5, ⟨.desc 0 0, 0, 0, 16⟩, 0⟩] } }
def anOutTag : OutTag := ⟨5, ⟨.desc 0 0, 0, 0, 16⟩, 0⟩
theorem test_hyp_pcie : (pcie 6).pcieServes = true ∧ (w []).pcieServes = false ∧ (pcie 6).powered .pcie = true ∧ ((pcie 6).bridges.reads.find? fun x => x.tag = 5) = some anOutTag
    ∧ ((at_ 10000000 (pcie 6)).bridges.reads.find? fun x => x.tag = 5) = some anOutTag ∧ (at_ 10000000 (pcie 6)).cplTimeout ≤ ((at_ 10000000 (pcie 6)).ltcNs - anOutTag.since).toNat
    ∧ ((pcie 6).ltcNs - anOutTag.since).toNat < (pcie 6).cplTimeout
    ∧ ((pcie 6).bridges.reads.find? fun x => x.tag = 6) = none ∧ (pcie 6).flag PCIE.PCIE_STAT_DL_UP = true ∧ (w []).flag PCIE.PCIE_STAT_DL_UP = false ∧ (pcie 5).get SEC.BOOT_STAT_STAGE < 6
    ∧ 6 ≤ (pcie 6).get SEC.BOOT_STAT_STAGE ∧ (pcie 5).flag PCIE.PCIE_STAT_DL_UP = true ∧ 1 ≤ (1 : BitVec 3).toNat ∧ (3 : BitVec 3).toNat ≤ 3 ∧ (4 : BitVec 4) = 4 := by decide
/-- The SPI bridge, its read slot in a state. -/
def spi (slot : Nat) : State :=
  let s := w [(QSPI.QSPI_CTRL_EN, 1), (QSPI.QSPI_STAT_SLOT, slot), (QSPI.DR_ADDR, 8), (QSPI.DR_LEN, 4)]
  { s with bridges := { s.bridges with slot := some (some [1, 2, 3, 4]) } }
theorem test_hyp_spi : (spi 0).spiServes = true ∧ (w [(QSPI.QSPI_CTRL_EN, 0)]).spiServes = false ∧ frameGood 8 4 = true ∧ frameGood 8 4096 = true ∧ frameGood 8 4100 = false ∧ frameGood 8 0 = false ∧ frameGood (2 ^ 31) 4 = false
    ∧ (4 : BitVec 16).toNat ≤ [(0 : Byte), 0, 0, 0].length ∧ (spi 0).get QSPI.QSPI_STAT_SLOT = 0 ∧ (spi 1).get QSPI.QSPI_STAT_SLOT = 1 ∧ (spi 2).get QSPI.QSPI_STAT_SLOT = 2
    ∧ (spi 2).get QSPI.DR_ADDR = 8 ∧ (spi 2).get QSPI.DR_LEN = 4 ∧ (spi 2).bridges.slot = some (some [1, 2, 3, 4]) ∧ (spi 1).get QSPI.QSPI_STAT_SLOT = drFETCHING
    ∧ (spi 1).bridges.slot.isSome = true ∧ (at_ 1000000 (spi 2)).get QSPI.QSPI_STAT_SLOT = drHELD ∧ (at_ 1000000 (spi 2)).get QSPI.QSPI_CTRL_DR_TMO * 1000 ≤ ((at_ 1000000 (spi 2)).ltcNs - (at_ 1000000 (spi 2)).bridges.slotSince).toNat
    ∧ ((spi 2).ltcNs - (spi 2).bridges.slotSince).toNat < (spi 2).get QSPI.QSPI_CTRL_DR_TMO * 1000 ∧ (spi 2).get QSPI.QSPI_STAT_SLOT = drHELD ∧ (spi 0).get QSPI.QSPI_STAT_SLOT = drEMPTY := by decide
theorem test_hyp_posted : let s := w []
    let f : State := { s with bridges := { s.bridges with hostReads := [⟨.pcie, 0, false, Page.pcie.base + 0x090, 4, [], none, false, false, false⟩], remoteWrites := [⟨1, .pcie, 2, 0⟩] } }
    s.powered (bridgePage .pcie) = true ∧ s.powered (bridgePage .qspi) = true ∧ 1 ≤ (1 : BitVec 4).toNat ∧ (6 : BitVec 4).toNat ≤ 6 ∧ s.bridges.hostReads.any s.fenceWaits = false
      ∧ f.powered (bridgePage .pcie) = true ∧ f.bridges.hostReads.any f.fenceWaits = true := by decide
theorem test_hyp_msix : let s := w [(INTC.INTC_CTRL_MSIX_EN, 1), (INTC.VEC_ARM_LO, 8), (INTC.SRC_ROUTE_MSIX_EN 1, 1), (INTC.SRC_ROUTE_VEC 1, 3), (HDR.INT_RAW .time, 256), (HDR.INT_EN .time, 256)]
    s.power.held = false ∧ s.flag INTC.INTC_CTRL_MSIX_EN = true ∧ bitOf s.vecArm 3 = true ∧ s.vecPending 3 = true ∧ bitOf (w [(INTC.VEC_ARM_LO, 0), (INTC.VEC_ARM_HI, 0)]).vecArm 3 = false := by decide
/-- The link block of a pair, with lane 0 up or down. -/
def link (up : Nat) (l : List (Reg × Nat)) : State := w ([(LZL.LZL_CTRL_EN, 1), (LZL.LZL_CTRL_LANE0_EN, 1), (LZL.LZL_STAT_LANE_UP, up), (TWIN.TWIN_CTRL_EN, 1)] ++ l)
def linkFrame (repl : Bool) : LinkFrame := ⟨true, true, repl, 7, 0, .reserved⟩
theorem test_hyp_lanes : let s := link 0 []
    let t := link 1 []
    let seen := { t with bridges := { t.bridges with seen := [((linkFrame true).payload.cls, 7, 1)] } }
    s.linkOn = true ∧ s.flag (laneEnable 0) = true ∧ s.laneUp 0 = false ∧ (link 0 [(LZL.LZL_CTRL_LANE1_EN, 0)]).flag (laneEnable 1) = false
      ∧ t.laneUp 0 = true ∧ (((link 1 [(TWIN.TWIN_CTRL_EN, 0)]).setLane 0 false false)).twin = false ∧ t.linkOn = true ∧ (linkFrame true).crcGood = true ∧ (linkFrame true).repl = true
      ∧ seen.frameSeen (linkFrame true).payload.cls 0 (linkFrame true).seq = true ∧ t.frameSeen (linkFrame true).payload.cls 0 (linkFrame true).seq = false ∧ (linkFrame false).repl = false := by decide
theorem test_hyp_lane_down : (link 1 []).laneUp 0 = true ∧ ((link 1 []).setLane 0 false false).drainAll.twin = true ∧ (link 1 [(TWIN.TWIN_CTRL_EN, 0)]).laneUp 0 = true
    ∧ ((link 1 [(TWIN.TWIN_CTRL_EN, 0)]).setLane 0 false false).drainAll.twin = false := by decide
/-- Both lanes up; the number due in the class of `linkFrame` is 7. -/
def striped : State := let s := link 3 [(LZL.LZL_CTRL_LANE1_EN, 1)]; s.setSeqDue (linkFrame false).payload.cls 7
theorem test_hyp_striped : let u (f : LinkFrame) : State := { striped with bridges := { striped.bridges with laneSeq := [(f.payload.cls, 0, f.seq)] } }
    let f (seq : BitVec 16) : LinkFrame := { linkFrame false with seq := seq }
    striped.linkOn = true ∧ striped.laneUp 0 = true ∧ striped.bridges.laneSeq = [] ∧ striped.bridges.early = [] ∧ (f 6).crcGood = true ∧ (f 6).repl = false ∧ (u (f 6)).seqDue (f 6).payload.cls = some 7
      ∧ ((f 6).seq - 7).toInt < 0 ∧ (u (f 7)).seqDue (f 7).payload.cls = some (f 7).seq ∧ (link 1 []).seqDue (f 7).payload.cls = none ∧ (u (f 8)).seqDue (f 8).payload.cls = some 7 ∧ 0 < ((f 8).seq - 7).toInt
      ∧ (let v := (u (f 8)).setSeqDue (f 8).payload.cls 7; ({ v with bridges := { v.bridges with early := [f 8] } } : State).seqLost (f 8).payload.cls 7 = false) := by decide
theorem test_hyp_copies : let s := link 1 []
    let t := s.withTime fun t => { t with returnEndSeen := true }
    let g : FormingSegment := ⟨1, 0, 0, 1, []⟩
    s.linkOn = true ∧ s.twinRuns = true ∧ Line.B ≠ s.twinLine ∧ Line.A = s.twinLine ∧ t.time.returnEndSeen = true ∧ s.time.returnEndSeen = false ∧ (0 : BitVec 32).toNat = s.cycle ∧ (1 : BitVec 32).toNat ≠ s.cycle
      ∧ g.segCnt = 1 ∧ g.seg = 0 ∧ ∀ h ∈ s.forming.heldSegments, h.kind ≠ g.kind := by decide
def remoteReq : RemoteRequest := ⟨false, 4, 0x010040, [], 9⟩
theorem test_hyp_remote : let s := link 1 [(LZL.LZL_CTRL_RMT_EN, 1)]
    let r : HostRead := ⟨.pcie, 0, false, 0, 4, [], some 9, false, false, false⟩
    let t := { s with bridges := { s.bridges with hostReads := [r] } }
    s.linkOn = true ∧ remoteReq.write = false ∧ (link 1 [(LZL.LZL_CTRL_RMT_EN, 0)]).flag LZL.LZL_CTRL_RMT_EN = false ∧ s.flag LZL.LZL_CTRL_RMT_EN = true ∧ remoteReq.fits = true
      ∧ (∀ r ∈ s.bridges.hostReads, r.link = none) ∧ (s.remoteWords remoteReq.addr (remoteReq.len / 4)).1 ≠ none ∧ t.remoteRead = some r ∧ r.link = some 9 ∧ s.remoteRead = none ∧ (at_ 65535000 t).remoteRead = some r
      ∧ (at_ 65535000 t).get LZL.LZL_CTRL_RMT_TMO * 1000 ≤ ((at_ 65535000 t).ltcNs - (at_ 65535000 t).bridges.askedAt).toNat ∧ (t.ltcNs - t.bridges.askedAt).toNat < t.get LZL.LZL_CTRL_RMT_TMO * 1000 := by decide
/-- A chip in a life-cycle state. -/
def life (lc : Nat) (l : List (Reg × Nat)) : State := w ((SEC.LC_STATE, lc) :: l)
theorem test_hyp_life : let s := life lcPROVISIONED []
    let t := life lcPROVISIONED [(PWR.SUP_STAT_BO_ACTIVE, 1)]
    (Instr.lcScrap, 5) ∈ [(Instr.lcManufacture, 1), (.lcProvision, 2), (.lcDeploy, 3), (.lcReturn, 4), (.lcScrap, 5), (.operatorRootInstall, 6), (.rootRevoke, 7),
      (.fleetKeyInstall, 8), (.debugToken, 9), (.headKeyInstall, 10)] ∧ (life lcSCRAPPED []).lifeCycle = lcSCRAPPED ∧ s.powered .sec = true ∧ s.lifeCycle ≠ lcSCRAPPED ∧ s.sec.waiting = none
      ∧ (s.withSec fun k => { k with waiting := some 5 }).sec.waiting.isSome = true ∧ (w [(PWR.PD_STAT_ON, 0)]).powered .sec = false ∧ s.commandSigned 5 = false
      ∧ t.flag PWR.SUP_STAT_BO_ACTIVE = true ∧ t.sec.waiting = none ∧ t.lifeCycle ≠ lcSCRAPPED ∧ s.flag PWR.SUP_STAT_BO_ACTIVE = false ∧ s.commandAllowed 1 = false ∧ s.commandAllowed 6 = true
      ∧ (life lcBLANK []).commandAllowed 1 = true ∧ (life lcMANUFACTURE []).commandAllowed 2 = true ∧ (life lcDEPLOYED []).commandAllowed 4 = true ∧ s.commandAllowed 5 = true ∧ s.commandAllowed 7 = true
      ∧ s.commandAllowed 8 = true ∧ s.commandAllowed 9 = true ∧ s.commandAllowed 10 = true
      ∧ ({ s with otp := { s.otp with operatorRoots := [0], flashFleet := some 1 } } : State).commandAllowed 3 = true
      ∧ s.otp.operatorRoots.length < 4 ∧ 4 ≤ ({ s with otp := { s.otp with operatorRoots := [0, 1, 2, 3] } } : State).otp.operatorRoots.length
      ∧ s.random true = none ∧ s.otp.deviceKey = none ∧ ({ s with otp := { s.otp with deviceKey := some 1 } } : State).otp.deviceKey = some 1 := by decide
theorem test_hyp_boot : let s (n : Nat) : State := { w [] with power := { Power.reset with bootNext := n, held := false } }
    (s 1).powered .sec = true ∧ (s 1).lifeCycle ≠ lcSCRAPPED ∧ (2 : BitVec 16) ≠ 0xB4A7 ∧ (s 1).power.held = false ∧ (s 1).power.bootNext = 1 ∧ (s 6).power.bootNext ≠ 1 ∧ (s 6).power.bootNext = 6
      ∧ (s 6).power.advance = false ∧ (s 6).power.bootNext ≠ 7 ∧ (s 7).power.bootNext = 7 ∧ (s 7).power.bootNext ≠ 6 ∧ (s 1).power.bootNext ≠ 2 ∧ (s 1).power.bootNext ≠ 3 ∧ (s 1).power.bootNext ≠ 4
      ∧ (s 1).power.bootNext ≠ 5 ∧ (s 6).lifeCycle ≠ lcDEPLOYED ∧ ((((({ (((s 7).set SEC.BOOT_STAT_STAGE 7).setFlag CHIP.CHIP_STAT_BOOT_DONE true) with
        power := { (s 7).power with bootNext := 0 } } : State).setFlag PWR.PUSH_STAT_PUSH false).setFlag PWR.PUSH_STAT_READY false).raise .chip 11).flag (GTB.LINE_CTRL_EN .A)) = false
      ∧ (let u : State := { life lcDEPLOYED [] with power := { Power.reset with bootNext := 6, advance := true } }; u.power.advance = true ∧ u.lifeCycle = lcDEPLOYED) ∧ ({ s 1 with power := { Power.reset with held := true } } : State).power.held = true
      ∧ (w [(PWR.PUSH_STAT_PUSH, 1)]).flag PWR.PUSH_STAT_PUSH = true ∧ (w []).power.pushLast = false ∧ ({ w [] with power := { Power.reset with pushLast := true } } : State).power.pushLast = true := by decide
/-- In-service proofing of channel A's engines, within the limits and in IDLE. -/
def proofing (l : List (Reg × Nat)) (f : Rotation → Rotation) : State :=
  let s := life lcPROVISIONED ([(PRF.PRF_CTRL_EN, 1), (PRF.PRF_CTRL_ENG_EN, 1), (PRF.RESULT_RESULT 0, 1), (PWR.SUP_STAT_VDD_WIN, 1), (CLK.CLK_STAT_FAB_OK, 1), (CLK.CLK_STAT_ENG_OK, 1),
    (PWR.SUP_STAT_TJ_WIN, 1), (CYC.IDLE_LEN, 1000000), (HDR.PAGE_CTRL_PROOF_ALLOW (.eng .A 0), 1), (HDR.PAGE_CTRL_PROOF_ALLOW (.eng .A 15), 1)] ++ l)
  ({ s.set TIME.TIME_STAT_VALID 1 with proof := { s.proof with rotations := s.proof.rotations.modify 0 f } } : State).withTime fun t => { t with running := true, ticked := true }
theorem test_hyp_interval : let s := proofing [] fun x => { x with wait := some 0 }
    (0 : BitVec 3) ≠ 4 ∧ s.lockedMode = false ∧ (s.rotation 0).wait = some 0 ∧ s.proofOn 0 = true ∧ s.get (PRF.RESULT_RESULT 0) = 1 ∧ s.proofSpare 0 = some 15 ∧ s.nextCell 0 15 = some 0
      ∧ ((w []).rotation 0).wait ≠ some 0 ∧ (4 : Nat) ≤ (4 : BitVec 3).toNat := by decide
theorem test_hyp_run_start : let s := proofing [] fun x => { x with due := true }
    (0 : BitVec 3) ≠ 5 ∧ s.phase = 2 ∧ (w []).phase ≠ 2 ∧ s.flag PWR.SUP_STAT_BO_ACTIVE = false ∧ (s.proofPair 0).all s.runReady = true ∧ ((w []).proofPair 0).all (w []).runReady = false ∧ s.withinLimits = true ∧ s.proofSpare 0 = some 15
      ∧ (proofing [(CLK.CLK_STAT_FAB_OK, 0)] fun x => { x with due := true }).withinLimits = false ∧ (proofing [(CLK.CLK_STAT_FAB_OK, 0)] fun x => { x with due := true }).runReady 0 = true := by decide
theorem test_hyp_patterns : let r : ProofRun := ⟨15, 0, 100, [], none⟩
    let s := proofing [(PRF.PRF_CFG_RETEST, 1)] fun x => { x with run := some r }
    let t := proofing [(PRF.PRF_CFG_RETEST, 0)] fun x => { x with run := some r }
    (s.rotation 0).run = some r ∧ r.ended = none ∧ (s.showSignature 5).flag PRF.PRF_CFG_RETEST = true ∧ ((s.showSignature 5).rotation 0).retest = false ∧ (t.rotation 0).run = some r
      ∧ (t.showSignature 5).flag PRF.PRF_CFG_RETEST = false ∧ ((w []).rotation 0).run = none ∧ s.powered .prf = true ∧ s.patternsAll r = false ∧ (at_ 1000000 s).patternsAll r = true ∧ ((at_ 1000000 s).rotation 0).run = some r ∧ (at_ 1000000 t).patternsAll r = true := by decide
theorem test_hyp_signature (x : BitVec 128) : x + 1 ≠ x := by simp
theorem test_hyp_maintenance : let s := proofing [] id
    let m : Maintenance := ⟨6, .A, 0, false, ⟨0, s.ltcNs, s.maintPatterns 6, [], none⟩⟩
    bitOf (0x80000006 : Word).toNat 31 = true ∧ (0x80000006 : Word).toNat % 2 ^ 8 ≠ 4 ∧ m = ⟨(0x80000006 : Word).toNat % 2 ^ 8, if bitOf (0x80000006 : Word).toNat 13 then .B else .A,
        (0x80000006 : Word).toNat / 2 ^ 8 % 2 ^ 5, false, ⟨(0x80000006 : Word).toNat / 2 ^ 8 % 2 ^ 5, s.ltcNs, s.maintPatterns ((0x80000006 : Word).toNat % 2 ^ 8), [], none⟩⟩
      ∧ s.powered .prf = true ∧ State.reset.powered .prf = false ∧ s.bothOff = true ∧ s.maintIdle m = true ∧ s.proof.maint = none ∧ s.proofingState = true ∧ s.live .prf = true ∧ (s.abortInService 8).withinLimits = true
      ∧ (s.abortInService 8).flag PWR.SUP_STAT_BO_ACTIVE = false ∧ bitOf (6 : Word).toNat 31 = false ∧ (inState lnLISTEN []).bothOff = false := by decide
theorem test_hyp_maintenance_run : let s := proofing [] id
    let r (e : Option Nat) : State := { s with proof := { s.proof with maint := some ⟨6, .A, 0, false, ⟨0, 0, 100, [], e⟩⟩ } }
    let d : State := { proofing [(CLK.CLK_STAT_FAB_OK, 0)] id with proof := (r (some 0)).proof }
    (r (some 0)).proof.maint = some ⟨6, .A, 0, false, ⟨0, 0, 100, [], some 0⟩⟩ ∧ (r (some 0)).flag PWR.SUP_STAT_BO_ACTIVE = false ∧ (r (some 0)).withinLimits = true ∧ d.withinLimits = false
      ∧ d.flag PWR.SUP_STAT_BO_ACTIVE = false ∧ (at_ 1000000 (r none)).patternsAll ⟨0, 0, 100, [], none⟩ = true ∧ (r (some 1)).proof.maint.map (fun m => m.run.ended) = some (some 1)
      ∧ (r (some 2)).proof.maint.map (fun m => m.run.ended) = some (some 2) ∧ s.proof.maint = none := by decide
/-- The tag link of head 0 in use. -/
def tagged (l : List (Reg × Nat)) (f : TagPort → TagPort) : State := (w ([(CPL.CPL_CTRL_EN, 1), (CPL.CPL_CTRL_TAG_EN, 1), (GTB.PORT_CFG_COUPLER .A, 1)] ++ l)).withTag 0 f
def answer : List Byte := 0x5C :: [2, 0, 5] ++ bytesBE 2 (crc16 [2, 0, 5])
theorem test_hyp_tag : let s := tagged [] fun x => { x with request := [1], seq := 5, tries := 2 }
    let u := (s.count (CPL.LOCAL_MATES 0)).countBy (CPL.HEAD_STAT_PENDING 0) 1
    let f := ((tagged [(CHIP.CHIP_STAT_FAIL_SILENT, 1)] id).count (CPL.LOCAL_MATES 0)).countBy (CPL.HEAD_STAT_PENDING 0) 1
    s.tagActive 0 = true ∧ u.tagDrives = true ∧ (u.tag 0).step = .idle ∧ f.tagDrives = false ∧ readTagFrame 0x5C [] = none ∧ readTagFrame 0x5C answer = some (0, 5, []) ∧ s.tagDrives = true
      ∧ (s.tag 0).request ≠ [] ∧ (5 : Byte) = (s.tag 0).seq ∧ (s.tag 0).tries < 3 ∧ (6 : Byte) ≠ (s.tag 0).seq ∧ 3 ≤ ((tagged [] fun x => { x with request := [1], tries := 3 }).tag 0).tries
      ∧ ((tagged [] fun x => { x with step := .chal }).tag 0).step ≠ .idle ∧ ((tagged [] fun x => { x with step := .chal }).tag 0).step ≠ .margin ∧ (tagged [(CHIP.CHIP_STAT_FAIL_SILENT, 1)] id).tagDrives = false
      ∧ readTagFrame 0xC5 (0xC5 :: [2, 1, 5] ++ bytesBE 2 (crc16 [2, 1, 5])) = some (1, 5, []) ∧ ((w []).tag 0).request = [] ∧ (s.tag 0).step ≠ .margin ∧ (w []).tagActive 0 = false := by decide
theorem test_hyp_margin : let s := tagged [(CPL.HEAD_STAT_CLOSED 0, 1)] fun x => { x with step := .margin }
    let u := ((s.countBy (CPL.MDIO_ERR_CNT 0) 0).withTag 0 fun x => { x with sampled := none, lowRun := min 255 (x.lowRun + 1) }).evalWear 0
    s.tagActive 0 = true ∧ (s.tag 0).step = .margin ∧ s.tagCutShort 0 = false ∧ (u.tag 0).auth ≠ 1 ∧ (tagged [] fun x => { x with step := .margin }).tagCutShort 0 = true := by decide
theorem test_hyp_margin_due : let s := at_ 115000000 (linked .A (tagged [(CPL.HEAD_STAT_CLOSED 0, 1), (CPL.PORT_CFG_MDIO_EN 0, 1)] fun x => { x with step := .margin }))
    let u := s.countBy (CPL.MDIO_ERR_CNT 0) (([some 10] : List (Option (BitVec 16))).filter Option.isNone).length
    let v := (u.sampleOf 0 [some 10]).getD 0
    let w := (u.withTag 0 fun x => { x with sampled := some v, lowRun := if v < (u.tag 0).floor then min 255 (x.lowRun + 1) else 0 }).evalWear 0
    s.tagActive 0 = true ∧ (s.tag 0).step = .margin ∧ s.sampleDue 0 = true ∧ s.tagCutShort 0 = false ∧ s.flag (CPL.PORT_CFG_MDIO_EN 0) = true ∧ u.sampleOf 0 [some 10] = some v
      ∧ drifts (w.tag 0).margins v (w.get CPL.TREND_DROP) = false ∧ (w.tag 0).auth ≠ 1 ∧ ((w.withTag 0 fun x => { x with auth := 1 }).tag 0).auth = 1 ∧ State.reset.sampleDue 0 = false := by decide
theorem test_hyp_pd : let s := w [(PWR.PD_CTRL, 0xFFFF)]
    let t := (w [(PWR.PD_CTRL, 0xFEFF), (PWR.PD_STAT_ON, 0xFEFF)])
    s.lockedMode = false ∧ bitOf (s.get PWR.PD_CTRL) 4 = bitOf (s.get PWR.PD_CTRL) 6 ∧ bitOf (s.get PWR.PD_CTRL) 5 = bitOf (s.get PWR.PD_CTRL) 7 ∧ 7 < 8 ∧ (∀ e, e < 16 → e ≠ 8 → bitOf 0xFEFF e = bitOf (s.get PWR.PD_CTRL) e) ∧ bitOf 0xFEFF 8 = false ∧ bitOf (s.get PWR.PD_CTRL) 8 = !false ∧ s.mayPower 8 false = true
      ∧ (∀ e, e < 16 → e ≠ 2 → bitOf 0xFFFB e = bitOf (s.get PWR.PD_CTRL) e) ∧ bitOf 0xFFFB 2 = false ∧ bitOf (s.get PWR.PD_CTRL) 2 = !false ∧ s.mayPower 2 false = false
      ∧ (∀ e, e < 16 → e ≠ 8 → bitOf 0xFFFF e = bitOf (t.get PWR.PD_CTRL) e) ∧ bitOf 0xFFFF 8 = true ∧ bitOf (t.get PWR.PD_CTRL) 8 = !true ∧ t.mayPower 8 true = true := by decide
theorem test_hyp_pd_done : let s : State := { w [] with power := { Power.reset with held := false, queue := [(12, false)] } }
    s.power.held = false ∧ s.power.queue = [(12, false)] ∧ s.flag PWR.SUP_STAT_BO_ACTIVE = false ∧ (12 : Nat) ≠ 1 ∧ (12 : Nat) ≠ 14 ∧ ({ s with power := { s.power with queue := [] } } : State).power.queue = [] := by decide
theorem test_hyp_brownout : let s (st : Nat) := w [(PWR.SUP_STAT_BO_STATE, st)]
    let l (ns st : Nat) := at_ ns (s st)
    (s boWARN).get PWR.SUP_STAT_BO_STATE = boWARN ∧ (s boNORMAL).get PWR.SUP_STAT_BO_STATE ≠ boWARN ∧ (s boWARN).flag PWR.SUP_STAT_BO_LONG = false ∧ (s boRECOVER).get PWR.SUP_STAT_BO_STATE = boRECOVER
      ∧ (s boRECOVER).sec.waiting = none ∧ (l 49999 boWARN).power.boSpent + (l 49999 boWARN).monitored < 50000 ∧ 50000 ≤ (l 50000 boWARN).power.boSpent + (l 50000 boWARN).monitored
      ∧ (l 50000 boWARN).get PWR.SUP_STAT_BO_STATE = boWARN ∧ (l 50000 boWARN).flag PWR.SUP_STAT_BO_LONG = false ∧ (l 999999 boRECOVER).monitored < 1000000 ∧ 1000000 ≤ (l 1000000 boRECOVER).monitored
      ∧ (l 1000000 boRECOVER).get PWR.SUP_STAT_BO_STATE = boRECOVER ∧ (l 1000000 boRECOVER).sec.waiting = none ∧ (s boNORMAL).get PWR.SUP_STAT_BO_STATE = boNORMAL := by decide
theorem test_hyp_windows : let s := w [(PWR.SUP_STAT_VDD_WIN, 1)]
    (s.readVdd 780).flag PWR.SUP_STAT_VDD_WIN = true ∧ (s.readVdd 820).flag PWR.SUP_STAT_VDD_WIN = true ∧ s.flag PWR.SUP_STAT_VDD_WIN = true ∧ (s.readVdd 779).flag PWR.SUP_STAT_VDD_WIN = false
      ∧ (s.readVdd 821).flag PWR.SUP_STAT_VDD_WIN = false ∧ -160 ≤ (-160 : BitVec 12).toInt ∧ (500 : BitVec 12).toInt ≤ 500 ∧ 500 < (501 : BitVec 12).toInt ∧ (-161 : BitVec 12).toInt < -160 ∧ 248 ≤ (248 : BitVec 16).toNat
      ∧ (252 : BitVec 16).toNat ≤ 252 ∧ 3980 ≤ (3980 : BitVec 16).toNat ∧ (4020 : BitVec 16).toNat ≤ 4020 ∧ 7960 ≤ (7960 : BitVec 16).toNat ∧ (8040 : BitVec 16).toNat ≤ 8040 := by decide
theorem test_hyp_resets : let h : State := { w [] with power := { Power.reset with held := true } }
    let r : State := { w [] with power := { Power.reset with held := false } }
    h.power.held = true ∧ r.power.held = false ∧ (0xB4A8 : BitVec 16) ≠ 0xB4A7 ∧ (w []).powered .sw = true ∧ (w [(HDR.PAGE_CTRL_CFG_LOCK .sw, 1)]).locked .sw = true ∧ (w []).locked .sw = false
      ∧ State.reset.powered .sw = false ∧ (w []).updates = [] := by decide
theorem test_hyp_errors : let s := w []
    let l := w [(CHIP.CH_MODE_MODE, 1)]
    let t (n : Nat) : State := { s with health := { s.health with timeouts := s.health.timeouts.set 0 n } }
    s.powered (ErrSite.canCell 7).place.1 = true ∧ s.siteUnderTest (.canCell 7) = false ∧ ErrKind.double ≠ .single ∧ State.reset.powered (ErrSite.canCell 7).place.1 = false
      ∧ (eng id).engRuns .A (0 : BitVec 4).toNat = true ∧ s.updates = [] ∧ (t 1).health.timeouts.getD 0 0 < 2 ∧ 2 ≤ (t 2).health.timeouts.getD 0 0 ∧ l.lockedMode = true ∧ l.flag CHIP.CH_MODE_LOCK_LOST = false ∧ s.lockedMode = false ∧ true ≠ s.lockedMode
      ∧ s.locked .chip = false ∧ s.bothOff = true ∧ (inState lnLISTEN []).bothOff = false ∧ (w [(HDR.PAGE_CTRL_CFG_LOCK .chip, 1)]).locked .chip = true ∧ s.powered .twin = true
      ∧ State.reset.powered .twin = false ∧ (0 : BitVec 3).toNat < 5 ∧ (4 : BitVec 3).toNat < 5 ∧ 5 ≤ (5 : BitVec 3).toNat ∧ (4 : BitVec 3) ≠ 0 ∧ (4 : BitVec 3) ≠ 1 ∧ Requester.pcie.isHost = true
      ∧ bitOf (5 : Word).toNat 0 ≠ s.twin ∧ bitOf (5 : Word).toNat 2 = s.flag TWIN.TWIN_CTRL_ENG_TX_FOLLOW ∧ bitOf (5 : Word).toNat 8 = s.flag TWIN.TWIN_CTRL_HANDOVER ∧ s.locked .twin = false
      ∧ (w [(HDR.PAGE_CTRL_CFG_LOCK .twin, 1)]).locked .twin = true ∧ (moving.siteUnderTest (.canCell 7) = false)
      ∧ ({ s with proof := { s.proof with maint := some ⟨6, .A, 1, false, ⟨1, 0, 100, [], none⟩⟩ } } : State).siteUnderTest (.cryptoCore 1) = true := by decide
theorem test_hyp_pages : let s := w []
    let g := w [(GPIO.RISE_EN, 1)]
    let u := g.set GPIO.IN (withBit (g.get GPIO.IN) 0 true)
    Page.known .time = true ∧ s.powered .time = true ∧ s.flag CHIP.LOCK_CTRL_STICKY = false ∧ (0 : BitVec 16) ≠ 0xB4A7 ∧ (w [(CHIP.LOCK_CTRL_STICKY, 1)]).flag CHIP.LOCK_CTRL_STICKY = true
      ∧ State.reset.powered .sw = false ∧ State.reset.powered .gpio = false ∧ g.powered .gpio = true ∧ g.cellDead .gpio 0 = false ∧ bitOf (g.get GPIO.IN) 0 = false ∧ bitOf (u.get GPIO.RISE_EN) 0 = true
      ∧ u.live .gpio = true ∧ bitOf (g.get GPIO.EDGE) 0 = false ∧ g.live .gpio = true ∧ bitOf g.gpioIn 0 = !true ∧ bitOf u.gpioIn 0 = true ∧ s.thisClock.outs = none ∧ s.thisClock.written = [] ∧ s.updates = []
      ∧ s.flag (HDR.PAGE_CTRL_CFG_LOCK .time) = false ∧ (w [(HDR.PAGE_CTRL_CFG_LOCK .time, 1)]).flag (HDR.PAGE_CTRL_CFG_LOCK .time) = true ∧ ((w []).readWord .pcie 0x010040).1 ≠ none ∧ (State.reset.readWord .pcie 0x600040).1 = none := by decide
/-! Well-formedness: a term that each check refuses. -/

def aSlice (slot : BitVec 7) (len : BitVec 16) : Slice := ⟨1, slot, ⟨true, false, false, false, false, false, false⟩, 0, len, 0, [7], 0⟩
def aRecord (hop : BitVec 8) : DiscRecord := ⟨3, 0x50, hop, 100, true, 1, true, false, false, false, false, 0⟩
theorem test_wf_role : (Instr.ebreak .A 15).WellFormed = false ∧ (Instr.fence (.engine .A 15)).WellFormed = false ∧ (Instr.ebreak .A 14).WellFormed = true := by decide
theorem test_wf_page : (Instr.softReset (.eng .A 16)).WellFormed = false ∧ (Instr.softReset (.mac 12)).WellFormed = false ∧ (Instr.softReset (.can 8)).WellFormed = false
    ∧ (Instr.softReset (.mvb 2)).WellFormed = false ∧ (Instr.softReset (.mac 11)).WellFormed = true := by decide
theorem test_wf_site : (Instr.memoryError (.kneaderLane .A 8) .double 0).WellFormed = false ∧ (Instr.scrubRead (.bankSlot .A 0 64) none 0).WellFormed = false
    ∧ (Instr.memoryError (.bridgeBuffer .sw) .double 0).WellFormed = false ∧ (Instr.memoryError (.bankSlot .A 0 72) .double 0).WellFormed = true
    ∧ (Instr.crossbarTimeout ⟨0, .engine .A 15 0 true⟩).WellFormed = false ∧ (Instr.crossbarTimeout ⟨5, .other⟩).WellFormed = false ∧ (Instr.crossbarTimeout ⟨4, .other⟩).WellFormed = true := by decide
theorem test_wf_size : (Instr.engineLoad .A 0 1 0 3 false).WellFormed = false ∧ (Instr.engineStore .A 0 0 3 0).WellFormed = false ∧ (Instr.engineLoad .A 0 1 0 2 false).WellFormed = true := by decide
theorem test_wf_port : (Instr.pauseExpiry 12).WellFormed = false ∧ (Instr.pauseExpiry 11).WellFormed = true := by decide
theorem test_wf_ring : (Instr.ringTailWrite 48 0).WellFormed = false ∧ (Instr.txDescDone 8).WellFormed = false ∧ (Instr.txDescDone 39).WellFormed = true := by decide
theorem test_wf_target : (Instr.proofRunStart 6).WellFormed = false ∧ (Instr.proofRunStart 5).WellFormed = true := by decide
theorem test_wf_position : (Instr.positionAbsent .A 0).WellFormed = false ∧ (Instr.claimWordExpiry 0).WellFormed = false ∧ (Instr.claimWordExpiry 9).WellFormed = false
    ∧ (Instr.claimWordExpiry 8).WellFormed = true := by decide
theorem test_wf_slice : (aSlice 0 1).wf = false ∧ (aSlice 64 1).wf = false ∧ (aSlice 73 1).wf = false ∧ (aSlice 72 2).wf = false ∧ (aSlice 72 1).wf = true
    ∧ (Instr.trayFrameRx info (hdr 1 false) 0 [aSlice 64 1]).WellFormed = false := by decide
theorem test_wf_records : DiscBody.wf ⟨0, List.replicate 64 (aRecord 0), []⟩ = false ∧ DiscBody.wf ⟨0, [], List.replicate 64 (aRecord 0)⟩ = false ∧ DiscBody.wf ⟨0, [], [aRecord 63]⟩ = false
    ∧ DiscBody.wf ⟨0, [], [aRecord 62]⟩ = true := by decide
theorem test_wf_can : CanFrame.wf ⟨false, false, true, 5, false, false, 0, [1]⟩ = false ∧ CanFrame.wf ⟨false, false, false, 5, false, false, 2, [1]⟩ = false
    ∧ CanFrame.wf ⟨false, false, false, 5, true, false, 9, List.replicate 12 0⟩ = true := by decide
theorem test_wf_mvb : (Instr.mvbSlaveFrameRx 0 (.good [1, 2, 3]) .silent true).WellFormed = false ∧ (Instr.mvbSlaveFrameRx 0 (.good [1, 2]) .silent true).WellFormed = true := by decide
theorem test_wf_remote : RemoteRequest.wf ⟨false, 2, 0, [], 0⟩ = false ∧ RemoteRequest.wf ⟨false, 68, 0, [], 0⟩ = false ∧ RemoteRequest.wf ⟨false, 8, 60, [], 0⟩ = false
    ∧ RemoteRequest.wf ⟨true, 4, 0, [], 0⟩ = false ∧ RemoteRequest.wf ⟨false, 64, 0, [], 0⟩ = true := by decide
set_option maxRecDepth 20000 in
theorem test_wf_segment : FormingSegment.wf ⟨1, 0, 0, 0, []⟩ = false ∧ FormingSegment.wf ⟨1, 0, 0, 4, []⟩ = false ∧ FormingSegment.wf ⟨1, 0, 2, 2, []⟩ = false
    ∧ FormingSegment.wf ⟨1, 0, 0, 1, List.replicate 509 0⟩ = false ∧ FormingSegment.wf ⟨1, 0, 2, 3, []⟩ = true ∧ (Instr.lineCopyRx (.piece 0 .A 1 1500 (List.replicate 500 0))).WellFormed = false
    ∧ (Instr.lineCopyRx (.piece 0 .A 0 0 [])).WellFormed = false ∧ (Instr.lineCopyRx (.piece 0 .A 1 0 (List.replicate 505 0))).WellFormed = false ∧ (Instr.lineCopyRx (.verdict 0 .A 32 true false)).WellFormed = false := by decide
theorem test_wf_pcie : (Instr.pcieInboundRead false 0 0 0 false).WellFormed = false ∧ (Instr.pcieInboundRead false 0 4097 0 false).WellFormed = false ∧ (Instr.pcieInboundRead false 0 4096 0 false).WellFormed = true := by decide

/-! The manual's worked examples and constants. -/

/-- The deviations M1 computes in Set 47, in units of 0.25 ns: it keeps +3, -15 and -6 ns, and their mean is -6 ns (spec/03_train_time.md). -/
theorem test_deviations : ((keptOf (sortDev [(1, 12), (3, -60), (5, -96), (7, -24), (9, 84)])).map Prod.snd) = [-60, -24, 12]
    ∧ meanOf (keptOf (sortDev [(1, 12), (3, -60), (5, -96), (7, -24), (9, 84)])) = -24 := by decide
/-- The layout of Set 47 (spec/04_forming_the_train.md): frames and offsets of its nine slots and two crumb slots. -/
theorem test_layout : let nodes := [1920, 944, 960, 1024, 880, 896, 1008, 1360, 1360].map fun n => { aRecord 0 with pay := n }
    let y := computeLayout 1 nodes { block 1 5 with auth := true, crumbCnt := 2, crumbPay := 256 }
    y.frames = 6 ∧ (y.slots.map fun x => (x.slot, x.frame, x.offs)) = [(1, 0, 38), (2, 1, 30), (3, 1, 998), (4, 2, 30), (5, 2, 1078), (6, 3, 30), (7, 3, 950), (8, 4, 30), (9, 5, 30), (65, 5, 1414),
      (66, 5, 1694)] := by decide
/-- The brake pressure of the kneader chapter: raw 1,234 becomes 3,085 kPa, and that 30.849998474 bar, binary32 0x41F6_CCCC (spec/07_kneaders.md). -/
def pressure : SignalEntry := SignalEntry.ofBytes ([0x24, 0x10, 0x00, 0x10, 0x02, 0x00, 0x0C, 0x10, 0x01, 0, 0, 0, 0, 0, 0, 5] ++ List.replicate 16 0)
def bar : SignalEntry := SignalEntry.ofBytes ([0x28, 0x04, 0x02, 0x00, 0x00, 0x80, 0x10, 0x20, 0, 0, 0, 0, 0x3C, 0x23, 0xD7, 0x0A] ++ List.replicate 16 0)
theorem test_pressure : convertSignal pressure 1234 = .bits 3085 false := by decide
theorem test_bar : convertSignal bar 3085 = .bits 0x41F6CCCC false := by decide
/-- The job head of that example: trigger RX, source CAN controller 2 buffer 12, destination DOUGH, one signal at 0x0401. -/
theorem test_job_head : let h := JobHead.ofBytes ([0x18, 0x40, 0, 0, 0x37, 0, 0x02, 0x0C, 0, 0, 4, 1, 1, 0xFF, 0, 0, 0, 1] ++ List.replicate 14 0)
    h.kind = 1 ∧ h.en = true ∧ h.trig = trRX ∧ h.srcSp = 3 ∧ h.srcId = 0x20C ∧ h.dstSp = 7 ∧ h.first = 0x401 ∧ h.count = 1 ∧ h.div = 1 ∧ h.phase = 0 := by decide
/-- A 154-byte telegram takes 1,392 ns at 1 Gbit/s, and a pause of 0x0040 quanta 32,768 ns (spec/09_ethernet_ports_and_switch.md); 11,460 bytes take 9,168 ns at 10 Gbit/s. -/
theorem test_wire_time : wireNs 0 (154 + 20) = 1392 ∧ wireNs 0 (64 * 0x40) = 32768 ∧ wireNs 3 11460 = 9168 := by decide
/-- The forerunner slot of Set 47 with Pelta: 19,040 ns for a largest payload of 1,920 bytes and P = 250 ns (spec/05_the_tray.md). -/
theorem test_slot_plan : slotLength [1920, 512, 256] 250 = 19040 := by decide
/-- TTC 0.9999999 s lies 100 ns before the second. -/
theorem test_second_error : secondError 999999900 = -100 ∧ secondError 1000000100 = 100 := by decide

/-! The commands run: what one step does on a small state. -/

/-- The state after a step, the state itself where there is none. -/
def stepped (s : State) : State := match step s with | .next t => t | _ => s
def run (s : State) (c : Instr) : State := stepped { s with pending := [c] }
theorem test_run_empties_queue : (run (w []) (.intSet .gpio 0x100)).pending = [] := by decide
theorem test_clock : (stepped State.reset).time.ltc = 0x280000000 := by decide
theorem test_int_set_clear : (run (run (w []) (.intSet .time 0x800)) (.intRawClear .time 0x800)).get (HDR.INT_RAW .time) = 0 := by decide
theorem test_lock_key : (run (run (w []) (.cfgLock .sw)) (.lockKey .sw 0xB4A7)).flag (HDR.PAGE_CTRL_CFG_LOCK .sw) = false := by decide
theorem test_draft_round : ((opened.writeDraft .A 0 [(8, 0x5A)]).byte (draftAddr .A 0 + 8)) = 0x5A := by decide
theorem test_bfx : ((run (eng fun k => { k with regs := k.regs.set 1 0xABCD1234 }) (.bfx .A 0 2 1 8 7 true)).role .A 0).reg 2 = 0x12 := by decide
theorem test_addi : ((run (code 0) (.rv32imcInstruction .A 0)).role .A 0).reg 1 = 1 ∧ ((run (code 0) (.rv32imcInstruction .A 0)).role .A 0).pc = 4 := by decide
theorem test_c_addi : ((run (code 4) (.rv32imcInstruction .A 0)).role .A 0).reg 1 = 1 ∧ ((run (code 4) (.rv32imcInstruction .A 0)).role .A 0).pc = 6 := by decide
theorem test_semaphore : ((run (eng id) (.semaphoreLoad .A 0 1 5)).sems .A).getD 5 0 = 1 := by decide
theorem test_can_bus_off_on : (run (can cnRECOVERING []) (.busOn 0)).canState 0 = cnACTIVE := by decide
theorem test_hat_host_grant : (run (w []) (.hostGrant 0xB4A7)).hat = (w []).hat := by decide
theorem test_pps_lost : (run (pps.set TIME.TIME_STAT_EXT_VALID 1) .ppsLost).flag TIME.TIME_STAT_EXT_VALID = false := by decide
theorem test_brownout : (run (w []) (.brownoutWarn 700)).get PWR.SUP_STAT_BO_STATE = boWARN := by decide

end Sys2Proof.Tests
end

section
/-! The loss of PPS_IN (R76): what a flag and an interrupt bit read after a write, what a sync record then publishes, and what the command does. -/

namespace Sys2Proof.Machine

/-! Reads of a flag and of an interrupt bit. -/

/-- A flag reads the truth value it was set to; the field has at least the one bit that holds it. -/
theorem State.flag_setFlag (s : State) (r : Reg) (b : Bool) (hw : r.width ≠ 0) : (s.setFlag r b).flag r = b := by
  have hone : 1 % 2 ^ r.width = 1 := Nat.mod_eq_of_lt (Nat.one_lt_two_pow hw)
  cases b
  · simp [State.flag, State.setFlag, State.get_set]
  · simp [State.flag, State.setFlag, State.get_set, hone]

theorem State.flag_setFlag_ne (s : State) (r q : Reg) (b : Bool) (h : q.key ≠ r.key) : (s.setFlag r b).flag q = s.flag q := by
  unfold State.flag State.setFlag
  rw [State.get_set_ne _ _ _ _ h]

theorem State.flag_raise_ne (s : State) (p : Page) (b : Nat) (q : Reg) (h : q.key ≠ (HDR.INT_RAW p).key) : (s.raise p b).flag q = s.flag q := by
  unfold State.flag State.raise State.update State.updateTo
  rw [State.get_set_ne _ _ _ _ h, State.noteUpdate_get]

/-- INT_RAW after an event: what it held, with the event's bit (R454). -/
theorem State.get_raise (s : State) (p : Page) (b : Nat) :
    (s.raise p b).get (HDR.INT_RAW p) = (s.get (HDR.INT_RAW p) ||| 2 ^ b) % 2 ^ 32 := State.get_set _ _ _

theorem State.bitOf_get_raise (s : State) (p : Page) (b : Nat) (hb : b < 32) : bitOf ((s.raise p b).get (HDR.INT_RAW p)) b = true := by
  rw [State.get_raise, bitOf, Nat.testBit_mod_two_pow]
  simp [hb, Nat.testBit_or, Nat.testBit_two_pow_self]

/-! The external reference. -/

/-- A node that publishes no correction and holds EXT_VALID 0 says so in the sync records of both lines (R62). -/
theorem State.syncRecord_without_reference (s : State) (l : Line) (hstep : s.time.extPublished = 0) (hvalid : s.flag TIME.TIME_STAT_EXT_VALID = false) :
    (s.syncRecord l).extStep = 0 ∧ (s.syncRecord l).extValid = false := by
  simp [State.syncRecord, hstep, hvalid]

/-- A node that is not the Starter does not take PPS_IN (R75). -/
theorem State.usesPps_of_not_starter (s : State) (h : s.flag TIME.TIME_STAT_STARTER = false) : s.usesPps = false := by
  simp [State.usesPps, h]

/-- The Starter without its reference: EXT_VALID 0, PPS_LOST raised, nothing left to correct and nothing published (R76). -/
def State.losePps (s : State) : State :=
  ((s.setFlag TIME.TIME_STAT_EXT_VALID false).raise .time 13).withTime fun x => { x with ppsOutstanding := 0, ppsGoodRun := 0, extPublished := 0 }

theorem exec_ppsLost_of_starter (s : State) (h : s.flag TIME.TIME_STAT_STARTER = true) : exec .ppsLost s = .next s.losePps := by
  change execPpsLost s = _
  simp only [execPpsLost, h, if_true, State.losePps]

theorem exec_ppsLost_of_not_starter (s : State) (h : s.flag TIME.TIME_STAT_STARTER = false) : exec .ppsLost s = .next s := by
  change execPpsLost s = _
  simp [execPpsLost, h]

theorem exec_ppsEdge_of_not_starter (s : State) (at_ : BitVec 64) (rising : Bool) (h : s.flag TIME.TIME_STAT_STARTER = false) :
    exec (.ppsEdge at_ rising) s = .next s := by
  change execPpsEdge at_ rising s = _
  simp [execPpsEdge, State.usesPps_of_not_starter s h]

theorem State.losePps_extPublished (s : State) : s.losePps.time.extPublished = 0 := rfl

theorem State.losePps_ppsOutstanding (s : State) : s.losePps.time.ppsOutstanding = 0 := rfl

theorem State.losePps_extValid (s : State) : s.losePps.flag TIME.TIME_STAT_EXT_VALID = false := by
  rw [State.losePps, State.withTime_flag, State.flag_raise_ne _ _ _ _ (by decide), State.flag_setFlag _ _ _ (by decide)]

theorem State.losePps_raised (s : State) : bitOf (s.losePps.get (HDR.INT_RAW .time)) 13 = true := by
  rw [State.losePps, State.withTime_get]
  exact State.bitOf_get_raise _ _ _ (by decide)

end Sys2Proof.Machine

namespace Sys2Proof.Proofs
open Sys2Proof.Machine

/-- Settles O59: the Starter's state after PPS_LOST is `State.losePps`, whose reads give each clause; another node's state stays. -/
theorem losingThePulsePerSecond : Obligations.LosingThePulsePerSecond := by
  intro s
  refine ⟨fun hstarter => ?starter, fun hother => ?other⟩
  case starter =>
    have hvalid := s.losePps_extValid
    have hstep := s.losePps_extPublished
    exact ⟨s.losePps, exec_ppsLost_of_starter s hstarter, rfl, hvalid, hstep, s.losePps_raised, s.losePps_ppsOutstanding,
      fun l => s.losePps.syncRecord_without_reference l hstep hvalid⟩
  case other =>
    exact ⟨exec_ppsLost_of_not_starter s hother, fun at_ rising => exec_ppsEdge_of_not_starter s at_ rising hother⟩

end Sys2Proof.Proofs
end

section
/-! PAUSE frames at a backbone port (R159): what a saturating counter reads after a count, and what a received PAUSE frame does. -/

namespace Sys2Proof.Machine

/-! Reads of an updated field and of a counter. -/

theorem State.get_updateTo (s : State) (r : Reg) (v kept : Nat) : (s.updateTo r v kept).get r = v % 2 ^ r.width := State.get_set _ _ _

theorem State.get_update (s : State) (r : Reg) (f : Nat → Nat) : (s.update r f).get r = f (s.get r) % 2 ^ r.width := State.get_updateTo _ _ _ _

/-- A counter saturates at the largest value of its field, so the field's width cuts nothing off (R42). -/
theorem State.get_countBy (s : State) (r : Reg) (n : Nat) : (s.countBy r n).get r = min (s.get r + n) (2 ^ r.width - 1) := by
  have hsat : min (s.get r + n) (2 ^ r.width - 1) < 2 ^ r.width :=
    (Nat.min_le_right _ _).trans_lt (Nat.sub_one_lt (Nat.two_pow_pos _).ne')
  rw [State.countBy, State.get_update, Nat.mod_eq_of_lt hsat]

theorem State.get_count (s : State) (r : Reg) : (s.count r).get r = min (s.get r + 1) (2 ^ r.width - 1) := s.get_countBy r 1

/-! A received PAUSE frame. -/

/-- The backbone ports are 8 to 11. -/
theorem isBackbone_iff (q : Nat) : isBackbone q = true ↔ 8 ≤ q ∧ q < 12 := by
  simp [isBackbone]

/-- Outside ETB mode a backbone port counts the frame in PAUSE_IGN_CNT of its line and takes no pause time from it. -/
theorem State.takePause_of_backbone (s : State) (q quanta : Nat) (hback : isBackbone q = true) (hetb : s.etbOn = false) :
    s.takePause q quanta = s.count (GTB.PAUSE_IGN_CNT (backbonePort q).line) := by
  simp [State.takePause, hback, hetb]

/-- A port that runs hands a PAUSE frame on to `State.takePause`. -/
theorem exec_pauseFrameRx_of_portOn (s : State) (q : BitVec 4) (quanta : BitVec 16) (hwired : q.toNat < 12) (hon : s.portOn q.toNat = true) :
    exec (.pauseFrameRx q quanta) s = .next (s.takePause q.toNat quanta.toNat) := by
  change execPauseFrameRx q quanta s = _
  simp [execPauseFrameRx, hwired, hon]

end Sys2Proof.Machine

namespace Sys2Proof.Proofs
open Sys2Proof.Machine

/-- Settles O58: a running backbone port hands the frame to `State.takePause`, which outside ETB mode only counts it; the counter's read is
`State.get_count`. -/
theorem backbonePortsIgnorePauseFrames : Obligations.BackbonePortsIgnorePauseFrames := by
  intro s q quanta hback hon hetb
  have hwired : q.toNat < 12 := ((isBackbone_iff _).1 hback).2
  refine ⟨?ignored, ?counted⟩
  case ignored => rw [exec_pauseFrameRx_of_portOn s q quanta hwired hon, s.takePause_of_backbone _ _ hback hetb]
  case counted => exact s.get_count _

end Sys2Proof.Proofs
end

section
/-! Updates for each channel of a pair (R256): what `State.each` keeps, and what it does at one place of its list. -/

namespace Sys2Proof.Machine

/-- What no update of the list changes stays. -/
theorem State.each_observe {α β : Type} (obs : State → β) {l : List α} {f : α → State → State} (hkeep : ∀ a ∈ l, ∀ t, obs (f a t) = obs t)
    (s : State) : obs (s.each l f) = obs s := by
  induction l generalizing s with
  | nil => rfl
  | cons a l ih =>
    obtain ⟨ha, hl⟩ := List.forall_mem_cons.1 hkeep
    exact (ih hl _).trans (ha s)

/-- What only the update at `d` changes is changed once. -/
theorem State.each_observe_at {α β : Type} (obs : State → β) (g : β → β) {l : List α} {f : α → State → State} {d : α} (hd : d ∈ l) (hl : l.Nodup)
    (hat : ∀ t, obs (f d t) = g (obs t)) (hother : ∀ a ∈ l, a ≠ d → ∀ t, obs (f a t) = obs t) (s : State) : obs (s.each l f) = g (obs s) := by
  induction l generalizing s with
  | nil => cases hd
  | cons a l ih =>
    obtain ⟨ha, hrest⟩ := List.forall_mem_cons.1 hother
    obtain ⟨hnew, hnodup⟩ := List.nodup_cons.1 hl
    by_cases had : a = d
    · subst had
      have hkeep : ∀ x ∈ l, ∀ t, obs (f x t) = obs t := fun x hx => hrest x hx fun h => hnew (h ▸ hx)
      exact (State.each_observe obs hkeep _).trans (hat s)
    · have hmem : d ∈ l := (List.mem_cons.1 hd).resolve_left (Ne.symm had)
      exact (ih hmem hnodup hrest _).trans (congrArg g (ha had s))

/-- The channels of a pair are named once each. -/
theorem State.pairOf_nodup (s : State) (c : Line) : (s.pairOf c).Nodup := by
  unfold State.pairOf
  split
  · exact List.Nodup.filter _ (by decide)
  · exact List.nodup_singleton c

end Sys2Proof.Machine
end

section
/-! The semaphores (R250): what the list of a channel's semaphores reads after a load, a store, a move and a loss. -/

namespace Sys2Proof.Machine

/-! The list of a channel's semaphores. -/

theorem getD_setAt {α : Type} (l : List α) (i : Nat) (a d : α) (hi : i < l.length) : (setAt l i a).getD i d = a := by
  simp [setAt, hi]

theorem getD_setAt_ne {α : Type} (l : List α) (i j : Nat) (a d : α) (hj : j ≠ i) : (setAt l i a).getD j d = l.getD j d := by
  simp [setAt, Ne.symm hj]

@[simp] theorem State.set_sems (s : State) (q : Reg) (v : Nat) (c : Line) : (s.set q v).sems c = s.sems c := by cases c <;> rfl
@[simp] theorem State.setFlag_sems (s : State) (q : Reg) (b : Bool) (c : Line) : (s.setFlag q b).sems c = s.sems c := by cases c <;> rfl
@[simp] theorem State.raise_sems (s : State) (p : Page) (b : Nat) (c : Line) : (s.raise p b).sems c = s.sems c := by cases c <;> rfl

/-- Both channels of a LOCKED pair hold the same semaphore. -/
theorem State.setSem_sems (s : State) (c d : Line) (k v : Nat) (hd : d ∈ s.pairOf c) : (s.setSem c k v).sems d = setAt (s.sems d) k v := by
  refine State.each_observe_at (·.sems d) (setAt · k v) hd (s.pairOf_nodup c) ?here ?there s
  case here => intro t; cases d <;> rfl
  case there =>
    intro a _ ha t
    cases a <;> cases d
    case A.A | B.B => exact absurd rfl ha
    case A.B | B.A => rfl

theorem State.setSem_regs (s : State) (c : Line) (k v : Nat) : (s.setSem c k v).regs = s.regs :=
  State.each_observe State.regs (fun a _ _ => by cases a <;> rfl) s

theorem State.setSem_mem (s : State) (c : Line) (k v : Nat) : (s.setSem c k v).mem = s.mem :=
  State.each_observe State.mem (fun a _ _ => by cases a <;> rfl) s

theorem State.getD_setSem (s : State) (c : Line) (k v : Nat) (hc : c ∈ s.pairOf c) (hk : k < (s.sems c).length) :
    ((s.setSem c k v).sems c).getD k 0 = v := by
  rw [s.setSem_sems c c k v hc, getD_setAt _ _ _ _ hk]

theorem State.getD_setSem_ne (s : State) (c : Line) (k v j : Nat) (hc : c ∈ s.pairOf c) (hj : j ≠ k) :
    ((s.setSem c k v).sems c).getD j 0 = (s.sems c).getD j 0 := by
  rw [s.setSem_sems c c k v hc, getD_setAt_ne _ _ _ _ _ hj]

/-! Loads and stores. -/

/-- The 64 semaphores lie a word apart. -/
theorem engPlace_sem (k : Nat) (hk : k < 64) : engPlace (0x000F0100 + 4 * k) = .sem k := by
  unfold engPlace
  iterate 11 rw [if_neg (by omega)]
  rw [if_pos (by omega)]
  congr 1
  omega

theorem State.semLoad_free (s : State) (c : Line) (r k : Nat) (h : (s.sems c).getD k 0 = 0) : s.semLoad c r k = (0, s.setSem c k (r + 1)) := by
  simp only [State.semLoad, h]

theorem State.semLoad_held (s : State) (c : Line) (r k : Nat) (h : (s.sems c).getD k 0 ≠ 0) :
    s.semLoad c r k = (BitVec.ofNat 32 ((s.sems c).getD k 0), s) := by
  unfold State.semLoad
  split
  case h_1 hfree => exact absurd hfree h
  case h_2 => rfl

theorem State.semStore_holder (s : State) (c : Line) (r k : Nat) (h : (s.sems c).getD k 0 = r + 1) : s.semStore c r k 0 = s.setSem c k 0 := by
  rw [State.semStore, if_pos (by rw [h]; simp)]

theorem State.semStore_ignored (s : State) (c : Line) (r k : Nat) (v : Word) (h : v ≠ 0 ∨ (s.sems c).getD k 0 ≠ r + 1) : s.semStore c r k v = s := by
  rw [State.semStore, if_neg]
  rw [Bool.and_eq_true, decide_eq_true_eq, decide_eq_true_eq]
  exact not_and_or.2 h

/-- A load that takes a free semaphore gives it to its role: the next load of any role finds the holder, and no other semaphore changes. -/
theorem State.semLoad_takes (s : State) (c : Line) (r q k : Nat) (hc : c ∈ s.pairOf c) (hk : k < (s.sems c).length) (hfree : (s.sems c).getD k 0 = 0) :
    ∃ t, s.semLoad c r k = (0, t) ∧ (t.sems c).getD k 0 = r + 1 ∧ (∀ j, j ≠ k → (t.sems c).getD j 0 = (s.sems c).getD j 0)
      ∧ t.semLoad c q k = (BitVec.ofNat 32 (r + 1), t) ∧ t.regs = s.regs ∧ t.mem = s.mem := by
  have hheld : ((s.setSem c k (r + 1)).sems c).getD k 0 = r + 1 := s.getD_setSem c k (r + 1) hc hk
  refine ⟨s.setSem c k (r + 1), s.semLoad_free c r k hfree, hheld, fun j hj => s.getD_setSem_ne c k _ j hc hj, ?again,
    s.setSem_regs c k _, s.setSem_mem c k _⟩
  case again => rw [State.semLoad_held _ c q k (by omega), hheld]

/-- A store of 0 by the holder frees the semaphore and no other. -/
theorem State.semStore_frees (s : State) (c : Line) (r k : Nat) (hc : c ∈ s.pairOf c) (hk : k < (s.sems c).length) (hheld : (s.sems c).getD k 0 = r + 1) :
    ((s.semStore c r k 0).sems c).getD k 0 = 0 ∧ ∀ j, j ≠ k → ((s.semStore c r k 0).sems c).getD j 0 = (s.sems c).getD j 0 := by
  rw [s.semStore_holder c r k hheld]
  exact ⟨s.getD_setSem c k 0 hc hk, fun j hj => s.getD_setSem_ne c k 0 j hc hj⟩

/-! Moves: what a role's page shows changes, not its semaphores. -/

@[simp] theorem State.showRole_sems (s : State) (c : Line) (r : Nat) (d : Line) : (s.showRole c r).sems d = s.sems d := by
  unfold State.showRole
  split <;> simp

@[simp] theorem State.showMap_sems (s : State) (c : Line) (lo hi valid : Nat) (d : Line) : (s.showMap c lo hi valid).sems d = s.sems d :=
  State.each_observe (·.sems d) (fun _ _ _ => by simp) s

@[simp] theorem State.assignRole_sems (s : State) (c : Line) (r : Nat) (i spare : Option Nat) (d : Line) :
    (s.assignRole c r i spare).sems d = s.sems d :=
  (State.each_observe (·.sems d) (fun _ _ _ => by simp) _).trans (State.showMap_sems _ _ _ _ _ _)

@[simp] theorem State.movePage_sems (s : State) (c : Line) (i j : Nat) (d : Line) : (s.movePage c i j).sems d = s.sems d :=
  State.each_observe (·.sems d) (fun _ _ _ => by simp) s

@[simp] theorem State.clearShown_sems (s : State) (c : Line) (i : Nat) (d : Line) : (s.clearShown c i).sems d = s.sems d := by
  simp [State.clearShown]

theorem State.spareTakes_sems (s : State) (c : Line) (r : Nat) (planned : Bool) (d : Line) : (s.spareTakes c r planned).sems d = s.sems d := by
  unfold State.spareTakes
  split <;> simp

/-! A loss. -/

/-- A semaphore once a role is lost: free where that role held it. -/
def semWithout (r h : Nat) : Nat := if h = r + 1 then 0 else h

theorem State.loseRole_sems (s : State) (c : Line) (r i : Nat) (hi : s.engineOf c r = some i) : (s.loseRole c r).sems c = (s.sems c).map (semWithout r) := by
  calc (s.loseRole c r).sems c
      = (((((s.assignRole c r none (s.spareEngine c)).clearShown c i).raise (.eng c i) 15).set (ENG.ENG_STAT_STATE c i) 5).sems c).map (semWithout r) := by
        cases c <;> simp only [State.loseRole, hi] <;> rfl
    _ = (s.sems c).map (semWithout r) := by simp

theorem State.getD_loseRole (s : State) (c : Line) (r i k : Nat) (hi : s.engineOf c r = some i) :
    ((s.loseRole c r).sems c).getD k 0 = semWithout r ((s.sems c).getD k 0) := by
  rw [s.loseRole_sems c r i hi]
  exact List.getD_map _ 0 (semWithout r)

end Sys2Proof.Machine

namespace Sys2Proof.Proofs
open Sys2Proof.Machine

/-- Settles O37: a clause for each thing that can happen to a semaphore, each by the lemma about what the channel's list reads afterwards. -/
theorem semaphoreHasOneHolder : Obligations.SemaphoreHasOneHolder := by
  intro s c r q k hlen hc hk _ _
  have hin : k < (s.sems c).length := hlen ▸ hk
  refine ⟨engPlace_sem k hk, ?takes, ?held, ?frees, ?ignored, ?moves, ?lost⟩
  case takes => exact s.semLoad_takes c r q k hc hin
  case held => exact s.semLoad_held c r k
  case frees => exact s.semStore_frees c r k hc hin
  case ignored => exact s.semStore_ignored c r k
  case moves => exact fun planned => s.spareTakes_sems c r planned c
  case lost => exact fun i hi => s.getD_loseRole c r i k hi

end Sys2Proof.Proofs
end

section
/-! The release queue's 65th store (R244): which fields an update may alter, what a role reads after an update of its pair, and what the overflow
counts and raises. -/

namespace Sys2Proof.Machine

/-! Updates that alter only some fields, and neither the memory nor what was sent. -/

/-- `t` is `s` but for the fields with the keys `ks`, and the hidden state. -/
structure State.AltersOnly (ks : List Nat) (s t : State) : Prop where
  mem : t.mem = s.mem
  sent : t.sent = s.sent
  get : ∀ q : Reg, q.key ∉ ks → t.get q = s.get q

theorem State.AltersOnly.refl (ks : List Nat) (s : State) : s.AltersOnly ks s := ⟨rfl, rfl, fun _ _ => rfl⟩

theorem State.AltersOnly.trans {ks : List Nat} {s t u : State} (h : s.AltersOnly ks t) (k : t.AltersOnly ks u) : s.AltersOnly ks u :=
  ⟨k.mem.trans h.mem, k.sent.trans h.sent, fun q hq => (k.get q hq).trans (h.get q hq)⟩

theorem State.AltersOnly.mono {ks ls : List Nat} {s t : State} (h : s.AltersOnly ks t) (hsub : ks ⊆ ls) : s.AltersOnly ls t :=
  ⟨h.mem, h.sent, fun q hq => h.get q fun hin => hq (hsub hin)⟩

theorem State.altersOnly_set {ks : List Nat} (s : State) (q : Reg) (v : Nat) (hq : q.key ∈ ks) : s.AltersOnly ks (s.set q v) :=
  ⟨rfl, rfl, fun p hp => s.get_set_ne q p v fun h => hp (h ▸ hq)⟩

theorem State.altersOnly_update {ks : List Nat} (s : State) (q : Reg) (f : Nat → Nat) (hq : q.key ∈ ks) : s.AltersOnly ks (s.update q f) :=
  ⟨rfl, rfl, fun p hp => State.get_set_ne _ q p _ fun h => hp (h ▸ hq)⟩

theorem State.altersOnly_countRaise {ks : List Nat} (s : State) (q : Reg) (p : Page) (b : Nat) (hq : q.key ∈ ks) (hp : (HDR.INT_RAW p).key ∈ ks) :
    s.AltersOnly ks (s.countRaise q p b) :=
  (s.altersOnly_update q (fun v => min (v + 1) (2 ^ q.width - 1)) hq).trans ((s.count q).altersOnly_update (HDR.INT_RAW p) (· ||| 2 ^ b) hp)

/-- Each update of a list may rely on what the ones before it left alone. -/
theorem State.altersOnly_each {α : Type} {ks : List Nat} {s : State} {l : List α} {f : α → State → State}
    (h : ∀ a ∈ l, ∀ t, s.AltersOnly ks t → t.AltersOnly ks (f a t)) : s.AltersOnly ks (s.each l f) := by
  suffices hgen : ∀ t, s.AltersOnly ks t → s.AltersOnly ks (t.each l f) from hgen s (.refl ks s)
  induction l with
  | nil => exact fun t ht => ht
  | cons a l ih =>
    obtain ⟨ha, hl⟩ := List.forall_mem_cons.1 h
    exact fun t ht => ih hl (f a t) (ht.trans (ha t ht))

/-- Two updates agree on a list where they agree on every state that keeps what the second one keeps. -/
theorem State.each_congr {α : Type} {l : List α} {f g : α → State → State} (I : State → Prop)
    (h : ∀ a ∈ l, ∀ t, I t → f a t = g a t ∧ I (g a t)) {s : State} (hs : I s) : s.each l f = s.each l g := by
  induction l generalizing s with
  | nil => rfl
  | cons a l ih =>
    obtain ⟨ha, hl⟩ := List.forall_mem_cons.1 h
    obtain ⟨hfg, hI⟩ := ha s hs
    exact (congrArg (fun t : State => t.each l f) hfg).trans (ih hl hI)

/-! What decides which engines act: the mode, the quarantines and the role maps. -/

/-- The fields that `State.pairOf` and `State.engineOf` read. -/
def actingFields : List Reg :=
  [CHIP.CH_MODE_MODE, CHIP.CH_MODE_QUAR_A, CHIP.CH_MODE_QUAR_B, ENG.ROLE_VALID .A 0, ENG.ROLE_MAP_LO .A 0, ENG.ROLE_MAP_HI .A 0,
    ENG.ROLE_VALID .B 0, ENG.ROLE_MAP_LO .B 0, ENG.ROLE_MAP_HI .B 0]

theorem State.pairOf_congr {s t : State} (h : ∀ q ∈ actingFields, t.get q = s.get q) (c : Line) : t.pairOf c = s.pairOf c := by
  have hmode : t.lockedMode = s.lockedMode := by simp [State.lockedMode, State.flag, h CHIP.CH_MODE_MODE (by simp [actingFields])]
  have hquar : ∀ d, t.quarantined d = s.quarantined d := by
    intro d
    cases d
    · simp [State.quarantined, State.flag, h CHIP.CH_MODE_QUAR_A (by simp [actingFields])]
    · simp [State.quarantined, State.flag, h CHIP.CH_MODE_QUAR_B (by simp [actingFields])]
  simp only [State.pairOf, State.channels, hmode, hquar]

theorem State.engineOf_congr {s t : State} (h : ∀ q ∈ actingFields, t.get q = s.get q) (c : Line) (r : Nat) : t.engineOf c r = s.engineOf c r := by
  have hvalid : t.get (ENG.ROLE_VALID c 0) = s.get (ENG.ROLE_VALID c 0) := h _ (by cases c <;> simp [actingFields])
  have hlo : t.get (ENG.ROLE_MAP_LO c 0) = s.get (ENG.ROLE_MAP_LO c 0) := h _ (by cases c <;> simp [actingFields])
  have hhi : t.get (ENG.ROLE_MAP_HI c 0) = s.get (ENG.ROLE_MAP_HI c 0) := h _ (by cases c <;> simp [actingFields])
  simp only [State.engineOf, hvalid, hlo, hhi]

/-! The fields of an engine's page that the queue reaches. -/

/-- The fields that show a role's state in the page of its engine (R259). -/
def shownFields (c : Line) (e : Nat) : List Reg :=
  [ENG.ENG_STAT_TAINTED c e, ENG.ENG_STAT_SEALED c e, ENG.ENG_STAT_VIEW c e, ENG.ENG_STAT_EVQ_DEPTH c e, ENG.ENG_STAT_STATE c e]

/-- Those, and the two of an overflow (R244). -/
def overflowFields (c : Line) (e : Nat) : List Reg := ENG.RELQ_OVF_CNT c e :: HDR.INT_RAW (.eng c e) :: shownFields c e

/-- The keys of fields in the pages of the engines `e` of several channels. -/
def keysOf (fields : Line → Nat → List Reg) (l : List Line) (e : Nat) : List Nat := l.flatMap fun d => (fields d e).map Reg.key

theorem key_mem_keysOf {fields : Line → Nat → List Reg} {l : List Line} {e : Nat} {d : Line} {q : Reg} (hd : d ∈ l) (hq : q ∈ fields d e) :
    q.key ∈ keysOf fields l e :=
  List.mem_flatMap.2 ⟨d, hd, List.mem_map_of_mem hq⟩

theorem key_not_mem_keysOf {fields : Line → Nat → List Reg} {l : List Line} {e n : Nat} (h : ∀ d ∈ l, n ∉ (fields d e).map Reg.key) :
    n ∉ keysOf fields l e := by
  intro hin
  obtain ⟨d, hd, hn⟩ := List.mem_flatMap.1 hin
  exact h d hd hn

theorem keysOf_shownFields_subset (l : List Line) (e : Nat) : keysOf shownFields l e ⊆ keysOf overflowFields l e := by
  intro n hn
  obtain ⟨d, hd, hmem⟩ := List.mem_flatMap.1 hn
  exact List.mem_flatMap.2 ⟨d, hd, List.mem_cons_of_mem _ (List.mem_cons_of_mem _ hmem)⟩

/-- The word of a key within its page of 4 KiB. -/
def keyOffset (n : Nat) : Nat := n / 32 % 4096

theorem keyOffset_acting : ∀ q ∈ actingFields, keyOffset q.key ∈ [0x4C, 0x60, 0x64, 0x68] := by decide

theorem keyOffset_shown (c : Line) (e : Nat) : ∀ q ∈ shownFields c e, keyOffset q.key = 0x44 := by
  intro q hq
  simp only [shownFields, List.mem_cons, List.not_mem_nil, or_false] at hq
  cases c <;> rcases hq with rfl | rfl | rfl | rfl | rfl <;> simp only [keyOffset, Reg.key, fieldAt, Page.base, chanOffset,
    ENG.ENG_STAT_TAINTED, ENG.ENG_STAT_SEALED, ENG.ENG_STAT_VIEW, ENG.ENG_STAT_EVQ_DEPTH, ENG.ENG_STAT_STATE] <;> omega

theorem keyOffset_relqOvfCnt (c : Line) (e : Nat) : keyOffset (ENG.RELQ_OVF_CNT c e).key = 0x104 := by
  cases c <;> simp only [keyOffset, Reg.key, ENG.RELQ_OVF_CNT, fieldAt, Page.base, chanOffset] <;> omega

theorem keyOffset_intRaw (c : Line) (e : Nat) : keyOffset (HDR.INT_RAW (.eng c e)).key = 0x10 := by
  cases c <;> simp only [keyOffset, Reg.key, HDR.INT_RAW, headerAt, Page.headerBase, Page.base, chanOffset] <;> omega

/-- The pages of two channels' engines lie apart. -/
theorem relqOvfCnt_key_ne {c d : Line} (e : Nat) (h : c ≠ d) : (ENG.RELQ_OVF_CNT c e).key ≠ (ENG.RELQ_OVF_CNT d e).key := by
  cases c <;> cases d
  case A.A | B.B => exact absurd rfl h
  case A.B | B.A => simp only [Reg.key, ENG.RELQ_OVF_CNT, fieldAt, Page.base, chanOffset]; omega

theorem intRaw_key_ne {c d : Line} (e : Nat) (h : c ≠ d) : (HDR.INT_RAW (.eng c e)).key ≠ (HDR.INT_RAW (.eng d e)).key := by
  cases c <;> cases d
  case A.A | B.B => exact absurd rfl h
  case A.B | B.A => simp only [Reg.key, HDR.INT_RAW, headerAt, Page.headerBase, Page.base, chanOffset]; omega

theorem relqOvfCnt_key_ne_intRaw (c d : Line) (e i : Nat) : (ENG.RELQ_OVF_CNT c e).key ≠ (HDR.INT_RAW (.eng d i)).key := fun h => by
  have := congrArg keyOffset h
  rw [keyOffset_relqOvfCnt, keyOffset_intRaw] at this
  omega

theorem relqOvfCnt_key_not_shown (l : List Line) (c : Line) (e i : Nat) : (ENG.RELQ_OVF_CNT c e).key ∉ keysOf shownFields l i := by
  refine key_not_mem_keysOf fun d _ hmem => ?_
  obtain ⟨p, hp, hkey⟩ := List.mem_map.1 hmem
  have hoffset := congrArg keyOffset hkey
  rw [keyOffset_shown d i p hp, keyOffset_relqOvfCnt] at hoffset
  omega

/-- No field that the queue reaches decides which engines act. -/
theorem acting_key_not_mem (l : List Line) (e : Nat) : ∀ q ∈ actingFields, q.key ∉ keysOf overflowFields l e := by
  intro q hq
  refine key_not_mem_keysOf fun d _ hmem => ?_
  obtain ⟨p, hp, hkey⟩ := List.mem_map.1 hmem
  have hacting := keyOffset_acting q hq
  rw [← hkey] at hacting
  rcases List.mem_cons.1 hp with rfl | hp
  · rw [keyOffset_relqOvfCnt] at hacting; revert hacting; decide
  rcases List.mem_cons.1 hp with rfl | hp
  · rw [keyOffset_intRaw] at hacting; revert hacting; decide
  · rw [keyOffset_shown d e p hp] at hacting; revert hacting; decide

theorem State.AltersOnly.pairOf_eq {l : List Line} {e : Nat} {s t : State} (h : s.AltersOnly (keysOf overflowFields l e) t) (c : Line) :
    t.pairOf c = s.pairOf c :=
  State.pairOf_congr (fun q hq => h.get q (acting_key_not_mem l e q hq)) c

theorem State.AltersOnly.engineOf_eq {l : List Line} {e : Nat} {s t : State} (h : s.AltersOnly (keysOf overflowFields l e) t) (c : Line) (r : Nat) :
    t.engineOf c r = s.engineOf c r :=
  State.engineOf_congr (fun q hq => h.get q (acting_key_not_mem l e q hq)) c r

/-! A change of a role. -/

theorem State.altersOnly_showRole {ks : List Nat} (s : State) (c : Line) (r e : Nat) (he : s.engineOf c r = some e)
    (hks : ∀ q ∈ shownFields c e, q.key ∈ ks) : s.AltersOnly ks (s.showRole c r) := by
  simp only [shownFields, List.forall_mem_cons] at hks
  obtain ⟨htainted, hsealed, hview, hdepth, hstate, -⟩ := hks
  unfold State.showRole
  rw [he]
  exact ((((s.altersOnly_set _ _ htainted).trans (State.altersOnly_set _ _ _ hsealed)).trans (State.altersOnly_set _ _ _ hview)).trans
    (State.altersOnly_set _ _ _ hdepth)).trans (State.altersOnly_set _ _ _ hstate)

/-- A channel's roles replaced. -/
def State.setRoles (s : State) (c : Line) (ks : List Role) : State :=
  match c with
  | .A => { s with rolesA := ks }
  | .B => { s with rolesB := ks }

theorem State.setRoles_roles (s : State) (c : Line) (ks : List Role) : (s.setRoles c ks).roles c = ks := by cases c <;> rfl

theorem State.setRoles_roles_ne (s : State) {c d : Line} (ks : List Role) (h : c ≠ d) : (s.setRoles c ks).roles d = s.roles d := by
  cases c <;> cases d
  case A.A | B.B => exact absurd rfl h
  case A.B | B.A => rfl

theorem State.setRoles_engineOf (s : State) (c : Line) (ks : List Role) (d : Line) (r : Nat) : (s.setRoles c ks).engineOf d r = s.engineOf d r := by
  cases c <;> rfl

theorem State.altersOnly_setRoles (ks : List Nat) (s : State) (c : Line) (l : List Role) : s.AltersOnly ks (s.setRoles c l) := by
  cases c <;> exact ⟨rfl, rfl, fun _ _ => rfl⟩

theorem State.withRoleOf_eq (s : State) (c : Line) (r : Nat) (f : Role → Role) :
    s.withRoleOf c r f = (s.setRoles c (modifyAt (s.roles c) r f)).showRole c r := by
  cases c <;> rfl

@[simp] theorem State.set_roles (s : State) (q : Reg) (v : Nat) (d : Line) : (s.set q v).roles d = s.roles d := by cases d <;> rfl
@[simp] theorem State.setFlag_roles (s : State) (q : Reg) (b : Bool) (d : Line) : (s.setFlag q b).roles d = s.roles d := by cases d <;> rfl
@[simp] theorem State.countRaise_roles (s : State) (q : Reg) (p : Page) (b : Nat) (d : Line) : (s.countRaise q p b).roles d = s.roles d := by
  cases d <;> rfl

@[simp] theorem State.showRole_roles (s : State) (c : Line) (r : Nat) (d : Line) : (s.showRole c r).roles d = s.roles d := by
  unfold State.showRole
  split <;> simp

/-- A change of a role changes it in each channel of the pair (R256). -/
theorem State.withRole_role (s : State) (c d : Line) (r : Nat) (f : Role → Role) (hd : d ∈ s.pairOf c) (hr : r < (s.roles d).length) :
    (s.withRole c r f).role d r = f (s.role d r) := by
  have hroles : (s.withRole c r f).roles d = modifyAt (s.roles d) r f := by
    refine State.each_observe_at (·.roles d) (modifyAt · r f) hd (s.pairOf_nodup c) ?here ?there s
    case here => intro t; rw [t.withRoleOf_eq, State.showRole_roles, State.setRoles_roles]
    case there => intro a _ ha t; rw [t.withRoleOf_eq, State.showRole_roles, State.setRoles_roles_ne _ _ ha]
  simp [State.role, hroles, modifyAt, hr]

/-- It reaches only the fields that show the role. -/
theorem State.altersOnly_withRole (s : State) (c : Line) (r e : Nat) (f : Role → Role) (he : ∀ d ∈ s.pairOf c, s.engineOf d r = some e) :
    s.AltersOnly (keysOf shownFields (s.pairOf c) e) (s.withRole c r f) := by
  refine State.altersOnly_each fun d hd t ht => ?_
  have hengine : (t.setRoles d (modifyAt (t.roles d) r f)).engineOf d r = some e := by
    rw [t.setRoles_engineOf, (ht.mono (keysOf_shownFields_subset _ e)).engineOf_eq, he d hd]
  rw [t.withRoleOf_eq]
  exact (State.altersOnly_setRoles _ t d _).trans (State.altersOnly_showRole _ d r e hengine fun q hq => key_mem_keysOf hd hq)

/-! The count of an overflow. -/

/-- The count and the interrupt of an overflow in one engine's page. -/
def State.countOverflow (s : State) (c : Line) (e : Nat) : State := s.countRaise (ENG.RELQ_OVF_CNT c e) (.eng c e) 10

theorem State.countOverflow_cnt (s : State) (c : Line) (e : Nat) : (s.countOverflow c e).get (ENG.RELQ_OVF_CNT c e)
    = min (s.get (ENG.RELQ_OVF_CNT c e) + 1) (2 ^ (ENG.RELQ_OVF_CNT c e).width - 1) := by
  rw [← s.get_count (ENG.RELQ_OVF_CNT c e)]
  exact State.get_set_ne _ _ _ _ (relqOvfCnt_key_ne_intRaw c c e e)

theorem State.countOverflow_raised (s : State) (c : Line) (e : Nat) : bitOf ((s.countOverflow c e).get (HDR.INT_RAW (.eng c e))) 10 = true :=
  State.bitOf_get_raise _ _ _ (by decide)

theorem State.countOverflow_get_ne (s : State) (c : Line) (e : Nat) (q : Reg) (hcnt : q.key ≠ (ENG.RELQ_OVF_CNT c e).key)
    (hint : q.key ≠ (HDR.INT_RAW (.eng c e)).key) : (s.countOverflow c e).get q = s.get q :=
  (s.altersOnly_countRaise (ks := [(ENG.RELQ_OVF_CNT c e).key, (HDR.INT_RAW (.eng c e)).key]) _ _ 10 (by simp) (by simp)).get q (by simp [hcnt, hint])

theorem State.altersOnly_countOverflow (s : State) {l : List Line} {d : Line} (e : Nat) (hd : d ∈ l) :
    s.AltersOnly (keysOf overflowFields l e) (s.countOverflow d e) :=
  s.altersOnly_countRaise _ _ 10 (key_mem_keysOf hd (by simp [overflowFields])) (key_mem_keysOf hd (by simp [overflowFields]))

/-- In the page of each engine of a list, what an overflow counts and raises. -/
theorem State.each_countOverflow (s : State) {l : List Line} (e : Nat) (hl : l.Nodup) {d : Line} (hd : d ∈ l) :
    (s.each l fun k t => t.countOverflow k e).get (ENG.RELQ_OVF_CNT d e) = min (s.get (ENG.RELQ_OVF_CNT d e) + 1) (2 ^ (ENG.RELQ_OVF_CNT d e).width - 1)
    ∧ bitOf ((s.each l fun k t => t.countOverflow k e).get (HDR.INT_RAW (.eng d e))) 10 = true := by
  constructor
  · refine State.each_observe_at (·.get (ENG.RELQ_OVF_CNT d e)) (fun n => min (n + 1) (2 ^ (ENG.RELQ_OVF_CNT d e).width - 1)) hd hl ?here ?there s
    case here => exact fun t => t.countOverflow_cnt d e
    case there => exact fun a _ ha t => t.countOverflow_get_ne a e _ (relqOvfCnt_key_ne e ha.symm) (relqOvfCnt_key_ne_intRaw d a e e)
  · refine State.each_observe_at (fun t => bitOf (t.get (HDR.INT_RAW (.eng d e))) 10) (fun _ => true) hd hl ?here ?there s
    case here => exact fun t => t.countOverflow_raised d e
    case there =>
      intro a _ ha t
      rw [t.countOverflow_get_ne a e _ (relqOvfCnt_key_ne_intRaw a d e e).symm (intRaw_key_ne e ha.symm)]

/-- The overflow is counted at the engine of each channel of the pair. -/
theorem State.countRole_eq_each (s : State) (c : Line) (r e : Nat) (he : ∀ d ∈ s.pairOf c, s.engineOf d r = some e) :
    s.countRole c r ENG.RELQ_OVF_CNT 10 = s.each (s.pairOf c) fun d t => t.countOverflow d e := by
  refine State.each_congr (s.AltersOnly (keysOf overflowFields (s.pairOf c) e)) (fun d hd t ht => ⟨?same, ?keeps⟩) (.refl _ s)
  case same => simp only [ht.engineOf_eq, he d hd, State.countOverflow]
  case keeps => exact ht.trans (t.altersOnly_countOverflow e hd)

theorem State.each_countOverflow_role (s : State) (l : List Line) (e : Nat) (d : Line) (r : Nat) :
    (s.each l fun k t => t.countOverflow k e).role d r = s.role d r :=
  State.each_observe (·.role d r) (fun _ _ _ => by simp only [State.role, State.countOverflow, State.countRaise_roles]) s

/-! The queue. -/

/-- The queue once its cycle's stores are discarded: empty, and closed until the cycle ends. -/
def Role.discardStores (k : Role) : Role := { k with relq := [], refused := true }

/-- The 65th store of a cycle: every store of the cycle discarded, counted and raised at the engines `e` of the pair. -/
def State.overflowQueue (s : State) (c : Line) (r e : Nat) : State :=
  (s.withRole c r Role.discardStores).each (s.pairOf c) fun d t => t.countOverflow d e

theorem State.queueStore_refused (s : State) (c : Line) (r : Nat) (addr : Word) (data : List Byte) (h : (s.role c r).refused = true) :
    s.queueStore c r addr data = s := by
  simp [State.queueStore, h]

theorem State.queueStore_room (s : State) (c : Line) (r : Nat) (addr : Word) (data : List Byte) (hopen : (s.role c r).refused = false)
    (hroom : (s.role c r).relq.length < 64) :
    s.queueStore c r addr data = s.withRole c r fun k => { k with relq := k.relq ++ [⟨addr, data⟩] } := by
  simp [State.queueStore, hopen, Nat.not_le.2 hroom]

section
variable (s : State) (c : Line) (r e : Nat) (hpair : ∀ d ∈ s.pairOf c, r < (s.roles d).length ∧ s.engineOf d r = some e)
include hpair

theorem State.queueStore_full (addr : Word) (data : List Byte) (hopen : (s.role c r).refused = false) (hfull : (s.role c r).relq.length = 64) :
    s.queueStore c r addr data = s.overflowQueue c r e := by
  have hrole := (s.altersOnly_withRole c r e Role.discardStores fun d hd => (hpair d hd).2).mono (keysOf_shownFields_subset _ e)
  have hqueue : s.queueStore c r addr data = (s.withRole c r Role.discardStores).countRole c r ENG.RELQ_OVF_CNT 10 := by
    simp only [State.queueStore, hopen, hfull, Nat.le_refl, if_true, Bool.false_eq_true, if_false]
    rfl
  rw [hqueue, State.countRole_eq_each _ c r e, hrole.pairOf_eq, State.overflowQueue]
  intro d hd
  rw [hrole.pairOf_eq] at hd
  rw [hrole.engineOf_eq, (hpair d hd).2]

theorem State.altersOnly_overflowQueue : s.AltersOnly (keysOf overflowFields (s.pairOf c) e) (s.overflowQueue c r e) :=
  ((s.altersOnly_withRole c r e _ fun d hd => (hpair d hd).2).mono (keysOf_shownFields_subset _ e)).trans
    (State.altersOnly_each fun _ hd t _ => t.altersOnly_countOverflow e hd)

theorem State.overflowQueue_role {d : Line} (hd : d ∈ s.pairOf c) : (s.overflowQueue c r e).role d r = (s.role d r).discardStores := by
  rw [State.overflowQueue, State.each_countOverflow_role, s.withRole_role c d r _ hd (hpair d hd).1]

theorem State.overflowQueue_counts {d : Line} (hd : d ∈ s.pairOf c) :
    (s.overflowQueue c r e).get (ENG.RELQ_OVF_CNT d e) = min (s.get (ENG.RELQ_OVF_CNT d e) + 1) (2 ^ (ENG.RELQ_OVF_CNT d e).width - 1)
    ∧ bitOf ((s.overflowQueue c r e).get (HDR.INT_RAW (.eng d e))) 10 = true := by
  have hcnt : (s.withRole c r Role.discardStores).get (ENG.RELQ_OVF_CNT d e) = s.get (ENG.RELQ_OVF_CNT d e) :=
    (s.altersOnly_withRole c r e _ fun d hd => (hpair d hd).2).get _ (relqOvfCnt_key_not_shown _ d e e)
  rw [← hcnt]
  exact State.each_countOverflow _ e (s.pairOf_nodup c) hd

end

end Sys2Proof.Machine

namespace Sys2Proof.Proofs
open Sys2Proof.Machine

/-- Settles O60: the 65th store leaves `State.overflowQueue`, whose roles, counts and frame give each clause; its closed queue refuses what follows. -/
theorem sixtyFifthStoreDiscardsTheCycle : Obligations.SixtyFifthStoreDiscardsTheCycle := by
  intro s c r e addr data hc hpair hopen
  refine ⟨fun hroom d hd => ?room, fun hfull => ⟨s.overflowQueue c r e, (s.queueStore_full c r e hpair addr data hopen hfull).symm, ?_⟩⟩
  case room => rw [s.queueStore_room c r addr data hopen hroom, s.withRole_role c d r _ hd (hpair d hd).1]
  obtain ⟨hmem, hsent, hget⟩ := s.altersOnly_overflowQueue c r e hpair
  refine ⟨fun d hd => ?pages, hmem, hsent, fun q hq => hget q (key_not_mem_keysOf hq), fun a bs => ?refuses⟩
  case pages =>
    obtain ⟨hcnt, hraised⟩ := s.overflowQueue_counts c r e hpair hd
    rw [s.overflowQueue_role c r e hpair hd]
    exact ⟨rfl, rfl, hcnt, hraised⟩
  case refuses =>
    refine State.queueStore_refused _ c r a bs ?_
    rw [s.overflowQueue_role c r e hpair hc]
    rfl

end Sys2Proof.Proofs
end

section
/-! What every command keeps: one rule over the commands, from the rule of each one's meaning. -/

namespace Sys2Proof.Machine

/-- Every command answers a next state that keeps the queue, what was sent and the canonical stores; the local time too, but for those that may
reset the device. -/
theorem exec_keeps {s0 : State} : ∀ (c : Instr) (s : State), Keeps (!mayReset c) s0 s → KeepsOut (!mayReset c) s0 (exec c s)
  | .tick, _, hs => execTick_keeps hs.weak
  | .cycleMark _, _, hs => execCycleMark_keeps hs
  | .cut, _, hs => execCut_keeps hs
  | .returnEnd, _, hs => execReturnEnd_keeps hs
  | .returnClose, _, hs => execReturnClose_keeps hs
  | .rateCorrection, _, hs => execRateCorrection_keeps hs
  | .holdMaxExpiry, _, hs => execHoldMaxExpiry_keeps hs
  | .snap, _, hs => execSnap_keeps hs
  | .ppsEdge _ _, _, hs => execPpsEdge_keeps hs
  | .ppsLost, _, hs => execPpsLost_keeps hs
  | .asOffsWrite _, _, hs => execAsOffsWrite_keeps hs
  | .cycLenWrite _, _, hs => execCycLenWrite_keeps hs
  | .asSyncTx _ _, _, hs => execAsSyncTx_keeps hs
  | .asAnnounceTx _, _, hs => execAsAnnounceTx_keeps hs
  | .asPdelayReqTx _ _, _, hs => execAsPdelayReqTx_keeps hs
  | .lineEnable _, _, hs => execLineEnable_keeps hs
  | .lineDisable _, _, hs => execLineDisable_keeps hs
  | .listenTimerExpiry _, _, hs => execListenTimerExpiry_keeps hs
  | .coldStartTrayTx _ _, _, hs => execColdStartTrayTx_keeps hs
  | .coldStartTrayRx _ _ _, _, hs => execColdStartTrayRx_keeps hs
  | .loneProbeExpiry _ _, _, hs => execLoneProbeExpiry_keeps hs
  | .portLinkChange _ _, _, hs => execPortLinkChange_keeps hs
  | .couplingWindowExpiry _, _, hs => execCouplingWindowExpiry_keeps hs
  | .cplClosedChange _ _, _, hs => execCplClosedChange_keeps hs
  | .linkSettleExpiry _, _, hs => execLinkSettleExpiry_keeps hs
  | .seekTrayTx _ _, _, hs => execSeekTrayTx_keeps hs
  | .seekTrayRx _ _ _ _, _, hs => execSeekTrayRx_keeps hs
  | .countTrayTx _ _, _, hs => execCountTrayTx_keeps hs
  | .countTrayRx _ _ _ _, _, hs => execCountTrayRx_keeps hs
  | .confirmTrayTx _ _, _, hs => execConfirmTrayTx_keeps hs
  | .confirmTrayRx _ _ _ _, _, hs => execConfirmTrayRx_keeps hs
  | .keyDistTrayTx _ _, _, hs => execKeyDistTrayTx_keeps hs
  | .keyDistTrayRx _ _ _ _ _, _, hs => execKeyDistTrayRx_keeps hs
  | .relinkExpiry, _, hs => execRelinkExpiry_keeps hs
  | .inaugTrayTimeout _, _, hs => execInaugTrayTimeout_keeps hs
  | .integrateTimeout _, _, hs => execIntegrateTimeout_keeps hs
  | .passiveTmoExpiry _, _, hs => execPassiveTmoExpiry_keeps hs
  | .dataTrayTx _ _, _, hs => execDataTrayTx_keeps hs
  | .reverseCopyRx _ _, _, hs => execReverseCopyRx_keeps hs
  | .trayFrameRx _ _ _ _, _, hs => execTrayFrameRx_keeps hs
  | .v1FrameRx _, _, hs => execV1FrameRx_keeps hs
  | .returnFrameRx _ _ _, _, hs => execReturnFrameRx_keeps hs
  | .positionAbsent _ _, _, hs => execPositionAbsent_keeps hs
  | .claimWordExpiry _, _, hs => execClaimWordExpiry_keeps hs
  | .windowMiss _, _, hs => execWindowMiss_keeps hs
  | .enterPassive _, _, hs => execEnterPassive_keeps hs
  | .forerunnerSlotTx _ _, _, hs => execForerunnerSlotTx_keeps hs
  | .slotFrameRx _ _ _ _ _, _, hs => execSlotFrameRx_keeps hs
  | .keyReqTx, _, hs => execKeyReqTx_keeps hs
  | .keyReqRx _ _, _, hs => execKeyReqRx_keeps hs
  | .keyGrantTx, _, hs => execKeyGrantTx_keeps hs
  | .keyGrantRx _ _, _, hs => execKeyGrantRx_keeps hs
  | .keyRoll, _, hs => execKeyRoll_keeps hs
  | .pinLatest _, _, hs => execPinLatest_keeps hs
  | .pinPrevious _, _, hs => execPinPrevious_keeps hs
  | .unpin _, _, hs => execUnpin_keeps hs
  | .draftOpen _ _ _, _, hs => execDraftOpen_keeps hs
  | .draftCommit _ _ _ _ _, _, hs => execDraftCommit_keeps hs
  | .draftAbort _ _ _, _, hs => execDraftAbort_keeps hs
  | .draftDataWrite _ _ _ _, _, hs => execDraftDataWrite_keeps hs
  | .draftExpired _ _, _, hs => execDraftExpired_keeps hs
  | .kick _ _, _, hs => execKick_keeps hs
  | .jobStart _, _, hs => execJobStart_keeps hs
  | .jobComplete _ _, _, hs => execJobComplete_keeps hs
  | .jobOverrun _ _, _, hs => execJobOverrun_keeps hs
  | .jobReplay _, _, hs => execJobReplay_keeps hs
  | .bfx _ _ _ _ _ _ _, _, hs => execBfx_keeps hs
  | .bfi _ _ _ _ _ _, _, hs => execBfi_keeps hs
  | .sscl _ _ _ _ _ _ _, _, hs => execSscl_keeps hs
  | .bswap _ _ _ _ _, _, hs => execBswap_keeps hs
  | .ldp _ _ _ _ _, _, hs => execLdp_keeps hs
  | .wft _ _ _ _, _, hs => execWft_keeps hs
  | .wftReturn _ _, _, hs => execWftReturn_keeps hs
  | .ebreak _ _, _, hs => execEbreak_keeps hs
  | .engineLoad _ _ _ _ _ _, _, hs => execEngineLoad_keeps hs
  | .engineStore _ _ _ _ _, _, hs => execEngineStore_keeps hs.weak
  | .evqPop _ _ _, _, hs => execEvqPop_keeps hs
  | .mboxOutDb _ _, _, hs => execMboxOutDb_keeps hs
  | .mboxInAck _ _, _, hs => execMboxInAck_keeps hs
  | .inDb _ _, _, hs => execInDb_keeps hs
  | .outAck _ _, _, hs => execOutAck_keeps hs
  | .semaphoreLoad _ _ _ _, _, hs => execSemaphoreLoad_keeps hs
  | .semaphoreStore _ _ _ _, _, hs => execSemaphoreStore_keeps hs
  | .dmaGo _ _ _, _, hs => execDmaGo_keeps hs
  | .dmaDone _ _ _, _, hs => execDmaDone_keeps hs.weak
  | .plannedMove _, _, hs => execPlannedMove_keeps hs
  | .engWdt _ _, _, hs => execEngWdt_keeps hs
  | .engRun _ _ _, _, hs => execEngRun_keeps hs
  | .engWarm _ _, _, hs => execEngWarm_keeps hs
  | .frameRx _ _ _ _, _, hs => execFrameRx_keeps hs
  | .frameTxStart _ _, _, hs => execFrameTxStart_keeps hs
  | .gateDrop _ _, _, hs => execGateDrop_keeps hs
  | .gclEntryExpiry _, _, hs => execGclEntryExpiry_keeps hs
  | .gclSwap _, _, hs => execGclSwap_keeps hs
  | .fdbAgeOut _, _, hs => execFdbAgeOut_keeps hs
  | .ringTailWrite _ _, _, hs => execRingTailWrite_keeps hs
  | .txDescDone _, _, hs => execTxDescDone_keeps hs
  | .trdpTxFetch _, _, hs => execTrdpTxFetch_keeps hs
  | .pauseFrameRx _ _, _, hs => execPauseFrameRx_keeps hs
  | .pauseExpiry _, _, hs => execPauseExpiry_keeps hs
  | .pauseStorm _, _, hs => execPauseStorm_keeps hs
  | .pauseStormEnd _, _, hs => execPauseStormEnd_keeps hs
  | .pauseTxRepeat _, _, hs => execPauseTxRepeat_keeps hs
  | .cbReset _, _, hs => execCbReset_keeps hs
  | .etbEnWrite _, _, hs => execEtbEnWrite_keeps hs
  | .canEnable _, _, hs => execCanEnable_keeps hs
  | .canDisable _, _, hs => execCanDisable_keeps hs
  | .canIntegrated _, _, hs => execCanIntegrated_keeps hs
  | .canFrameRx _ _ _, _, hs => execCanFrameRx_keeps hs
  | .canError _ _ _ _ _, _, hs => execCanError_keeps hs
  | .restart _, _, hs => execRestart_keeps hs
  | .busOn _, _, hs => execBusOn_keeps hs
  | .canRxLock _ _ _, _, hs => execCanRxLock_keeps hs
  | .canRxUnlock _ _ _, _, hs => execCanRxUnlock_keeps hs
  | .lockTmo _ _, _, hs => execLockTmo_keeps hs
  | .fifoAck _ _ _, _, hs => execFifoAck_keeps hs
  | .txReq _ _, _, hs => execTxReq_keeps hs
  | .canPeriodicReq _ _, _, hs => execCanPeriodicReq_keeps hs
  | .txCancel _ _ _ _, _, hs => execTxCancel_keeps hs
  | .txFlip _ _, _, hs => execTxFlip_keeps hs
  | .canTxAttemptEnd _ _ _, _, hs => execCanTxAttemptEnd_keeps hs
  | .canBufCfgWrite _ _ _ _ _ _, _, hs => execCanBufCfgWrite_keeps hs
  | .listenOnlyStart _, _, hs => execListenOnlyStart_keeps hs
  | .listenOnlyEnd _, _, hs => execListenOnlyEnd_keeps hs
  | .mvbMasterFrameRx _ _ _ _, _, hs => execMvbMasterFrameRx_keeps hs
  | .mvbSlaveFrameRx _ _ _ _, _, hs => execMvbSlaveFrameRx_keeps hs
  | .portStale _ _, _, hs => execPortStale_keeps hs
  | .portFlip _ _, _, hs => execPortFlip_keeps hs
  | .renewRx _ _ _, _, hs => execRenewRx_keeps hs
  | .grantRx _ _ num unable _, _, hs => @execGrantRx_keeps _ _ _ _ num unable _ _ hs
  | .leaseEnd, _, hs => execLeaseEnd_keeps hs
  | .claim, _, hs => execClaim_keeps hs
  | .claimRx _ _, _, hs => execClaimRx_keeps hs
  | .startupCountReached, _, hs => execStartupCountReached_keeps hs
  | .handover _, _, hs => execHandover_keeps hs
  | .handoverRx _ _ cause, _, hs => @execHandoverRx_keeps _ _ _ _ cause _ hs
  | .handoverAckRx _ _, _, hs => execHandoverAckRx_keeps hs
  | .handoverTick, _, hs => execHandoverTick_keeps hs
  | .hatOutRelease, _, hs => execHatOutRelease_keeps hs
  | .hostGrant _, _, hs => execHostGrant_keeps hs
  | .mergeRx _ _ _ _ _ _ _, _, hs => execMergeRx_keeps hs
  | .cutRecordRx _ _ _ _ _ _ _, _, hs => execCutRecordRx_keeps hs
  | .epochHeadRx _ _ _ _, _, hs => execEpochHeadRx_keeps hs
  | .epochCommitRx _ _ _ _, _, hs => execEpochCommitRx_keeps hs
  | .hbtPulseRx _ _, _, hs => execHbtPulseRx_keeps hs
  | .hbtLost, _, hs => execHbtLost_keeps hs
  | .pcieInboundWrite _ _ _ _ _, _, hs => execPcieInboundWrite_keeps hs.weak
  | .pcieInboundRead _ _ _ _ _, _, hs => execPcieInboundRead_keeps hs
  | .pcieCompletionRx _ _, _, hs => execPcieCompletionRx_keeps hs
  | .cplTmo _, _, hs => execCplTmo_keeps hs
  | .linkDown _, _, hs => execLinkDown_keeps hs
  | .msixMessage _, _, hs => execMsixMessage_keeps hs
  | .vecRearm _, _, hs => execVecRearm_keeps hs
  | .qspiWrite _ _ _ _, _, hs => execQspiWrite_keeps hs.weak
  | .qspiRead _ _, _, hs => execQspiRead_keeps hs
  | .drClear, _, hs => execDrClear_keeps hs
  | .drFetchDone, _, hs => execDrFetchDone_keeps hs
  | .drTmo, _, hs => execDrTmo_keeps hs
  | .fence _, _, hs => execFence_keeps hs
  | .postedFail _ _ _ _ _ _, _, hs => execPostedFail_keeps hs
  | .plogClr _, _, hs => execPlogClr_keeps hs
  | .laneUp _, _, hs => execLaneUp_keeps hs
  | .laneDown _, _, hs => execLaneDown_keeps hs.weak
  | .linkFrameRx _ _, _, hs => execLinkFrameRx_keeps hs.weak
  | .lineCopyRx _, _, hs => execLineCopyRx_keeps hs
  | .formingDataRx _, _, hs => execFormingDataRx_keeps hs
  | .remoteRequestRx _ _, _, hs => execRemoteRequestRx_keeps hs.weak
  | .remoteResponseRx _ _ _, _, hs => execRemoteResponseRx_keeps hs
  | .rmtTmo, _, hs => execRmtTmo_keeps hs
  | .lcManufacture, _, hs => execLcManufacture_keeps hs.weak
  | .lcProvision, _, hs => execLcProvision_keeps hs.weak
  | .lcDeploy, _, hs => execLcDeploy_keeps hs.weak
  | .lcReturn, _, hs => execLcReturn_keeps hs.weak
  | .lcScrap, _, hs => execLcScrap_keeps hs.weak
  | .operatorRootInstall, _, hs => execOperatorRootInstall_keeps hs.weak
  | .rootRevoke, _, hs => execRootRevoke_keeps hs.weak
  | .fleetKeyInstall, _, hs => execFleetKeyInstall_keeps hs.weak
  | .debugToken, _, hs => execDebugToken_keeps hs.weak
  | .headKeyInstall, _, hs => execHeadKeyInstall_keeps hs.weak
  | .dbgChalRead _, _, hs => execDbgChalRead_keeps hs
  | .zeroise _, _, hs => execZeroise_keeps hs
  | .trngFail, _, hs => execTrngFail_keeps hs
  | .bootStageDone _, _, hs => execBootStageDone_keeps hs
  | .pushChunk _ _ _, _, hs => execPushChunk_keeps hs.weak
  | .pushChunkTaken, _, hs => execPushChunkTaken_keeps hs
  | .proofIntervalExpiry _, _, hs => execProofIntervalExpiry_keeps hs
  | .proofRunStart _, _, hs => execProofRunStart_keeps hs
  | .proofPatternsDone _ _, _, hs => execProofPatternsDone_keeps hs
  | .proofRestore _, _, hs => execProofRestore_keeps hs
  | .prfStop, _, hs => execPrfStop_keeps hs
  | .maintCmd _, _, hs => execMaintCmd_keeps hs
  | .tagSession _, _, hs => execTagSession_keeps hs
  | .tagResponseRx _ _ _, _, hs => execTagResponseRx_keeps hs
  | .tagTimeout _, _, hs => execTagTimeout_keeps hs
  | .marginSample _ _ _, _, hs => execMarginSample_keeps hs
  | .pdCtrlWrite _, _, hs => execPdCtrlWrite_keeps hs
  | .pdDone, _, hs => execPdDone_keeps hs
  | .brownoutWarn _, _, hs => execBrownoutWarn_keeps hs
  | .brownoutLong, _, hs => execBrownoutLong_keeps hs
  | .boRecover, _, hs => execBoRecover_keeps hs
  | .brownoutEnd, _, hs => execBrownoutEnd_keeps hs.weak
  | .vddWindowExcursion _, _, hs => execVddWindowExcursion_keeps hs
  | .tjRange _, _, hs => execTjRange_keeps hs
  | .gocWindow _ _ _ _, _, hs => execGocWindow_keeps hs
  | .powerOnReset _ _, _, hs => execPowerOnReset_keeps hs.weak
  | .resetN _ _, _, hs => execResetN_keeps hs.weak
  | .coreReset, _, hs => execCoreReset_keeps hs.weak
  | .chipRst _, _, hs => execChipRst_keeps hs.weak
  | .softReset _, _, hs => execSoftReset_keeps hs
  | .faultLatchClear, _, hs => execFaultLatchClear_keeps hs
  | .memoryError _ _ _, _, hs => execMemoryError_keeps hs
  | .crossbarTimeout _, _, hs => execCrossbarTimeout_keeps hs
  | .lockstepMiscompare, _, hs => execLockstepMiscompare_keeps hs
  | .scrubRead _ _ _, _, hs => execScrubRead_keeps hs
  | .chModeWrite _, _, hs => execChModeWrite_keeps hs
  | .twinCtrlWrite _, _, hs => execTwinCtrlWrite_keeps hs
  | .lockKey _ _, _, hs => execLockKey_keeps hs
  | .cfgLock _, _, hs => execCfgLock_keeps hs
  | .lockAll, _, hs => execLockAll_keeps hs
  | .sticky, _, hs => execSticky_keeps hs
  | .intRawClear _ _, _, hs => execIntRawClear_keeps hs
  | .intSet _ _, _, hs => execIntSet_keeps hs
  | .readClear _ _, _, hs => execReadClear_keeps hs
  | .gpioEdge _ _, _, hs => execGpioEdge_keeps hs
  | .outSet _, _, hs => execOutSet_keeps hs
  | .outClr _, _, hs => execOutClr_keeps hs
  | .registerWrite _ _ _, _, hs => execRegisterWrite_keeps hs.weak
  | .rv32imcInstruction _ _, _, hs => execRv32imcInstruction_keeps hs.weak
  | .machineExternalInterrupt _ _, _, hs => execMachineExternalInterrupt_keeps hs
  | .consistLinkChange _ _, _, hs => execConsistLinkChange_keeps hs
  | .pcieConfigRequest _ _ _, _, hs => execPcieConfigRequest_keeps hs
  | .pcieLinkUp _ _, _, hs => execPcieLinkUp_keeps hs
  | .coreResetEnd _ _, _, hs => execCoreResetEnd_keeps hs
/-- The same of a state that was answered. -/
theorem keeps_of_exec {c : Instr} {s t : State} (h : exec c s = .next t) : Keeps (!mayReset c) s t := by
  obtain ⟨u, hu, hkeeps⟩ := exec_keeps c s .refl
  rw [h] at hu
  cases hu
  exact hkeeps

/-- A step leaves the stores canonical: a clock writes neither of them, and a command runs from a state with the same stores. -/
theorem step_inv {s t : State} (hs : s.Inv) (h : step s = .next t) : t.Inv := by
  obtain ⟨hregs, hmem⟩ := hs
  unfold step at h
  split at h
  case h_1 =>
    cases h
    have hkeeps : Keeps false s s.clock := State.clock_keeps .refl
    exact ⟨hkeeps.regs hregs, hkeeps.mem hmem⟩
  case h_2 =>
    have hkeeps := keeps_of_exec h
    exact ⟨hkeeps.regs hregs, hkeeps.mem hmem⟩

/-- A fabric clock under a core reset: the notes of the clock that ends go, and both counters stand (R444). -/
theorem State.clock_of_held (s : State) (h : s.power.held = true) : s.clock = { s with
    updates := [], sharedStores := [], thisClock := ⟨[], [], none⟩, proof := { s.proof with aborted := [] }
    softResets := s.softResets.filterMap fun x => if x.2 ≤ 1 then none else some (x.1, x.2 - 1) } := by
  simp [State.clock, h]

end Sys2Proof.Machine

namespace Sys2Proof.Proofs
open Sys2Proof.Machine

/-- Settles O4: `step_inv`, over both ways a step can go. -/
theorem stepKeepsCanonicalStores : Obligations.StepKeepsCanonicalStores := fun _ _ hs h => step_inv hs h

/-- Settles O6: outside `mayReset` the rule of every command keeps the local time. -/
theorem ltcChangesOnlyByReset : Obligations.LtcChangesOnlyByReset := by
  intro c s t hreset h
  exact (keeps_of_exec h).ltc (by simp [hreset])

/-- Settles O5: the queue and the record of what was sent are parts of what every command keeps. -/
theorem commandsKeepTheQueueAndWhatWasSent : Obligations.CommandsKeepTheQueueAndWhatWasSent := fun _ _ _ h =>
  ⟨(keeps_of_exec h).queue, (keeps_of_exec h).sent⟩

/-- Settles O7: the rule of every command names its next state. -/
theorem everyCommandAnswersANextState : Obligations.EveryCommandAnswersANextState := by
  intro c s
  obtain ⟨t, ht, -⟩ := exec_keeps c s .refl
  exact ⟨t, ht⟩

/-- Settles O1: a step matches on the queue. -/
theorem stepRunsTheFrontCommand : Obligations.StepRunsTheFrontCommand := fun _ _ _ => rfl

/-- Settles O2: a step on an empty queue is `State.clock`, which advances the counters unless a core reset is held. -/
theorem idleStepIsOneFabricClock : Obligations.IdleStepIsOneFabricClock := by
  intro s hempty
  have hstep : step s = .next s.clock := by simp [step, hempty]
  refine ⟨fun hruns => ⟨s.clock, hstep, ?_⟩, fun hheld => by rw [hstep, s.clock_of_held hheld]⟩
  simp only [State.clock, hruns, Bool.false_eq_true, if_false]
  exact ⟨rfl, rfl, rfl, rfl⟩

/-- Settles O3: both stores are empty after reset, so every read is a reset value. -/
theorem resetStateIsCanonicalAndEmpty : Obligations.ResetStateIsCanonicalAndEmpty :=
  ⟨⟨rfl, rfl⟩, rfl, rfl, rfl, rfl, rfl, rfl, rfl, rfl⟩

end Sys2Proof.Proofs
end

section
/-! Reads of the two stores, of counters, of interrupt bits and of ERR_INFO after each of their updates (R42, R44, R454). -/

namespace Sys2Proof.Machine

/-! Memory. -/

@[simp] theorem State.setBytes_regs (s : State) (a : Nat) (bs : List Byte) : (s.setBytes a bs).regs = s.regs := by
  induction bs generalizing s a with
  | nil => rfl
  | cons b t ih => exact ih _ _

@[simp] theorem State.setBytes_get (s : State) (a : Nat) (bs : List Byte) (q : Reg) : (s.setBytes a bs).get q = s.get q := by
  simp [State.get]

/-- Consecutive bytes read back as written. -/
theorem State.bytes_setBytes (s : State) (a : Nat) (bs : List Byte) : (s.setBytes a bs).bytes a bs.length = bs := by
  refine List.ext_getElem (by simp [State.bytes]) fun i _ hi => ?_
  simp [State.bytes, State.byte_setBytes, hi]

theorem State.byte_setBytes_outside (s : State) (a : Nat) (bs : List Byte) (b : Nat) (h : b < a ∨ a + bs.length ≤ b) :
    (s.setBytes a bs).byte b = s.byte b := by
  rw [State.byte_setBytes, if_neg (by omega)]

/-! Single bits. -/

theorem and_add_ldiff (x y : Nat) : (x &&& y) + Nat.ldiff x y = x := by
  induction x using Nat.binaryRec generalizing y with
  | zero => simp [Nat.ldiff]
  | bit a m ih =>
    obtain ⟨b, n, rfl⟩ : ∃ b n, y = Nat.bit b n := ⟨y.bodd, y.div2, (Nat.bit_bodd_div2 y).symm⟩
    have hrest := ih n
    rw [Nat.land_bit, Nat.ldiff_bit]
    cases a <;> cases b <;> simp [Nat.bit_val] <;> omega

/-- Taking the bits of a mask away clears exactly those. -/
theorem testBit_sub_and (x y i : Nat) : (x - (x &&& y)).testBit i = (x.testBit i && !y.testBit i) := by
  rw [← Nat.testBit_ldiff]
  congr 1
  have := and_add_ldiff x y
  omega

theorem State.bitOf_get_raise_iff (s : State) (p : Page) (b i : Nat) (hi : i < 32) :
    bitOf ((s.raise p b).get (HDR.INT_RAW p)) i = (decide (i = b) || bitOf (s.get (HDR.INT_RAW p)) i) := by
  rw [State.get_raise, bitOf, bitOf, Nat.testBit_mod_two_pow, Nat.testBit_or, Nat.testBit_two_pow]
  simp [hi, Bool.or_comm, eq_comm]

/-- A write of ones clears the bits written, but for those set in this clock (R7). -/
theorem State.bitOf_get_clearBits (s : State) (r : Reg) (m i : Nat) (hi : i < r.width) :
    bitOf ((s.clearBits r m).get r) i = (bitOf (s.get r) i && !(m.testBit i && !(s.kept r).testBit i)) := by
  simp only [State.clearBits, State.get_set, bitOf, Nat.testBit_mod_two_pow, hi, decide_true, Bool.true_and, testBit_sub_and]

/-- Without an update in this clock nothing is kept of a W1C field. -/
theorem State.kept_of_updates_nil (s : State) (r : Reg) (hr : r.acc ≠ .rc) (h : s.updates = []) : s.kept r = 0 := by
  simp [State.kept, State.updateOf, h, Reg.cleared, hr]

/-- An update leaves a note of what it makes of the cleared field. -/
theorem State.kept_update (s : State) (r : Reg) (f : Nat → Nat) : (s.update r f).kept r = f (s.kept r) := by
  have hold : (s.updates.filter fun u => u.key != r.key).find? (fun u => decide (u.key = r.key)) = none := by
    simp [List.find?_eq_none]
  simp [State.update, State.updateTo, State.kept, State.updateOf, State.noteUpdate, List.find?_append, hold]

/-- An interrupt raised in this clock outlasts a clear of it. -/
theorem State.bitOf_clearBits_raise (s : State) (p : Page) (b m : Nat) (hb : b < 32) :
    bitOf (((s.raise p b).clearBits (HDR.INT_RAW p) m).get (HDR.INT_RAW p)) b = true := by
  have hkept : ((s.raise p b).kept (HDR.INT_RAW p)).testBit b = true := by
    simp [State.raise, State.kept_update, Nat.testBit_or, Nat.testBit_two_pow_self]
  rw [State.bitOf_get_clearBits _ _ _ _ hb, hkept, State.bitOf_get_raise _ _ _ hb]
  simp

/-! ERR_INFO. -/

theorem State.get_updateTo_ne (s : State) (r q : Reg) (v kept : Nat) (h : q.key ≠ r.key) : (s.updateTo r v kept).get q = s.get q :=
  State.get_set_ne _ _ _ _ h

/-- Updates of other fields, one after the other, leave a field as it was. -/
theorem State.get_foldl_updateTo_ne {β : Type} (f : β → Reg) (v kept : β → Nat) (l : List β) (q : Reg) (h : ∀ x ∈ l, q.key ≠ (f x).key) (s : State) :
    (l.foldl (fun t x => t.updateTo (f x) (v x) (kept x)) s).get q = s.get q := by
  induction l generalizing s with
  | nil => rfl
  | cons x l ih =>
    obtain ⟨hx, hl⟩ := List.forall_mem_cons.1 h
    exact (ih hl _).trans (s.get_updateTo_ne _ _ _ _ hx)

/-- The four fields of ERR_INFO lie at different bits of one word. -/
theorem errInfo_keys_nodup (p : Page) : ((errInfo p).map Reg.key).Nodup := by
  simp [errInfo, Reg.key, HDR.ERR_INFO_CLASS, HDR.ERR_INFO_CELL, HDR.ERR_INFO_CAUSE, HDR.ERR_INFO_WORD, headerAt]

/-- Four updates of fields with different keys: each reads its own. -/
theorem State.get_foldl_updateTo {l : List (Reg × Nat)} (hl : (l.map fun x => x.1.key).Nodup) {x : Reg × Nat} (hx : x ∈ l) (v kept : Reg × Nat → Nat)
    (s : State) : (l.foldl (fun t y => t.updateTo y.1 (v y) (kept y)) s).get x.1 = v x % 2 ^ x.1.width := by
  induction l generalizing s with
  | nil => cases hx
  | cons y l ih =>
    obtain ⟨hnew, hrest⟩ := List.nodup_cons.1 hl
    rcases List.mem_cons.1 hx with rfl | hmem
    · rw [List.foldl_cons, State.get_foldl_updateTo_ne Prod.fst v kept l x.1 ?_]
      · exact State.get_updateTo _ _ _ _
      · intro y hy hkey
        exact hnew (List.mem_map.2 ⟨y, hy, hkey.symm⟩)
    · exact ih hrest hmem _

/-- An entry of ERR_INFO: its field and its value. -/
def errEntry (p : Page) (cls cell cause word : Nat) : List (Reg × Nat) :=
  [(HDR.ERR_INFO_CLASS p, cls), (HDR.ERR_INFO_CELL p, cell), (HDR.ERR_INFO_CAUSE p, cause), (HDR.ERR_INFO_WORD p, word)]

theorem errEntry_fields (p : Page) (cls cell cause word : Nat) : (errEntry p cls cell cause word).map Prod.fst = errInfo p := rfl

theorem errEntry_keys (p : Page) (cls cell cause word : Nat) : ((errEntry p cls cell cause word).map fun x => x.1.key) = (errInfo p).map Reg.key := rfl

section
variable (s : State) (p : Page) (gives : Nat → Nat → Bool) (cls cell cause word : Nat)

theorem State.get_noteError_ne (q : Reg) (hq : q.key ∉ (errInfo p).map Reg.key) :
    (s.noteError p gives [cls, cell, cause, word]).get q = s.get q := by
  simp only [State.noteError]
  split
  · refine State.get_foldl_updateTo_ne Prod.fst _ _ _ q (fun x hx hkey => hq ?_) s
    rw [hkey, ← errEntry_keys p cls cell cause word]
    exact List.mem_map_of_mem (f := fun x => x.1.key) hx
  · rfl

/-- An entry that the one held gives way to is taken. -/
theorem State.get_noteError_taken (h : gives (s.get (HDR.ERR_INFO_CLASS p)) (s.get (HDR.ERR_INFO_CAUSE p)) = true) {x : Reg × Nat}
    (hx : x ∈ errEntry p cls cell cause word) : (s.noteError p gives [cls, cell, cause, word]).get x.1 = x.2 % 2 ^ x.1.width := by
  simp only [State.noteError, h, Bool.true_or, if_true]
  exact State.get_foldl_updateTo (l := errEntry p cls cell cause word) (errInfo_keys_nodup p) hx (fun y => y.2) _ s

/-- Where the entry held does not give way, its fields read as before: they may only be written again, for a clear of this clock. -/
theorem State.get_noteError_held (h : gives (s.get (HDR.ERR_INFO_CLASS p)) (s.get (HDR.ERR_INFO_CAUSE p)) = false) {q : Reg} (hq : q ∈ errInfo p)
    (hfits : s.get q < 2 ^ q.width) : (s.noteError p gives [cls, cell, cause, word]).get q = s.get q := by
  simp only [State.noteError, h, Bool.false_or, Bool.false_eq_true, if_false]
  split
  · rw [← errEntry_fields p cls cell cause word] at hq
    obtain ⟨x, hx, rfl⟩ := List.mem_map.1 hq
    exact (State.get_foldl_updateTo (l := errEntry p cls cell cause word) (errInfo_keys_nodup p) hx (fun y => s.get y.1) _ s).trans (Nat.mod_eq_of_lt hfits)
  · rfl

end

end Sys2Proof.Machine

namespace Sys2Proof.Proofs
open Sys2Proof.Machine

/-- Settles O8: the lemmas of the two stores; a byte of memory and a register field do not meet. -/
theorem storesReadBackWhatWasWritten : Obligations.StoresReadBackWhatWasWritten := fun s r q v a bs =>
  ⟨s.get_set r v, s.get_set_ne r q v, s.set_byte r v a, s.bytes_setBytes a bs, s.byte_setBytes_outside a bs, s.setBytes_get a bs q⟩

/-- Settles O9: a count stops at the field's largest value; an event and a clear move single bits of INT_RAW. -/
theorem countersSaturateAndInterruptBitsMoveAlone : Obligations.CountersSaturateAndInterruptBitsMoveAlone := by
  refine ⟨fun s r n => ⟨s.get_countBy r n, fun hmax => ?saturated⟩, fun s p b i v hi => ⟨s.bitOf_get_raise_iff p b i hi, fun hclock => ?cleared, ?raised⟩⟩
  case saturated => rw [s.get_countBy, hmax]; omega
  case cleared =>
    rw [State.clearInt, s.bitOf_get_clearBits _ _ _ hi, s.kept_of_updates_nil (HDR.INT_RAW p) (by simp [HDR.INT_RAW, headerAt]) hclock]
    simp [bitOf]
  case raised =>
    by_cases hb : b < 32
    · rw [State.clearInt, s.bitOf_clearBits_raise p b v hb, s.bitOf_get_raise p b hb]
    · have hover : ∀ n, ((n % 2 ^ 32).testBit b) = false := fun n => by rw [Nat.testBit_mod_two_pow]; simp [hb]
      rw [State.clearInt, State.clearBits, State.get_set, State.get_raise, bitOf, bitOf]
      exact (hover _).trans (hover _).symm

/-- Settles O10: ERR_INFO takes an entry whole, or keeps the one it holds. -/
theorem errInfoHoldsTheFirstOfTheMostSevere : Obligations.ErrInfoHoldsTheFirstOfTheMostSevere := by
  intro s p cls cell cause word hcls
  refine ⟨fun hheld q hq hfits => ?held, fun q hq => s.get_noteError_ne _ _ _ _ _ _ q hq, fun hless => ?taken⟩
  case held => exact s.get_noteError_held _ _ _ _ _ _ (by simpa using hheld) hq hfits
  case taken =>
    have htaken := fun {x : Reg × Nat} => s.get_noteError_taken p (fun held _ => held < cls) cls cell cause (if cause = 1 ∨ cause = 2 then word else 0)
      (by simpa using hless) (x := x)
    refine ⟨(htaken (x := (HDR.ERR_INFO_CLASS p, cls)) (by simp [errEntry])).trans (Nat.mod_eq_of_lt (Nat.lt_succ_of_le hcls)),
      htaken (x := (HDR.ERR_INFO_CELL p, cell)) (by simp [errEntry]), htaken (x := (HDR.ERR_INFO_CAUSE p, cause)) (by simp [errEntry]),
      htaken (x := (HDR.ERR_INFO_WORD p, if cause = 1 ∨ cause = 2 then word else 0)) (by simp [errEntry])⟩

end Sys2Proof.Proofs
end

section
/-! Reads of other fields after an update of one: `simp (disch := decide)` takes them where both fields are named. -/

namespace Sys2Proof.Machine

theorem State.get_setFlag_ne (s : State) (r q : Reg) (b : Bool) (h : q.key ≠ r.key) : (s.setFlag r b).get q = s.get q := State.get_set_ne _ _ _ _ h
theorem State.get_setInt_ne (s : State) (r q : Reg) (i : Int) (h : q.key ≠ r.key) : (s.setInt r i).get q = s.get q := State.get_set_ne _ _ _ _ h
theorem State.get_update_ne (s : State) (r q : Reg) (f : Nat → Nat) (h : q.key ≠ r.key) : (s.update r f).get q = s.get q := State.get_updateTo_ne _ _ _ _ _ h
theorem State.get_updateFlag_ne (s : State) (r q : Reg) (h : q.key ≠ r.key) : (s.updateFlag r).get q = s.get q := State.get_updateTo_ne _ _ _ _ _ h
theorem State.get_countBy_ne (s : State) (r q : Reg) (n : Nat) (h : q.key ≠ r.key) : (s.countBy r n).get q = s.get q := State.get_updateTo_ne _ _ _ _ _ h
theorem State.get_count_ne (s : State) (r q : Reg) (h : q.key ≠ r.key) : (s.count r).get q = s.get q := State.get_updateTo_ne _ _ _ _ _ h
theorem State.get_clearBits_ne (s : State) (r q : Reg) (m : Nat) (h : q.key ≠ r.key) : (s.clearBits r m).get q = s.get q := State.get_set_ne _ _ _ _ h

theorem State.get_raise_ne (s : State) (p : Page) (b : Nat) (q : Reg) (h : q.key ≠ (HDR.INT_RAW p).key) : (s.raise p b).get q = s.get q :=
  State.get_updateTo_ne _ _ _ _ _ h

theorem State.get_countRaise_ne (s : State) (r q : Reg) (p : Page) (b : Nat) (h : q.key ≠ r.key) (hp : q.key ≠ (HDR.INT_RAW p).key) :
    (s.countRaise r p b).get q = s.get q := by
  rw [State.countRaise, State.get_raise_ne _ _ _ _ hp, State.get_count_ne _ _ _ h]

theorem State.get_stampConfig_ne (s : State) (p : Page) (q : Reg) (h : q.key ≠ (HDR.CFG_CYCLE p).key) : (s.stampConfig p).get q = s.get q :=
  State.get_set_ne _ _ _ _ h

theorem State.get_set64_ne (s : State) (lo hi q : Reg) (v : Nat) (hlo : q.key ≠ lo.key) (hhi : q.key ≠ hi.key) : (s.set64 lo hi v).get q = s.get q := by
  rw [State.set64, State.get_set_ne _ _ _ _ hhi, State.get_set_ne _ _ _ _ hlo]

/-! The same of flags. -/

theorem State.flag_congr {s t : State} {q : Reg} (h : t.get q = s.get q) : t.flag q = s.flag q := by rw [State.flag, h, State.flag]

theorem State.flag_set_ne (s : State) (r q : Reg) (v : Nat) (h : q.key ≠ r.key) : (s.set r v).flag q = s.flag q :=
  State.flag_congr (State.get_set_ne _ _ _ _ h)
theorem State.flag_setInt_ne (s : State) (r q : Reg) (i : Int) (h : q.key ≠ r.key) : (s.setInt r i).flag q = s.flag q :=
  State.flag_congr (State.get_setInt_ne _ _ _ _ h)
theorem State.flag_update_ne (s : State) (r q : Reg) (f : Nat → Nat) (h : q.key ≠ r.key) : (s.update r f).flag q = s.flag q :=
  State.flag_congr (State.get_update_ne _ _ _ _ h)
theorem State.flag_updateFlag_ne (s : State) (r q : Reg) (h : q.key ≠ r.key) : (s.updateFlag r).flag q = s.flag q :=
  State.flag_congr (State.get_updateFlag_ne _ _ _ h)
theorem State.flag_countBy_ne (s : State) (r q : Reg) (n : Nat) (h : q.key ≠ r.key) : (s.countBy r n).flag q = s.flag q :=
  State.flag_congr (State.get_countBy_ne _ _ _ _ h)
theorem State.flag_count_ne (s : State) (r q : Reg) (h : q.key ≠ r.key) : (s.count r).flag q = s.flag q :=
  State.flag_congr (State.get_count_ne _ _ _ h)
theorem State.flag_clearBits_ne (s : State) (r q : Reg) (m : Nat) (h : q.key ≠ r.key) : (s.clearBits r m).flag q = s.flag q :=
  State.flag_congr (State.get_clearBits_ne _ _ _ _ h)
theorem State.flag_countRaise_ne (s : State) (r q : Reg) (p : Page) (b : Nat) (h : q.key ≠ r.key) (hp : q.key ≠ (HDR.INT_RAW p).key) :
    (s.countRaise r p b).flag q = s.flag q := State.flag_congr (s.get_countRaise_ne r q p b h hp)
theorem State.flag_stampConfig_ne (s : State) (p : Page) (q : Reg) (h : q.key ≠ (HDR.CFG_CYCLE p).key) : (s.stampConfig p).flag q = s.flag q :=
  State.flag_congr (s.get_stampConfig_ne p q h)
theorem State.flag_set64_ne (s : State) (lo hi q : Reg) (v : Nat) (hlo : q.key ≠ lo.key) (hhi : q.key ≠ hi.key) :
    (s.set64 lo hi v).flag q = s.flag q := State.flag_congr (s.get_set64_ne lo hi q v hlo hhi)

/-- A field written reads back where the value fits. -/
theorem State.get_set_of_lt (s : State) (r : Reg) (v : Nat) (h : v < 2 ^ r.width) : (s.set r v).get r = v := (s.get_set r v).trans (Nat.mod_eq_of_lt h)

end Sys2Proof.Machine
end

section
/-! The averaging of deviations and the clamp of a correction (R65), and the arithmetic of Xknd (R232). -/

namespace Sys2Proof.Machine

/-! The clamp. -/

theorem clampAbs_bounds {m : Int} (hm : 0 ≤ m) (i : Int) : -m ≤ clampAbs m i ∧ clampAbs m i ≤ m := by
  simp only [clampAbs]
  omega

theorem clampAbs_eq_self {m i : Int} (hlo : -m ≤ i) (hhi : i ≤ m) : clampAbs m i = i := by
  simp only [clampAbs]
  omega

theorem State.takeCorrection_correction (s : State) (o : Int) : (s.takeCorrection o).time.correction = some (clampAbs s.limit o) := by
  simp only [State.takeCorrection, State.withTime_time]
  cases decide (s.limit < o ∨ o < -s.limit) <;> rfl

/-! Sorting and discarding. -/

theorem insertDev_perm (v : Nat × Int) (l : List (Nat × Int)) : (insertDev v l).Perm (v :: l) := by
  induction l with
  | nil => exact .refl _
  | cons w t ih =>
    simp only [insertDev]
    split
    · exact .refl _
    · exact (ih.cons w).trans (.swap v w t)

theorem sortDev_perm (l : List (Nat × Int)) : (sortDev l).Perm l := by
  induction l with
  | nil => exact .refl _
  | cons v t ih => exact (insertDev_perm v (sortDev t)).trans (ih.cons v)

/-- Of one value or more something is left. -/
theorem two_mul_discarded_lt {n : Nat} (hn : 0 < n) : 2 * discarded n < n := by
  unfold discarded
  split_ifs <;> omega

theorem keptOf_length (l : List (Nat × Int)) : (keptOf l).length = l.length - 2 * discarded l.length := by
  simp only [keptOf, List.length_take, List.length_drop]
  omega

theorem keptOf_ne_nil {l : List (Nat × Int)} (hl : l ≠ []) : keptOf l ≠ [] := by
  have hleft := two_mul_discarded_lt (List.length_pos_iff.2 hl)
  rw [← List.length_pos_iff, keptOf_length]
  omega

theorem mem_of_mem_keptOf {l : List (Nat × Int)} {v : Nat × Int} (h : v ∈ keptOf l) : v ∈ l := List.mem_of_mem_drop (List.mem_of_mem_take h)

/-! The mean, rounded towards zero. -/

theorem tdiv_le_of_le_mul {a b n : Int} (hn : 0 < n) (h : a ≤ b * n) : a.tdiv n ≤ b := by
  rcases le_total 0 a with ha | ha
  · rw [Int.tdiv_eq_ediv_of_nonneg ha]
    exact Int.ediv_le_of_le_mul hn h
  · have hneg : a.tdiv n = -((-a) / n) := by
      rw [← Int.tdiv_eq_ediv_of_nonneg (by omega), Int.neg_tdiv, neg_neg]
    have hquot : -b ≤ (-a) / n := (Int.le_ediv_iff_mul_le hn).2 (by rw [neg_mul]; omega)
    omega

theorem le_tdiv_of_mul_le {a b n : Int} (hn : 0 < n) (h : b * n ≤ a) : b ≤ a.tdiv n := by
  have hneg := tdiv_le_of_le_mul (a := -a) (b := -b) hn (by rw [neg_mul]; omega)
  rw [Int.neg_tdiv] at hneg
  omega

theorem sum_snd_bounds {lo hi : Int} {l : List (Nat × Int)} (h : ∀ v ∈ l, lo ≤ v.2 ∧ v.2 ≤ hi) :
    lo * l.length ≤ (l.map Prod.snd).sum ∧ (l.map Prod.snd).sum ≤ hi * l.length := by
  induction l with
  | nil => simp
  | cons v t ih =>
    obtain ⟨hv, ht⟩ := List.forall_mem_cons.1 h
    obtain ⟨hlo, hhi⟩ := ih ht
    simp only [List.map_cons, List.sum_cons, List.length_cons, Nat.cast_add, Nat.cast_one, mul_add, mul_one]
    omega

theorem meanOf_bounds {lo hi : Int} {l : List (Nat × Int)} (hl : l ≠ []) (h : ∀ v ∈ l, lo ≤ v.2 ∧ v.2 ≤ hi) : lo ≤ meanOf l ∧ meanOf l ≤ hi := by
  have hlen : (0 : Int) < l.length := by exact_mod_cast List.length_pos_iff.2 hl
  obtain ⟨hlo, hhi⟩ := sum_snd_bounds h
  rw [meanOf, if_neg (by simpa using hl)]
  exact ⟨le_tdiv_of_mul_le hlen hlo, tdiv_le_of_le_mul hlen hhi⟩

/-! Fields of a word. -/

/-- The field of `w` bits at `off`. -/
theorem testBit_field (x off w i : Nat) : (x / 2 ^ off % 2 ^ w).testBit i = (decide (i < w) && x.testBit (off + i)) := by
  rw [Nat.testBit_mod_two_pow, Nat.testBit_div_two_pow, Nat.add_comm]

/-- A field read as a signed number is the two's complement reading of its bits. -/
theorem signedOf_eq_toInt {w v : Nat} (hw : 1 ≤ w) (hv : v < 2 ^ w) : signedOf w v = (BitVec.ofNat w v).toInt := by
  have hhalf : 2 ^ w = 2 * 2 ^ (w - 1) := by
    rw [← Nat.pow_succ', Nat.succ_eq_add_one, Nat.sub_add_cancel hw]
  rw [BitVec.toInt_eq_toNat_cond, BitVec.toNat_ofNat, Nat.mod_eq_of_lt hv, signedOf]
  by_cases h : v < 2 ^ (w - 1)
  · rw [if_pos h, if_pos (by omega)]
  · rw [if_neg h, if_neg (by omega)]
    norm_cast

theorem bfxOf_unsigned (x : Word) (off w i : Nat) (hi : i < 32) :
    (bfxOf x off w false).getLsbD i = (decide (i < w) && x.getLsbD (off + i)) := by
  simp only [bfxOf, Bool.false_eq_true, if_false, BitVec.getLsbD_ofNat, hi, decide_true, Bool.true_and, testBit_field]
  rfl

theorem bfxOf_signed (x : Word) (off w i : Nat) (hi : i < 32) (hw : 1 ≤ w) :
    (bfxOf x off w true).getLsbD i = if i < w then x.getLsbD (off + i) else x.getLsbD (off + w - 1) := by
  have hbit : ∀ j, (BitVec.ofNat w (x.toNat / 2 ^ off % 2 ^ w)).getLsbD j = (decide (j < w) && x.getLsbD (off + j)) := by
    intro j
    rw [BitVec.getLsbD_ofNat, testBit_field, ← Bool.and_assoc, Bool.and_self]
    rfl
  have hext : bfxOf x off w true = (BitVec.ofNat w (x.toNat / 2 ^ off % 2 ^ w)).signExtend 32 := by
    simp only [bfxOf, if_true, BitVec.signExtend, signedOf_eq_toInt hw (Nat.mod_lt _ (Nat.two_pow_pos w))]
  rw [hext, BitVec.getLsbD_signExtend, BitVec.msb_eq_getLsbD_last, hbit, hbit]
  simp only [hi, decide_true, Bool.true_and]
  split
  · simp [*]
  · rw [decide_eq_true (by omega), Bool.true_and, ← Nat.add_sub_assoc hw]

theorem bfiOf_bit (old x : Word) (off w i : Nat) (hi : i < 32) :
    (bfiOf old x off w).getLsbD i = if off ≤ i ∧ i < off + w then x.getLsbD (i - off) else old.getLsbD i := by
  have hmask : (BitVec.ofNat 32 ((2 ^ w - 1) * 2 ^ off)).getLsbD i = decide (off ≤ i ∧ i < off + w) := by
    rw [BitVec.getLsbD_ofNat, Nat.testBit_mul_two_pow, Nat.testBit_two_pow_sub_one]
    by_cases h : off ≤ i <;> simp [hi, h]; omega
  have hfield : (BitVec.ofNat 32 (x.toNat % 2 ^ w * 2 ^ off)).getLsbD i = (decide (off ≤ i ∧ i < off + w) && x.getLsbD (i - off)) := by
    rw [BitVec.getLsbD_ofNat, Nat.testBit_mul_two_pow, Nat.testBit_mod_two_pow]
    by_cases h : off ≤ i
    · have hin : (i - off < w) = (i < off + w) := by rw [eq_iff_iff]; omega
      simp [hi, h, hin]
      rfl
    · simp [h]
  simp only [bfiOf, BitVec.getLsbD_or, BitVec.getLsbD_and, BitVec.getLsbD_not, hmask, hfield, hi, decide_true, Bool.true_and]
  by_cases h : off ≤ i ∧ i < off + w <;> simp [h]

/-! Scaling and byte order. -/

theorem ssclOf_int16 (x y : Word) (sh : Nat) : -32768 ≤ (ssclOf x y 1 sh).toInt ∧ (ssclOf x y 1 sh).toInt ≤ 32767 := by
  simp only [ssclOf, BitVec.toInt_ofInt, Int.bmod_def]
  omega

theorem ssclOf_uint16 (x y : Word) (sh : Nat) : (ssclOf x y 2 sh).toNat ≤ 65535 := by
  simp only [ssclOf, BitVec.toNat_ofInt]
  omega

theorem byteOf_bswapOf_zero (x : Word) (i : Nat) (hi : i < 4) : byteOf (bswapOf x 0) i = byteOf x (3 - i) := by
  have hbyte : ∀ j, byteOf x j < 256 := fun j => Nat.mod_lt _ (by decide)
  have h0 := hbyte 0
  have h1 := hbyte 1
  have h2 := hbyte 2
  have h3 := hbyte 3
  rw [byteOf, bswapOf, BitVec.toNat_ofNat]
  interval_cases i <;> simp only [Nat.reducePow, Nat.reduceSub] <;> omega

end Sys2Proof.Machine

namespace Sys2Proof.Proofs
open Sys2Proof.Machine

/-- Settles O11: the clamp's bounds, the lengths of what is kept, and the mean's bounds. -/
theorem offsetCorrectionAveragesAndClamps : Obligations.OffsetCorrectionAveragesAndClamps := by
  refine ⟨fun s o => ?clamp, fun l => ⟨?length, fun hl => ?left, fun v hv => ?member, fun lo hi hl h => meanOf_bounds hl h⟩⟩
  case clamp =>
    obtain ⟨hlo, hhi⟩ := clampAbs_bounds (m := s.limit) (by simp [State.limit]) o
    exact ⟨_, s.takeCorrection_correction o, hlo, hhi, clampAbs_eq_self⟩
  case length => rw [keptOf_length, (sortDev_perm l).length_eq]
  case left => exact keptOf_ne_nil fun h => hl (List.nil_perm.1 (h ▸ (sortDev_perm l)))
  case member => exact (sortDev_perm l).mem_iff.1 (mem_of_mem_keptOf hv)

/-- Settles O34: each instruction's result read bit by bit, by its range or by its bytes. -/
theorem xkndArithmetic : Obligations.XkndArithmetic :=
  ⟨fun x off w i hi _ hw _ => ⟨bfxOf_unsigned x off w i hi, bfxOf_signed x off w i hi hw⟩, fun old x off w i hi => bfiOf_bit old x off w i hi,
    fun x y sh => ⟨(ssclOf_int16 x y sh).1, (ssclOf_int16 x y sh).2, ssclOf_uint16 x y sh⟩, byteOf_bswapOf_zero⟩

end Sys2Proof.Proofs
end

section
/-! A tray's frames at the port (R123, R156), and the bytes of a draft (R180, R181). -/

namespace Sys2Proof.Machine

/-! What a line that sends changes. -/

/-- `t` is `s` once `n` frames were handed to a port of line `l`, in order, where the line may send: memory and the isolated cells stay, and of the
fields only the guardian's count of blocked frames may change. -/
structure State.SendsFrames (l : Line) (n : Nat) (s t : State) : Prop where
  sent : s.mayTransmit (.gtb l) = true → ∃ out, t.sent = s.sent ++ out ∧ out.length = n
  silent : s.mayTransmit (.gtb l) = false → t.sent = s.sent
  mem : t.mem = s.mem
  health : t.health = s.health
  get : ∀ r : Reg, r.key ≠ (GTB.GRD_BLOCK_CNT l).key → t.get r = s.get r

/-- Whether a line may send is decided by other fields than that count. -/
theorem State.SendsFrames.mayTransmit_eq {l : Line} {n : Nat} {s t : State} (h : s.SendsFrames l n t) :
    t.mayTransmit (.gtb l) = s.mayTransmit (.gtb l) := by
  have hpower := h.get PWR.PD_STAT_ON (by cases l <;> decide)
  have henable := h.get (HDR.PAGE_CTRL_ENABLE (.gtb l)) (by cases l <;> decide)
  have hquarA := h.get CHIP.CH_MODE_QUAR_A (by cases l <;> decide)
  have hquarB := h.get CHIP.CH_MODE_QUAR_B (by cases l <;> decide)
  have hsilent := h.get CHIP.CHIP_STAT_FAIL_SILENT (by cases l <;> decide)
  cases l <;> simp only [State.mayTransmit, State.live, State.powered, State.flag, State.pageQuarantined, State.quarantined, State.blockDead,
    State.failSilent, hpower, henable, hquarA, hquarB, hsilent]

theorem State.SendsFrames.refl (l : Line) (s : State) : s.SendsFrames l 0 s := ⟨fun _ => ⟨[], by simp⟩, fun _ => rfl, rfl, rfl, fun _ _ => rfl⟩

theorem State.SendsFrames.trans {l : Line} {m n : Nat} {s t u : State} (h : s.SendsFrames l m t) (k : t.SendsFrames l n u) :
    s.SendsFrames l (m + n) u where
  sent hs := by
    obtain ⟨first, hfirst, hm⟩ := h.sent hs
    obtain ⟨more, hmore, hn⟩ := k.sent (h.mayTransmit_eq.trans hs)
    exact ⟨first ++ more, by rw [hmore, hfirst, List.append_assoc], by rw [List.length_append, hm, hn]⟩
  silent hs := (k.silent (h.mayTransmit_eq.trans hs)).trans (h.silent hs)
  mem := k.mem.trans h.mem
  health := k.health.trans h.health
  get r hr := (k.get r hr).trans (h.get r hr)

/-- A port takes one frame, or none where the line may not send (R156, R157). -/
theorem State.originate_sends (s : State) (l : Line) (p : BackbonePort) (len : Nat) (inWindow : Bool) (mk : Bool → Sent) :
    s.SendsFrames l 1 (s.originate l p len inWindow mk) := by
  cases hline : s.mayTransmit (.gtb l)
  case false =>
    rw [show s.originate l p len inWindow mk = s by simp [State.originate, hline]]
    exact ⟨fun h => absurd h (by simp [hline]), fun _ => rfl, rfl, rfl, fun _ _ => rfl⟩
  case true =>
    simp only [State.originate, hline, Bool.not_true, Bool.false_eq_true, if_false]
    cases inWindow && !s.flag (GTB.TRAY_STAT_GRD_CLOSED l)
    case false => exact ⟨fun _ => ⟨[mk false], rfl, rfl⟩, fun h => absurd h (by simp [hline]), rfl, rfl, fun r hr => State.get_updateTo_ne s _ r _ _ hr⟩
    case true => exact ⟨fun _ => ⟨[mk true], rfl, rfl⟩, fun h => absurd h (by simp [hline]), rfl, rfl, fun _ _ => rfl⟩

/-- A fold that hands one frame to a port at each of its elements. -/
theorem State.SendsFrames.foldl {l : Line} {f : State × Int → Nat → State × Int} (hf : ∀ (acc : State × Int) (k : Nat), acc.1.SendsFrames l 1 (f acc k).1) (ks : List Nat)
    (acc : State × Int) : acc.1.SendsFrames l ks.length (ks.foldl f acc).1 := by
  induction ks generalizing acc with
  | nil => exact .refl l acc.1
  | cons k ks ih =>
    rw [List.length_cons, Nat.add_comm]
    exact (hf acc k).trans (ih (f acc k))

theorem State.sendFrames_sends (s : State) (l : Line) (p : BackbonePort) (y : Layout) (a : Instant) (reverse : Bool) :
    s.SendsFrames l y.frames (s.sendFrames l p y a reverse) := by
  have hfold := State.SendsFrames.foldl (l := l) (f := fun (acc : State × Int) k =>
    (acc.1.originate l p ((acc.2 - acc.1.afterTick a).toNat + wireNs (s.portCode p) (frameSize y k))
      (acc.1.trayWindow acc.2 (wireNs (s.portCode p) (frameSize y k))) fun good =>
        .dataFrame p ⟨acc.1.dataHeader l y a k reverse, if k = 0 then (if reverse then revLoopField (s.lineOf l).revLoop
          else if s.posOn l = 0 then 0 else BitVec.ofNat 64 (2 ^ s.posOn l)) else 0, acc.1.originSlices l y k (!reverse)⟩ good,
      acc.2 + wireNs (s.portCode p) (frameSize y k + 20)))
    (fun acc k => acc.1.originate_sends l p _ _ _) (List.range y.frames) (s, s.afterTick a)
  rw [List.length_range] at hfold
  exact hfold

/-! The bytes of a draft. -/

theorem State.withDraft_byte (s : State) (c : Line) (d : Nat) (f : Draft → Draft) (x : Nat) : (s.withDraft c d f).byte x = s.byte x :=
  State.withLoaf_byte _ _ _ _

theorem State.withDraft_mem (s : State) (c : Line) (d : Nat) (f : Draft → Draft) : (s.withDraft c d f).mem = s.mem := State.withLoaf_mem _ _ _

theorem State.withDraft_regs (s : State) (c : Line) (d : Nat) (f : Draft → Draft) : (s.withDraft c d f).regs = s.regs := State.withLoaf_regs _ _ _

theorem draftChannels_nodup (c : Line) (d : Nat) : (draftChannels c d).Nodup := by
  unfold draftChannels
  split
  · decide
  · exact List.nodup_singleton c

/-- The drafts of the two channels lie apart. -/
theorem draftAddr_ne {j k : Line} (h : j ≠ k) (d : Nat) : draftAddr j d ≠ draftAddr k d := by
  cases j <;> cases k
  case A.A | B.B => exact absurd rfl h
  case A.B | B.A => simp [draftAddr, doughAddr, lineBit]

/-- A draft byte taken by one channel: its byte of memory, and its bit of the enable mask. -/
def State.takeDraftByte (d a : Nat) (v : Byte) (k : Line) (s : State) : State :=
  (s.setByte (draftAddr k d + a) v).withDraft k d fun x => { x with enabled := insertNat a x.enabled }

theorem State.takeDraftByte_regs (d a : Nat) (v : Byte) (k : Line) (s : State) : (s.takeDraftByte d a v k).regs = s.regs := by
  rw [State.takeDraftByte, State.withDraft_regs, State.setByte_regs]

theorem State.takeDraftByte_byte (d a : Nat) (v : Byte) (k : Line) (s : State) (x : Nat) :
    (s.takeDraftByte d a v k).byte x = (s.setByte (draftAddr k d + a) v).byte x := by
  rw [State.takeDraftByte, State.withDraft_byte]

section
variable (s : State) (c : Line) (d a : Nat) (v : Byte) (hopen : (s.draft c d).state = .opened)
include hopen

theorem State.writeDraft_inside (ha : a < 1928) : s.writeDraft c d [(a, v)] = s.each (draftChannels c d) (State.takeDraftByte d a v) := by
  simp only [State.writeDraft, hopen, List.filter_cons, ha, decide_true, if_true, List.filter_nil]
  rfl

theorem State.writeDraft_beyond (ha : 1928 ≤ a) : s.writeDraft c d [(a, v)] = s.each (draftChannels c d) fun k t => t.withDraft k d id := by
  simp only [State.writeDraft, hopen, List.filter_cons, Nat.not_lt.2 ha, decide_false, Bool.false_eq_true, if_false, List.filter_nil]
  rfl

theorem State.writeDraft_regs : (s.writeDraft c d [(a, v)]).regs = s.regs := by
  rcases Nat.lt_or_ge a 1928 with ha | ha
  · rw [s.writeDraft_inside c d a v hopen ha]
    exact State.each_observe State.regs (fun k _ t => State.takeDraftByte_regs d a v k t) s
  · rw [s.writeDraft_beyond c d a v hopen ha]
    exact State.each_observe State.regs (fun k _ t => State.withDraft_regs _ k d _) s

theorem State.writeDraft_byte (ha : a < 1928) {k : Line} (hk : k ∈ draftChannels c d) : (s.writeDraft c d [(a, v)]).byte (draftAddr k d + a) = v := by
  rw [s.writeDraft_inside c d a v hopen ha]
  refine State.each_observe_at (·.byte (draftAddr k d + a)) (fun _ => v) hk (draftChannels_nodup c d) (fun t => ?here) (fun j _ hj t => ?other) s
  case here => rw [State.takeDraftByte_byte, State.byte_setByte]
  case other =>
    have haddr := draftAddr_ne hj d
    rw [State.takeDraftByte_byte, State.byte_setByte_ne _ _ _ _ (by omega)]

theorem State.writeDraft_byte_ne (ha : a < 1928) {x : Nat} (hx : ∀ k ∈ draftChannels c d, x ≠ draftAddr k d + a) :
    (s.writeDraft c d [(a, v)]).byte x = s.byte x := by
  rw [s.writeDraft_inside c d a v hopen ha]
  refine State.each_observe (·.byte x) (fun k hk t => ?_) s
  rw [State.takeDraftByte_byte, State.byte_setByte_ne _ _ _ _ (hx k hk)]

theorem State.writeDraft_beyond_mem (ha : 1928 ≤ a) : (s.writeDraft c d [(a, v)]).mem = s.mem := by
  rw [s.writeDraft_beyond c d a v hopen ha]
  exact State.each_observe State.mem (fun k _ t => t.withDraft_mem k d id) s

end

end Sys2Proof.Machine

namespace Sys2Proof.Proofs
open Sys2Proof.Machine

/-- Settles O24: a fold over the frames of the layout, each handed to the port by `State.originate_sends`. -/
theorem traysLeaveAsTheFramesOfTheLayout : Obligations.TraysLeaveAsTheFramesOfTheLayout := by
  intro s l p y a reverse
  have h := s.sendFrames_sends l p y a reverse
  exact ⟨h.sent, h.silent, h.mem, h.get⟩

/-- Settles O31: each channel of the draft takes the byte at its own place. -/
theorem draftDataIsStoredWhereItBelongs : Obligations.DraftDataIsStoredWhereItBelongs := fun s c d a v hopen _ =>
  ⟨fun ha => ⟨fun _ hk => s.writeDraft_byte c d a v hopen ha hk, fun _ hx => s.writeDraft_byte_ne c d a v hopen ha hx⟩,
    s.writeDraft_beyond_mem c d a v hopen, s.writeDraft_regs c d a v hopen⟩

end Sys2Proof.Proofs
end

section
/-! Frames: what the commands that act on registers alone leave (R7, R456, R461), and what an engine's own instructions leave (R256). -/

namespace Sys2Proof.Machine

/-! Registers, and the notes of this clock about them. -/

/-- All of a state besides registers and this clock's notes about them. -/
def State.besidesRegs (s : State) : State := { s with regs := [], updates := [], thisClock := ⟨[], [], none⟩ }

theorem State.eq_of_besidesRegs {s t : State} (h : t.besidesRegs = s.besidesRegs) :
    t = { s with regs := t.regs, updates := t.updates, thisClock := t.thisClock } :=
  congrArg (fun u : State => { u with regs := t.regs, updates := t.updates, thisClock := t.thisClock }) h

@[simp] theorem State.set_besidesRegs (s : State) (r : Reg) (v : Nat) : (s.set r v).besidesRegs = s.besidesRegs := rfl
@[simp] theorem State.setFlag_besidesRegs (s : State) (r : Reg) (b : Bool) : (s.setFlag r b).besidesRegs = s.besidesRegs := rfl
@[simp] theorem State.updateTo_besidesRegs (s : State) (r : Reg) (v k : Nat) : (s.updateTo r v k).besidesRegs = s.besidesRegs := rfl
@[simp] theorem State.update_besidesRegs (s : State) (r : Reg) (f : Nat → Nat) : (s.update r f).besidesRegs = s.besidesRegs := rfl
@[simp] theorem State.raise_besidesRegs (s : State) (p : Page) (b : Nat) : (s.raise p b).besidesRegs = s.besidesRegs := rfl
@[simp] theorem State.raiseMac_besidesRegs (s : State) (q j : Nat) : (s.raiseMac q j).besidesRegs = s.besidesRegs := rfl
@[simp] theorem State.count_besidesRegs (s : State) (r : Reg) : (s.count r).besidesRegs = s.besidesRegs := rfl
@[simp] theorem State.countRaise_besidesRegs (s : State) (r : Reg) (p : Page) (b : Nat) : (s.countRaise r p b).besidesRegs = s.besidesRegs := rfl
@[simp] theorem State.clearBits_besidesRegs (s : State) (r : Reg) (m : Nat) : (s.clearBits r m).besidesRegs = s.besidesRegs := rfl
@[simp] theorem State.stampConfig_besidesRegs (s : State) (p : Page) : (s.stampConfig p).besidesRegs = s.besidesRegs := rfl
@[simp] theorem State.thisClock_besidesRegs (s : State) (k : ThisClock) : ({ s with thisClock := k } : State).besidesRegs = s.besidesRegs := rfl

/-- What neither branch changes stays. -/
theorem State.when_observe {β : Type} (obs : State → β) {f : State → State} (hf : ∀ t, obs (f t) = obs t) (c : Bool) (s : State) :
    obs (s.when c f) = obs s := by
  cases c
  · rfl
  · exact hf s

theorem State.ite_observe {β : Type} (obs : State → β) {c : Prop} [Decidable c] {s t u : State} (ht : obs t = obs s) (hu : obs u = obs s) :
    obs (if c then t else u) = obs s := by
  split <;> assumption

@[simp] theorem State.noteError_besidesRegs (s : State) (p : Page) (gives : Nat → Nat → Bool) (entry : List Nat) :
    (s.noteError p gives entry).besidesRegs = s.besidesRegs := by
  simp only [State.noteError]
  refine State.ite_observe State.besidesRegs ?_ rfl
  exact State.each_observe State.besidesRegs (fun _ _ t => t.updateTo_besidesRegs _ _ _) s

@[simp] theorem State.refuse_besidesRegs (s : State) (p : Page) : (s.refuse p).besidesRegs = s.besidesRegs := s.noteError_besidesRegs p _ _

@[simp] theorem State.setLock_besidesRegs (s : State) (p : Page) : (s.setLock p).besidesRegs = s.besidesRegs := by
  simp only [State.setLock, State.refuseIf, State.setFlag_besidesRegs]
  rw [State.ite_observe State.besidesRegs (State.refuse_besidesRegs _ _) rfl, State.each_observe State.besidesRegs (fun _ _ t => t.set_besidesRegs _ _),
    State.thisClock_besidesRegs]

theorem State.writeLockKey_besidesRegs (s : State) (p : Page) (v : Nat) : (s.writeLockKey p v).besidesRegs = s.besidesRegs := by
  refine State.ite_observe State.besidesRegs rfl (State.ite_observe State.besidesRegs ?_ (s.refuse_besidesRegs p))
  exact State.when_observe State.besidesRegs (fun t => t.thisClock_besidesRegs _) _ s

theorem State.pinEdges_besidesRegs (s before : State) : (s.pinEdges before).besidesRegs = s.besidesRegs := by
  refine State.when_observe State.besidesRegs (fun t => ?_) _ s
  exact State.when_observe State.besidesRegs (fun u => u.raise_besidesRegs _ _) _ _

theorem State.driveOut_besidesRegs (s : State) (f : OutClock → OutClock) : (s.driveOut f).besidesRegs = s.besidesRegs := by
  refine (State.pinEdges_besidesRegs _ s).trans ?_
  exact State.when_observe State.besidesRegs (fun t => t.stampConfig_besidesRegs _) _ _

theorem State.clearFaultLatch_besidesRegs (s : State) : s.clearFaultLatch.besidesRegs = s.besidesRegs := by
  refine State.ite_observe State.besidesRegs rfl ?_
  exact (State.each_observe State.besidesRegs (fun _ _ t => t.set_besidesRegs _ _) _)

theorem State.writeChMode_besidesRegs (s : State) (on : Bool) : (s.writeChMode on).besidesRegs = s.besidesRegs :=
  State.ite_observe State.besidesRegs (s.refuse_besidesRegs _) (State.ite_observe State.besidesRegs rfl
    (State.ite_observe State.besidesRegs (s.refuse_besidesRegs _) rfl))

theorem State.clearLog_besidesRegs (s : State) (p : Page) : (s.clearLog p).besidesRegs = s.besidesRegs :=
  State.each_observe State.besidesRegs (fun _ _ t => State.each_observe State.besidesRegs (fun _ _ u => u.set_besidesRegs _ 0) t) _

theorem State.setErrorCounts_besidesRegs (s : State) (c tec rec : Nat) : (s.setErrorCounts c tec rec).besidesRegs = s.besidesRegs := by
  have hstate : ∀ (t : State) (st : Nat), (t.setCanState c st).besidesRegs = t.besidesRegs := fun t st => t.set_besidesRegs _ _
  simp only [State.setErrorCounts]
  refine (State.ite_observe State.besidesRegs ?off rfl).trans ((State.ite_observe State.besidesRegs ?passive
    (State.ite_observe State.besidesRegs (hstate _ _) rfl)).trans (State.when_observe State.besidesRegs (fun t => t.raise_besidesRegs _ _) _ _))
  case off => exact State.when_observe State.besidesRegs (fun t => hstate t _) _ _
  case passive => rfl

theorem State.showPin_besidesRegs (s : State) (c : Line) : (s.showPin c).besidesRegs = s.besidesRegs := State.ite_observe State.besidesRegs rfl rfl

theorem State.unpin_besidesRegs (s : State) (c : Line) : (s.unpin c).besidesRegs = s.besidesRegs := State.showPin_besidesRegs _ c

theorem State.pin_besidesRegs (s : State) (c : Line) (valid bank : Reg) : (s.pin c valid bank).besidesRegs = s.besidesRegs :=
  State.ite_observe State.besidesRegs (State.showPin_besidesRegs _ c) (s.unpin_besidesRegs c)

theorem State.lockAll_besidesRegs (s : State) : s.lockAll.besidesRegs = s.besidesRegs :=
  State.each_observe State.besidesRegs (fun p _ t => t.setLock_besidesRegs p) s

/-- What a command leaves that acts on registers alone, as its statement writes it. -/
def RegisterFrame (i : Instr) (s t : State) : Prop :=
  t = { s with
    regs := t.regs, updates := t.updates, thisClock := t.thisClock
    bridges := if i = .drFetchDone then { s.bridges with slotSince := t.bridges.slotSince } else s.bridges
    power := if i = .boRecover then { s.power with boSince := t.power.boSince, boSpent := t.power.boSpent } else s.power }

/-- A command that leaves all besides registers. -/
theorem registerFrame_of_besidesRegs {i : Instr} {s t u : State} (hfetch : i ≠ .drFetchDone) (hrecover : i ≠ .boRecover) (hu : exec i s = .next u)
    (hframe : u.besidesRegs = s.besidesRegs) (h : exec i s = .next t) : RegisterFrame i s t := by
  rw [hu] at h
  cases h
  rw [RegisterFrame, if_neg hfetch, if_neg hrecover]
  exact State.eq_of_besidesRegs hframe

theorem registerFrame_drFetchDone {s t : State} (h : exec .drFetchDone s = .next t) : RegisterFrame .drFetchDone s t := by
  change execDrFetchDone s = _ at h
  unfold execDrFetchDone at h
  split at h <;> cases h <;> rfl

theorem registerFrame_boRecover {s t : State} (h : exec .boRecover s = .next t) : RegisterFrame .boRecover s t := by
  change execBoRecover s = _ at h
  unfold execBoRecover at h
  split at h <;> cases h <;> rfl

/-! The roles, and the registers that show them. -/

/-- All of a state besides the roles of its engines, registers and the note of which of them this clock updated. -/
def State.besidesRoles (s : State) : State := { s with regs := [], updates := [], rolesA := [], rolesB := [] }

theorem State.eq_of_besidesRoles {s t : State} (h : t.besidesRoles = s.besidesRoles) :
    t = { s with regs := t.regs, updates := t.updates, rolesA := t.rolesA, rolesB := t.rolesB } :=
  congrArg (fun u : State => { u with regs := t.regs, updates := t.updates, rolesA := t.rolesA, rolesB := t.rolesB }) h

theorem State.showRole_besidesRoles (s : State) (c : Line) (r : Nat) : (s.showRole c r).besidesRoles = s.besidesRoles := by
  unfold State.showRole
  split <;> rfl

@[simp] theorem State.withRole_besidesRoles (s : State) (c : Line) (r : Nat) (f : Role → Role) : (s.withRole c r f).besidesRoles = s.besidesRoles :=
  State.each_observe State.besidesRoles (fun k _ t => (State.showRole_besidesRoles _ k r).trans (by cases k <;> rfl)) s

theorem State.atEngine_besidesRoles (s : State) (c : Line) (r : Nat) {f : Line → Nat → State → State}
    (hf : ∀ k i t, (f k i t).besidesRoles = t.besidesRoles) : (s.atEngine c r f).besidesRoles = s.besidesRoles := by
  refine State.each_observe State.besidesRoles (fun k _ t => ?_) s
  split
  · exact hf k _ t
  · rfl

theorem State.countRole_besidesRoles (s : State) (c : Line) (r : Nat) (q : Line → Nat → Reg) (b : Nat) :
    (s.countRole c r q b).besidesRoles = s.besidesRoles := s.atEngine_besidesRoles c r fun _ _ _ => rfl

theorem State.clearField_besidesRoles (s : State) (q : Reg) : (s.clearField q).besidesRoles = s.besidesRoles := by
  unfold State.clearField
  split <;> rfl

theorem State.ringOut_besidesRoles (s : State) (c : Line) (r : Nat) : (s.ringOut c r).besidesRoles = s.besidesRoles :=
  s.atEngine_besidesRoles c r fun _ _ _ => rfl

theorem State.ackIn_besidesRoles (s : State) (c : Line) (r : Nat) : (s.ackIn c r).besidesRoles = s.besidesRoles :=
  s.atEngine_besidesRoles c r fun _ _ t => t.clearField_besidesRoles _

theorem State.queueStore_besidesRoles (s : State) (c : Line) (r : Nat) (addr : Word) (data : List Byte) :
    (s.queueStore c r addr data).besidesRoles = s.besidesRoles := by
  unfold State.queueStore
  refine State.ite_observe State.besidesRoles rfl (State.ite_observe State.besidesRoles ?_ (s.withRole_besidesRoles c r _))
  exact (State.countRole_besidesRoles _ c r _ _).trans (s.withRole_besidesRoles c r _)

theorem State.pushEvent_besidesRoles (s : State) (c : Line) (r type arg : Nat) : (s.pushEvent c r type arg).besidesRoles = s.besidesRoles :=
  State.ite_observe State.besidesRoles rfl (State.ite_observe State.besidesRoles (s.withRole_besidesRoles c r _)
    (State.ite_observe State.besidesRoles (s.withRole_besidesRoles c r _) (s.countRole_besidesRoles c r _ _)))

theorem State.accessFault_besidesRoles (s : State) (c : Line) (r cause : Nat) (addr : Word) : (s.accessFault c r cause addr).besidesRoles = s.besidesRoles :=
  (State.withRole_besidesRoles _ c r _).trans (s.countRole_besidesRoles c r _ _)

theorem State.ldp_besidesRoles (s : State) (c : Line) (r rd rs1 : Nat) (imm : Int) : (s.ldp c r rd rs1 imm).besidesRoles = s.besidesRoles := by
  simp only [State.ldp]
  refine State.ite_observe State.besidesRoles (s.withRole_besidesRoles c r _) (State.ite_observe State.besidesRoles (s.accessFault_besidesRoles c r _ _) ?_)
  have hread : ∀ t : State, (t.each (t.pairOf c) fun k u => u.count (LOAF.PROV_READ_CNT k)).besidesRoles = t.besidesRoles := fun t =>
    State.each_observe State.besidesRoles (fun k _ u => show (u.count (LOAF.PROV_READ_CNT k)).besidesRoles = u.besidesRoles from rfl) t
  split
  · exact (State.when_observe State.besidesRoles (fun t => t.withRole_besidesRoles c r _) _ _).trans
      ((State.when_observe State.besidesRoles hread _ _).trans (s.withRole_besidesRoles c r _))
  · exact (State.when_observe State.besidesRoles hread _ _).trans (s.withRole_besidesRoles c r _)

theorem State.wftReturns_besidesRoles (s : State) (c : Line) (r mask rd : Nat) : (s.wftReturns c r mask rd).besidesRoles = s.besidesRoles :=
  (State.when_observe State.besidesRoles (fun t => t.withRole_besidesRoles c r _) _ _).trans (s.withRole_besidesRoles c r _)

theorem State.wft_besidesRoles (s : State) (c : Line) (r rd rs1 : Nat) : (s.wft c r rd rs1).besidesRoles = s.besidesRoles :=
  (State.ite_observe State.besidesRoles (State.wftReturns_besidesRoles _ c r _ rd) (State.withRole_besidesRoles _ c r _)).trans
    (State.when_observe State.besidesRoles (fun t => t.withRole_besidesRoles c r _) _ _)

theorem State.ebreak_besidesRoles (s : State) (c : Line) (r : Nat) : (s.ebreak c r).besidesRoles = s.besidesRoles :=
  (State.withRole_besidesRoles _ c r _).trans (s.atEngine_besidesRoles c r fun _ _ _ => rfl)

theorem State.popEvent_besidesRoles (s : State) (c : Line) (r : Nat) : (s.popEvent c r).2.besidesRoles = s.besidesRoles := by
  unfold State.popEvent
  split
  · rfl
  · exact s.withRole_besidesRoles c r _

theorem State.hostMbox_besidesRoles (s : State) (c : Line) (i : Nat) {f : Nat → State → State} (hf : ∀ r t, (f r t).besidesRoles = t.besidesRoles) :
    (s.hostMbox c i f).besidesRoles = s.besidesRoles := by
  refine State.ite_observe State.besidesRoles rfl ?_
  split
  · exact hf _ s
  · rfl

theorem State.inDb_besidesRoles (s : State) (c : Line) (i : Nat) : (s.inDb c i).besidesRoles = s.besidesRoles :=
  s.hostMbox_besidesRoles c i fun r t => (State.pushEvent_besidesRoles _ c r _ _).trans (t.atEngine_besidesRoles c r fun _ _ _ => rfl)

theorem State.outAck_besidesRoles (s : State) (c : Line) (i : Nat) : (s.outAck c i).besidesRoles = s.besidesRoles :=
  s.hostMbox_besidesRoles c i fun r t => (State.pushEvent_besidesRoles _ c r _ _).trans (t.atEngine_besidesRoles c r fun _ _ u => u.clearField_besidesRoles _)

theorem State.mboxOutDb_besidesRoles (s : State) (c : Line) (r : Nat) : (s.mboxOutDb c r).besidesRoles = s.besidesRoles :=
  State.ite_observe State.besidesRoles (s.queueStore_besidesRoles c r _ _) (s.ringOut_besidesRoles c r)

theorem State.mboxInAck_besidesRoles (s : State) (c : Line) (r : Nat) : (s.mboxInAck c r).besidesRoles = s.besidesRoles :=
  State.ite_observe State.besidesRoles (s.queueStore_besidesRoles c r _ _) (s.ackIn_besidesRoles c r)

theorem State.dmaGo_besidesRoles (s : State) (c : Line) (r d : Nat) : (s.dmaGo c r d).besidesRoles = s.besidesRoles :=
  State.ite_observe State.besidesRoles rfl (s.withRole_besidesRoles c r _)

/-- An instruction that leaves all besides its role, as its statement writes it. -/
theorem rolesFrame_of_besidesRoles {x : Instr} {s t u : State} (hu : exec x s = .next u) (hframe : u.besidesRoles = s.besidesRoles)
    (h : exec x s = .next t) : t = { s with regs := t.regs, updates := t.updates, rolesA := t.rolesA, rolesB := t.rolesB } := by
  rw [hu] at h
  cases h
  exact State.eq_of_besidesRoles hframe

end Sys2Proof.Machine

namespace Sys2Proof.Proofs
open Sys2Proof.Machine

/-- Settles O12: each command's meaning is built from updates of registers and of this clock's notes. -/
theorem registerCommandsLeaveTheRestAlone : Obligations.RegisterCommandsLeaveTheRestAlone := by
  intro s t p v key n level b lane c k f m g q tail
  have hpage : ∀ (F : State → State), (∀ u, (F u).besidesRegs = u.besidesRegs) → (s.onPage p F).besidesRegs = s.besidesRegs := fun F hF =>
    State.ite_observe State.besidesRegs (hF s) rfl
  simp only [List.forall_mem_cons, List.not_mem_nil, false_imp_iff, implies_true, and_true]
  have hframe := fun {i : Instr} (hf : i ≠ .drFetchDone) (hr : i ≠ .boRecover) {u : State} => registerFrame_of_besidesRegs (s := s) (t := t) (u := u) hf hr
  have hite := fun {x : Prop} [Decidable x] {u : State} (h : u.besidesRegs = s.besidesRegs) => State.ite_observe (c := x) State.besidesRegs h (u := s) rfl
  refine ⟨?_, ?_, ?_, ?_, ?_, ?_, ?_, ?_, ?_, ?_, ?_, ?_, ?_, ?_, ?_, ?_, ?_, ?_, ?_, ?_, ?_, ?_, ?_, ?_, ?_, ?_, ?_,
    registerFrame_drFetchDone, registerFrame_boRecover⟩
  · exact hframe nofun nofun rfl (hpage _ fun u => u.setLock_besidesRegs p)
  · exact hframe nofun nofun rfl (hpage _ fun u => u.writeLockKey_besidesRegs p _)
  · exact hframe nofun nofun rfl (hpage _ fun u => u.clearBits_besidesRegs _ _)
  · exact hframe nofun nofun rfl (hpage _ fun u => u.set_besidesRegs _ _)
  · exact hframe nofun nofun rfl rfl
  · exact hframe nofun nofun rfl s.lockAll_besidesRegs
  · exact hframe nofun nofun rfl (hite (s.driveOut_besidesRegs _))
  · exact hframe nofun nofun rfl (hite (s.driveOut_besidesRegs _))
  · exact hframe nofun nofun rfl (hite (State.pinEdges_besidesRegs _ s))
  · exact hframe nofun nofun rfl s.clearFaultLatch_besidesRegs
  · exact hframe nofun nofun rfl (hite rfl)
  · exact hframe nofun nofun rfl (s.writeChMode_besidesRegs level)
  · exact hframe nofun nofun rfl (hite rfl)
  · exact hframe nofun nofun rfl (hite (s.clearLog_besidesRegs _))
  · exact hframe nofun nofun rfl (hite rfl)
  · exact hframe nofun nofun rfl (hite (State.setErrorCounts_besidesRegs _ _ _ _))
  · exact hframe nofun nofun rfl (hite rfl)
  · exact hframe nofun nofun rfl (hite ((State.raise_besidesRegs _ _ _).trans (State.setErrorCounts_besidesRegs _ _ 0 0)))
  · exact hframe nofun nofun rfl (hite rfl)
  · exact hframe nofun nofun rfl (hite rfl)
  · exact hframe nofun nofun rfl (hite rfl)
  · exact hframe nofun nofun rfl (hite rfl)
  · exact hframe nofun nofun rfl (hite rfl)
  · exact hframe nofun nofun rfl (hite (s.pin_besidesRegs k _ _))
  · exact hframe nofun nofun rfl (hite (s.pin_besidesRegs k _ _))
  · exact hframe nofun nofun rfl (hite (s.unpin_besidesRegs k))
  · exact hframe nofun nofun rfl (hite rfl)

/-- Settles O13: each instruction's meaning is built from changes of its role and of its page. -/
theorem engineInstructionsLeaveTheRestAlone : Obligations.EngineInstructionsLeaveTheRestAlone := by
  intro s t c r i rd rs1 rs2 off w1 sh sx sat mode d imm
  have hrole : ∀ (u : State) (f : Role → Role), (u.withRole c r.toNat f).besidesRoles = u.besidesRoles := fun u f => u.withRole_besidesRoles c r.toNat f
  have hframe := fun {x : Instr} {u : State} => rolesFrame_of_besidesRoles (x := x) (s := s) (t := t) (u := u)
  have hite := fun {x : Prop} [Decidable x] {u : State} (h : u.besidesRoles = s.besidesRoles) => State.ite_observe (c := x) State.besidesRoles h (u := s) rfl
  simp only [List.forall_mem_cons, List.not_mem_nil, false_imp_iff, implies_true, and_true]
  refine ⟨?_, ?_, ?_, ?_, ?_, ?_, ?_, ?_, ?_, ?_, ?_, ?_, ?_⟩
  · exact hframe rfl (hite (hrole s _))
  · exact hframe rfl (hite (hrole s _))
  · exact hframe rfl (hite (State.ite_observe State.besidesRoles (hrole s _) (hrole s _)))
  · exact hframe rfl (hite (State.ite_observe State.besidesRoles (hrole s _) (hrole s _)))
  · exact hframe rfl (hite (s.ldp_besidesRoles c _ _ _ _))
  · exact hframe rfl (hite (s.wft_besidesRoles c _ _ _))
  · exact hframe rfl (hite (s.ebreak_besidesRoles c _))
  · exact hframe rfl (hite ((hrole _ _).trans (s.popEvent_besidesRoles c _)))
  · exact hframe rfl (hite ((hrole _ _).trans (s.mboxOutDb_besidesRoles c _)))
  · exact hframe rfl (hite ((hrole _ _).trans (s.mboxInAck_besidesRoles c _)))
  · exact hframe rfl (hite (s.inDb_besidesRoles c _))
  · exact hframe rfl (hite (s.outAck_besidesRoles c _))
  · exact hframe rfl (hite ((hrole _ _).trans (s.dmaGo_besidesRoles c _ _)))

end Sys2Proof.Proofs
end

section
/-! The time unit's commands (R57, R68, R69, R75, R76). -/

namespace Sys2Proof.Machine

/-- An update made only where two values differ. -/
theorem State.when_bne {α : Type} [DecidableEq α] (s : State) (a b : α) (f : State → State) : s.when (a != b) f = if a = b then s else f s := by
  by_cases h : a = b <;> simp [State.when, h]

/-! PPS_IN. -/

section
variable (s : State) (at_ : BitVec 64) (rising : Bool) (huses : s.usesPps = true) (hedge : rising ≠ s.flag TIME.TIME_CTRL_PPS_POL)
include huses hedge

/-- An edge of the polarity set: the error, the part of it still to correct and the run of good edges; the third good one makes the reference
valid (R75). -/
theorem exec_ppsEdge (run : Nat) (hrun : run = if 4 * (secondError at_).natAbs ≤ s.get TIME.EXT_MAX then s.time.ppsGoodRun + 1 else 0) :
    exec (.ppsEdge at_ rising) s = .next (((s.setInt TIME.PPS_ERR (secondError at_)).withTime fun t =>
      { t with ppsOutstanding := 4 * secondError at_, ppsGoodRun := run }).when (decide (3 ≤ run)) fun u => u.setFlag TIME.TIME_STAT_EXT_VALID true) := by
  change execPpsEdge at_ rising s = _
  simp only [execPpsEdge, huses, bne_iff_ne.2 hedge, Bool.and_self, if_true, s.get_setInt_ne TIME.PPS_ERR TIME.EXT_MAX _ (by decide),
    State.setInt_time, hrun]

theorem exec_ppsEdge_bad (hbad : s.get TIME.EXT_MAX < 4 * (secondError at_).natAbs) :
    exec (.ppsEdge at_ rising) s = .next ((s.setInt TIME.PPS_ERR (secondError at_)).withTime fun t =>
      { t with ppsOutstanding := 4 * secondError at_, ppsGoodRun := 0 }) := by
  rw [exec_ppsEdge s at_ rising huses hedge 0 (by rw [if_neg (Nat.not_le.2 hbad)])]
  rfl

theorem exec_ppsEdge_good (hgood : 4 * (secondError at_).natAbs ≤ s.get TIME.EXT_MAX) (hrun : s.time.ppsGoodRun < 2) :
    exec (.ppsEdge at_ rising) s = .next ((s.setInt TIME.PPS_ERR (secondError at_)).withTime fun t =>
      { t with ppsOutstanding := 4 * secondError at_, ppsGoodRun := s.time.ppsGoodRun + 1 }) := by
  rw [exec_ppsEdge s at_ rising huses hedge _ (by rw [if_pos hgood]), decide_eq_false (by omega), State.when_false]

theorem exec_ppsEdge_third (hgood : 4 * (secondError at_).natAbs ≤ s.get TIME.EXT_MAX) (hrun : 2 ≤ s.time.ppsGoodRun) :
    exec (.ppsEdge at_ rising) s = .next (((s.setInt TIME.PPS_ERR (secondError at_)).withTime fun t =>
      { t with ppsOutstanding := 4 * secondError at_, ppsGoodRun := s.time.ppsGoodRun + 1 }).setFlag TIME.TIME_STAT_EXT_VALID true) := by
  rw [exec_ppsEdge s at_ rising huses hedge _ (by rw [if_pos hgood]), decide_eq_true (by omega), State.when_true]

end

theorem exec_ppsEdge_ignored (s : State) (at_ : BitVec 64) (rising : Bool) (h : s.usesPps = false ∨ rising = s.flag TIME.TIME_CTRL_PPS_POL) :
    exec (.ppsEdge at_ rising) s = .next s := by
  change execPpsEdge at_ rising s = _
  rcases h with h | h <;> simp [execPpsEdge, h]

/-! Holdover. -/

theorem exec_holdMaxExpiry_starter (s : State) (hstate : s.timeState = tmHOLDOVER) (hrun : s.get TIME.HOLD_MAX ≤ s.time.holdoverRun)
    (hstarter : s.flag TIME.TIME_STAT_STARTER = true) : exec .holdMaxExpiry s = .next (s.set TIME.TIME_STAT_STATE tmLEAD) := by
  change execHoldMaxExpiry s = _
  simp only [execHoldMaxExpiry, hstate, hrun, hstarter, decide_true, Bool.and_self, Bool.true_or, if_true]

/-! Rate correction. -/

/-- The interval's sum and counts start anew (R68). -/
def State.newInterval (s : State) : State := s.withTime fun t => { t with accSum := 0, accCount := 0, intervalCycles := 0 }

theorem exec_rateCorrection_early (s : State) (h : s.time.intervalCycles < s.get TIME.RATE_CTRL_INTERVAL) : exec .rateCorrection s = .next s := by
  change execRateCorrection s = _
  rw [execRateCorrection, if_neg (Nat.not_le.2 h)]

section
variable (s : State) (hend : s.get TIME.RATE_CTRL_INTERVAL ≤ s.time.intervalCycles)
include hend

theorem exec_rateCorrection_end : exec .rateCorrection s = .next s.correctRate := by
  change execRateCorrection s = _
  rw [execRateCorrection, if_pos hend]

theorem exec_rateCorrection_few (hfew : 2 * s.time.accCount < s.get TIME.RATE_CTRL_INTERVAL) : exec .rateCorrection s = .next s.newInterval := by
  rw [exec_rateCorrection_end s hend, State.correctRate, if_neg (Nat.not_le.2 hfew)]
  rfl

variable (hcount : s.get TIME.RATE_CTRL_INTERVAL ≤ 2 * s.time.accCount) (raw new : Int)
  (hraw : raw = s.getInt TIME.RATE_ADJ + Int.fdiv s.rateDelta (2 ^ s.get TIME.RATE_CTRL_GAIN)) (hnew : new = max (-5368709) (min 5368709 raw))
include hcount hraw hnew

theorem exec_rateCorrection_now (hend : s.time.returnEndSeen = false) (hclosed : s.time.returnClosed = false) :
    exec .rateCorrection s = .next (((if raw = new then s else s.raise .time 12).setInt TIME.RATE_ADJ new).newInterval) := by
  rw [exec_rateCorrection_end s (by assumption), State.correctRate, if_pos hcount]
  simp only [← hraw, clampAbs, ← hnew, State.when_bne]
  by_cases hlimit : raw = new
  · simp only [if_pos hlimit, hend, hclosed, Bool.or_self, Bool.false_eq_true, if_false, State.newInterval]
  · simp only [if_neg hlimit, State.raise_time, hend, hclosed, Bool.or_self, Bool.false_eq_true, if_false, State.newInterval]

theorem exec_rateCorrection_next (hreturn : s.time.returnEndSeen = true ∨ s.time.returnClosed = true) :
    exec .rateCorrection s = .next ((if raw = new then s else s.raise .time 12).withTime fun t =>
      { t with rateNext := some new, accSum := 0, accCount := 0, intervalCycles := 0 }) := by
  have hlate : (s.time.returnEndSeen || s.time.returnClosed) = true := by simpa using hreturn
  rw [exec_rateCorrection_end s hend, State.correctRate, if_pos hcount]
  simp only [← hraw, clampAbs, ← hnew, State.when_bne]
  by_cases hlimit : raw = new
  · simp only [if_pos hlimit, hlate, if_true]; rfl
  · simp only [if_neg hlimit, State.raise_time, hlate, if_true]; rfl

end

end Sys2Proof.Machine

namespace Sys2Proof.Proofs
open Sys2Proof.Machine

/-- Settles O14: each command in each of its cases. -/
theorem timeUnitCommands : Obligations.TimeUnitCommands := by
  intro s
  refine ⟨rfl, fun at_ rising huses hedge => ⟨exec_ppsEdge_bad s at_ rising huses hedge, exec_ppsEdge_good s at_ rising huses hedge,
    exec_ppsEdge_third s at_ rising huses hedge⟩, exec_ppsEdge_ignored s, exec_ppsLost_of_starter s, exec_holdMaxExpiry_starter s,
    exec_rateCorrection_few s, fun raw new hend hcount hraw hnew => ⟨?now, ?next⟩, exec_rateCorrection_early s⟩
  case now => exact exec_rateCorrection_now s hend hcount raw new hraw hnew
  case next => exact exec_rateCorrection_next s hend hcount raw new hraw hnew

end Sys2Proof.Proofs
end

section
/-! The tick, the marks and the cycle length (R58, R79, R83 to R85). -/

namespace Sys2Proof.Machine

theorem State.tickDue_iff (s : State) : s.tickDue = true ↔ s.valid = true ∧ (s.time.firstTick = true ∨ (s.cycleLen : Int) ≤ s.sinceTick) := by
  simp [State.tickDue]

/-! The cycle number. -/

/-- The words of T0 lie apart from the cycle number. -/
theorem State.cycle_set_t0 (s : State) (v : Nat) : (s.set64 CYC.T0_LO CYC.T0_HI v).cycle = s.cycle := by
  rw [State.cycle, State.set64, State.get_set_ne _ _ _ _ (by decide), State.get_set_ne _ _ _ _ (by decide), State.cycle]

/-- A write to the registers of CYC's cycle leaves the settings for the next one. -/
theorem State.markSettings_congr {s t : State} (h : ∀ q : Reg, q.key ∉ [CYC.CYC_NUM.key, CYC.T0_LO.key, CYC.T0_HI.key] → t.get q = s.get q) :
    t.markSettings = s.markSettings := by
  refine List.map_congr_left fun m hm => ?_
  have hm16 : m < 16 := List.mem_range.1 hm
  have hkeys : ∀ m < 16, ∀ q ∈ [CYC.CM_CTRL_EN m, CYC.CM_OFFS m, CYC.CM_CTRL_DIV m, CYC.CM_CTRL_PHASE m],
    q.key ∉ [CYC.CYC_NUM.key, CYC.T0_LO.key, CYC.T0_HI.key] := by decide
  have hread := fun q hq => h q (hkeys m hm16 q hq)
  simp only [State.flag, hread (CYC.CM_CTRL_EN m) (by simp), hread (CYC.CM_OFFS m) (by simp), hread (CYC.CM_CTRL_DIV m) (by simp),
    hread (CYC.CM_CTRL_PHASE m) (by simp)]

/-- The registers of a new cycle: its number, T0, and the cycle length that waited for it. -/
def State.numberCycle (s : State) : State :=
  if s.time.firstTick then
    ((s.set CYC.CYC_NUM 0).set64 CYC.T0_LO CYC.T0_HI s.ttcNs.toNat).withTime fun t => { t with cycleLenK := t.cycleLenNext.getD t.cycleLenK, cycleLenNext := none }
  else
    let instant := s.tickNs + BitVec.ofNat 64 s.cycleLen
    let n := (s.cycle + 1) % 2 ^ 32
    let s := s.set CYC.CYC_NUM n
    match s.time.cycleLenNext with
    | some k =>
      let s := s.withTime fun t => { t with cycleLenK := k, cycleLenNext := none }
      s.set64 CYC.T0_LO CYC.T0_HI (instant - BitVec.ofNat 64 (n * s.cycleLen)).toNat
    | none => s.set64 CYC.T0_LO CYC.T0_HI (instant - BitVec.ofNat 64 (n * s.cycleLen)).toNat

theorem State.advanceCycle_eq (s : State) : s.advanceCycle = s.numberCycle.withTime fun t => { t with
    firstTick := false, running := true, ticked := true, precision := s.numberCycle.get TIME.PREC_ASSUMED, marks := s.numberCycle.markSettings
    marksFired := [], marksTold := [] } := rfl

theorem State.numberCycle_get_ne (s : State) (q : Reg) (hq : q.key ∉ [CYC.CYC_NUM.key, CYC.T0_LO.key, CYC.T0_HI.key]) :
    s.numberCycle.get q = s.get q := by
  simp only [List.mem_cons, List.not_mem_nil, or_false, not_or] at hq
  obtain ⟨hnum, hlo, hhi⟩ := hq
  simp only [State.numberCycle]
  split
  · rw [State.withTime_get, State.set64, State.get_set_ne _ _ _ _ hhi, State.get_set_ne _ _ _ _ hlo, State.get_set_ne _ _ _ _ hnum]
  · split <;> rw [State.set64, State.get_set_ne _ _ _ _ hhi, State.get_set_ne _ _ _ _ hlo]
    · rw [State.withTime_get, State.get_set_ne _ _ _ _ hnum]
    · rw [State.get_set_ne _ _ _ _ hnum]

theorem State.numberCycle_first (s : State) (h : s.time.firstTick = true) : s.numberCycle.cycle = 0 := by
  rw [State.numberCycle, if_pos h, State.cycle, State.withTime_get]
  exact (State.cycle_set_t0 _ _).trans (State.get_set _ _ _)

theorem State.numberCycle_later (s : State) (h : s.time.firstTick = false) : s.numberCycle.cycle = (s.cycle + 1) % 2 ^ 32 := by
  have hnum : (s.set CYC.CYC_NUM ((s.cycle + 1) % 2 ^ 32)).cycle = (s.cycle + 1) % 2 ^ 32 := (State.get_set _ _ _).trans (Nat.mod_mod _ _)
  simp only [State.numberCycle, h, Bool.false_eq_true, if_false]
  split <;> exact (State.cycle_set_t0 _ _).trans hnum

/-! The marks. -/

theorem State.markDue_of_fired (s : State) (m : Nat) (h : s.time.marksFired.contains m = true) : s.markDue m = false := by
  rw [State.markDue, h]
  simp

theorem exec_cycleMark_due (s : State) (m : BitVec 4) (h : s.markDue m.toNat = true) :
    exec (.cycleMark m) s = .next ((List.range 16).foldl (fun u i => if u.markDue i then u.fireMark i else u) s) := by
  change execCycleMark m s = _
  rw [execCycleMark, if_pos h]
  rfl

theorem exec_cycleMark_not_due (s : State) (m : BitVec 4) (h : s.markDue m.toNat = false) : exec (.cycleMark m) s = .next s := by
  change execCycleMark m s = _
  rw [execCycleMark, if_neg (by simp [h])]

/-! The cycle length. -/

/-- The write taken: the page stamped where the value is a new one. -/
theorem State.writeCycLen_taken (s : State) (k : Nat) (hoff : s.bothOff = true) (hk : k ≠ 0) (hmax : k ≤ 1024) (hlock : s.locked .cyc = false) (u : State)
    (hu : u = (if k = s.get CYC.CYC_LEN_K then s else s.stampConfig .cyc).set CYC.CYC_LEN_K k) :
    s.writeCycLen k = if u.valid then u.withTime fun t => { t with cycleLenNext := some k }
      else u.withTime fun t => { t with cycleLenK := k, cycleLenNext := none } := by
  simp only [State.writeCycLen, hlock, hoff, hk, Nat.not_lt.2 hmax, State.when_bne, ← hu, Bool.false_and, Bool.not_true, decide_false, Bool.or_self,
    Bool.false_eq_true, if_false]

/-- The write and its stamp lie apart from the validity of the time. -/
theorem State.writeCycLen_valid (s : State) (k : Nat) : ((if k = s.get CYC.CYC_LEN_K then s else s.stampConfig .cyc).set CYC.CYC_LEN_K k).valid = s.valid := by
  rw [State.valid, State.flag, State.get_set_ne _ _ _ _ (by decide)]
  split
  · rfl
  · rw [State.stampConfig, State.get_set_ne _ _ _ _ (by decide)]
    rfl

theorem State.writeCycLen_refused (s : State) (k : Nat) (h : s.bothOff = false ∨ k = 0 ∨ 1024 < k ∨ (s.locked .cyc = true ∧ k ≠ s.get CYC.CYC_LEN_K)) :
    s.writeCycLen k = s.refuse .cyc := by
  unfold State.writeCycLen
  split
  · rfl
  · rename_i hopen
    rw [if_pos]
    rcases h with h | h | h | ⟨hlock, hk⟩
    · simp [h]
    · simp [h]
    · simp [h]
    · exact absurd (by simp [hlock, hk]) hopen

end Sys2Proof.Machine

namespace Sys2Proof.Proofs
open Sys2Proof.Machine

/-- Settles O15: the tick by `State.numberCycle`, the marks by their condition, and CYC_LEN by its write's cases. -/
theorem cycleCommands : Obligations.CycleCommands := by
  intro s
  refine ⟨s.tickDue_iff, fun h => ?due, fun h => ?early, s.numberCycle_first, s.numberCycle_later, rfl, rfl, rfl, ?precision, ?marks,
    fun m => s.markDue_of_fired m.toNat, exec_cycleMark_due s, fun i => rfl, exec_cycleMark_not_due s, fun k hoff hk hmax hlock => ?taken, fun k h => ?refused⟩
  case due => change execTick s = _; rw [execTick, if_pos h]
  case early => change execTick s = _; rw [execTick, if_neg (by simp [h])]
  case precision => exact s.numberCycle_get_ne _ (by decide)
  case marks => exact State.markSettings_congr s.numberCycle_get_ne
  case taken =>
    have hwrite := s.writeCycLen_taken k.toNat hoff (by simpa [← BitVec.toNat_inj] using hk) hmax hlock _ rfl
    rw [s.writeCycLen_valid] at hwrite
    refine ⟨fun hvalid => ?_, fun hvalid => ?_⟩
    · exact congrArg Host.Outcome.next (hwrite.trans (if_neg (by simp [hvalid])))
    · exact congrArg Host.Outcome.next (hwrite.trans (if_pos hvalid))
  case refused =>
    exact congrArg Host.Outcome.next (s.writeCycLen_refused k.toNat (h.imp_right (Or.imp_left (by rintro rfl; rfl))))

end Sys2Proof.Proofs
end

section
/-! CUT, RETURN_END and RETURN_CLOSE (R81, R82, R184, R212, R218). -/

namespace Sys2Proof.Machine

/-! CUT. -/

theorem exec_cut_taken (s : State) (h : s.capture.taken = true) : exec .cut s = .next s := by
  change execCut s = _
  simp [execCut, h]

theorem exec_cut_early (s : State) (h : s.cutDue = false) : exec .cut s = .next s := by
  change execCut s = _
  simp [execCut, h]

section
variable (s : State) (hrunning : s.time.running = true) (hopen : s.capture.taken = false) (hsingle : s.twin = false) (hdue : s.cutDue = true)
  (hpoints : (s.served.filterMap s.cutPoint).any (fun p => p < 100) = false) (hloaf : (s.channels.any fun c => s.live (.loaf c)) = true)
include hrunning hopen hsingle hdue hpoints hloaf

theorem exec_cut_single : exec .cut s = .next ((s.kneaderCut.set CYC.CUT_AT s.sinceTick.toNat).cut.endCut.when
    (s.served.any fun l => s.lineState l == lnLONE) State.writeLone) := by
  change execCut s = _
  simp only [execCut, hrunning, hopen, hsingle, hdue, hpoints, hloaf, Bool.not_true, Bool.not_false, Bool.or_self, Bool.false_eq_true, if_false,
    Bool.true_or, Bool.and_false, State.when_false, if_true]

end

/-- Without jobs in flight the deadline drops none. -/
theorem State.kneaderCut_of_idle (s : State) (hA : s.kneaderA.runs = []) (hB : s.kneaderB.runs = []) : s.kneaderCut = s := by
  have hstep : ∀ c, (s.each ((s.kneader c).runs.filter fun r => s.dueAtCut c r) fun r t => t.overrunJob c r) = s := by
    intro c
    cases c <;> simp [State.kneader, hA, hB, State.each]
  unfold State.kneaderCut
  induction s.channels with
  | nil => rfl
  | cons c l ih => exact (congrArg (fun t : State => t.each l _) (hstep c)).trans ih

/-! RETURN_END and RETURN_CLOSE. -/

theorem exec_returnEnd_reached (s : State) (hend : s.time.returnEndSeen = false) (hclosed : s.time.returnClosed = false)
    (hforming : s.anyLine [lnINAUGURATE] = false) (hreached : s.returnReached = true) : exec .returnEnd s = .next s.returnEnd := by
  change execReturnEnd s = _
  simp only [execReturnEnd, hend, hclosed, hforming, hreached, Bool.or_self, Bool.false_eq_true, if_false, if_true]

theorem exec_returnEnd_closed (s : State) (h : s.time.returnClosed = true) : exec .returnEnd s = .next s := by
  change execReturnEnd s = _
  simp [execReturnEnd, h]

theorem exec_returnClose_due (s : State) (hend : s.time.returnEndSeen = false) (hclosed : s.time.returnClosed = false) (hdue : s.closeDue = true) :
    exec .returnClose s = .next ((((s.when (s.anyPartakes && decide ((s.trayLen : Int) < s.sinceTick)) State.lateTray).finalise.withTime fun t =>
      { t with returnClosed := true }).each [Line.A, Line.B] fun c s => s.commitDraft7 c false).returnTriggers) := by
  change execReturnClose s = _
  simp only [execReturnClose, hend, hclosed, hdue, Bool.not_true, Bool.or_self, Bool.false_eq_true, if_false]

theorem exec_returnClose_early (s : State) (h : s.closeDue = false) : exec .returnClose s = .next s := by
  change execReturnClose s = _
  simp [execReturnClose, h]

theorem exec_returnClose_closed (s : State) (h : s.time.returnClosed = true) : exec .returnClose s = .next s := by
  change execReturnClose s = _
  simp [execReturnClose, h]

/-! The slice captured from a READY dough. -/

/-- The dough's channel and the slice's length depend on no register that CUT writes before it captures. -/
theorem State.served_set_cutAt (s : State) (v : Nat) : (s.set CYC.CUT_AT v).served = s.served := by
  rw [State.served, State.twin, s.flag_set_ne _ TWIN.TWIN_CTRL_EN _ (by decide), s.flag_set_ne _ TWIN.TWIN_CTRL_LINE _ (by decide)]
  rfl

theorem State.doughChannel_set_cutAt (s : State) (v : Nat) : (s.set CYC.CUT_AT v).doughChannel = s.doughChannel := by
  unfold State.doughChannel
  rw [State.served_set_cutAt, State.quarantined, State.quarantined, s.flag_set_ne _ CHIP.CH_MODE_QUAR_A _ (by decide)]

theorem State.ownSlot_set_cutAt (s : State) (v : Nat) : (s.set CYC.CUT_AT v).ownSlot = s.ownSlot := by
  have hread : ∀ q ∈ [GTB.FORM_STAT_POS .A, GTB.FORM_STAT_POS .B, GTB.FORM_STAT_CRUMB .A, GTB.FORM_STAT_CRUMB .B], (s.set CYC.CUT_AT v).get q = s.get q :=
    fun q hq => s.get_set_ne _ q v ((by decide : ∀ q ∈ [GTB.FORM_STAT_POS .A, GTB.FORM_STAT_POS .B, GTB.FORM_STAT_CRUMB .A, GTB.FORM_STAT_CRUMB .B],
      q.key ≠ CYC.CUT_AT.key) q hq)
  rw [State.ownSlot, State.position, State.posOn, State.posOn, hread _ (by simp), hread _ (by simp), hread _ (by simp), hread _ (by simp)]
  rfl

theorem State.captureLen_set_cutAt (s : State) (v : Nat) : (s.set CYC.CUT_AT v).captureLen = s.captureLen := by
  unfold State.captureLen State.ownLayoutSlot
  rw [State.ownSlot_set_cutAt, State.set_forming, s.get_set_ne _ (GTB.FORM_CFG_SLICE_PAY .A) _ (by decide)]

/-- The state after a READY dough is captured: the slice, and the dough's flags for the next cycle. -/
def State.captureFresh (s : State) (v : Nat) : State :=
  ((({ s.set CYC.CUT_AT v with
    capture := ⟨.fresh, s.bytes (doughAddr s.doughChannel) s.captureLen, s.flag (LOAF.DOUGH_STAT_DOUBTFUL_REQ .A) || (s.set CYC.CUT_AT v).doubtfulCause,
      (s.set CYC.CUT_AT v).twin && (s.set CYC.CUT_AT v).owns, s.nextSeq, true, false⟩ } : State).setReady false).setDoubtfulReq false).each [Line.A, Line.B]
    fun k t => t.set (LOAF.DOUGH_LEN k) s.captureLen

theorem State.cut_ready (s : State) (v : Nat) (hhold : s.inHold = false) (hready : s.flag (LOAF.DOUGH_STAT_READY .A) = true) :
    (s.set CYC.CUT_AT v).cut = s.captureFresh v := by
  have hhold' : (s.set CYC.CUT_AT v).inHold = false := (s.flag_set_ne CYC.CUT_AT (LOAF.DOUGH_STAT_HOLD .A) v (by decide)).trans hhold
  simp (disch := decide) only [State.cut, hhold', s.flag_set_ne CYC.CUT_AT, hready, Bool.false_eq_true, if_false, if_true, s.doughChannel_set_cutAt,
    s.captureLen_set_cutAt, State.set_bytes, State.captureFresh]
  rfl

/-- The end of CUT shows what was captured. -/
theorem State.endCut_observe {β : Type} (obs : State → β) (hmark : ∀ (t : State) b, obs { t with brownoutMark := b } = obs t)
    (hshow : ∀ (t : State) k b, obs (t.setFlag (LOAF.DOUGH_STAT_LAST_FRESH k) b) = obs t) (s : State) : obs s.endCut = obs s :=
  (State.each_observe obs (fun k _ t => hshow t k _) _).trans (hmark s false)

/-- The capture of a READY dough writes registers only, besides the capture. -/
theorem State.captureFresh_observe {β : Type} (obs : State → β) (hset : ∀ (t : State) q v, obs (t.set q v) = obs t) (s : State) (v : Nat) :
    obs (s.captureFresh v) = obs { s.set CYC.CUT_AT v with
      capture := ⟨.fresh, s.bytes (doughAddr s.doughChannel) s.captureLen, s.flag (LOAF.DOUGH_STAT_DOUBTFUL_REQ .A) || (s.set CYC.CUT_AT v).doubtfulCause,
        (s.set CYC.CUT_AT v).twin && (s.set CYC.CUT_AT v).owns, s.nextSeq, true, false⟩ } := by
  have hflag : ∀ (t : State) q b, obs (t.setFlag q b) = obs t := fun t q b => hset t q _
  refine (State.each_observe obs (fun _ _ t => hset t _ _) _).trans ?_
  rw [State.setDoubtfulReq, hflag, hflag, State.setReady, hflag, hflag]

theorem State.captureFresh_sent (s : State) (v : Nat) : (s.captureFresh v).sent = s.sent := by
  rw [State.captureFresh_observe State.sent (fun _ _ _ => rfl), State.set_sent]

theorem State.captureFresh_mem (s : State) (v : Nat) : (s.captureFresh v).mem = s.mem := by
  rw [State.captureFresh_observe State.mem (fun _ _ _ => rfl), State.set_mem]

theorem State.captureFresh_time (s : State) (v : Nat) : (s.captureFresh v).time = s.time := by
  rw [State.captureFresh_observe State.time (fun _ _ _ => rfl), State.set_time]

theorem State.captureFresh_ready (s : State) (v : Nat) : (s.captureFresh v).flag (LOAF.DOUGH_STAT_READY .A) = false := by
  have hlen : ∀ (t : State) k n, (t.set (LOAF.DOUGH_LEN k) n).flag (LOAF.DOUGH_STAT_READY .A) = t.flag (LOAF.DOUGH_STAT_READY .A) := fun t k n =>
    t.flag_set_ne _ _ n (by cases k <;> decide)
  refine (State.each_observe (·.flag (LOAF.DOUGH_STAT_READY .A)) (fun k _ t => hlen t k _) _).trans ?_
  rw [State.setDoubtfulReq, State.flag_setFlag_ne _ _ _ _ (by decide), State.flag_setFlag_ne _ _ _ _ (by decide), State.setReady,
    State.flag_setFlag_ne _ _ _ _ (by decide), State.flag_setFlag _ _ _ (by decide)]

end Sys2Proof.Machine

namespace Sys2Proof.Proofs
open Sys2Proof.Machine

/-- Settles O16: each command in each of its cases; without jobs in flight CUT leaves `State.captureFresh`, whose dough is no longer READY. -/
theorem cutAndReturnCommands : Obligations.CutAndReturnCommands := by
  intro s
  refine ⟨fun hrun hopen hsingle hdue hpoints hloaf => ⟨exec_cut_single s hrun hopen hsingle hdue hpoints hloaf, fun hA hB hhold hready hlone => ?fresh⟩,
    exec_cut_taken s, exec_cut_early s, exec_returnEnd_reached s, exec_returnClose_due s, exec_returnClose_early s,
    fun h => ⟨exec_returnEnd_closed s h, exec_returnClose_closed s h⟩⟩
  case fresh =>
    have hcapture := (State.endCut_observe State.capture (fun _ _ => rfl) (fun _ _ _ => rfl) _).trans
      (State.captureFresh_observe State.capture (fun _ _ _ => rfl) s s.sinceTick.toNat)
    refine ⟨(s.captureFresh s.sinceTick.toNat).endCut, ?_, by rw [hcapture], by rw [hcapture], by rw [hcapture], by rw [hcapture], ?_, ?_, ?_, ?_⟩
    · rw [exec_cut_single s hrun hopen hsingle hdue hpoints hloaf, hlone, State.when_false, s.kneaderCut_of_idle hA hB, s.cut_ready _ hhold hready]
    · exact (State.endCut_observe State.sent (fun _ _ => rfl) (fun _ _ _ => rfl) _).trans (s.captureFresh_sent _)
    · exact (State.endCut_observe State.mem (fun _ _ => rfl) (fun _ _ _ => rfl) _).trans (s.captureFresh_mem _)
    · exact (State.endCut_observe State.time (fun _ _ => rfl) (fun _ _ _ => rfl) _).trans (s.captureFresh_time _)
    · exact (State.endCut_observe (·.flag (LOAF.DOUGH_STAT_READY .A)) (fun _ _ => rfl)
        (fun t k b => t.flag_setFlag_ne _ _ b (by cases k <;> decide)) _).trans (s.captureFresh_ready _)

end Sys2Proof.Proofs
end

section
/-! The 802.1AS grandmaster on a consist port (R77, R78, R122, R286). -/

namespace Sys2Proof.Machine

/-- A 64-bit value reads back from its pair of words. -/
theorem State.get64_set64 (s : State) (lo hi : Reg) (v : Nat) (hlo : lo.width = 32) (hhi : hi.width = 32) (hkey : lo.key ≠ hi.key) (hv : v < 2 ^ 64) :
    (s.set64 lo hi v).get64 lo hi = v := by
  rw [State.get64, State.set64, State.get_set, State.get_set_ne _ _ _ _ hkey, State.get_set, hlo, hhi]
  omega

section
variable (s : State) (m : BitVec 3)

theorem exec_asSyncTx_not_grandmaster (sfd : BitVec 64) (h : s.grandmaster m.toNat = false) : exec (.asSyncTx m sfd) s = .next s := by
  change execAsSyncTx m sfd s = _
  simp [execAsSyncTx, h]

theorem exec_asAnnounceTx_not_grandmaster (h : s.grandmaster m.toNat = false) : exec (.asAnnounceTx m) s = .next s := by
  change execAsAnnounceTx m s = _
  simp [execAsAnnounceTx, h]

theorem exec_asPdelayReqTx_not_grandmaster (sfd : BitVec 64) (h : s.grandmaster m.toNat = false) : exec (.asPdelayReqTx m sfd) s = .next s := by
  change execAsPdelayReqTx m sfd s = _
  simp [execAsPdelayReqTx, h]

variable (h : s.grandmaster m.toNat = true)
include h

/-- Sync and its Follow_Up: one number, and the time with the offset taken into use (R78). -/
theorem exec_asSyncTx (sfd : BitVec 64) : ∃ t, exec (.asSyncTx m sfd) s = .next t ∧ t.regs = s.regs ∧ t.mem = s.mem
    ∧ t.time.asOffsets = setAt s.time.asOffsets m.toNat (BitVec.ofNat 64 (s.get64 TIME.AS_OFFS_LO TIME.AS_OFFS_HI))
    ∧ t.sent = s.sent ++ [.asMessage m.toNat s.nodeUid (.sync (s.asPort m.toNat).syncSeq),
        .asMessage m.toNat s.nodeUid (.followUp (s.asPort m.toNat).syncSeq (t.asTime m.toNat sfd) (BitVec.ofNat 16 (s.get TIME.AS_CTRL_TBI)) s.time.asPhaseChange)] := by
  exact ⟨_, congrArg Host.Outcome.next (if_pos h), rfl, rfl, rfl, List.append_assoc _ _ _⟩

theorem exec_asAnnounceTx : ∃ t msg, exec (.asAnnounceTx m) s = .next t ∧ t.regs = s.regs ∧ t.mem = s.mem ∧ t.time = s.time
    ∧ t.sent = s.sent ++ [.asMessage m.toNat s.nodeUid msg] ∧ ∃ p1 p2 cls acc src, msg = .announce (s.asPort m.toNat).announceSeq s.eui64 p1 p2 cls acc src
      ∧ p1 = BitVec.ofNat 8 (s.get TIME.AS_CTRL_PRIO1) ∧ p2 = BitVec.ofNat 8 (s.get TIME.AS_CTRL_PRIO2) := by
  exact ⟨_, _, congrArg Host.Outcome.next (if_pos h), rfl, rfl, rfl, rfl, _, _, _, _, _, rfl, rfl, rfl⟩

theorem exec_asPdelayReqTx (sfd : BitVec 64) : exec (.asPdelayReqTx m sfd) s = .next ((s.withAs m.toNat fun p =>
    { p with reqSeq := (s.asPort m.toNat).reqSeq + 1, reqSent := sfd }).emit (.asMessage m.toNat s.nodeUid (.pdelayReq ((s.asPort m.toNat).reqSeq + 1)))) := by
  change execAsPdelayReqTx m sfd s = _
  rw [execAsPdelayReqTx, if_pos h]

end

/-! AS_OFFS. -/

/-- A new value stamps the page; the fields of the grandmaster read as before. -/
theorem State.when_stampConfig_time_tbi (s : State) (c : Bool) : (s.when c fun t => t.stampConfig .time).get TIME.AS_CTRL_TBI = s.get TIME.AS_CTRL_TBI :=
  State.when_observe (·.get TIME.AS_CTRL_TBI) (fun t => t.get_stampConfig_ne _ _ (by decide)) c s

theorem State.when_stampConfig_time (s : State) (c : Bool) : (s.when c fun t => t.stampConfig .time).time = s.time :=
  State.when_observe State.time (fun t => State.set_time t _ _) c s

theorem State.writeAsOffs_offset (s : State) (v : BitVec 64) : (s.writeAsOffs v).get64 TIME.AS_OFFS_LO TIME.AS_OFFS_HI = v.toNat := by
  have hpair : ∀ (t : State) n, (t.set TIME.AS_CTRL_TBI n).get64 TIME.AS_OFFS_LO TIME.AS_OFFS_HI = t.get64 TIME.AS_OFFS_LO TIME.AS_OFFS_HI := by
    intro t n
    rw [State.get64, t.get_set_ne _ _ _ (by decide), t.get_set_ne _ _ _ (by decide), State.get64]
  rw [State.writeAsOffs, State.withTime_get64, hpair, State.get64_set64 _ _ _ _ rfl rfl (by decide) v.isLt]

theorem State.writeAsOffs_tbi (s : State) (v : BitVec 64) :
    (s.writeAsOffs v).get TIME.AS_CTRL_TBI = (s.get TIME.AS_CTRL_TBI + 1) % 2 ^ TIME.AS_CTRL_TBI.width := by
  rw [State.writeAsOffs, State.withTime_get, State.get_set, s.when_stampConfig_time_tbi]

theorem State.writeAsOffs_time (s : State) (v : BitVec 64) : (s.writeAsOffs v).time =
    { s.time with asPhaseChange := (v - BitVec.ofNat 64 (s.get64 TIME.AS_OFFS_LO TIME.AS_OFFS_HI)).toInt } := by
  rw [State.writeAsOffs, State.withTime_time, State.set_time, State.set64_time, s.when_stampConfig_time]

/-- All else stays. -/
theorem State.writeAsOffs_frame (s : State) (v : BitVec 64) : s.writeAsOffs v = { s with regs := (s.writeAsOffs v).regs, time := (s.writeAsOffs v).time } := by
  simp only [State.writeAsOffs]
  cases BitVec.ofNat 64 (s.get64 TIME.AS_OFFS_LO TIME.AS_OFFS_HI) != v <;> rfl

end Sys2Proof.Machine

namespace Sys2Proof.Proofs
open Sys2Proof.Machine

/-- Settles O17: each message as it is built from the port's numbers, and the write of AS_OFFS field by field. -/
theorem grandmasterCommands : Obligations.GrandmasterCommands := fun s m =>
  ⟨fun h => ⟨exec_asSyncTx s m h, exec_asAnnounceTx s m h, exec_asPdelayReqTx s m h⟩,
    fun h => ⟨exec_asAnnounceTx_not_grandmaster s m h, fun sfd => ⟨exec_asSyncTx_not_grandmaster s m sfd h, exec_asPdelayReqTx_not_grandmaster s m sfd h⟩⟩,
    fun v => ⟨s.writeAsOffs v, rfl, s.writeAsOffs_offset v, s.writeAsOffs_tbi v, s.writeAsOffs_time v, s.writeAsOffs_frame v⟩⟩

end Sys2Proof.Proofs
end

section
/-! The lines: enabling and disabling, the timers of their state machine (R88, R90, R117, R119, R485), and what happens at their ports (R22, R23, R100,
R115, R416). -/

namespace Sys2Proof.Machine

/-! ## What a line and a port hold after an update. -/

@[simp] theorem State.withLine_lineOf (s : State) (l : Line) (f : LineState → LineState) : (s.withLine l f).lineOf l = f (s.lineOf l) := by cases l <;> rfl

@[simp] theorem LineState.withPort_portOf (x : LineState) (d : Side) (f : PortState → PortState) : (x.withPort d f).portOf d = f (x.portOf d) := by
  cases d <;> rfl

@[simp] theorem State.set_lineOf (s : State) (r : Reg) (v : Nat) (l : Line) : (s.set r v).lineOf l = s.lineOf l := by
  cases l
  · exact s.set_lineA r v
  · exact s.set_lineB r v

@[simp] theorem State.setLine_lineOf (s : State) (l : Line) (v : Nat) (q : Line) : (s.setLine l v).lineOf q = s.lineOf q := s.set_lineOf _ v q

@[simp] theorem State.withLine_linkUp (s : State) (l : Line) (f : LineState → LineState) (p : BackbonePort) : (s.withLine l f).linkUp p = s.linkUp p := by
  cases l <;> rfl

@[simp] theorem State.withLine_forerunner (s : State) (l q : Line) (f : LineState → LineState) : (s.withLine l f).forerunner q = s.forerunner q := by
  cases l <;> rfl

/-! ## Enabling and disabling -/

section
variable (s : State) (l : Line)

theorem exec_lineEnable_unpowered (h : s.powered (.gtb l) = false) : exec (.lineEnable l) s = .next s := by
  change execLineEnable l s = _
  rw [execLineEnable, h, if_neg Bool.false_ne_true]

theorem exec_lineDisable_unpowered (h : s.powered (.gtb l) = false) : exec (.lineDisable l) s = .next s := by
  change execLineDisable l s = _
  rw [execLineDisable, h, if_neg Bool.false_ne_true]

/-- EN set: the conditions of its setting are looked at with EN set already. -/
theorem exec_lineEnable (h : s.powered (.gtb l) = true) (hen : s.flag (GTB.LINE_CTRL_EN l) = false) {u : State}
    (hu : u = (s.stampConfig (.gtb l)).setFlag (GTB.LINE_CTRL_EN l) true) :
    exec (.lineEnable l) s = .next ((if u.checkedConditions then u else u.raiseCfgBad).applyLineConditions l) := by
  subst hu
  change execLineEnable l s = _
  rw [execLineEnable, if_pos h, State.writeLineEnable, hen]
  simp only [Bool.false_bne, State.when, Bool.true_and, Bool.not_eq_true', if_true]
  cases ((s.stampConfig (.gtb l)).setFlag (GTB.LINE_CTRL_EN l) true).checkedConditions <;> rfl

theorem exec_lineDisable (h : s.powered (.gtb l) = true) (hen : s.flag (GTB.LINE_CTRL_EN l) = true) :
    exec (.lineDisable l) s = .next (((s.stampConfig (.gtb l)).setFlag (GTB.LINE_CTRL_EN l) false).applyLineConditions l) := by
  change execLineDisable l s = _
  rw [execLineDisable, if_pos h, State.writeLineEnable, hen]
  rfl

/-! ## Timers of the state machine -/

theorem exec_listenTimerExpiry (hst : s.lineState l = lnLISTEN) (hw : s.forming.relinkWait = false) (he : s.setting GTB.FORM_CFG_START_ELIG = 1)
    (hf : s.followsElsewhere l = false) : exec (.listenTimerExpiry l) s = .next (s.enterColdStart l) := by
  change execListenTimerExpiry l s = _
  simp [execListenTimerExpiry, hst, hw, he, hf]

theorem exec_integrateTimeout (hst : s.lineState l = lnINTEGRATE) : exec (.integrateTimeout l) s = .next (s.enterListen l) :=
  congrArg Host.Outcome.next (if_pos hst)

theorem exec_passiveTmoExpiry (hst : s.lineState l = lnPASSIVE) :
    exec (.passiveTmoExpiry l) s = .next (if (s.lineOf l).holdCrossed then s else s.enterListen l) := by
  change execPassiveTmoExpiry l s = _
  cases h : (s.lineOf l).holdCrossed <;> simp [execPassiveTmoExpiry, hst, h]

theorem exec_inaugTrayTimeout (hst : s.lineState l = lnINAUGURATE) (hf : s.forming.finalList = none) :
    exec (.inaugTrayTimeout l) s = .next (s.enterListen l) := by
  change execInaugTrayTimeout l s = _
  simp [execInaugTrayTimeout, hst, hf]

/-- None of the timers acts in RUN. -/
theorem exec_lineTimers_in_run (hst : s.lineState l = lnRUN) : exec (.listenTimerExpiry l) s = .next s ∧ exec (.integrateTimeout l) s = .next s
    ∧ exec (.passiveTmoExpiry l) s = .next s ∧ exec (.inaugTrayTimeout l) s = .next s := by
  have hother : ∀ n, lnRUN ≠ n → s.lineState l ≠ n := fun n h => hst ▸ h
  refine ⟨?_, congrArg Host.Outcome.next (if_neg (hother _ (by decide))), ?_, congrArg Host.Outcome.next (if_neg (hother _ (by decide)))⟩
  · change execListenTimerExpiry l s = _
    simp [execListenTimerExpiry, hother lnLISTEN (by decide)]
  · change execPassiveTmoExpiry l s = _
    simp [execPassiveTmoExpiry, hother lnPASSIVE (by decide)]

theorem exec_relinkExpiry (hw : s.forming.relinkWait = true) : exec .relinkExpiry s = .next (
    if s.forming.wasStarter then s.served.foldl (fun u k => if u.lineState k = lnLISTEN then u.enterColdStart k else u)
      (s.withForming fun f => { f with relinkWait := false })
    else s.withForming fun f => { f with relinkWait := false }) :=
  congrArg Host.Outcome.next (if_pos hw)

/-! ## LISTEN -/

theorem State.enterListen_get (q : Reg) (hst : q.key ≠ (GTB.FORM_STAT_STATE l).key) (ho : q.key ≠ (GTB.TRAY_STAT_ORIGIN l).key)
    (hm : q.key ≠ (GTB.TRAY_STAT_MISS_RUN l).key) (hc : q.key ≠ (GTB.FORM_STAT_CRUMB l).key) : (s.enterListen l).get q = s.get q := by
  rw [State.enterListen, State.get_set_ne _ _ _ _ hc, State.get_set_ne _ _ _ _ hm, State.get_set_ne _ _ _ _ ho, State.withLine_get, State.setLine,
    State.get_set_ne _ _ _ _ hst]

theorem State.enterListen_lineState : (s.enterListen l).lineState l = lnLISTEN := by
  rw [State.lineState, State.enterListen, State.get_set_ne _ _ _ _ (by cases l <;> decide), State.get_set_ne _ _ _ _ (by cases l <;> decide),
    State.get_set_ne _ _ _ _ (by cases l <;> decide), State.withLine_get, State.setLine, State.get_set_of_lt _ _ _ (by cases l <;> decide)]

theorem State.enterListen_lineState_other : (s.enterListen l).lineState l.other = s.lineState l.other :=
  s.enterListen_get l _ (by cases l <;> decide) (by cases l <;> decide) (by cases l <;> decide) (by cases l <;> decide)

theorem State.enterListen_posOn : (s.enterListen l).posOn l = s.posOn l :=
  s.enterListen_get l _ (by cases l <;> decide) (by cases l <;> decide) (by cases l <;> decide) (by cases l <;> decide)

theorem State.enterListen_crumb : (s.enterListen l).get (GTB.FORM_STAT_CRUMB l) = 0 := State.get_set_of_lt _ _ _ (by cases l <;> decide)

theorem State.enterListen_missRun : (s.enterListen l).get (GTB.TRAY_STAT_MISS_RUN l) = 0 := by
  rw [State.enterListen, State.get_set_ne _ _ _ _ (by cases l <;> decide), State.get_set_of_lt _ _ _ (by cases l <;> decide)]

theorem State.enterListen_origin : (s.enterListen l).flag (GTB.TRAY_STAT_ORIGIN l) = false := by
  rw [State.flag, State.enterListen, State.get_set_ne _ _ _ _ (by cases l <;> decide), State.get_set_ne _ _ _ _ (by cases l <;> decide),
    State.get_set_of_lt _ _ _ (by cases l <;> decide)]
  rfl

theorem State.enterListen_lineOf : (s.enterListen l).lineOf l = { s.lineOf l with
    noRoomSeen := false, goodRun := 0, expected := none, writing := false, claiming := none, actNext := false, stopNext := false, missThis := false } := by
  simp [State.enterListen]

end

/-! ## Ports -/

section
variable (s : State) (p : BackbonePort)

theorem exec_portLinkChange (up : Bool) (h : s.powered (.gtb p.line) = true) (hup : s.linkUp p ≠ up) {u : State}
    (hu : u = ((s.setLink p up).setFlag (MAC.MAC_STAT_LINK (8 + portIndex p)) up).raiseMac (8 + portIndex p) 0) :
    exec (.portLinkChange p up) s = .next (((u.withLine p.line fun y => y.withPort p.side fun q => { q with
      settled := false, rxOwn := none, delays := []
      linkUpCycle := if up then u.cycle else q.linkUpCycle
      linkUpAt := if up then u.ltcNs else q.linkUpAt }).topologyEvent p true).refreshLineEnd p.line) := by
  subst hu
  change execPortLinkChange p up s = _
  rw [execPortLinkChange, h, if_neg (by simpa using hup)]

theorem exec_portLinkChange_same : exec (.portLinkChange p (s.linkUp p)) s = .next s := by
  change execPortLinkChange p _ s = _
  simp [execPortLinkChange]

theorem exec_couplingWindowExpiry_coupler_only (hc : ((s.lineOf p.line).portOf p.side).couplerSeen = true)
    (hl : ((s.lineOf p.line).portOf p.side).linkSeen = false) :
    exec (.couplingWindowExpiry p) s = .next (((s.count (GTB.CPL_ONLY_CNT p.line)).raise (.gtb p.line) 28).withLine p.line fun y =>
      y.withPort p.side fun q => { q with linkSeen := false, couplerSeen := false }) := by
  change execCouplingWindowExpiry p s = _
  simp [execCouplingWindowExpiry, hc, hl]

theorem exec_cplClosedChange_first (closed : Bool) (h : s.powered .cpl = true) (hs : (s.tag (portIndex p)).started = false) :
    exec (.cplClosedChange p closed) s = .next ((s.setFlag (CPL.HEAD_STAT_CLOSED (portIndex p)) closed).withTag (portIndex p) fun x =>
      { x with started := true }) := by
  change execCplClosedChange p closed s = _
  simp [execCplClosedChange, h, State.closedChange, hs]

/-- Counting a version-1 frame and ending a line keep the line's state. -/
theorem State.takeV1_not_in_run (h : s.lineState p.line ≠ lnRUN) :
    s.takeV1 p = (((s.count (GTB.V1_FRAME_CNT p.line)).withLine p.line fun y => y.withPort p.side fun q => { q with v1This := true }).withForming
      fun f => { f with frSeen := true }).refreshLineEnd p.line := by
  have hend : ∀ t : State, (t.refreshLineEnd p.line).lineState p.line = t.lineState p.line := fun t =>
    t.get_setFlag_ne _ _ _ (by cases p.line <;> decide)
  have hcount : (s.count (GTB.V1_FRAME_CNT p.line)).lineState p.line = s.lineState p.line := s.get_count_ne _ _ (by cases p.line <;> decide)
  rw [State.takeV1, hend, State.withForming_lineState, State.withLine_lineState, hcount, if_neg (by simp [h])]

theorem exec_v1FrameRx_not_in_run (hl : s.live (.gtb p.line) = true) (ho : s.lineState p.line ≠ lnOFF) (hf : s.forerunner p.line = false)
    (hr : s.lineState p.line ≠ lnRUN) :
    exec (.v1FrameRx p) s = .next ((((s.count (GTB.V1_FRAME_CNT p.line)).withLine p.line fun y =>
      y.withPort p.side fun q => { q with v1This := true }).withForming fun f => { f with frSeen := true }).refreshLineEnd p.line) := by
  change execV1FrameRx p s = _
  rw [execV1FrameRx, if_pos (by simp [hl, ho, hf]), s.takeV1_not_in_run p hr]

theorem State.working_of_settled (hl : s.linkUp p = true) (hthis : ((s.lineOf p.line).portOf p.side).v1This = false)
    (hlast : ((s.lineOf p.line).portOf p.side).v1Last = false) :
    (s.withLine p.line fun y => y.withPort p.side fun q => { q with settled := true }).working p = true := by
  simp [State.working, hl, hthis, hlast]

theorem State.working_of_v1 (h : ((s.lineOf p.line).portOf p.side).v1This = true ∨ ((s.lineOf p.line).portOf p.side).v1Last = true)
    (hf : s.forerunner p.line = false) : s.working p = false := by
  rcases h with h | h <;> simp [State.working, h, hf]

end

end Sys2Proof.Machine

namespace Sys2Proof.Proofs
open Sys2Proof.Machine

/-- Settles O18: each command in the state it acts in; what LISTEN clears is read off the writes that enter it. -/
theorem lineCommands : Obligations.LineCommands := fun s l =>
  ⟨fun _ hu h hen => exec_lineEnable s l h hen hu, fun h => ⟨exec_lineEnable_unpowered s l h, exec_lineDisable_unpowered s l h⟩,
    exec_lineDisable s l, exec_listenTimerExpiry s l, exec_integrateTimeout s l,
    fun hst hc => by rw [exec_passiveTmoExpiry s l hst, hc, if_neg Bool.false_ne_true], fun hst hc => by rw [exec_passiveTmoExpiry s l hst, if_pos hc],
    exec_inaugTrayTimeout s l, fun hw hs => by rw [exec_relinkExpiry s hw, hs, if_neg Bool.false_ne_true],
    fun hw hs => by rw [exec_relinkExpiry s hw, if_pos hs], exec_lineTimers_in_run s l,
    s.enterListen_lineState l, s.enterListen_posOn l, s.enterListen_crumb l, s.enterListen_origin l, s.enterListen_missRun l,
    by rw [s.enterListen_lineOf l], by rw [s.enterListen_lineOf l], s.enterListen_lineState_other l⟩

/-- Settles O19: each event with what the port holds of it. -/
theorem portCommands : Obligations.PortCommands := fun s p =>
  ⟨fun up h hup _ hu => exec_portLinkChange s p up h hup hu, exec_portLinkChange_same s p, fun h => congrArg Host.Outcome.next (if_pos h),
    fun h => congrArg Host.Outcome.next (if_neg (by simp [h])), exec_couplingWindowExpiry_coupler_only s p, exec_cplClosedChange_first s p,
    exec_v1FrameRx_not_in_run s p, fun hl ht hp _ => s.working_of_settled p hl ht hp, s.working_of_v1 p⟩

end Sys2Proof.Proofs
end

section
/-! Forming trays: what the node takes from a frame that it reads (R121), cold start (R95 to R98) and the seek round (R101). -/

namespace Sys2Proof.Machine

/-! ## A frame that the line reads -/

section
variable {s : State} {info : FrameInfo} {hdr : TrayHeader}

/-- What a line has seen to when it reads a frame. -/
structure State.Reads (s : State) (info : FrameInfo) (hdr : TrayHeader) : Prop where
  live : s.live (.gtb info.port.line) = true
  on : s.lineState info.port.line ≠ lnOFF
  etype : hdr.etype.toNat = s.get (GTB.TRAY_CFG_ETYPE info.port.line)
  ownLine : info.otherLine = false
  working : s.working info.port = true
  fcs : info.fcsOk = true
  parity : info.parity = false
  stray : info.stray = none
  version : hdr.version = if s.forerunner info.port.line then 1 else 2
  kind_ne : hdr.kind ≠ 0
  kind_le : hdr.kind.toNat ≤ 4

theorem State.readsTray_iff : s.readsTray info hdr = true ↔ s.Reads info hdr := by
  constructor
  · intro h
    simp only [State.readsTray, Bool.and_eq_true, bne_iff_ne, ne_eq, decide_eq_true_eq, Bool.not_eq_true', Option.isNone_iff_eq_none, beq_iff_eq] at h
    obtain ⟨⟨⟨⟨⟨⟨⟨⟨⟨⟨live, on⟩, etype⟩, own⟩, working⟩, fcs⟩, parity⟩, stray⟩, version⟩, kind_ne⟩, kind_le⟩ := h
    exact ⟨live, on, etype, own, working, fcs, parity, stray, version, kind_ne, kind_le⟩
  · rintro ⟨live, on, etype, own, working, fcs, parity, stray, version, kind_ne, kind_le⟩
    simp [State.readsTray, live, on, etype, own, working, fcs, parity, stray, version, kind_le]
    exact kind_ne

variable (h : s.readsTray info hdr = true)
include h

theorem clean_of_readsTray : info.clean = true := by
  have h := State.readsTray_iff.mp h
  simp [FrameInfo.clean, h.fcs, h.parity]

/-- A frame that the line reads is recognised, and no stray write stands in it. -/
theorem State.recognise_of_readsTray (bytes : List Byte) (ended : Bool) (mask : MaskBody) (read : State → State) :
    s.recognise info hdr bytes ended mask read = read s := by
  have h := State.readsTray_iff.mp h
  simp [State.recognise, h.on, h.etype, State.guardStray, h.stray]

/-- A frame that the line reads is admitted unchanged. -/
theorem State.admitFrame_of_readsTray (raw : List Byte) (pass : State → Bool → State) : s.admitFrame info hdr raw pass = (s, true) := by
  have h := State.readsTray_iff.mp h
  have hmode : ¬ (hdr.version = 1 ∧ s.forerunner info.port.line = false) := by
    rintro ⟨hv, hf⟩
    rw [h.version, hf] at hv
    exact absurd hv (by decide)
  simp only [State.admitFrame, h.live, beq_eq_false_iff_ne.mpr h.on, h.ownLine, h.working, h.fcs, ← h.version, State.when_false, Bool.not_true, Bool.not_false,
    Bool.true_and, Bool.or_false, Bool.false_eq_true, if_false, Bool.and_eq_true, beq_iff_eq, Bool.not_eq_true', hmode, bne_self_eq_false]
  rw [if_neg (by simpa using ⟨h.kind_ne, h.kind_le⟩)]

end

theorem State.readInaug_of_not_inaug (s : State) (hdr : TrayHeader) (h : hdr.inaug = false) : s.readInaug hdr = s := by
  simp [State.readInaug, h]

/-! ## A frame that a line sends -/

/-- Where the line may send, what it hands to a port is sent. -/
theorem State.originate_sent (s : State) (l : Line) (p : BackbonePort) (len : Nat) (inWindow : Bool) (mk : Bool → Sent) (h : s.mayTransmit (.gtb l) = true) :
    ∃ good, (s.originate l p len inWindow mk).sent = s.sent ++ [mk good] ∧ (s.originate l p len inWindow mk).mem = s.mem
      ∧ (s.originate l p len inWindow mk).forming = s.forming := by
  simp only [State.originate, h, Bool.not_true, Bool.false_eq_true, if_false]
  cases inWindow && !s.flag (GTB.TRAY_STAT_GRD_CLOSED l)
  case false => exact ⟨false, rfl, rfl, rfl⟩
  case true => exact ⟨true, rfl, rfl, rfl⟩

@[simp] theorem State.withForming_mayTransmit (s : State) (f : Forming → Forming) (p : Page) : (s.withForming f).mayTransmit p = s.mayTransmit p := rfl

@[simp] theorem State.withLine_mayTransmit (s : State) (l : Line) (f : LineState → LineState) (p : Page) : (s.withLine l f).mayTransmit p = s.mayTransmit p := by
  cases l <;> rfl

/-- Setting the note of where INAUG starts (R99) touches nothing but that note of one line. -/
theorem State.openMark_observe {α : Type} (obs : State → α) (s : State) (l : Line) (h : TrayHeader)
    (hobs : obs (s.withLine l fun x => { x with inaugPending := false, inaugMark := some h.cycle.toNat }) = obs s) : obs (s.openMark l h) = obs s := by
  rw [State.openMark, State.when]
  split
  · exact hobs
  · rfl

@[simp] theorem State.openMark_mayTransmit (s : State) (l : Line) (h : TrayHeader) (p : Page) : (s.openMark l h).mayTransmit p = s.mayTransmit p :=
  State.openMark_observe (·.mayTransmit p) s l h (s.withLine_mayTransmit l _ p)

@[simp] theorem State.openMark_sent (s : State) (l : Line) (h : TrayHeader) : (s.openMark l h).sent = s.sent :=
  State.openMark_observe State.sent s l h (by cases l <;> rfl)

@[simp] theorem State.openMark_mem (s : State) (l : Line) (h : TrayHeader) : (s.openMark l h).mem = s.mem :=
  State.openMark_observe State.mem s l h (by cases l <;> rfl)

@[simp] theorem State.openMark_regs (s : State) (l : Line) (h : TrayHeader) : (s.openMark l h).regs = s.regs :=
  State.openMark_observe State.regs s l h (by cases l <;> rfl)

@[simp] theorem State.openMark_forming (s : State) (l : Line) (h : TrayHeader) : (s.openMark l h).forming = s.forming :=
  State.openMark_observe State.forming s l h (by cases l <;> rfl)

@[simp] theorem State.openMark_twin (s : State) (l : Line) (h : TrayHeader) : (s.openMark l h).twin = s.twin :=
  State.openMark_observe State.twin s l h (by cases l <;> rfl)

@[simp] theorem State.openMark_nodeUid (s : State) (l : Line) (h : TrayHeader) : (s.openMark l h).nodeUid = s.nodeUid :=
  State.openMark_observe State.nodeUid s l h (by cases l <;> rfl)

@[simp] theorem State.openMark_working (s : State) (l : Line) (h : TrayHeader) (p : BackbonePort) : (s.openMark l h).working p = s.working p :=
  State.openMark_observe (·.working p) s l h (by obtain ⟨k, d⟩ := p; cases l <;> cases k <;> cases d <;> rfl)

@[simp] theorem State.withForming_nodeUid (s : State) (f : Forming → Forming) : (s.withForming f).nodeUid = s.nodeUid := rfl

@[simp] theorem State.withForming_twin (s : State) (f : Forming → Forming) : (s.withForming f).twin = s.twin := rfl

@[simp] theorem State.withForming_working (s : State) (f : Forming → Forming) (p : BackbonePort) : (s.withForming f).working p = s.working p := by
  obtain ⟨k, d⟩ := p
  cases k <;> rfl

/-- The forming block of a Starter names it, and the round and the count it is made for. -/
theorem State.formingBlock_of_starter (s : State) (l : Line) (d : Side) (a : Instant) (n k : Nat) (h : s.flag TIME.TIME_STAT_STARTER = true) :
    (s.formingBlock l d a n k).suid = s.nodeUid ∧ (s.formingBlock l d a n k).round = BitVec.ofNat 8 n
      ∧ (s.formingBlock l d a n k).followers = BitVec.ofNat 8 k := by
  rw [State.formingBlock, if_pos h]
  exact ⟨rfl, rfl, rfl⟩

/-- The round and the count stand in every block, whoever is Starter. -/
theorem State.formingBlock_round (s : State) (l : Line) (d : Side) (a : Instant) (n k : Nat) : (s.formingBlock l d a n k).round = BitVec.ofNat 8 n := by
  rw [State.formingBlock]
  split
  · rfl
  · cases s.forming.settings <;> rfl

/-! ## Cold start -/

section
variable (s : State) (l : Line) (a : Instant)

theorem exec_coldStartTrayTx (hst : s.lineState l = lnCOLDSTART) (hl : s.live (.gtb l) = true) :
    exec (.coldStartTrayTx l a) s = .next ((s.withLine l fun x => { x with
      coldNumber := min 8 ((s.lineOf l).coldNumber + 1), followersSum := 0 }).sendColdStart l a (min 8 ((s.lineOf l).coldNumber + 1))) :=
  congrArg Host.Outcome.next (if_pos (by simp [hst, hl]))

theorem exec_coldStartTrayTx_other (hst : s.lineState l ≠ lnCOLDSTART) : exec (.coldStartTrayTx l a) s = .next s :=
  congrArg Host.Outcome.next (if_neg (by simp [hst]))

theorem exec_loneProbeExpiry (hst : s.lineState l = lnLONE) (hl : s.live (.gtb l) = true) :
    exec (.loneProbeExpiry l a) s = .next (s.sendColdStart l a 1) :=
  congrArg Host.Outcome.next (if_pos (by simp [hst, hl]))

theorem exec_loneProbeExpiry_other (hst : s.lineState l ≠ lnLONE) : exec (.loneProbeExpiry l a) s = .next s :=
  congrArg Host.Outcome.next (if_neg (by simp [hst]))

end

section
variable {s : State} {info : FrameInfo} {hdr : TrayHeader} (b : FormingBlock) (h : s.readsTray info hdr = true)
include h

/-- A worse cold-start tray of another Starter is noted, counted and goes no further (R97). -/
theorem exec_coldStartTrayRx_worse (hret : hdr.ret = false) (hown : b.suid ≠ s.nodeUid) (hw : s.worseThanBest info.port.line b = true)
    (hst : s.lineState info.port.line ≠ lnLONE) :
    exec (.coldStartTrayRx info hdr b) s = .next ((s.noteKey (contentionKey b)).count (GTB.COLD_DROP_CNT info.port.line)) := by
  change execColdStartTrayRx info hdr b s = _
  have hst' : (s.noteKey (contentionKey b)).lineState info.port.line ≠ lnLONE := hst
  simp [execColdStartTrayRx, State.recognise_of_readsTray h, State.coldStartRx, State.admitFrame_of_readsTray h, clean_of_readsTray h, hret, hown, hw, hst',
    State.dropCold]

/-- The node's own tray comes back with the followers it has gathered (R98). -/
theorem exec_coldStartTrayRx_own_return (hret : hdr.ret = true) (hown : b.suid = s.nodeUid) (hst : s.lineState info.port.line = lnCOLDSTART) :
    exec (.coldStartTrayRx info hdr b) s = .next (((s.takeReturn info).takePortReturn info).withLine info.port.line fun x =>
      { x with followersSum := x.followersSum + b.followers.toNat, coldAny := x.coldAny || b.followers != 0 }) := by
  change execColdStartTrayRx info hdr b s = _
  have hst' : ((s.takeReturn info).takePortReturn info).lineState info.port.line = lnCOLDSTART := by
    simpa [State.takeReturn, State.takePortReturn] using hst
  simp [execColdStartTrayRx, State.recognise_of_readsTray h, State.coldStartRx, State.admitFrame_of_readsTray h, clean_of_readsTray h, hret, hown, hst']

end

/-! ## The seek round -/

/-- What a due seek round begins with: the Starter's epoch, round 1, and INAUG where it waits. -/
def State.startSeek (s : State) (l : Line) (a : Instant) : State :=
  let u := s.withForming fun f => { f with
    round := 1, starterEpoch := BitVec.ofNat 16 (s.get (GTB.FORM_EPOCH l)), epochOf := some s.nodeUid }
  u.openMark l (u.formingHeader l a 3 false)

/-- The line notes the departure of the seek tray at its front port. -/
def State.noteSeekOut (s : State) (l : Line) (a : Instant) : State :=
  (s.withLine l fun x => { x with ownA := some a, ownB := none }).withLine l fun x =>
    x.withPort .front fun q => { q with coldOut := some a, coldBack := none }

section
variable (s : State) (l : Line) (a : Instant)

@[simp] theorem State.startSeek_sent : (s.startSeek l a).sent = s.sent := State.openMark_sent _ _ _
@[simp] theorem State.startSeek_mem : (s.startSeek l a).mem = s.mem := State.openMark_mem _ _ _
@[simp] theorem State.startSeek_regs : (s.startSeek l a).regs = s.regs := State.openMark_regs _ _ _
@[simp] theorem State.startSeek_twin : (s.startSeek l a).twin = s.twin := State.openMark_twin _ _ _
@[simp] theorem State.startSeek_nodeUid : (s.startSeek l a).nodeUid = s.nodeUid := State.openMark_nodeUid _ _ _
@[simp] theorem State.startSeek_mayTransmit (p : Page) : (s.startSeek l a).mayTransmit p = s.mayTransmit p := State.openMark_mayTransmit _ _ _ _
@[simp] theorem State.startSeek_forming : (s.startSeek l a).forming = { s.forming with
    round := 1, starterEpoch := BitVec.ofNat 16 (s.get (GTB.FORM_EPOCH l)), epochOf := some s.nodeUid } := State.openMark_forming _ _ _
@[simp] theorem State.startSeek_working (p : BackbonePort) : (s.startSeek l a).working p = s.working p :=
  (State.openMark_working _ _ _ _).trans (s.withForming_working _ p)

theorem exec_seekTrayTx_not_due (h : s.flag TIME.TIME_STAT_STARTER = false ∨ (s.forming.seekCycle.any fun c => decide (c ≤ s.cycle)) = false) :
    exec (.seekTrayTx l a) s = .next s := by
  change execSeekTrayTx l a s = _
  rcases h with h | h <;> simp [execSeekTrayTx, h]

/-- Without a working link at the front port the node is end 1 itself. -/
theorem State.becomeEnd1_forming (s : State) (l : Line) (d : Side) (h : l = .A ∨ s.forming.end1FromA = false) :
    (s.becomeEnd1 l d).forming.end1Port = some d ∧ (s.becomeEnd1 l d).forming.end1 = some s.nodeUid ∧ (s.becomeEnd1 l d).forming.round = s.forming.round := by
  have hnote : s.noteEnd1 l s.nodeUid = s.withForming fun f => { f with end1 := some s.nodeUid, end1FromA := f.end1FromA || l == .A } := by
    rcases h with h | h <;> simp [State.noteEnd1, h]
  have hfirst : (l == .A || !(s.forming.end1FromA || l == .A) || s.twin) = true := by
    rcases h with h | h <;> simp [h]
  rw [State.becomeEnd1, hnote, State.when, if_pos]
  · exact ⟨rfl, rfl, rfl⟩
  · simpa using hfirst

theorem State.becomeEnd1_frame (s : State) (l : Line) (d : Side) : (s.becomeEnd1 l d).sent = s.sent ∧ (s.becomeEnd1 l d).regs = s.regs
    ∧ (s.becomeEnd1 l d).mem = s.mem := by
  have hnote : ∀ t : State, (t.noteEnd1 l s.nodeUid).sent = t.sent ∧ (t.noteEnd1 l s.nodeUid).regs = t.regs ∧ (t.noteEnd1 l s.nodeUid).mem = t.mem := by
    intro t
    rw [State.noteEnd1, State.when]
    split <;> exact ⟨rfl, rfl, rfl⟩
  rw [State.becomeEnd1, State.when]
  split <;> exact hnote s

variable (hs : s.flag TIME.TIME_STAT_STARTER = true) (hdue : (s.forming.seekCycle.any fun c => decide (c ≤ s.cycle)) = true) (hl : s.live (.gtb l) = true)
  (hst : s.lineState l = lnINAUGURATE)
include hs hdue hl hst

/-- A due seek round in INAUGURATE: a tray by the working front port, or this node is end 1. -/
theorem exec_seekTrayTx_due : ∃ hdr b len ok, b.suid = s.nodeUid ∧ b.round = 1 ∧ hdr.kind = 3 ∧ hdr.hop = 1
    ∧ exec (.seekTrayTx l a) s = .next (if (s.startSeek l (s.txInstant ⟨l, .front⟩ a)).working ⟨l, .front⟩ then
        ((s.startSeek l (s.txInstant ⟨l, .front⟩ a)).noteSeekOut l (s.txInstant ⟨l, .front⟩ a)).originate l ⟨l, .front⟩ len ok
          fun good => .discovery ⟨l, .front⟩ hdr b ⟨0, [], []⟩ good
      else (s.startSeek l (s.txInstant ⟨l, .front⟩ a)).becomeEnd1 l .front) := by
  have hon : (s.lineState l != lnOFF) = true := by rw [hst]; decide
  let u := (s.startSeek l (s.txInstant ⟨l, .front⟩ a)).withLine l fun x => { x with ownA := some (s.txInstant ⟨l, .front⟩ a), ownB := none }
  have hstarter : u.flag TIME.TIME_STAT_STARTER = true := (State.withLine_flag _ _ _ _).trans ((State.flag_congr (by rw [State.get, State.startSeek_regs]; rfl)).trans hs)
  have hblock := u.formingBlock_of_starter l .front (s.txInstant ⟨l, .front⟩ a) 1 0 hstarter
  have huid : u.nodeUid = s.nodeUid := by cases l <;> exact State.startSeek_nodeUid _ _ _
  refine ⟨u.formingHeader l (s.txInstant ⟨l, .front⟩ a) 3 false, u.formingBlock l .front (s.txInstant ⟨l, .front⟩ a) 1 0, ?_⟩
  change ∃ len ok, _ ∧ _ ∧ _ ∧ _ ∧ execSeekTrayTx l a s = _
  simp only [execSeekTrayTx, hs, hdue, hl, hon, Bool.true_and, if_true, if_pos hst]
  exact ⟨_, _, hblock.1.trans huid, hblock.2.1, rfl, rfl, rfl⟩

/-- The seek tray leaves by the working front port. -/
theorem exec_seekTrayTx_working (hsilent : s.failSilent = false) (hw : s.working ⟨l, .front⟩ = true) :
    ∃ t hdr b good, exec (.seekTrayTx l a) s = .next t ∧ t.sent = s.sent ++ [.discovery ⟨l, .front⟩ hdr b ⟨0, [], []⟩ good] ∧ t.mem = s.mem
      ∧ b.suid = s.nodeUid ∧ b.round = 1 ∧ hdr.kind = 3 ∧ hdr.hop = 1 ∧ t.forming.round = 1 := by
  have hmay : s.mayTransmit (.gtb l) = true := by simp [State.mayTransmit, hl, hsilent]
  obtain ⟨hdr, b, len, ok, hsuid, hround, hkind, hhop, hexec⟩ := exec_seekTrayTx_due s l a hs hdue hl hst
  rw [State.startSeek_working, if_pos hw] at hexec
  obtain ⟨good, hsent, hmem, hforming⟩ := State.originate_sent ((s.startSeek l (s.txInstant ⟨l, .front⟩ a)).noteSeekOut l (s.txInstant ⟨l, .front⟩ a)) l
    ⟨l, .front⟩ len ok (fun good => .discovery ⟨l, .front⟩ hdr b ⟨0, [], []⟩ good) (by simpa [State.noteSeekOut] using hmay)
  exact ⟨_, hdr, b, good, hexec, by simpa [State.noteSeekOut] using hsent, by simpa [State.noteSeekOut] using hmem, hsuid, hround, hkind, hhop,
    by rw [hforming]; simp [State.noteSeekOut]⟩

/-- Without a link at the front port the node is end 1 itself. -/
theorem exec_seekTrayTx_end1 (hup : s.linkUp ⟨l, .front⟩ = false) (hA : l = .A ∨ s.forming.end1FromA = false) :
    ∃ t, exec (.seekTrayTx l a) s = .next t ∧ t.sent = s.sent ∧ t.regs = s.regs ∧ t.mem = s.mem
      ∧ t.forming.end1Port = some .front ∧ t.forming.round = 1 ∧ t.forming.end1 = some s.nodeUid := by
  obtain ⟨_, _, _, _, _, _, _, _, hexec⟩ := exec_seekTrayTx_due s l a hs hdue hl hst
  rw [State.startSeek_working, if_neg (by simp [State.working, hup])] at hexec
  obtain ⟨hport, hend1, hround⟩ := (s.startSeek l (s.txInstant ⟨l, .front⟩ a)).becomeEnd1_forming l .front (by simpa using hA)
  obtain ⟨hsent, hregs, hmem⟩ := (s.startSeek l (s.txInstant ⟨l, .front⟩ a)).becomeEnd1_frame l .front
  exact ⟨_, hexec, by simpa using hsent, by simpa using hregs, by simpa using hmem, hport, by simpa using hround, by simpa using hend1⟩

end

section
variable {s : State} {info : FrameInfo} {hdr : TrayHeader} (b : FormingBlock) (body : DiscBody) (h : s.readsTray info hdr = true) (hinaug : hdr.inaug = false)
include h hinaug

/-- A seek tray worse than the best key seen is noted, counted and dropped. -/
theorem exec_seekTrayRx_worse (hret : hdr.ret = false) (hw : s.worseThanBest info.port.line b = true) :
    exec (.seekTrayRx info hdr b body) s = .next ((s.noteKey (contentionKey b)).count (GTB.COLD_DROP_CNT info.port.line)) := by
  change execSeekTrayRx info hdr b body s = _
  simp [execSeekTrayRx, State.recognise_of_readsTray h, State.seekRx, State.admitFrame_of_readsTray h, clean_of_readsTray h,
    s.readInaug_of_not_inaug hdr hinaug, hret, hw, State.dropCold]

/-- The Starter's own seek tray comes back with end 1. -/
theorem exec_seekTrayRx_own_return (hret : hdr.ret = true) (hown : b.suid = s.nodeUid) :
    exec (.seekTrayRx info hdr b body) s = .next (((s.takeReturn info).noteEnd1 info.port.line body.end1).takePortReturn info) := by
  have hown' : b.suid = ((s.takeReturn info).noteEnd1 info.port.line body.end1).nodeUid := by
    rw [hown, State.noteEnd1, State.when, State.takeReturn]
    split <;> cases info.port.line <;> rfl
  change execSeekTrayRx info hdr b body s = _
  simp [execSeekTrayRx, State.recognise_of_readsTray h, State.seekRx, State.admitFrame_of_readsTray h, clean_of_readsTray h,
    s.readInaug_of_not_inaug hdr hinaug, hret, ← hown']

end

end Sys2Proof.Machine

namespace Sys2Proof.Proofs
open Sys2Proof.Machine

/-- Settles O20: each tray in the state of the line it belongs to; what arrives is read off the frame that the line reads. -/
theorem coldStartCommands : Obligations.ColdStartCommands := fun s l a =>
  ⟨exec_coldStartTrayTx s l a, exec_coldStartTrayTx_other s l a, exec_loneProbeExpiry s l a, exec_loneProbeExpiry_other s l a,
    fun _ _ b h hret hown hw hst => exec_coldStartTrayRx_worse b h hret hown hw hst, fun _ _ b h hret hown hst => exec_coldStartTrayRx_own_return b h hret hown hst,
    fun h d n k => s.formingBlock_of_starter l d a n k h⟩

/-- Settles O21: a due round begins with the epoch and round 1; then the tray leaves, or this node is end 1. -/
theorem seekCommands : Obligations.SeekCommands := fun s l a =>
  ⟨exec_seekTrayTx_not_due s l a, fun hs hdue hl hsilent hst hw => exec_seekTrayTx_working s l a hs hdue hl hst hsilent hw,
    fun hs hdue hl hst hup hA => exec_seekTrayTx_end1 s l a hs hdue hl hst hup hA,
    fun _ _ b body h hret hinaug hw => exec_seekTrayRx_worse b body h hinaug hret hw,
    fun _ _ b body h hret hinaug hown => exec_seekTrayRx_own_return b body h hinaug hret hown⟩

end Sys2Proof.Proofs
end

section
/-! The count tray of an end 1 whose line notes another side than the one on which it became end 1 (R102). -/

namespace Sys2Proof.Machine

/-- End 1 in INAUGURATE on line A: the line notes end 1 on its front side and its rear port works, while the node became end 1 by its rear port. -/
def end1ByRear : State :=
  ((((((State.reset.set PWR.PD_STAT_ON 0xFFFF).set SEC.LC_STATE lcPROVISIONED).set (HDR.PAGE_CTRL_ENABLE (.gtb .A)) 1).set
    (GTB.FORM_STAT_STATE .A) lnINAUGURATE).set (GTB.TRAY_STAT_REAR_UP .A) 1).withLine .A fun x =>
      { x with end1Side := some .front, rear := { x.rear with settled := true } }).withForming fun f =>
    { f with end1 := some State.reset.nodeUid, end1Port := some .rear }

/-- It stands where the count tray is to be sent, with a working port away from the side that the line notes. -/
theorem end1ByRear_due : end1ByRear.isEnd1 = true ∧ end1ByRear.lineState .A = lnINAUGURATE ∧ end1ByRear.live (.gtb .A) = true
    ∧ end1ByRear.forming.finalList = none ∧ end1ByRear.failSilent = false ∧ end1ByRear.working (end1ByRear.downstream .A) = true := by decide

/-- The round turns the line to the side that end 1 knows; the port away from it does not work, and nothing is sent. -/
theorem end1ByRear_sends_nothing : (end1ByRear.sendRound .A 0 2 false).sent = [] := by decide

end Sys2Proof.Machine

namespace Sys2Proof.Proofs
open Sys2Proof.Machine

/-- Refutes O22: its clause on the count tray names the port away from the side that the line noted before, but the round first turns the line to the
side by which the node became end 1; where the two differ, the tray does not leave by the port named. -/
theorem not_discoveryCommands : ¬ Obligations.DiscoveryCommands := by
  intro h
  obtain ⟨hend1, hst, hlive, hfinal, hsilent, hworking⟩ := end1ByRear_due
  obtain ⟨hexec, hsends⟩ := (h end1ByRear .A 0).1 hend1 hst hlive hfinal
  obtain ⟨t, _, _, _, ht, hsent, -⟩ := hsends hsilent hworking
  have heq : t = end1ByRear.sendRound .A 0 2 false := Host.Outcome.next.inj (ht.symm.trans hexec)
  rw [heq, end1ByRear_sends_nothing] at hsent
  simp at hsent

end Sys2Proof.Proofs
end

section
/-! Data trays: how one leaves its origin (R14, R59, R121, R486), and what a node does with the frames that arrive (R142 to R151). -/

namespace Sys2Proof.Machine

/-! ## What decides whether a port of a line works -/

/-- The fields that show a line's state, its mode and its links. -/
def lineViewKeys (l : Line) : List Nat :=
  [(GTB.FORM_STAT_STATE l).key, (GTB.FORM_STAT_MODE l).key, (GTB.TRAY_STAT_FRONT_UP l).key, (GTB.TRAY_STAT_REAR_UP l).key]

/-- A line's state, mode and links, and its two ports. -/
structure State.SameLine (l : Line) (s t : State) : Prop where
  get : ∀ q : Reg, q.key ∈ lineViewKeys l → t.get q = s.get q
  front : (t.lineOf l).front = (s.lineOf l).front
  rear : (t.lineOf l).rear = (s.lineOf l).rear

section
variable {l : Line} {s t u : State}

theorem State.SameLine.refl (l : Line) (s : State) : s.SameLine l s := ⟨fun _ _ => rfl, rfl, rfl⟩

theorem State.SameLine.trans (h : s.SameLine l t) (k : t.SameLine l u) : s.SameLine l u :=
  ⟨fun q hq => (k.get q hq).trans (h.get q hq), k.front.trans h.front, k.rear.trans h.rear⟩

theorem State.SameLine.lineState_eq (h : s.SameLine l t) : t.lineState l = s.lineState l := h.get _ (by simp [lineViewKeys])

theorem State.SameLine.working_eq (h : s.SameLine l t) (d : Side) : t.working ⟨l, d⟩ = s.working ⟨l, d⟩ := by
  have hmode : t.forerunner l = s.forerunner l := State.flag_congr (h.get _ (by simp [lineViewKeys]))
  have hfront : t.flag (GTB.TRAY_STAT_FRONT_UP l) = s.flag (GTB.TRAY_STAT_FRONT_UP l) := State.flag_congr (h.get _ (by simp [lineViewKeys]))
  have hrear : t.flag (GTB.TRAY_STAT_REAR_UP l) = s.flag (GTB.TRAY_STAT_REAR_UP l) := State.flag_congr (h.get _ (by simp [lineViewKeys]))
  cases d
  · simp only [State.working, State.linkUp, LineState.portOf, hmode, hfront, h.front]
  · simp only [State.working, State.linkUp, LineState.portOf, hmode, hrear, h.rear]

theorem State.SameLine.set (h : s.SameLine l t) (r : Reg) (v : Nat) (hr : r.key ∉ lineViewKeys l) : s.SameLine l (t.set r v) :=
  h.trans ⟨fun q hq => t.get_set_ne r q v fun heq => hr (heq ▸ hq), by rw [State.set_lineOf], by rw [State.set_lineOf]⟩

theorem State.SameLine.withLine (h : s.SameLine l t) (f : LineState → LineState) (hf : ∀ x, (f x).front = x.front ∧ (f x).rear = x.rear) :
    s.SameLine l (t.withLine l f) :=
  h.trans ⟨fun q _ => t.withLine_get l f q, by rw [State.withLine_lineOf]; exact (hf _).1, by rw [State.withLine_lineOf]; exact (hf _).2⟩

theorem State.sameLine_withLine (l : Line) (s : State) {f : LineState → LineState} (hf : ∀ x, (f x).front = x.front ∧ (f x).rear = x.rear) :
    s.SameLine l (s.withLine l f) := (State.SameLine.refl l s).withLine f hf

theorem State.SameLine.each {α : Type} {f : α → State → State} (h : s.SameLine l t) (hf : ∀ a (u : State), u.SameLine l (f a u)) (as : List α) :
    s.SameLine l (t.each as f) := by
  induction as generalizing t with
  | nil => exact h
  | cons a as ih => exact ih (h.trans (hf a t))

theorem State.SameLine.ite {c : Prop} [Decidable c] (ht : s.SameLine l t) (hu : s.SameLine l u) : s.SameLine l (if c then t else u) := by
  split <;> assumption

end

/-! The steps of a data tray keep the line as it was. -/

theorem State.sameLine_count (l : Line) (s : State) (r : Reg) (hr : r.key ∉ lineViewKeys l) : s.SameLine l (s.count r) :=
  ⟨fun q hq => s.get_count_ne r q fun heq => hr (heq ▸ hq), by cases l <;> simp [State.lineOf], by cases l <;> simp [State.lineOf]⟩

theorem State.sameLine_raise (l : Line) (s : State) (p : Page) (b : Nat) (hp : (HDR.INT_RAW p).key ∉ lineViewKeys l) : s.SameLine l (s.raise p b) :=
  ⟨fun q hq => s.get_raise_ne p b q fun heq => hp (heq ▸ hq), by cases l <;> simp [State.lineOf], by cases l <;> simp [State.lineOf]⟩

theorem State.sameLine_originate (l : Line) (s : State) (p : BackbonePort) (len : Nat) (ok : Bool) (mk : Bool → Sent) :
    s.SameLine l (s.originate l p len ok mk) := by
  refine ⟨fun q hq => (s.originate_sends l p len ok mk).get q fun heq => ?_, ?_, ?_⟩
  · exact absurd (heq ▸ hq) (by cases l <;> decide)
  all_goals
    simp only [State.originate, State.when]
    split
    · rfl
    · split <;> cases l <;> simp [State.emit, State.occupy, State.lineOf]

theorem State.sameLine_sendFrames (l : Line) (s : State) (p : BackbonePort) (y : Layout) (a : Instant) (reverse : Bool) :
    s.SameLine l (s.sendFrames l p y a reverse) := by
  have hfold : ∀ (f : State × Int → Nat → State × Int), (∀ (acc : State × Int) k, acc.1.SameLine l (f acc k).1) → ∀ (ks : List Nat) (acc : State × Int),
      acc.1.SameLine l (ks.foldl f acc).1 := by
    intro f hf ks
    induction ks with
    | nil => exact fun acc => .refl l acc.1
    | cons k ks ih => exact fun acc => (hf acc k).trans (ih (f acc k))
  exact hfold _ (fun acc _ => State.sameLine_originate l acc.1 p _ _ _) _ (s, s.afterTick a)

theorem State.sameLine_openMark (l : Line) (s : State) (h : TrayHeader) : s.SameLine l (s.openMark l h) :=
  .ite ((State.SameLine.refl l s).withLine _ fun _ => ⟨rfl, rfl⟩) (.refl l s)

theorem State.sameLine_setBytes (l : Line) (s : State) (a : Nat) (bs : List Byte) : s.SameLine l (s.setBytes a bs) := by
  have hline : (s.setBytes a bs).lineOf l = s.lineOf l := by
    induction bs generalizing s a with
    | nil => rfl
    | cons b bs ih => exact (ih _ _).trans (by cases l <;> rfl)
  exact ⟨fun q _ => s.setBytes_get a bs q, by rw [hline], by rw [hline]⟩

theorem State.sameLine_noteWritten (l : Line) (s : State) : s.SameLine l s.noteWritten := by
  simp only [State.noteWritten]
  refine .ite ?_ (.refl l s)
  refine State.SameLine.each ?_ (fun k u => ?_) _
  · exact ⟨fun _ _ => rfl, by cases l <;> rfl, by cases l <;> rfl⟩
  · exact (State.sameLine_setBytes l u _ _).set _ _ (by cases l <;> cases k <;> decide)

theorem State.sameLine_checkUpstream (l : Line) (s : State) (f : DataFrame) : s.SameLine l (s.checkUpstream l f) := by
  refine State.SameLine.each (.refl l s) (fun y u => ?_) f.slices
  have hnote : ∀ c : Bool, u.SameLine l (u.when c fun s => s.withLine l fun x => { x with writtenOutward := insertNat y.slot.toNat x.writtenOutward }) :=
    fun _ => .ite ((State.SameLine.refl l u).withLine _ fun _ => ⟨rfl, rfl⟩) (.refl l u)
  refine .ite ?_ (hnote _)
  refine State.SameLine.withLine ((hnote _).trans ((State.sameLine_count l _ _ ?_).trans (State.sameLine_raise l _ _ _ ?_))) _ fun _ => ⟨rfl, rfl⟩
  all_goals cases l <;> decide

/-- In RUN a node writes its slice or nothing, and the line stays as it is. -/
theorem State.sameLine_writeFrame (l : Line) (s : State) (f : DataFrame) (hst : s.lineState l = lnRUN) : s.SameLine l (s.writeFrame l f).1 := by
  have hlate : ∀ c : LineState → LineState, ((s.withLine l c).lineState l = lnINTEGRATE) = False := fun c => by
    rw [State.withLine_lineState, hst]
    decide
  unfold State.writeFrame
  extract_lets run g
  split
  · split
    · exact State.sameLine_noteWritten l s
    · exact .refl l s
  · simp only [State.claimOutward, hlate, decide_false, Bool.false_and, Bool.not_false, if_true]
    exact (State.SameLine.refl l s).withLine _ fun _ => ⟨rfl, rfl⟩

/-! ## A data tray leaves its origin -/

section
variable (s : State) (l : Line) (a : Instant) (y : Layout)

theorem exec_dataTrayTx_not_origin (h : s.flag (GTB.TRAY_STAT_ORIGIN l) = false) : exec (.dataTrayTx l a) s = .next s := by
  change execDataTrayTx l a s = _
  cases hy : s.forming.layout <;> simp [execDataTrayTx, hy, h]

variable (hy : s.forming.layout = some y) (ho : s.flag (GTB.TRAY_STAT_ORIGIN l) = true) (hst : s.lineState l = lnRUN) (hl : s.live (.gtb l) = true)
include hy ho hst hl

/-- A node acting as origin first lets a cycle pass (R486). -/
theorem exec_dataTrayTx_idle (hpos : s.posOn l ≠ 1) (hup : s.working (s.upstream l) = true) (hidle : (s.lineOf l).revIdle = none) :
    exec (.dataTrayTx l a) s = .next (s.withLine l fun x => { x with revIdle := some s.cycle }) := by
  change execDataTrayTx l a s = _
  simp [execDataTrayTx, hy, ho, hst, hl, hpos, hup, hidle]

/-- The origin notes its outward instant, and its copies start anew. -/
def State.startOwnTray (s : State) (l : Line) (a : Instant) : State :=
  s.withLine l fun x => { x with
    ownA := some (s.txInstant (s.downstream l) a), ownB := none, partakes := true, windowOk := true
    revIdle := none, revOwnA := none, revOwnB := none }

/-- The same of a node acting as origin, whose reverse copy leaves by the other port. -/
def State.startActingTray (s : State) (l : Line) (a : Instant) : State :=
  s.withLine l fun x => { x with
    ownA := some (s.txInstant (s.downstream l) a), ownB := none, partakes := true, windowOk := true
    revIdle := x.revIdle, revOwnA := some (s.txInstant (s.upstream l) a), revOwnB := none }

omit hy ho hst hl in
theorem State.sameLine_startOwnTray : s.SameLine l (s.startOwnTray l a) := (State.SameLine.refl l s).withLine _ fun _ => ⟨rfl, rfl⟩

omit hy ho hst hl in
theorem State.sameLine_startActingTray : s.SameLine l (s.startActingTray l a) := (State.SameLine.refl l s).withLine _ fun _ => ⟨rfl, rfl⟩

omit hy ho hst hl in
theorem State.openMark_writesOwn (h : TrayHeader) (auth : Bool) (ht : s.capture.taken = false) : (s.openMark l h).writesOwn auth = false := by
  have hcapture : (s.openMark l h).capture = s.capture := State.openMark_observe State.capture s l h (by cases l <;> rfl)
  rw [State.writesOwn, hcapture, ht, Bool.false_and, Bool.false_and]

/-- The tray of the origin begins: INAUG that waits goes into it (R99). -/
def State.ownTray (s : State) (l : Line) (a : Instant) (y : Layout) : State :=
  (s.startOwnTray l a).openMark l ((s.startOwnTray l a).dataHeader l y (s.txInstant (s.downstream l) a) 0 false)

/-- The tray of a node acting as origin begins. -/
def State.actingTray (s : State) (l : Line) (a : Instant) (y : Layout) : State :=
  (s.startActingTray l a).openMark l ((s.startActingTray l a).dataHeader l y (s.txInstant (s.downstream l) a) 0 false)

section
omit hy ho hst hl

theorem State.sameLine_ownTray : s.SameLine l (s.ownTray l a y) := (s.sameLine_startOwnTray l a).trans (State.sameLine_openMark l _ _)

theorem State.sameLine_actingTray : s.SameLine l (s.actingTray l a y) := (s.sameLine_startActingTray l a).trans (State.sameLine_openMark l _ _)

theorem State.ownTray_observe {α : Type} (obs : State → α) (hobs : ∀ (t : State) (f : LineState → LineState), obs (t.withLine l f) = obs t) :
    obs (s.ownTray l a y) = obs s := (State.openMark_observe obs _ l _ (hobs _ _)).trans (hobs _ _)

theorem State.actingTray_observe {α : Type} (obs : State → α) (hobs : ∀ (t : State) (f : LineState → LineState), obs (t.withLine l f) = obs t) :
    obs (s.actingTray l a y) = obs s := (State.openMark_observe obs _ l _ (hobs _ _)).trans (hobs _ _)

end

theorem exec_dataTrayTx_origin (hpos : s.posOn l = 1) (hw : s.working (s.downstream l) = true) (ht : s.capture.taken = false) :
    exec (.dataTrayTx l a) s = .next ((s.ownTray l a y).sendFrames l (s.downstream l) y (s.txInstant (s.downstream l) a) false) := by
  have hw1 : (s.ownTray l a y).working (s.downstream l) = true := ((s.sameLine_ownTray l a y).working_eq _).trans hw
  have hw2 : ((s.ownTray l a y).sendFrames l (s.downstream l) y (s.txInstant (s.downstream l) a) false).working (s.downstream l) = true :=
    ((State.sameLine_sendFrames l _ _ y _ false).working_eq _).trans hw1
  have hwrites : (s.ownTray l a y).writesOwn y.auth = false := State.openMark_writesOwn _ _ _ _ (by cases l <;> exact ht)
  have hacting : decide (s.posOn l ≠ 1) = false := by simp [hpos]
  change execDataTrayTx l a s = _
  simp only [State.ownTray, State.startOwnTray] at *
  simp only [execDataTrayTx, hy, ho, hst, hl, hacting, hwrites, hw1, hw2, decide_true, Bool.and_true, Bool.not_true, Bool.false_and, Bool.false_eq_true, if_false,
    if_true]

/-- The reverse copy leaves besides the tray from the cycle after the idle one on (R486). -/
theorem exec_dataTrayTx_acting {n : Nat} (hpos : s.posOn l ≠ 1) (hup : s.working (s.upstream l) = true) (hidle : (s.lineOf l).revIdle = some n)
    (hn : n ≠ s.cycle) (hw : s.working (s.downstream l) = true) (ht : s.capture.taken = false) :
    exec (.dataTrayTx l a) s = .next (((s.actingTray l a y).sendFrames l (s.downstream l) y (s.txInstant (s.downstream l) a) false).sendFrames
      l (s.upstream l) y (s.txInstant (s.upstream l) a) true) := by
  have hw1 : (s.actingTray l a y).working (s.downstream l) = true := ((s.sameLine_actingTray l a y).working_eq _).trans hw
  have hw2 : (((s.actingTray l a y).sendFrames l (s.downstream l) y (s.txInstant (s.downstream l) a) false).sendFrames l (s.upstream l) y
      (s.txInstant (s.upstream l) a) true).working (s.downstream l) = true :=
    (((State.sameLine_sendFrames l _ _ y _ false).trans (State.sameLine_sendFrames l _ _ y _ true)).working_eq _).trans hw1
  have hwrites : (s.actingTray l a y).writesOwn y.auth = false := State.openMark_writesOwn _ _ _ _ (by cases l <;> exact ht)
  have hacting : decide (s.posOn l ≠ 1) = true := by simp [hpos]
  have hpassed : decide (n = s.cycle) = false := by simp [hn]
  change execDataTrayTx l a s = _
  simp only [State.actingTray, State.startActingTray] at *
  simp only [execDataTrayTx, hy, ho, hst, hl, hacting, hup, hidle, Option.all_some, hpassed, hwrites, hw1, hw2, decide_true, Bool.and_true, Bool.and_false,
    Bool.not_true, Bool.false_and, Bool.false_eq_true, if_false, if_true]

end

/-! ## The frames that arrive -/

section
variable {s : State} {info : FrameInfo} {f : DataFrame}

theorem State.openTray_of_run {l : Line} (n : Nat) (hst : s.lineState l = lnRUN) : s.openTray l n = s := by
  rw [State.openTray, hst]
  simp [lnRUN, lnLISTEN, lnINTEGRATE, lnINAUGURATE]

theorem State.meetDataTray_of_run {l : Line} (hst : s.lineState l = lnRUN) : s.meetDataTray l = s := by
  rw [State.meetDataTray, hst]
  rfl

theorem exec_reverseCopyRx_return (h : s.readsTray info f.hdr = true) (ho : s.flag (GTB.TRAY_STAT_ORIGIN info.port.line) = true) (hret : f.hdr.ret = true)
    (hidx : f.hdr.index = 0) :
    exec (.reverseCopyRx info f) s = .next (s.withLine info.port.line fun x => { x with revOwnB := some (s.rxInstant info.port info.arrived) }) := by
  change execReverseCopyRx info f s = _
  simp [execReverseCopyRx, State.recognise_of_readsTray h, State.reverseCopyRx, State.admitFrame_of_readsTray h, ho, hret, hidx]

/-- A frame that the line reads bears a good FCS already. -/
theorem fcsOk_of_readsTray (h : s.readsTray info f.hdr = true) : { info with fcsOk := (none : Option Bool) != some false } = info := by
  rw [show ((none : Option Bool) != some false) = info.fcsOk from (State.readsTray_iff.mp h).fcs.symm]

/-- A return frame on its way in RUN is read before its end is known (R147, R151). -/
theorem exec_returnFrameRx_on_its_way (h : s.readsTray info f.hdr = true) (hst : s.lineState info.port.line = lnRUN)
    (hm : s.headerMatches info.port.line f.hdr = true) (hfits : s.frameFits info f (s.lineOf info.port.line).nextReturn false = true)
    (hwin : (s.lineOf info.port.line).windowOk = true) : exec (.returnFrameRx info f none) s = .next (s.readReturn info.port.line f none) := by
  change execReturnFrameRx info f none s = _
  simp [execReturnFrameRx, State.recognise_of_readsTray h, State.returnFrameRx, fcsOk_of_readsTray h, State.admitFrame_of_readsTray h,
    State.openTray_of_run _ hst, hm, hfits, hwin, State.readPass, hst, lnRUN, lnLISTEN, lnINTEGRATE]

/-- One that does not match changes nothing while it is on its way. -/
theorem exec_returnFrameRx_mismatch (h : s.readsTray info f.hdr = true) (hst : s.lineState info.port.line = lnRUN)
    (hm : s.headerMatches info.port.line f.hdr = false) : exec (.returnFrameRx info f none) s = .next s := by
  change execReturnFrameRx info f none s = _
  simp [execReturnFrameRx, State.recognise_of_readsTray h, State.returnFrameRx, fcsOk_of_readsTray h, State.admitFrame_of_readsTray h,
    State.openTray_of_run _ hst, hm]

/-- A frame of another line without a way on is counted and reported (R121). -/
theorem exec_trayFrameRx_otherLine (hl : s.live (.gtb info.port.line) = true) (hon : s.lineState info.port.line ≠ lnOFF)
    (hty : f.hdr.etype.toNat = s.get (GTB.TRAY_CFG_ETYPE info.port.line)) (hother : info.otherLine = true) (hfcs : info.fcsOk = true)
    (hstray : info.stray = none) (hw : s.working info.port = true) (hup : s.linkUp info.port.across = false) :
    exec (.trayFrameRx info f.hdr f.presence f.slices) s = .next ((s.count (GTB.WRONG_LINE_CNT info.port.line)).raise (.gtb info.port.line) 15) := by
  have hacross : s.working info.port.across = false := by simp [State.working, hup]
  change execTrayFrameRx info f.hdr f.presence f.slices s = _
  simp [execTrayFrameRx, State.recognise, hon, hty, State.trayFrameRx, State.admitFrame, hl, hother, hfcs, hw, hacross, State.guardStray, hstray]

theorem State.withLine_withLine (s : State) (l : Line) (f g : LineState → LineState) : (s.withLine l f).withLine l g = s.withLine l fun x => g (f x) := by
  cases l <;> rfl

/-- An outward frame was seen. -/
def State.sawOutward (s : State) (l : Line) : State := s.withLine l fun x => { x with sawOutward := true }

theorem State.sameLine_sawOutward (s : State) (l : Line) : s.SameLine l (s.sawOutward l) := State.sameLine_withLine l s fun _ => ⟨rfl, rfl⟩

@[simp] theorem State.sawOutward_get (s : State) (l : Line) (q : Reg) : (s.sawOutward l).get q = s.get q := State.withLine_get _ _ _ _

@[simp] theorem State.sawOutward_flag (s : State) (l : Line) (q : Reg) : (s.sawOutward l).flag q = s.flag q := State.withLine_flag _ _ _ _

@[simp] theorem State.sawOutward_posOn (s : State) (l : Line) : (s.sawOutward l).posOn l = s.posOn l := State.withLine_get _ _ _ _

@[simp] theorem State.sawOutward_working (s : State) (l : Line) (d : Side) : (s.sawOutward l).working ⟨l, d⟩ = s.working ⟨l, d⟩ :=
  (s.sameLine_sawOutward l).working_eq d

@[simp] theorem State.sawOutward_cycle (s : State) (l : Line) : (s.sawOutward l).cycle = s.cycle := State.withLine_get _ _ _ _

@[simp] theorem State.sawOutward_lineState (s : State) (l : Line) : (s.sawOutward l).lineState l = s.lineState l := State.withLine_get _ _ _ _

@[simp] theorem State.sawOutward_lineOf (s : State) (l : Line) : (s.sawOutward l).lineOf l = { s.lineOf l with sawOutward := true } := State.withLine_lineOf _ _ _

@[simp] theorem State.sawOutward_forming (s : State) (l : Line) : (s.sawOutward l).forming = s.forming := by cases l <;> rfl

@[simp] theorem State.sawOutward_idleOrigin (s : State) (l : Line) : (s.sawOutward l).idleOrigin l = s.idleOrigin l := by
  simp [State.idleOrigin, State.upstream, LineState.end1Port]

@[simp] theorem State.sawOutward_headerMatches (s : State) (l : Line) (h : TrayHeader) : (s.sawOutward l).headerMatches l h = s.headerMatches l h := by
  simp [State.headerMatches]

@[simp] theorem State.sawOutward_frameFits (s : State) (info : FrameInfo) (f : DataFrame) (n : Nat) (ended : Bool) :
    (s.sawOutward info.port.line).frameFits info f n ended = s.frameFits info f n ended := by
  simp [State.frameFits]

/-- A node acting as origin, not in its idle cycle, forwards none of a lower node's tray and stops at the next tick (R14). -/
theorem exec_trayFrameRx_yield (h : s.readsTray info f.hdr = true) (ho : s.flag (GTB.TRAY_STAT_ORIGIN info.port.line) = true)
    (hlow : f.hdr.origin.toNat < s.posOn info.port.line) (hidle : s.idleOrigin info.port.line = false) (hst : s.lineState info.port.line = lnRUN)
    (hidx : f.hdr.index ≠ 0) (hinaug : f.hdr.inaug = false) :
    exec (.trayFrameRx info f.hdr f.presence f.slices) s = .next (s.withLine info.port.line fun x =>
      { x with sawOutward := true, stopNext := true, expected := none }) := by
  have hidx' : f.hdr.index.toNat ≠ 0 := fun h0 => hidx (by simpa [BitVec.toNat_eq] using h0)
  change execTrayFrameRx info f.hdr f.presence f.slices s = _
  have hfold : (s.withLine info.port.line fun x => { x with sawOutward := true }) = s.sawOutward info.port.line := rfl
  simp [execTrayFrameRx, State.recognise_of_readsTray h, State.trayFrameRx, State.admitFrame_of_readsTray h,
    State.openTray_of_run _ hst, State.meetDataTray_of_run hst, hinaug, hidx', hfold, ho, hidle, hlow, State.yieldOrigin]
  rw [State.sawOutward, State.withLine_withLine]

/-- An outward frame that fits goes on, where the line may send, with the node's own slice in it (R142, R145). -/
theorem exec_trayFrameRx_onward {v w x : State} {g : DataFrame} (h : s.readsTray info f.hdr = true) (ho : s.flag (GTB.TRAY_STAT_ORIGIN info.port.line) = false)
    (hst : s.lineState info.port.line = lnRUN) (hmin : 64 ≤ info.size) (hmax : info.size ≤ 2000) (hidx : f.hdr.index ≠ 0) (hinaug : f.hdr.inaug = false)
    (hw : s.working info.port.across = true) (hm : s.headerMatches info.port.line f.hdr = true)
    (hfits : s.frameFits info f (s.lineOf info.port.line).nextIndex true = true) (hbroken : (s.lineOf info.port.line).broken = false)
    (hv : v = (s.withLine info.port.line fun x => { x with sawOutward := true, nextIndex := f.hdr.index.toNat + 1, end1Side := some info.port.side }).openMark
      info.port.line f.hdr)
    (hup : w = v.checkUpstream info.port.line f) (hwrite : w.writeFrame info.port.line f = (x, g)) :
    exec (.trayFrameRx info f.hdr f.presence f.slices) s = .next (x.when (x.mayTransmit (.gtb info.port.line)) fun x =>
      x.emit (.dataFrame info.port.across { g with hdr := { x.outwardHeader info.port.line g.hdr with ret := false } } true)) := by
  subst hup
  have hidx' : f.hdr.index.toNat ≠ 0 := fun h0 => hidx (by simpa [BitVec.toNat_eq] using h0)
  have hsame : s.SameLine info.port.line v := by
    rw [hv]
    refine State.SameLine.trans ?_ (State.sameLine_openMark _ _ _)
    exact State.sameLine_withLine _ s fun _ => ⟨rfl, rfl⟩
  have hchecked := hsame.trans (State.sameLine_checkUpstream _ v f)
  have hx : s.SameLine info.port.line x := by
    have hwritten := hchecked.trans (State.sameLine_writeFrame _ _ f (hchecked.lineState_eq.trans hst))
    rwa [hwrite] at hwritten
  have hw1 : (s.sawOutward info.port.line).working info.port.across = true := (s.sawOutward_working _ _).trans hw
  have hw2 : x.working info.port.across = true := (hx.working_eq _).trans hw
  have hbroken1 : (v.lineOf info.port.line).broken = false := by
    rw [hv]
    exact (State.openMark_observe (fun t => (t.lineOf info.port.line).broken) _ _ _ (by rw [State.withLine_lineOf])).trans
      ((congrArg LineState.broken (State.withLine_lineOf _ _ _)).trans hbroken)
  have hv1 : ((s.sawOutward info.port.line).withLine info.port.line fun x =>
      { x with nextIndex := f.hdr.index.toNat + 1, end1Side := some info.port.side }).openMark info.port.line f.hdr = v := by
    rw [hv, State.sawOutward, State.withLine_withLine]
  have hfold : (s.withLine info.port.line fun x => { x with sawOutward := true }) = s.sawOutward info.port.line := rfl
  change execTrayFrameRx info f.hdr f.presence f.slices s = _
  simp [execTrayFrameRx, State.recognise_of_readsTray h, State.trayFrameRx, State.admitFrame_of_readsTray h, State.openTray_of_run _ hst,
    State.meetDataTray_of_run hst, hinaug, hidx', hfold, ho, hw1, hm, hfits, hv1, hbroken1, hwrite, State.onwardPort, hw2, State.forwardData,
    clean_of_readsTray h, Nat.not_lt.mpr hmin, Nat.not_lt.mpr hmax]
  rfl

end

/-- The frames of a data tray of the origin, and of one of a node acting as origin. -/
theorem exec_dataTrayTx_origin_sent (s : State) (l : Line) (a : Instant) {y : Layout} (hmay : s.mayTransmit (.gtb l) = true) :
    ∃ out, ((s.ownTray l a y).sendFrames l (s.downstream l) y (s.txInstant (s.downstream l) a) false).sent = s.sent ++ out ∧ out.length = y.frames
      ∧ ((s.ownTray l a y).sendFrames l (s.downstream l) y (s.txInstant (s.downstream l) a) false).mem = s.mem := by
  have hsends := (s.ownTray l a y).sendFrames_sends l (s.downstream l) y (s.txInstant (s.downstream l) a) false
  obtain ⟨out, hout, hlen⟩ := hsends.sent ((s.ownTray_observe l a y (·.mayTransmit (.gtb l)) fun t f => t.withLine_mayTransmit l f _).trans hmay)
  exact ⟨out, hout.trans (by rw [s.ownTray_observe l a y State.sent fun t f => t.withLine_sent l f]), hlen,
    hsends.mem.trans (s.ownTray_observe l a y State.mem fun t f => t.withLine_mem l f)⟩

theorem exec_dataTrayTx_acting_sent (s : State) (l : Line) (a : Instant) {y : Layout} (hmay : s.mayTransmit (.gtb l) = true) :
    ∃ out, (((s.actingTray l a y).sendFrames l (s.downstream l) y (s.txInstant (s.downstream l) a) false).sendFrames l (s.upstream l) y
        (s.txInstant (s.upstream l) a) true).sent = s.sent ++ out ∧ out.length = 2 * y.frames
      ∧ (((s.actingTray l a y).sendFrames l (s.downstream l) y (s.txInstant (s.downstream l) a) false).sendFrames l (s.upstream l) y
        (s.txInstant (s.upstream l) a) true).mem = s.mem := by
  have hsends := ((s.actingTray l a y).sendFrames_sends l (s.downstream l) y (s.txInstant (s.downstream l) a) false).trans
    (State.sendFrames_sends _ l (s.upstream l) y (s.txInstant (s.upstream l) a) true)
  obtain ⟨out, hout, hlen⟩ := hsends.sent ((s.actingTray_observe l a y (·.mayTransmit (.gtb l)) fun t f => t.withLine_mayTransmit l f _).trans hmay)
  exact ⟨out, hout.trans (by rw [s.actingTray_observe l a y State.sent fun t f => t.withLine_sent l f]), hlen.trans (Nat.two_mul _).symm,
    hsends.mem.trans (s.actingTray_observe l a y State.mem fun t f => t.withLine_mem l f)⟩

end Sys2Proof.Machine

namespace Sys2Proof.Proofs
open Sys2Proof.Machine

/-- Settles O23: the origin's tray, the idle cycle and the trays of a node acting as origin, whose frames are those of the layout (O24). -/
theorem dataTrayTransmission : Obligations.DataTrayTransmission := by
  intro s l a y hy
  refine ⟨exec_dataTrayTx_not_origin s l a, fun ho hst hl => ⟨fun hpos hw ht => ?_, exec_dataTrayTx_idle s l a y hy ho hst hl, ?_⟩⟩
  · have hexec := exec_dataTrayTx_origin s l a y hy ho hst hl hpos hw ht
    refine ⟨_, _, rfl, rfl, hexec, fun hsilent => ?_⟩
    obtain ⟨out, hsent, hlen, hmem⟩ := exec_dataTrayTx_origin_sent s l a (y := y) (by simp [State.mayTransmit, hl, hsilent])
    exact ⟨_, out, hexec, hsent, hlen, hmem⟩
  · intro n hpos hup hidle hn hw ht hsilent
    obtain ⟨out, hsent, hlen, hmem⟩ := exec_dataTrayTx_acting_sent s l a (y := y) (by simp [State.mayTransmit, hl, hsilent])
    exact ⟨_, out, exec_dataTrayTx_acting s l a y hy ho hst hl hpos hup hidle hn hw ht, hsent, hlen, hmem⟩

/-- Settles O25: what each kind of frame does at a line that reads it; in RUN no cycle is opened by it. -/
theorem trayReception : Obligations.TrayReception := fun _ _ _ =>
  ⟨exec_reverseCopyRx_return, exec_returnFrameRx_on_its_way, exec_returnFrameRx_mismatch, exec_trayFrameRx_otherLine, exec_trayFrameRx_yield,
    fun _ _ _ _ h ho hst hmin hmax hidx hinaug hw hm hfits hbroken hv hup hwrite =>
      exec_trayFrameRx_onward h ho hst hmin hmax hidx hinaug hw hm hfits hbroken hv hup hwrite⟩

end Sys2Proof.Proofs
end

section
/-! Forerunner mode (R161 to R163), and what a line notes of its trays (R111, R114, R150, R90). -/

namespace Sys2Proof.Machine

/-! ## Slot frames -/

section
variable (s : State) (l : Line) (a : Instant)

theorem exec_forerunnerSlotTx_other (hst : s.lineState l ≠ lnFORERUNNER) : exec (.forerunnerSlotTx l a) s = .next s := by
  change execForerunnerSlotTx l a s = _
  simp [execForerunnerSlotTx, hst]

/-- The node's slot frame begins: its outward instant, and INAUG where it waits. -/
def State.startSlot (s : State) (l : Line) (a : Instant) : State :=
  let u := s.withLine l fun y => { y with
    ownA := some (s.txInstant (s.downstream l) a), sentA := some (s.txInstant (s.downstream l) a), partakes := true }
  u.openMark l (u.slotHeader l (s.txInstant (s.downstream l) a))

theorem State.startSlot_observe {α : Type} (obs : State → α) (hobs : ∀ (t : State) (f : LineState → LineState), obs (t.withLine l f) = obs t) :
    obs (s.startSlot l a) = obs s := (State.openMark_observe obs _ l _ (hobs _ _)).trans (hobs _ _)

theorem State.sameLine_startSlot : s.SameLine l (s.startSlot l a) := by
  refine State.SameLine.trans ?_ (State.sameLine_openMark _ _ _)
  exact State.sameLine_withLine _ s fun _ => ⟨rfl, rfl⟩

theorem State.startSlot_lineOf : ((s.startSlot l a).lineOf l).ownA = some (s.txInstant (s.downstream l) a) ∧ ((s.startSlot l a).lineOf l).partakes = true :=
  ⟨(State.openMark_observe (fun t => (t.lineOf l).ownA) _ l _ (by rw [State.withLine_lineOf])).trans (congrArg LineState.ownA (State.withLine_lineOf _ _ _)),
    (State.openMark_observe (fun t => (t.lineOf l).partakes) _ l _ (by rw [State.withLine_lineOf])).trans (congrArg LineState.partakes (State.withLine_lineOf _ _ _))⟩

theorem State.originate_lineOf (p : BackbonePort) (len : Nat) (ok : Bool) (mk : Bool → Sent) (k : Line) : (s.originate l p len ok mk).lineOf k = s.lineOf k := by
  simp only [State.originate, State.when]
  split
  · rfl
  · split <;> cases k <;> simp [State.emit, State.occupy, State.lineOf]

/-- One frame to each port of a list. -/
theorem State.each_originate (ps : List BackbonePort) (len : Nat) (ok : Bool) (mk : BackbonePort → Bool → Sent) (t : State) :
    t.SendsFrames l ps.length (t.each ps fun p u => u.originate l p len ok (mk p))
      ∧ (t.mayTransmit (.gtb l) = true → ∃ out, (t.each ps fun p u => u.originate l p len ok (mk p)).sent = t.sent ++ out ∧ out.length = ps.length
        ∧ ∀ e ∈ out, ∃ p ∈ ps, ∃ good, e = mk p good) := by
  induction ps generalizing t with
  | nil => exact ⟨.refl l t, fun _ => ⟨[], by simp [State.each]⟩⟩
  | cons p ps ih =>
    have hfirst := t.originate_sends l p len ok (mk p)
    obtain ⟨hrest, hout⟩ := ih (t.originate l p len ok (mk p))
    refine ⟨by rw [List.length_cons, Nat.add_comm]; exact hfirst.trans hrest, fun hmay => ?_⟩
    obtain ⟨good, hsent, -⟩ := State.originate_sent t l p len ok (mk p) hmay
    obtain ⟨out, hmore, hlen, hmem⟩ := hout (hfirst.mayTransmit_eq.trans hmay)
    refine ⟨mk p good :: out, ?_, by rw [List.length_cons, List.length_cons, hlen], ?_⟩
    · exact hmore.trans (by rw [hsent, List.append_assoc]; rfl)
    · rintro e (_ | ⟨_, he⟩)
      · exact ⟨p, List.mem_cons_self, good, rfl⟩
      · obtain ⟨q, hq, hmk⟩ := hmem e he
        exact ⟨q, List.mem_cons_of_mem p hq, hmk⟩

theorem exec_forerunnerSlotTx (hst : s.lineState l = lnFORERUNNER) (hl : s.live (.gtb l) = true) (hpos : s.posOn l ≠ 0) {x : LayoutSlot}
    (hx : s.ownLayoutSlot = some x) : ∃ hdr timing slice len ok, exec (.forerunnerSlotTx l a) s = .next (
      let t := ((s.startSlot l a).each ((portsOf l).filter s.working) fun p u => u.originate l p len ok fun good => .slotFrame p hdr timing slice good).withLine l fun y =>
        { y with front := { y.front with rxOwn := none }, rear := { y.rear with rxOwn := none } }
      if s.capture.taken && s.capture.kind != .none then t.noteWritten else t.count (GTB.NULL_FRAME_CNT l)) := by
  have hfilter : (portsOf l).filter (s.startSlot l a).working = (portsOf l).filter s.working := by
    refine List.filter_congr fun p hp => ?_
    obtain rfl | rfl : p = ⟨l, .front⟩ ∨ p = ⟨l, .rear⟩ := by simpa [portsOf] using hp
    all_goals exact (s.sameLine_startSlot l a).working_eq _
  have hcapture : (s.startSlot l a).capture = s.capture := s.startSlot_observe l a State.capture fun t f => by cases l <;> rfl
  rw [← hfilter, ← hcapture]
  change ∃ hdr timing slice len ok, execForerunnerSlotTx l a s = _
  simp only [execForerunnerSlotTx, hst, hl, hpos, hx, decide_true, Bool.and_true, ne_eq, not_false_eq_true]
  exact ⟨_, _, _, _, _, rfl⟩

theorem State.noteWritten_observe {α : Type} (obs : State → α) (hset : ∀ (t : State) (r : Reg) (v : Nat), obs (t.set r v) = obs t)
    (hbytes : ∀ (t : State) (b : Nat) (bs : List Byte), obs (t.setBytes b bs) = obs t)
    (hheld : ∀ (t : State) c h q, obs { t with capture := c, holdCopy := h, nextSeq := q } = obs t) : obs s.noteWritten = obs s := by
  simp only [State.noteWritten]
  refine State.ite_observe obs ?_ rfl
  exact (State.each_observe obs (fun k _ t => (hset _ _ _).trans (hbytes _ _ _)) _).trans (hheld _ _ _ _)

theorem State.setBytes_observe {α : Type} (obs : State → α) (hbyte : ∀ (t : State) (b : Nat) (v : Byte), obs (t.setByte b v) = obs t) (b : Nat) (bs : List Byte) :
    obs (s.setBytes b bs) = obs s := by
  induction bs generalizing s b with
  | nil => rfl
  | cons v bs ih => exact (ih _ _).trans (hbyte _ _ _)

theorem State.noteWritten_sent : s.noteWritten.sent = s.sent :=
  s.noteWritten_observe State.sent State.set_sent (fun t b bs => t.setBytes_observe State.sent (fun _ _ _ => rfl) b bs) fun _ _ _ _ => rfl

theorem State.noteWritten_lineOf (k : Line) : s.noteWritten.lineOf k = s.lineOf k :=
  s.noteWritten_observe (·.lineOf k) (fun t r v => t.set_lineOf r v k)
    (fun t b bs => t.setBytes_observe (·.lineOf k) (fun _ _ _ => by cases k <;> rfl) b bs) fun _ _ _ _ => by cases k <;> rfl

theorem State.count_lineOf (r : Reg) (k : Line) : (s.count r).lineOf k = s.lineOf k := by
  cases k
  · exact s.count_lineA r
  · exact s.count_lineB r

/-- What a slot frame's departure leaves: one frame at each working port of the line, the outward instant, and a null frame counted. -/
theorem exec_forerunnerSlotTx_effect (hst : s.lineState l = lnFORERUNNER) (hl : s.live (.gtb l) = true) (hpos : s.posOn l ≠ 0)
    (hx : ∃ x, s.ownLayoutSlot = some x) (hsilent : s.failSilent = false) :
    ∃ t out, exec (.forerunnerSlotTx l a) s = .next t ∧ t.sent = s.sent ++ out ∧ out.length = ((portsOf l).filter s.working).length
      ∧ (∀ e ∈ out, ∃ p hdr timing slice good, p ∈ portsOf l ∧ e = .slotFrame p hdr timing slice good)
      ∧ (t.lineOf l).ownA = some (s.txInstant (s.downstream l) a) ∧ (t.lineOf l).partakes = true
      ∧ (s.capture.taken = false → t.mem = s.mem
          ∧ t.get (GTB.NULL_FRAME_CNT l) = min (s.get (GTB.NULL_FRAME_CNT l) + 1) (2 ^ (GTB.NULL_FRAME_CNT l).width - 1)) := by
  obtain ⟨x, hx⟩ := hx
  obtain ⟨hdr, timing, slice, len, ok, hexec⟩ := exec_forerunnerSlotTx s l a hst hl hpos hx
  obtain ⟨hsends, hout⟩ := State.each_originate l ((portsOf l).filter s.working) len ok (fun p good => .slotFrame p hdr timing slice good) (s.startSlot l a)
  have hmay : s.mayTransmit (.gtb l) = true := by simp [State.mayTransmit, hl, hsilent]
  obtain ⟨out, hsent, hlen, hmem⟩ := hout ((s.startSlot_observe l a (·.mayTransmit (.gtb l)) fun t f => t.withLine_mayTransmit l f _).trans hmay)
  have hline : (((s.startSlot l a).each ((portsOf l).filter s.working) fun p u => u.originate l p len ok fun good => .slotFrame p hdr timing slice good).lineOf l)
      = (s.startSlot l a).lineOf l := State.each_observe (·.lineOf l) (fun p _ u => u.originate_lineOf l p len ok _ l) _
  obtain ⟨hown, hpartakes⟩ := s.startSlot_lineOf l a
  rw [s.startSlot_observe l a State.sent fun t f => t.withLine_sent l f] at hsent
  refine ⟨_, out, hexec, ?_, hlen, ?_, ?_, ?_, fun htaken => ⟨?_, ?_⟩⟩
  · refine Eq.trans ?_ hsent
    dsimp only
    split
    · rw [State.noteWritten_sent, State.withLine_sent]
    · rw [State.count_sent, State.withLine_sent]
  · intro e he
    obtain ⟨p, hp, good, rfl⟩ := hmem e he
    exact ⟨p, hdr, timing, slice, good, (List.mem_filter.mp hp).1, rfl⟩
  · refine Eq.trans ?_ hown
    rw [← hline]
    dsimp only
    split
    · rw [State.noteWritten_lineOf, State.withLine_lineOf]
    · rw [State.count_lineOf, State.withLine_lineOf]
  · refine Eq.trans ?_ hpartakes
    rw [← hline]
    dsimp only
    split
    · rw [State.noteWritten_lineOf, State.withLine_lineOf]
    · rw [State.count_lineOf, State.withLine_lineOf]
  · rw [htaken]
    exact ((State.count_mem _ _).trans (State.withLine_mem _ _ _)).trans (hsends.mem.trans (s.startSlot_observe l a State.mem fun t f => t.withLine_mem l f))
  · rw [htaken]
    refine (State.get_count _ _).trans ?_
    rw [State.withLine_get, hsends.get _ (by cases l <;> decide), s.startSlot_observe l a (·.get (GTB.NULL_FRAME_CNT l)) fun t f => t.withLine_get l f _]

end

/-! What arrives. -/

section
variable {s : State} {info : FrameInfo} {hdr : TrayHeader} (timing : TimingBlock) (slice : Slice) (h : s.readsTray info hdr = true)
include h

/-- A line in RUN takes nothing from a slot frame. -/
theorem exec_slotFrameRx_in_run (hst : s.lineState info.port.line = lnRUN) : exec (.slotFrameRx info hdr timing slice none) s = .next s := by
  change execSlotFrameRx info hdr timing slice none s = _
  simp [execSlotFrameRx, State.recognise_of_readsTray h, State.slotFrameRx, fcsOk_of_readsTray (f := ⟨hdr, 0, []⟩) h, State.admitFrame_of_readsTray h, hst,
    lnRUN, lnFORERUNNER, lnPASSIVE, lnINTEGRATE]

/-- The line notes a slot frame at its place. -/
def State.noteSlot (s : State) (l : Line) (hdr : TrayHeader) : State :=
  s.withLine l fun x => { x with partakes := true, lastTray := some hdr, goodRun := if x.missThis then x.goodRun else x.goodRun + 1, missThis := true }

/-- A line in FORERUNNER takes the copy of one that departed within P of its place, pending its end (R191). -/
theorem exec_slotFrameRx_in_forerunner (hst : s.lineState info.port.line = lnFORERUNNER) (hm : s.headerMatches info.port.line hdr = true)
    (hplace : (instantDiff (s.rxInstant info.port info.arrived - BitVec.ofInt 64 (timing.corr.toNat + ((s.lineOf info.port.line).portOf info.port.side).delay))
      (s.tickInstant + BitVec.ofNat 64 (4 * (s.get CYC.TX_OFFS + hdr.index.toNat * s.forming.slotPlan + s.precision)))).natAbs ≤ 4 * s.precision) :
    exec (.slotFrameRx info hdr timing slice none) s = .next (((s.noteSlot info.port.line hdr).takeCopy false
      ⟨slice.slot.toNat, info.port.line, slice, .pending⟩).slotsMoved (s.noteSlot info.port.line hdr) [slice.slot.toNat]) := by
  change execSlotFrameRx info hdr timing slice none s = _
  simp [execSlotFrameRx, State.recognise_of_readsTray h, State.slotFrameRx, fcsOk_of_readsTray (f := ⟨hdr, 0, []⟩) h, State.admitFrame_of_readsTray h, hst, hm, hplace,
    State.readSlot, State.noteSlot]

end

/-! ## What a line notes of its trays -/

section
variable (s : State) (l : Line)

theorem exec_positionAbsent (p : BitVec 6) (h : ((s.lineOf l).absentRun.any fun e => e.1 = p.toNat && 2 ≤ e.2) = true) :
    exec (.positionAbsent l p) s = .next (s.set64 (GTB.PRES_LO l) (GTB.PRES_HI l) (withBit (s.get64 (GTB.PRES_LO l) (GTB.PRES_HI l)) p.toNat false)) :=
  congrArg Host.Outcome.next (if_pos h)

theorem exec_positionAbsent_too_soon (p : BitVec 6) (h : ((s.lineOf l).absentRun.any fun e => e.1 = p.toNat && 2 ≤ e.2) = false) :
    exec (.positionAbsent l p) s = .next s := congrArg Host.Outcome.next (if_neg (by simp [h]))

theorem exec_claimWordExpiry (c : BitVec 4) (h : (s.forming.claims.any fun x => x.1 = c.toNat && 16 ≤ x.2.2) = true) :
    exec (.claimWordExpiry c) s = .next (s.withForming fun f => { f.setCrumb c.toNat 0 with claims := f.claims.filter fun x => x.1 != c.toNat }) :=
  congrArg Host.Outcome.next (if_pos h)

theorem exec_claimWordExpiry_too_soon (c : BitVec 4) (h : (s.forming.claims.any fun x => x.1 = c.toNat && 16 ≤ x.2.2) = false) :
    exec (.claimWordExpiry c) s = .next s := congrArg Host.Outcome.next (if_neg (by simp [h]))

theorem exec_windowMiss (hl : s.live (.gtb l) = true) (hst : s.lineState l = lnRUN) (ho : s.flag (GTB.TRAY_STAT_ORIGIN l) = false)
    (hwin : (s.lineOf l).windowOk = false) : exec (.windowMiss l) s = .next (s.missTray l true) :=
  congrArg Host.Outcome.next (if_pos (by simp [hl, hst, ho, hwin]))

theorem State.missTray_again (b : Bool) (h : (s.lineOf l).missThis = true) : s.missTray l b = s := by
  rw [State.missTray, if_pos h]

/-- The line notes that it missed a tray in this cycle. -/
def State.noteMiss (s : State) (l : Line) : State :=
  s.withLine l fun x => if x.partakes then { x with missThis := true } else { x with
    missThis := true, goodRun := 0, expected := x.expected.map fun e => e + BitVec.ofNat 64 (4 * s.cycleLen) }

/-- A miss that counts. -/
def State.countMiss (s : State) (l : Line) : State :=
  let u := (s.count (GTB.WINDOW_MISS_CNT l)).raise (.gtb l) 8
  u.set (GTB.TRAY_STAT_MISS_RUN l) (min 3 (u.get (GTB.TRAY_STAT_MISS_RUN l) + 1))

theorem State.missTray_eq (b : Bool) (h : (s.lineOf l).missThis = false) : s.missTray l b =
    if b && s.inaugHold then s.noteMiss l
    else ((s.noteMiss l).countMiss l).when (min 3 ((((s.noteMiss l).count (GTB.WINDOW_MISS_CNT l)).raise (.gtb l) 8).get (GTB.TRAY_STAT_MISS_RUN l) + 1) = 3
      && ((s.noteMiss l).countMiss l).takesOrigin l) fun t => t.withLine l fun x => { x with actNext := true } := by
  rw [State.missTray, h]
  rfl

theorem State.raise_lineOf (p : Page) (b : Nat) (k : Line) : (s.raise p b).lineOf k = s.lineOf k := by
  cases k
  · exact s.raise_lineA p b
  · exact s.raise_lineB p b

theorem State.noteMiss_missThis : ((s.noteMiss l).lineOf l).missThis = true := by
  rw [State.noteMiss, State.withLine_lineOf]
  split <;> rfl

/-- After a miss the line has missed in this cycle. -/
theorem State.missTray_missThis (b : Bool) : ((s.missTray l b).lineOf l).missThis = true := by
  cases h : (s.lineOf l).missThis
  case true => rw [s.missTray_again l b h, h]
  case false =>
    rw [s.missTray_eq l b h]
    split
    · exact s.noteMiss_missThis l
    · refine (State.when_observe (fun t => (t.lineOf l).missThis) (fun t => by rw [State.withLine_lineOf]) _ _).trans ?_
      rw [State.countMiss, State.set_lineOf, State.raise_lineOf, State.count_lineOf]
      exact s.noteMiss_missThis l

theorem State.missTray_counts (hmiss : (s.lineOf l).missThis = false) (hhold : s.inaugHold = false) :
    (s.missTray l true).get (GTB.WINDOW_MISS_CNT l) = min (s.get (GTB.WINDOW_MISS_CNT l) + 1) (2 ^ (GTB.WINDOW_MISS_CNT l).width - 1)
      ∧ (s.missTray l true).get (GTB.TRAY_STAT_MISS_RUN l) = min 3 (s.get (GTB.TRAY_STAT_MISS_RUN l) + 1) ∧ (s.missTray l true).mem = s.mem
      ∧ (s.missTray l true).sent = s.sent := by
  have hnote : ∀ q, (s.noteMiss l).get q = s.get q := State.withLine_get _ _ _
  have hlast : ∀ {α : Type} (obs : State → α), (∀ (t : State) (f : LineState → LineState), obs (t.withLine l f) = obs t) →
      obs (s.missTray l true) = obs ((s.noteMiss l).countMiss l) := by
    intro α obs hobs
    rw [s.missTray_eq l true hmiss, hhold]
    exact State.when_observe obs (fun t => hobs t _) _ _
  refine ⟨?_, ?_, ?_, ?_⟩
  · rw [hlast (·.get (GTB.WINDOW_MISS_CNT l)) fun t f => t.withLine_get l f _, State.countMiss, State.get_set_ne _ _ _ _ (by cases l <;> decide),
      State.get_raise_ne _ _ _ _ (by cases l <;> decide), State.get_count, hnote]
  · have hwidth : ∀ n, min 3 n < 2 ^ (GTB.TRAY_STAT_MISS_RUN l).width := fun n => (Nat.min_le_left 3 n).trans_lt (by cases l <;> decide)
    rw [hlast (·.get (GTB.TRAY_STAT_MISS_RUN l)) fun t f => t.withLine_get l f _, State.countMiss, State.get_set_of_lt _ _ _ (hwidth _),
      State.get_raise_ne _ _ _ _ (by cases l <;> decide), State.get_count_ne _ _ _ (by cases l <;> decide), hnote]
  · rw [hlast State.mem fun t f => t.withLine_mem l f, State.countMiss, State.set_mem, State.raise_mem, State.count_mem]
    exact State.withLine_mem _ _ _
  · rw [hlast State.sent fun t f => t.withLine_sent l f, State.countMiss, State.set_sent, State.raise_sent, State.count_sent]
    exact State.withLine_sent _ _ _

theorem exec_enterPassive (hst : s.lineState l = lnRUN) (hrun : s.get (GTB.TRAY_STAT_MISS_RUN l) = 3) (hact : (s.lineOf l).actNext = false)
    (ho : s.flag (GTB.TRAY_STAT_ORIGIN l) = false) :
    exec (.enterPassive l) s = .next (((s.set (GTB.FORM_STAT_STATE l) lnPASSIVE).raise (.gtb l) 14).withLine l fun x =>
      { x with goodRun := 0, writing := false, actNext := false }) :=
  congrArg Host.Outcome.next (if_pos (by simp [hst, hrun, hact, ho]))

theorem exec_enterPassive_taking_over (hact : (s.lineOf l).actNext = true) : exec (.enterPassive l) s = .next s :=
  congrArg Host.Outcome.next (if_neg (by simp [hact]))

end

end Sys2Proof.Machine

namespace Sys2Proof.Proofs
open Sys2Proof.Machine

/-- Settles O26: the frames of a node's slot, one at each working port, and what a line in RUN or FORERUNNER takes from one that arrives. -/
theorem forerunnerCommands : Obligations.ForerunnerCommands := fun s l a =>
  ⟨exec_forerunnerSlotTx_effect s l a, exec_forerunnerSlotTx_other s l a, fun _ _ timing slice h hst => exec_slotFrameRx_in_run timing slice h hst,
    fun _ _ timing slice _ h hst hm hplace hu => hu ▸ exec_slotFrameRx_in_forerunner timing slice h hst hm hplace⟩

/-- Settles O27: each note with its bound; a second miss in a cycle finds the first. -/
theorem trayWatchCommands : Obligations.TrayWatchCommands := fun s l =>
  ⟨exec_positionAbsent s l, exec_positionAbsent_too_soon s l, exec_claimWordExpiry s, exec_claimWordExpiry_too_soon s,
    fun hl hst ho hwin hmiss => (exec_windowMiss s l hl hst ho hwin).trans (by rw [s.missTray_again l true hmiss]),
    fun hl hst ho hwin => ⟨exec_windowMiss s l hl hst ho hwin, fun hmiss hhold =>
      ⟨_, exec_windowMiss s l hl hst ho hwin, s.missTray_missThis l true, s.missTray_counts l hmiss hhold⟩⟩,
    exec_enterPassive s l, fun _ => exec_enterPassive_taking_over s l,
    fun a b => State.missTray_again _ l b (s.missTray_missThis l a)⟩

end Sys2Proof.Proofs
end

section
/-! Key requests, key grants and the key roll (R390 to R395). -/

namespace Sys2Proof.Machine

/-! ## What a draw from the DRBG leaves -/

/-- The fields that a draw from the DRBG may change. -/
def drawFields : List Nat := [SEC.TRNG_STAT_REQS.key, SEC.TRNG_STAT_SERVING.key]

/-- One draw more, and the counts of the generator. -/
structure State.Drew (s t : State) : Prop where
  sec : t.sec = { s.sec with drbgDraws := s.sec.drbgDraws + 1 }
  get : ∀ q : Reg, q.key ∉ drawFields → t.get q = s.get q
  sent : t.sent = s.sent
  mem : t.mem = s.mem

/-- The generator counts the request that it served. -/
def State.countDraw (s : State) (reseed : Bool) : State :=
  ((if reseed then s.set SEC.TRNG_STAT_REQS 0 else s).count SEC.TRNG_STAT_REQS).withSec fun k => { k with drbgDraws := k.drbgDraws + 1 }

theorem State.countDraw_drew (s : State) (reseed : Bool) : s.Drew (s.countDraw reseed) := by
  have hset : ∀ q : Reg, q.key ∉ drawFields → q.key ≠ SEC.TRNG_STAT_REQS.key := fun q hq heq => hq (heq ▸ by decide)
  cases reseed
  case false =>
    refine ⟨?_, fun q hq => ?_, ?_, ?_⟩
    · simp [State.countDraw]
    · simp [State.countDraw, State.get_count_ne _ _ _ (hset q hq)]
    · simp [State.countDraw]
    · simp [State.countDraw]
  case true =>
    refine ⟨?_, fun q hq => ?_, ?_, ?_⟩
    · simp [State.countDraw]
    · simp [State.countDraw, State.get_count_ne _ _ _ (hset q hq), State.get_set_ne _ _ _ _ (hset q hq)]
    · simp [State.countDraw]
    · simp [State.countDraw]

theorem State.Drew.stopServing {s t : State} (h : s.Drew t) (c : Bool) : s.Drew (t.when c fun u => u.setFlag SEC.TRNG_STAT_SERVING false) := by
  cases c
  case false => exact h
  case true =>
    have hkey : SEC.TRNG_STAT_SERVING.key ∈ drawFields := by decide
    exact ⟨(State.set_sec _ _ _).trans h.sec, fun q hq => (t.get_setFlag_ne SEC.TRNG_STAT_SERVING q false fun heq => hq (heq ▸ hkey)).trans (h.get q hq),
      (State.set_sent _ _ _).trans h.sent, (State.set_mem _ _ _).trans h.mem⟩

theorem State.random_serves (s : State) (resist : Bool) (h : s.drbgServes resist = true) :
    ∃ t, s.random resist = some (Config.drbg s.sec.drbgDraws, t) ∧ s.Drew t := by
  rw [State.random, if_pos h]
  exact ⟨_, rfl, (s.countDraw_drew _).stopServing _⟩

/-- The node's identity and epoch are read off other fields. -/
theorem State.Drew.flag {s t : State} (h : s.Drew t) (q : Reg) (hq : q.key ∉ drawFields) : t.flag q = s.flag q := State.flag_congr (h.get q hq)

theorem State.Drew.nodeUid {s t : State} (h : s.Drew t) : t.nodeUid = s.nodeUid := by
  have htwin : t.twin = s.twin := h.flag _ (by decide)
  have hchip : t.chipUid = s.chipUid := by rw [State.chipUid, State.chipUid, h.get CHIP.UID_HI (by decide), h.get CHIP.UID_LO (by decide)]
  rw [State.nodeUid, State.nodeUid, htwin, h.flag PWR.STRAP_TWIN_ID (by decide), hchip]

theorem State.Drew.epoch {s t : State} (h : s.Drew t) : t.epoch = s.epoch := by
  have htwin : t.twin = s.twin := h.flag _ (by decide)
  have hserved : t.served = s.served := by rw [State.served, State.served, htwin, h.flag TWIN.TWIN_CTRL_LINE (by decide)]
  rw [State.epoch, State.epoch, hserved, h.get (GTB.FORM_EPOCH _) (by cases s.served.headD .A <;> decide)]

/-! ## KEY_REQ -/

section
variable (s : State)

theorem exec_keyReqTx_none (h : s.needsKey = false ∨ (s.time.running = true ∧ s.sec.asked = true) ∨ s.powered .sec = false) : exec .keyReqTx s = .next s := by
  change execKeyReqTx s = _
  rcases h with h | ⟨hrun, hasked⟩ | h
  · simp [execKeyReqTx, State.sendKeyReq, h]
  · simp [execKeyReqTx, State.sendKeyReq, hrun, hasked]
  · simp [execKeyReqTx, h]

/-- A counted frame for each element of a list. -/
theorem State.each_countSent {α : Type} (r : Reg) (mk : α → Sent) (a : α) (as : List α) (t : State) :
    (t.each (a :: as) fun b u => (u.count r).emit (mk b)).sent = t.sent ++ (a :: as).map mk
      ∧ (t.each (a :: as) fun b u => (u.count r).emit (mk b)).sec = t.sec ∧ (t.each (a :: as) fun b u => (u.count r).emit (mk b)).mem = t.mem
      ∧ (t.each (a :: as) fun b u => (u.count r).emit (mk b)).get r = min (t.get r + (a :: as).length) (2 ^ r.width - 1) := by
  have hfirst : ((t.count r).emit (mk a)).sent = t.sent ++ [mk a] := congrArg (· ++ [mk a]) (t.count_sent r)
  have hget : ((t.count r).emit (mk a)).get r = min (t.get r + 1) (2 ^ r.width - 1) := t.get_count r
  induction as generalizing a t with
  | nil => exact ⟨hfirst, t.count_sec r, t.count_mem r, hget⟩
  | cons b bs ih =>
    obtain ⟨hsent, hsec, hmem, hcount⟩ := ih b ((t.count r).emit (mk a)) (congrArg (· ++ [mk b]) (State.count_sent _ r)) (State.get_count _ r)
    refine ⟨hsent.trans (by rw [hfirst, List.append_assoc]; rfl), hsec.trans (t.count_sec r), hmem.trans (t.count_mem r), hcount.trans ?_⟩
    rw [hget, List.length_cons, List.length_cons, List.length_cons]
    omega

/-- A request leaves on each port of the node's open lines that may send it, with a fresh nonce and its CMAC (R390). -/
theorem exec_keyReqTx {k : BitVec 256} {ps : List BackbonePort} (hp : s.powered .sec = true) (hneeds : s.needsKey = true) (hsilent : s.failSilent = false)
    (hasked : (s.time.running && s.sec.asked) = false) (hkey : s.ownNodeKey = some k) (hdrbg : s.drbgServes false = true)
    (hports : ps = (s.keyPorts.filter fun p => (s.fitsFree p 64 || !s.time.running) && s.live (.gtb p.line) && s.mayOriginate p)) (hne : ps ≠ []) :
    ∃ (t : State) (f : KeyReqFrame), exec .keyReqTx s = .next t
      ∧ f.sa = s.nodeUid ∧ f.uid = s.nodeUid ∧ f.epoch = s.epoch ∧ f.mac = Config.cmac k { f with mac := 0 }.head
      ∧ f.nonce = BitVec.ofNat 64 (Config.drbg s.sec.drbgDraws)
      ∧ t.sent = s.sent ++ ps.map (fun p => .keyReq p f)
      ∧ t.sec = { s.sec with nonce := some f.nonce, asked := true, drbgDraws := s.sec.drbgDraws + 1 }
      ∧ t.get SEC.KEY_REQ_TX_CNT = min (s.get SEC.KEY_REQ_TX_CNT + ps.length) (2 ^ SEC.KEY_REQ_TX_CNT.width - 1) ∧ t.mem = s.mem := by
  obtain ⟨u, hrandom, hdrew⟩ := s.random_serves false hdrbg
  obtain ⟨p, qs, rfl⟩ := List.exists_cons_of_ne_nil hne
  let f : KeyReqFrame := ⟨u.nodeUid, u.nodeUid, BitVec.ofNat 64 (Config.drbg s.sec.drbgDraws), u.epoch,
    Config.cmac k (KeyReqFrame.head ⟨u.nodeUid, u.nodeUid, BitVec.ofNat 64 (Config.drbg s.sec.drbgDraws), u.epoch, 0⟩)⟩
  obtain ⟨hsent, hsec, hmem, hcount⟩ := State.each_countSent SEC.KEY_REQ_TX_CNT (fun p => .keyReq p f) p qs
    (u.withSec fun x => { x with nonce := some f.nonce, asked := true })
  refine ⟨_, f, ?_, hdrew.nodeUid, hdrew.nodeUid, hdrew.epoch, rfl, rfl, hsent.trans ?_, hsec.trans ?_, hcount.trans ?_, hmem.trans ?_⟩
  · change execKeyReqTx s = _
    rw [execKeyReqTx, if_pos hp, State.sendKeyReq, hneeds, hsilent, hasked, hkey, ← hports, hrandom]
    rfl
  · rw [State.withSec_sent, hdrew.sent]
  · rw [State.withSec_sec, hdrew.sec]
  · rw [State.withSec_get, hdrew.get _ (by decide)]
  · rw [State.withSec_mem, hdrew.mem]

/-- A request of this epoch with a right CMAC waits; one with a wrong CMAC is counted (R391, R392). -/
theorem exec_keyReqRx {p : BackbonePort} (f : KeyReqFrame) {fleet : BitVec 256} (hp : s.powered .sec = true) (hst : s.lineState p.line = lnRUN)
    (hfleet : s.sec.fleet = some fleet) (hkey : s.sliceKeyNow.isSome = true) (htgk : s.sec.tgk.isSome = true) (hroom : s.sec.takenCount.getD (portIndex p) 0 < 4) :
    exec (.keyReqRx p f) s = .next (if f.mac ≠ Config.cmac (nodeKey fleet f.uid) f.head then s.count SEC.KEY_REQ_BAD_CNT
      else if f.epoch ≠ s.epoch then s
      else s.withSec fun k => { k with
        taken := k.taken ++ [⟨p, f.uid, f.nonce⟩]
        takenCount := setAt k.takenCount (portIndex p) (s.sec.takenCount.getD (portIndex p) 0 + 1) }) := by
  have hopen : (s.lineState p.line != lnOFF) = true := by rw [hst]; decide
  change execKeyReqRx p f s = _
  rw [List.getD_eq_getElem?_getD] at hroom
  rw [execKeyReqRx, hp, hopen, if_pos (by rfl), State.takeKeyReq, hfleet]
  simp [hst, hkey, htgk, Nat.not_le.mpr hroom, Option.isNone_iff_eq_none, ← Option.not_isSome_iff_eq_none]

theorem exec_keyReqRx_none {p : BackbonePort} (f : KeyReqFrame) (h : 4 ≤ s.sec.takenCount.getD (portIndex p) 0 ∨ s.powered .sec = false) :
    exec (.keyReqRx p f) s = .next s := by
  change execKeyReqRx p f s = _
  rcases h with h | h
  · rw [List.getD_eq_getElem?_getD] at h
    cases hfleet : s.sec.fleet <;> simp [execKeyReqRx, State.takeKeyReq, hfleet, h]
  · simp [execKeyReqRx, h]

/-! ## KEY_GRANT -/

theorem exec_keyGrantTx_none (h : s.sec.taken = [] ∨ s.powered .sec = false) : exec .keyGrantTx s = .next s := by
  have hself : (s.withSec fun k => { k with taken := [] }) = { s with sec := { s.sec with taken := [] } } := rfl
  change execKeyGrantTx s = _
  rcases h with h | h
  · have hsec : { s.sec with taken := [] } = s.sec := by rw [← h]
    simp [execKeyGrantTx, State.sendGrants, h, State.each, hself, hsec]
  · simp [execKeyGrantTx, h]

/-- A waiting request is answered with the sealed TGK (R393). -/
theorem exec_keyGrantTx {q : TakenRequest} {fleet tgk : BitVec 256} (hp : s.powered .sec = true) (hsilent : s.failSilent = false)
    (hkey : s.sliceKeyNow.isSome = true) (htaken : s.sec.taken = [q]) (hfits : s.fitsFree q.port 114 = true) (hup : s.linkUp q.port = true)
    (hmay : s.mayOriginate q.port = true) (hfleet : s.sec.fleet = some fleet) (htgk : s.sec.tgk = some tgk) (hdrbg : s.drbgServes false = true) :
    ∃ (t : State) (f : KeyGrantFrame), exec .keyGrantTx s = .next t ∧ f.sa = s.nodeUid ∧ f.responder = s.nodeUid ∧ f.uid = q.uid ∧ f.nonce = q.nonce ∧ f.epoch = s.epoch
      ∧ f.gen = BitVec.ofNat 32 (s.get SEC.KEY_GEN) ∧ f.iv = BitVec.ofNat 96 (Config.drbg s.sec.drbgDraws)
      ∧ (f.ct, f.tag) = Config.gcmSeal (nodeKey fleet q.uid) f.iv { f with ct := 0, tag := 0 }.head tgk
      ∧ t.sent = s.sent ++ [.keyGrant q.port f] ∧ t.sec = { s.sec with taken := [], drbgDraws := s.sec.drbgDraws + 1 }
      ∧ t.get SEC.KEY_GRANT_TX_CNT = min (s.get SEC.KEY_GRANT_TX_CNT + 1) (2 ^ SEC.KEY_GRANT_TX_CNT.width - 1) ∧ t.mem = s.mem := by
  obtain ⟨u, hrandom, hdrew⟩ := s.random_serves false hdrbg
  let f0 : KeyGrantFrame := ⟨u.nodeUid, q.uid, q.nonce, u.epoch, BitVec.ofNat 32 (u.get SEC.KEY_GEN), u.nodeUid, BitVec.ofNat 96 (Config.drbg s.sec.drbgDraws), 0, 0⟩
  let sealed := Config.gcmSeal (nodeKey fleet q.uid) f0.iv f0.head tgk
  let f : KeyGrantFrame := { f0 with ct := sealed.1, tag := sealed.2 }
  have hgrant : s.grantKey q = (u.count SEC.KEY_GRANT_TX_CNT).emit (.keyGrant q.port f) := by
    rw [State.grantKey, hfleet, htgk, hrandom]
  refine ⟨(s.grantKey q).withSec fun k => { k with taken := [] }, f, ?_, hdrew.nodeUid, hdrew.nodeUid, rfl, rfl, hdrew.epoch, ?_, rfl, rfl, ?_, ?_, ?_, ?_⟩
  · change execKeyGrantTx s = _
    have hkey' : s.sliceKeyNow.isNone = false := by simpa [← Option.not_isSome] using hkey
    simp [execKeyGrantTx, hp, State.sendGrants, htaken, hfits, hup, hmay, hsilent, hkey', State.each]
  · exact congrArg (BitVec.ofNat 32) (hdrew.get _ (by decide))
  · rw [hgrant, State.withSec_sent]
    exact congrArg (· ++ [Sent.keyGrant q.port f]) ((State.count_sent _ _).trans hdrew.sent)
  · rw [hgrant, State.withSec_sec, State.emit_sec, State.count_sec, hdrew.sec]
  · rw [hgrant, State.withSec_get, State.emit_get, State.get_count, hdrew.get _ (by decide)]
  · rw [hgrant, State.withSec_mem, State.emit_mem, State.count_mem, hdrew.mem]

/-- What a grant for this node gives (R394). -/
theorem exec_keyGrantRx {p : BackbonePort} {f : KeyGrantFrame} {key : BitVec 256} (hp : s.powered .sec = true) (hst : s.lineState p.line ≠ lnOFF)
    (hown : s.ownNodeKey = some key) (huid : f.uid = s.nodeUid) (hnonce : s.sec.nonce = some f.nonce) (hepoch : f.epoch = s.epoch) (hnow : s.sliceKeyNow = none) :
    exec (.keyGrantRx p f) s = .next (match Config.gcmOpen key f.iv f.head f.ct f.tag with
      | none => s
      | some tgk => ((((s.withSec fun k => { k with
          tgk := some tgk, current := some (sliceKey tgk f.epoch f.gen.toNat), nonce := none }).set SEC.KEY_GEN f.gen.toNat).set
            SEC.KEY_EPOCH f.epoch.toNat).raise .sec 10).showKeys) := by
  change execKeyGrantRx p f s = _
  have hopen : (s.lineState p.line != lnOFF) = true := bne_iff_ne.mpr hst
  rw [execKeyGrantRx, hp, hopen, if_pos (by rfl), State.takeGrant, hown]
  simp only [huid, hnonce, hepoch, hnow, bne_self_eq_false, Option.isSome_none, Bool.or_self, Bool.false_eq_true, if_false] <;> rfl

theorem exec_keyGrantRx_none {p : BackbonePort} {f : KeyGrantFrame} (h : f.uid ≠ s.nodeUid ∨ s.sec.nonce ≠ some f.nonce ∨ f.epoch ≠ s.epoch ∨ s.powered .sec = false) :
    exec (.keyGrantRx p f) s = .next s := by
  change execKeyGrantRx p f s = _
  cases hown : s.ownNodeKey
  case none => simp [execKeyGrantRx, State.takeGrant, hown]
  case some key => rcases h with h | h | h | h <;> simp [execKeyGrantRx, State.takeGrant, hown, h]

/-! ## The key roll -/

theorem exec_keyRoll_none (h : s.cycle % 2 ^ 30 ≠ 0 ∨ s.time.running = false ∨ s.sec.rolled = true ∨ s.sec.tgk = none) : exec .keyRoll s = .next s := by
  change execKeyRoll s = _
  refine congrArg Host.Outcome.next (if_neg fun hdue => ?_)
  simp only [Bool.and_eq_true, decide_eq_true_eq, Bool.not_eq_true'] at hdue
  obtain ⟨⟨⟨htgk, hrun⟩, hcycle⟩, hrolled⟩ := hdue
  rcases h with h | h | h | h
  · exact h hcycle
  · exact absurd hrun (by simp [h])
  · exact absurd hrolled (by simp [h])
  · exact absurd htgk (by simp [h])

section
variable {tgk : BitVec 256} {e : BitVec 16} (htgk : s.sec.tgk = some tgk) (he : e = BitVec.ofNat 16 (s.get SEC.KEY_EPOCH)) (hrun : s.time.running = true)
  (hcycle : s.cycle % 2 ^ 30 = 0) (hrolled : s.sec.rolled = false)
include htgk he hrun hcycle hrolled

theorem exec_keyRoll_due : exec .keyRoll s = .next ((((s.withSec fun x => { x with
    current := s.rollOver e, next := x.next.filter fun _ => x.nextEpoch != e, rolled := true }).set SEC.KEY_GEN (s.get SEC.KEY_GEN + 1)).raise .sec 11).showKeys) := by
  subst he
  exact congrArg Host.Outcome.next (if_pos (by rw [htgk, hrun, hcycle, hrolled]; rfl))

/-- The key derived for this epoch becomes current. -/
theorem exec_keyRoll_next {k : BitVec 128} (hnext : s.sec.next = some k) (hepoch : s.sec.nextEpoch = e) :
    exec .keyRoll s = .next ((((s.withSec fun x => { x with current := some k, next := none, rolled := true }).set SEC.KEY_GEN (s.get SEC.KEY_GEN + 1)).raise .sec 11).showKeys) := by
  have hroll : s.rollOver e = some k := by
    have hkept : ((some k).filter fun _ => decide (e = e)) = some k := by simp
    rw [State.rollOver, hnext, hepoch, hkept]
  rw [exec_keyRoll_due s htgk he hrun hcycle hrolled, hroll]
  simp [State.withSec, hnext, hepoch]

/-- Where none was derived for this epoch, a freshly derived one does. -/
theorem exec_keyRoll_fresh (h : s.sec.next = none ∨ s.sec.nextEpoch ≠ e) :
    exec .keyRoll s = .next ((((s.withSec fun x => { x with current := some (sliceKey tgk e (s.get SEC.KEY_GEN + 1)), rolled := true }).set SEC.KEY_GEN
      (s.get SEC.KEY_GEN + 1)).raise .sec 11).showKeys) := by
  have hkept : (s.sec.next.filter fun _ => s.sec.nextEpoch != e) = s.sec.next := by
    rcases h with h | h
    · rw [h]; rfl
    · cases s.sec.next <;> simp [h]
  have hfresh : (s.sec.next.filter fun _ => s.sec.nextEpoch = e) = none := by
    rcases h with h | h
    · rw [h]; rfl
    · cases s.sec.next <;> simp [h]
  rw [exec_keyRoll_due s htgk he hrun hcycle hrolled, State.rollOver, hfresh, htgk]
  simp only [State.withSec, hkept, Option.map_some]

end

end

end Sys2Proof.Machine

namespace Sys2Proof.Proofs
open Sys2Proof.Machine

/-- Settles O28: what a draw leaves, the frames built from it, and the roll with or without a key derived for the epoch. -/
theorem keyCommands : Obligations.KeyCommands := by
  intro s
  refine ⟨fun k ps hp hneeds hsilent hasked hkey hdrbg hports hne => exec_keyReqTx s hp hneeds hsilent hasked hkey hdrbg hports hne, exec_keyReqTx_none s, ?_,
    fun p f h => exec_keyReqRx_none s f h, exec_keyGrantTx_none s,
    fun q fleet tgk hp hsilent hkey htaken hfits hup hmay hfleet htgk hdrbg => exec_keyGrantTx s hp hsilent hkey htaken hfits hup hmay hfleet htgk hdrbg, ?_,
    fun p f h => exec_keyGrantRx_none s h, ?_, exec_keyRoll_none s⟩
  · intro p f fleet hp hst hfleet hkey htgk hroom
    have hexec := exec_keyReqRx s f hp hst hfleet hkey htgk hroom
    refine ⟨fun hmac => hexec.trans (by rw [if_pos hmac]), fun hmac hepoch => hexec.trans ?_, fun hmac hepoch => hexec.trans ?_⟩
    · rw [if_neg (not_not.mpr hmac), if_pos hepoch]
    · rw [if_neg (not_not.mpr hmac), if_neg (not_not.mpr hepoch)]
  · intro p f key hp hst hown huid hnonce hepoch hnow
    have hexec := exec_keyGrantRx s hp hst hown huid hnonce hepoch hnow
    exact ⟨fun hopen => by rw [hexec, hopen], fun tgk hopen => by rw [hexec, hopen]⟩
  · intro tgk e htgk he hrun hcycle hrolled
    exact ⟨fun k hnext hepoch => exec_keyRoll_next s htgk he hrun hcycle hrolled hnext hepoch, exec_keyRoll_fresh s htgk he hrun hcycle hrolled⟩

end Sys2Proof.Proofs
end

section
/-! Pins of the Loaf (R171, R174 to R176), and a draft request of an engine in LOCKED mode (R47, R245). -/

namespace Sys2Proof.Machine

/-! ## Pins -/

section
variable (s : State) (c : Line) (hp : s.powered (.loaf c) = true)
include hp

theorem exec_pinLatest : exec (.pinLatest c) s = .next (s.pin c (LOAF.BANK_STAT_LATEST_VALID c) (LOAF.BANK_STAT_LATEST c)) :=
  congrArg Host.Outcome.next (if_pos hp)

theorem exec_pinPrevious : exec (.pinPrevious c) s = .next (s.pin c (LOAF.BANK_STAT_PREV_VALID c) (LOAF.BANK_STAT_PREVIOUS c)) :=
  congrArg Host.Outcome.next (if_pos hp)

theorem exec_unpin : exec (.unpin c) s = .next (s.unpin c) := congrArg Host.Outcome.next (if_pos hp)

end

/-- Of four banks, three in use leave one free (R171). -/
theorem exists_free_bank (latest : Nat) (previous pinned : Option Nat) : ∃ b < 4, b ≠ latest ∧ some b ≠ previous ∧ some b ≠ pinned := by
  by_contra hnone
  push Not at hnone
  have hall : ([0, 1, 2, 3] : List Nat).map some ⊆ [some latest, previous, pinned] := by
    intro o ho
    obtain ⟨b, hb, rfl⟩ := List.mem_map.mp ho
    have hlt : b < 4 := by
      simp at hb
      omega
    by_cases h1 : b = latest
    · simp [h1]
    · by_cases h2 : some b = previous
      · simp [h2]
      · simp [hnone b hlt h1 h2]
  have hlen := (List.subperm_of_subset (by decide) hall).length_le
  simp at hlen

theorem freeBank_free (latest : Nat) (previous pinned : Option Nat) :
    freeBank latest previous pinned < 4 ∧ freeBank latest previous pinned ≠ latest ∧ previous ≠ some (freeBank latest previous pinned)
      ∧ pinned ≠ some (freeBank latest previous pinned) := by
  obtain ⟨a, ha, hal, hap, hapin⟩ := exists_free_bank latest previous pinned
  have hsome : (lowest 4 fun b => b != latest && some b != previous && some b != pinned).isSome = true :=
    List.find?_isSome.mpr ⟨a, List.mem_range.mpr ha, by simp [hal, hap, hapin]⟩
  obtain ⟨b, hb⟩ := Option.isSome_iff_exists.mp hsome
  have hfree : freeBank latest previous pinned = b := by rw [freeBank, hb]; rfl
  have hmem := List.mem_range.mp (List.mem_of_find?_eq_some hb)
  have hprop := List.find?_some hb
  simp only [Bool.and_eq_true, bne_iff_ne, ne_eq] at hprop
  obtain ⟨⟨hne, hnp⟩, hnpin⟩ := hprop
  rw [hfree]
  exact ⟨hmem, hne, fun h => hnp h.symm, fun h => hnpin h.symm⟩

/-! ## A draft request in LOCKED mode -/

/-- Both channels powered and in LOCKED mode, with every draft closed. -/
def lockedPair : State := (State.reset.set PWR.PD_STAT_ON 0xFFFF).set CHIP.CH_MODE_MODE 1

/-- An engine of channel A reaches its draft 4 there, which is closed. -/
theorem lockedPair_reaches : lockedPair.loafOn .A = true ∧ lockedPair.draftAccess (.engine .A 0) .A (4 : BitVec 3).toNat = .applies
    ∧ (lockedPair.draft .A (4 : BitVec 3).toNat).state = .closed := by decide

/-- Its ABORT acts in both channels alike: the error is counted on both pages. -/
theorem lockedPair_abort_counts : (lockedPair.requestAbort (.engine .A 0) .A (4 : BitVec 3).toNat).get (LOAF.DRAFT_ERR_CNT .B) = 1 := by decide

/-- The error of one page is not counted on the other. -/
theorem lockedPair_error_counts : (lockedPair.draftError (draftPage .A (4 : BitVec 3).toNat)).get (LOAF.DRAFT_ERR_CNT .B) = 0 := by decide

end Sys2Proof.Machine

namespace Sys2Proof.Proofs
open Sys2Proof.Machine

/-- Settles O29: the pin holds what the bank's field names, and three banks in use leave a fourth. -/
theorem pinCommands : Obligations.PinCommands := by
  intro s c hp
  refine ⟨fun h => ?_, fun h => ?_, exec_unpin s c hp, fun h => ?_, fun latest previous pinned _ _ _ => freeBank_free latest previous pinned⟩
  · rw [exec_pinLatest s c hp, State.pin, if_pos h]
  · rw [exec_pinPrevious s c hp, State.pin, if_pos h]
  · rw [exec_pinLatest s c hp, exec_unpin s c hp, State.pin, if_neg (by simp [h])]

/-- Refutes O30: in LOCKED mode an engine's request acts in both channels (R47), so an ABORT of its closed draft 4 counts the error on both pages, where
the statement has it counted on the one page of that draft. -/
theorem not_draftCommands : ¬ Obligations.DraftCommands := by
  intro h
  obtain ⟨hon, haccess, hclosed⟩ := lockedPair_reaches
  obtain ⟨-, -, -, habort, -⟩ := h lockedPair (.engine .A 0) .A 4 hon haccess
  have hexec : exec (.draftAbort (.engine .A 0) .A 4) lockedPair = .next (lockedPair.requestAbort (.engine .A 0) .A (4 : BitVec 3).toNat) :=
    congrArg Host.Outcome.next (if_pos hon)
  have hget := congrArg (State.get · (LOAF.DRAFT_ERR_CNT .B)) (Host.Outcome.next.inj (hexec.symm.trans (habort hclosed)))
  exact absurd (lockedPair_abort_counts.symm.trans (hget.trans lockedPair_error_counts)) (by decide)

end Sys2Proof.Proofs
end

section
/-! Jobs of the kneaders (R200, R210 to R213, R220, R223). -/

namespace Sys2Proof.Machine

/-! ## A kneader after an update -/

section
variable (s : State) (c : Line)

@[simp] theorem State.withKneader_kneader (f : Kneader → Kneader) : (s.withKneader c f).kneader c = f (s.kneader c) := by cases c <;> rfl

theorem State.count_kneader (r : Reg) : (s.count r).kneader c = s.kneader c := by
  cases c
  · exact s.count_kneaderA r
  · exact s.count_kneaderB r

theorem State.set_kneader (r : Reg) (v : Nat) : (s.set r v).kneader c = s.kneader c := by
  cases c
  · exact s.set_kneaderA r v
  · exact s.set_kneaderB r v

theorem State.countRaise_kneader (r : Reg) (p : Page) (b : Nat) : (s.countRaise r p b).kneader c = s.kneader c := by
  cases c
  · exact s.countRaise_kneaderA r p b
  · exact s.countRaise_kneaderB r p b

theorem State.update_kneader (r : Reg) (f : Nat → Nat) : (s.update r f).kneader c = s.kneader c := by
  cases c
  · exact s.update_kneaderA r f
  · exact s.update_kneaderB r f

theorem State.showFlight_kneader : (s.showFlight c).kneader c = s.kneader c := (State.update_kneader _ c _ _).trans (State.set_kneader _ c _ _)

/-! ## Triggers -/

theorem exec_kick (job : BitVec 15) (hm : s.lockedMode = false) : exec (.kick c job) s = .next (s.triggerJob c trKICK job.toNat) := by
  change execKick c job s = _
  rw [execKick, hm]
  rfl

/-- In LOCKED mode a trigger reaches both kneaders, whichever it names (R47). -/
theorem exec_kick_locked (job : BitVec 15) (hm : s.lockedMode = true) : exec (.kick .A job) s = exec (.kick .B job) s := by
  change execKick .A job s = execKick .B job s
  rw [execKick, execKick, if_pos hm, if_pos hm]

theorem State.triggerJob_off (kind job : Nat) (h : s.takesTriggers c = false) : s.triggerJob c kind job = s := by
  rw [State.triggerJob, h]
  rfl

theorem State.triggerJob_unreachable (kind job : Nat) (h : s.takesTriggers c = true) (hfetch : s.fetchEntry c job = .unreachable) :
    s.triggerJob c kind job = s.lostFar c := by
  rw [State.triggerJob, h, hfetch]
  rfl

/-- A trigger whose head and entries can be read: in flight, or the first check that fails (R213). -/
theorem State.triggerJob_entry {job : Nat} {b : List Byte} {h : JobHead} {es : List (List Byte)} (ht : s.takesTriggers c = true)
    (hfetch : s.fetchEntry c job = .entry b) (hh : h = JobHead.ofBytes b) (hen : h.en = true) (htrig : h.trig = trKICK) (hphase : s.cycle % h.div = h.phase)
    (hroom : (s.kneader c).runs.length < 512) (hcount : 1 ≤ h.count) (hlast : h.first + h.count ≤ 32768) (hsig : s.signalsOf c h = es.map TableRead.entry) :
    s.triggerJob c trKICK job = if s.checkJob h (es.map SignalEntry.ofBytes) = 0 then s.enqueueJob c job h none
      else ((s.countRaise (KND.CFG_ERR_CNT c) (.knd c) 10).set (KND.LAST_ERR_JOB c) job).set (KND.LAST_ERR_CAUSE c) (s.checkJob h (es.map SignalEntry.ofBytes)) := by
  subst hh
  have htable : ((JobHead.ofBytes b).count != 0 && decide ((JobHead.ofBytes b).first + (JobHead.ofBytes b).count - 1 ≤ 32767)) = true := by
    simp
    omega
  have hnone : (es.any fun _ => false) = false := by simp
  rw [State.triggerJob, ht, hfetch]
  simp only [hen, htrig, hphase, Nat.not_le.mpr hroom, htable, hsig, Bool.not_true, bne_self_eq_false, Bool.or_self, Bool.false_eq_true, if_false, if_true,
    List.any_map, List.filterMap_map, Function.comp_def, List.filterMap_eq_map', hnone]

/-! ## Starting and completing a job -/

theorem exec_jobStart_none (h : s.freeLane c = none ∨ (s.kneader c).nextGrant 11 (s.kneader c).grants = none ∨ s.powered (.knd c) = false ∨ s.quarantined c = true) :
    exec (.jobStart c) s = .next s := by
  change execJobStart c s = _
  rcases h with h | h | h | h
  · simp [execJobStart, State.startJob, h]
  · cases hlane : s.freeLane c <;> simp [execJobStart, State.startJob, h, hlane]
  · simp [execJobStart, h]
  · simp [execJobStart, h]

/-- The run that a lane takes up, with the head and the source that it has read. -/
def JobRun.takenUp (r : JobRun) (lane : Nat) (b : List Byte) (src : SourceRead) (now : BitVec 64) : JobRun :=
  { r with lane := some lane, head := b, source := src.bytes, usable := src.usable, slot := src.slot, prov := src.prov,
           toDough := (JobHead.ofBytes b).dstSp = 7, started := now }

/-- The waiting run of the grant goes to the free lane (R220). -/
theorem exec_jobStart {lane cls place : Nat} {r : JobRun} {b : List Byte} (hp : s.powered (.knd c) = true) (hq : s.quarantined c = false)
    (hlane : s.freeLane c = some lane) (hgrant : (s.kneader c).nextGrant 11 (s.kneader c).grants = some (cls, place))
    (hfind : ((s.kneader c).runs.find? fun r => r.lane.isNone && r.cls = cls) = some r)
    (hfetch : (s.withKneader c fun k => { k with grants := place }).fetchEntry c r.job = .entry b) :
    ∃ (t : State) (src : SourceRead), exec (.jobStart c) s = .next t ∧ (t.kneader c).runs = (s.kneader c).runs.replace r (r.takenUp lane b src s.ltcNs)
      ∧ (t.kneader c).grants = place ∧ t.mem = s.mem ∧ t.sent = s.sent := by
  have hgo : (s.powered (.knd c) && !s.quarantined c) = true := by rw [hp, hq]; rfl
  have hltc : (s.withKneader c fun k => { k with grants := place }).ltcNs = s.ltcNs := by cases c <;> rfl
  have hcounted : ∀ (p q : Bool) {α : Type} (obs : State → α), (∀ (u : State) (r : Reg), obs (u.count r) = obs u) →
      obs (((s.withKneader c fun k => { k with grants := place }).when p fun s => s.count (KND.PROV_JOB_CNT c)).when q fun s => s.count (LOAF.PROV_READ_CNT c))
        = obs (s.withKneader c fun k => { k with grants := place }) := fun p q α obs hobs =>
    (State.when_observe obs (fun u => hobs u _) _ _).trans (State.when_observe obs (fun u => hobs u _) _ _)
  change ∃ (t : State) (src : SourceRead), execJobStart c s = _ ∧ _
  rw [execJobStart, if_pos hgo, State.startJob, hlane, hgrant]
  simp only [hfind, hfetch]
  refine ⟨_, (s.withKneader c fun k => { k with grants := place }).readSource c (JobHead.ofBytes b) r.forming, rfl, ?_, ?_, ?_, ?_⟩
  · rw [State.withKneader_kneader, hcounted _ _ (·.kneader c) fun u r => u.count_kneader c r, State.withKneader_kneader, hltc]
    rfl
  · rw [State.withKneader_kneader, hcounted _ _ (·.kneader c) fun u r => u.count_kneader c r, State.withKneader_kneader]
  · rw [State.withKneader_mem, hcounted _ _ State.mem State.count_mem, State.withKneader_mem]
  · rw [State.withKneader_sent, hcounted _ _ State.sent State.count_sent, State.withKneader_sent]

theorem exec_jobComplete_none (lane : BitVec 3) (h : ((s.kneader c).runs.find? fun r => r.lane = some lane.toNat) = none) :
    exec (.jobComplete c lane) s = .next s := by
  change execJobComplete c lane s = _
  rw [execJobComplete, h]

/-- The signals of the lane's run are converted and delivered, and the run ends (R221). -/
theorem exec_jobComplete {lane : BitVec 3} {r : JobRun} {h : JobHead} {es : List (List Byte)} {u : State} {writes : List SignalWrite} {skip : Bool}
    (hfind : ((s.kneader c).runs.find? fun r => r.lane = some lane.toNat) = some r) (hp : s.powered (.knd c) = true) (hq : s.quarantined c = false)
    (hh : h = JobHead.ofBytes r.head) (hsig : s.signalsOfRun c r h = es.map TableRead.entry)
    (hconvert : s.convertAll c r.usable r.source (if h.dstSp = 7 then 1928 else s.objLen (h.dest c)) (es.map SignalEntry.ofBytes) = (u, writes, skip)) :
    exec (.jobComplete c lane) s = .next (((((if skip then u else u.deliver c r h writes).count (KND.JOB_DONE_CNT c)).endRun c r).commitDraft7 c false)) := by
  subst hh
  have hnone : (es.any fun _ => false) = false := by simp
  change execJobComplete c lane s = _
  rw [execJobComplete, hfind]
  simp only [hp, hq, Bool.not_false, Bool.and_self, if_true, State.completeJob, hsig, List.any_map, List.filterMap_map, Function.comp_def,
    List.filterMap_eq_map', hnone, Bool.false_eq_true, if_false, hconvert]

/-! ## Jobs that miss their deadline, and jobs that run again -/

theorem exec_jobOverrun {job : BitVec 15} {r : JobRun} (h : ((s.kneader c).runs.find? fun r =>
      r.job = job.toNat && ((s.tickDue && s.dueAtTick c r) || (s.time.running && !s.capture.taken && s.cutDue && s.dueAtCut c r))) = some r) :
    exec (.jobOverrun c job) s = .next ((s.countRaise (KND.OVERRUN_CNT c) (.knd c) 8).dropRun c r 1) := by
  change execJobOverrun c job s = _
  simp only [execJobOverrun, h]
  rfl

theorem exec_jobReplay_before (hend : s.time.returnEndSeen = false) (hclose : s.time.returnClosed = false) : exec (.jobReplay c) s = .next s := by
  change execJobReplay c s = _
  rw [execJobReplay, hend, hclose]
  rfl

section
variable (h : s.time.returnEndSeen = true ∨ s.time.returnClosed = true)
include h

theorem exec_jobReplay_none (hr : (s.kneader c).replays = []) : exec (.jobReplay c) s = .next (s.withKneader c fun k => { k with replays := [] }) := by
  have hopen : (s.time.returnEndSeen || s.time.returnClosed) = true := by simpa using h
  change execJobReplay c s = _
  rw [execJobReplay, if_pos hopen, hr]
  rfl

theorem exec_jobReplay {j : Nat} {i : BitVec 64} {b : List Byte} {u : State} (hr : (s.kneader c).replays = [(j, i)])
    (hu : u = s.withKneader c (fun k => { k with replays := [] })) (hfetch : u.fetchEntry c j = .entry b) :
    exec (.jobReplay c) s = .next (u.enqueueJob c j (JobHead.ofBytes b) (some i)) := by
  subst hu
  have hopen : (s.time.returnEndSeen || s.time.returnClosed) = true := by simpa using h
  change execJobReplay c s = _
  rw [execJobReplay, if_pos hopen, hr]
  simp only [State.each, List.foldl_cons, List.foldl_nil, hfetch]

end

/-! ## The jobs in flight -/

/-- A new run stands right before the first waiting one of its instant and a higher index, or at the end (R211). -/
theorem insertRun_split (r : JobRun) (l : List JobRun) : ∃ front back, l = front ++ back ∧ insertRun r l = front ++ r :: back
    ∧ (∀ x, back.head? = some x → x.triggered = r.triggered ∧ r.job < x.job) := by
  induction l with
  | nil => exact ⟨[], [], rfl, rfl, fun x hx => by cases hx⟩
  | cons x l ih =>
    by_cases h : (x.lane.isNone && x.triggered == r.triggered && decide (r.job < x.job)) = true
    · refine ⟨[], x :: l, rfl, by rw [insertRun, if_pos h]; rfl, fun y hy => ?_⟩
      obtain rfl : x = y := Option.some.inj hy
      simp only [Bool.and_eq_true, beq_iff_eq, decide_eq_true_eq] at h
      exact ⟨h.1.2, h.2⟩
    · obtain ⟨front, back, hl, hins, hhead⟩ := ih
      exact ⟨x :: front, back, by rw [hl]; rfl, by rw [insertRun, if_neg h, hins]; rfl, hhead⟩

theorem length_insertRun (r : JobRun) (l : List JobRun) : (insertRun r l).length = l.length + 1 := by
  obtain ⟨front, back, rfl, hins, -⟩ := insertRun_split r l
  rw [hins, List.length_append, List.length_append, List.length_cons, Nat.add_assoc]

theorem State.enqueueJob_full (job : Nat) (h : JobHead) (again : Option (BitVec 64)) (hfull : 512 ≤ (s.kneader c).runs.length) :
    (s.enqueueJob c job h again).kneader c = s.kneader c := by
  rw [State.enqueueJob, if_pos hfull, State.noteDrop, State.set_kneader, State.set_kneader, State.countRaise_kneader]

theorem State.enqueueJob_runs (job : Nat) (h : JobHead) (again : Option (BitVec 64)) (hroom : (s.kneader c).runs.length < 512) :
    ∃ r : JobRun, r.job = job ∧ r.lane = none ∧ r.cls = h.cls
      ∧ ((s.enqueueJob c job h again).kneader c).runs = if again.isSome then (s.kneader c).runs ++ [r] else insertRun r (s.kneader c).runs := by
  have hcount : (s.when again.isSome fun s => s.count (KND.REPLAY_CNT c)).kneader c = s.kneader c :=
    State.when_observe (·.kneader c) (fun t => t.count_kneader c _) _ _
  rw [State.enqueueJob, if_neg (Nat.not_le.mpr hroom)]
  simp only [State.showFlight_kneader, State.withKneader_kneader, hcount]
  exact ⟨_, rfl, rfl, rfl, rfl⟩

/-- At most 512 are in flight. -/
theorem State.enqueueJob_length (job : Nat) (h : JobHead) (again : Option (BitVec 64)) (hle : (s.kneader c).runs.length ≤ 512) :
    ((s.enqueueJob c job h again).kneader c).runs.length ≤ 512 := by
  by_cases hfull : 512 ≤ (s.kneader c).runs.length
  · rw [s.enqueueJob_full c job h again hfull]
    exact hle
  · obtain ⟨r, -, -, -, hruns⟩ := s.enqueueJob_runs c job h again (Nat.not_le.mp hfull)
    rw [hruns]
    cases again.isSome
    · rw [if_neg Bool.false_ne_true, length_insertRun]
      omega
    · rw [if_pos rfl, List.length_append, List.length_singleton]
      omega

end

theorem mem_replace_of_mem {α : Type} [BEq α] [LawfulBEq α] {a b : α} {l : List α} (h : a ∈ l) : b ∈ l.replace a b := by
  induction l with
  | nil => cases h
  | cons x l ih =>
    rw [List.replace_cons]
    split
    next => exact List.mem_cons_self
    next hx =>
      refine List.mem_cons_of_mem x (ih ((List.mem_cons.mp h).resolve_left ?_))
      rintro rfl
      simp at hx

end Sys2Proof.Machine

namespace Sys2Proof.Proofs
open Sys2Proof.Machine

/-- Settles O32: a trigger by what its head and entries read, a start and a completion by the run of the lane, and the order in flight by where a run is
inserted. -/
theorem kneaderCommands : Obligations.KneaderCommands := by
  intro s c
  refine ⟨fun job hm ht => ?_, fun job hm ht hfetch => ?_, ?_, ?_, exec_jobStart_none s c, fun lane h => exec_jobComplete_none s c lane h,
    fun lane r h es u writes skip hfind hp hq hh hsig hconvert => exec_jobComplete s c hfind hp hq hh hsig hconvert, fun job hm => exec_kick_locked s job hm,
    fun job r h => exec_jobOverrun s c h, exec_jobReplay_none s c, fun j i b u h hr hu hfetch => exec_jobReplay s c h hr hu hfetch, exec_jobReplay_before s c,
    fun job h again hle => ⟨s.enqueueJob_length c job h again hle, s.enqueueJob_runs c job h again⟩, insertRun_split⟩
  · rw [exec_kick s c job hm, s.triggerJob_off c _ _ ht]
  · rw [exec_kick s c job hm, s.triggerJob_unreachable c _ _ ht hfetch, State.lostFar]
  · intro job b h es hm ht hfetch hh hen htrig hphase hroom hcount hlast hsig
    have hexec := (exec_kick s c job hm).trans (congrArg Host.Outcome.next (s.triggerJob_entry c ht hfetch hh hen htrig hphase hroom hcount hlast hsig))
    exact ⟨fun hok => by rw [hexec, if_pos hok], fun cause hcause hne => by rw [hexec, if_neg (hcause ▸ hne), hcause]⟩
  · intro lane cls place r b hp hq hlane hgrant hfind hfetch
    obtain ⟨t, src, hexec, hruns, hplace, hmem, hsent⟩ := exec_jobStart s c hp hq hlane hgrant hfind hfetch
    have hchosen := List.find?_some hfind
    have hcls : r.cls = cls := of_decide_eq_true ((Bool.and_eq_true _ _).mp hchosen).2
    exact ⟨t, r.takenUp lane b src s.ltcNs, hexec, hruns ▸ mem_replace_of_mem (List.mem_of_find?_eq_some hfind), rfl, hcls, rfl, rfl, rfl, rfl, hplace,
      by rw [hruns, List.length_replace], hmem, hsent⟩

end Sys2Proof.Proofs
end

section
/-! The instructions of an engine: the Xknd extension (R232, R233), and those of its own (R226, R228, R240, R241, R246, R251). -/

namespace Sys2Proof.Machine

/-! ## What a change of a role leaves -/

/-- Showing a role sets the fields of the engine's state word alone. -/
theorem State.showRole_get (s : State) (c : Line) (r : Nat) {q : Reg} (hq : keyOffset q.key ≠ 0x44) : (s.showRole c r).get q = s.get q := by
  have hne : ∀ i, ∀ p ∈ shownFields c i, q.key ≠ p.key := fun i p hp heq => hq (by rw [heq, keyOffset_shown c i p hp])
  unfold State.showRole
  split
  · rfl
  · next i _ =>
    simp only [shownFields, List.forall_mem_cons] at hne
    obtain ⟨htainted, hsealed, hview, hdepth, hstate, -⟩ := hne i
    rw [State.get_set_ne _ _ _ _ hstate, State.get_set_ne _ _ _ _ hdepth, State.get_set_ne _ _ _ _ hview, State.get_setFlag_ne _ _ _ _ hsealed,
      State.get_setFlag_ne _ _ _ _ htainted]

theorem State.withRole_get (s : State) (c : Line) (r : Nat) (f : Role → Role) {q : Reg} (hq : keyOffset q.key ≠ 0x44) : (s.withRole c r f).get q = s.get q := by
  refine State.each_observe (·.get q) (fun k _ t => ?_) s
  rw [t.withRoleOf_eq, State.showRole_get _ k r hq]
  cases k <;> rfl

theorem State.withRole_pairOf (s : State) (c : Line) (r : Nat) (f : Role → Role) (d : Line) : (s.withRole c r f).pairOf d = s.pairOf d := by
  refine State.pairOf_congr (fun q hq => s.withRole_get c r f fun heq => ?_) d
  have hacting := keyOffset_acting q hq
  rw [heq] at hacting
  revert hacting
  decide

section
variable (s : State) (c : Line) (r : BitVec 4)

/-! ## An engine that does not run -/

section
variable (h : s.engRuns c r.toNat = false)
include h

theorem exec_bfx_stopped (rd rs1 off w1 : BitVec 5) (sx : Bool) : exec (.bfx c r rd rs1 off w1 sx) s = .next s :=
  congrArg Host.Outcome.next (if_neg (by simp [h]))

theorem exec_bfi_stopped (rd rs1 off w1 : BitVec 5) : exec (.bfi c r rd rs1 off w1) s = .next s := congrArg Host.Outcome.next (if_neg (by simp [h]))

theorem exec_sscl_stopped (rd rs1 rs2 : BitVec 5) (sat : BitVec 2) (sh : BitVec 5) : exec (.sscl c r rd rs1 rs2 sat sh) s = .next s :=
  congrArg Host.Outcome.next (if_neg (by simp [h]))

theorem exec_bswap_stopped (rd rs1 : BitVec 5) (mode : BitVec 2) : exec (.bswap c r rd rs1 mode) s = .next s :=
  congrArg Host.Outcome.next (if_neg (by simp [h]))

theorem exec_ldp_stopped (rd rs1 : BitVec 5) (imm : BitVec 12) : exec (.ldp c r rd rs1 imm) s = .next s :=
  congrArg Host.Outcome.next (if_neg (by simp [h]))

theorem exec_wft_stopped (rd rs1 : BitVec 5) : exec (.wft c r rd rs1) s = .next s := congrArg Host.Outcome.next (if_neg (by simp [h]))

theorem exec_ebreak_stopped : exec (.ebreak c r) s = .next s := congrArg Host.Outcome.next (if_neg (by simp [h]))

theorem exec_engineLoad_stopped (rd : BitVec 5) (addr : Word) (size : BitVec 2) (zext : Bool) : exec (.engineLoad c r rd addr size zext) s = .next s :=
  congrArg Host.Outcome.next (if_neg (by simp [h]))

theorem exec_engineStore_stopped (addr : Word) (size : BitVec 2) (v : Word) : exec (.engineStore c r addr size v) s = .next s :=
  congrArg Host.Outcome.next (if_neg (by simp [h]))

theorem exec_rv32imc_stopped : exec (.rv32imcInstruction c r) s = .next s := congrArg Host.Outcome.next (if_neg (by simp [h]))

end

/-! ## Xknd -/

section
variable (h : s.engRuns c r.toNat = true)
include h

theorem exec_bfx (rd rs1 off w1 : BitVec 5) (sx : Bool) : exec (.bfx c r rd rs1 off w1 sx) s
    = .next (s.engResult c r.toNat rd.toNat (bfxOf ((s.role c r.toNat).reg rs1.toNat) off.toNat (w1.toNat + 1) sx) 4) :=
  congrArg Host.Outcome.next (if_pos h)

theorem exec_bfi (rd rs1 off w1 : BitVec 5) : exec (.bfi c r rd rs1 off w1) s = .next (s.engResult c r.toNat rd.toNat
    (bfiOf ((s.role c r.toNat).reg rd.toNat) ((s.role c r.toNat).reg rs1.toNat) off.toNat (w1.toNat + 1)) 4) :=
  congrArg Host.Outcome.next (if_pos h)

theorem exec_sscl (rd rs1 rs2 sh : BitVec 5) {sat : BitVec 2} (hsat : sat ≠ 3) : exec (.sscl c r rd rs1 rs2 sat sh) s
    = .next (s.engResult c r.toNat rd.toNat (ssclOf ((s.role c r.toNat).reg rs1.toNat) ((s.role c r.toNat).reg rs2.toNat) sat.toNat sh.toNat) 4) := by
  have hne : sat.toNat ≠ 3 := fun heq => hsat (BitVec.eq_of_toNat_eq heq)
  exact congrArg Host.Outcome.next ((if_pos h).trans (if_neg hne))

theorem exec_sscl_reserved (rd rs1 rs2 sh : BitVec 5) : ∃ word, exec (.sscl c r rd rs1 rs2 3 sh) s = .next (s.engTrap c r.toNat exILLEGAL word) :=
  ⟨_, congrArg Host.Outcome.next ((if_pos h).trans (if_pos rfl))⟩

theorem exec_bswap (rd rs1 : BitVec 5) {mode : BitVec 2} (hmode : mode ≠ 3) : exec (.bswap c r rd rs1 mode) s
    = .next (s.engResult c r.toNat rd.toNat (bswapOf ((s.role c r.toNat).reg rs1.toNat) mode.toNat) 4) := by
  have hne : mode.toNat ≠ 3 := fun heq => hmode (BitVec.eq_of_toNat_eq heq)
  exact congrArg Host.Outcome.next ((if_pos h).trans (if_neg hne))

theorem exec_bswap_reserved (rd rs1 : BitVec 5) : ∃ word, exec (.bswap c r rd rs1 3) s = .next (s.engTrap c r.toNat exILLEGAL word) :=
  ⟨_, congrArg Host.Outcome.next ((if_pos h).trans (if_pos rfl))⟩

section
variable {rd rs1 : BitVec 5} {imm : BitVec 12} {a : Word} (ha : a = (s.role c r.toNat).reg rs1.toNat + BitVec.ofInt 32 imm.toInt)
include ha

theorem exec_ldp_misaligned (hx : a.toNat % 4 ≠ 0) : exec (.ldp c r rd rs1 imm) s = .next (s.engTrap c r.toNat exLOADALIGN a) := by
  subst ha
  exact congrArg Host.Outcome.next ((if_pos h).trans (if_pos hx))

theorem exec_ldp_outside (hx : a.toNat % 4 = 0) (hout : a.toNat < 0x40000 ∨ 0x51000 ≤ a.toNat) :
    exec (.ldp c r rd rs1 imm) s = .next (s.accessFault c r.toNat exLOAD a) := by
  subst ha
  refine congrArg Host.Outcome.next ((if_pos h).trans ((if_neg (not_not.mpr hx)).trans (if_pos ?_)))
  simp only [Bool.and_eq_true, decide_eq_true_eq, Bool.not_eq_true', Bool.and_eq_false_iff, decide_eq_false_iff_not]
  omega

theorem exec_ldp_payload (hx : a.toNat % 4 = 0) (hwin : a.toNat / 0x10000 = 4) :
    exec (.ldp c r rd rs1 imm) s = .next (match s.ldpPayload c (a.toNat % 0x10000) with
      | (v, st, slot) =>
        let t := s.withRole c r.toNat fun k => ({ k with kstat := st } : Role).result rd.toNat v 4
        let t := t.when (holdsData st) fun t => t.each (t.pairOf c) fun k u => u.count (LOAF.PROV_READ_CNT k)
        match slot with
        | some p => t.when (st = stPROVISIONAL) fun t => t.withRole c r.toNat fun k => { k with tainted := true, readMap := insertNat p k.readMap }
        | none => t) := by
  subst ha
  refine congrArg Host.Outcome.next ((if_pos h).trans ((if_neg (not_not.mpr hx)).trans ((if_neg ?_).trans ?_)))
  · rw [hwin, decide_eq_false (by decide), Bool.false_and]
    exact Bool.false_ne_true
  · dsimp only
    rw [if_pos hwin] <;> rfl

/-- Data that is not held gives 0 and its status. -/
theorem exec_ldp_none {v : Word} (hx : a.toNat % 4 = 0) (hwin : a.toNat / 0x10000 = 4) (hread : s.ldpPayload c (a.toNat % 0x10000) = (v, stNONE, none)) :
    exec (.ldp c r rd rs1 imm) s = .next (s.withRole c r.toNat fun k => ({ k with kstat := stNONE } : Role).result rd.toNat v 4) := by
  rw [exec_ldp_payload s c r h ha hx hwin, hread]
  rfl

/-- A read of a provisional slot taints the role and is counted (R232). -/
theorem exec_ldp_provisional {v : Word} {p : Nat} (hx : a.toNat % 4 = 0) (hwin : a.toNat / 0x10000 = 4)
    (hread : s.ldpPayload c (a.toNat % 0x10000) = (v, stPROVISIONAL, some p)) :
    exec (.ldp c r rd rs1 imm) s = .next (((s.withRole c r.toNat fun k => ({ k with kstat := stPROVISIONAL } : Role).result rd.toNat v 4).each (s.pairOf c)
      fun k s => s.count (LOAF.PROV_READ_CNT k)).withRole c r.toNat fun k => { k with tainted := true, readMap := insertNat p k.readMap }) := by
  have hpair := s.withRole_pairOf c r.toNat (fun k => ({ k with kstat := stPROVISIONAL } : Role).result rd.toNat v 4) c
  rw [exec_ldp_payload s c r h ha hx hwin, hread, ← hpair]
  rfl

end

end

/-! ## WFT and EBREAK -/

section
variable (h : s.engRuns c r.toNat = true) {rd rs1 : BitVec 5} {mask : Nat} (hmask : mask = ((s.role c r.toNat).reg rs1.toNat).toNat)
include h hmask

/-- A WFT without the tick returns at once with bits already pending, and waits otherwise (R240). -/
theorem exec_wft (hbit : bitOf mask 16 = false) :
    exec (.wft c r rd rs1) s = .next (if (s.role c r.toNat).pending &&& mask ≠ 0 then s.wftReturns c r.toNat mask rd.toNat
      else s.withRole c r.toNat fun k => { k with st := .waiting, waitFor := some (mask, rd.toNat) }) := by
  subst hmask
  change execWft c r rd rs1 s = _
  rw [execWft, if_pos h, State.wft]
  simp only [hbit, State.when_false]

/-- A WFT for the tick seals the release queue first (R246). -/
theorem exec_wft_tick (hbit : bitOf mask 16 = true) {u : State} (hu : u = s.withRole c r.toNat (fun k => { k with sealed_ := true, idleTicks := 0 })) :
    exec (.wft c r rd rs1) s = .next (if (u.role c r.toNat).pending &&& mask ≠ 0 then u.wftReturns c r.toNat mask rd.toNat
      else u.withRole c r.toNat fun k => { k with st := .waiting, waitFor := some (mask, rd.toNat) }) := by
  subst hmask hu
  change execWft c r rd rs1 s = _
  rw [execWft, if_pos h, State.wft]
  simp only [hbit, State.when_true]

end

/-- The answer to a wait, once bits that it waits for are pending. -/
theorem exec_wftReturn {mask reg : Nat} (h : s.engServes c r.toNat = true) (hst : (s.role c r.toNat).st = .waiting)
    (hwait : (s.role c r.toNat).waitFor = some (mask, reg)) :
    exec (.wftReturn c r) s = .next (if (s.role c r.toNat).pending &&& mask ≠ 0 then (s.leaveWait c r.toNat).wftReturns c r.toNat mask reg else s) := by
  change execWftReturn c r s = _
  rw [execWftReturn, if_pos h, State.wftReturn, hwait]
  simp [hst]

theorem exec_ebreak (h : s.engRuns c r.toNat = true) : exec (.ebreak c r) s = .next ((s.atEngine c r.toNat fun k i t =>
    (t.set (ENG.HALT_PC k i) (s.role c r.toNat).pc.toNat).raise (.eng k i) 16).withRole c r.toNat fun k => { k with st := .halted }) :=
  congrArg Host.Outcome.next (if_pos h)

/-! ## Loads and stores -/

section
variable (h : s.engRuns c r.toNat = true) (rd : BitVec 5) {addr : Word} {size : BitVec 2} (zext : Bool) (v : Word)
include h

theorem exec_engineLoad_misaligned (hal : addr.toNat % accessBytes size.toNat ≠ 0) :
    exec (.engineLoad c r rd addr size zext) s = .next (s.engTrap c r.toNat exLOADALIGN addr) :=
  congrArg Host.Outcome.next ((if_pos h).trans (if_pos hal))

theorem exec_engineStore_misaligned (hal : addr.toNat % accessBytes size.toNat ≠ 0) :
    exec (.engineStore c r addr size v) s = .next (s.engTrap c r.toNat exSTOREALIGN addr) :=
  congrArg Host.Outcome.next ((if_pos h).trans (if_pos hal))

variable (hal : addr.toNat % accessBytes size.toNat = 0)
include hal

theorem exec_engineLoad_dtcm {off : Nat} (hplace : engPlace addr.toNat = .dtcm off) :
    exec (.engineLoad c r rd addr size zext) s = .next (s.engResult c r.toNat rd.toNat
      (extendTo (accessBytes size.toNat) (s.leAt (tcmD c r.toNat + off) (accessBytes size.toNat)) zext) 4) := by
  change execEngineLoad c r rd addr size zext s = _
  rw [execEngineLoad, if_pos h, State.loadInstr]
  simp only [hal, ne_eq, not_true_eq_false, if_false, State.engLoad, hplace]

theorem exec_engineStore_dtcm {off : Nat} (hplace : engPlace addr.toNat = .dtcm off) :
    exec (.engineStore c r addr size v) s = .next ((s.each (s.pairOf c) fun k s => s.setBytes (tcmD k r.toNat + off)
      (leBytes (accessBytes size.toNat) (v.toNat % 256 ^ accessBytes size.toNat))).withRole c r.toNat fun k => k.retire (k.pc + 4)) := by
  change execEngineStore c r addr size v s = _
  rw [execEngineStore, if_pos h, State.storeInstr]
  simp only [hal, ne_eq, not_true_eq_false, if_false, State.engStore, hplace, if_true]
  rfl

theorem exec_engineLoad_nothing (hplace : engPlace addr.toNat = .nothing) :
    exec (.engineLoad c r rd addr size zext) s = .next (s.accessFault c r.toNat exLOAD addr) := by
  change execEngineLoad c r rd addr size zext s = _
  rw [execEngineLoad, if_pos h, State.loadInstr]
  simp only [hal, ne_eq, not_true_eq_false, if_false, State.engLoad, hplace]

theorem exec_engineStore_nothing (hplace : engPlace addr.toNat = .nothing) :
    exec (.engineStore c r addr size v) s = .next (s.accessFault c r.toNat exSTORE addr) := by
  change execEngineStore c r addr size v s = _
  rw [execEngineStore, if_pos h, State.storeInstr]
  simp only [hal, ne_eq, not_true_eq_false, if_false, State.engStore, hplace, Bool.false_eq_true]

end

/-! ## Fetching an instruction -/

section
variable {pc w : Nat} (hpc : pc = (s.role c r.toNat).pc.toNat) (hw : w = s.leAt (tcmI c r.toNat + pc) 2) (h : s.engRuns c r.toNat = true)
include hpc hw h

theorem exec_rv32imc_outside (hout : 0x10000 ≤ pc ∨ (w % 4 = 3 ∧ 0x10000 < pc + 4)) :
    exec (.rv32imcInstruction c r) s = .next (s.accessFault c r.toNat exFETCH (BitVec.ofNat 32 pc)) := by
  subst hpc
  subst hw
  exact congrArg Host.Outcome.next ((if_pos h).trans (if_pos (by simpa using hout)))

theorem exec_rv32imc_32 (hin : pc + 4 ≤ 0x10000) (hlong : w % 4 = 3) :
    exec (.rv32imcInstruction c r) s = .next (match decode32 (s.leAt (tcmI c r.toNat + pc) 4) with
      | some i => s.rvExec c r.toNat 4 (BitVec.ofNat 32 (s.leAt (tcmI c r.toNat + pc) 4)) i
      | none => s.engTrap c r.toNat exILLEGAL (BitVec.ofNat 32 (s.leAt (tcmI c r.toNat + pc) 4))) := by
  subst hpc
  subst hw
  refine congrArg Host.Outcome.next ((if_pos h).trans ((if_neg ?_).trans ((if_neg (not_not.mpr hlong)).trans rfl)))
  simp
  omega

theorem exec_rv32imc_16 (hin : pc < 0x10000) (hshort : w % 4 ≠ 3) :
    exec (.rv32imcInstruction c r) s = .next (match decode16 w with
      | some i => s.rvExec c r.toNat 2 (BitVec.ofNat 32 w) i
      | none => s.engTrap c r.toNat exILLEGAL (BitVec.ofNat 32 w)) := by
  subst hpc
  subst hw
  refine congrArg Host.Outcome.next ((if_pos h).trans ((if_neg ?_).trans ((if_pos hshort).trans rfl)))
  simp [hshort]
  omega

end

/-! ## The machine external interrupt -/

theorem exec_interrupt_none (h : (s.role c r.toNat).interrupted = false) : exec (.machineExternalInterrupt c r) s = .next s :=
  congrArg Host.Outcome.next (if_neg (by simp [h]))

theorem exec_interrupt (h : s.engServes c r.toNat = true) (hint : (s.role c r.toNat).interrupted = true) :
    exec (.machineExternalInterrupt c r) s = .next ((if (s.role c r.toNat).st = .waiting then s.leaveWait c r.toNat else s).withRole c r.toNat fun k => k.trap true 11 0) := by
  change Host.Outcome.next (s.takeInterrupt c r.toNat) = _
  rw [State.takeInterrupt, h, hint, if_pos (by rfl), State.when]
  simp only [decide_eq_true_eq]

end

theorem Role.csr_setCsr (k : Role) (a : Nat) (v : Word) : (k.setCsr a v).csr a = v := lookup_store _ _ _ _

theorem Role.csr_setCsr_ne (k : Role) (a b : Nat) (v : Word) (h : b ≠ a) : (k.setCsr a v).csr b = k.csr b := lookup_store_ne _ _ _ _ _ _ h

/-- A trap keeps the CSRs that it does not write. -/
theorem Role.trap_csr_ne (k : Role) (interrupt : Bool) (cause a : Nat) (tval : Word) (h : a ∉ [csrMSTATUS, csrMEPC, csrMCAUSE, csrMTVAL]) :
    (k.trap interrupt cause tval).csr a = k.csr a := by
  simp only [List.mem_cons, List.not_mem_nil, or_false, not_or] at h
  obtain ⟨hst, hpc, hcause, htval⟩ := h
  refine (Role.csr_setCsr_ne _ _ a _ hst).trans ((Role.csr_setCsr_ne _ _ a _ htval).trans ((Role.csr_setCsr_ne _ _ a _ hcause).trans (Role.csr_setCsr_ne _ _ a _ hpc)))

/-- The external interrupt saves the pc and the cause 11, and traps to mtvec (R251). -/
theorem Role.trap_external (k : Role) {tv : Nat} (htv : tv = (k.csr csrMTVEC).toNat) :
    (k.trap true 11 0).pc = BitVec.ofNat 32 (if tv % 4 = 1 then tv / 4 * 4 + 44 else tv / 4 * 4)
      ∧ (k.trap true 11 0).csr csrMEPC = k.pc ∧ (k.trap true 11 0).csr csrMCAUSE = 0x8000000B ∧ (k.trap true 11 0).st = .running := by
  have htvec : (k.trap true 11 0).csr csrMTVEC = k.csr csrMTVEC := k.trap_csr_ne true 11 csrMTVEC 0 (by decide)
  refine ⟨?_, ?_, ?_, rfl⟩
  · have hpc : (k.trap true 11 0).pc = BitVec.ofNat 32 (if true && ((k.trap true 11 0).csr csrMTVEC).toNat % 4 = 1
        then ((k.trap true 11 0).csr csrMTVEC).toNat / 4 * 4 + 4 * 11 else ((k.trap true 11 0).csr csrMTVEC).toNat / 4 * 4) := rfl
    rw [hpc, htvec, ← htv]
    simp
  · exact (Role.csr_setCsr_ne _ _ _ _ (by decide)).trans ((Role.csr_setCsr_ne _ _ _ _ (by decide)).trans ((Role.csr_setCsr_ne _ _ _ _ (by decide)).trans
      (Role.csr_setCsr _ _ _)))
  · exact (Role.csr_setCsr_ne _ _ _ _ (by decide)).trans ((Role.csr_setCsr_ne _ _ _ _ (by decide)).trans (Role.csr_setCsr _ _ _))

end Sys2Proof.Machine

namespace Sys2Proof.Proofs
open Sys2Proof.Machine

/-- Settles O33: each instruction of an engine that runs by its operands, LDP by where its address lies and what the slot holds. -/
theorem xkndCommands : Obligations.XkndCommands := by
  intro s c r rd rs1 rs2 off w1 sh
  refine ⟨fun h => ⟨fun sx => exec_bfx s c r h rd rs1 off w1 sx, exec_bfi s c r h rd rs1 off w1, fun _ hsat => exec_sscl s c r h rd rs1 rs2 sh hsat,
    fun _ hmode => exec_bswap s c r h rd rs1 hmode, exec_sscl_reserved s c r h rd rs1 rs2 sh, exec_bswap_reserved s c r h rd rs1, fun imm a ha =>
      ⟨exec_ldp_misaligned s c r h ha, exec_ldp_outside s c r h ha, fun v st hx hwin hread hst => ?_, fun v p hx hwin hread => exec_ldp_provisional s c r h ha hx hwin hread⟩⟩,
    fun h sx sat mode imm => ⟨exec_bfx_stopped s c r h rd rs1 off w1 sx, exec_bfi_stopped s c r h rd rs1 off w1, exec_sscl_stopped s c r h rd rs1 rs2 sat sh,
      exec_bswap_stopped s c r h rd rs1 mode, exec_ldp_stopped s c r h rd rs1 imm⟩⟩
  subst hst
  exact exec_ldp_none s c r h ha hx hwin hread

/-- Settles O35: each instruction of an engine that runs; a trap by the CSRs it writes. -/
theorem engineInstructions : Obligations.EngineInstructions := by
  intro s c r rd rs1
  refine ⟨fun h mask hmask => ⟨fun hbit hpend => ?_, fun hbit hpend => ?_, fun u hbit hu => ⟨fun hpend => ?_, fun hpend => ?_⟩⟩,
    fun mask reg h hst hwait => ⟨fun hpend => ?_, fun hpend => ?_⟩, exec_ebreak s c r,
    fun addr size zext h => ⟨fun hal => ⟨exec_engineLoad_misaligned s c r h rd zext hal, fun v => exec_engineStore_misaligned s c r h v hal⟩,
      fun off hal hplace => ⟨exec_engineLoad_dtcm s c r h rd zext hal hplace, fun v => exec_engineStore_dtcm s c r h v hal hplace⟩,
      fun hal hplace => ⟨exec_engineLoad_nothing s c r h rd zext hal hplace, fun v => exec_engineStore_nothing s c r h v hal hplace⟩⟩,
    fun pc w hpc hw h => ⟨exec_rv32imc_outside s c r hpc hw h, fun i hin hlong hdec => ?_, fun i hin hshort hdec => ?_, fun hin hshort hdec => ?_,
      fun hin hlong hdec => ?_⟩,
    fun h hst hint => ?_, fun h hst hint => ?_, fun k tv htv => k.trap_external htv, exec_interrupt_none s c r,
    fun h addr size zext v => ⟨exec_wft_stopped s c r h rd rs1, exec_ebreak_stopped s c r h, exec_engineLoad_stopped s c r h rd addr size zext,
      exec_engineStore_stopped s c r h addr size v, exec_rv32imc_stopped s c r h⟩⟩
  · rw [exec_wft s c r h hmask hbit, if_pos hpend]
  · rw [exec_wft s c r h hmask hbit, if_neg (not_not.mpr hpend)]
  · rw [exec_wft_tick s c r h hmask hbit hu, if_pos hpend]
  · rw [exec_wft_tick s c r h hmask hbit hu, if_neg (not_not.mpr hpend)]
  · rw [exec_wftReturn s c r h hst hwait, if_neg (not_not.mpr hpend)]
  · rw [exec_wftReturn s c r h hst hwait, if_pos hpend]
  · rw [exec_rv32imc_32 s c r hpc hw h hin hlong, hdec]
  · rw [exec_rv32imc_16 s c r hpc hw h hin hshort, hdec]
  · rw [exec_rv32imc_16 s c r hpc hw h hin hshort, hdec]
  · rw [exec_rv32imc_32 s c r hpc hw h hin hlong, hdec]
  · rw [exec_interrupt s c r h hint, hst, if_neg (by decide)]
  · rw [exec_interrupt s c r h hint, if_pos hst]

end Sys2Proof.Proofs
end

section
/-! Events, mailboxes and semaphores of an engine (R236, R238, R242, R249, R250), its DMA, and its control (R247, R248, R253, R255, R258). -/

namespace Sys2Proof.Machine

section
variable (s : State) (c : Line) (r : BitVec 4)

/-! ## Events, mailbox and semaphores -/

section
variable (h : s.engRuns c r.toNat = true)
include h

theorem exec_evqPop_empty (rd : BitVec 5) (he : (s.role c r.toNat).evq = []) : exec (.evqPop c r rd) s = .next (s.engResult c r.toNat rd.toNat 0 4) := by
  change execEvqPop c r rd s = _
  rw [execEvqPop, if_pos h, State.popEvent, he]

theorem exec_evqPop (rd : BitVec 5) {w : Word} {t : List Word} (he : (s.role c r.toNat).evq = w :: t) : exec (.evqPop c r rd) s = .next ((s.withRole c r.toNat fun k =>
    ({ k with evq := t } : Role).refill).engResult c r.toNat rd.toNat w 4) := by
  change execEvqPop c r rd s = _
  rw [execEvqPop, if_pos h, State.popEvent, he]

theorem exec_mboxOutDb : exec (.mboxOutDb c r) s = .next ((if (s.role c r.toNat).tainted then s.queueStore c r.toNat 0x000F0040 [1, 0, 0, 0] else s.ringOut c r.toNat).withRole
    c r.toNat fun k => k.retire (k.pc + 4)) := congrArg Host.Outcome.next (if_pos h)

theorem exec_mboxInAck : exec (.mboxInAck c r) s = .next ((if (s.role c r.toNat).tainted then s.queueStore c r.toNat 0x000F0080 [1, 0, 0, 0] else s.ackIn c r.toNat).withRole
    c r.toNat fun k => k.retire (k.pc + 4)) := congrArg Host.Outcome.next (if_pos h)

theorem exec_semaphoreLoad (rd : BitVec 5) (k : BitVec 6) : exec (.semaphoreLoad c r rd k) s
    = .next ((s.semLoad c r.toNat k.toNat).2.engResult c r.toNat rd.toNat (s.semLoad c r.toNat k.toNat).1 4) := congrArg Host.Outcome.next (if_pos h)

theorem exec_semaphoreStore (k : BitVec 6) (v : Word) : exec (.semaphoreStore c r k v) s
    = .next ((s.semStore c r.toNat k.toNat v).withRole c r.toNat fun k => k.retire (k.pc + 4)) := congrArg Host.Outcome.next (if_pos h)

end

section
variable (i : BitVec 4) (hl : s.leads c = true)
include hl

theorem State.hostMbox_role {q : Nat} (f : Nat → State → State) (hq : s.roleAt c i.toNat = some q) : s.hostMbox c i.toNat f = f q s := by
  rw [State.hostMbox, hl, hq]
  rfl

theorem State.hostMbox_none (f : Nat → State → State) (hq : s.roleAt c i.toNat = none) : s.hostMbox c i.toNat f = s.count (ENG.MBOX_NOROLE_CNT c i.toNat) := by
  rw [State.hostMbox, hl, hq]
  rfl

end

theorem exec_inDb (i : BitVec 4) (hp : s.powered (.eng c i.toNat) = true) : exec (.inDb c i) s = .next (s.inDb c i.toNat) :=
  congrArg Host.Outcome.next (if_pos hp)

theorem exec_outAck (i : BitVec 4) (hp : s.powered (.eng c i.toNat) = true) : exec (.outAck c i) s = .next (s.outAck c i.toNat) :=
  congrArg Host.Outcome.next (if_pos hp)

/-! ## DMA -/

theorem exec_dmaGo (d : BitVec 2) (h : s.engRuns c r.toNat = true) (hbusy : ((s.role c r.toNat).dmaAt d.toNat).busy = false) :
    exec (.dmaGo c r d) s = .next ((s.withRole c r.toNat fun k => k.setDma d.toNat fun x =>
      { x with busy := true, err := false, held := k.tainted && leavesChannel x.dst, bank := s.viewBank c r.toNat }).withRole c r.toNat fun k => k.retire (k.pc + 4)) := by
  change execDmaGo c r d s = _
  rw [execDmaGo, if_pos h, State.dmaGo, hbusy, if_neg Bool.false_ne_true]

theorem exec_dmaDone_other (d : BitVec 2) (h : (s.role c r.toNat).dmaRunning ≠ some d.toNat) : exec (.dmaDone c r d) s = .next s :=
  congrArg Host.Outcome.next (if_neg (by simp [h]))

section
variable (d : BitVec 2) (h : s.engServes c r.toNat = true) (hrun : (s.role c r.toNat).dmaRunning = some d.toNat)
include h hrun

theorem exec_dmaDone : exec (.dmaDone c r d) s = .next (s.dmaEnd c r.toNat d.toNat) := congrArg Host.Outcome.next (if_pos (by simp [h, hrun]))

/-- A wrong length ends the copy with an error and its event. -/
theorem exec_dmaDone_empty (hlen : ((s.role c r.toNat).dmaAt d.toNat).len = 0) : exec (.dmaDone c r d) s = .next ((s.withRole c r.toNat fun k => k.setDma d.toNat fun x =>
    { x with busy := false, err := true }).pushEvent c r.toNat evDMA (d.toNat + 16)) := by
  rw [exec_dmaDone s c r d h hrun, State.dmaEnd]
  simp only [hlen]
  rfl

/-- A copy whose length and addresses are right ends as the copy went. -/
theorem exec_dmaDone_copy {x : Dma} {e : CopyEnd} {t : State} (hx : x = (s.role c r.toNat).dmaAt d.toNat) (hlen : x.len % 4 = 0) (hmin : 4 ≤ x.len) (hmax : x.len ≤ 65536)
    (hsrc : x.src.toNat % 4 = 0) (hdst : x.dst.toNat % 4 = 0) (hcopy : s.dmaCopy c r.toNat x.bank (x.len / 4) x.src.toNat x.dst.toNat = (e, t)) :
    (e = .whole → exec (.dmaDone c r d) s =
      .next ((t.withRole c r.toNat fun k => k.setDma d.toNat fun x => { x with busy := false, err := false }).pushEvent c r.toNat evDMA d.toNat)) ∧
    (e = .refused → exec (.dmaDone c r d) s = .next (t.dmaFail c r.toNat d.toNat)) ∧
    (e = .waits → exec (.dmaDone c r d) s = .next s) := by
  subst hx
  rw [exec_dmaDone s c r d h hrun, State.dmaEnd]
  simp only [hlen, hmin, hmax, hsrc, hdst, decide_true, Bool.and_self, if_true, hcopy]
  refine ⟨fun he => ?_, fun he => ?_, fun he => ?_⟩
  all_goals
    subst he
    rfl

end

/-! ## Planned moves, the watchdog and WARM -/

theorem exec_plannedMove_not_idle (h : s.phase ≠ 2) : exec (.plannedMove c) s = .next s := by
  change Host.Outcome.next (s.plannedMove c) = _
  rw [State.plannedMove]
  split
  · simp [h]
  · rfl

theorem exec_plannedMove {q e : Nat} (htarget : (s.rotation (lineBit c)).target.bind (s.roleAt c) = some q) (hspare : s.spareEngine c = some e)
    (hpair : s.pairOf c = [c]) (hl : s.leads c = true) (hq : s.engServes c q = true) (he : s.live (.eng c e) = true) (hst : s.get (ENG.ENG_STAT_STATE c e) = 3)
    (hmoves : ∀ m ∈ s.engMoves, m.chan ≠ c) (hphase : s.phase = 2) (hidle : 8000 ≤ s.get CYC.IDLE_LEN) (hmov : (s.role c q).movable = true) :
    exec (.plannedMove c) s = .next { s.set (ENG.ENG_STAT_STATE c e) 6 with engMoves := s.engMoves ++ [⟨c, q, true, s.ltcNs, 0, false⟩] } := by
  have hnone : (s.engMoves.any fun m => m.chan = c) = false := by simpa using hmoves
  change Host.Outcome.next (s.plannedMove c) = _
  rw [State.plannedMove, htarget, hspare]
  simp [hl, hq, he, hst, hnone, hphase, hidle, hmov, hpair, State.each, hspare, State.ltcNs]

theorem exec_engWdt_due {e : Nat} (hon : s.roleOn c r.toNat = true) (he : s.engineOf c r.toNat = some e) (hset : s.get (ENG.WDT c e) ≠ 0)
    (hidle : s.get (ENG.WDT c e) ≤ (s.role c r.toNat).idleTicks) :
    exec (.engWdt c r) s = .next ((s.countRole c r.toNat ENG.WDT_CNT 12).restartWarm c r.toNat) := by
  change execEngWdt c r s = _
  rw [execEngWdt, if_pos hon, State.watchdog, he]
  simp [hset, hidle]

theorem exec_engWdt_not_due {e : Nat} (he : s.engineOf c r.toNat = some e) (h : s.get (ENG.WDT c e) = 0 ∨ (s.role c r.toNat).idleTicks < s.get (ENG.WDT c e)) :
    exec (.engWdt c r) s = .next s := by
  change execEngWdt c r s = _
  have hnot : (s.get (ENG.WDT c e) != 0 && decide (s.get (ENG.WDT c e) ≤ (s.role c r.toNat).idleTicks)) = false := by
    rcases h with h | h <;> simp [h]
  rw [execEngWdt, State.watchdog, he]
  simp only [hnot, Bool.false_eq_true, if_false, ite_self]

/-- A warm restart starts at WARM_ENTRY with an empty release queue (R258). -/
theorem State.restartWarm_image (u : State) (q : Nat) {cold warm : Word} (h : (u.role c q).image = some (cold, warm)) :
    u.restartWarm c q = (((u.leaveWait c q).withRole c q fun k => { k with relq := [] }).withRole c q fun k =>
      { k with st := .running, waitFor := none, pc := warm, idleTicks := 0 }).pushEvent c q evSTART 2 := by
  rw [State.restartWarm, h]
  rfl

theorem exec_engWarm {i : BitVec 4} {q : Nat} (hp : s.powered (.eng c i.toNat) = true) (hq : s.roleAt c i.toNat = some q) (hon : s.roleOn c q = true) :
    exec (.engWarm c i) s = .next (s.restartWarm c q) := by
  change execEngWarm c i s = _
  rw [execEngWarm, if_pos hp, State.writeWarm, hq]
  simp only [hon, if_true]

theorem exec_engWarm_none {i : BitVec 4} (hq : s.roleAt c i.toNat = none) : exec (.engWarm c i) s = .next s := by
  change execEngWarm c i s = _
  rw [execEngWarm, State.writeWarm, hq]
  simp only [ite_self]

/-! ## RUN -/

section
variable {i : BitVec 4} {on : Bool} {t : State} (hp : s.powered (.eng c i.toNat) = true)
  (ht : t = s.each (s.pairOf c) (fun k s => s.setFlag (ENG.ENG_CTRL_RUN k i.toNat) on))
include hp ht

theorem exec_engRun_none (hq : t.roleAt c i.toNat = none) : exec (.engRun c i on) s = .next t := by
  subst ht
  change execEngRun c i on s = _
  rw [execEngRun, if_pos hp, State.writeRun]
  simp only [hq]

theorem exec_engRun_off {q : Nat} (hq : t.roleAt c i.toNat = some q) (hon : on = false) :
    exec (.engRun c i on) s = .next ((t.leaveWait c q).withRole c q fun k => { k with st := .halted, waitFor := none }) := by
  subst ht
  subst hon
  change execEngRun c i false s = _
  rw [execEngRun, if_pos hp, State.writeRun]
  simp only [hq]
  rfl

/-- RUN set on a role with an image starts it at COLD_ENTRY. -/
theorem exec_engRun_on {q : Nat} {cold warm : Word} (hq : t.roleAt c i.toNat = some q) (hon : on = true) (hwas : s.flag (ENG.ENG_CTRL_RUN c i.toNat) = false)
    (himage : (t.role c q).image = some (cold, warm)) (hl : t.live (.eng c i.toNat) = true) :
    exec (.engRun c i on) s = .next (((t.withRole c q fun k => { k with evq := [], held := [] }).withRole c q fun k =>
      { k with st := .running, waitFor := none, pc := cold, idleTicks := 0 }).pushEvent c q evSTART 0) := by
  subst ht
  subst hon
  change execEngRun c i true s = _
  rw [execEngRun, if_pos hp, State.writeRun]
  simp only [hq, hwas, himage, hl, if_true, Bool.not_false, Bool.and_self]
  rfl

end

end

end Sys2Proof.Machine

namespace Sys2Proof.Proofs
open Sys2Proof.Machine

/-- Settles O36: the event queue by its front, the mailbox by the taint, the semaphores by their holder. -/
theorem engineMessages : Obligations.EngineMessages := by
  intro s c r rd k i
  refine ⟨fun h => ⟨exec_evqPop_empty s c r h rd, fun w t => exec_evqPop s c r h rd, fun ht => ⟨?_, ?_⟩, fun ht => ⟨?_, ?_⟩, fun hfree => ?_, fun hheld => ?_,
    fun hheld => ?_, fun v hv => ?_⟩, fun q hp hl hq => ⟨?_, ?_⟩, fun hp hl hq => ⟨?_, ?_⟩⟩
  · rw [exec_mboxOutDb s c r h, ht, if_neg Bool.false_ne_true]
  · rw [exec_mboxInAck s c r h, ht, if_neg Bool.false_ne_true]
  · rw [exec_mboxOutDb s c r h, if_pos ht]
  · rw [exec_mboxInAck s c r h, if_pos ht]
  · rw [exec_semaphoreLoad s c r h, s.semLoad_free c _ _ hfree]
  · rw [exec_semaphoreLoad s c r h, s.semLoad_held c _ _ hheld]
  · rw [exec_semaphoreStore s c r h, s.semStore_holder c _ _ hheld]
  · rw [exec_semaphoreStore s c r h, s.semStore_ignored c _ _ v hv.symm]
  · rw [exec_inDb s c i hp, State.inDb, s.hostMbox_role c i hl _ hq]
  · rw [exec_outAck s c i hp, State.outAck, s.hostMbox_role c i hl _ hq]
  · rw [exec_inDb s c i hp, State.inDb, s.hostMbox_none c i hl _ hq]
  · rw [exec_outAck s c i hp, State.outAck, s.hostMbox_none c i hl _ hq]

/-- Settles O38: each command by what it needs; a copy by how it ended. -/
theorem dmaAndRunCommands : Obligations.DmaAndRunCommands := fun s c r i d =>
  ⟨exec_dmaGo s c r d, exec_dmaDone_empty s c r d, fun x e t hx h hrun hlen hmin hmax hsrc hdst hcopy =>
      exec_dmaDone_copy s c r d h hrun hx hlen hmin hmax hsrc hdst hcopy,
    exec_dmaDone_other s c r d, fun q e htarget hspare hpair hl hq he hst hmoves hphase hidle hmov =>
      exec_plannedMove s c htarget hspare hpair hl hq he hst hmoves hphase hidle hmov,
    exec_plannedMove_not_idle s c, fun e => exec_engWdt_due s c r, fun u q cold warm h => State.restartWarm_image c u q h, fun e he h => exec_engWdt_not_due s c r he h,
    fun q hp hq hon => exec_engWarm s c hp hq hon, exec_engWarm_none s c,
    fun on t hp ht => ⟨exec_engRun_none s c hp ht, fun q hq hon => exec_engRun_off s c hp ht hq hon,
      fun q cold warm hq hon hwas himage hl => exec_engRun_on s c hp ht hq hon hwas himage hl⟩⟩

end Sys2Proof.Proofs
end

section
/-! The ports of the switch (R263, R270 to R272, R279 to R281, R290): one equation per command and case. -/

namespace Sys2Proof.Machine

/-- Two fields of one page lie at different places. -/
theorem fieldAt_key_ne {p : Page} {off off' lo lo' w w' reset reset' : Nat} {acc acc' : Access} (h : off * 32 + lo ≠ off' * 32 + lo') :
    (fieldAt p off lo w acc reset).key ≠ (fieldAt p off' lo' w' acc' reset').key := by
  simp only [Reg.key, fieldAt]
  omega

section
variable (s : State) (q : BitVec 4)

/-! ## Frames taken -/

section
variable (bytes : List Byte) (ok : Bool) (sof : BitVec 64)

theorem exec_frameRx (hq : q.toNat < 12) (hon : s.portOn q.toNat = true) : exec (.frameRx q bytes ok sof) s = .next (s.receive q.toNat bytes ok sof) :=
  congrArg Host.Outcome.next (if_pos (by simp [hq, hon]))

theorem State.receive_runt (i : Nat) (hsome : bytes ≠ []) (h : bytes.length < 64) : s.receive i bytes ok sof = s.frameError i MAC.RUNT_CNT := by
  rw [State.receive, if_neg (by simpa using hsome), if_pos h]

theorem State.receive_oversize (i : Nat) (hsome : bytes ≠ []) (hmin : 64 ≤ bytes.length) (h : s.maxFrame i < bytes.length) :
    s.receive i bytes ok sof = s.frameError i MAC.OVERSIZE_CNT := by
  rw [State.receive, if_neg (by simpa using hsome), if_neg (by omega), if_pos h]

theorem State.receive_badFcs (i : Nat) (hsome : bytes ≠ []) (hmin : 64 ≤ bytes.length) (hmax : bytes.length ≤ s.maxFrame i) :
    s.receive i bytes false sof = s.frameError i MAC.CRC_ERR_CNT := by
  rw [State.receive, if_neg (by simpa using hsome), if_neg (by omega), if_neg (by omega), Bool.not_false, if_pos rfl]

/-- A good frame of a consist port that is neither PAUSE nor 802.1AS reaches the switch (R263). -/
theorem State.receive_ingress (i : Nat) (hsome : bytes ≠ []) (hmin : 64 ≤ bytes.length) (hmax : bytes.length ≤ s.maxFrame i) (hbackbone : isBackbone i = false)
    {e : Eth} {t : State} (he : e = Eth.ofBytes (bytes.take (bytes.length - 4))) (ht : t = s.count (MAC.RX_FRAMES i)) (hpause : beAt e.body 0 2 ≠ 0x8808)
    (has : e.etype ≠ 0x88F7) (hon : t.switchOn = true) : s.receive i bytes true sof = (t.ingress i e bytes.length sof none none).1 := by
  subst he ht
  rw [State.receive, if_neg (by simpa using hsome), if_neg (by omega), if_neg (by omega), if_neg (by simp)]
  simp only [if_neg hpause, if_neg has, hbackbone, hon, Bool.false_and, Bool.not_true, Bool.or_self, Bool.false_eq_true, if_false]

end

/-! ## A port that does not run -/

section
variable (hoff : s.portOn q.toNat = false)
include hoff

theorem exec_frameRx_off (bytes : List Byte) (ok : Bool) (sof : BitVec 64) : exec (.frameRx q bytes ok sof) s = .next s :=
  congrArg Host.Outcome.next (if_neg (by simp [hoff]))

theorem exec_frameTxStart_off (sfd : BitVec 64) : exec (.frameTxStart q sfd) s = .next s := congrArg Host.Outcome.next (if_neg (by simp [hoff]))

theorem exec_pauseFrameRx_off (quanta : BitVec 16) : exec (.pauseFrameRx q quanta) s = .next s := congrArg Host.Outcome.next (if_neg (by simp [hoff]))

theorem exec_pauseExpiry_off : exec (.pauseExpiry q) s = .next s := congrArg Host.Outcome.next (if_neg (by simp [hoff]))

theorem exec_pauseStorm_off : exec (.pauseStorm q) s = .next s := congrArg Host.Outcome.next (if_neg (by simp [hoff]))

theorem exec_pauseStormEnd_off : exec (.pauseStormEnd q) s = .next s := congrArg Host.Outcome.next (if_neg (by simp [hoff]))

end

/-! ## Transmission, the gates -/

theorem exec_frameTxStart (sfd : BitVec 64) (hq : q.toNat < 12) (hl : s.live .sw = true) (hon : s.portOn q.toNat = true)
    (hlink : s.flag (MAC.MAC_STAT_LINK q.toNat) = true) (hpaused : s.flag (MAC.MAC_STAT_PAUSED q.toNat) = false) (hsilent : s.failSilent = false)
    (hbusy : (s.swPort q.toNat).busyUntil.toNat ≤ s.ltcNs.toNat) : exec (.frameTxStart q sfd) s = .next (s.startFrame q.toNat sfd) :=
  congrArg Host.Outcome.next (if_pos (by simp [hq, hl, hon, hlink, hpaused, hsilent, hbusy]))

theorem exec_gateDrop_due (g : BitVec 3) {x : Queued} (hx : (s.queueOf q.toNat g.toNat).head? = some x) (hl : s.live .sw = true)
    (h : s.cycleLen ≤ (s.ltcNs - x.headAt).toNat) : exec (.gateDrop q g) s = .next ((s.discard x).count SW.GATE_DROP_CNT) := by
  change execGateDrop q g s = _
  simp only [execGateDrop, hx, hl, h, decide_true, Bool.and_self, if_true]

theorem exec_gateDrop_early (g : BitVec 3) {x : Queued} (hx : (s.queueOf q.toNat g.toNat).head? = some x) (h : (s.ltcNs - x.headAt).toNat < s.cycleLen) :
    exec (.gateDrop q g) s = .next s := by
  change execGateDrop q g s = _
  simp only [execGateDrop, hx, Nat.not_le.2 h, decide_false, Bool.and_false, Bool.false_eq_true, if_false]

theorem exec_gclEntryExpiry_next (hq : q.toNat < 12) (hl : s.live .sw = true)
    (hmore : (s.swPort q.toNat).entry + 1 < (s.gclList q.toNat (s.gclBank q.toNat)).length) (hover : s.entryOver q.toNat = true) :
    exec (.gclEntryExpiry q) s = .next (s.withPort q.toNat fun p => { p with entry := p.entry + 1 }) :=
  congrArg Host.Outcome.next (if_pos (by simp [hq, hl, hmore, hover]))

theorem exec_gclEntryExpiry_stays (h : (s.gclList q.toNat (s.gclBank q.toNat)).length ≤ (s.swPort q.toNat).entry + 1 ∨ s.entryOver q.toNat = false) :
    exec (.gclEntryExpiry q) s = .next s := by
  refine congrArg Host.Outcome.next (if_neg ?_)
  rcases h with h | h <;> simp [h]

/-! ## Pauses -/

section
variable {t : State} (ht : t = s.count (MAC.PAUSE_RX_CNT q.toNat)) (hbackbone : isBackbone q.toNat = false)
  (hen : t.flag (MAC.MAC_CTRL_PAUSE_RX_EN q.toNat) = true) (hhold : t.flag (MAC.MAC_STAT_HOLDOFF q.toNat) = false)
include ht hbackbone hen hhold

theorem State.takePause_zero : s.takePause q.toNat 0 = t.set (MAC.MAC_STAT_PAUSED q.toNat) 0 := by
  subst ht
  rw [State.takePause, if_neg (by simp [hbackbone])]
  simp only [hen, hhold, Bool.not_true, Bool.or_self, Bool.false_eq_true, if_false, if_true]

/-- A PAUSE frame with a time pauses the port from now on. -/
theorem State.takePause_quanta {quanta : Nat} (hquanta : quanta ≠ 0) (hpaused : t.flag (MAC.MAC_STAT_PAUSED q.toNat) = false) :
    s.takePause q.toNat quanta = (t.withPort q.toNat fun p => { p with
      pauseUntil := s.ltcNs + BitVec.ofNat 64 (wireNs (t.ifCode q.toNat) (64 * quanta)), pauseSince := s.ltcNs }).set (MAC.MAC_STAT_PAUSED q.toNat) 1 := by
  subst ht
  rw [State.takePause, if_neg (by simp [hbackbone])]
  simp only [hen, hhold, hquanta, hpaused, Bool.not_true, Bool.or_self, Bool.false_eq_true, if_false]
  rfl

end

theorem exec_pauseExpiry_due (hq : q.toNat < 12) (hon : s.portOn q.toNat = true) (h : (s.swPort q.toNat).pauseUntil.toNat ≤ s.ltcNs.toNat) :
    exec (.pauseExpiry q) s = .next (s.set (MAC.MAC_STAT_PAUSED q.toNat) 0) := congrArg Host.Outcome.next (if_pos (by simp [hq, hon, h]))

/-- What a change of a port's record leaves of it, it leaves. -/
theorem State.withPort_swPort_observe {α : Type} (p : SwPort → α) (i : Nat) (f : SwPort → SwPort) (h : ∀ x, p (f x) = p x) :
    p ((s.withPort i f).swPort i) = p (s.swPort i) := by
  simp only [State.swPort, State.withPort, State.withSwitch, modifyAt, List.getD_eq_getElem?_getD, List.getElem?_modify_eq]
  cases s.switch.ports[i]? with
  | none => rfl
  | some x => exact h x

theorem macField_key_ne_intRaw (i off lo w reset : Nat) (acc : Access) (hoff : 0x44 ≤ off) (hmax : off ≤ 0x120) (hlo : lo < 32) :
    (fieldAt (.mac i) off lo w acc reset).key ≠ (HDR.INT_RAW (.mac i)).key := by
  simp only [Reg.key, fieldAt, HDR.INT_RAW, headerAt, Page.headerBase, Page.base]
  split <;> omega

/-- A storm ends the pause, starts the hold-off and is counted; the time of the pause stays (R281). -/
theorem exec_pauseStorm_due (hq : q.toNat < 12) (hon : s.portOn q.toNat = true) (hpaused : s.flag (MAC.MAC_STAT_PAUSED q.toNat) = true)
    (h : s.get (MAC.PAUSE_WD_WD q.toNat) * 1000000 ≤ (s.ltcNs - (s.swPort q.toNat).pauseSince).toNat) :
    ∃ t, exec (.pauseStorm q) s = .next t ∧ (t.swPort q.toNat).pauseUntil = (s.swPort q.toNat).pauseUntil ∧ t.mem = s.mem ∧ t.sent = s.sent
      ∧ t.get (MAC.MAC_STAT_PAUSED q.toNat) = 0 ∧ t.get (MAC.MAC_STAT_HOLDOFF q.toNat) = 1
      ∧ t.get (MAC.PAUSE_STORM_CNT q.toNat) = min (s.get (MAC.PAUSE_STORM_CNT q.toNat) + 1) (2 ^ (MAC.PAUSE_STORM_CNT q.toNat).width - 1) := by
  have hintPaused : (MAC.MAC_STAT_PAUSED q.toNat).key ≠ (HDR.INT_RAW (.mac q.toNat)).key := macField_key_ne_intRaw _ _ _ _ _ _ (by decide) (by decide) (by decide)
  have hintHoldoff : (MAC.MAC_STAT_HOLDOFF q.toNat).key ≠ (HDR.INT_RAW (.mac q.toNat)).key := macField_key_ne_intRaw _ _ _ _ _ _ (by decide) (by decide) (by decide)
  have hintCnt : (MAC.PAUSE_STORM_CNT q.toNat).key ≠ (HDR.INT_RAW (.mac q.toNat)).key := macField_key_ne_intRaw _ _ _ _ _ _ (by decide) (by decide) (by decide)
  have hpausedHoldoff : (MAC.MAC_STAT_PAUSED q.toNat).key ≠ (MAC.MAC_STAT_HOLDOFF q.toNat).key := fieldAt_key_ne (by decide)
  have hpausedCnt : (MAC.MAC_STAT_PAUSED q.toNat).key ≠ (MAC.PAUSE_STORM_CNT q.toNat).key := fieldAt_key_ne (by decide)
  have hholdoffCnt : (MAC.MAC_STAT_HOLDOFF q.toNat).key ≠ (MAC.PAUSE_STORM_CNT q.toNat).key := fieldAt_key_ne (by decide)
  refine ⟨_, congrArg Host.Outcome.next (if_pos ?_), ?_, rfl, rfl, ?_, ?_, ?_⟩
  · simp only [hq, hon, hpaused, h, decide_true, Bool.and_self]
  · exact State.withPort_swPort_observe _ SwPort.pauseUntil _ _ fun _ => rfl
  · refine (State.get_raise_ne _ _ _ _ hintPaused).trans ?_
    rw [State.get_count_ne _ _ _ hpausedCnt, State.get_set_ne _ _ _ _ hpausedHoldoff, State.get_set]
    exact Nat.zero_mod _
  · refine (State.get_raise_ne _ _ _ _ hintHoldoff).trans ?_
    rw [State.get_count_ne _ _ _ hholdoffCnt, State.get_set]
    rfl
  · refine (State.get_raise_ne _ _ _ _ hintCnt).trans ?_
    rw [State.get_count, State.get_set_ne _ _ _ _ hholdoffCnt.symm, State.get_set_ne _ _ _ _ hpausedCnt.symm]

theorem exec_pauseStormEnd_due (hq : q.toNat < 12) (hon : s.portOn q.toNat = true) (hhold : s.flag (MAC.MAC_STAT_HOLDOFF q.toNat) = true)
    (h : (s.swPort q.toNat).holdoffUntil.toNat ≤ s.ltcNs.toNat) :
    exec (.pauseStormEnd q) s = .next ((s.set (MAC.MAC_STAT_HOLDOFF q.toNat) 0).raiseMac q.toNat 2) :=
  congrArg Host.Outcome.next (if_pos (by simp only [hq, hon, hhold, h, decide_true, Bool.and_self]))

theorem exec_pauseTxRepeat_none (h : (s.swPort q.toNat).pausing = none) : exec (.pauseTxRepeat q) s = .next s := by
  change execPauseTxRepeat q s = _
  simp only [execPauseTxRepeat, h]

/-- While cells above XON are held, the PAUSE frame is repeated after half its time (R280). -/
theorem exec_pauseTxRepeat_due {since : BitVec 64} (hq : q.toNat < 12) (hon : s.portOn q.toNat = true) (hpausing : (s.swPort q.toNat).pausing = some since)
    (hen : s.flag (MAC.MAC_CTRL_PAUSE_TX_EN q.toNat) = true) (hcells : s.get (MAC.PAUSE_THR_XON q.toNat) < s.cellsFrom q.toNat)
    (h : wireNs (s.ifCode q.toNat) (32 * s.get (MAC.PAUSE_TX_QUANTA q.toNat)) ≤ (s.ltcNs - since).toNat) :
    exec (.pauseTxRepeat q) s = .next ((s.sendPause q.toNat (s.get (MAC.PAUSE_TX_QUANTA q.toNat))).withPort q.toNat fun p =>
      { p with pausing := some s.ltcNs }) := by
  change execPauseTxRepeat q s = _
  simp only [execPauseTxRepeat, hpausing, hq, hon, hen, h, decide_true, Bool.and_self, if_true, if_neg (Nat.not_le.2 hcells)]

/-! ## Links of the consist ports -/

theorem exec_consistLinkChange {m : BitVec 3} {up : Bool} (hp : s.powered (.mac m.toNat) = true) (h : s.flag (MAC.MAC_STAT_LINK m.toNat) ≠ up) {t : State}
    (ht : t = (s.setFlag (MAC.MAC_STAT_LINK m.toNat) up).raiseMac m.toNat 0) :
    exec (.consistLinkChange m up) s = .next (t.set (MAC.MAC_STAT_IF_ACT m.toNat) (if up then t.get (MAC.MAC_CTRL_IF m.toNat) else 0)) := by
  subst ht
  exact congrArg Host.Outcome.next (if_pos (by simp [hp, h]))

theorem exec_consistLinkChange_same (m : BitVec 3) : exec (.consistLinkChange m (s.flag (MAC.MAC_STAT_LINK m.toNat))) s = .next s :=
  congrArg Host.Outcome.next (if_neg (by simp))

end

end Sys2Proof.Machine

namespace Sys2Proof.Proofs
open Sys2Proof.Machine

/-- Settles O39: the equation of each command and case. -/
theorem ethernetPortCommands : Obligations.EthernetPortCommands := by
  intro s q m g bytes sof
  refine ⟨fun hq hon hsome => ⟨fun ok hlen => ?_, fun ok hmin hmax => ?_, fun hmin hmax => ?_, fun e t he ht hmin hmax hbackbone hpause has hsw => ?_⟩,
    fun hoff ok sfd quanta => ⟨exec_frameRx_off s q hoff bytes ok sof, exec_frameTxStart_off s q hoff sfd, exec_pauseFrameRx_off s q hoff quanta,
      exec_pauseExpiry_off s q hoff, exec_pauseStorm_off s q hoff, exec_pauseStormEnd_off s q hoff⟩,
    exec_frameTxStart s q, fun x => exec_gateDrop_due s q g, fun x => exec_gateDrop_early s q g, exec_gclEntryExpiry_next s q, exec_gclEntryExpiry_stays s q,
    fun hp mask => congrArg Host.Outcome.next (if_pos hp),
    fun hq hon hbackbone _ t quanta ht hen hhold => ⟨fun hquanta => ?_, fun hquanta hpaused => ?_⟩,
    fun hq hon => ⟨exec_pauseExpiry_due s q hq hon, exec_pauseStorm_due s q hq hon, exec_pauseStormEnd_due s q hq hon, fun since => exec_pauseTxRepeat_due s q hq hon⟩,
    exec_pauseTxRepeat_none s q, fun up hp h t ht => exec_consistLinkChange s hp h ht, exec_consistLinkChange_same s m⟩
  · rw [exec_frameRx s q bytes ok sof hq hon, s.receive_runt bytes ok sof _ hsome hlen]
  · rw [exec_frameRx s q bytes ok sof hq hon, s.receive_oversize bytes ok sof _ hsome hmin hmax]
  · rw [exec_frameRx s q bytes false sof hq hon, s.receive_badFcs bytes sof _ hsome hmin hmax]
  · rw [exec_frameRx s q bytes true sof hq hon, s.receive_ingress bytes sof _ hsome hmin hmax hbackbone he ht hpause has hsw]
  · subst hquanta
    rw [exec_pauseFrameRx_of_portOn s q 0 hq hon]
    exact congrArg Host.Outcome.next (s.takePause_zero q ht hbackbone hen hhold)
  · rw [exec_pauseFrameRx_of_portOn s q quanta hq hon, s.takePause_quanta q ht hbackbone hen hhold (fun h => hquanta (BitVec.eq_of_toNat_eq h)) hpaused]

end Sys2Proof.Proofs
end

section
/-! Tables, rings and telegrams of the switch (R265, R266, R273 to R277, R285, R287, R288): one equation per command and case. -/

namespace Sys2Proof.Machine

section
variable (s : State)

/-! ## Learned addresses -/

section
variable {e : BitVec 13} {x : FdbEntry} (hx : (s.switch.fdb.find? fun y => y.index = e.toNat) = some x)
include hx

theorem exec_fdbAgeOut_due (hl : s.live .sw = true) (h : s.get SW.SW_CTRL_AGE ≤ s.fdbAge x) :
    exec (.fdbAgeOut e) s = .next ((s.withSwitch fun y => { y with fdb := y.fdb.filter fun z => z != x }).set SW.FDB_CNT (s.switch.fdb.length - 1)) := by
  change execFdbAgeOut e s = _
  simp only [execFdbAgeOut, hx, hl, h, decide_true, Bool.and_self, if_true]

theorem exec_fdbAgeOut_fresh (h : s.fdbAge x < s.get SW.SW_CTRL_AGE) : exec (.fdbAgeOut e) s = .next s := by
  change execFdbAgeOut e s = _
  simp only [execFdbAgeOut, hx, Nat.not_le.2 h, decide_false, Bool.and_false, Bool.false_eq_true, if_false]

end

/-! ## Rings -/

theorem exec_ringTailWrite (g : BitVec 6) (tail : BitVec 16) (hp : s.powered .sw = true) (hg : g.toNat < 48) :
    exec (.ringTailWrite g tail) s = .next ((s.set (SW.RING_PTR_TAIL g.toNat) tail.toNat).fetchDescs g.toNat) := by
  change execRingTailWrite g tail s = _
  rw [execRingTailWrite, if_pos hp, State.writeTail, if_pos hg]

theorem exec_txDescDone (g : BitVec 6) (hon : s.switchOn = true) (hg : g.toNat < 48) (hring : g.toNat % 16 < 8) :
    exec (.txDescDone g) s = .next (s.sendDesc g.toNat) := congrArg Host.Outcome.next (if_pos (by simp [hon, hg, hring]))

section
variable (g : Nat) (hfree : ∀ a ∈ s.switch.awaiting, a.ring ≠ g)
include hfree

theorem State.not_awaiting : ¬ (s.switch.awaiting.any fun a => a.ring = g) = true := by simpa using hfree

theorem State.sendDesc_empty (h : s.headDesc g = none) : s.sendDesc g = s := by
  rw [State.sendDesc, if_neg (s.not_awaiting g hfree)]
  simp only [h]

theorem State.sendDesc_unread (h : s.headDesc g = some none) : s.sendDesc g = s.finishTx g ⟨0, 0, none⟩ none (2 ^ 28) := by
  rw [State.sendDesc, if_neg (s.not_awaiting g hfree)]
  simp only [h]

section
variable {d : HeadDesc} {data : List Byte} (h : s.headDesc g = some (some d)) (hdata : d.data = some (some data))
include h hdata

theorem State.sendDesc_noLength (hlen : d.word2 % 2 ^ 14 = 0) :
    s.sendDesc g = (s.finishTx g d none (2 ^ 29)).countRaise SW.TX_LEN_CNT .sw 16 := by
  rw [State.sendDesc, if_neg (s.not_awaiting g hfree)]
  simp only [h, hdata, hlen, decide_true, Bool.true_or, if_true]

/-- A frame the switch takes at once, without a stamp asked for, ends its descriptor (R276). -/
theorem State.sendDesc_placed (hlen : d.word2 % 2 ^ 14 ≠ 0) (hmax : d.word2 % 2 ^ 14 ≤ s.maxFrame 12 - 4) (hstamp : bitOf d.word2 27 = false)
    {e : Eth} {skip : Bool} {t : State}
    (hsums : (Eth.ofBytes data).insertSums (bitOf d.word2 30) (bitOf d.word2 29) (bitOf d.word2 28) (s.get SW.TRDP_CFG_PORT) = (e, skip))
    (hplaced : s.ingress (12 + g / 16) e (d.word2 % 2 ^ 14 + 4) s.ttcNs (some (g % 16)) (some g) = (t, true)) :
    s.sendDesc g = t.finishTx g d none (2 ^ 30 + if skip then 2 ^ 26 else 0) := by
  rw [State.sendDesc, if_neg (s.not_awaiting g hfree)]
  simp only [h, hdata, hlen, Nat.not_lt.2 hmax, decide_false, Bool.or_self, Bool.false_eq_true, if_false, hsums, hplaced, hstamp, Bool.false_and, Bool.not_true]

end

end

/-! ## Telegrams -/

section
variable (e : BitVec 9)

theorem exec_trdpTxFetch_due (hon : s.switchOn = true) (hsel : s.trdpSelected e.toNat s.cycle = true) (hoffset : (s.beNat (trdpTx e.toNat + 28) 4 : Int) ≤ s.sinceTick)
    (hfired : s.switch.fired.contains e.toNat = false) : exec (.trdpTxFetch e) s = .next (s.sendTelegram e.toNat) :=
  congrArg Host.Outcome.next (if_pos (by rw [State.trdpDue, hon, hsel, hfired, decide_eq_true hoffset]; rfl))

theorem exec_trdpTxFetch_not_due
    (h : s.trdpSelected e.toNat s.cycle = false ∨ s.sinceTick < (s.beNat (trdpTx e.toNat + 28) 4 : Int) ∨ s.switch.fired.contains e.toNat = true) :
    exec (.trdpTxFetch e) s = .next s := by
  refine congrArg Host.Outcome.next (if_neg ?_)
  rw [State.trdpDue]
  rcases h with h | h | h
  · rw [h, Bool.and_false, Bool.false_and, Bool.false_and]
    exact Bool.false_ne_true
  · rw [decide_eq_false (Int.not_le.2 h), Bool.and_false, Bool.false_and]
    exact Bool.false_ne_true
  · rw [h, Bool.not_true, Bool.and_false]
    exact Bool.false_ne_true

theorem exec_trdpTxFetch_off (h : s.switchOn = false) : exec (.trdpTxFetch e) s = .next s :=
  congrArg Host.Outcome.next (if_neg (by rw [State.trdpDue, h]; simp))

end

theorem exec_txDescDone_off (g : BitVec 6) (h : s.switchOn = false) : exec (.txDescDone g) s = .next s := congrArg Host.Outcome.next (if_neg (by simp [h]))

/-! ## ETB_EN -/

theorem exec_etbEnWrite_refused (on : Bool) (hp : s.powered .sw = true) (h : s.flag SW.ETB_CTRL_ETB_EN ≠ on) (hoff : s.bothOff = false) :
    exec (.etbEnWrite on) s = .next (s.refuse .sw) := by
  change execEtbEnWrite on s = _
  rw [execEtbEnWrite, if_pos hp, State.writeEtb, if_neg h, hoff, Bool.not_false, Bool.true_or, if_pos rfl]

/-- ETB_EN set while both lines are OFF makes the node lead its time and starts the cycle (R287). -/
theorem exec_etbEnWrite_on (hp : s.powered .sw = true) (h : s.flag SW.ETB_CTRL_ETB_EN = false) (hoff : s.bothOff = true) (hlock : s.locked .sw = false) :
    exec (.etbEnWrite true) s
      = .next (((((s.stampConfig .sw).setFlag SW.ETB_CTRL_ETB_EN true).enterLead.withTime fun t => { t with running := true })).recheckLines s) := by
  change execEtbEnWrite true s = _
  rw [execEtbEnWrite, if_pos hp, State.writeEtb, h, if_neg Bool.false_ne_true, hoff, hlock, Bool.not_true, Bool.or_self, if_neg Bool.false_ne_true]
  rfl

/-! ## Sequence recovery -/

theorem exec_cbReset_due (fn : Byte) {w : Nat} (hw : w = s.beWord (recWord fn.toNat 1) % 2 ^ 16) (hl : s.live .sw = true) (hen : bitOf (s.beWord (recWord fn.toNat 0)) 31 = true)
    (hany : (s.recoveryOf fn.toNat).takeAny = false) (h : w * 1000000 ≤ (s.ltcNs - (s.recoveryOf fn.toNat).lastPass).toNat) :
    exec (.cbReset fn) s = .next (((s.setRecovery ⟨fn.toNat, true, [], (s.recoveryOf fn.toNat).lastPass⟩).countWord
      (recWord fn.toNat 4)).countRaise SW.CB_RESET_CNT .sw 11) := by
  subst hw
  exact congrArg Host.Outcome.next (if_pos (by rw [hl, hen, hany, decide_eq_true h]; rfl))

theorem exec_cbReset_any (fn : Byte) (h : (s.recoveryOf fn.toNat).takeAny = true) : exec (.cbReset fn) s = .next s :=
  congrArg Host.Outcome.next (if_neg (by rw [h]; simp))

end

end Sys2Proof.Machine

namespace Sys2Proof.Proofs
open Sys2Proof.Machine

/-- Settles O40: the equation of each command and case. -/
theorem switchCommands : Obligations.SwitchCommands := fun s =>
  ⟨fun _ _ hx hl => ⟨exec_fdbAgeOut_due s hx hl, exec_fdbAgeOut_fresh s hx⟩, exec_ringTailWrite s,
    fun g d hon hg hring hfree => by
      rw [exec_txDescDone s g hon hg hring]
      exact ⟨fun h => congrArg Host.Outcome.next (s.sendDesc_empty _ hfree h), fun h => congrArg Host.Outcome.next (s.sendDesc_unread _ hfree h),
        fun _ h hdata hlen => congrArg Host.Outcome.next (s.sendDesc_noLength _ hfree h hdata hlen),
        fun _ _ _ _ h hdata hlen hmax hstamp hsums hplaced =>
          congrArg Host.Outcome.next (s.sendDesc_placed _ hfree h hdata hlen hmax hstamp hsums hplaced)⟩,
    exec_trdpTxFetch_due s, exec_trdpTxFetch_not_due s, fun h e g => ⟨exec_trdpTxFetch_off s e h, exec_txDescDone_off s g h⟩,
    exec_etbEnWrite_refused s, exec_etbEnWrite_on s, fun fn _ => exec_cbReset_due s fn, exec_cbReset_any s⟩

end Sys2Proof.Proofs
end

section
/-! The states of a CAN controller (R294, R295, R310) and the lock of a receive buffer (R301): one equation per command and case. -/

namespace Sys2Proof.Machine

section
variable (s : State) (c : BitVec 3)

/-! ## On and off -/

theorem exec_canEnable_off (hp : s.powered (.can c.toNat) = true) (h : s.canState c.toNat = cnOFF) :
    exec (.canEnable c) s = .next (((s.setFlag (CAN.CAN_CTRL_EN c.toNat) true).setErrorCounts c.toNat 0 0).setCanState c.toNat cnINTEGRATING) := by
  have hstate : (s.setFlag (CAN.CAN_CTRL_EN c.toNat) true).canState c.toNat = cnOFF := (s.get_setFlag_ne _ _ true (fieldAt_key_ne (by decide))).trans h
  change execCanEnable c s = _
  rw [execCanEnable, if_pos hp, State.canStart, if_pos hstate]

theorem exec_canDisable (hp : s.powered (.can c.toNat) = true) :
    exec (.canDisable c) s = .next (((s.setFlag (CAN.CAN_CTRL_EN c.toNat) false).cancelAll c.toNat).setCanState c.toNat cnOFF) :=
  congrArg Host.Outcome.next (if_pos hp)

theorem exec_canIntegrated (h : s.canState c.toNat = cnINTEGRATING) : exec (.canIntegrated c) s = .next ((s.setCanState c.toNat cnACTIVE).setErrorCounts c.toNat
    ((s.setCanState c.toNat cnACTIVE).get (CAN.CAN_STAT_TEC c.toNat)) ((s.setCanState c.toNat cnACTIVE).get (CAN.CAN_STAT_REC c.toNat))) :=
  congrArg Host.Outcome.next (if_pos h)

theorem exec_restart (h : s.canState c.toNat = cnBUSOFF) : exec (.restart c) s = .next (s.setCanState c.toNat cnRECOVERING) :=
  congrArg Host.Outcome.next (if_pos h)

theorem exec_busOn (h : s.canState c.toNat = cnRECOVERING) :
    exec (.busOn c) s = .next (((s.setCanState c.toNat cnACTIVE).setErrorCounts c.toNat 0 0).raise (.can c.toNat) 15) := congrArg Host.Outcome.next (if_pos h)

/-! ## Errors -/

/-- A controller that listens only notes an error and counts none for its own counters. -/
theorem State.canError_listening (i code : Nat) (data transmitter : Bool) (f : CanFault) {u : State}
    (hu : u = ((s.update (CAN.LAST_ERR_CODE i) fun _ => code).update (CAN.LAST_ERR_DATA i) fun _ => if data then 1 else 0).countRaise (CAN.PROTO_ERR_CNT i) (.can i) 19)
    (h : u.flag (CAN.CAN_STAT_LISTEN_ACT i) = true) :
    s.canError i code data transmitter f = if transmitter then u else (u.settleCancels i fun _ => true).frameEnds i := by
  subst hu
  simp only [State.canError, h, if_true]

/-- A controller that takes part moves the transmitter's or the receiver's error count. -/
theorem State.canError_counted (i code : Nat) (data transmitter : Bool) (f : CanFault) {u : State}
    (hu : u = ((s.update (CAN.LAST_ERR_CODE i) fun _ => code).update (CAN.LAST_ERR_DATA i) fun _ => if data then 1 else 0).countRaise (CAN.PROTO_ERR_CNT i) (.can i) 19)
    (h : u.flag (CAN.CAN_STAT_LISTEN_ACT i) = false) :
    s.canError i code data transmitter f =
      if transmitter then u.setErrorCounts i (u.get (CAN.CAN_STAT_TEC i) + u.faultCount i code true f) (u.get (CAN.CAN_STAT_REC i))
      else ((u.setErrorCounts i (u.get (CAN.CAN_STAT_TEC i)) (u.get (CAN.CAN_STAT_REC i) + u.faultCount i code false f)).settleCancels i fun _ => true).frameEnds i := by
  subst hu
  cases transmitter <;> simp only [State.canError, h, Bool.false_eq_true, if_false, if_true]

theorem exec_canError (code : BitVec 3) (data transmitter : Bool) (f : CanFault) (h : s.canOnBus c.toNat = true) :
    exec (.canError c code data transmitter f) s = .next (s.canError c.toNat code.toNat data transmitter f) := congrArg Host.Outcome.next (if_pos h)

/-! ## Listen-only -/

theorem exec_listenOnlyStart (h : s.canListens c.toNat = true) (hact : s.flag (CAN.CAN_STAT_LISTEN_ACT c.toNat) = false) :
    exec (.listenOnlyStart c) s = .next ((s.setFlag (CAN.CAN_STAT_LISTEN_ACT c.toNat) true).cancelAll c.toNat) :=
  congrArg Host.Outcome.next (if_pos (by rw [h, hact]; rfl))

theorem exec_listenOnlyEnd (h : s.canListens c.toNat = false) (hact : s.flag (CAN.CAN_STAT_LISTEN_ACT c.toNat) = true)
    (hstate : (s.setFlag (CAN.CAN_STAT_LISTEN_ACT c.toNat) false).canState c.toNat = cnACTIVE ∨ (s.setFlag (CAN.CAN_STAT_LISTEN_ACT c.toNat) false).canState c.toNat = cnPASSIVE) :
    exec (.listenOnlyEnd c) s = .next ((s.setFlag (CAN.CAN_STAT_LISTEN_ACT c.toNat) false).setCanState c.toNat cnINTEGRATING) :=
  congrArg Host.Outcome.next ((if_pos (by rw [h, hact]; rfl)).trans (if_pos (by simpa using hstate)))

/-! ## OFF -/

theorem State.canOnBus_off (i : Nat) (h : s.canState i = cnOFF) : s.canOnBus i = false := by
  rw [State.canOnBus, h]
  exact Bool.and_false _

section
variable (h : s.canState c.toNat = cnOFF)
include h

theorem exec_canIntegrated_off : exec (.canIntegrated c) s = .next s := congrArg Host.Outcome.next (if_neg (by rw [h]; decide))

theorem exec_restart_off : exec (.restart c) s = .next s := congrArg Host.Outcome.next (if_neg (by rw [h]; decide))

theorem exec_busOn_off : exec (.busOn c) s = .next s := congrArg Host.Outcome.next (if_neg (by rw [h]; decide))

theorem exec_canError_off (code : BitVec 3) (data transmitter : Bool) (f : CanFault) : exec (.canError c code data transmitter f) s = .next s :=
  congrArg Host.Outcome.next (if_neg (by rw [s.canOnBus_off _ h]; exact Bool.false_ne_true))

end

/-! ## Locks -/

theorem exec_canRxLock (b : BitVec 6) (r : Requester) (h : s.live (.can c.toNat) = true) :
    exec (.canRxLock c b r) s = .next ((s.emit (.regData r (canBuf c.toNat b.toNat) (BitVec.ofNat 32 (s.beWord (canBuf c.toNat b.toNat))))).lockBuffer c.toNat b.toNat r) :=
  congrArg Host.Outcome.next (if_pos h)

/-- A state without records of controllers keeps no lock. -/
theorem State.canLocked_lockBuffer_nil (i b : Nat) (r : Requester) (h : s.canBus = []) : (s.lockBuffer i b r).canLocked i b = false := by
  have hbus : (s.lockBuffer i b r).canBus = [] := by
    rw [State.lockBuffer]
    split
    · simp only [State.withCan, h, modifyAt, List.modify_nil]
    · exact h
  rw [State.canLocked, State.can, hbus]
  rfl

end

end Sys2Proof.Machine

namespace Sys2Proof.Proofs
open Sys2Proof.Machine

/-- Settles O41: the equation of each command and case. -/
theorem canBusCommands : Obligations.CanBusCommands := fun s c =>
  ⟨exec_canEnable_off s c, exec_canDisable s c, exec_canIntegrated s c, exec_restart s c, exec_busOn s c,
    fun code data f _ hon hu => ⟨fun h => ⟨by rw [exec_canError s c code data true f hon, s.canError_counted _ _ data true f hu h, if_pos rfl],
        by rw [exec_canError s c code data false f hon, s.canError_counted _ _ data false f hu h, if_neg Bool.false_ne_true]⟩,
      fun h => ⟨by rw [exec_canError s c code data true f hon, s.canError_listening _ _ data true f hu h, if_pos rfl],
        by rw [exec_canError s c code data false f hon, s.canError_listening _ _ data false f hu h, if_neg Bool.false_ne_true]⟩⟩,
    exec_listenOnlyStart s c, exec_listenOnlyEnd s c,
    fun h => ⟨exec_canIntegrated_off s c h, exec_restart_off s c h, exec_busOn_off s c h, fun code data t f => exec_canError_off s c h code data t f⟩⟩

/-- A powered chip whose CAN 0 has one receive buffer, and whose state holds no record of a controller. -/
def noCanRecords : State :=
  { ((State.reset.set PWR.PD_STAT_ON 0xFFFF).set (HDR.PAGE_CTRL_ENABLE (.can 0)) 1).setBeWord (canCfg 0 63) 0x80000000 with canBus := [] }

theorem noCanRecords_takes : noCanRecords.live (.can 0) = true ∧ noCanRecords.canRx 0 63 = true ∧ noCanRecords.canLocked 0 63 = false := by decide

/-- Refutes O42: reading word 0 of a receive buffer locks it only where the state holds the record of its controller; `noCanRecords` holds none, so
the lock is lost. -/
theorem not_canReceptionCommands : ¬ Obligations.CanReceptionCommands := by
  intro h
  obtain ⟨hlive, hrx, hfree⟩ := noCanRecords_takes
  obtain ⟨-, -, -, hlock, -⟩ := h noCanRecords 0 63 .pcie
  obtain ⟨t, hexec, hlocked, -⟩ := hlock hlive hrx hfree
  rw [exec_canRxLock noCanRecords 0 63 .pcie hlive, Host.Outcome.next.injEq] at hexec
  subst hexec
  have hlost := State.canLocked_lockBuffer_nil (noCanRecords.emit (.regData .pcie (canBuf 0 63) (BitVec.ofNat 32 (noCanRecords.beWord (canBuf 0 63))))) 0 63 .pcie rfl
  exact Bool.false_ne_true (hlost.symm.trans hlocked)

end Sys2Proof.Proofs
end

section
/-! Transmission by a CAN controller (R297, R305 to R309): one equation per command and case. -/

namespace Sys2Proof.Machine

section
variable (s : State) (c : BitVec 3)

/-! ## Requests and cancels -/

/-- A cancel of a frame that has not started ends its request. -/
theorem State.cancelTx_not_started (i b late : Nat) : s.cancelTx i b none late = if bitOf (s.txPending i) b then s.endRequest i b (2 ^ 30) else s := by
  rw [State.cancelTx]
  cases bitOf (s.txPending i) b with
  | false => rw [Bool.not_false, if_pos rfl, if_neg Bool.false_ne_true]
  | true => rw [Bool.not_true, if_neg Bool.false_ne_true, Option.any_none, if_neg Bool.false_ne_true, if_pos rfl]

/-- A cancel of the frame that has started is only marked. -/
theorem State.cancelTx_started (i b late : Nat) (start : BitVec 64) (hpending : bitOf (s.txPending i) b = true) (htaken : s.txChoice i late start = some b) :
    s.cancelTx i b (some start) late = s.openCancel i b := by
  rw [State.cancelTx, hpending, if_neg (by decide), if_pos (by simp [htaken])]

theorem exec_txReq (mask : BitVec 64) (hp : s.powered (.can c.toNat) = true) :
    exec (.txReq c mask) s = .next (s.each (List.range 64) fun x t => if bitOf mask.toNat x then t.canRequest c.toNat x false else t) := by
  change execTxReq c mask s = _
  rw [execTxReq, if_pos hp, State.requestTx]

theorem exec_txFlip (mask : BitVec 64) (hp : s.powered (.can c.toNat) = true) :
    exec (.txFlip c mask) s = .next (s.each (List.range 64) fun x t => if bitOf mask.toNat x then t.flipNow (canObj c.toNat x) else t) := by
  change execTxFlip c mask s = _
  rw [execTxFlip, if_pos hp, State.flipTx]

theorem exec_txCancel (mask : BitVec 64) (started : Option (BitVec 64)) (late : BitVec 64) (hp : s.powered (.can c.toNat) = true) :
    exec (.txCancel c mask started late) s = .next (s.each (List.range 64) fun b t =>
      if mask.getLsbD b then t.cancelTx c.toNat b (started.filter fun _ => (started.bind fun t => s.txChoice c.toNat late.toNat t) = some b) late.toNat else t) := by
  change execTxCancel c mask started late s = _
  rw [execTxCancel, if_pos hp]

theorem exec_txCancel_not_started (mask late : BitVec 64) (hp : s.powered (.can c.toNat) = true) :
    exec (.txCancel c mask none late) s = .next (s.each (List.range 64) fun x t =>
      if mask.getLsbD x && bitOf (t.txPending c.toNat) x then t.endRequest c.toNat x (2 ^ 30) else t) := by
  rw [exec_txCancel s c mask none late hp]
  refine congrArg (fun f => Host.Outcome.next (s.each (List.range 64) f)) (funext fun x => funext fun t => ?_)
  rw [Option.filter_none, t.cancelTx_not_started]
  cases mask.getLsbD x with
  | false => rw [Bool.false_and, if_neg Bool.false_ne_true, if_neg Bool.false_ne_true]
  | true => rw [Bool.true_and, if_pos rfl]

/-- A cancel of the one frame that has started sets its bit of TX_CANCEL (R307). -/
theorem exec_txCancel_started (b : BitVec 6) (start late : BitVec 64) (hp : s.powered (.can c.toNat) = true)
    (htaken : s.txChoice c.toNat late.toNat start = some b.toNat) (hpending : bitOf (s.txPending c.toNat) b.toNat = true) :
    exec (.txCancel c (BitVec.ofNat 64 (2 ^ b.toNat)) (some start) late) s = .next (s.openCancel c.toNat b.toNat) := by
  have hb : b.toNat < 64 := b.isLt
  rw [exec_txCancel s c _ (some start) late hp]
  refine congrArg Host.Outcome.next ((State.each_observe_at id _ (List.mem_range.2 hb) List.nodup_range (fun _ => rfl) (fun x _ hx t => ?_) s).trans ?_)
  · rw [BitVec.getLsbD_ofNat, Nat.testBit_two_pow_of_ne (Ne.symm hx), Bool.and_false, if_neg Bool.false_ne_true]
  · rw [id, BitVec.getLsbD_ofNat, Nat.testBit_two_pow_self, decide_eq_true hb, Bool.true_and, if_pos rfl]
    have hfilter : (some start).filter (fun _ => decide (((some start).bind fun t => s.txChoice c.toNat late.toNat t) = some b.toNat)) = some start := by
      simp [htaken]
    rw [hfilter, s.cancelTx_started _ _ _ _ hpending htaken]

section
variable (i b : Nat) (h : s.canTx i b = true)
include h

theorem State.canRequest_sends (hact : s.flag (CAN.CAN_STAT_LISTEN_ACT i) = false) :
    s.canRequest i b false = (s.setTxPending i (withBit (s.txPending i) b true)).setBeWord (canCfg i b + 12) 0 := by
  rw [State.canRequest, h, hact]
  rfl

theorem State.canRequest_listens (hact : s.flag (CAN.CAN_STAT_LISTEN_ACT i) = true) : s.canRequest i b false = s.count (CAN.LISTEN_TX_CNT i) := by
  rw [State.canRequest, h, hact]
  rfl

end

/-! ## Periodic requests -/

theorem exec_canPeriodicReq_due (b : BitVec 6) {w div : Nat} (hw : w = s.canWord c.toNat b.toNat 1) (hdiv : div = if w / 2 ^ 16 % 1024 = 0 then 1024 else w / 2 ^ 16 % 1024)
    (hl : s.live (.can c.toNat) = true) (htx : s.canTx c.toNat b.toNat = true) (hper : bitOf (s.canWord c.toNat b.toNat 0) 24 = true) (hvalid : s.valid = true)
    (hoffset : (s.canWord c.toNat b.toNat 2 : Int) ≤ s.sinceTick) (hcycle : s.cycle % div = w % 1024) (hfired : (s.can c.toNat).fired.contains b.toNat = false) :
    exec (.canPeriodicReq c b) s = .next ((s.canRequest c.toNat b.toNat true).withCan c.toNat fun k => { k with fired := k.fired ++ [b.toNat] }) := by
  subst hw hdiv
  have hperiodic : s.periodic c.toNat b.toNat = true := by
    simp only [State.periodic, hl, htx, hper, hvalid, hcycle, hfired, decide_true, Bool.not_false, Bool.and_self]
  exact congrArg Host.Outcome.next (if_pos (by rw [hperiodic, decide_eq_true hoffset]; rfl))

theorem exec_canPeriodicReq_none (b : BitVec 6) (h : s.canTx c.toNat b.toNat = false ∨ (s.can c.toNat).fired.contains b.toNat = true) :
    exec (.canPeriodicReq c b) s = .next s := by
  have hperiodic : s.periodic c.toNat b.toNat = false := by
    rw [State.periodic]
    rcases h with h | h
    · simp only [h, Bool.and_false, Bool.false_and]
    · simp only [h, Bool.not_true, Bool.and_false]
  exact congrArg Host.Outcome.next (if_neg (by rw [hperiodic]; exact Bool.false_ne_true))

/-! ## The end of an attempt -/

section
variable (late start : BitVec 64) (edges : List (BitVec 16)) (out : TxOutcome)

theorem exec_canTxAttemptEnd (hon : s.canOnBus c.toNat = true) (hact : s.flag (CAN.CAN_STAT_LISTEN_ACT c.toNat) = false) (hsilent : s.failSilent = false) :
    exec (.canTxAttemptEnd c late ⟨start, edges, out⟩) s = .next (s.attemptEnds c.toNat late.toNat ⟨start, edges, out⟩) :=
  congrArg Host.Outcome.next (if_pos (by simp only [State.canAttempts, hact, hsilent, hon, Bool.not_false, Bool.and_self, Bool.true_or]))

theorem exec_canTxAttemptEnd_none (h : s.flag (CAN.CAN_STAT_LISTEN_ACT c.toNat) = true ∨ s.failSilent = true) :
    exec (.canTxAttemptEnd c late ⟨start, edges, out⟩) s = .next s := by
  refine congrArg Host.Outcome.next (if_neg ?_)
  rcases h with h | h <;> simp [State.canAttempts, h]

variable (i late : Nat) {u : State} (hu : u = (s.settleCancels i fun t => decide (t.toNat < start.toNat)).dropUnsendable i late start)
include hu

/-- The end acts on the frame that arbitration took. -/
theorem State.attemptEnds_some {x : Nat} (h : u.txChoice i late start = some x) : s.attemptEnds i late ⟨start, edges, out⟩ =
    ((((u.measureTdcv i x start edges).endAttempt i x start out).settleCancels i fun _ => true).withCan i fun k => { k with settings := [] }).frameEnds i := by
  subst hu
  simp only [State.attemptEnds, h]

theorem State.attemptEnds_none (h : u.txChoice i late start = none) : s.attemptEnds i late ⟨start, edges, out⟩ =
    ((u.settleCancels i fun _ => true).withCan i fun k => { k with settings := [] }).frameEnds i := by
  subst hu
  simp only [State.attemptEnds, h]

end

/-! ## Configuration of a buffer -/

section
variable (b : BitVec 6) (late : BitVec 64) (started : Option (BitVec 64)) (hp : s.powered (.can c.toNat) = true)
include hp

theorem exec_canBufCfgWrite (w : BitVec 2) (v : Word) : exec (.canBufCfgWrite c b w v started late) s =
    .next (s.writeCanCfg c.toNat b.toNat w.toNat v.toNat fun s => s.cancelTx c.toNat b.toNat started late.toNat) := congrArg Host.Outcome.next (if_pos hp)

theorem exec_canBufCfgWrite_disabled (hen : s.canEn c.toNat b.toNat = false) (v : Word) :
    exec (.canBufCfgWrite c b 0 v started late) s = .next ((if bitOf v.toNat 30 then s else s.clearWritten (canObj c.toNat b.toNat)).setBeWord (canCfg c.toNat b.toNat)
      (v.toNat / 2 ^ 22 * 2 ^ 22))
    ∧ exec (.canBufCfgWrite c b 1 v started late) s = .next (s.setBeWord (canCfg c.toNat b.toNat + 4) (v.toNat % 2 ^ 29))
    ∧ exec (.canBufCfgWrite c b 2 v started late) s = .next (s.setBeWord (canCfg c.toNat b.toNat + 8) v.toNat)
    ∧ exec (.canBufCfgWrite c b 3 v started late) s = .next s := by
  refine ⟨?_, ?_, ?_, ?_⟩ <;> rw [exec_canBufCfgWrite s c b late started hp, State.writeCanCfg, hen]
  case refine_1 => cases h : bitOf v.toNat 30 <;> rfl
  all_goals rfl

/-- Disabling a transmit buffer ends its request (R297). -/
theorem exec_canBufCfgWrite_disables {v : Word} {u : State} (hen : s.canEn c.toNat b.toNat = true) (htx : s.canTx c.toNat b.toNat = true) (hclear : bitOf v.toNat 31 = false)
    (hu : u = if bitOf (s.txPending c.toNat) b.toNat then s.endRequest c.toNat b.toNat (2 ^ 30) else s) :
    exec (.canBufCfgWrite c b 0 v none late) s = .next ((if bitOf v.toNat 30 then u else u.clearWritten (canObj c.toNat b.toNat)).setBeWord (canCfg c.toNat b.toNat)
      (v.toNat / 2 ^ 22 * 2 ^ 22)) := by
  rw [exec_canBufCfgWrite s c b late none hp, State.writeCanCfg, hen, hclear, htx, s.cancelTx_not_started, ← hu]
  cases h : bitOf v.toNat 30 <;> rfl

theorem exec_canBufCfgWrite_ignored (hen : s.canEn c.toNat b.toNat = true) {w : BitVec 2} {v : Word} (hw : w ≠ 3) (hkeeps : w = 0 → bitOf v.toNat 31 = true) :
    exec (.canBufCfgWrite c b w v started late) s = .next (s.count (CAN.CFG_IGN_CNT c.toNat)) := by
  have hlt : ¬ 3 ≤ w.toNat := fun h => hw (BitVec.eq_of_toNat_eq (by have := w.isLt; change w.toNat = 3; omega))
  have hclears : (decide (w.toNat = 0) && !bitOf v.toNat 31) = false := by
    by_cases h : w.toNat = 0
    · rw [hkeeps (BitVec.eq_of_toNat_eq h), Bool.not_true, Bool.and_false]
    · rw [decide_eq_false h, Bool.false_and]
  rw [exec_canBufCfgWrite s c b late started hp, State.writeCanCfg, hclears, if_neg hlt, hen]
  rfl

end

end

end Sys2Proof.Machine

namespace Sys2Proof.Proofs
open Sys2Proof.Machine

/-- Settles O43: the equation of each command and case. -/
theorem canTransmissionCommands : Obligations.CanTransmissionCommands := fun s c b late start edges =>
  ⟨fun hp mask => ⟨exec_txReq s c mask hp, exec_txFlip s c mask hp, exec_txCancel_not_started s c mask late hp⟩, exec_txCancel_started s c b start late,
    fun h => ⟨s.canRequest_sends _ _ h, s.canRequest_listens _ _ h⟩, fun _ _ hw hdiv => exec_canPeriodicReq_due s c b hw hdiv, exec_canPeriodicReq_none s c b,
    fun out u hon hact hsilent hu => by
      rw [exec_canTxAttemptEnd s c late start edges out hon hact hsilent]
      exact ⟨fun _ h => congrArg Host.Outcome.next (s.attemptEnds_some start edges out _ _ hu h), fun h => congrArg Host.Outcome.next (s.attemptEnds_none start edges out _ _ hu h)⟩,
    exec_canTxAttemptEnd_none s c late start edges, fun hp hen v started => exec_canBufCfgWrite_disabled s c b late started hp hen v,
    fun _ _ hp hen htx hclear hu => exec_canBufCfgWrite_disables s c b late hp hen htx hclear hu,
    fun hp hen _ _ started hw hkeeps => exec_canBufCfgWrite_ignored s c b late started hp hen hw hkeeps⟩

end Sys2Proof.Proofs
end

section
/-! The MVB (R312 to R318): one equation per command and case. -/

namespace Sys2Proof.Machine

section
variable (s : State) (j : BitVec 1)

/-! ## Master frames -/

theorem State.mvbOn_of (i : Nat) (hl : s.live (.mvb i) = true) (hen : s.flag (MVB.MVB_CTRL_EN i) = true) : s.mvbOn i = true := by
  rw [State.mvbOn, hl, hen]
  rfl

section
variable (f : BitVec 4) (addr : BitVec 12) (seen : MvbMaster)

theorem exec_mvbMasterFrameRx_off (h : s.flag (MVB.MVB_CTRL_EN j.toNat) = false) : exec (.mvbMasterFrameRx j f addr seen) s = .next s :=
  congrArg Host.Outcome.next (if_pos (by rw [State.mvbOn, h, Bool.and_false]; rfl))

/-- A master frame judges the lines and ends the wait; it is taken where it is valid on the trusted line. -/
theorem exec_mvbMasterFrameRx (hon : s.mvbOn j.toNat = true) {u : State}
    (hu : u = (s.judgeLines j.toNat seen.validA seen.validB).withMvb j.toNat (fun k => { k with awaiting := none })) : exec (.mvbMasterFrameRx j f addr seen) s =
      .next (u.when (if s.flag (MVB.MVB_STAT_TRUSTED j.toNat) then seen.validB && s.mvbLine j.toNat 1 else seen.validA && s.mvbLine j.toNat 0) fun u =>
        u.takeMaster j.toNat f.toNat addr.toNat seen.conflict) := by
  subst hu
  exact congrArg Host.Outcome.next (if_neg (by rw [hon]; decide))

end

section
variable {i fcode addr : Nat} {conflict listens : Bool} {t : State} (hlistens : listens = (s.count (MVB.MF_CNT i)).mvbListens i)
  (ht : t = (s.count (MVB.MF_CNT i)).setFlag (MVB.MVB_STAT_LISTEN_ACT i) listens)
include hlistens ht

theorem State.takeMaster_unknown (hmin : 4 < fcode) (hdsw : fcode ≠ 15) : s.takeMaster i fcode addr conflict = t := by
  subst ht hlistens
  rw [State.takeMaster, if_neg hdsw, if_pos hmin]

theorem State.takeMaster_dsw_other (hdsw : fcode = 15) (ha : addr ≠ t.get (MVB.DEV_ADDR i)) : s.takeMaster i fcode addr conflict = t := by
  subst ht hlistens
  rw [State.takeMaster, if_pos hdsw, if_pos ha]

theorem State.takeMaster_dsw_own (hdsw : fcode = 15) (ha : addr = t.get (MVB.DEV_ADDR i)) : s.takeMaster i fcode addr conflict =
    if listens then t.count (MVB.LISTEN_SKIP_CNT i) else t.sendSlave i (bytesBE 2 (t.get (MVB.DSW i))) := by
  subst ht hlistens
  rw [State.takeMaster, if_pos hdsw, if_neg (not_not.mpr ha)]

theorem State.takeMaster_no_entry (hmax : fcode ≤ 4) (hentry : t.mvbEntry i addr = none) : s.takeMaster i fcode addr conflict = t := by
  subst ht hlistens
  rw [State.takeMaster, if_neg (by omega), if_neg (by omega)]
  simp only [hentry]

section
variable {e : Nat} (hmax : fcode ≤ 4) (hentry : t.mvbEntry i addr = some e)
include hmax hentry

theorem State.takeMaster_sink (hdir : t.mvbDir i e = 2) : s.takeMaster i fcode addr conflict = t.withMvb i fun k => { k with awaiting := some e } := by
  subst ht hlistens
  rw [State.takeMaster, if_neg (by omega), if_neg (by omega)]
  simp only [hentry, if_pos hdir]

variable (hdir : t.mvbDir i e ≠ 2)
include hdir

theorem State.takeMaster_fcodeError (hcode : fcode ≠ t.mvbFcode i e) : s.takeMaster i fcode addr conflict = t.count (MVB.FCODE_ERR_CNT i) := by
  subst ht hlistens
  rw [State.takeMaster, if_neg (by omega), if_neg (by omega)]
  simp only [hentry, if_neg hdir, if_pos hcode]

variable (hcode : fcode = t.mvbFcode i e)
include hcode

theorem State.takeMaster_source_listens (hact : listens = true) : s.takeMaster i fcode addr conflict = t.count (MVB.LISTEN_SKIP_CNT i) := by
  subst ht
  rw [State.takeMaster, if_neg (by omega), if_neg (by omega), ← hlistens]
  simp only [hentry, if_neg hdir, if_neg (not_not.mpr hcode), if_pos hact]

theorem State.takeMaster_source_silent (hact : listens = false) (hsilent : t.failSilent = true) : s.takeMaster i fcode addr conflict = t := by
  subst ht
  rw [State.takeMaster, if_neg (by omega), if_neg (by omega), ← hlistens]
  simp only [hentry, if_neg hdir, if_neg (not_not.mpr hcode), if_neg (Bool.eq_false_iff.1 hact), if_pos hsilent]

/-- A source port is answered with its live data and stamps the cycle (R314). -/
theorem State.takeMaster_source (hact : listens = false) (hsilent : t.failSilent = false) {v w : State}
    (hv : v = w.countEntry i e) (hw : w = (t.count (MVB.SF_TX_CNT i)).setBeWord (mvbCfg i e + 8) t.cycle) : s.takeMaster i fcode addr conflict =
      (v.sendSlave i (w.bytes (mvbData i e + 32) (mvbSize fcode))).when conflict fun s => s.countRaise (MVB.CONFLICT_CNT i) (.mvb i) 12 := by
  subst ht hv hw
  rw [State.takeMaster, if_neg (by omega), if_neg (by omega), ← hlistens]
  simp only [hentry, if_neg hdir, if_neg (not_not.mpr hcode), if_neg (Bool.eq_false_iff.1 hact), if_neg (Bool.eq_false_iff.1 hsilent)]

end

end

theorem State.sendSlave_speaks (i : Nat) (data : List Byte) (h : s.failSilent = false) :
    s.sendSlave i data = s.emit (.mvbSlave i (s.get (MVB.MVB_CTRL_LINES i)) data) := by
  rw [State.sendSlave, h]
  rfl

/-! ## Slave frames -/

section
variable (a b : MvbRx) (inWindow : Bool)

theorem exec_mvbSlaveFrameRx_off (h : s.flag (MVB.MVB_CTRL_EN j.toNat) = false) : exec (.mvbSlaveFrameRx j a b inWindow) s = .next s :=
  congrArg Host.Outcome.next (if_pos (by rw [State.mvbOn, h, Bool.and_false]; rfl))

theorem State.validSlave_good {i e : Nat} (data : List Byte) (hwait : (s.mvb i).awaiting = some e) :
    s.validSlave i inWindow (.good data) = (inWindow && decide (data.length = mvbSize (s.mvbFcode i e))) := by
  simp only [State.validSlave, hwait, Option.all_some]

section
variable {x : MvbRx} {t : State} (hon : s.mvbOn j.toNat = true)
  (hx : x = (if s.flag (MVB.MVB_STAT_TRUSTED j.toNat) then (if s.mvbLine j.toNat 1 then b else .silent) else if s.mvbLine j.toNat 0 then a else .silent))
  (ht : t = (s.judgeLines j.toNat (s.validSlave j.toNat inWindow a) (s.validSlave j.toNat inWindow b)).withMvb j.toNat (fun k => { k with awaiting := none }))
include hon hx ht

theorem exec_mvbSlaveFrameRx_unawaited (h : (s.mvb j.toNat).awaiting = none ∨ x = .silent) : exec (.mvbSlaveFrameRx j a b inWindow) s = .next t := by
  subst ht
  change execMvbSlaveFrameRx j a b inWindow s = _
  simp only [execMvbSlaveFrameRx, hon, Bool.not_true, Bool.false_eq_true, if_false, ← hx]
  rcases h with h | h
  · rw [h]
  · rw [h]
    cases (s.mvb j.toNat).awaiting <;> rfl

variable {e : Nat} (hwait : (s.mvb j.toNat).awaiting = some e)
include hwait

theorem exec_mvbSlaveFrameRx_bad (h : x = .bad) : exec (.mvbSlaveFrameRx j a b inWindow) s = .next (t.countRaise (MVB.FRAME_ERR_CNT j.toNat) (.mvb j.toNat) 11) := by
  subst ht
  change execMvbSlaveFrameRx j a b inWindow s = _
  simp only [execMvbSlaveFrameRx, hon, Bool.not_true, Bool.false_eq_true, if_false, ← hx, h, hwait]

theorem exec_mvbSlaveFrameRx_good {data : List Byte} (h : x = .good data) : exec (.mvbSlaveFrameRx j a b inWindow) s =
    .next (if (inWindow && decide (data.length = mvbSize (s.mvbFcode j.toNat e))) = true then t.takeSlave j.toNat e data
      else t.countRaise (MVB.FRAME_ERR_CNT j.toNat) (.mvb j.toNat) 11) := by
  subst ht
  change execMvbSlaveFrameRx j a b inWindow s = _
  simp only [execMvbSlaveFrameRx, hon, Bool.not_true, Bool.false_eq_true, if_false, ← hx, h, hwait, s.validSlave_good inWindow data hwait]

end

end

/-- What a good slave frame changes (R316). -/
theorem State.takeSlave_eq (t : State) (i e : Nat) (data : List Byte) {v : State}
    (hv : v = ((((t.setBytes (mvbData i e) data).setBeWord (mvbCfg i e + 8) t.cycle).countEntry i e).count (MVB.SF_RX_CNT i)).withMvb i
      (fun k => { k with seen := insertNat e k.seen, stale := k.stale.filter (fun x => x != e), since := k.since.filter (fun x => x.1 != e) ++ [(e, t.ltcNs)] })) :
    t.takeSlave i e data = (if bitOf (v.mvbWord i e 0) 25 then v.raise (.mvb i) 8 else v).rxTriggers 4 (i * 256 + e) := by
  have hltc : ((((t.setBytes (mvbData i e) data).setBeWord (mvbCfg i e + 8) t.cycle).countEntry i e).count (MVB.SF_RX_CNT i)).ltcNs = t.ltcNs := by
    rw [State.countEntry, State.setBeWord, State.setBeWord]
    exact (State.setBytes_observe _ State.ltcNs (fun _ _ _ => rfl) _ _).trans
      ((State.setBytes_observe _ State.ltcNs (fun _ _ _ => rfl) _ _).trans (State.setBytes_observe _ State.ltcNs (fun _ _ _ => rfl) _ _))
  subst hv
  rw [State.takeSlave, hltc]
  rfl

/-! ## Stale ports and flips -/

section
variable (e : Byte)

theorem exec_portStale_none (h : s.mvbWord j.toNat e.toNat 1 % 2 ^ 16 = 0) : exec (.portStale j e) s = .next s :=
  by
  have hsilent : s.mvbSilent j.toNat e.toNat = false := by simp only [State.mvbSilent, h, bne_self_eq_false, Bool.false_and]
  exact congrArg Host.Outcome.next (if_neg (by rw [hsilent, Bool.and_false, Bool.false_and]; exact Bool.false_ne_true))

theorem exec_portStale_again (h : (s.mvb j.toNat).stale.contains e.toNat = true) : exec (.portStale j e) s = .next s :=
  congrArg Host.Outcome.next (if_neg (by rw [h, Bool.not_true, Bool.and_false]; exact Bool.false_ne_true))

theorem exec_portStale_due (hl : s.live (.mvb j.toNat) = true) (hen : s.mvbEn j.toNat e.toNat = true) (hdir : s.mvbDir j.toNat e.toNat = 2)
    (hsilent : s.mvbSilent j.toNat e.toNat = true) (h : (s.mvb j.toNat).stale.contains e.toNat = false) : exec (.portStale j e) s
      = .next ((s.withMvb j.toNat fun k => { k with stale := insertNat e.toNat k.stale }).countRaise (MVB.STALE_CNT j.toNat) (.mvb j.toNat) 9) :=
  congrArg Host.Outcome.next (if_pos (by rw [hl, hen, hdir, hsilent, h]; rfl))

theorem exec_portFlip (hp : s.powered (.mvb j.toNat) = true) : exec (.portFlip j e) s = .next (s.flipNow (mvbObj j.toNat e.toNat)) :=
  congrArg Host.Outcome.next (if_pos hp)

end

theorem State.flipNow_kept {o : Obj} (h : s.stagedOf o = none ∨ s.holdsProv o = true ∨ s.held.contains o = true) : s.flipNow o = s := by
  rw [State.flipNow]
  rcases h with h | h | h
  · rw [State.flip, h]
    exact ite_self s
  · rw [h, Bool.true_or, if_pos rfl]
  · rw [h, Bool.or_true, if_pos rfl]

/-- The staged bytes of an MVB port become live. -/
theorem State.flipNow_mvb {o : Obj} {x : Staged} (hspace : o.space = 4) (hx : s.stagedOf o = some x) (hprov : s.holdsProv o = false) (hheld : s.held.contains o = false) :
    s.flipNow o = (s.each (s.objParts o) fun p s => s.copyRange p.1 p.2.1 p.2.2).clearWritten o := by
  have hkeep : s.keepFormer o s.ltcNs = s := if_neg (by rw [hspace]; decide)
  rw [State.flipNow, hprov, hheld, Bool.or_self, if_neg Bool.false_ne_true, State.flip, hx]
  dsimp only
  rw [hspace, if_neg (by decide), hkeep, decide_eq_false (by decide : ¬ (4 = 3)), Bool.false_and, if_neg Bool.false_ne_true]

end

end Sys2Proof.Machine

namespace Sys2Proof.Proofs
open Sys2Proof.Machine

/-- Settles O44: the equation of each command and case. -/
theorem mvbCommands : Obligations.MvbCommands := by
  intro s j
  refine ⟨fun f addr seen listens u t hl hen hu hlistens ht => ?_, fun a b x inWindow t hl hen hx ht => ?_, fun h f addr seen a b w =>
      ⟨exec_mvbMasterFrameRx_off s j f addr seen h, exec_mvbSlaveFrameRx_off s j a b w h⟩,
    fun e hl hen hdir hsilent => ⟨exec_portStale_due s j e hl hen hdir hsilent, exec_portStale_again s j e⟩, exec_portStale_none s j,
    fun e x o ho hp hx hprov hheld => ?_, fun e o ho hp h => ?_⟩
  · rw [exec_mvbMasterFrameRx s j f addr seen (s.mvbOn_of _ hl hen) hu]
    have hdsw (h : f = 15) : f.toNat = 15 := congrArg BitVec.toNat h
    refine ⟨fun h => by rw [h, State.when_false], fun h => ?_⟩
    rw [h, State.when_true]
    refine ⟨fun hmin h => congrArg Host.Outcome.next (u.takeMaster_unknown hlistens ht hmin h),
      fun h ha => congrArg Host.Outcome.next (u.takeMaster_dsw_other hlistens ht (hdsw h) ha), fun h ha hact hsilent => ?_, fun h ha hact => ?_,
      fun hmax hentry => congrArg Host.Outcome.next (u.takeMaster_no_entry hlistens ht hmax hentry),
      fun e hmax hentry hdir => congrArg Host.Outcome.next (u.takeMaster_sink hlistens ht hmax hentry hdir),
      fun e hmax hentry hdir hcode => congrArg Host.Outcome.next (u.takeMaster_fcodeError hlistens ht hmax hentry hdir hcode),
      fun e hmax hentry hdir hcode => ⟨fun hact => congrArg Host.Outcome.next (u.takeMaster_source_listens hlistens ht hmax hentry hdir hcode hact),
        fun hact hsilent => congrArg Host.Outcome.next (u.takeMaster_source_silent hlistens ht hmax hentry hdir hcode hact hsilent),
        fun v w hact hsilent hv hw hspeaks => ?_⟩⟩
    · rw [u.takeMaster_dsw_own hlistens ht (hdsw h) ha, hact, if_neg Bool.false_ne_true, t.sendSlave_speaks _ _ hsilent]
    · rw [u.takeMaster_dsw_own hlistens ht (hdsw h) ha, if_pos hact]
    · rw [u.takeMaster_source hlistens ht hmax hentry hdir hcode hact hsilent (hw ▸ hv) hw, v.sendSlave_speaks _ _ hspeaks]
      rfl
  · have hon := s.mvbOn_of j.toNat hl hen
    refine ⟨exec_mvbSlaveFrameRx_unawaited s j a b inWindow hon hx ht, fun e hwait => ⟨exec_mvbSlaveFrameRx_bad s j a b inWindow hon hx ht hwait, fun data h hmiss => ?_,
      fun data v h hwindow hlen hv => ?_⟩⟩
    · rw [exec_mvbSlaveFrameRx_good s j a b inWindow hon hx ht hwait h, if_neg (by rcases hmiss with h | h <;> simp [h])]
    · rw [exec_mvbSlaveFrameRx_good s j a b inWindow hon hx ht hwait h, if_pos (by simp [hwindow, hlen]), t.takeSlave_eq _ _ _ hv]
  · rw [exec_portFlip s j e hp, ← ho, s.flipNow_mvb (ho ▸ rfl) hx hprov hheld]
  · rw [exec_portFlip s j e hp, ← ho, s.flipNow_kept h]

end Sys2Proof.Proofs
end

section
/-! The hat of a twin pair (R326 to R335): one equation per message and event. -/

namespace Sys2Proof.Machine

section
variable (s : State)

/-! ## Messages of the peer -/

/-- A message with the receiver's own identity shows a bad configuration (R325). -/
theorem State.onTwin_own {hdr : TwinHeader} (hrun : s.twinRuns = true) (hown : hdr.twinId = s.junior) (f : State → State) : s.onTwin hdr f = s.twinCfgBad := by
  rw [State.onTwin, hrun, Bool.not_true, if_neg Bool.false_ne_true, if_pos hown]

section
variable {hdr : TwinHeader} {u : State} (hrun : s.twinRuns = true) (hpeer : hdr.twinId ≠ s.junior) (hu : u = s.noteHeader hdr)
include hrun hpeer hu

theorem State.onTwin_peer (f : State → State) : s.onTwin hdr f = (f u).refreshTwin := by
  subst hu
  rw [State.onTwin, hrun, Bool.not_true, if_neg Bool.false_ne_true, if_neg hpeer]

section
variable {cycle : BitVec 32} (lease : BitVec 8)

theorem exec_renewRx_late (hlate : u.lateFor cycle = true) : exec (.renewRx hdr cycle lease) s = .next (u.count TWIN.LATE_MSG_CNT).refreshTwin := by
  change execRenewRx hdr cycle lease s = _
  rw [execRenewRx, s.onTwin_peer hrun hpeer hu, if_pos hlate]

theorem exec_renewRx_wearing (hlate : u.lateFor cycle = false) (hhat : u.hat = hatWEARING) : exec (.renewRx hdr cycle lease) s = .next u.refreshTwin := by
  change execRenewRx hdr cycle lease s = _
  rw [execRenewRx, s.onTwin_peer hrun hpeer hu, hlate, if_neg Bool.false_ne_true, if_pos (by simp [hhat])]

/-- A standby grants what is renewed. -/
theorem exec_renewRx_standby (hlate : u.lateFor cycle = false) (hhat : u.hat = hatSTANDBY) {v : State}
    (hv : v = ((u.withTwin fun t => { t with renewed := some cycle, peerLease := lease.toNat }).recheckLines u).settleHat) (hstays : v.hat = hatSTANDBY) :
    exec (.renewRx hdr cycle lease) s = .next (v.grant cycle).refreshTwin := by
  subst hv
  change execRenewRx hdr cycle lease s = _
  rw [execRenewRx, s.onTwin_peer hrun hpeer hu, hlate, if_neg Bool.false_ne_true, if_neg (by rw [hhat]; decide), hhat, bne_self_eq_false, State.when_false]
  exact congrArg (fun t : State => Host.Outcome.next t.refreshTwin) (if_pos (decide_eq_true hstays))

/-- A chip without a hat of its own becomes STANDBY first. -/
theorem exec_renewRx_other (hlate : u.lateFor cycle = false) (hstandby : u.hat ≠ hatSTANDBY) (hoff : u.hat ≠ hatOFF) (hwearing : u.hat ≠ hatWEARING) {v : State}
    (hv : v = (((u.setHat hatSTANDBY u.cycle).withTwin fun t => { t with renewed := some cycle, peerLease := lease.toNat }).recheckLines u).settleHat)
    (hstays : v.hat = hatSTANDBY) : exec (.renewRx hdr cycle lease) s = .next (v.grant cycle).refreshTwin := by
  subst hv
  change execRenewRx hdr cycle lease s = _
  rw [execRenewRx, s.onTwin_peer hrun hpeer hu, hlate, if_neg Bool.false_ne_true, if_neg (by simp [hoff, hwearing]), bne_iff_ne.mpr hstandby, State.when_true]
  exact congrArg (fun t : State => Host.Outcome.next t.refreshTwin) (if_pos (decide_eq_true hstays))

end

section
variable {cycle : BitVec 32} (num : BitVec 32) (unable : BitVec 8)

theorem exec_grantRx_late (unsure : Bool) (hlate : u.lateFor cycle = true) :
    exec (.grantRx hdr cycle num unable unsure) s = .next (u.count TWIN.LATE_MSG_CNT).refreshTwin := by
  change execGrantRx hdr cycle num unable unsure s = _
  rw [execGrantRx, s.onTwin_peer hrun hpeer hu, if_pos hlate]

theorem exec_grantRx_standby (unsure : Bool) (hlate : u.lateFor cycle = false) (hhat : u.hat = hatSTANDBY) :
    exec (.grantRx hdr cycle num unable unsure) s = .next u.refreshTwin := by
  change execGrantRx hdr cycle num unable unsure s = _
  rw [execGrantRx, s.onTwin_peer hrun hpeer hu, hlate, if_neg Bool.false_ne_true, if_pos (by rw [hhat]; rfl)]

theorem exec_grantRx_wearing (hlate : u.lateFor cycle = false) (hhat : u.hat = hatWEARING) {v : State}
    (hv : v = (u.set TWIN.LAST_GRANT cycle.toNat).withTwin (fun t => { t with unready := !hdr.ready })) (hlost : v.flag TWIN.TWIN_STAT_PEER_LOST = false)
    (hblocked : v.twinUnit.blocked = false) : exec (.grantRx hdr cycle num unable false) s = .next v.refreshTwin := by
  change execGrantRx hdr cycle num unable false s = _
  rw [execGrantRx, s.onTwin_peer hrun hpeer hu, hlate, if_neg Bool.false_ne_true, if_neg (by rw [hhat]; decide)]
  simp only [← hv, hlost, hblocked, Bool.and_false, State.when_false]

end

section
variable {tick : BitVec 32} {v : State}
  (hv : v = if u.hat ≠ hatOFF ∧ cyclesAfter u.cycle tick < 0 then u.withTwin fun t => { t with heldAt := some tick } else u)
include hv

theorem exec_claimRx : exec (.claimRx hdr tick) s = .next (if v.hat = hatNONE then (v.setHat hatSTANDBY v.cycle).grant tick
    else if v.hat = hatWEARING && v.twinUnit.tookAt = some tick then
      if v.junior then (if v.valid && 0 < cyclesAfter v.cycle tick then v else ((v.setHat hatSTANDBY v.cycle).dropHatOut).grant tick) else v.count TWIN.CLAIM_DEFER_CNT
    else v).refreshTwin := by
  have hv' : v = u.when (u.hat != hatOFF && decide (cyclesAfter u.cycle tick < 0)) fun s => s.withTwin fun t => { t with heldAt := some tick } := by
    rw [hv]
    exact if_congr (by simp) rfl rfl
  subst hv'
  change execClaimRx hdr tick s = _
  rw [execClaimRx, s.onTwin_peer hrun hpeer hu]

theorem exec_claimRx_none (hhat : v.hat = hatNONE) : exec (.claimRx hdr tick) s = .next ((v.setHat hatSTANDBY v.cycle).grant tick).refreshTwin := by
  rw [exec_claimRx s hrun hpeer hu hv, if_pos hhat]

theorem exec_claimRx_defers (hhat : v.hat = hatWEARING) (htook : v.twinUnit.tookAt = some tick) (hsenior : v.junior = false) :
    exec (.claimRx hdr tick) s = .next (v.count TWIN.CLAIM_DEFER_CNT).refreshTwin := by
  rw [exec_claimRx s hrun hpeer hu hv, if_neg (by rw [hhat]; decide), if_pos (by simp [hhat, htook]), hsenior, if_neg Bool.false_ne_true]

end

section
variable {tick : BitVec 32}

theorem exec_handoverRx_fit (cause : BitVec 8) (hhat : u.hat = hatSTANDBY) (hable : u.unable u.cycle = 0) (hcome : cyclesAfter u.cycle tick < 0) :
    exec (.handoverRx hdr tick cause) s = .next ((u.sendTwin (.handoverAck tick)).withTwin fun t => { t with handoverAt := some tick }).refreshTwin := by
  change execHandoverRx hdr tick cause s = _
  rw [execHandoverRx, s.onTwin_peer hrun hpeer hu, if_pos (by rw [hhat, hable, decide_eq_true hcome]; rfl)]

theorem exec_handoverAckRx_due (hhat : u.hat = hatWEARING) (hat_ : u.twinUnit.handoverAt = some tick) (hcome : cyclesAfter u.cycle tick < 0) :
    exec (.handoverAckRx hdr tick) s = .next (u.withTwin fun t => { t with acked := true }).refreshTwin := by
  change execHandoverAckRx hdr tick s = _
  rw [execHandoverAckRx, s.onTwin_peer hrun hpeer hu, if_pos (by rw [hhat, hat_, decide_eq_true hcome]; simp)]

end

end

section
variable {hdr : TwinHeader} (hrun : s.twinRuns = true) (hown : hdr.twinId = s.junior) (cycle tick num : BitVec 32) (lease cause unable : BitVec 8)
include hrun hown

theorem exec_renewRx_own : exec (.renewRx hdr cycle lease) s = .next s.twinCfgBad := congrArg Host.Outcome.next (s.onTwin_own hrun hown _)

theorem exec_grantRx_own (unsure : Bool) : exec (.grantRx hdr cycle num unable unsure) s = .next s.twinCfgBad := congrArg Host.Outcome.next (s.onTwin_own hrun hown _)

theorem exec_claimRx_own : exec (.claimRx hdr tick) s = .next s.twinCfgBad := congrArg Host.Outcome.next (s.onTwin_own hrun hown _)

theorem exec_handoverRx_own : exec (.handoverRx hdr tick cause) s = .next s.twinCfgBad := congrArg Host.Outcome.next (s.onTwin_own hrun hown _)

theorem exec_handoverAckRx_own : exec (.handoverAckRx hdr tick) s = .next s.twinCfgBad := congrArg Host.Outcome.next (s.onTwin_own hrun hown _)

end

/-! ## The lease, claims and the start-up count -/

section
variable (hrun : s.twinRuns = true) (hhat : s.hat = hatWEARING) (hlost : s.flag TWIN.TWIN_STAT_PEER_LOST = false)
  (hend : (s.get TWIN.LEASE_CFG_LEASE : Int) ≤ cyclesAfter s.nextTick (BitVec.ofNat 32 (s.get TWIN.LAST_GRANT)))
include hrun hhat hlost hend

theorem exec_leaseEnd : exec .leaseEnd s = .next (if s.get TWIN.TWIN_STAT_HBT_IN = 0 then ((s.setFlag TWIN.TWIN_STAT_PEER_LOST true).count TWIN.PEER_LOST_CNT).raise .twin 10
    else s.partition.count TWIN.PARTITION_CNT) :=
  congrArg Host.Outcome.next (if_pos (by rw [hrun, hhat, hlost, decide_eq_true hend]; rfl))

theorem exec_leaseEnd_silent (h : s.get TWIN.TWIN_STAT_HBT_IN = 0) :
    exec .leaseEnd s = .next (((s.setFlag TWIN.TWIN_STAT_PEER_LOST true).count TWIN.PEER_LOST_CNT).raise .twin 10) := by
  rw [exec_leaseEnd s hrun hhat hlost hend, if_pos h]

theorem exec_leaseEnd_beating (h : s.get TWIN.TWIN_STAT_HBT_IN ≠ 0) : exec .leaseEnd s = .next (s.partition.count TWIN.PARTITION_CNT) := by
  rw [exec_leaseEnd s hrun hhat hlost hend, if_neg h]

end

section
variable {u : State} (hu : u = s.refreshTwinAt s.nextTick) (hrun : u.twinRuns = true) (hhat : u.hat = hatSTANDBY) (hgranted : u.twinUnit.granted = true)
  (hend : ((u.leaseSpan + u.guardSpan : Nat) : Int) ≤ cyclesAfter u.nextTick (BitVec.ofNat 32 (u.get TWIN.LAST_GRANT))) (hable : u.unable u.nextTick = 0)
include hu hrun hhat hgranted hend hable

theorem exec_claim : exec .claim s = .next (if u.get TWIN.TWIN_STAT_HBT_IN = 2 then u.count TWIN.CLAIM_DEFER_CNT
    else (u.claimHat u.nextTick true).refreshTwinAt u.nextTick) := by
  subst hu
  exact congrArg Host.Outcome.next (if_pos (by rw [hrun, hhat, hgranted, hable, decide_eq_true hend]; rfl))

theorem exec_claim_defers (h : u.get TWIN.TWIN_STAT_HBT_IN = 2) : exec .claim s = .next (u.count TWIN.CLAIM_DEFER_CNT) := by
  rw [exec_claim s hu hrun hhat hgranted hend hable, if_pos h]

theorem exec_claim_claims (h : u.get TWIN.TWIN_STAT_HBT_IN ≠ 2) : exec .claim s = .next ((u.claimHat u.nextTick true).refreshTwinAt u.nextTick) := by
  rw [exec_claim s hu hrun hhat hgranted hend hable, if_neg h]

end

section
variable (hrun : s.twinRuns = true) (hhat : s.hat = hatNONE)
include hrun hhat

theorem exec_startupCountReached_senior (hsenior : s.junior = false) (hcount : s.get TWIN.LEASE_CFG_START_SENIOR ≤ s.startCount) :
    exec .startupCountReached s = .next (if s.chipUnable = 0 then s.claimHat s.nextTick false else s) := by
  change execStartupCountReached s = _
  rw [execStartupCountReached, hsenior, if_neg Bool.false_ne_true, hrun, hhat, decide_eq_true hcount]
  rfl

/-- A junior whose link is down beside a beating peer is partitioned (R330). -/
theorem exec_startupCountReached_junior (hjunior : s.junior = true) (hcount : s.get TWIN.LEASE_CFG_START_JUNIOR ≤ s.startCount) (hlink : s.lorzelUp = false)
    (hbt : s.get TWIN.TWIN_STAT_HBT_IN ≠ 0) : exec .startupCountReached s = .next s.partition := by
  change execStartupCountReached s = _
  rw [execStartupCountReached, hjunior, if_pos rfl, hrun, hhat, decide_eq_true hcount, hlink, decide_eq_false hbt]
  rfl

end

theorem exec_startupCountReached_none (h : s.hat ≠ hatNONE) : exec .startupCountReached s = .next s :=
  congrArg Host.Outcome.next (if_neg (by rw [decide_eq_false h, Bool.and_false, Bool.false_and]; exact Bool.false_ne_true))

/-! ## Handovers -/

section
variable {on : Bool} {u : State} (hp : s.powered .twin = true)
  (hu : u = (if s.flag TWIN.TWIN_CTRL_HANDOVER = on then s else s.stampConfig .twin).setFlag TWIN.TWIN_CTRL_HANDOVER on)
include hp hu

theorem exec_handover : exec (.handover on) s = .next (if u.handoverCause.isSome then u.tryHandover u.handoverTick else u.withTwin fun t => { t with blocked := false }) := by
  change execHandover on s = _
  rw [execHandover, if_pos hp, State.writeHandover, State.when_bne, ← hu]

theorem exec_handover_caused (h : u.handoverCause.isSome = true) : exec (.handover on) s = .next (u.tryHandover u.handoverTick) := by
  rw [exec_handover s hp hu, if_pos h]

theorem exec_handover_uncaused (h : u.handoverCause = none) : exec (.handover on) s = .next (u.withTwin fun t => { t with blocked := false }) := by
  rw [exec_handover s hp hu, h, if_neg (by decide)]

end

theorem exec_handoverTick_none (h : s.twinUnit.handoverAt ≠ some (BitVec.ofNat 32 s.nextTick)) : exec .handoverTick s = .next s :=
  congrArg Host.Outcome.next (if_neg (by rw [decide_eq_false h, Bool.and_false]; exact Bool.false_ne_true))

section
variable (hrun : s.twinRuns = true) (hat_ : s.twinUnit.handoverAt = some (BitVec.ofNat 32 s.nextTick))
include hrun hat_

theorem State.handoverTick_due : (s.twinRuns && decide (s.twinUnit.handoverAt = some (BitVec.ofNat 32 s.nextTick))) = true := by
  rw [hrun, decide_eq_true hat_]
  rfl

theorem exec_handoverTick_standby (hhat : s.hat = hatSTANDBY) :
    exec .handoverTick s = .next (((s.takeHat s.nextTick true).count TWIN.HANDOVER_CNT).withTwin fun x => { x with handoverAt := none }) :=
  congrArg Host.Outcome.next ((if_pos (s.handoverTick_due hrun hat_)).trans ((if_neg (by rw [hhat]; decide)).trans (if_pos hhat)))

variable (hhat : s.hat = hatWEARING)
include hhat

theorem exec_handoverTick_acked (hacked : s.twinUnit.acked = true) {u : State}
    (hu : u = ((s.setHat hatSTANDBY s.nextTick).count TWIN.HANDOVER_CNT).setFlag TWIN.TWIN_CTRL_HANDOVER false) :
    exec .handoverTick s = .next (((u.set TWIN.LAST_GRANT s.nextTick).withTwin fun x => { x with
      granted := true, heldAt := some (BitVec.ofNat 32 s.nextTick), outgoing := some (BitVec.ofNat 32 s.nextTick)
      keptOut := BitVec.ofNat 32 (u.get GPIO.OUT) }).settleHat) := by
  subst hu
  exact congrArg Host.Outcome.next ((if_pos (s.handoverTick_due hrun hat_)).trans ((if_pos hhat).trans (if_pos hacked)))

/-- A wearer whose peer has not acknowledged tries again with the next tick. -/
theorem exec_handoverTick_unacked (hacked : s.twinUnit.acked = false) {u : State}
    (hu : u = (s.withTwin fun x => { x with handoverAt := none }).tryHandover ((s.nextTick + 1) % 2 ^ 32)) :
    exec .handoverTick s = .next (u.when u.twinUnit.handoverAt.isSome fun s => s.count TWIN.HANDOVER_RETRY_CNT) := by
  subst hu
  exact congrArg Host.Outcome.next ((if_pos (s.handoverTick_due hrun hat_)).trans ((if_pos hhat).trans (if_neg (Bool.eq_false_iff.1 hacked))))

end

theorem exec_hatOutRelease_none (h : s.twinUnit.outgoing = none) : exec .hatOutRelease s = .next s := by
  change execHatOutRelease s = _
  simp only [execHatOutRelease, h]

theorem exec_hatOutRelease_peer {n : BitVec 32} (h : s.twinUnit.outgoing = some n) (hhat : s.twinUnit.peerHat = hatWEARING) (hreleased : s.twinUnit.peerReleased = true) :
    exec .hatOutRelease s = .next s.dropHatOut := by
  change execHatOutRelease s = _
  simp only [execHatOutRelease, h, hhat, hreleased, decide_true, Bool.and_self, Bool.true_or, if_true]

/-! ## HOST_GRANT -/

theorem exec_hostGrant_other {v : BitVec 16} (h : v ≠ 0xB4A7) : exec (.hostGrant v) s = .next s := by
  have hv : v.toNat ≠ 0xB4A7 := fun he => h (BitVec.eq_of_toNat_eq he)
  change Host.Outcome.next (s.writeHostGrant v.toNat) = _
  rw [State.writeHostGrant, decide_eq_false hv, Bool.and_false, Bool.false_and, Bool.false_and, if_neg Bool.false_ne_true]

theorem exec_hostGrant_key (hrun : s.twinRuns = true) (hhat : s.hat = hatPARTITIONED) (hbt : s.get TWIN.TWIN_STAT_HBT_IN = 0)
    (hsilent : s.leaseSpan + s.guardSpan ≤ s.twinUnit.hbtSilentTicks) :
    exec (.hostGrant 0xB4A7) s = .next (((s.claimHat s.nextTick false).recheckLines s).settleHat) :=
  congrArg Host.Outcome.next (if_pos (by rw [hrun, hhat, hbt, decide_eq_true hsilent]; rfl))

end

end Sys2Proof.Machine

namespace Sys2Proof.Proofs
open Sys2Proof.Machine

/-- Settles O45: the equation of each message and event. -/
theorem hatCommands : Obligations.HatCommands := by
  intro s hdr cycle tick lease
  refine ⟨fun hrun hpeer u hu => ⟨fun hlate => ⟨exec_renewRx_late s hrun hpeer hu lease hlate,
        fun num unable unsure => exec_grantRx_late s hrun hpeer hu num unable unsure hlate⟩,
      exec_renewRx_wearing s hrun hpeer hu lease, fun v hlate hhat hv hstays => exec_renewRx_standby s hrun hpeer hu lease hlate hhat hv hstays,
      fun v hlate hstandby hoff hwearing hv hstays => exec_renewRx_other s hrun hpeer hu lease hlate hstandby hoff hwearing hv hstays,
      fun num unable => exec_grantRx_standby s hrun hpeer hu num unable true,
      fun num unable v hlate hhat hv hlost hblocked => exec_grantRx_wearing s hrun hpeer hu num unable hlate hhat hv hlost hblocked,
      fun v hv => ⟨exec_claimRx_none s hrun hpeer hu hv, exec_claimRx_defers s hrun hpeer hu hv⟩, exec_handoverRx_fit s hrun hpeer hu, exec_handoverAckRx_due s hrun hpeer hu⟩,
    fun hrun hown cause num unable unsure => ⟨exec_renewRx_own s hrun hown cycle lease, exec_grantRx_own s hrun hown cycle num unable unsure, exec_claimRx_own s hrun hown tick,
      exec_handoverRx_own s hrun hown tick cause, exec_handoverAckRx_own s hrun hown tick⟩,
    fun hrun hhat hlost hend => ⟨exec_leaseEnd_silent s hrun hhat hlost hend, exec_leaseEnd_beating s hrun hhat hlost hend⟩,
    fun u hu hrun hhat hgranted hend hable => ⟨exec_claim_defers s hu hrun hhat hgranted hend hable, exec_claim_claims s hu hrun hhat hgranted hend hable⟩,
    fun hrun hhat hsenior hcount => ?_, exec_startupCountReached_junior s, exec_startupCountReached_none s,
    fun on u hp hu => ⟨exec_handover_caused s hp hu, exec_handover_uncaused s hp hu⟩, exec_handoverTick_none s, exec_handoverTick_standby s,
    fun hrun hat_ hhat => ⟨fun hacked u hu => exec_handoverTick_acked s hrun hat_ hhat hacked hu, fun u hu hacked => ?_⟩,
    fun n => exec_hatOutRelease_peer s, exec_hatOutRelease_none s, fun v => exec_hostGrant_other s, exec_hostGrant_key s⟩
  · rw [exec_startupCountReached_senior s hrun hhat hsenior hcount]
    exact ⟨fun h => congrArg Host.Outcome.next (if_pos h), fun h => congrArg Host.Outcome.next (if_neg h)⟩
  · rw [exec_handoverTick_unacked s hrun hat_ hhat hacked hu]
    exact ⟨fun h => by rw [h, State.when_true], fun h => by rw [h, Option.isSome_none, State.when_false]⟩

end Sys2Proof.Proofs
end

section
/-! Merges, cut records, epochs and the heartbeat of a twin pair (R325, R326, R335, R336, R340): one equation per message and case. -/

namespace Sys2Proof.Machine

section
variable (s : State)

/-! ## Merges -/

section
variable {hdr : TwinHeader} {u : State} (hrun : s.twinRuns = true) (hpeer : hdr.twinId ≠ s.junior) (hu : u = s.noteHeader hdr)

/-- What a merge writes of the dough bytes, in both channels. -/
def State.mergeDough (u : State) (offs : Nat) (dough : List Byte) : State :=
  u.each ((List.range dough.length).zip dough) fun x s =>
    if offs + x.1 < 1928 then s.each [Line.A, Line.B] fun k s => s.setByte (doughAddr k + offs + x.1) x.2 else s

theorem State.mergeDough_observe {α : Type} (obs : State → α) (hbyte : ∀ (t : State) (a : Nat) (v : Byte), obs (t.setByte a v) = obs t) (t : State) (offs : Nat)
    (dough : List Byte) : obs (t.mergeDough offs dough) = obs t :=
  State.each_observe obs (fun _ _ _ => State.ite_observe obs (State.each_observe obs (fun _ _ _ => hbyte _ _ _) _) rfl) t

/-- The bytes of the two channels' doughs lie apart. -/
theorem byte_dough_pair (t : State) (k : Line) (offs x y : Nat) (v : Byte) (hx : offs + x < 1928) (hy : offs + y < 1928) :
    (t.each [Line.A, Line.B] fun k s => s.setByte (doughAddr k + offs + y) v).byte (doughAddr k + offs + x) = if x = y then v else t.byte (doughAddr k + offs + x) := by
  have hapart (c : Line) (hne : c ≠ k) : doughAddr k + offs + x ≠ doughAddr c + offs + y := by
    cases c <;> cases k <;> simp only [doughAddr, lineBit, ne_eq, not_true_eq_false] at hne ⊢ <;> omega
  have hsame (u : State) : (u.setByte (doughAddr k + offs + y) v).byte (doughAddr k + offs + x) = if x = y then v else u.byte (doughAddr k + offs + x) := by
    split
    case isTrue h => rw [h, State.byte_setByte]
    case isFalse h => exact State.byte_setByte_ne _ _ _ _ (by omega)
  refine State.each_observe_at (fun t => t.byte (doughAddr k + offs + x)) (fun b => if x = y then v else b) (d := k) ?_ (by decide) (fun u => hsame u)
    (fun c _ hc u => State.byte_setByte_ne _ _ _ _ (hapart c hc)) t
  cases k <;> decide

theorem State.mergeDough_byte (t : State) (k : Line) (offs : Nat) (dough : List Byte) (x : Nat) (h : x < dough.length) (hx : offs + x < 1928) :
    (t.mergeDough offs dough).byte (doughAddr k + offs + x) = dough[x] := by
  have hlen : ((List.range dough.length).zip dough).length = dough.length := by simp
  have hmem : (x, dough[x]) ∈ (List.range dough.length).zip dough := List.mem_iff_getElem.2 ⟨x, hlen.symm ▸ h, by simp⟩
  have hnodup : ((List.range dough.length).zip dough).Nodup :=
    List.Nodup.of_map Prod.fst (by rw [List.map_fst_zip (by simp)]; exact List.nodup_range)
  refine State.each_observe_at (fun t => t.byte (doughAddr k + offs + x)) (fun _ => dough[x]) hmem hnodup (fun u => ?_) (fun a ha hne u => ?_) t
  · exact (congrArg (fun v : State => v.byte _) (if_pos hx)).trans ((byte_dough_pair u k offs x x dough[x] hx hx).trans (if_pos rfl))
  · obtain ⟨i, hi, rfl⟩ := List.mem_iff_getElem.1 ha
    have hother : x ≠ i := fun hxi => hne (by subst hxi; simp)
    simp only [List.getElem_zip, List.getElem_range]
    split
    case isTrue hlt => exact (byte_dough_pair u k offs x i _ hx hlt).trans (if_neg hother)
    case isFalse => rfl

theorem State.refreshTwin_observe {α : Type} (obs : State → α) (hset : ∀ (t : State) (r : Reg) (v : Nat),
    r ∈ [TWIN.TWIN_STAT_UNABLE, TWIN.TWIN_STAT_READY, TWIN.TWIN_STAT_EPOCH_AGE] → obs (t.set r v) = obs t) (t : State) : obs t.refreshTwin = obs t :=
  State.ite_observe obs ((hset _ _ _ (by decide)).trans ((hset _ _ _ (by decide)).trans (hset _ _ _ (by decide)))) rfl

/-- DOUGH_STAT and the fields of the twin unit that a message refreshes lie apart. -/
theorem State.refreshTwin_ready (t : State) : t.refreshTwin.flag (LOAF.DOUGH_STAT_READY .A) = t.flag (LOAF.DOUGH_STAT_READY .A) := by
  have happart : ∀ r ∈ [TWIN.TWIN_STAT_UNABLE, TWIN.TWIN_STAT_READY, TWIN.TWIN_STAT_EPOCH_AGE], (LOAF.DOUGH_STAT_READY .A).key ≠ r.key := by decide
  exact State.refreshTwin_observe (fun t => t.flag (LOAF.DOUGH_STAT_READY .A)) (fun t r v hr => t.flag_set_ne r _ v (happart r hr)) t

theorem State.setDoubtfulReq_setReady_ready (t : State) (b c : Bool) : ((t.setReady b).setDoubtfulReq c).flag (LOAF.DOUGH_STAT_READY .A) = b := by
  rw [State.setDoubtfulReq, State.setReady, State.flag_setFlag_ne _ _ _ _ (by decide), State.flag_setFlag_ne _ _ _ _ (by decide),
    State.flag_setFlag_ne _ _ _ _ (by decide), State.flag_setFlag _ _ _ (by decide)]

include hrun hpeer hu

theorem exec_mergeRx_wearing (mseq offs : BitVec 16) (refresh ready doubtful : Bool) (dough : List Byte) (hhat : u.hat = hatWEARING) :
    exec (.mergeRx hdr mseq offs refresh ready doubtful dough) s = .next u.refreshTwin := by
  change execMergeRx hdr mseq offs refresh ready doubtful dough s = _
  rw [execMergeRx, s.onTwin_peer hrun hpeer hu, if_pos (by rw [hhat]; rfl)]

/-- A merge without bytes that follows the last one in number. -/
theorem exec_mergeRx_next {mseq : BitVec 16} (ready doubtful : Bool) (hhat : u.hat = hatSTANDBY) (hseq : mseq = u.twinUnit.mseqIn + 1) :
    exec (.mergeRx hdr mseq 0 false ready doubtful []) s = .next (((u.withTwin fun t => { t with
      mseqIn := mseq, unsure := t.unsure && decide (u.twinUnit.refreshRun ≠ 4)
      refreshRun := if u.twinUnit.refreshRun = 4 then 0 else u.twinUnit.refreshRun }).setReady ready).setDoubtfulReq doubtful).refreshTwin := by
  change execMergeRx hdr mseq 0 false ready doubtful [] s = _
  rw [execMergeRx, s.onTwin_peer hrun hpeer hu, if_neg (by rw [hhat]; decide)]
  have hrefresh : (u.twinUnit.refreshRun != 4) = decide (u.twinUnit.refreshRun ≠ 4) := Bool.eq_iff_iff.2 (by simp)
  subst hseq
  simp only [bne_self_eq_false, Bool.or_false, Bool.false_eq_true, if_false, Bool.not_false, if_true, hrefresh]
  rfl

/-- A standby takes a merge's number, its readiness and its bytes at their place (R326). -/
theorem exec_mergeRx_standby (mseq offs : BitVec 16) (refresh ready doubtful : Bool) (dough : List Byte) (hhat : u.hat = hatSTANDBY) :
    ∃ t, exec (.mergeRx hdr mseq offs refresh ready doubtful dough) s = .next t
      ∧ (∀ (k : Line) (x : Nat) (h : x < dough.length), offs.toNat + x < 1928 → t.byte (doughAddr k + offs.toNat + x) = dough[x]) ∧ t.twinUnit.mseqIn = mseq
      ∧ t.flag (LOAF.DOUGH_STAT_READY .A) = ready := by
  have hexec : ∃ v : State, v.twinUnit.mseqIn = mseq ∧
      exec (.mergeRx hdr mseq offs refresh ready doubtful dough) s = .next (((v.mergeDough offs.toNat dough).setReady ready).setDoubtfulReq doubtful).refreshTwin := by
    change ∃ v : State, v.twinUnit.mseqIn = mseq ∧ execMergeRx hdr mseq offs refresh ready doubtful dough s = _
    rw [execMergeRx, s.onTwin_peer hrun hpeer hu, if_neg (by rw [hhat]; decide)]
    exact ⟨_, rfl, rfl⟩
  obtain ⟨v, hseq, hexec⟩ := hexec
  refine ⟨_, hexec, fun k x h hx => ?_, ?_, ?_⟩
  · refine (State.refreshTwin_observe (fun t => t.byte _) (fun t r w _ => t.set_byte r w _) _).trans ?_
    exact v.mergeDough_byte k offs.toNat dough x h hx
  · refine (State.refreshTwin_observe (fun t => t.twinUnit.mseqIn) (fun t r w _ => rfl) _).trans ?_
    exact (State.mergeDough_observe (fun t => t.twinUnit.mseqIn) (fun _ _ _ => rfl) v offs.toNat dough).trans hseq
  · rw [State.refreshTwin_ready, State.setDoubtfulReq_setReady_ready]

/-! ## Cut records -/

section
variable (cycle : BitVec 32) (seq : BitVec 16) (flags : SliceFlags) (write : Bool) (len mseq : BitVec 16)

theorem exec_cutRecordRx_standby (hhat : u.hat = hatSTANDBY) (hcycle : cycle.toNat = u.cycle) (hcut : u.capture.taken = false) :
    exec (.cutRecordRx hdr cycle seq flags write len mseq) s = .next (u.withTwin fun t => { t with
      unsure := t.unsure || mseq != t.mseqIn
      cutRecord := some ⟨cycle, seq, flags, write, len, u.bytes (doughAddr u.doughChannel) 1928, u.ttcNs⟩ }).refreshTwin := by
  change execCutRecordRx hdr cycle seq flags write len mseq s = _
  rw [execCutRecordRx, s.onTwin_peer hrun hpeer hu, if_pos (by rw [hhat, hcycle, hcut]; simp)]

theorem exec_cutRecordRx_cut (hcut : u.capture.taken = true) : exec (.cutRecordRx hdr cycle seq flags write len mseq) s = .next u.refreshTwin := by
  change execCutRecordRx hdr cycle seq flags write len mseq s = _
  rw [execCutRecordRx, s.onTwin_peer hrun hpeer hu, hcut, Bool.not_true, Bool.and_false, if_neg Bool.false_ne_true]

end

/-! ## Epochs -/

section
variable (num len : BitVec 32) {crc : BitVec 32} (hhat : u.hat = hatSTANDBY) (hnone : u.twinUnit.incoming = none)
include hhat hnone

theorem exec_epochHeadRx_mismatch (hcrc : crc ≠ u.mirrorCrc) : exec (.epochHeadRx hdr num len crc) s =
    .next (((u.withTwin fun t => { t with headOk := false }).count TWIN.MIRROR_MISMATCH_CNT).raise .twin 17).refreshTwin := by
  change execEpochHeadRx hdr num len crc s = _
  rw [execEpochHeadRx, s.onTwin_peer hrun hpeer hu, if_neg (by rw [hhat]; decide), hnone, Option.isSome_none, State.when_false]
  simp only [beq_eq_false_iff_ne.mpr hcrc, Bool.false_eq_true, if_false]

theorem exec_epochHeadRx_match (hcrc : crc = u.mirrorCrc) : exec (.epochHeadRx hdr num len crc) s =
    .next (((u.withTwin fun t => { t with headOk := true }).set TWIN.EPOCH_LEN len.toNat).withTwin fun t =>
      { t with incoming := some (num, hdr.epoch, epochHeadBytes hdr num len crc) }).refreshTwin := by
  change execEpochHeadRx hdr num len crc s = _
  rw [execEpochHeadRx, s.onTwin_peer hrun hpeer hu, if_neg (by rw [hhat]; decide), hnone, Option.isSome_none, State.when_false]
  simp only [beq_iff_eq.mpr hcrc, if_true]

end

section
variable {num crc n : BitVec 32} {topo : BitVec 16} {head data : List Byte} (hin : u.twinUnit.incoming = some (n, topo, head))
include hin

theorem exec_epochCommitRx_whole (hnum : n = num) (hcrc : crc32 (head ++ data) = crc) (hlen : data.length = natOfBE ((head.drop 8).take 4))
    (hlate : u.lateFor (n + 1) = false) : exec (.epochCommitRx hdr num crc data) s = .next ((u.set TWIN.EPOCH_NUM n.toNat).withTwin fun t =>
      { t with incoming := none, committed := some ⟨n, topo, data⟩ }).refreshTwin := by
  change execEpochCommitRx hdr num crc data s = _
  rw [execEpochCommitRx, s.onTwin_peer hrun hpeer hu]
  simp only [hin]
  rw [if_pos (by rw [decide_eq_true hnum, decide_eq_true hcrc, decide_eq_true hlen, hlate]; rfl)]

theorem exec_epochCommitRx_fails
    (h : crc32 (head ++ data) ≠ crc ∨ n ≠ num ∨ data.length ≠ natOfBE ((head.drop 8).take 4) ∨ u.lateFor (n + 1) = true) :
    exec (.epochCommitRx hdr num crc data) s = .next u.epochFail.refreshTwin := by
  change execEpochCommitRx hdr num crc data s = _
  rw [execEpochCommitRx, s.onTwin_peer hrun hpeer hu]
  simp only [hin]
  rw [if_neg (by
    simp only [Bool.and_eq_true, decide_eq_true_eq, Bool.not_eq_true']
    rintro ⟨⟨⟨hnum, hcrc⟩, hlen⟩, hlate⟩
    rcases h with h | h | h | h
    · exact h hcrc
    · exact h hnum
    · exact h hlen
    · exact Bool.false_ne_true (hlate.symm.trans h))]

end

end

/-! ## The heartbeat -/

theorem hbtCode_none {w : Nat} (h : ∀ c, 1 ≤ c → c ≤ 3 → w + 250 < 1000 * c ∨ 1000 * c + 250 < w) : hbtCode w = none := by
  refine List.find?_eq_none.2 fun c hc => ?_
  have hbounds : 1 ≤ c ∧ c ≤ 3 := by
    simp only [List.mem_cons, List.not_mem_nil, or_false] at hc
    omega
  have := h c hbounds.1 hbounds.2
  simp only [Bool.and_eq_true, decide_eq_true_eq]
  omega

theorem hbtCode_some {w c : Nat} (hmin : 1 ≤ c) (hmax : c ≤ 3) (hlo : 1000 * c ≤ w + 250) (hhi : w ≤ 1000 * c + 250) : hbtCode w = some c := by
  have hc : c = 1 ∨ c = 2 ∨ c = 3 := by omega
  rw [hbtCode, List.find?_cons, List.find?_cons, List.find?_cons]
  rcases hc with rfl | rfl | rfl
  · rw [decide_eq_true hlo, decide_eq_true hhi, Bool.and_self]
  · rw [decide_eq_true (by omega : 1000 * 1 ≤ w + 250), decide_eq_false (by omega : ¬ w ≤ 1000 * 1 + 250), decide_eq_true hlo, decide_eq_true hhi]
    rfl
  · rw [decide_eq_true (by omega : 1000 * 1 ≤ w + 250), decide_eq_false (by omega : ¬ w ≤ 1000 * 1 + 250), decide_eq_true (by omega : 1000 * 2 ≤ w + 250),
      decide_eq_false (by omega : ¬ w ≤ 1000 * 2 + 250), decide_eq_true hlo, decide_eq_true hhi]
    rfl

section
variable {w : BitVec 16} (start : BitVec 64) (hrun : s.twinRuns = true)
include hrun

theorem exec_hbtPulseRx_other (h : ∀ c, 1 ≤ c → c ≤ 3 → w.toNat + 250 < 1000 * c ∨ 1000 * c + 250 < w.toNat) : exec (.hbtPulseRx w start) s = .next s := by
  change execHbtPulseRx w start s = _
  simp only [execHbtPulseRx, hrun, if_true, hbtCode_none h]

/-- A pulse shows the peer's state. -/
theorem exec_hbtPulseRx_shows {c : Nat} (hmin : 1 ≤ c) (hmax : c ≤ 3) (hlo : 1000 * c ≤ w.toNat + 250) (hhi : w.toNat ≤ 1000 * c + 250) :
    ∃ t, exec (.hbtPulseRx w start) s = .next t ∧ t.get TWIN.TWIN_STAT_HBT_IN = c ∧ t.mem = s.mem ∧ t.sent = s.sent := by
  change ∃ t, execHbtPulseRx w start s = _ ∧ _
  simp only [execHbtPulseRx, hrun, if_true, hbtCode_some hmin hmax hlo hhi]
  refine ⟨_, rfl, ?_, rfl, rfl⟩
  have hfits : c < 2 ^ TWIN.TWIN_STAT_HBT_IN.width := Nat.lt_of_le_of_lt hmax (by decide)
  rw [State.withTwin_get, State.get_set_of_lt _ _ _ hfits]

end

theorem exec_hbtLost_due (hrun : s.twinRuns = true) (hbt : s.get TWIN.TWIN_STAT_HBT_IN ≠ 0) (hmiss : 1 ≤ s.twinUnit.hbtMiss) (hseen : s.twinUnit.hbtSeen = false)
    (hpast : (100 + s.precision + 500 : Int) < s.sinceTick) :
    exec .hbtLost s = .next (((s.set TWIN.TWIN_STAT_HBT_IN 0).count TWIN.HBT_LOST_CNT).raise .twin 16) :=
  congrArg Host.Outcome.next (if_pos (by rw [hrun, bne_iff_ne.mpr hbt, decide_eq_true hmiss, hseen, decide_eq_true hpast]; rfl))

theorem exec_hbtLost_none (h : s.get TWIN.TWIN_STAT_HBT_IN = 0) : exec .hbtLost s = .next s :=
  congrArg Host.Outcome.next (if_neg (by rw [h, bne_self_eq_false, Bool.and_false, Bool.false_and, Bool.false_and, Bool.false_and]; exact Bool.false_ne_true))

/-! ## Without the twin unit -/

section
variable (hoff : s.twinRuns = false)
include hoff

theorem exec_hbtLost_alone : exec .hbtLost s = .next s := congrArg Host.Outcome.next (if_neg (by simp [hoff]))

theorem exec_hbtPulseRx_alone (w : BitVec 16) (start : BitVec 64) : exec (.hbtPulseRx w start) s = .next s :=
  congrArg Host.Outcome.next (if_neg (Bool.eq_false_iff.1 hoff))

theorem exec_epochHeadRx_alone (hdr : TwinHeader) (num len crc : BitVec 32) : exec (.epochHeadRx hdr num len crc) s = .next s :=
  congrArg Host.Outcome.next (if_pos (by rw [hoff]; rfl))

theorem exec_leaseEnd_alone : exec .leaseEnd s = .next s := congrArg Host.Outcome.next (if_neg (by simp [hoff]))

end

end

end Sys2Proof.Machine

namespace Sys2Proof.Proofs
open Sys2Proof.Machine

/-- Settles O46: the equation of each message and case. -/
theorem pairCommands : Obligations.PairCommands := fun s hdr num len crc =>
  ⟨fun hrun hpeer u hu => ⟨exec_mergeRx_wearing s hrun hpeer hu, fun _ ready doubtful => exec_mergeRx_next s hrun hpeer hu ready doubtful, exec_mergeRx_standby s hrun hpeer hu,
      exec_cutRecordRx_standby s hrun hpeer hu, exec_cutRecordRx_cut s hrun hpeer hu, exec_epochHeadRx_mismatch s hrun hpeer hu num len, exec_epochHeadRx_match s hrun hpeer hu num len,
      fun _ _ _ _ hin => ⟨exec_epochCommitRx_whole s hrun hpeer hu hin, exec_epochCommitRx_fails s hrun hpeer hu hin⟩⟩,
    fun _ start hrun => ⟨exec_hbtPulseRx_other s start hrun, fun _ => exec_hbtPulseRx_shows s start hrun⟩, exec_hbtLost_due s, exec_hbtLost_none s,
    fun hoff => ⟨exec_hbtLost_alone s hoff, exec_hbtPulseRx_alone s hoff, exec_epochHeadRx_alone s hoff hdr num len crc, exec_leaseEnd_alone s hoff⟩⟩

end Sys2Proof.Proofs
end

section
/-! The PCIe and SPI bridges (R357 to R366, R447, R448): one equation per command and case. -/

namespace Sys2Proof.Machine

section
variable (s : State)

/-! ## Reads and writes of the host over PCIe -/

section
variable (bar2 : Bool) (addr : BitVec 24) (data : List (Option Byte)) (len : BitVec 13) (tag : BitVec 16) (spoiled : Bool)

theorem exec_pcieInboundWrite (poisoned : Bool) (h : s.pcieServes = true) : exec (.pcieInboundWrite bar2 addr data poisoned tag) s =
    .next (if poisoned then s.postedFail .pcie 0 2 (if bar2 then spBAR2 else spBAR0) addr.toNat tag.toNat else s.inboundWrite .pcie bar2 addr.toNat tag.toNat (data.take 4096)) :=
  congrArg Host.Outcome.next (if_neg (by rw [h]; exact Bool.false_ne_true))

theorem exec_pcieInboundRead (h : s.pcieServes = true) : exec (.pcieInboundRead bar2 addr len tag spoiled) s =
    .next (s.acceptRead ⟨.pcie, tag.toNat, bar2, addr.toNat, min 4096 len.toNat, [], none, false, spoiled, false⟩) :=
  congrArg Host.Outcome.next (if_neg (by rw [h]; exact Bool.false_ne_true))

theorem exec_pcieInboundWrite_off (poisoned : Bool) (h : s.pcieServes = false) : exec (.pcieInboundWrite bar2 addr data poisoned tag) s = .next s :=
  congrArg Host.Outcome.next (if_pos (by rw [h]; rfl))

theorem exec_pcieInboundRead_off (h : s.pcieServes = false) : exec (.pcieInboundRead bar2 addr len tag spoiled) s = .next s :=
  congrArg Host.Outcome.next (if_pos (by rw [h]; rfl))

end

/-! ## Completions -/

section
variable {tag : BitVec 8} {o : OutTag} (ho : (s.bridges.reads.find? fun x => x.tag = tag.toNat) = some o)
include ho

theorem exec_pcieCompletionRx (data : Option (List Byte)) (hp : s.powered .pcie = true) :
    exec (.pcieCompletionRx tag data) s = .next ((s.when data.isNone fun s => s.count PCIE.CPL_ERR_CNT).finishRead o data) := by
  change execPcieCompletionRx tag data s = _
  simp only [execPcieCompletionRx, hp, Bool.not_true, Bool.false_eq_true, if_false, ho]

theorem exec_cplTmo_due (h : s.cplTimeout ≤ (s.ltcNs - o.since).toNat) : exec (.cplTmo tag) s = .next (((s.count PCIE.CPL_TMO_CNT).raise .pcie 9).finishRead o none) := by
  change execCplTmo tag s = _
  simp only [execCplTmo, ho, if_pos h, State.completionTimeout]

theorem exec_cplTmo_early (h : (s.ltcNs - o.since).toNat < s.cplTimeout) : exec (.cplTmo tag) s = .next s := by
  change execCplTmo tag s = _
  simp only [execCplTmo, ho, if_neg (Nat.not_le.2 h)]

end

section
variable {tag : BitVec 8} (ho : (s.bridges.reads.find? fun x => x.tag = tag.toNat) = none)
include ho

theorem exec_pcieCompletionRx_unknown (data : Option (List Byte)) (hp : s.powered .pcie = true) : exec (.pcieCompletionRx tag data) s = .next (s.count PCIE.CPL_ERR_CNT) := by
  change execPcieCompletionRx tag data s = _
  simp only [execPcieCompletionRx, hp, Bool.not_true, Bool.false_eq_true, if_false, ho]

theorem exec_cplTmo_unknown : exec (.cplTmo tag) s = .next s := by
  change execCplTmo tag s = _
  simp only [execCplTmo, ho]

end

/-! ## The link and configuration requests -/

theorem exec_linkDown (d3 : Bool) (hp : s.powered .pcie = true) (hup : s.flag PCIE.PCIE_STAT_DL_UP = true) : exec (.linkDown d3) s = .next (s.linkDown d3) :=
  congrArg Host.Outcome.next (if_pos (by rw [hp, hup]; rfl))

theorem exec_linkDown_down (d3 : Bool) (h : s.flag PCIE.PCIE_STAT_DL_UP = false) : exec (.linkDown d3) s = .next s :=
  congrArg Host.Outcome.next (if_neg (by rw [h, Bool.and_false]; exact Bool.false_ne_true))

theorem exec_pcieConfigRequest_down (item : ConfigItem) (write : Option Word) (tag : BitVec 16) (h : s.flag PCIE.PCIE_STAT_DL_UP = false) :
    exec (.pcieConfigRequest item write tag) s = .next s := congrArg Host.Outcome.next (if_pos (by rw [h, Bool.not_false, Bool.or_true]))

section
variable (hp : s.powered .pcie = true) (hup : s.flag PCIE.PCIE_STAT_DL_UP = true) (item : ConfigItem) (tag : BitVec 16)
include hp hup

theorem exec_pcieConfigRequest_boot (write : Option Word) (h : s.get SEC.BOOT_STAT_STAGE < 6) :
    exec (.pcieConfigRequest item write tag) s = .next (s.emit (.pcieRetry tag.toNat)) :=
  congrArg Host.Outcome.next ((if_neg (by rw [hp, hup]; decide)).trans (if_pos h))

theorem exec_pcieConfigRequest_write (v : Word) (h : 6 ≤ s.get SEC.BOOT_STAT_STAGE) :
    exec (.pcieConfigRequest item (some v) tag) s = .next ((s.writeConfig item v).emit (.pcieCompletion tag.toNat true [])) :=
  congrArg Host.Outcome.next ((if_neg (by rw [hp, hup]; decide)).trans (if_neg (Nat.not_lt.2 h)))

theorem exec_pcieConfigRequest_read (h : 6 ≤ s.get SEC.BOOT_STAT_STAGE) : exec (.pcieConfigRequest item none tag) s =
    .next ((s.configWord item).2.emit (.pcieCompletion tag.toNat true (bytesFrom .pcie (s.configWord item).1))) :=
  congrArg Host.Outcome.next ((if_neg (by rw [hp, hup]; decide)).trans (if_neg (Nat.not_lt.2 h)))

end

section
variable {speed : BitVec 3} {width : BitVec 4}

theorem exec_pcieLinkUp_trained (hp : s.powered .pcie = true) (hmin : 1 ≤ speed.toNat) (hmax : speed.toNat ≤ 3) (hwidth : width = 1 ∨ width = 2 ∨ width = 4) :
    exec (.pcieLinkUp speed width) s =
      .next (((s.setFlag PCIE.PCIE_STAT_DL_UP true).set PCIE.PCIE_STAT_SPEED speed.toNat).set PCIE.PCIE_STAT_WIDTH width.toNat) := by
  refine congrArg Host.Outcome.next (if_pos ?_)
  rw [hp, decide_eq_true hmin, decide_eq_true hmax]
  rcases hwidth with rfl | rfl | rfl <;> decide

theorem exec_pcieLinkUp_odd (hwidth : width = 3) : exec (.pcieLinkUp speed width) s = .next s := by
  have hodd : [1, 2, 4].contains width.toNat = false := by rw [hwidth]; decide
  exact congrArg Host.Outcome.next (if_neg (by rw [hodd, Bool.and_false]; exact Bool.false_ne_true))

end

/-! ## SPI frames -/

section
variable (hserves : s.spiServes = true) {addr : Word} {len : BitVec 16}
include hserves

theorem exec_qspiRead : exec (.qspiRead addr len) s = .next (s.qspiRead addr.toNat len.toNat) := congrArg Host.Outcome.next (if_pos hserves)

theorem exec_drClear : exec .drClear s = .next (({ s with bridges := { s.bridges with hostReads := s.bridges.hostReads.map fun (r : HostRead) =>
    if r.bridge == Requester.qspi then { r with drop := true } else r } }).emptySlot.emit (.qspiReply spiREADY [])) := congrArg Host.Outcome.next (if_pos hserves)

section
variable (hbad : frameGood addr.toNat len.toNat = false)
include hbad

theorem exec_qspiWrite_bad (data : List Byte) (room : Bool) : exec (.qspiWrite addr len data room) s = .next s.commandError :=
  congrArg Host.Outcome.next ((if_neg (by rw [hserves]; decide)).trans (if_pos (by rw [hbad]; rfl)))

theorem exec_qspiRead_bad : exec (.qspiRead addr len) s = .next s.commandError := by
  rw [exec_qspiRead s hserves, State.qspiRead, hbad, Bool.not_false, if_pos rfl]

end

section
variable (hgood : frameGood addr.toNat len.toNat = true)
include hgood

theorem exec_qspiWrite_noRoom (data : List Byte) : exec (.qspiWrite addr len data false) s =
    .next (((s.setFlag QSPI.QSPI_STAT_WQ_FULL true).count QSPI.RETRY_CNT).emit (.qspiReply spiRETRY [])) :=
  congrArg Host.Outcome.next ((if_neg (by rw [hserves]; decide)).trans (if_neg (by rw [hgood]; decide)))

/-- A whole frame is answered READY and its write carried out (R363). -/
theorem exec_qspiWrite_whole {data : List Byte} {u : State} (hlen : len.toNat ≤ data.length)
    (hu : u = (s.setFlag QSPI.QSPI_STAT_WQ_FULL false).emit (.qspiReply spiREADY [])) :
    exec (.qspiWrite addr len data true) s = .next (({ u with bridges := { u.bridges with frames := s.bridges.frames + 1 } } : State).inboundWrite .qspi
      (addr.toNat / 2 ^ 30 = 1) (frameOffset addr.toNat) ((s.bridges.frames + 1) % 2 ^ 16) ((data.take len.toNat).map some)) := by
  subst hu
  change execQspiWrite addr len data true s = _
  rw [execQspiWrite, hserves, hgood]
  simp only [Bool.not_true, Bool.false_eq_true, if_false, if_neg (Nat.not_lt.2 hlen), State.emit_bridges, State.setFlag_bridges]

section
variable (hslot : s.get QSPI.QSPI_STAT_SLOT = 0)
include hslot

theorem exec_qspiRead_empty : exec (.qspiRead addr len) s = .next (s.startFetch addr.toNat len.toNat) := by
  rw [exec_qspiRead s hserves, State.qspiRead, hgood, Bool.not_true, if_neg Bool.false_ne_true]
  simp only [hslot]

end

theorem exec_qspiRead_fetching (hslot : s.get QSPI.QSPI_STAT_SLOT = 1) :
    exec (.qspiRead addr len) s = .next ((s.count QSPI.RETRY_CNT).emit (.qspiReply spiRETRY [])) := by
  rw [exec_qspiRead s hserves, State.qspiRead, hgood, Bool.not_true, if_neg Bool.false_ne_true]
  simp only [hslot]

/-- The slot that holds the same request answers READY and empties. -/
theorem exec_qspiRead_held {bs : List Byte} (hslot : s.get QSPI.QSPI_STAT_SLOT = 2) (haddr : s.get QSPI.DR_ADDR = addr.toNat) (hlen : s.get QSPI.DR_LEN = len.toNat)
    (hbytes : s.bridges.slot = some (some bs)) : exec (.qspiRead addr len) s = .next (s.emptySlot.emit (.qspiReply spiREADY bs)) := by
  rw [exec_qspiRead s hserves, State.qspiRead, hgood, Bool.not_true, if_neg Bool.false_ne_true]
  simp only [hslot, haddr, hlen, decide_true, Bool.and_self, if_true, hbytes]

end

end

section
variable (hoff : s.spiServes = false) (addr : Word) (len : BitVec 16)
include hoff

theorem exec_qspiWrite_off (data : List Byte) (room : Bool) : exec (.qspiWrite addr len data room) s = .next s :=
  congrArg Host.Outcome.next (if_pos (by rw [hoff]; rfl))

theorem exec_qspiRead_off : exec (.qspiRead addr len) s = .next s := congrArg Host.Outcome.next (if_neg (Bool.eq_false_iff.1 hoff))

theorem exec_drClear_off : exec .drClear s = .next s := congrArg Host.Outcome.next (if_neg (Bool.eq_false_iff.1 hoff))

end

/-! ## The read slot -/

theorem exec_drFetchDone_fetched (hslot : s.get QSPI.QSPI_STAT_SLOT = drFETCHING) (hsome : s.bridges.slot.isSome = true) :
    exec .drFetchDone s = .next { s.set QSPI.QSPI_STAT_SLOT drHELD with bridges := { s.bridges with slotSince := s.ltcNs } } :=
  congrArg Host.Outcome.next (if_pos (by rw [hslot, hsome]; rfl))

theorem exec_drFetchDone_empty (hslot : s.get QSPI.QSPI_STAT_SLOT = drEMPTY) : exec .drFetchDone s = .next s :=
  congrArg Host.Outcome.next (if_neg (by rw [hslot]; simp))

theorem exec_drTmo_due (hslot : s.get QSPI.QSPI_STAT_SLOT = drHELD) (h : s.get QSPI.QSPI_CTRL_DR_TMO * 1000 ≤ (s.ltcNs - s.bridges.slotSince).toNat) :
    exec .drTmo s = .next ((s.emptySlot.count QSPI.DR_TMO_CNT).raise .qspi 9) :=
  congrArg Host.Outcome.next (if_pos (by rw [decide_eq_true hslot, decide_eq_true h]; rfl))

theorem exec_drTmo_early (h : (s.ltcNs - s.bridges.slotSince).toNat < s.get QSPI.QSPI_CTRL_DR_TMO * 1000) : exec .drTmo s = .next s :=
  congrArg Host.Outcome.next (if_neg (by rw [decide_eq_false (Nat.not_le.2 h), Bool.and_false]; exact Bool.false_ne_true))

theorem exec_drTmo_empty (hslot : s.get QSPI.QSPI_STAT_SLOT = drEMPTY) : exec .drTmo s = .next s :=
  congrArg Host.Outcome.next (if_neg (by rw [decide_eq_false (by rw [hslot]; decide), Bool.false_and]; exact Bool.false_ne_true))

end

end Sys2Proof.Machine

namespace Sys2Proof.Proofs
open Sys2Proof.Machine

/-- Settles O47: the equation of each command and case. -/
theorem hostBridgeCommands : Obligations.HostBridgeCommands := fun s =>
  ⟨fun bar2 addr data tag h => ⟨exec_pcieInboundWrite s bar2 addr data tag false h, exec_pcieInboundWrite s bar2 addr data tag true h⟩,
    exec_pcieInboundRead s, fun bar2 addr data p len tag spoiled h => ⟨exec_pcieInboundWrite_off s bar2 addr data tag p h, exec_pcieInboundRead_off s bar2 addr len tag spoiled h⟩,
    fun _ _ ho => ⟨fun hp => ⟨fun data => exec_pcieCompletionRx s ho (some data) hp, exec_pcieCompletionRx s ho none hp⟩, exec_cplTmo_due s ho, exec_cplTmo_early s ho⟩,
    fun _ ho => ⟨fun hp data => exec_pcieCompletionRx_unknown s ho data hp, exec_cplTmo_unknown s ho⟩, fun hp hup d3 => exec_linkDown s d3 hp hup,
    fun h d3 item write tag => ⟨exec_linkDown_down s d3 h, exec_pcieConfigRequest_down s item write tag h⟩,
    fun hp hup item tag => ⟨fun h write => exec_pcieConfigRequest_boot s hp hup item tag write h, fun h v => exec_pcieConfigRequest_write s hp hup item tag v h,
      exec_pcieConfigRequest_read s hp hup item tag⟩,
    fun _ _ hp hmin hmax => ⟨exec_pcieLinkUp_trained s hp hmin hmax, exec_pcieLinkUp_odd s⟩,
    fun hserves _ _ data room => ⟨fun hbad => ⟨exec_qspiWrite_bad s hserves hbad data room, exec_qspiRead_bad s hserves hbad⟩,
      fun hgood => exec_qspiWrite_noRoom s hserves hgood data, fun _ hgood hlen hu => exec_qspiWrite_whole s hserves hgood hlen hu, exec_qspiRead_empty s hserves,
      exec_qspiRead_fetching s hserves, fun _ hgood => exec_qspiRead_held s hserves hgood, exec_drClear s hserves⟩,
    fun hoff addr len data room => ⟨exec_qspiWrite_off s hoff addr len data room, exec_qspiRead_off s hoff addr len, exec_drClear_off s hoff⟩,
    exec_drFetchDone_fetched s, fun hslot => ⟨exec_drTmo_due s hslot, exec_drTmo_early s⟩, fun hslot => ⟨exec_drFetchDone_empty s hslot, exec_drTmo_empty s hslot⟩⟩

end Sys2Proof.Proofs
end

section
/-! Posted writes, messages and the peer's link (R367 to R377, R460): one equation per command and case. -/

namespace Sys2Proof.Machine

section
variable (s : State)

/-! ## Fences and the posted log -/

section
variable (b : Requester) (hp : s.powered (bridgePage b) = true)
include hp

section
variable {u : State} (hu : u = { s with bridges := { s.bridges with remoteWrites := s.bridges.remoteWrites.filter fun (w : RemoteWrite) => w.bridge != b } })
include hu

theorem exec_fence_waits (h : s.bridges.hostReads.any s.fenceWaits = true) : exec (.fence b) s = .next u.serveReads := by
  subst hu
  exact congrArg Host.Outcome.next ((if_pos hp).trans (if_pos h))

theorem exec_fence_answers (h : s.bridges.hostReads.any s.fenceWaits = false) :
    exec (.fence b) s = .next (u.emit (.regData b ((bridgePage b).base + 0x090) (BitVec.ofNat 32 (s.get (BR.EPOCH (bridgePage b) 0))))) := by
  subst hu
  exact congrArg Host.Outcome.next ((if_pos hp).trans (if_neg (Bool.eq_false_iff.1 h)))

end

theorem exec_plogClr : exec (.plogClr b) s = .next (s.clearLog (bridgePage b)) := congrArg Host.Outcome.next (if_pos hp)

theorem exec_postedFail (cause : BitVec 4) (space : BitVec 2) (addr : Word) (tag : BitVec 16) (hmin : 1 ≤ cause.toNat) (hmax : cause.toNat ≤ 6) :
    exec (.postedFail b 0 cause space addr tag) s = .next (s.postedFail (bridgePage b) 0 cause.toNat space.toNat addr.toNat tag.toNat) :=
  congrArg Host.Outcome.next (if_pos (by rw [hp, decide_eq_true hmin, decide_eq_true hmax]; rfl))

end

theorem exec_postedFail_none (b : Requester) (source : BitVec 1) (space : BitVec 2) (addr : Word) (tag : BitVec 16) :
    exec (.postedFail b source 0 space addr tag) s = .next s :=
  congrArg Host.Outcome.next (if_neg (by rw [decide_eq_false (by decide : ¬ 1 ≤ (0 : BitVec 4).toNat), Bool.and_false, Bool.false_and]; exact Bool.false_ne_true))

/-! ## MSI-X messages -/

theorem exec_msixMessage_due (v : BitVec 6) (hheld : s.power.held = false) (hen : s.flag INTC.INTC_CTRL_MSIX_EN = true) (harm : bitOf s.vecArm v.toNat = true)
    (hlevel : s.vecPending v.toNat = true) :
    exec (.msixMessage v) s = .next (((s.set64 INTC.VEC_ARM_LO INTC.VEC_ARM_HI (withBit s.vecArm v.toNat false)).count INTC.MSIX_CNT).passMsix v.toNat) :=
  congrArg Host.Outcome.next (if_pos (by rw [hheld, hen, harm, hlevel]; rfl))

theorem exec_msixMessage_disarmed (v : BitVec 6) (harm : bitOf s.vecArm v.toNat = false) : exec (.msixMessage v) s = .next s :=
  congrArg Host.Outcome.next (if_neg (by rw [harm, Bool.and_false, Bool.false_and]; exact Bool.false_ne_true))

/-! ## Lanes -/

section
variable (lane : BitVec 1)

theorem exec_laneUp_enabled (hon : s.linkOn = true) (hen : s.flag (laneEnable lane.toNat) = true) (hdown : s.laneUp lane.toNat = false) :
    exec (.laneUp lane) s = .next (s.setLane lane.toNat true true) := congrArg Host.Outcome.next (if_pos (by rw [hon, hen, hdown]; rfl))

theorem exec_laneUp_disabled (hen : s.flag (laneEnable lane.toNat) = false) : exec (.laneUp lane) s = .next s :=
  congrArg Host.Outcome.next (if_neg (by rw [hen, Bool.and_false, Bool.false_and]; exact Bool.false_ne_true))

theorem exec_laneDown {u : State} (hup : s.laneUp lane.toNat = true)
    (hu : u = (({ s with bridges := { s.bridges with badCrc := s.bridges.badCrc.filter fun e => e.1 != lane.toNat } } : State).setLane lane.toNat false false).drainAll) :
    exec (.laneDown lane) s = .next (u.when u.twin fun s => s.countRaise TWIN.LANE_DOWN_CNT .twin 18) := by
  change execLaneDown lane s = _
  rw [execLaneDown, if_pos hup]
  simp only [State.dropLane, ← hu]

theorem exec_laneDown_down (hdown : s.laneUp lane.toNat = false) : exec (.laneDown lane) s = .next s := congrArg Host.Outcome.next (if_neg (Bool.eq_false_iff.1 hdown))

/-! ## Frames of the link -/

section
variable {f : LinkFrame} (hon : s.linkOn = true) (hup : s.laneUp lane.toNat = true)
include hon hup

theorem exec_linkFrameRx : exec (.linkFrameRx lane f) s = .next (if !f.crcGood then s.badFrame lane.toNat else if !f.repl then s.stripedRx lane.toNat f
    else if s.frameSeen f.payload.cls lane.toNat f.seq then s.noteSeq f.payload.cls lane.toNat f.seq
    else (s.noteSeq f.payload.cls lane.toNat f.seq).deliverFrame f) := congrArg Host.Outcome.next (if_neg (by rw [hon, hup]; decide))

theorem exec_linkFrameRx_bad (hcrc : f.crcGood = false) : exec (.linkFrameRx lane f) s = .next (s.badFrame lane.toNat) := by
  rw [exec_linkFrameRx s lane hon hup, hcrc, Bool.not_false, if_pos rfl]

theorem exec_linkFrameRx_seen (hcrc : f.crcGood = true) (hrepl : f.repl = true) (hseen : s.frameSeen f.payload.cls lane.toNat f.seq = true) :
    exec (.linkFrameRx lane f) s = .next (s.noteSeq f.payload.cls lane.toNat f.seq) := by
  rw [exec_linkFrameRx s lane hon hup, hcrc, hrepl, Bool.not_true, if_neg Bool.false_ne_true, if_neg Bool.false_ne_true, if_pos hseen]

theorem exec_linkFrameRx_first (hcrc : f.crcGood = true) (hrepl : f.repl = true) (hseen : s.frameSeen f.payload.cls lane.toNat f.seq = false) :
    exec (.linkFrameRx lane f) s = .next ((s.noteSeq f.payload.cls lane.toNat f.seq).deliverFrame f) := by
  rw [exec_linkFrameRx s lane hon hup, hcrc, hrepl, Bool.not_true, if_neg Bool.false_ne_true, if_neg Bool.false_ne_true, if_neg (Bool.eq_false_iff.1 hseen)]

theorem exec_linkFrameRx_striped (hcrc : f.crcGood = true) (hrepl : f.repl = false) : exec (.linkFrameRx lane f) s = .next (s.stripedRx lane.toNat f) := by
  rw [exec_linkFrameRx s lane hon hup, hcrc, hrepl, Bool.not_true, if_neg Bool.false_ne_true, Bool.not_false, if_pos rfl]

end

end

/-! ## Striped frames -/

/-- The frames that wait for others, replaced. -/
def State.holdFrames (s : State) (early : List LinkFrame) : State := { s with bridges := { s.bridges with early := early } }

/-- The number a lane has brought last, noted. -/
def State.noteLane (s : State) (n : Nat) (f : LinkFrame) : State :=
  { s with bridges := { s.bridges with
    laneSeq := s.bridges.laneSeq.filter (fun (e : Nat × Nat × BitVec 16) => !(e.1 = f.payload.cls && e.2.1 = n)) ++ [(f.payload.cls, n, f.seq)] } }

theorem State.stripedRx_eq (n : Nat) (f : LinkFrame) {due : BitVec 16} {w : State} (hdue : ((s.noteLane n f).seqDue f.payload.cls).getD f.seq = due)
    (hw : w = ((s.noteLane n f).setSeqDue f.payload.cls due).holdFrames (s.bridges.early ++ [f])) : s.stripedRx n f =
      if (f.seq - due).toInt < 0 then (s.noteLane n f).deliverFrame f else State.drainClass f.payload.cls (w.drainFuel f.payload.cls) w := by
  subst hdue hw
  rfl

theorem State.seqDue_setSeqDue (cls : Nat) (seq : BitVec 16) : (s.setSeqDue cls seq).seqDue cls = some seq := by
  have hnone : (s.bridges.dueSeq.filter fun e => e.1 != cls).find? (fun e => e.1 = cls) = none :=
    List.find?_eq_none.2 fun e he => by simpa using (List.mem_filter.1 he).2
  simp only [State.seqDue, State.setSeqDue, List.find?_append, hnone, Option.none_or, List.find?_singleton, decide_true, if_true, Option.map_some]

theorem State.holdFrames_seqDue (early : List LinkFrame) (cls : Nat) : (s.holdFrames early).seqDue cls = s.seqDue cls := rfl

theorem State.holdFrames_early (early : List LinkFrame) : (s.holdFrames early).bridges.early = early := rfl

/-- The number due that is set last counts, whatever waits meanwhile. -/
theorem State.setSeqDue_holdFrames (cls : Nat) (seq next : BitVec 16) (l : List LinkFrame) (h : s.bridges.early = []) :
    (((s.setSeqDue cls seq).holdFrames l).holdFrames []).setSeqDue cls next = s.setSeqDue cls next := by
  simp only [State.setSeqDue, State.holdFrames, List.filter_append, List.filter_filter, Bool.and_self, List.filter_cons, bne_self_eq_false, Bool.false_eq_true, if_false,
    List.filter_nil, List.append_nil, h]

/-- One step of the delivery of the frames that wait. -/
theorem State.drainClass_succ (cls n : Nat) {due : BitVec 16} {f : LinkFrame} (hdue : s.seqDue cls = some due) (hwait : s.bridges.early = [f]) (hcls : f.payload.cls = cls) :
    State.drainClass cls (n + 1) s = if f.seq = due then State.drainClass cls n (((s.holdFrames []).setSeqDue cls (due + 1)).deliverFrame f)
      else if !s.seqLost cls due then s else State.drainClass cls n (s.setSeqDue cls (due + 1)) := by
  rw [State.drainClass]
  by_cases hseq : f.seq = due
  · simp [hdue, hwait, hcls, hseq, State.holdFrames]
  · simp [hdue, hwait, hcls, hseq]

section
variable {n : Nat} {f : LinkFrame}

theorem State.stripedRx_behind {due : BitVec 16} (hdue : (s.noteLane n f).seqDue f.payload.cls = some due) (hlate : (f.seq - due).toInt < 0) :
    s.stripedRx n f = (s.noteLane n f).deliverFrame f := by
  rw [s.stripedRx_eq n f (due := due) (by rw [hdue]; rfl) rfl, if_pos hlate]

variable (hearly : s.bridges.early = [])
include hearly

/-- A striped frame not behind the one due waits, alone, to be delivered. -/
theorem State.stripedRx_waits {due : BitVec 16} (hdue : ((s.noteLane n f).seqDue f.payload.cls).getD f.seq = due) (hnow : ¬ (f.seq - due).toInt < 0) :
    s.stripedRx n f = State.drainClass f.payload.cls ((f.seq - due).toNat + 1 + 1) (((s.noteLane n f).setSeqDue f.payload.cls due).holdFrames [f]) := by
  have hfuel : (((s.noteLane n f).setSeqDue f.payload.cls due).holdFrames [f]).drainFuel f.payload.cls = (f.seq - due).toNat + 1 + 1 := by
    rw [State.drainFuel, State.holdFrames_early, State.holdFrames_seqDue, State.seqDue_setSeqDue]
    simp only [List.filter_cons, decide_true, if_true, List.filter_nil, List.length_cons, List.length_nil, List.map_cons, List.map_nil, List.sum_cons, List.sum_nil,
      Option.getD_some]
    omega
  rw [s.stripedRx_eq n f hdue rfl, if_neg hnow, hearly, List.nil_append, hfuel]

/-- The frame that is due is delivered, and the next number is due (R373). -/
theorem State.stripedRx_due (h : (s.noteLane n f).seqDue f.payload.cls = none ∨ (s.noteLane n f).seqDue f.payload.cls = some f.seq) :
    s.stripedRx n f = State.drainClass f.payload.cls 1 (((s.noteLane n f).setSeqDue f.payload.cls (f.seq + 1)).deliverFrame f) := by
  have hdue : ((s.noteLane n f).seqDue f.payload.cls).getD f.seq = f.seq := by rcases h with h | h <;> rw [h] <;> rfl
  have hself : f.seq - f.seq = 0 := BitVec.sub_self _
  rw [s.stripedRx_waits hearly hdue (by rw [hself]; decide), hself,
    State.drainClass_succ _ _ _ ((State.holdFrames_seqDue _ _ _).trans (State.seqDue_setSeqDue _ _ _)) rfl rfl, if_pos rfl, State.setSeqDue_holdFrames (s.noteLane n f) _ _ _ _ hearly]
  rfl

/-- A frame before which others are to come waits for them. -/
theorem State.stripedRx_early {due : BitVec 16} (hdue : (s.noteLane n f).seqDue f.payload.cls = some due) (hahead : 0 < (f.seq - due).toInt)
    (hlost : (((s.noteLane n f).setSeqDue f.payload.cls due).holdFrames [f]).seqLost f.payload.cls due = false) :
    s.stripedRx n f = ((s.noteLane n f).setSeqDue f.payload.cls due).holdFrames [f] := by
  have hne : f.seq ≠ due := fun h => by rw [h, BitVec.sub_self] at hahead; exact absurd hahead (by decide)
  have hget : ((s.noteLane n f).seqDue f.payload.cls).getD f.seq = due := by rw [hdue, Option.getD_some]
  rw [s.stripedRx_waits hearly hget (by omega),
    State.drainClass_succ _ _ _ ((State.holdFrames_seqDue _ _ _).trans (State.seqDue_setSeqDue _ _ _)) rfl rfl, if_neg hne, hlost, Bool.not_false, if_pos rfl]

end

/-! ## What the peer sends -/

section
variable (hon : s.linkOn = true)
include hon

section
variable (hrun : s.twinRuns = true) {l : Line} (cycle : BitVec 32)
include hrun

theorem exec_lineCopyRx_piece (hl : l ≠ s.twinLine) (slot : BitVec 7) (offs : BitVec 16) (bs : List Byte) :
    exec (.lineCopyRx (.piece cycle l slot offs bs)) s = .next (s.takePiece cycle l slot offs.toNat bs) :=
  congrArg Host.Outcome.next ((if_pos hon).trans ((if_neg (by rw [hrun]; decide)).trans (if_neg hl)))

theorem exec_lineCopyRx_verdict (hl : l ≠ s.twinLine) (index : BitVec 8) (good broken : Bool) : exec (.lineCopyRx (.verdict cycle l index good broken)) s =
    .next (if s.time.returnEndSeen || cycle.toNat != s.cycle then s else s.takeVerdict l index.toNat (good && !broken)) :=
  congrArg Host.Outcome.next ((if_pos hon).trans ((if_neg (by rw [hrun]; decide)).trans (if_neg hl)))

theorem exec_lineCopyRx_own_piece (hl : l = s.twinLine) (slot : BitVec 7) (offs : BitVec 16) (bs : List Byte) :
    exec (.lineCopyRx (.piece cycle l slot offs bs)) s = .next s.twinCfgBad :=
  congrArg Host.Outcome.next ((if_pos hon).trans ((if_neg (by rw [hrun]; decide)).trans (if_pos hl)))

theorem exec_lineCopyRx_own_verdict (hl : l = s.twinLine) (index : BitVec 8) (good broken : Bool) :
    exec (.lineCopyRx (.verdict cycle l index good broken)) s = .next s.twinCfgBad :=
  congrArg Host.Outcome.next ((if_pos hon).trans ((if_neg (by rw [hrun]; decide)).trans (if_pos hl)))

/-- A forming item in one segment is whole. -/
theorem exec_formingDataRx_whole {g : FormingSegment} (hcnt : g.segCnt = 1) (hseg : g.seg = 0) (hfree : ∀ h ∈ s.forming.heldSegments, h.kind ≠ g.kind) :
    exec (.formingDataRx g) s = .next ((s.withForming fun f => { f with heldSegments := s.forming.heldSegments.filter fun h => h.kind != g.kind }).takeItem
      g.kind.toNat g.round.toNat g.body) := by
  have hmine : (s.forming.heldSegments.filter fun h => h.kind == g.kind && h.round == g.round && h.segCnt == g.segCnt) = [] :=
    List.filter_eq_nil_iff.2 fun h hh => by simp [hfree h hh]
  change execFormingDataRx g s = _
  rw [execFormingDataRx, if_pos hon, State.formingDataRx, hrun, Bool.not_true, if_neg Bool.false_ne_true, hmine]
  simp [hcnt, hseg, List.range_succ]

end

section
variable {q : RemoteRequest} (seq : BitVec 16) (hread : q.write = false)
include hread

theorem exec_remoteRequestRx_refused (hen : s.flag LZL.LZL_CTRL_RMT_EN = false) :
    exec (.remoteRequestRx q seq) s = .next ((s.count LZL.RMT_REFUSED_CNT).respond q.tag .error []) := by
  change execRemoteRequestRx q seq s = _
  rw [execRemoteRequestRx, if_pos hon, State.remoteRequestRx, hen, Bool.not_false, if_pos rfl, hread, if_neg Bool.false_ne_true]

theorem exec_remoteRequestRx_served {bs : List Byte} {t : State} (hen : s.flag LZL.LZL_CTRL_RMT_EN = true) (hfits : q.fits = true)
    (hfree : ∀ r ∈ s.bridges.hostReads, r.link = none) (hwords : s.remoteWords q.addr (q.len / 4) = (some bs, t)) :
    exec (.remoteRequestRx q seq) s = .next (t.respond q.tag .done bs) := by
  have hnone : (s.bridges.hostReads.any fun (r : HostRead) => r.link.isSome) = false := List.any_eq_false.2 fun r hr => by simp [hfree r hr]
  change execRemoteRequestRx q seq s = _
  rw [execRemoteRequestRx, if_pos hon, State.remoteRequestRx, hen, Bool.not_true, if_neg Bool.false_ne_true, hfits, Bool.not_true, if_neg Bool.false_ne_true, hread,
    if_neg Bool.false_ne_true, hnone, Bool.false_and, if_neg Bool.false_ne_true]
  simp only [hwords]

end

section
variable {r : HostRead} {tag : BitVec 16} (hr : s.remoteRead = some r) (htag : r.link = some tag) (data : List Byte)
include hr htag

theorem exec_remoteResponseRx_error : exec (.remoteResponseRx tag .error data) s = .next (s.failRemote r) := by
  change execRemoteResponseRx tag .error data s = _
  rw [execRemoteResponseRx, if_pos hon, State.remoteResponseRx]
  simp only [hr, htag, beq_self_eq_true, if_true]

theorem exec_remoteResponseRx_retry : exec (.remoteResponseRx tag .retry data) s = .next (s.setRead r { r with link := none }).serveReads := by
  change execRemoteResponseRx tag .retry data s = _
  rw [execRemoteResponseRx, if_pos hon, State.remoteResponseRx]
  simp only [hr, htag, beq_self_eq_true, if_true]

theorem exec_remoteResponseRx_done : exec (.remoteResponseRx tag .done data) s = .next (s.setRead r { r with
    link := none, addr := r.addr + (remoteBytes r data).length, left := r.left - (remoteBytes r data).length, got := r.got ++ remoteBytes r data }).serveReads := by
  change execRemoteResponseRx tag .done data s = _
  rw [execRemoteResponseRx, if_pos hon, State.remoteResponseRx]
  simp only [hr, htag, beq_self_eq_true, if_true]

end

end

/-! ## The timeout of a remote read -/

section
variable {r : HostRead} (hr : s.remoteRead = some r)
include hr

theorem exec_rmtTmo_due (h : s.get LZL.LZL_CTRL_RMT_TMO * 1000 ≤ (s.ltcNs - s.bridges.askedAt).toNat) :
    exec .rmtTmo s = .next (((s.count LZL.RMT_TMO_CNT).raise .lzl 10).failRemote r) := by
  change execRmtTmo s = _
  simp only [execRmtTmo, hr, if_pos h, State.remoteTimeout]

theorem exec_rmtTmo_early (h : (s.ltcNs - s.bridges.askedAt).toNat < s.get LZL.LZL_CTRL_RMT_TMO * 1000) : exec .rmtTmo s = .next s := by
  change execRmtTmo s = _
  simp only [execRmtTmo, hr, if_neg (Nat.not_le.2 h)]

end

theorem exec_rmtTmo_none (hr : s.remoteRead = none) : exec .rmtTmo s = .next s := by
  change execRmtTmo s = _
  simp only [execRmtTmo, hr]

end

end Sys2Proof.Machine

namespace Sys2Proof.Proofs
open Sys2Proof.Machine

/-- Settles O48: the equation of each command and case. -/
theorem linkAndMessageCommands : Obligations.LinkAndMessageCommands := by
  intro s b lane v
  refine ⟨fun hp => ⟨fun u hu => ⟨exec_fence_waits s b hp hu, exec_fence_answers s b hp hu⟩, exec_plogClr s b hp, exec_postedFail s b hp, exec_postedFail_none s b⟩,
    exec_msixMessage_due s v, exec_msixMessage_disarmed s v, fun mask => rfl, exec_laneUp_enabled s lane, fun _ => exec_laneUp_disabled s lane,
    fun u hup hu => ?_, exec_laneDown_down s lane,
    fun f hon hup => ⟨exec_linkFrameRx_bad s lane hon hup, exec_linkFrameRx_seen s lane hon hup, exec_linkFrameRx_first s lane hon hup, fun u hcrc hrepl hu => ?_⟩,
    fun cycle l slot offs bs index good broken hon hrun => ⟨fun hl => ⟨exec_lineCopyRx_piece s hon hrun cycle hl slot offs bs, ?_⟩,
      fun hl => ⟨exec_lineCopyRx_own_piece s hon hrun cycle hl slot offs bs, exec_lineCopyRx_own_verdict s hon hrun cycle hl index good broken⟩⟩,
    fun g hon hrun => exec_formingDataRx_whole s hon hrun,
    fun q seq hon hread => ⟨exec_remoteRequestRx_refused s hon seq hread, fun bs t => exec_remoteRequestRx_served s hon seq hread⟩,
    fun r tag data hon hr htag => ⟨exec_remoteResponseRx_error s hon hr htag data, exec_remoteResponseRx_retry s hon hr htag data, exec_remoteResponseRx_done s hon hr htag data⟩,
    fun r hr => ⟨exec_rmtTmo_due s hr, exec_rmtTmo_early s hr⟩, exec_rmtTmo_none s⟩
  · rw [exec_laneDown s lane hup hu]
    exact ⟨fun h => by rw [h, State.when_false], fun h => by rw [h, State.when_true]⟩
  · rw [exec_linkFrameRx_striped s lane hon hup hcrc hrepl]
    subst hu
    exact ⟨fun due hdue hlate => congrArg Host.Outcome.next (s.stripedRx_behind hdue hlate), fun hearly h => congrArg Host.Outcome.next (s.stripedRx_due hearly h),
      fun due w hearly hdue hahead hw hlost => by
        subst hw
        exact congrArg Host.Outcome.next (s.stripedRx_early hearly hdue hahead hlost)⟩
  · rw [exec_lineCopyRx_verdict s hon hrun cycle hl]
    exact ⟨fun hend hcycle => congrArg Host.Outcome.next (if_neg (by rw [hend, hcycle]; simp)),
      fun h => congrArg Host.Outcome.next (if_pos (by rcases h with h | h <;> simp [h]))⟩

end Sys2Proof.Proofs
end

section
/-! Resets (R444 to R446, R455): what a reset keeps of the state, and one equation per command and case. -/

namespace Sys2Proof.Machine

section
variable (s : State)

/-! ## What a reset keeps -/

section
variable {α : Type} (obs : State → α) (hset : ∀ (t : State) (r : Reg) (v : Nat), obs (t.set r v) = obs t)
include hset

theorem State.loadOtp_observe : obs s.loadOtp = obs s := by
  refine (State.each_observe obs (fun _ _ t => hset t _ _) _).trans ?_
  rw [hset, hset, hset, hset, hset]

theorem State.sampleStraps_observe (src : Nat) (twinId : Bool) : obs (s.sampleStraps src twinId) = obs s :=
  (hset _ _ _).trans ((hset _ _ _).trans (hset _ _ _))

/-- A full reset leaves what it holds over and takes the rest from the reset state. -/
theorem State.fullReset_observe : obs s.fullReset = obs { State.reset with
    otp := s.otp, sec := { Sec.reset with drbgDraws := s.sec.drbgDraws }, sent := s.sent, freeDraws := s.freeDraws, pending := s.pending } :=
  State.loadOtp_observe _ obs hset

/-- Besides registers a chip reset is a full reset. -/
theorem State.chipReset_observe (hupdate : ∀ (t : State) (r : Reg), obs (t.updateFlag r) = obs t) (cause : Reg) : obs (s.chipReset cause) = obs s.fullReset :=
  (hupdate _ _).trans ((State.each_observe obs (fun _ _ t => hset t _ _) _).trans (State.sampleStraps_observe _ obs hset _ _))

end

theorem State.fullReset_otp : s.fullReset.otp = s.otp := s.fullReset_observe State.otp State.set_otp

theorem State.chipReset_otp (r : Reg) : (s.chipReset r).otp = s.otp :=
  (s.chipReset_observe State.otp State.set_otp (fun t r => t.updateFlag_otp r) r).trans s.fullReset_otp

theorem State.chipReset_fields (r : Reg) : (s.chipReset r).mem = s.fullReset.mem ∧ (s.chipReset r).lineA = s.fullReset.lineA ∧ (s.chipReset r).lineB = s.fullReset.lineB
    ∧ (s.chipReset r).time = s.fullReset.time ∧ (s.chipReset r).twinUnit = s.fullReset.twinUnit ∧ (s.chipReset r).switch = s.fullReset.switch
    ∧ (s.chipReset r).sent = s.fullReset.sent :=
  ⟨s.chipReset_observe State.mem State.set_mem (fun t r => t.updateFlag_mem r) r, s.chipReset_observe State.lineA State.set_lineA (fun t r => t.updateFlag_lineA r) r,
    s.chipReset_observe State.lineB State.set_lineB (fun t r => t.updateFlag_lineB r) r, s.chipReset_observe State.time State.set_time (fun t r => t.updateFlag_time r) r,
    s.chipReset_observe State.twinUnit State.set_twinUnit (fun t r => t.updateFlag_twinUnit r) r,
    s.chipReset_observe State.switch State.set_switch (fun t r => t.updateFlag_switch r) r, s.chipReset_observe State.sent State.set_sent (fun t r => t.updateFlag_sent r) r⟩

theorem State.fullReset_fields : s.fullReset.mem = State.reset.mem ∧ s.fullReset.lineA = State.reset.lineA ∧ s.fullReset.lineB = State.reset.lineB
    ∧ s.fullReset.time = State.reset.time ∧ s.fullReset.twinUnit = State.reset.twinUnit ∧ s.fullReset.switch = State.reset.switch ∧ s.fullReset.sent = s.sent :=
  ⟨s.fullReset_observe State.mem State.set_mem, s.fullReset_observe State.lineA State.set_lineA, s.fullReset_observe State.lineB State.set_lineB,
    s.fullReset_observe State.time State.set_time, s.fullReset_observe State.twinUnit State.set_twinUnit, s.fullReset_observe State.switch State.set_switch,
    s.fullReset_observe State.sent State.set_sent⟩

/-! ## The commands -/

theorem exec_coreResetEnd_held (src : BitVec 2) (twinId : Bool) (h : s.power.held = true) :
    exec (.coreResetEnd src twinId) s = .next ({ s with power := { s.power with held := false } }.sampleStraps src.toNat twinId) :=
  congrArg Host.Outcome.next (if_pos h)

theorem exec_coreResetEnd_free (src : BitVec 2) (twinId : Bool) (h : s.power.held = false) : exec (.coreResetEnd src twinId) s = .next s :=
  congrArg Host.Outcome.next (if_neg (Bool.eq_false_iff.1 h))

theorem exec_chipRst_other {v : BitVec 16} (h : v ≠ 0xB4A7) : exec (.chipRst v) s = .next s :=
  congrArg Host.Outcome.next (if_neg fun he => h (BitVec.eq_of_toNat_eq he))

theorem exec_softReset_locked (p : Page) (hp : s.powered p = true) (h : s.locked p = true) : exec (.softReset p) s = .next (s.refuse p) :=
  congrArg Host.Outcome.next ((if_neg (by rw [hp]; decide)).trans (if_pos h))

theorem exec_softReset_free (p : Page) (hp : s.powered p = true) (h : s.locked p = false) : exec (.softReset p) s = .next (s.softReset p) :=
  congrArg Host.Outcome.next ((if_neg (by rw [hp]; decide)).trans (if_neg (Bool.eq_false_iff.1 h)))

theorem exec_softReset_dark (p : Page) (hp : s.powered p = false) : exec (.softReset p) s = .next s := congrArg Host.Outcome.next (if_pos (by rw [hp]; rfl))

/-! ## The fault latch -/

/-- In a clock without a new fault a write of 1 clears VALID. -/
theorem State.get_clearFaultValid (h : s.updates = []) : (s.clearBits PWR.FAULT_LATCH_VALID 1).get PWR.FAULT_LATCH_VALID = 0 := by
  rw [State.clearBits, State.get_set, s.kept_of_updates_nil _ (by decide) h]
  change (_ - (_ &&& 1)) % 2 = 0
  rw [Nat.and_one_is_mod]
  omega

theorem exec_faultLatchClear_empties (h : s.updates = []) : ∃ t, exec .faultLatchClear s = .next t ∧ t.get PWR.FAULT_LATCH_VALID = 0 ∧ t.get PWR.FAULT_LATCH_REGION = 0
    ∧ t.get PWR.FAULT_LATCH_CAUSE = 0 ∧ t.get PWR.FAULT_LATCH_CELL = 0 ∧ t.get PWR.FAULT_CYCLE = 0 ∧ t.mem = s.mem := by
  have hvalid := s.get_clearFaultValid h
  have hflag : (s.clearBits PWR.FAULT_LATCH_VALID 1).flag PWR.FAULT_LATCH_VALID = false := by
    rw [State.flag, hvalid]
    rfl
  have hother : PWR.FAULT_LATCH_VALID.key ∉ [PWR.FAULT_LATCH_REGION, PWR.FAULT_LATCH_CAUSE, PWR.FAULT_LATCH_CELL, PWR.FAULT_CYCLE].map Reg.key := by decide
  refine ⟨_, congrArg Host.Outcome.next (if_neg (Bool.eq_false_iff.1 hflag)), ?_, ?_, ?_, ?_, ?_, rfl⟩
  · refine (State.each_observe (fun t => t.get PWR.FAULT_LATCH_VALID) (fun r hr t => t.get_set_ne r _ 0 fun hk => hother ?_) _).trans hvalid
    exact hk ▸ List.mem_map_of_mem hr
  all_goals
    simp only [State.each, List.foldl_cons, List.foldl_nil]
    simp (disch := decide) only [State.get_set, State.get_set_ne, Nat.zero_mod]

end

end Sys2Proof.Machine

namespace Sys2Proof.Proofs
open Sys2Proof.Machine

/-- Settles O55: the equation of each command, and what a reset keeps besides registers. -/
theorem resetCommands : Obligations.ResetCommands := by
  intro s src twinId
  refine ⟨rfl, rfl, rfl, exec_coreResetEnd_held s src twinId, exec_coreResetEnd_free s src twinId, rfl, fun v => exec_chipRst_other s,
    fun p hp => ⟨exec_softReset_locked s p hp, exec_softReset_free s p hp⟩, exec_softReset_dark s, exec_faultLatchClear_empties s, fun r => ?_⟩
  obtain ⟨fmem, flineA, flineB, ftime, ftwin, fswitch, fsent⟩ := s.fullReset_fields
  obtain ⟨cmem, clineA, clineB, ctime, ctwin, cswitch, csent⟩ := s.chipReset_fields r
  exact ⟨s.fullReset_otp, s.chipReset_otp r, fmem, cmem.trans fmem, flineA, flineB, ftime, ftwin, fswitch, fsent, clineA.trans flineA, clineB.trans flineB, ctime.trans ftime,
    ctwin.trans ftwin, cswitch.trans fswitch, csent.trans fsent⟩

end Sys2Proof.Proofs
end

section
/-! The life cycle (R384 to R386, R400, R438): when a command is carried out, and what it changes. -/

namespace Sys2Proof.Machine

/-- The life-cycle commands and their numbers. -/
def lifeCommands : List (Instr × Nat) := [(.lcManufacture, 1), (.lcProvision, 2), (.lcDeploy, 3), (.lcReturn, 4), (.lcScrap, 5), (.operatorRootInstall, 6), (.rootRevoke, 7),
  (.fleetKeyInstall, 8), (.debugToken, 9), (.headKeyInstall, 10)]

section
variable (s : State)

theorem exec_lifeCommand {p : Instr × Nat} (hp : p ∈ lifeCommands) : exec p.1 s = .next (s.runCommand p.2) := by
  simp only [lifeCommands, List.mem_cons, List.not_mem_nil, or_false] at hp
  rcases hp with rfl | rfl | rfl | rfl | rfl | rfl | rfl | rfl | rfl | rfl
  all_goals rfl

/-! ## When a command runs -/

section
variable (cmd : Nat)

theorem State.runCommand_ignored (h : s.lifeCycle = lcSCRAPPED ∨ s.powered .sec = false ∨ s.sec.waiting.isSome = true) : s.runCommand cmd = s := by
  rw [State.runCommand]
  rcases h with h | h | h
  · rw [if_pos (by rw [decide_eq_true h, Bool.or_true])]
  · rw [if_pos (by rw [h]; rfl)]
  · rw [if_pos h, ite_self]

section
variable (hp : s.powered .sec = true) (hlc : s.lifeCycle ≠ lcSCRAPPED) (hwait : s.sec.waiting = none)
include hp hlc hwait

theorem State.runCommand_brownout (hbo : s.flag PWR.SUP_STAT_BO_ACTIVE = true) :
    s.runCommand cmd = ((s.set SEC.CMD_STAT_CMD cmd).set SEC.CMD_STAT_RESULT 1).withSec fun k => { k with waiting := some cmd } := by
  rw [State.runCommand, hp, decide_eq_false hlc, if_neg (by decide), hwait, if_neg (by decide), if_pos hbo]

variable (hbo : s.flag PWR.SUP_STAT_BO_ACTIVE = false)
include hbo

theorem State.runCommand_judged : s.runCommand cmd = s.judgeCommand cmd := by
  rw [State.runCommand, hp, decide_eq_false hlc, if_neg (by decide), hwait, if_neg (by decide), if_neg (Bool.eq_false_iff.1 hbo)]

theorem State.runCommand_not_allowed (h : s.commandAllowed cmd = false) : s.runCommand cmd = s.endCommand cmd 3 := by
  rw [s.runCommand_judged cmd hp hlc hwait hbo, State.judgeCommand, h, Bool.not_false, if_pos rfl]

theorem State.runCommand_not_signed (h : s.commandAllowed cmd = true) (hs : s.commandSigned cmd = false) : s.runCommand cmd = s.endCommand cmd 2 := by
  rw [s.runCommand_judged cmd hp hlc hwait hbo, State.judgeCommand, h, hs, Bool.not_true, if_neg Bool.false_ne_true, Bool.not_false, if_pos rfl]

theorem State.runCommand_accepted (h : s.commandAllowed cmd = true) (hs : s.commandSigned cmd = true) : s.runCommand cmd = s.doCommand cmd := by
  rw [s.runCommand_judged cmd hp hlc hwait hbo, State.judgeCommand, h, hs, Bool.not_true, if_neg Bool.false_ne_true, if_neg Bool.false_ne_true]

end

end

/-! ## The end of a command -/

section
variable (cmd result : Nat)

theorem State.endCommand_observe {α : Type} (obs : State → α) (hset : ∀ (t : State) (r : Reg) (v : Nat), obs (t.set r v) = obs t)
    (hupdate : ∀ (t : State) (r : Reg) (v k : Nat), obs (t.updateTo r v k) = obs t) : obs (s.endCommand cmd result) = obs s :=
  (hupdate _ _ _ _).trans ((State.when_observe obs (fun t => hupdate t _ _ _) _ _).trans ((hset _ _ _).trans (hset _ _ _)))

theorem State.endCommand_otp : (s.endCommand cmd result).otp = s.otp := s.endCommand_observe cmd result State.otp State.set_otp fun _ _ _ _ => rfl

theorem State.endCommand_get (q : Reg) (h : q.key ∉ [SEC.CMD_STAT_CMD, SEC.CMD_STAT_RESULT, SEC.TOKEN_FAIL_CNT, HDR.INT_RAW .sec].map Reg.key) :
    (s.endCommand cmd result).get q = s.get q := by
  simp only [List.map_cons, List.map_nil, List.mem_cons, List.not_mem_nil, or_false, not_or] at h
  obtain ⟨hcmd, hresult, hfail, hint⟩ := h
  rw [State.endCommand, State.get_raise_ne _ _ _ _ hint]
  refine (State.when_observe (fun t => t.get q) (fun t => t.get_count_ne _ _ hfail) _ _).trans ?_
  rw [State.get_set_ne _ _ _ _ hresult, State.get_set_ne _ _ _ _ hcmd]

theorem State.endCommand_lifeCycle : (s.endCommand cmd result).lifeCycle = s.lifeCycle := s.endCommand_get cmd result _ (by decide)

theorem State.endCommand_result : (s.endCommand cmd result).get SEC.CMD_STAT_RESULT = result % 2 ^ 4 := by
  rw [State.endCommand, State.get_raise_ne _ _ _ _ (by decide)]
  refine (State.when_observe (fun t => t.get SEC.CMD_STAT_RESULT) (fun t => t.get_count_ne _ _ (by decide)) _ _).trans ?_
  exact State.get_set _ _ _

end

/-! ## The state a transition reaches -/

theorem State.loadOtp_lifeCycle : s.loadOtp.lifeCycle = max s.otp.lifeA s.otp.lifeB % 2 ^ 3 := by
  refine (State.each_observe State.lifeCycle (fun v _ t => t.get_set_ne _ _ _ (fieldAt_key_ne (by omega))) _).trans ?_
  simp (disch := decide) only [State.lifeCycle, State.get_set_ne, State.get_set]
  rfl

theorem State.chipReset_lifeCycle : (s.chipReset PWR.RST_CAUSE_LC).lifeCycle = max s.otp.lifeA s.otp.lifeB % 2 ^ 3 := by
  have hkept : SEC.LC_STATE.key ∉ keptOverReset.map Reg.key := by decide
  refine (State.get_updateFlag_ne _ _ _ (by decide)).trans ((State.each_observe State.lifeCycle (fun r hr t => t.get_set_ne r _ _ fun hk => hkept ?_) _).trans ?_)
  · exact hk ▸ List.mem_map_of_mem hr
  · rw [State.lifeCycle, State.sampleStraps, State.get_setFlag_ne _ _ _ _ (by decide), State.get_setFlag_ne _ _ _ _ (by decide), State.get_set_ne _ _ _ _ (by decide)]
    exact State.loadOtp_lifeCycle _

section
variable (cmd dest : Nat) (burn : Otp → Otp)

theorem State.transition_lifeCycle (h : dest < 8) : (s.transition cmd dest burn).lifeCycle = dest := by
  rw [State.transition, State.chipReset_lifeCycle]
  simp only [Nat.max_self]
  exact Nat.mod_eq_of_lt h

theorem State.transition_otp : (s.transition cmd dest burn).otp = { burn (s.zeroise.endCommand cmd 0).otp with lifeA := dest, lifeB := dest } := by
  rw [State.transition, State.chipReset_otp]

end

/-! ## What each command does -/

/-- What RETURN and SCRAP burn. -/
def forgetKeys (o : Otp) : Otp := { o with deviceKey := none, kek := none, flashFleet := none, flashHead := none }

/-- What MANUFACTURE burns. -/
def burnUid (arg : List Byte) (o : Otp) : Otp :=
  { o with uid := some (BitVec.ofNat 48 (natOfBE (arg.take 6))), revoked := o.revoked ||| BitVec.ofNat 16 (natOfBE (arg.drop 6) % 16) }

theorem State.doCommand_manufacture : s.doCommand 1 = s.transition 1 lcMANUFACTURE (burnUid (tokenArg (s.tokenAt 0))) := rfl

theorem State.doCommand_deploy : s.doCommand 3 = s.transition 3 lcDEPLOYED id := rfl

theorem State.doCommand_return : s.doCommand 4 = s.transition 4 lcRETURN forgetKeys := rfl

theorem State.doCommand_scrap : s.doCommand 5 = s.transition 5 lcSCRAPPED forgetKeys := rfl

theorem State.transition_forgets (cmd dest : Nat) (h : dest < 8) : (s.transition cmd dest forgetKeys).lifeCycle = dest ∧ (s.transition cmd dest forgetKeys).otp.deviceKey = none
    ∧ (s.transition cmd dest forgetKeys).otp.kek = none ∧ (s.transition cmd dest forgetKeys).otp.flashFleet = none ∧ (s.transition cmd dest forgetKeys).otp.flashHead = none := by
  rw [State.transition_otp]
  exact ⟨s.transition_lifeCycle _ _ _ h, rfl, rfl, rfl, rfl⟩

theorem State.doCommand_provision (h : s.random true = none) : s.doCommand 2 = s.endCommand 2 4 := by
  change s.provision = _
  rw [State.provision, h]

theorem State.doCommand_rootInstall (h : s.otp.operatorRoots.length < 4) :
    s.doCommand 6 = { s with otp := { s.otp with operatorRoots := s.otp.operatorRoots ++ [Config.sha384 s.tokenBody] } }.endCommand 6 0 := if_neg (Nat.not_le.2 h)

theorem State.doCommand_rootInstall_full (h : 4 ≤ s.otp.operatorRoots.length) : s.doCommand 6 = s.endCommand 6 4 := if_pos h

theorem State.doCommand_rootInstall_lifeCycle : (s.doCommand 6).lifeCycle = s.lifeCycle := by
  by_cases h : 4 ≤ s.otp.operatorRoots.length
  · rw [s.doCommand_rootInstall_full h, State.endCommand_lifeCycle]
  · rw [s.doCommand_rootInstall (Nat.not_le.1 h), State.endCommand_lifeCycle]
    rfl

/-- Revocation, before the command's end. -/
def State.revoke (s : State) : State :=
  { s with otp := { s.otp with revoked := s.otp.revoked ||| (BitVec.ofNat 16 (natOfBE (tokenArg (s.tokenAt 0))) &&& 0x0F0F) } }

theorem State.doCommand_revoke : s.doCommand 7 = s.revoke.endCommand 7 0 := rfl

theorem State.doCommand_fleetKey : s.doCommand 8 = match s.otp.deviceKey.bind fun k => Config.openBody k s.tokenBody with
    | some key => { s with otp := { s.otp with flashFleet := some key } }.endCommand 8 0
    | none => s.endCommand 8 2 := rfl

theorem State.doCommand_headKey : s.doCommand 10 = match s.otp.deviceKey.bind fun k => Config.openBody k s.tokenBody with
    | some key => { s with otp := { s.otp with flashHead := some key } }.endCommand 10 0
    | none => s.endCommand 10 2 := rfl

theorem State.doCommand_keys_open {key : BitVec 256} (h : (s.otp.deviceKey.bind fun k => Config.openBody k s.tokenBody) = some key) :
    (s.doCommand 8).otp = { s.otp with flashFleet := some key } ∧ (s.doCommand 10).otp = { s.otp with flashHead := some key } := by
  rw [State.doCommand_fleetKey, State.doCommand_headKey, h]
  exact ⟨State.endCommand_otp _ _ _, State.endCommand_otp _ _ _⟩

theorem State.doCommand_keys_closed (h : (s.otp.deviceKey.bind fun k => Config.openBody k s.tokenBody) = none) :
    s.doCommand 8 = s.endCommand 8 2 ∧ s.doCommand 10 = s.endCommand 10 2 := by
  rw [State.doCommand_fleetKey, State.doCommand_headKey, h]
  exact ⟨rfl, rfl⟩

/-- The debug token, before the command's end. -/
def State.openDebug (s : State) : State :=
  ((s.set SEC.DBG_STAT_PERM (natOfBE (tokenArg (s.tokenAt 0)) % 4)).setFlag SEC.KEY_STAT_DBG_OPEN true).raise .sec 14

theorem State.doCommand_debugToken : s.doCommand 9 = s.openDebug.endCommand 9 0 := rfl

theorem State.openDebug_perm : s.openDebug.get SEC.DBG_STAT_PERM = natOfBE (tokenArg (s.tokenAt 0)) % 4 := by
  rw [State.openDebug, State.get_raise_ne _ _ _ _ (by decide), State.get_setFlag_ne _ _ _ _ (by decide), State.get_set]
  exact Nat.mod_mod _ 4

theorem State.openDebug_lifeCycle : s.openDebug.lifeCycle = s.lifeCycle := by
  rw [State.openDebug, State.lifeCycle, State.get_raise_ne _ _ _ _ (by decide), State.get_setFlag_ne _ _ _ _ (by decide), State.get_set_ne _ _ _ _ (by decide)]
  rfl

end

end Sys2Proof.Machine

namespace Sys2Proof.Proofs
open Sys2Proof.Machine

/-- Settles O49: every command is run alike, and judged in the order power, brown-out, state, token. -/
theorem lifeCycleCommands : Obligations.LifeCycleCommands := by
  intro s p hp
  rw [exec_lifeCommand s hp]
  exact ⟨fun h => congrArg Host.Outcome.next (s.runCommand_ignored p.2 h), fun hpow hlc hwait =>
    ⟨fun hbo => congrArg Host.Outcome.next (s.runCommand_brownout p.2 hpow hlc hwait hbo),
      fun hbo h => congrArg Host.Outcome.next (s.runCommand_not_allowed p.2 hpow hlc hwait hbo h),
      fun hbo h hs => congrArg Host.Outcome.next (s.runCommand_not_signed p.2 hpow hlc hwait hbo h hs),
      fun hbo h hs => congrArg Host.Outcome.next (s.runCommand_accepted p.2 hpow hlc hwait hbo h hs)⟩⟩

/-- Settles O50: a transition ends in a chip reset that reads the state burnt; the other commands by what they change before their end. -/
theorem acceptedLifeCycleCommands : Obligations.AcceptedLifeCycleCommands := by
  intro s
  rw [s.doCommand_manufacture, s.doCommand_deploy, s.doCommand_return, s.doCommand_scrap]
  refine ⟨s.transition_lifeCycle _ _ _ (by decide), s.transition_lifeCycle _ _ _ (by decide), s.transition_forgets _ _ (by decide), s.transition_forgets _ _ (by decide),
    s.doCommand_provision, fun h => ?_, fun h => ?_, ?_, fun k key hk hopen => s.doCommand_keys_open (by rw [hk]; exact hopen),
    fun k hk hopen => s.doCommand_keys_closed (by rw [hk]; exact hopen), fun hk => s.doCommand_keys_closed (by rw [hk]; rfl), ?_, ?_, ?_, ?_,
    s.doCommand_rootInstall_lifeCycle, ?_⟩
  · rw [s.doCommand_rootInstall h, State.endCommand_otp]
  · rw [s.doCommand_rootInstall_full h, State.endCommand_otp, State.endCommand_result]
    exact ⟨rfl, rfl⟩
  · rw [s.doCommand_revoke, State.endCommand_otp]
    rfl
  · rw [s.doCommand_debugToken, State.endCommand_get _ _ _ _ (by decide), State.openDebug_perm]
  · rw [s.doCommand_revoke]
    exact State.endCommand_observe _ _ _ State.mem State.set_mem fun _ _ _ _ => rfl
  · rw [s.doCommand_revoke]
    exact State.endCommand_observe _ _ _ State.sec State.set_sec fun _ _ _ _ => rfl
  · rw [s.doCommand_revoke, State.endCommand_lifeCycle]
    rfl
  · rw [s.doCommand_debugToken, State.endCommand_lifeCycle, State.openDebug_lifeCycle]

end Sys2Proof.Proofs
end

section
/-! Keys and boot (R382, R387, R396 to R399, R448): one equation per command and stage. -/

namespace Sys2Proof.Machine

section
variable (s : State)

/-! ## Challenges, zeroisation, entropy -/

theorem exec_dbgChalRead (who : Requester) (hp : s.powered .sec = true) (hlc : s.lifeCycle ≠ lcSCRAPPED) : exec (.dbgChalRead who) s =
    .next (s.drawChallenge.emit (.regData who 0x100060 (BitVec.ofNat 32 (s.drawChallenge.get (SEC.DBG_CHAL 0))))) :=
  congrArg Host.Outcome.next (if_neg (by rw [hp, decide_eq_false hlc]; decide))

theorem exec_dbgChalRead_scrapped (who : Requester) (hlc : s.lifeCycle = lcSCRAPPED) : exec (.dbgChalRead who) s = .next s :=
  congrArg Host.Outcome.next (if_pos (by rw [decide_eq_true hlc, Bool.or_true]))

section
variable (hp : s.powered .sec = true)
include hp

theorem exec_zeroise (v : BitVec 16) : exec (.zeroise v) s = .next (s.writeZeroise v.toNat) := congrArg Host.Outcome.next (if_pos hp)

theorem exec_zeroise_key : exec (.zeroise 0xB4A7) s = .next s.zeroise := (exec_zeroise s hp _).trans (congrArg Host.Outcome.next (if_pos rfl))

theorem exec_zeroise_other {v : BitVec 16} (h : v ≠ 0xB4A7) : exec (.zeroise v) s = .next s :=
  (exec_zeroise s hp v).trans (congrArg Host.Outcome.next (if_neg fun he => h (BitVec.eq_of_toNat_eq he)))

theorem exec_trngFail : exec .trngFail s = .next ((s.setFlag SEC.TRNG_STAT_HEALTHY false).countRaise SEC.TRNG_FAIL_CNT .sec 12) := congrArg Host.Outcome.next (if_pos hp)

end

/-! ## Boot stages -/

theorem exec_bootStageDone_stopped (r : BootResult) (h : s.power.held = true ∨ s.powered .sec = false) : exec (.bootStageDone r) s = .next s :=
  congrArg Host.Outcome.next (if_pos (by rcases h with h | h <;> simp [h]))

theorem exec_bootStageDone (r : BootResult) (hheld : s.power.held = false) (hp : s.powered .sec = true) : exec (.bootStageDone r) s = .next (s.bootStage r) :=
  congrArg Host.Outcome.next (if_neg (by rw [hheld, hp]; decide))

/-- A stage out of its turn changes nothing. -/
theorem State.bootStage_out_of_turn :
    (s.power.bootNext ≠ 1 → ∀ a b p, s.bootStage (.rom a b p) = s) ∧ (s.power.bootNext ≠ 2 → ∀ a b, s.bootStage (.manifest a b) = s)
    ∧ (s.power.bootNext ≠ 3 → ∀ b, s.bootStage (.firmware b) = s) ∧ (s.power.bootNext ≠ 4 → ∀ b, s.bootStage (.fleetKey b) = s)
    ∧ (s.power.bootNext ≠ 5 → ∀ b, s.bootStage (.images b) = s) ∧ (s.power.bootNext ≠ 6 → s.bootStage .subsystem = s)
    ∧ (s.power.bootNext ≠ 7 → s.bootStage .complete = s) :=
  ⟨fun h _ _ _ => if_pos (bne_iff_ne.mpr h), fun h _ _ => if_pos (bne_iff_ne.mpr h), fun h _ => if_pos (bne_iff_ne.mpr h), fun h _ => if_pos (bne_iff_ne.mpr h),
    fun h _ => if_pos (bne_iff_ne.mpr h), fun h => if_pos (bne_iff_ne.mpr h), fun h => if_pos (bne_iff_ne.mpr h)⟩

section
variable (hnext : s.power.bootNext = 1) (p : PowerOnProof)
include hnext

theorem State.bootStage_badOtp (b : Bool) : s.bootStage (.rom false b p) = s.bootFail 1 1 := by
  simp only [State.bootStage, hnext, bne_self_eq_false, Bool.false_eq_true, if_false, Bool.not_false, if_true]

theorem State.bootStage_badTrng : s.bootStage (.rom true false p) = s.bootFail 1 2 := by
  simp only [State.bootStage, hnext, bne_self_eq_false, Bool.false_eq_true, if_false, Bool.not_false, Bool.not_true, if_true]

theorem State.bootStage_rom {u : State} (hu : u = (((s.setFlag SEC.TRNG_STAT_HEALTHY true).setFlag SEC.TRNG_STAT_SERVING true).bootOn 1).powerOnProofing p) :
    s.bootStage (.rom true true p) = (u.setFlag PWR.PUSH_STAT_PUSH u.pushes).setFlag PWR.PUSH_STAT_READY u.pushes := by
  simp only [State.bootStage, hnext, bne_self_eq_false, Bool.false_eq_true, if_false, Bool.not_true, ← hu]

end

theorem State.bootStage_subsystem (hnext : s.power.bootNext = 6) {u : State} (hu : u = { s with power := { s.power with subsystem := s.power.subsystemNext } }) :
    s.bootStage .subsystem = (u.when (s.power.advance && decide (s.lifeCycle = lcDEPLOYED)) State.advanceCounters).bootOn 6 := by
  subst hu
  simp only [State.bootStage, hnext, bne_self_eq_false, Bool.false_eq_true, if_false]
  rfl

/-- The last stage ends the boot; where neither line is asked for, no condition of theirs is missed. -/
theorem State.bootStage_complete (hnext : s.power.bootNext = 7) {u : State} (hu : u = (((({ (s.set SEC.BOOT_STAT_STAGE 7).setFlag CHIP.CHIP_STAT_BOOT_DONE true with
      power := { s.power with bootNext := 0 } } : State).setFlag PWR.PUSH_STAT_PUSH false).setFlag PWR.PUSH_STAT_READY false).raise .chip 11))
    (hA : u.flag (GTB.LINE_CTRL_EN .A) = false) (hB : u.flag (GTB.LINE_CTRL_EN .B) = false) : s.bootStage .complete = u.recheckLines s := by
  have hexec : s.bootStage .complete = (u.when ((u.flag (GTB.LINE_CTRL_EN .A) || u.flag (GTB.LINE_CTRL_EN .B)) && !u.checkedConditions) State.raiseCfgBad).recheckLines s := by
    subst hu
    exact if_neg (by rw [hnext]; decide)
  rw [hexec, hA, hB, Bool.or_self, Bool.false_and, State.when_false]

/-! ## The push path -/

theorem exec_pushChunkTaken_next (hpush : s.flag PWR.PUSH_STAT_PUSH = true) (hlast : s.power.pushLast = false) :
    exec .pushChunkTaken s = .next (s.setFlag PWR.PUSH_STAT_READY true) := congrArg Host.Outcome.next (if_pos (by rw [hpush, hlast]; rfl))

theorem exec_pushChunkTaken_none (h : s.flag PWR.PUSH_STAT_PUSH = false ∨ s.power.pushLast = true) : exec .pushChunkTaken s = .next s :=
  congrArg Host.Outcome.next (if_neg (by rcases h with h | h <;> simp [h]))

end

end Sys2Proof.Machine

namespace Sys2Proof.Proofs
open Sys2Proof.Machine

/-- Settles O51: the equation of each command and boot stage. -/
theorem keyAndBootCommands : Obligations.KeyAndBootCommands := by
  intro s who
  refine ⟨exec_dbgChalRead s who, exec_dbgChalRead_scrapped s who, fun hp => ⟨exec_zeroise_key s hp, fun v => exec_zeroise_other s hp⟩, exec_trngFail s,
    fun h r => exec_bootStageDone_stopped s r h, fun hheld hp => ?_, fun len last => rfl, exec_pushChunkTaken_next s, exec_pushChunkTaken_none s⟩
  have hstage (r : BootResult) {t : State} (h : s.bootStage r = t) : exec (.bootStageDone r) s = .next t := (exec_bootStageDone s r hheld hp).trans (congrArg Host.Outcome.next h)
  obtain ⟨hrom, hmanifest, hfirmware, hfleet, himages, hsubsystem, hcomplete⟩ := s.bootStage_out_of_turn
  refine ⟨fun hnext => ⟨fun b p => hstage _ (s.bootStage_badOtp hnext p b), fun p => hstage _ (s.bootStage_badTrng hnext p), fun p u hu => hstage _ (s.bootStage_rom hnext p hu)⟩,
    fun hnext u hu => ⟨fun h => hstage _ ((s.bootStage_subsystem hnext hu).trans ?_), fun hadvance hlc => hstage _ ((s.bootStage_subsystem hnext hu).trans ?_)⟩,
    fun hnext u hu hA hB => hstage _ (s.bootStage_complete hnext hu hA hB), fun h a b p => hstage _ (hrom h a b p), fun h a b => hstage _ (hmanifest h a b),
    fun h b => hstage _ (hfirmware h b), fun h b => hstage _ (hfleet h b), fun h b => hstage _ (himages h b), fun h => hstage _ (hsubsystem h), fun h => hstage _ (hcomplete h)⟩
  · have hstays : (s.power.advance && decide (s.lifeCycle = lcDEPLOYED)) = false := by rcases h with h | h <;> simp [h]
    rw [hstays, State.when_false]
  · rw [hadvance, decide_eq_true hlc, Bool.and_self, State.when_true]

end Sys2Proof.Proofs
end

section
/-! Proofing (R402 to R413): one equation per command and case. -/

namespace Sys2Proof.Machine

section
variable (s : State)

/-! ## The rotation -/

theorem State.proofPair_alone {t : Nat} (h : s.lockedMode = false ∨ 4 ≤ t) : s.proofPair t = [t] :=
  if_neg (by rcases h with h | h <;> simp [h])

theorem State.proofExpiry_none {n : Nat} (h : (s.rotation n).wait ≠ some 0 ∨ s.proofOn n = false ∨ s.get (PRF.RESULT_RESULT n) ≠ 1) : s.proofExpiry n = s :=
  if_pos (by rcases h with h | h | h <;> simp [h])

/-- The end of the interval chooses the next cell; the crypto cores change their service at once (R404). -/
theorem State.proofExpiry_next {n i j : Nat} {u : State} (hwait : (s.rotation n).wait = some 0) (hon : s.proofOn n = true) (hres : s.get (PRF.RESULT_RESULT n) = 1)
    (hspare : s.proofSpare n = some i) (hnext : s.nextCell n i = some j) (hu : u = (s.showTarget n j).withRotation n (fun x => { x with wait := none, target := some j })) :
    s.proofExpiry n = if n = 4 then (u.withSec fun k => { k with cryptoServing := i }).rotated 4 else u := by
  subst hu
  rw [State.proofExpiry, if_neg (by rw [hwait, hon, hres]; decide)]
  simp only [hspare, hnext]

/-! ## Runs -/

theorem toNat_ne_five {t : BitVec 3} (h : t ≠ 5) : t.toNat ≠ 5 := fun he => h (BitVec.eq_of_toNat_eq he)

section
variable {t : Nat} (ht : t ≠ 5)
include ht

theorem State.proofStart_blocked (h : s.phase ≠ 2 ∨ s.flag PWR.SUP_STAT_BO_ACTIVE = true ∨ (s.proofPair t).all s.runReady = false) : s.proofStart t = s := by
  rw [State.proofStart, if_neg ht, if_pos (by rcases h with h | h | h <;> simp only [bne_iff_ne.mpr, h, Bool.not_false, Bool.or_true, Bool.true_or, ne_eq, not_false_eq_true])]

section
variable (hphase : s.phase = 2) (hbo : s.flag PWR.SUP_STAT_BO_ACTIVE = false) (hready : (s.proofPair t).all s.runReady = true)
include hphase hbo hready

theorem State.proofStart_deferred (h : s.withinLimits = false) : s.proofStart t = s.count PRF.LIMIT_DEFER_CNT := by
  rw [State.proofStart, if_neg ht, hphase, hbo, hready, if_neg (by decide), h, Bool.not_false, if_pos rfl]

theorem State.proofStart_starts (h : s.withinLimits = true) : s.proofStart t = s.each (s.proofPair t) fun n u => match u.proofSpare n with
    | some i => u.startRun n i
    | none => u := by
  rw [State.proofStart, if_neg ht, hphase, hbo, hready, if_neg (by decide), h, Bool.not_true, if_neg Bool.false_ne_true] <;> rfl

end

theorem State.proofRestore_busy (h : s.phase ≠ 2) : s.proofRestore t = s := by rw [State.proofRestore, if_neg ht, if_neg h]

theorem State.proofRestore_idle (h : s.phase = 2) : s.proofRestore t = s.restoreRun t := by rw [State.proofRestore, if_neg ht, if_pos h]

theorem State.patternsDone_none (sig : BitVec 128) (h : (s.rotation t).run = none) : s.patternsDone t sig = s := by
  rw [State.patternsDone, if_neg ht]
  simp only [h]

section
variable (sig : BitVec 128) {r : ProofRun} (hr : (s.rotation t).run = some r)
include hr

theorem State.patternsDone_early (h : r.ended ≠ none ∨ s.patternsAll r = false) : s.patternsDone t sig = s := by
  have hstop : (r.ended.isSome || !s.patternsAll r) = true := by
    rcases h with h | h
    · rw [Option.isSome_iff_ne_none.2 h, Bool.true_or]
    · rw [h, Bool.not_false, Bool.or_true]
  rw [State.patternsDone, if_neg ht]
  simp only [hr, hstop, if_true]

/-- A run whose patterns have taken their time ends by its signature. -/
theorem State.patternsDone_judged (hended : r.ended = none) (hall : s.patternsAll r = true) {u : State} (hu : u = s.showSignature sig) : s.patternsDone t sig =
    if sig == Config.fixedSignature (proofKind t) then u.withRotation t fun x => { x with run := some { r with ended := some 1 } }
    else if u.flag PRF.PRF_CFG_RETEST && !(u.rotation t).retest then u.withRotation t fun x => { x with retest := true, run := some { r with start := u.ltcNs } }
    else (u.isolateSpare t r.cell).withRotation t fun x => { x with run := some { r with ended := some 2 } } := by
  subst hu
  rw [State.patternsDone, if_neg ht]
  simp only [hr, hended, hall, Option.isSome_none, Bool.not_true, Bool.or_self, Bool.false_eq_true, if_false]

end

end

/-! ## Maintenance -/

section
variable {v : Nat}

theorem State.maintCmd_idle (h : bitOf v 31 = false) : s.maintCmd v = s := if_pos (by rw [h]; rfl)

section
variable {m : Maintenance} (hgo : bitOf v 31 = true)
  (hm : m = ⟨v % 2 ^ 8, if bitOf v 13 then .B else .A, v / 2 ^ 8 % 2 ^ 5, false, ⟨v / 2 ^ 8 % 2 ^ 5, s.ltcNs, s.maintPatterns (v % 2 ^ 8), [], none⟩⟩)
include hgo hm

theorem State.maintCmd_refused
    (h : s.bothOff = false ∨ s.maintIdle m = false ∨ s.proof.maint.isSome = true ∨ s.proofingState = false ∨ s.live .prf = false) : s.maintCmd v = s.refuse .prf := by
  have hnot : (s.bothOff && s.maintIdle m && s.proof.maint.isNone && s.proofingState && s.live .prf) = false := by
    rcases h with h | h | h | h | h
    · rw [h, Bool.false_and, Bool.false_and, Bool.false_and, Bool.false_and]
    · rw [h, Bool.and_false, Bool.false_and, Bool.false_and, Bool.false_and]
    · rw [← Option.not_isSome, h, Bool.not_true, Bool.and_false, Bool.false_and, Bool.false_and]
    · rw [h, Bool.and_false, Bool.false_and]
    · rw [h, Bool.and_false]
  subst hm
  rw [State.maintCmd, hgo, Bool.not_true, if_neg Bool.false_ne_true]
  exact if_neg (Bool.eq_false_iff.1 hnot)

/-- An accepted command aborts what runs and holds its run. -/
theorem State.maintCmd_accepted (hoff : s.bothOff = true) (hidle : s.maintIdle m = true) (hnone : s.proof.maint = none) (hstate : s.proofingState = true)
    (hl : s.live .prf = true) {u : State} {held : Option Nat} (hu : u = s.abortInService 8)
    (hheld : held = if u.withinLimits = true ∧ u.flag PWR.SUP_STAT_BO_ACTIVE = false then none else some 0) :
    s.maintCmd v = (((({ u.when (!u.withinLimits) (fun u => u.count PRF.LIMIT_DEFER_CNT) with
      proof := { u.proof with maint := some { m with run := { m.run with ended := held } } } } : State).setFlag
      PRF.PRF_STAT_MAINT_BUSY true).each m.pages fun p s => s.setFlag (HDR.PAGE_STAT_PROOF_BUSY p) true)).when
        (m.target = 4) fun s => s.set (ENG.ENG_STAT_STATE m.chan m.index) 4 := by
  have hproof : (u.when (!u.withinLimits) fun u => u.count PRF.LIMIT_DEFER_CNT).proof = u.proof := State.when_observe State.proof (fun t => t.count_proof _) _ _
  have hended : (if (u.withinLimits && !u.flag PWR.SUP_STAT_BO_ACTIVE) = true then none else some 0) = held := by
    rw [hheld]
    exact if_congr (by simp) rfl rfl
  rw [State.maintCmd, hgo, Bool.not_true, if_neg Bool.false_ne_true]
  simp only [← hm, hoff, hidle, hnone, hstate, hl, Option.isNone_none, Bool.and_self, if_true, ← hu, hended, hproof]
  subst hm
  rfl

end

end

section
variable {m : Maintenance} (hm : s.proof.maint = some m) (sig : BitVec 128)
include hm

theorem State.proofStart_maint (hended : m.run.ended = some 0) (hbo : s.flag PWR.SUP_STAT_BO_ACTIVE = false) : s.proofStart 5 =
    if s.withinLimits then { s with proof := { s.proof with maint := some { m with run := { m.run with start := s.ltcNs, ended := none } } } }
    else s.count PRF.LIMIT_DEFER_CNT := by
  rw [State.proofStart, if_pos rfl]
  simp only [hm, hended, hbo, bne_self_eq_false, Bool.or_self, Bool.false_eq_true, if_false]

theorem State.patternsDone_maint {u : State} (hu : u = s.showSignature sig) (hended : m.run.ended = none) (hall : s.patternsAll m.run = true) (hsig : sig = s.maintSignature m) :
    s.patternsDone 5 sig = { u with proof := { u.proof with maint := some { m with run := { m.run with ended := some 1 } } } } := by
  subst hu
  rw [State.patternsDone, if_pos rfl]
  simp only [hm, hended, hall, beq_iff_eq.mpr hsig, Option.isSome_none, Bool.not_true, Bool.or_self, Bool.false_eq_true, if_false, if_true]

theorem State.proofRestore_maint_passed (hended : m.run.ended = some 1) : s.proofRestore 5 = (s.endMaint 1 0).count PRF.PASS_CNT := by
  rw [State.proofRestore, if_pos rfl]
  simp only [hm, hended]

theorem State.proofRestore_maint_failed (hended : m.run.ended = some 2) : s.proofRestore 5 = s.endMaint 2 0 := by
  rw [State.proofRestore, if_pos rfl]
  simp only [hm, hended]

end

theorem State.proof_maint_none (hm : s.proof.maint = none) (sig : BitVec 128) : s.proofStart 5 = s ∧ s.patternsDone 5 sig = s ∧ s.proofRestore 5 = s := by
  rw [State.proofStart, State.patternsDone, State.proofRestore, if_pos rfl, if_pos rfl, if_pos rfl]
  simp only [hm, and_self]

end

end Sys2Proof.Machine

namespace Sys2Proof.Proofs
open Sys2Proof.Machine

/-- Settles O52: the equation of each command and case. -/
theorem proofingCommands : Obligations.ProofingCommands := by
  intro s t sig
  have hstart (t : BitVec 3) {u : State} (h : s.proofStart t.toNat = u) : exec (.proofRunStart t) s = .next u := congrArg Host.Outcome.next h
  have hdone (t : BitVec 3) {u : State} (h : s.patternsDone t.toNat sig = u) : exec (.proofPatternsDone t sig) s = .next u := congrArg Host.Outcome.next h
  have hrestore (t : BitVec 3) {u : State} (h : s.proofRestore t.toNat = u) : exec (.proofRestore t) s = .next u := congrArg Host.Outcome.next h
  have hmaint (hp : s.powered .prf = true) {v : Word} {u : State} (h : s.maintCmd v.toNat = u) : exec (.maintCmd v) s = .next u :=
    congrArg Host.Outcome.next ((if_pos hp).trans h)
  refine ⟨rfl, s.proofPair_alone, fun n => s.proofExpiry_none, fun n i j u => s.proofExpiry_next,
    fun ht hphase => ⟨hstart t (s.proofStart_blocked (toNat_ne_five ht) (.inl hphase)), hrestore t (s.proofRestore_busy (toNat_ne_five ht) hphase)⟩,
    fun ht h => hstart t (s.proofStart_blocked (toNat_ne_five ht) (.inr h)),
    fun ht hphase hbo hready => ⟨fun h => hstart t (s.proofStart_deferred (toNat_ne_five ht) hphase hbo hready h),
      fun h => hstart t (s.proofStart_starts (toNat_ne_five ht) hphase hbo hready h)⟩,
    fun r ht hr hended hall u hu => ?_, fun r ht hr h => hdone t (s.patternsDone_early (toNat_ne_five ht) sig hr h),
    fun h ht => hdone t (s.patternsDone_none (toNat_ne_five ht) sig h), fun ht hphase => hrestore t (s.proofRestore_idle (toNat_ne_five ht) hphase),
    fun hp => congrArg Host.Outcome.next (if_pos hp),
    fun hp v => ⟨congrArg Host.Outcome.next (if_neg (Bool.eq_false_iff.1 hp)), congrArg Host.Outcome.next (if_neg (Bool.eq_false_iff.1 hp))⟩,
    fun hp v => ⟨fun h => hmaint hp (s.maintCmd_idle h), fun m hgo hm => ⟨fun h => hmaint hp (s.maintCmd_refused hgo hm h),
      fun hoff hidle hnone hstate hl u held hu hheld => hmaint hp (s.maintCmd_accepted hgo hm hoff hidle hnone hstate hl hu hheld)⟩⟩,
    fun m hm => ⟨fun hended hbo => ⟨fun h => hstart 5 ((s.proofStart_maint hm hended hbo).trans (if_pos h)),
        fun h => hstart 5 ((s.proofStart_maint hm hended hbo).trans (if_neg (Bool.eq_false_iff.1 h)))⟩,
      fun u hu hended hall hsig => hdone 5 (s.patternsDone_maint hm sig hu hended hall hsig), fun hended => hrestore 5 (s.proofRestore_maint_passed hm hended),
      fun hended => hrestore 5 (s.proofRestore_maint_failed hm hended)⟩, fun hm => ?_⟩
  · have hjudged := s.patternsDone_judged (toNat_ne_five ht) sig hr hended hall hu
    refine ⟨fun hsig => hdone t (hjudged.trans (if_pos (beq_iff_eq.mpr hsig))), fun hsig hre hfirst => hdone t (hjudged.trans ((if_neg ?_).trans (if_pos ?_))),
      fun hsig h => hdone t (hjudged.trans ((if_neg ?_).trans (if_neg ?_)))⟩
    · rwa [beq_iff_eq]
    · rw [hre, hfirst]
      rfl
    · rwa [beq_iff_eq]
    · rcases h with h | h <;> simp [h]
  · obtain ⟨hs, hd, hr⟩ := s.proof_maint_none hm sig
    exact ⟨hstart 5 hs, hdone 5 hd, hrestore 5 hr⟩

end Sys2Proof.Proofs
end

section
/-! The tag links of the couplers (R415 to R425): one equation per command and case. -/

namespace Sys2Proof.Machine

section
variable (s : State) (m : BitVec 2)

/-! ## Sessions -/

/-- The counts of a closing are not what tells whether this chip drives the tags. -/
theorem State.tagDrives_closing :
    ((s.count (CPL.LOCAL_MATES m.toNat)).countBy (CPL.HEAD_STAT_PENDING m.toNat) 1).tagDrives = s.tagDrives := by
  have hkeys : ∀ q ∈ [TWIN.TWIN_CTRL_EN, TWIN.TWIN_STAT_HAT_STATE, CHIP.CHIP_STAT_FAIL_SILENT],
      q.key ≠ (CPL.HEAD_STAT_PENDING m.toNat).key ∧ q.key ≠ (CPL.LOCAL_MATES m.toNat).key := by revert m; decide
  have hget : ∀ q ∈ [TWIN.TWIN_CTRL_EN, TWIN.TWIN_STAT_HAT_STATE, CHIP.CHIP_STAT_FAIL_SILENT],
      ((s.count (CPL.LOCAL_MATES m.toNat)).countBy (CPL.HEAD_STAT_PENDING m.toNat) 1).get q = s.get q := fun q hq =>
    (State.get_countBy_ne _ _ _ _ (hkeys q hq).1).trans (s.get_count_ne _ _ (hkeys q hq).2)
  simp only [State.tagDrives, State.owns, State.twin, State.failSilent, State.flag, hget _ (List.mem_cons_self ..),
    hget _ (List.mem_cons_of_mem _ (List.mem_cons_self ..)), hget _ (List.mem_cons_of_mem _ (List.mem_cons_of_mem _ (List.mem_cons_self ..)))]

section
variable (hact : s.tagActive m.toNat = true)
include hact

section
variable {u : State} (hu : u = (s.count (CPL.LOCAL_MATES m.toNat)).countBy (CPL.HEAD_STAT_PENDING m.toNat) 1)
include hu

theorem exec_tagSession_heard (hdrv : s.tagDrives = false) : exec (.tagSession m) s = .next u := by
  subst hu
  change Host.Outcome.next (s.tagSession m.toNat) = _
  simp only [State.tagSession, hact, s.tagDrives_closing m, hdrv, Bool.not_true, Bool.not_false, Bool.false_eq_true, if_false, if_true]

/-- Where this chip drives the tags, what a closing does depends on the step of the session in progress (R416). -/
theorem exec_tagSession_driven (hdrv : s.tagDrives = true) : exec (.tagSession m) s = .next (match (s.tag m.toNat).step with
    | .idle => u.startSession m.toNat
    | .margin => (u.withTag m.toNat fun x => { x with restart := true }).endSession m.toNat
    | _ => u.withTag m.toNat fun x => { x with restart := true }) := by
  subst hu
  change Host.Outcome.next (s.tagSession m.toNat) = _
  simp only [State.tagSession, hact, s.tagDrives_closing m, hdrv, Bool.not_true, Bool.false_eq_true, if_false]
  rfl

end

/-! ## Responses and timeouts -/

section
variable (request response : List Byte)

theorem exec_tagResponseRx_active : exec (.tagResponseRx m request response) s = .next (s.tagResponse m.toNat request response) :=
  congrArg Host.Outcome.next (if_pos hact)

theorem exec_tagResponseRx_noFrame (h : readTagFrame 0x5C response = none) :
    exec (.tagResponseRx m request response) s = .next (s.count (CPL.TAG_CRC_ERR_CNT m.toNat)) := by
  rw [exec_tagResponseRx_active s m hact, State.tagResponse, h]

section
variable {status seq : Byte} {d : List Byte} (hframe : readTagFrame 0x5C response = some (status, seq, d))
include hframe

/-- A response while a request waits answers it, where it bears its number. -/
theorem exec_tagResponseRx_asked (hreq : (s.tag m.toNat).request ≠ []) : exec (.tagResponseRx m request response) s
    = .next (if seq != (s.tag m.toNat).seq then s else s.tagAnswered m.toNat status seq d) := by
  have hsome : (s.tag m.toNat).request.isEmpty = false := Bool.eq_false_iff.2 fun h => hreq (List.isEmpty_iff.1 h)
  rw [exec_tagResponseRx_active s m hact, State.tagResponse, hframe]
  simp only [hsome, Bool.not_false, Bool.or_true, if_true, Bool.false_or]

theorem exec_tagResponseRx_overheard {cmd qseq : Byte} {q : List Byte} (hreq : (s.tag m.toNat).request = []) (hdrv : s.tagDrives = false)
    (hq : readTagFrame 0xC5 request = some (cmd, qseq, q)) (hseq : qseq = seq) :
    exec (.tagResponseRx m request response) s = .next (s.tagOverheard m.toNat cmd seq q status d) := by
  rw [exec_tagResponseRx_active s m hact, State.tagResponse, hframe]
  simp only [hdrv, hreq, List.isEmpty_nil, Bool.not_true, Bool.or_false, Bool.false_eq_true, if_false, hq, if_pos hseq]

end

end

theorem exec_tagTimeout_unasked (hreq : (s.tag m.toNat).request = []) : exec (.tagTimeout m) s = .next s :=
  congrArg Host.Outcome.next ((if_pos hact).trans (if_pos (by rw [hreq]; rfl)))

theorem exec_tagTimeout_asked {u : State} (hu : u = s.count (CPL.TAG_TMO_CNT m.toNat)) (hreq : (s.tag m.toNat).request ≠ []) :
    exec (.tagTimeout m) s = .next (u.goOn m.toNat fun t => if (s.tag m.toNat).tries < 3
      then (t.withTag m.toNat fun x => { x with tries := x.tries + 1 }).sendTag m.toNat else t.tagGiveUp m.toNat) := by
  subst hu
  exact congrArg Host.Outcome.next ((if_pos hact).trans (if_neg fun h => hreq (List.isEmpty_iff.1 h)))

/-! ## Margin samples -/

theorem exec_marginSample_active (linked : Bool) (reads : List (Option (BitVec 16))) :
    exec (.marginSample m linked reads) s = .next (s.marginSample m.toNat linked reads) := congrArg Host.Outcome.next (if_pos hact)

theorem exec_marginSample_none {linked : Bool} (reads : List (Option (BitVec 16)))
    (h : (s.tag m.toNat).step ≠ .margin ∨ linked = true ∧ s.sampleDue m.toNat = false) : exec (.marginSample m linked reads) s = .next s := by
  refine (exec_marginSample_active s m hact _ _).trans (congrArg Host.Outcome.next (if_pos ?_))
  rcases h with h | ⟨hl, hd⟩
  · rw [bne_iff_ne.2 h, Bool.true_or]
  · rw [hl, hd]; exact Bool.or_true _

section
variable (hstep : (s.tag m.toNat).step = .margin)
include hstep

omit hact in
theorem exec_marginSample_taken {linked : Bool} (hdue : linked = false ∨ s.sampleDue m.toNat = true) :
    ¬ ((s.tag m.toNat).step != .margin || (linked && !s.sampleDue m.toNat)) = true := by
  rw [hstep]
  rcases hdue with h | h <;> simp [h]

theorem exec_marginSample_cutShort {linked : Bool} (reads : List (Option (BitVec 16))) (hdue : linked = false ∨ s.sampleDue m.toNat = true)
    (hcut : s.tagCutShort m.toNat = true) : exec (.marginSample m linked reads) s = .next (s.endSession m.toNat) :=
  (exec_marginSample_active s m hact _ _).trans
    (congrArg Host.Outcome.next ((if_neg (exec_marginSample_taken s m hstep hdue)).trans (if_pos hcut)))

section
variable (hcut : s.tagCutShort m.toNat = false)
include hcut

/-- Without a link the sample is empty, and its run of low ones grows. -/
theorem exec_marginSample_unlinked (reads : List (Option (BitVec 16))) {u : State}
    (hu : u = ((s.countBy (CPL.MDIO_ERR_CNT m.toNat) 0).withTag m.toNat fun x =>
      { x with sampled := none, lowRun := min 255 (x.lowRun + 1) }).evalWear m.toNat) :
    exec (.marginSample m false reads) s = .next (if (u.tag m.toNat).auth = 1
      then (u.withTag m.toNat fun x => { x with events := 1 :: x.events }).stepLog m.toNat else u.endSession m.toNat) := by
  subst hu
  exact (exec_marginSample_active s m hact _ _).trans (congrArg Host.Outcome.next
    ((if_neg (exec_marginSample_taken s m hstep (.inl rfl))).trans (if_neg (Bool.eq_false_iff.1 hcut))))

/-- On a link that is up the sample is the least margin of its reads. -/
theorem exec_marginSample_linked (reads : List (Option (BitVec 16))) {u w : State} {v : Int} (hdue : s.sampleDue m.toNat = true)
    (hen : s.flag (CPL.PORT_CFG_MDIO_EN m.toNat) = true)
    (hu : u = s.countBy (CPL.MDIO_ERR_CNT m.toNat) ((reads.take 16).filter Option.isNone).length)
    (hv : u.sampleOf m.toNat (reads.take 16) = some v)
    (hw : w = (u.withTag m.toNat fun x =>
      { x with sampled := some v, lowRun := if v < (u.tag m.toNat).floor then min 255 (x.lowRun + 1) else 0 }).evalWear m.toNat)
    (hdrift : drifts (w.tag m.toNat).margins v (w.get CPL.TREND_DROP) = false) :
    exec (.marginSample m true reads) s = .next (if (w.tag m.toNat).auth = 1
      then (w.withTag m.toNat fun x => { x with events := 1 :: x.events }).stepLog m.toNat else w.endSession m.toNat) := by
  rw [exec_marginSample_active s m hact, State.marginSample, if_neg (exec_marginSample_taken s m hstep (.inr hdue)),
    if_neg (Bool.eq_false_iff.1 hcut)]
  simp only [hen, Bool.true_and, if_true, ← hu, hv, decide_eq_true_eq, ← hw, hdrift, State.when_false]

end

end

end

/-! ## A link that is not active -/

section
variable (hact : s.tagActive m.toNat = false)
include hact

theorem exec_tagSession_inactive : exec (.tagSession m) s = .next s := congrArg Host.Outcome.next (if_pos (by rw [hact]; rfl))

theorem exec_tagResponseRx_inactive (request response : List Byte) : exec (.tagResponseRx m request response) s = .next s :=
  congrArg Host.Outcome.next (if_neg (Bool.eq_false_iff.1 hact))

theorem exec_tagTimeout_inactive : exec (.tagTimeout m) s = .next s := congrArg Host.Outcome.next (if_neg (Bool.eq_false_iff.1 hact))

theorem exec_marginSample_inactive (linked : Bool) (reads : List (Option (BitVec 16))) : exec (.marginSample m linked reads) s = .next s :=
  congrArg Host.Outcome.next (if_neg (Bool.eq_false_iff.1 hact))

end

end

end Sys2Proof.Machine

namespace Sys2Proof.Proofs

open Sys2Proof.Machine

/-- Settles O53: the equations of the tag links' commands, by the step of the session, the request that waits and the sample. -/
theorem tagCommands : Obligations.TagCommands := by
  intro s m
  refine ⟨fun hact => ⟨fun u hu => ⟨fun hdrv => exec_tagSession_heard s m hact hu hdrv, fun hdrv hstep => ?idle, fun hdrv hstep => ?margin,
      fun hdrv hidle hmargin => ?other⟩,
    fun request response h => exec_tagResponseRx_noFrame s m hact request response h,
    fun request response status seq d hf hreq => ⟨fun hseq => ?answer, fun hseq => ?stray⟩,
    fun request response status seq d cmd qseq q hf hreq hdrv hq hseq => exec_tagResponseRx_overheard s m hact request response hf hreq hdrv hq hseq,
    fun hreq => exec_tagTimeout_unasked s m hact hreq,
    fun u hu hreq => ⟨fun htries => ?again, fun htries => ?giveUp⟩,
    fun reads h => exec_marginSample_none s m hact reads (h.imp id fun hd => ⟨rfl, hd⟩),
    fun reads h => exec_marginSample_none s m hact reads (.inl h),
    fun reads hstep hdue hcut => exec_marginSample_cutShort s m hact hstep reads (.inr hdue) hcut,
    fun reads hstep hcut => exec_marginSample_cutShort s m hact hstep reads (.inl rfl) hcut,
    fun u reads hstep hcut hu => ⟨fun hauth => ?unproved, fun hauth => ?proved⟩,
    fun u w reads v hstep hdue hcut hen hu hv hw hdrift => ⟨fun hauth => ?unprovedLinked, fun hauth => ?provedLinked⟩⟩,
    fun hact request response linked reads => ⟨exec_tagSession_inactive s m hact, exec_tagResponseRx_inactive s m hact request response,
      exec_tagTimeout_inactive s m hact, exec_marginSample_inactive s m hact linked reads⟩⟩
  case idle => rw [exec_tagSession_driven s m hact hu hdrv, hstep]
  case margin => rw [exec_tagSession_driven s m hact hu hdrv, hstep]
  case other =>
    rw [exec_tagSession_driven s m hact hu hdrv]
    split
    case h_1 h => exact absurd h hidle
    case h_2 h => exact absurd h hmargin
    case h_3 => rfl
  case answer => rw [exec_tagResponseRx_asked s m hact request response hf hreq, hseq, if_neg (by rw [bne_self_eq_false]; exact Bool.false_ne_true)]
  case stray => rw [exec_tagResponseRx_asked s m hact request response hf hreq, if_pos (bne_iff_ne.2 hseq)]
  case again => rw [exec_tagTimeout_asked s m hact hu hreq]; simp only [if_pos htries]
  case giveUp => rw [exec_tagTimeout_asked s m hact hu hreq]; simp only [if_neg (Nat.not_lt.2 htries)]
  case unproved => rw [exec_marginSample_unlinked s m hact hstep hcut reads hu, if_neg hauth]
  case proved => rw [exec_marginSample_unlinked s m hact hstep hcut reads hu, if_pos hauth]
  case unprovedLinked => rw [exec_marginSample_linked s m hact hstep hcut reads hdue hen hu hv hw hdrift, if_neg hauth]
  case provedLinked => rw [exec_marginSample_linked s m hact hstep hcut reads hdue hen hu hv hw hdrift, if_pos hauth]

end Sys2Proof.Proofs

end

section
/-! Supplies and clocks (R432 to R443): one equation per command and case. -/

namespace Sys2Proof.Machine

/-! ## Bits -/

theorem testBit_withBit_same (v i : Nat) (b : Bool) : (withBit v i b).testBit i = b := by
  unfold withBit
  cases b
  · rw [if_neg Bool.false_ne_true]
    split
    case isTrue h =>
      have hand : v &&& 2 ^ i = 2 ^ i := by rw [Nat.and_two_pow, h, Bool.toNat_true, one_mul]
      have hsub := testBit_sub_and v (2 ^ i) i
      rw [hand, Nat.testBit_two_pow_self, Bool.not_true, Bool.and_false] at hsub
      exact hsub
    case isFalse h => exact Bool.eq_false_iff.2 h
  · rw [if_pos rfl, Nat.testBit_or, Nat.testBit_two_pow_self, Bool.or_true]

section
variable (s : State)

/-! ## A write of PD_CTRL -/

/-- The domain that switches with another in a LOCKED pair (R47, R434). -/
def State.pdPartner (d : Nat) : Option Nat := if !s.lockedMode then none else match d with
  | 4 => some 6 | 6 => some 4 | 5 => some 7 | 7 => some 5 | _ => none

/-- What a write of PD_CTRL asks of a domain. -/
def State.pdWant (v d : Nat) : Bool :=
  match s.pdPartner d with
  | some e => if bitOf v d != bitOf (s.get PWR.PD_CTRL) d then bitOf v d else bitOf v e
  | none => bitOf v d

/-- The switch is queued. -/
def State.pdQueue (d : Nat) (on : Bool) : State :=
  let t := (s.stampConfig .pwr).set PWR.PD_CTRL (withBit (s.get PWR.PD_CTRL) d on)
  { t with power := { t.power with queue := t.power.queue ++ [(d, on)] } }

/-- The switch is refused. -/
def State.pdRefuse : State := (s.countRaise PWR.PD_REFUSED_CNT .pwr 12).refuse .pwr

/-- A write of PD_CTRL at one domain of the state `t` reached so far. -/
def State.pdStep (v d : Nat) (t : State) : State :=
  if s.pdWant v d = bitOf (s.get PWR.PD_CTRL) d then t
  else if (d :: (s.pdPartner d).toList).all fun e => t.mayPower e (s.pdWant v d) then t.pdQueue d (s.pdWant v d) else t.pdRefuse

/-- The sequencer's queue is shown. -/
def State.showQueue : State := s.setFlag PWR.PD_STAT_SEQ_BUSY (!s.power.queue.isEmpty)

theorem State.writePdCtrl_eq (v : Nat) : s.writePdCtrl v = (s.each (List.range 16) (s.pdStep v)).showQueue := rfl

theorem State.pdPartner_alone {d : Nat} (h : s.lockedMode = false ∨ d < 4 ∨ 7 < d) : s.pdPartner d = none := by
  unfold State.pdPartner
  rcases h with h | h
  · rw [h]; rfl
  · split
    · rfl
    · split
      case h_5 => rfl
      all_goals omega

/-- A partner is of the other channel, at the same place. -/
theorem State.pdPartner_some {d e : Nat} (h : s.pdPartner d = some e) :
    s.lockedMode = true ∧ (d = 4 ∧ e = 6 ∨ d = 6 ∧ e = 4 ∨ d = 5 ∧ e = 7 ∨ d = 7 ∧ e = 5) := by
  unfold State.pdPartner at h
  split at h
  · cases h
  · rename_i hlocked
    refine ⟨by simpa using hlocked, ?_⟩
    split at h <;> cases h <;> decide

section
variable {v : Word} {d : Nat} {on : Bool}
  (hmode : s.lockedMode = false ∨ (d < 4 ∨ 7 < d) ∧ bitOf (s.get PWR.PD_CTRL) 4 = bitOf (s.get PWR.PD_CTRL) 6
    ∧ bitOf (s.get PWR.PD_CTRL) 5 = bitOf (s.get PWR.PD_CTRL) 7)
  (hsame : ∀ e, e < 16 → e ≠ d → bitOf v.toNat e = bitOf (s.get PWR.PD_CTRL) e)

section
include hmode hsame

/-- A write that moves one domain asks every other one for what PD_CTRL holds. -/
theorem State.pdWant_other {e : Nat} (he : e < 16) (hne : e ≠ d) : s.pdWant v.toNat e = bitOf (s.get PWR.PD_CTRL) e := by
  unfold State.pdWant
  cases hp : s.pdPartner e with
  | none => exact hsame e he hne
  | some f =>
    obtain ⟨hlocked, hpair⟩ := s.pdPartner_some hp
    obtain ⟨hd, h46, h57⟩ := hmode.resolve_left (by rw [hlocked]; decide)
    have hf := hsame f (by omega) (by omega)
    simp only [hsame e he hne, bne_self_eq_false, Bool.false_eq_true, if_false, hf]
    rcases hpair with ⟨rfl, rfl⟩ | ⟨rfl, rfl⟩ | ⟨rfl, rfl⟩ | ⟨rfl, rfl⟩
    exacts [h46.symm, h46, h57.symm, h57]

/-- So the write acts at its domain alone. -/
theorem State.writePdCtrl_one (hd : d < 16) : s.writePdCtrl v.toNat = (s.pdStep v.toNat d s).showQueue := by
  rw [State.writePdCtrl_eq]
  exact congrArg State.showQueue (State.each_observe_at id (s.pdStep v.toNat d) (List.mem_range.2 hd) List.nodup_range (fun _ => rfl)
    (fun e he hne t => if_pos (s.pdWant_other hmode hsame (List.mem_range.1 he) hne)) s)

end

include hmode

theorem State.pdStep_moved (hv : bitOf v.toNat d = on) (hcur : bitOf (s.get PWR.PD_CTRL) d = !on) :
    s.pdStep v.toNat d s = if s.mayPower d on then s.pdQueue d on else s.pdRefuse := by
  have hpartner : s.pdPartner d = none := s.pdPartner_alone (hmode.imp id And.left)
  have hwant : s.pdWant v.toNat d = on := by unfold State.pdWant; rw [hpartner]; exact hv
  rw [State.pdStep, hwant, hcur, hpartner, if_neg (by cases on <;> decide), Option.toList_none, List.all_cons, List.all_nil, Bool.and_true]

end

/-- A queued switch: the request stands behind the others and PD_CTRL shows it. -/
theorem State.pdQueue_result {d : Nat} (on : Bool) (hd : d < 16) :
    (s.pdQueue d on).showQueue.power.queue = s.power.queue ++ [(d, on)] ∧ bitOf ((s.pdQueue d on).showQueue.get PWR.PD_CTRL) d = on := by
  refine ⟨rfl, ?_⟩
  have hget : (s.pdQueue d on).showQueue.get PWR.PD_CTRL = withBit (s.get PWR.PD_CTRL) d on % 2 ^ PWR.PD_CTRL.width :=
    (State.get_setFlag_ne _ _ _ _ (by decide)).trans (State.get_set (s.stampConfig .pwr) _ _)
  rw [hget, bitOf, Nat.testBit_mod_two_pow, testBit_withBit_same, decide_eq_true (show d < PWR.PD_CTRL.width from hd), Bool.true_and]

theorem State.pdRefuse_get {q : Reg} (hq : q.key ∉ (errInfo .pwr).map Reg.key) (hbusy : q.key ≠ PWR.PD_STAT_SEQ_BUSY.key) :
    s.pdRefuse.showQueue.get q = (s.countRaise PWR.PD_REFUSED_CNT .pwr 12).get q :=
  (State.get_setFlag_ne _ _ _ _ hbusy).trans (State.get_noteError_ne _ _ _ _ _ _ _ q hq)

/-- A refused switch is counted; nothing is queued and PD_CTRL stays. -/
theorem State.pdRefuse_result : s.pdRefuse.showQueue.power.queue = s.power.queue ∧ s.pdRefuse.showQueue.get PWR.PD_CTRL = s.get PWR.PD_CTRL
    ∧ s.pdRefuse.showQueue.get PWR.PD_REFUSED_CNT = min (s.get PWR.PD_REFUSED_CNT + 1) (2 ^ PWR.PD_REFUSED_CNT.width - 1) := by
  refine ⟨?queue, ?ctrl, ?count⟩
  case queue =>
    have hpower := congrArg State.power ((s.countRaise PWR.PD_REFUSED_CNT .pwr 12).refuse_besidesRegs .pwr)
    exact congrArg Power.queue hpower
  case ctrl => exact (s.pdRefuse_get (by decide) (by decide)).trans (State.get_countRaise_ne _ _ _ _ _ (by decide) (by decide))
  case count =>
    refine (s.pdRefuse_get (by decide) (by decide)).trans ((State.get_raise_ne _ _ _ _ (by decide)).trans (State.get_count _ _))

theorem State.pdStep_rest (v d : Nat) : (s.pdStep v d s).showQueue.mem = s.mem ∧ (s.pdStep v d s).showQueue.sent = s.sent := by
  have hmem := congrArg State.mem ((s.countRaise PWR.PD_REFUSED_CNT .pwr 12).refuse_besidesRegs .pwr)
  have hsent := congrArg State.sent ((s.countRaise PWR.PD_REFUSED_CNT .pwr 12).refuse_besidesRegs .pwr)
  unfold State.pdStep
  split
  · exact ⟨rfl, rfl⟩
  · split
    · exact ⟨rfl, rfl⟩
    · exact ⟨hmem, hsent⟩

/-! ## The sequencer -/

theorem State.leaveProof_power (t cell : Nat) (failed : Bool) : (s.leaveProof t cell failed).power = s.power :=
  State.ite_observe State.power rfl rfl

theorem State.endRuns_power : s.endRuns.power = s.power := by
  have hrun : ∀ (t : Nat) (u : State), (match (u.rotation t).run with
      | some r => u.leaveProof t r.cell (r.ended == some 2)
      | none => u).power = u.power := fun t u => by
    split
    · exact u.leaveProof_power _ _ _
    · rfl
  unfold State.endRuns
  dsimp only
  split
  · exact State.each_observe State.power (fun t _ u => hrun t u) s
  · refine (State.when_observe State.power (fun _ => by rfl) _ _).trans ((State.each_observe State.power (fun _ _ _ => by rfl) _).trans ?_)
    exact State.each_observe State.power (fun t _ u => hrun t u) s

theorem State.showDrafts_power : s.showDrafts.power = s.power := by
  unfold State.showDrafts
  dsimp only
  exact State.each_observe State.power (fun _ _ _ => by rfl) s

theorem State.showRole_power (c : Line) (r : Nat) : (s.showRole c r).power = s.power := by
  unfold State.showRole
  split <;> rfl

theorem State.withRoleOf_power (c : Line) (r : Nat) (f : Role → Role) : (s.withRoleOf c r f).power = s.power := by
  cases c <;> exact State.showRole_power _ _ _

theorem State.resetBlock_power (p : Page) : (s.resetBlock p).power = s.power := by
  cases p with
  | gtb l => exact s.withLine_power l _
  | loaf c => exact (State.showDrafts_power _).trans (s.withLoaf_power c _)
  | knd c => exact s.withKneader_power c _
  | eng c i =>
    simp only [State.resetBlock]
    split
    · exact s.withRoleOf_power _ _ _
    · rfl
  | prf => exact s.endRuns_power
  | _ => rfl

/-- Switching a domain leaves the sequencer's own record. -/
theorem State.resetDomain_power (d : Nat) : (s.resetDomain d).power = s.power := by
  unfold State.resetDomain
  dsimp only
  refine (State.when_observe State.power (fun _ => State.each_observe State.power (fun _ _ _ => by rfl) _) _ _).trans ?_
  refine (State.when_observe State.power (fun _ => by rfl) _ _).trans ?_
  refine (State.when_observe State.power (fun _ => by rfl) _ _).trans ?_
  refine (State.when_observe State.power (fun _ => by rfl) _ _).trans ?_
  refine (State.each_observe State.power (fun _ _ _ => by rfl) _).trans ?_
  refine (State.each_observe State.power (fun _ _ _ => State.when_observe State.power (fun _ => by rfl) _ _) _).trans ?_
  refine State.each_observe State.power (fun p _ t => Eq.trans ?_ (t.resetBlock_power p)) s
  split
  · exact State.ite_observe State.power rfl rfl
  · split
    · exact (State.showRole_power _ _ _).trans (State.withRoleOf_power _ _ _ _)
    · rfl
  · rfl

/-- What the completed switch of a domain that comes up gives. -/
def State.switchedOn (d : Nat) : State :=
  ((s.showLocks d).when (d = 1) State.loadOtp).when (d = 14) fun t => t.setFlag TWIN.TWIN_STAT_SENIOR (!t.flag PWR.STRAP_TWIN_ID)

/-- The sequencer takes a switch from its queue and shows it. -/
def State.takeSwitch (d : Nat) (on : Bool) : State :=
  let t := s.resetDomain d
  let t := { t with power := { t.power with queue := t.power.queue.erase (d, on) } }
  t.set PWR.PD_STAT_ON (withBit (t.get PWR.PD_STAT_ON) d on)

/-- The sequencer shows what is left of its queue, and the lines are looked at anew. -/
def State.endSwitch (before : State) : State :=
  (s.showQueue.when s.showQueue.power.queue.isEmpty fun t => t.raise .pwr 11).recheckLines before

theorem State.showLocks_power (d : Nat) : (s.showLocks d).power = s.power := by
  unfold State.showLocks
  split <;> rfl

theorem State.switchedOn_power (d : Nat) : (s.switchedOn d).power = s.power := by
  unfold State.switchedOn
  refine (State.when_observe State.power (fun _ => by rfl) _ _).trans ((State.when_observe State.power (fun t => ?_) _ _).trans (s.showLocks_power d))
  exact t.loadOtp_observe State.power (fun _ _ _ => rfl)

theorem State.completeSwitch_of_find {d : Nat} {on : Bool} (hheld : s.power.held = false)
    (hfind : (s.power.queue.find? fun q => !q.2 || !s.flag PWR.SUP_STAT_BO_ACTIVE) = some (d, on)) :
    s.completeSwitch = ((s.takeSwitch d on).when on fun t => t.switchedOn d).endSwitch s := by
  unfold State.completeSwitch
  rw [if_neg (by rw [hheld]; exact Bool.false_ne_true), hfind]
  cases on
  · dsimp only
    simp only [Bool.and_false, State.when_false]
    rfl
  · dsimp only
    simp only [Bool.and_true, State.when_true]
    rfl

theorem State.endSwitch_empty (before : State) (h : s.power.queue = []) :
    s.endSwitch before = ((s.setFlag PWR.PD_STAT_SEQ_BUSY false).raise .pwr 11).recheckLines before := by
  unfold State.endSwitch State.showQueue
  rw [State.setFlag_power, h, List.isEmpty_nil, State.when_true, Bool.not_true]

/-- A switch that alone waits completes, and the queue is empty. -/
theorem State.completeSwitch_only {d : Nat} {on : Bool} {u : State} (hheld : s.power.held = false) (hqueue : s.power.queue = [(d, on)])
    (hbo : on = true → s.flag PWR.SUP_STAT_BO_ACTIVE = false)
    (hu : u = ({ s.resetDomain d with power := { s.power with queue := [] } } : State).set PWR.PD_STAT_ON (withBit ((s.resetDomain d).get PWR.PD_STAT_ON) d on)) :
    s.completeSwitch = (((u.when on fun t => t.switchedOn d).setFlag PWR.PD_STAT_SEQ_BUSY false).raise .pwr 11).recheckLines s := by
  have hfind : (s.power.queue.find? fun q => !q.2 || !s.flag PWR.SUP_STAT_BO_ACTIVE) = some (d, on) := by
    rw [hqueue]
    refine List.find?_cons_of_pos ?_
    cases on with
    | false => rfl
    | true => simp only [hbo rfl, Bool.not_false, Bool.or_true]
  have htake : s.takeSwitch d on = u := by
    rw [hu, State.takeSwitch]
    dsimp only
    rw [s.resetDomain_power, hqueue, List.erase_cons_head]
    rfl
  have hempty : (u.when on fun t => t.switchedOn d).power.queue = [] :=
    (congrArg Power.queue (State.when_observe State.power (fun t => t.switchedOn_power d) on u)).trans (by rw [hu]; rfl)
  rw [s.completeSwitch_of_find hheld hfind, htake, State.endSwitch_empty _ _ hempty]

theorem State.completeSwitch_none (h : s.power.held = true ∨ s.power.queue = []) : s.completeSwitch = s := by
  rcases h with h | h
  · exact if_pos h
  · unfold State.completeSwitch
    rw [h]
    exact ite_self _

/-! ## The brown-out monitor -/

/-- Outside WARN none of the three timers of the monitor does anything in NORMAL. -/
theorem exec_boRecover_normal (h : s.get PWR.SUP_STAT_BO_STATE = boNORMAL) : exec .boRecover s = .next s :=
  congrArg Host.Outcome.next (if_neg (by rw [h]; decide))

theorem exec_boRecover_warned (h : s.get PWR.SUP_STAT_BO_STATE = boWARN) :
    exec .boRecover s = .next ((s.monitor (s.power.boSpent + s.monitored)).set PWR.SUP_STAT_BO_STATE boRECOVER) :=
  congrArg Host.Outcome.next (if_pos h)

theorem exec_brownoutWarn_again (h : s.get PWR.SUP_STAT_BO_STATE = boWARN) (mv : BitVec 12) : exec (.brownoutWarn mv) s = .next (s.readVdd mv.toNat) :=
  congrArg Host.Outcome.next (if_pos h)

theorem exec_brownoutWarn_first (h : s.get PWR.SUP_STAT_BO_STATE ≠ boWARN) (mv : BitVec 12) {u : State}
    (hu : u = (((((s.monitor (if s.get PWR.SUP_STAT_BO_STATE = boNORMAL then 0 else s.power.boSpent)).readVdd mv.toNat).set PWR.SUP_STAT_BO_STATE boWARN).setFlag
      PWR.SUP_STAT_BO_ACTIVE true).updateFlag PWR.RST_CAUSE_BO_SEEN)) :
    exec (.brownoutWarn mv) s = .next { ((u.countRaise PWR.BO_WARN_CNT .pwr 8).renameAborts.excursion 6) with brownoutMark := true } := by
  subst hu
  exact congrArg Host.Outcome.next (if_neg h)

theorem exec_brownoutLong_counts (h : s.get PWR.SUP_STAT_BO_STATE = boWARN) (hlong : s.flag PWR.SUP_STAT_BO_LONG = false)
    (htime : 50000 ≤ s.power.boSpent + s.monitored) :
    exec .brownoutLong s = .next (((s.setFlag PWR.SUP_STAT_BO_LONG true).countRaise PWR.BO_LONG_CNT .pwr 9).tryHandover s.handoverTick) :=
  congrArg Host.Outcome.next (if_pos (by rw [decide_eq_true h, hlong, decide_eq_true htime]; rfl))

theorem exec_brownoutLong_none (h : s.get PWR.SUP_STAT_BO_STATE ≠ boWARN ∨ s.power.boSpent + s.monitored < 50000) : exec .brownoutLong s = .next s := by
  refine congrArg Host.Outcome.next (if_neg ?_)
  rcases h with h | h
  · rw [decide_eq_false h]; exact Bool.false_ne_true
  · rw [decide_eq_false (Nat.not_le.2 h), Bool.and_false]; exact Bool.false_ne_true

theorem exec_brownoutEnd_recovered (h : s.get PWR.SUP_STAT_BO_STATE = boRECOVER) (htime : 1000000 ≤ s.monitored) (hwait : s.sec.waiting = none) :
    exec .brownoutEnd s = .next ((((s.set PWR.SUP_STAT_BO_STATE boNORMAL).setFlag PWR.SUP_STAT_BO_ACTIVE false).setFlag PWR.SUP_STAT_BO_LONG false).raise .pwr 10) := by
  have hwaiting : ((((s.set PWR.SUP_STAT_BO_STATE boNORMAL).setFlag PWR.SUP_STAT_BO_ACTIVE false).setFlag PWR.SUP_STAT_BO_LONG false).raise .pwr 10).sec.waiting = none := by
    rw [State.raise_sec, State.setFlag_sec, State.setFlag_sec, State.set_sec, hwait]
  change Host.Outcome.next s.brownoutEnd = _
  rw [State.brownoutEnd, if_pos (by rw [decide_eq_true h, decide_eq_true htime]; rfl)]
  simp only [hwaiting]

theorem exec_brownoutEnd_none (h : s.get PWR.SUP_STAT_BO_STATE ≠ boRECOVER ∨ s.monitored < 1000000) : exec .brownoutEnd s = .next s := by
  refine congrArg Host.Outcome.next (if_neg ?_)
  rcases h with h | h
  · rw [decide_eq_false h]; exact Bool.false_ne_true
  · rw [decide_eq_false (Nat.not_le.2 h), Bool.and_false]; exact Bool.false_ne_true

/-! ## Core voltage, temperature and clocks -/

theorem exec_vddWindowExcursion_inside (mv : BitVec 12) (h : s.flag PWR.SUP_STAT_VDD_WIN = false ∨ (s.readVdd mv.toNat).flag PWR.SUP_STAT_VDD_WIN = true) :
    exec (.vddWindowExcursion mv) s = .next (s.readVdd mv.toNat) := by
  refine congrArg Host.Outcome.next (if_pos ?_)
  rcases h with h | h
  · rw [h]; exact Bool.or_true _
  · rw [h]; exact Bool.true_or _

theorem exec_vddWindowExcursion_left (mv : BitVec 12) {u : State} (hu : u = s.readVdd mv.toNat) (hwas : s.flag PWR.SUP_STAT_VDD_WIN = true)
    (hnow : u.flag PWR.SUP_STAT_VDD_WIN = false) : exec (.vddWindowExcursion mv) s
      = .next { u.excursion 3 with proof := { (u.excursion 3).proof with vddAborted := some ((u.excursion 3).ltcNs, u.runningTargets) } } := by
  subst hu
  exact congrArg Host.Outcome.next (if_neg (by rw [hnow, hwas]; exact Bool.false_ne_true))

theorem exec_tjRange_inside (t : BitVec 12) (hlo : -160 ≤ t.toInt) (hhi : t.toInt ≤ 500) :
    exec (.tjRange t) s = .next ((s.set PWR.TJ t.toNat).setFlag PWR.SUP_STAT_TJ_WIN true) := by
  change Host.Outcome.next (s.tjSample t) = _
  rw [State.tjSample, decide_eq_true hlo, decide_eq_true hhi, Bool.and_self, if_pos rfl]

theorem exec_tjRange_outside (t : BitVec 12) (h : t.toInt < -160 ∨ 500 < t.toInt) :
    exec (.tjRange t) s = .next ((((s.set PWR.TJ t.toNat).setFlag PWR.SUP_STAT_TJ_WIN false).raise .pwr 13).excursion 5) := by
  have hout : (decide (-160 ≤ t.toInt) && decide (t.toInt ≤ 500)) = false := by
    rcases h with h | h
    · rw [decide_eq_false (not_le.2 h), Bool.false_and]
    · rw [decide_eq_false (not_le.2 h), Bool.and_false]
  change Host.Outcome.next (s.tjSample t) = _
  rw [State.tjSample, hout]
  rw [if_neg Bool.false_ne_true]

/-- What a reading of all clocks inside their windows shows. -/
def State.clocksGood (ref fab eng : Nat) : State :=
  (((((((s.set CLK.GOC_REF ref).set CLK.GOC_FAB fab).set CLK.GOC_ENG eng).setFlag CLK.CLK_STAT_GRD_OK true).setFlag CLK.CLK_STAT_REF_OK true).setFlag
    CLK.CLK_STAT_FAB_OK true).setFlag CLK.CLK_STAT_ENG_OK true)

theorem State.gocWindow_inside {ref fab eng : Nat} (href : 248 ≤ ref ∧ ref ≤ 252) (hfab : 3980 ≤ fab ∧ fab ≤ 4020) (heng : 7960 ≤ eng ∧ eng ≤ 8040) :
    s.gocWindow ref fab eng false = { s.clocksGood ref fab eng with power := { s.power with deviating := false } } := by
  have hwide : (3960 ≤ fab ∧ fab ≤ 4040) ∧ 7920 ≤ eng ∧ eng ≤ 8080 := by omega
  obtain ⟨hfabWide, hengWide⟩ := hwide
  simp only [State.gocWindow, decide_eq_true href.1, decide_eq_true href.2, decide_eq_true hfab.1, decide_eq_true hfab.2, decide_eq_true heng.1,
    decide_eq_true heng.2, decide_eq_true hfabWide.1, decide_eq_true hfabWide.2, decide_eq_true hengWide.1, decide_eq_true hengWide.2, Bool.and_self,
    Bool.not_true, Bool.not_false, Bool.or_self, Bool.false_and, if_true, State.when_false, State.clocksGood, State.setFlag_power, State.set_power]

theorem State.clocksGood_mem (ref fab eng : Nat) : (s.clocksGood ref fab eng).mem = s.mem := by
  simp only [State.clocksGood, State.setFlag_mem, State.set_mem]

theorem State.flag_withPower (p : Power) (r : Reg) : ({ s with power := p } : State).flag r = s.flag r := rfl

/-- The four clocks are shown as good, and no deviation is counted. -/
theorem State.clocksGood_fields (ref fab eng : Nat) : (s.clocksGood ref fab eng).flag CLK.CLK_STAT_GRD_OK = true
    ∧ (s.clocksGood ref fab eng).flag CLK.CLK_STAT_REF_OK = true ∧ (s.clocksGood ref fab eng).flag CLK.CLK_STAT_FAB_OK = true
    ∧ (s.clocksGood ref fab eng).flag CLK.CLK_STAT_ENG_OK = true ∧ (s.clocksGood ref fab eng).get CLK.GOC_DEV_CNT = s.get CLK.GOC_DEV_CNT := by
  unfold State.clocksGood
  refine ⟨?grd, ?ref, ?fab, ?eng, ?dev⟩
  case grd =>
    rw [State.flag_setFlag_ne _ _ _ _ (by decide), State.flag_setFlag_ne _ _ _ _ (by decide), State.flag_setFlag_ne _ _ _ _ (by decide), State.flag_setFlag _ _ _ (by decide)]
  case ref => rw [State.flag_setFlag_ne _ _ _ _ (by decide), State.flag_setFlag_ne _ _ _ _ (by decide), State.flag_setFlag _ _ _ (by decide)]
  case fab => rw [State.flag_setFlag_ne _ _ _ _ (by decide), State.flag_setFlag _ _ _ (by decide)]
  case eng => rw [State.flag_setFlag _ _ _ (by decide)]
  case dev =>
    rw [State.get_setFlag_ne _ _ _ _ (by decide), State.get_setFlag_ne _ _ _ _ (by decide), State.get_setFlag_ne _ _ _ _ (by decide),
      State.get_setFlag_ne _ _ _ _ (by decide), State.get_set_ne _ _ _ _ (by decide), State.get_set_ne _ _ _ _ (by decide), State.get_set_ne _ _ _ _ (by decide)]

end

end Sys2Proof.Machine

namespace Sys2Proof.Proofs

open Sys2Proof.Machine

/-- Settles O54: a write of PD_CTRL that moves one domain acts there alone; the other clauses are the equations of the supplies' and clocks' commands. -/
theorem powerCommands : Obligations.PowerCommands := by
  intro s
  refine ⟨fun v d on hmode hd hsame hv hcur => ?write, fun d on u hheld hqueue hbo hu => ?done, fun h => congrArg Host.Outcome.next (s.completeSwitch_none h),
    fun h mv => exec_brownoutWarn_again s h mv, fun h mv u hu => exec_brownoutWarn_first s h mv hu, exec_boRecover_warned s, exec_brownoutLong_counts s,
    exec_brownoutEnd_recovered s, fun h => exec_brownoutLong_none s (.inr h), fun h => exec_brownoutEnd_none s (.inr h),
    fun h => ⟨exec_boRecover_normal s h, exec_brownoutLong_none s (.inl (by rw [h]; decide)), exec_brownoutEnd_none s (.inl (by rw [h]; decide))⟩,
    exec_vddWindowExcursion_inside s, fun mv u hu => exec_vddWindowExcursion_left s mv hu, exec_tjRange_inside s, exec_tjRange_outside s,
    fun ref fab eng href href' hfab hfab' heng heng' => ?clocks⟩
  case write =>
    have hrest := s.pdStep_rest v.toNat d
    refine ⟨_, congrArg Host.Outcome.next (s.writePdCtrl_one hmode hsame hd), hrest.1, hrest.2, fun hmay => ?_, fun hmay => ?_⟩
    · rw [s.pdStep_moved hmode hv hcur, if_pos hmay]
      exact s.pdQueue_result on hd
    · rw [s.pdStep_moved hmode hv hcur, if_neg (Bool.eq_false_iff.1 hmay)]
      exact s.pdRefuse_result
  case done =>
    have honly : exec .pdDone s = _ := congrArg Host.Outcome.next (s.completeSwitch_only hheld hqueue hbo hu)
    refine ⟨fun hon => ?_, fun hon h1 h14 => ?_, fun hon h1 => ?_, fun hon h14 => ?_⟩
    · rw [honly, hon, State.when_false]
    · rw [honly, hon, State.when_true, State.switchedOn, decide_eq_false h1, decide_eq_false h14, State.when_false, State.when_false]
    · rw [honly, hon, State.when_true, State.switchedOn, h1]; rfl
    · rw [honly, hon, State.when_true, State.switchedOn, h14]; rfl
  case clocks =>
    obtain ⟨hgrd, href'', hfab'', heng'', hdev⟩ := s.clocksGood_fields ref.toNat fab.toNat eng.toNat
    refine ⟨_, congrArg Host.Outcome.next (s.gocWindow_inside ⟨href, href'⟩ ⟨hfab, hfab'⟩ ⟨heng, heng'⟩), ?_⟩
    simp only [State.flag_withPower]
    exact ⟨hgrd, href'', hfab'', heng'', hdev, trivial, s.clocksGood_mem _ _ _⟩

end Sys2Proof.Proofs

end

section
/-! Errors and modes (R34 to R53, R321): one equation per command and case. -/

namespace Sys2Proof.Machine

section
variable (s : State)

/-! ## Memory errors -/

section
variable {site : ErrSite} {word : Nat}

/-- What a memory error does at a site that is in service. -/
def State.errorTaken (site : ErrSite) (k : ErrKind) (word : Nat) : State :=
  if k = .single then s.correctedError site.place.1 site.place.2 word else s.uncorrectable site k word

theorem State.errorAt_eq (k : ErrKind) :
    s.errorAt site k word = if (!s.powered site.place.1 || s.siteUnderTest site) = true then s else s.errorTaken site k word := by
  cases k <;> rfl

theorem State.errorAt_none (h : s.powered site.place.1 = false ∨ s.siteUnderTest site = true) (k : ErrKind) : s.errorAt site k word = s := by
  refine (s.errorAt_eq k).trans (if_pos ?_)
  rcases h with h | h
  · rw [h]; rfl
  · rw [h]; exact Bool.or_true _

section
variable (hpow : s.powered site.place.1 = true) (htest : s.siteUnderTest site = false)
include hpow htest

theorem State.errorAt_taken (k : ErrKind) : s.errorAt site k word = s.errorTaken site k word :=
  (s.errorAt_eq k).trans (if_neg (by rw [hpow, htest]; exact Bool.false_ne_true))

theorem State.errorAt_single : s.errorAt site .single word = s.correctedError site.place.1 site.place.2 word :=
  (s.errorAt_taken hpow htest .single).trans (if_pos rfl)

theorem State.errorAt_other {k : ErrKind} (hk : k ≠ .single) : s.errorAt site k word = s.uncorrectable site k word :=
  (s.errorAt_taken hpow htest k).trans (if_neg hk)

end

end

/-! ## Crossbar timeouts -/

/-- A timeout of a target noted and counted (R34). -/
def State.noteTimeout (t : Nat) : State :=
  ({ s with health := { s.health with timeouts := setAt s.health.timeouts t (s.health.timeouts.getD t 0 + 1) } }).countRaise CHIP.XBAR_TMO_CNT .chip 8

section
variable {t : BitVec 3} (init : Initiator)

theorem exec_crossbarTimeout_outside (h : 5 ≤ t.toNat) : exec (.crossbarTimeout ⟨t, init⟩) s = .next s :=
  congrArg Host.Outcome.next (if_neg (Nat.not_lt.2 h))

section
variable (ht : t.toNat < 5)
include ht

theorem exec_crossbarTimeout_target : exec (.crossbarTimeout ⟨t, init⟩) s = .next ((s.crossbarTimeout t.toNat).answerTimeout init) :=
  congrArg Host.Outcome.next (if_pos ht)

theorem exec_crossbarTimeout_early (h : s.health.timeouts.getD t.toNat 0 < 2) :
    exec (.crossbarTimeout ⟨t, init⟩) s = .next (((s.noteTimeout t.toNat).classDE .chip t.toNat 4 0).answerTimeout init) :=
  (exec_crossbarTimeout_target s init ht).trans (congrArg (fun u : State => Host.Outcome.next (u.answerTimeout init)) (if_pos (Nat.succ_lt_succ h)))

/-- From the third timeout in a cycle on, what a target's region loses. -/
def State.timeoutUE (target : Nat) : State :=
  if target = 0 then s.regionUE .chip .A 0 4 0 else if target = 1 then s.regionUE .chip .B 1 4 0 else s.chipUE .chip target target 4 0

omit ht in
theorem State.crossbarTimeout_late {n : Nat} (h : 2 ≤ s.health.timeouts.getD n 0) : s.crossbarTimeout n = (s.noteTimeout n).timeoutUE n := by
  refine (if_neg (Nat.not_lt.2 (Nat.succ_le_succ h))).trans ?_
  rcases n with _ | _ | n
  · exact (if_pos rfl).symm
  · exact ((if_neg (by decide)).trans (if_pos rfl)).symm
  · exact ((if_neg (by omega)).trans (if_neg (by omega))).symm

theorem exec_crossbarTimeout_late (h : 2 ≤ s.health.timeouts.getD t.toNat 0) :
    exec (.crossbarTimeout ⟨t, init⟩) s = .next (((s.noteTimeout t.toNat).timeoutUE t.toNat).answerTimeout init) := by
  rw [exec_crossbarTimeout_target s init ht, s.crossbarTimeout_late h]

end

end

/-! ## Lockstep and the channel mode -/

theorem exec_lockstepMiscompare_lost (hmode : s.lockedMode = true) (hlost : s.flag CHIP.CH_MODE_LOCK_LOST = false) :
    exec .lockstepMiscompare s = .next (((s.chipUE .chip 4 0 5 0).quarantineMark .A).quarantineMark .B) :=
  congrArg Host.Outcome.next (if_pos (by rw [hmode, hlost]; rfl))

theorem exec_lockstepMiscompare_none (h : s.lockedMode = false ∨ s.flag CHIP.CH_MODE_LOCK_LOST = true) : exec .lockstepMiscompare s = .next s := by
  refine congrArg Host.Outcome.next (if_neg ?_)
  rcases h with h | h
  · rw [h]; exact Bool.false_ne_true
  · rw [h, Bool.not_true, Bool.and_false]; exact Bool.false_ne_true

theorem exec_chModeWrite_running (on : Bool) (h : s.bothOff = false) : exec (.chModeWrite on) s = .next (s.refuse .chip) :=
  congrArg Host.Outcome.next (if_pos (by rw [h]; rfl))

section
variable (hoff : s.bothOff = true)
include hoff

theorem State.bothOff_taken : ¬ (!s.bothOff) = true := by
  rw [hoff]
  exact Bool.false_ne_true

theorem exec_chModeWrite_same : exec (.chModeWrite s.lockedMode) s = .next s :=
  congrArg Host.Outcome.next ((if_neg (s.bothOff_taken hoff)).trans (if_pos rfl))

section
variable {on : Bool} (hon : on ≠ s.lockedMode)
include hon

theorem exec_chModeWrite_lockedPage (hlock : s.locked .chip = true) : exec (.chModeWrite on) s = .next (s.refuse .chip) :=
  congrArg Host.Outcome.next ((if_neg (s.bothOff_taken hoff)).trans ((if_neg hon).trans (if_pos hlock)))

theorem exec_chModeWrite_changes (hlock : s.locked .chip = false) :
    exec (.chModeWrite on) s = .next ((s.stampConfig .chip).setFlag CHIP.CH_MODE_MODE on) :=
  congrArg Host.Outcome.next ((if_neg (s.bothOff_taken hoff)).trans ((if_neg hon).trans (if_neg (Bool.eq_false_iff.1 hlock))))

end

end

/-! ## TWIN_CTRL -/

/-- Taking the hat away leaves every field but those that show it. -/
theorem State.setHat_off_get (n : Nat) {q : Reg} (hq : q.key ∉ [TWIN.TWIN_STAT_HAT_STATE, HDR.INT_RAW .twin, TWIN.HAT_CYCLE, TWIN.TWIN_STAT_PEER_LOST].map Reg.key) :
    (s.setHat hatOFF n).get q = s.get q := by
  simp only [List.map_cons, List.map_nil, List.mem_cons, List.not_mem_nil, or_false, not_or] at hq
  obtain ⟨hstate, hint, hcycle, hlost⟩ := hq
  unfold State.setHat
  refine (State.when_observe (fun t => t.get q) (fun _ => by rfl) _ _).trans ?_
  refine (State.when_observe (fun t => t.get q) (fun t => ?_) _ _).trans ?_
  · rw [State.withTwin_get, State.get_setFlag_ne _ _ _ _ hlost, State.get_set_ne _ _ _ _ hcycle, State.get_raise_ne _ _ _ _ hint]
  · rw [decide_eq_false (show ¬ hatOFF = hatWEARING by decide), Bool.false_and, State.when_false, State.get_set_ne _ _ _ _ hstate]

/-- EN written 0 ends every hat state. -/
def State.dropHat (on : Bool) : State := s.when (!on && s.hat != hatOFF) fun s => (s.setHat hatOFF s.cycle).dropHatOut

theorem State.dropHat_get (on : Bool) {q : Reg}
    (hq : q.key ∉ [TWIN.TWIN_STAT_HAT_STATE, HDR.INT_RAW .twin, TWIN.HAT_CYCLE, TWIN.TWIN_STAT_PEER_LOST].map Reg.key)
    (hout : q.key ≠ TWIN.TWIN_STAT_HAT_OUT.key) : (s.dropHat on).get q = s.get q := by
  unfold State.dropHat
  refine State.when_observe (fun t => t.get q) (fun t => ?_) _ s
  rw [State.dropHatOut, State.withTwin_get, State.get_set_ne _ _ _ _ hout, t.setHat_off_get _ hq]

/-- EN and LINE of TWIN_CTRL written. -/
def State.writeTwinMode (v : Nat) : State :=
  (((s.stampConfig .twin).setFlag TWIN.TWIN_CTRL_EN (bitOf v 0)).setFlag TWIN.TWIN_CTRL_LINE (bitOf v 1)).dropHat (bitOf v 0)

/-- ENG_TX_FOLLOW, HANDOVER and HOST_GRANT of TWIN_CTRL written, after EN and LINE. -/
def State.writeTwinRest (before : State) (v : Nat) : State :=
  let s :=
    if bitOf v 2 = s.flag TWIN.TWIN_CTRL_ENG_TX_FOLLOW then s
    else if s.locked .twin then s.refuse .twin
    else (s.stampConfig .twin).setFlag TWIN.TWIN_CTRL_ENG_TX_FOLLOW (bitOf v 2)
  let s := s.when (bitOf v 8 != s.flag TWIN.TWIN_CTRL_HANDOVER) fun s => s.writeHandover (bitOf v 8)
  ((s.recheckLines before).settleHat).writeHostGrant (v / 2 ^ 16)

theorem State.writeTwinRest_same {before : State} {v : Nat} (hfollow : bitOf v 2 = s.flag TWIN.TWIN_CTRL_ENG_TX_FOLLOW)
    (hhand : bitOf v 8 = s.flag TWIN.TWIN_CTRL_HANDOVER) :
    s.writeTwinRest before v = ((s.recheckLines before).settleHat).writeHostGrant (v / 2 ^ 16) := by
  rw [State.writeTwinRest, if_pos hfollow, hhand, bne_self_eq_false, State.when_false]

theorem exec_twinCtrlWrite_unpowered (hpow : s.powered .twin = false) (v : Word) : exec (.twinCtrlWrite v) s = .next s :=
  congrArg Host.Outcome.next (if_neg (Bool.eq_false_iff.1 hpow))

section
variable {v : Word} (hpow : s.powered .twin = true) (hmoves : bitOf v.toNat 0 ≠ s.twin ∨ bitOf v.toNat 1 ≠ s.flag TWIN.TWIN_CTRL_LINE)
include hpow hmoves

theorem exec_twinCtrlWrite_moves : exec (.twinCtrlWrite v) s
    = .next ((if s.locked .twin || !s.bothOff then s.refuse .twin else s.writeTwinMode v.toNat).writeTwinRest s v.toNat) := by
  have hmove : (bitOf v.toNat 0 != s.twin || bitOf v.toNat 1 != s.flag TWIN.TWIN_CTRL_LINE) = true := by
    rcases hmoves with h | h
    · rw [bne_iff_ne.2 h, Bool.true_or]
    · rw [bne_iff_ne.2 h, Bool.or_true]
  refine congrArg Host.Outcome.next ((if_pos hpow).trans ?_)
  unfold State.writeTwinCtrl
  rw [hmove]
  rfl

section
variable (hfollow : bitOf v.toNat 2 = s.flag TWIN.TWIN_CTRL_ENG_TX_FOLLOW) (hhand : bitOf v.toNat 8 = s.flag TWIN.TWIN_CTRL_HANDOVER)
include hfollow hhand

theorem exec_twinCtrlWrite_refused (h : s.bothOff = false ∨ s.locked .twin = true) :
    exec (.twinCtrlWrite v) s = .next ((((s.refuse .twin).recheckLines s).settleHat).writeHostGrant (v.toNat / 2 ^ 16)) := by
  have hrefused : (s.locked .twin || !s.bothOff) = true := by
    rcases h with h | h
    · rw [h]; exact Bool.or_true _
    · rw [h]; exact Bool.true_or _
  have hflag : ∀ q ∈ [TWIN.TWIN_CTRL_ENG_TX_FOLLOW, TWIN.TWIN_CTRL_HANDOVER], (s.refuse .twin).flag q = s.flag q := fun q hq =>
    State.flag_congr (State.get_noteError_ne _ _ _ _ _ _ _ q (by revert q; decide))
  rw [exec_twinCtrlWrite_moves s hpow hmoves, if_pos hrefused,
    State.writeTwinRest_same _ (hfollow.trans (hflag _ (List.mem_cons_self ..)).symm) (hhand.trans (hflag _ (List.mem_cons_of_mem _ (List.mem_cons_self ..))).symm)]

theorem exec_twinCtrlWrite_taken (hoff : s.bothOff = true) (hlock : s.locked .twin = false) :
    exec (.twinCtrlWrite v) s = .next ((((s.writeTwinMode v.toNat).recheckLines s).settleHat).writeHostGrant (v.toNat / 2 ^ 16)) := by
  have hother : ∀ q ∈ [TWIN.TWIN_CTRL_ENG_TX_FOLLOW, TWIN.TWIN_CTRL_HANDOVER],
      q.key ∉ [TWIN.TWIN_STAT_HAT_STATE, HDR.INT_RAW .twin, TWIN.HAT_CYCLE, TWIN.TWIN_STAT_PEER_LOST].map Reg.key
      ∧ q.key ≠ TWIN.TWIN_STAT_HAT_OUT.key ∧ q.key ≠ TWIN.TWIN_CTRL_LINE.key ∧ q.key ≠ TWIN.TWIN_CTRL_EN.key ∧ q.key ≠ (HDR.CFG_CYCLE .twin).key := by decide
  have hflag : ∀ q ∈ [TWIN.TWIN_CTRL_ENG_TX_FOLLOW, TWIN.TWIN_CTRL_HANDOVER], (s.writeTwinMode v.toNat).flag q = s.flag q := fun q hq => by
    obtain ⟨hhat, hout, hline, hen, hstamp⟩ := hother q hq
    refine State.flag_congr ((State.dropHat_get _ _ hhat hout).trans ?_)
    rw [State.get_setFlag_ne _ _ _ _ hline, State.get_setFlag_ne _ _ _ _ hen, State.get_stampConfig_ne _ _ _ hstamp]
  rw [exec_twinCtrlWrite_moves s hpow hmoves, if_neg (by rw [hlock, hoff]; exact Bool.false_ne_true),
    State.writeTwinRest_same _ (hfollow.trans (hflag _ (List.mem_cons_self ..)).symm) (hhand.trans (hflag _ (List.mem_cons_of_mem _ (List.mem_cons_self ..))).symm)]

end

end

end

end Sys2Proof.Machine

namespace Sys2Proof.Proofs

open Sys2Proof.Machine

/-- Settles O56: the equations of the error and mode commands, by the site, the target's count and the mode. -/
theorem errorAndModeCommands : Obligations.ErrorAndModeCommands := by
  intro s site word
  refine ⟨fun hpow htest => ⟨⟨congrArg Host.Outcome.next (s.errorAt_single hpow htest), congrArg Host.Outcome.next (s.errorAt_single hpow htest)⟩,
      fun k hk => ⟨congrArg Host.Outcome.next (s.errorAt_other hpow htest hk), congrArg Host.Outcome.next (s.errorAt_other hpow htest hk)⟩⟩,
    fun h k => ⟨congrArg Host.Outcome.next (s.errorAt_none h k), congrArg Host.Outcome.next (s.errorAt_none h k)⟩, rfl,
    fun t init u ht hu => ⟨fun h => ?early, fun h => ⟨fun h0 => ?first, fun h1 => ?second, fun h0 h1 => ?chip⟩⟩,
    fun t init h => exec_crossbarTimeout_outside s init h, fun b tag hb => ?read, fun b space addr tag hb => ?post, fun c r addr store hr => if_pos hr,
    exec_lockstepMiscompare_lost s, exec_lockstepMiscompare_none s, exec_chModeWrite_running s, exec_chModeWrite_same s,
    fun on hon => ⟨fun hlock => ?locked, fun hlock hoff => exec_chModeWrite_changes s hoff hon hlock⟩,
    fun v hpow hmoves hfollow hhand => ⟨exec_twinCtrlWrite_refused s hpow hmoves hfollow hhand, fun u hoff hlock hu => ?taken⟩,
    exec_twinCtrlWrite_unpowered s⟩
  case early => rw [hu]; exact exec_crossbarTimeout_early s init ht h
  case first => subst h0; rw [hu, exec_crossbarTimeout_late s init ht h, State.timeoutUE, if_pos (by rfl), State.noteTimeout]
  case second => subst h1; rw [hu, exec_crossbarTimeout_late s init ht h, State.timeoutUE, if_neg (by decide), if_pos (by rfl), State.noteTimeout]
  case chip =>
    rw [hu, exec_crossbarTimeout_late s init ht h, State.timeoutUE, if_neg (show ¬ t.toNat = 0 from fun he => h0 (BitVec.eq_of_toNat_eq he)),
      if_neg (show ¬ t.toNat = 1 from fun he => h1 (BitVec.eq_of_toNat_eq he)), State.noteTimeout]
  case read => rw [State.answerTimeout, hb, State.when_true]
  case post => rw [State.answerTimeout, hb, State.when_true]
  case locked =>
    cases hoff : s.bothOff
    · exact exec_chModeWrite_running s on hoff
    · exact exec_chModeWrite_lockedPage s hoff hon hlock
  case taken => rw [hu]; exact exec_twinCtrlWrite_taken s hpow hmoves hfollow hhand hoff hlock

end Sys2Proof.Proofs

end

section
/-! Register pages: what GPIO.IN holds after an edge (R461) of a register file that holds more than a field's width. -/

namespace Sys2Proof.Machine

/-- After reset, with every domain powered, but with a 33rd bit in GPIO.IN, a field of 32 bits. No write leaves such a store: `State.set` cuts what it stores. -/
def State.overfullPins : State := 
  { State.reset with regs := store GPIO.IN.reset (State.reset.set PWR.PD_STAT_ON 0xFFFF).regs GPIO.IN.key (2 ^ 32) }

theorem State.overfullPins_powered : State.overfullPins.powered .gpio = true := by decide

/-- The 33rd bit is there before the edge and gone after it. -/
theorem State.overfullPins_cut : (State.overfullPins.set GPIO.IN (withBit (State.overfullPins.get GPIO.IN) 0 true)).get GPIO.IN
    ≠ withBit (State.overfullPins.get GPIO.IN) 0 true := by decide

end Sys2Proof.Machine

namespace Sys2Proof.Proofs

open Sys2Proof.Machine

/-- Refutes O57: the statement is of every state, also of one whose GPIO.IN holds more than its 32 bits. There the level of a pin is not all that
changes: the write of GPIO.IN also cuts what was beyond the field's width. -/
theorem not_pageCommands : ¬ Obligations.PageCommands := by
  intro h
  obtain ⟨-, -, -, -, -, hpins, -⟩ := h State.overfullPins .gpio 0
  obtain ⟨-, hedge⟩ := hpins 0 true
  exact State.overfullPins_cut (hedge State.overfullPins_powered _ rfl).1

end Sys2Proof.Proofs

end
